-- ==== Sys2Proof/Word.lean ====
section
/-!
DEFINITION. The word types of the model, and the plainest arithmetic on them.
-/

namespace Sys2Proof

/-- A 64-bit word: a tile register, a BAR0 register (00_scope.md R6). -/
abbrev Word := BitVec 64

/-- A byte. -/
abbrev Byte := BitVec 8

/-- A byte string: an image, a message body, a digest. -/
abbrev Bytes := List Byte

/-- A byte address of device memory or of a scratchpad, as a number. -/
abbrev Addr := Nat

/-- Bits `hi` down to `lo` of a number. -/
def bitsOf (x hi lo : Nat) : Nat := x / 2 ^ lo % 2 ^ (hi + 1 - lo)

end Sys2Proof
end

