-- ==== Sys2Proof/Syntax.lean ====
section
/-!
DEFINITION. The commands: the ONE inductive of the block, a constructor per row of the opcode table, with
operands of the model's own (the table gives a row no bits: assumption log 3).
-/

namespace Sys2Proof

/-- A tile by its linear index (00_scope.md R16). -/
abbrev TileIx := Fin 1536

/-- A partition number (00_scope.md R14). -/
abbrev PartIx := Fin 32

/-- A queue number (00_scope.md R14). -/
abbrev QueueIx := Fin 4096

/-- A port number (00_scope.md R14). -/
abbrev PortIx := Fin 16

/-- A cluster by die × 24 + cluster number (00_scope.md R15). -/
abbrev ClusterIx := Fin 96

/-- A memory controller (12_prism_memory_protection.md). -/
abbrev CtrlIx := Fin 12

/-- A tile-core register number. -/
abbrev GReg := Fin 32

/-- The guard of an instruction (04_tile_core.md R88): it executes when p[pg] differs from pn. -/
structure Guard where
  pg : Fin 8
  pn : Bool
  deriving DecidableEq, Repr

/-- What befalls a line access beside its normal course (16_reliability_and_integrity.md R388 to R398;
12_prism_memory_protection.md R286, R291): physical events, which the command carries. -/
inductive LineFault where
  | none
  /-- a correctable error of a symbol in a code word of the line -/
  | ce (cw : Fin 2) (sym : Fin 72)
  /-- a correctable error of a symbol in the tag code word (area 0), the leaf (1) or a stored upper node of a level (2) -/
  | ceMeta (area : Fin 3) (level : Fin 9) (cw : Fin 2) (sym : Fin 72)
  /-- an uncorrectable error of a code word of the line -/
  | ue (cw : Fin 2)
  /-- an uncorrectable error of the tag code word that holds the line's tag -/
  | tagUe
  /-- the stored line, tag or counter was altered or replayed, and its ECC shows nothing -/
  | altered
  /-- the sector's leaf is uncorrectable, or fails its digest without an ECC error when `digest` -/
  | leaf (digest : Bool)
  /-- one stored copy of an upper node fails -/
  | upperOne (level : Fin 9) (digest : Bool)
  /-- both copies of an upper node fail: the sectors below it beside this one, by the places of their first bytes -/
  | upperBoth (level : Fin 9) (digest : Bool) (others : List Nat)
  /-- a counter-cache entry fails in a clean entry or in one bank of a dirty one -/
  | cacheEntry
  /-- a dirty counter-cache entry of the sector's leaf fails in both banks -/
  | cacheBoth
  /-- a key-cache entry fails -/
  | keyCache
  /-- the key-table entry of the access fails -/
  | keyTable
  /-- a single-bit error in an on-die array that the access uses is corrected -/
  | sramCe
  /-- the line is one of the system structures and one copy of it fails, or both -/
  | system (both : Bool)
  deriving DecidableEq, Repr

/-- What befalls a flit or a packet on its way (02_fabric.md R46, R48): physical events, which the command carries. -/
inductive NetFault where
  | none
  /-- a router detects a parity error and discards it -/
  | parity
  /-- a router discards it at the partition's boundary -/
  | boundary
  deriving DecidableEq, Repr

/-- What a plain register write reaches (00_scope.md R7; 14_host_attach.md R341, R343): the 8 bytes of BAR0 at offset
8 × `word`, or the Message Control word of the MSI-X capability in configuration space. -/
inductive RegTarget where
  | bar0 (word : Fin 8388608)
  | msixControl
  deriving DecidableEq, Repr

/-- What POWER_LIMIT measures (18_power_clocks_and_reset.md R427): the average of 100 ms in watts, and whether the draw is at the
limit of 3,300 W. -/
structure PowerDraw where
  watts : BitVec 12
  peak : Bool
  deriving DecidableEq, Repr

/-- What befalls a mover command's transfers: whether they meet an uncorrectable error of the scratchpad, and a fault of the memory
network with the number of the line it meets (02_fabric.md R46, R48; 04_tile_core.md R105; 16_reliability_and_integrity.md
R395). -/
structure MoverEvent where
  ue : Bool
  line : Nat
  fault : NetFault
  deriving DecidableEq, Repr

/-- A visit of the hasher: which of the shards left in its lap, and what its lines meet (11_memory_tiers_and_weights.md R280). -/
structure ShardVisit where
  index : Nat
  met : List (Word × LineFault)
  deriving DecidableEq, Repr

/-- The bytes that the debug access port writes, none for a read, and what the access meets (12_prism_memory_protection.md
R305). -/
structure DebugData where
  bytes : List Byte
  fault : LineFault
  deriving DecidableEq, Repr

/-- The commands of the block: one constructor per row of spec/opcode_table.json, those with operands first, each part in
table order. -/
inductive Instr where
  /-- THERMAL_STRETCH (R24). A die junction reaches 105 °C, so the module stretches FCLK in the affected clusters and raises a thermal event. -/
  | thermalStretch (die : Fin 6) (celsius : Byte) (step : Fin 64)
  /-- THERMTRIP (R25). A junction reaches 115 °C, so the module asserts THERMTRIP_OUT_N and turns off all conversion except the Pilot island supply within 1 ms. -/
  | thermtrip (die : Fin 6) (celsius : Byte)
  /-- POWER_LIMIT (R427). The measured draw goes past the sustained or peak limit, so the power controller changes the FCLK stretch of every ACTIVE cluster. -/
  | powerLimit (step : Fin 64) (draw : PowerDraw)
  /-- FEED_WARN (R424). A feed voltage enters the warning band and FEED_WARN is set. -/
  | feedWarn (feed : Fin 2) (dv : BitVec 10)
  /-- FEED_FAIL (R424). A feed leaves the range for 2 µs, or goes above 63 V and is isolated, so it is declared failed and FEED_FAIL is set. -/
  | feedFail (feed : Fin 2) (dv : BitVec 10)
  /-- FEED_RETURN (R426). A failed feed comes back into range; during a loss of both feeds it is used at once and BOTH_LOST is set. -/
  | feedReturn (feed : Fin 2) (dv : BitVec 10)
  /-- FEED_RESTORE_TIMER (R424). A returned feed has stayed in range for 1 s, so it becomes OK again and feed A is taken back into use. -/
  | feedRestoreTimer (feed : Fin 2)
  /-- COLD_RESET (R440). A feed rises while the Pilot island is unpowered, which restarts everything, zeroes memory and begins bring-up. -/
  | coldReset (feed : Fin 2) (dv : BitVec 10)
  /-- BRING_UP_COMPLETE (R444). Bring-up ends, so READY_OUT rises, GLOBAL_STAT.READY is set and named ports begin to train. -/
  | bringUpComplete (failed : Fin 12) (hbm : BitVec 8) (clusters : BitVec 96) (modules : BitVec 4)
  /-- MODULE_RESET (R442). The vendor MCTP command 0x01 answers and then performs a module reset. -/
  | moduleReset (req : Option (List Byte))
  /-- HUB_WARM_RESET (R442). The vendor MCTP command 0x02 answers and then performs a hub warm reset. -/
  | hubWarmReset (req : Option (List Byte))
  /-- STEWARD_RESET (R442). The vendor MCTP command 0x03 answers and then performs a Steward reset. -/
  | stewardReset (req : Option (List Byte))
  /-- POWER_STATUS (R442). The vendor MCTP command 0x04 returns PWR_STAT, PWR_EVENT, THERM_STAT, CALIB_STAT and GLOBAL_STAT. -/
  | powerStatus (req : Option (List Byte))
  /-- PART_RESET (R441). A write to PART_RESET resets each selected defined partition: running work stops with 0x0801, the image is unloaded and Eclipse runs. -/
  | partReset (mask : BitVec 32)
  /-- TILE_RESET (R441). TILE_RESET.GO resets the core state of an authorised halted tile, which then begins again at its ENTRY. -/
  | tileReset (index : BitVec 11)
  /-- CLUSTER_IDLE_ENTRY (R433). After 256 cycles without activity, a cluster gates its FCLK and enters IDLE. -/
  | clusterIdleEntry (c : ClusterIx)
  /-- CLUSTER_NAP_ENTRY (R433). A cluster with a loaded image has been IDLE for NAP_AFTER_US, so it enters NAP. -/
  | clusterNapEntry (c : ClusterIx)
  /-- CLUSTER_WAKE_COMPLETE (R433). A waking cluster reaches ACTIVE, after clearing and self-test when it was DARK, and waiting work proceeds. -/
  | clusterWakeComplete (c : ClusterIx) (bad : Bool)
  /-- CALIB_BIN_FILL (R436). A cluster has run 200 ms in a load bin at the fused margin, so the bin is filled with a calibrated voltage. -/
  | calibBinFill (c : ClusterIx) (bin : Fin 8) (millivolts : Fin 4096)
  /-- FRAME_LOAD (R81). FRAME_LOAD_CTRL.GO reads and checks a frame image and then, if it is accepted, applies it or stores it as the start frame. -/
  | frameLoad (persist : Bool)
  /-- JOB_LOAD (R79). JOB_LOAD_CTRL.GO reads a job image, checks it in the order of R78 and, if it is accepted, writes the partition's state. -/
  | jobLoad (p : PartIx)
  /-- JOB_LOAD_COMPLETE (R79). A job load finishes, so DONE and CODE are set, LOADED is set on success and coded tiles begin at their ENTRY. -/
  | jobLoadComplete (p : PartIx)
  /-- UNLOAD (R80). JOB_LOAD_CTRL.UNLOAD releases the partition's image and reservation, unbinds the context and starts Eclipse. -/
  | unload (p : PartIx)
  /-- ECLIPSE_COMPLETE (R314). Every tile and Prism instance confirms the clear, so ECLIPSE_LAST is written. -/
  | eclipseComplete (p : PartIx) (cycles : BitVec 16)
  /-- PART_CNT_CLEAR (R49). PART_FAB_CTRL.CNT_CLEAR zeroes the partition's fabric counters. -/
  | partCntClear (p : PartIx)
  /-- STREAM_FLIT_SEND (R35). A stream slot that holds a flit and a credit wins round-robin arbitration and sends the flit one hop, forking or writing a sink ring where its route says. -/
  | streamFlitSend (p : PartIx) (stream : Fin 4096) (branch : Fin 16) (hop : Fin 128) (fault : NetFault)
  /-- CREDIT_RETURN (R35). A stream credit arrives back at its slot 2 cycles, or 14 across an edge, after its flit left the buffer. -/
  | creditReturn (p : PartIx) (stream : Fin 4096) (branch : Fin 16) (hop : Fin 128)
  /-- MSG_PACKET_ARRIVE (R40). A message packet reaches its destination endpoint's receive queue. -/
  | msgPacketArrive (i : Nat) (fault : NetFault)
  /-- MSG_CREDIT_RETURN (R95). A KIND 1 credit-return packet restores one credit to the sending endpoint. -/
  | msgCreditReturn (i : Nat) (fault : NetFault)
  /-- EDGE_REPLAY (R41). A transfer unit on a die edge or bridge fails its CRC or tag and is replayed under the same sequence number. -/
  | edgeReplay (e : Fin 8) (dir : Fin 2)
  /-- EDGE_FAIL (R48). After 8 consecutive failed replays an edge or bridge is marked failed, and every context that uses it errors with 0x0304. -/
  | edgeFail (e : Fin 8)
  /-- EDGE_REKEY (R43). The sequence number of an edge direction reaches 2⁶³, so the hub draws a new key and both ends change key. -/
  | edgeRekey (e : Fin 8) (dir : Fin 2)
  /-- ILLEGAL_INSTRUCTION (R90). An instruction word with an unlisted OP or FN, a reserved bit set, or a bad N raises exception 0x0307. -/
  | illegalInstruction (t : TileIx) (word : Option (BitVec 32))
  /-- ADD (R91). Writes g[rs1] + g[rs2] to g[rd]. -/
  | add (t : TileIx) (gd : Guard) (rd rs1 rs2 : GReg)
  /-- SUB (R91). Writes g[rs1] − g[rs2] to g[rd]. -/
  | sub (t : TileIx) (gd : Guard) (rd rs1 rs2 : GReg)
  /-- AND (R91). Writes the bitwise AND of two registers to g[rd]. -/
  | and (t : TileIx) (gd : Guard) (rd rs1 rs2 : GReg)
  /-- OR (R91). Writes the bitwise OR of two registers to g[rd]. -/
  | or (t : TileIx) (gd : Guard) (rd rs1 rs2 : GReg)
  /-- XOR (R91). Writes the bitwise XOR of two registers to g[rd]. -/
  | xor (t : TileIx) (gd : Guard) (rd rs1 rs2 : GReg)
  /-- SLL (R91). Shifts g[rs1] left by g[rs2] mod 64. -/
  | sll (t : TileIx) (gd : Guard) (rd rs1 rs2 : GReg)
  /-- SRL (R91). Shifts g[rs1] right logically by g[rs2] mod 64. -/
  | srl (t : TileIx) (gd : Guard) (rd rs1 rs2 : GReg)
  /-- SRA (R91). Shifts g[rs1] right arithmetically by g[rs2] mod 64. -/
  | sra (t : TileIx) (gd : Guard) (rd rs1 rs2 : GReg)
  /-- MUL (R91). Writes the low 64 bits of the product to g[rd]. -/
  | mul (t : TileIx) (gd : Guard) (rd rs1 rs2 : GReg)
  /-- MULHU (R91). Writes the high 64 bits of the unsigned product to g[rd]. -/
  | mulhu (t : TileIx) (gd : Guard) (rd rs1 rs2 : GReg)
  /-- DIVU (R91). Writes the unsigned quotient to g[rd], or all ones on division by zero. -/
  | divu (t : TileIx) (gd : Guard) (rd rs1 rs2 : GReg)
  /-- REMU (R91). Writes the unsigned remainder to g[rd], or g[rs1] on division by zero. -/
  | remu (t : TileIx) (gd : Guard) (rd rs1 rs2 : GReg)
  /-- MIN (R91). Writes the signed minimum to g[rd]. -/
  | smin (t : TileIx) (gd : Guard) (rd rs1 rs2 : GReg)
  /-- MAX (R91). Writes the signed maximum to g[rd]. -/
  | smax (t : TileIx) (gd : Guard) (rd rs1 rs2 : GReg)
  /-- MINU (R91). Writes the unsigned minimum to g[rd]. -/
  | minu (t : TileIx) (gd : Guard) (rd rs1 rs2 : GReg)
  /-- MAXU (R91). Writes the unsigned maximum to g[rd]. -/
  | maxu (t : TileIx) (gd : Guard) (rd rs1 rs2 : GReg)
  /-- POPC (R91). Writes the number of 1 bits in g[rs1] to g[rd]. -/
  | popc (t : TileIx) (gd : Guard) (rd rs1 : GReg)
  /-- CLZ (R91). Writes the number of leading zeros of g[rs1] to g[rd]. -/
  | clz (t : TileIx) (gd : Guard) (rd rs1 : GReg)
  /-- ADDI (R91). Adds a sign-extended imm12 to g[rs1]. -/
  | addi (t : TileIx) (gd : Guard) (rd rs1 : GReg) (imm : BitVec 12)
  /-- ANDI (R91). Writes the AND of g[rs1] and a sign-extended imm12. -/
  | andi (t : TileIx) (gd : Guard) (rd rs1 : GReg) (imm : BitVec 12)
  /-- ORI (R91). Writes the OR of g[rs1] and a sign-extended imm12. -/
  | ori (t : TileIx) (gd : Guard) (rd rs1 : GReg) (imm : BitVec 12)
  /-- XORI (R91). Writes the XOR of g[rs1] and a sign-extended imm12. -/
  | xori (t : TileIx) (gd : Guard) (rd rs1 : GReg) (imm : BitVec 12)
  /-- SLLI (R91). Shifts g[rs1] left by imm12[5:0]. -/
  | slli (t : TileIx) (gd : Guard) (rd rs1 : GReg) (sh : BitVec 6)
  /-- SRLI (R91). Shifts g[rs1] right logically by imm12[5:0]. -/
  | srli (t : TileIx) (gd : Guard) (rd rs1 : GReg) (sh : BitVec 6)
  /-- SRAI (R91). Shifts g[rs1] right arithmetically by imm12[5:0]. -/
  | srai (t : TileIx) (gd : Guard) (rd rs1 : GReg) (sh : BitVec 6)
  /-- MOVZ (R91). Writes imm16 shifted by 16 × HW to g[rd], with no guard. -/
  | movz (t : TileIx) (rd : GReg) (hw : Fin 4) (imm : BitVec 16)
  /-- MOVK (R91). Replaces one 16-bit field of g[rd] with imm16, with no guard. -/
  | movk (t : TileIx) (rd : GReg) (hw : Fin 4) (imm : BitVec 16)
  /-- CMP (R91). Sets p[pd] from the condition COND on two registers. -/
  | cmp (t : TileIx) (gd : Guard) (pd : Fin 8) (cond : Fin 8) (rs1 rs2 : GReg)
  /-- CMPI (R91). Sets p[pd] from the condition COND on a register and a sign-extended imm11. -/
  | cmpi (t : TileIx) (gd : Guard) (pd : Fin 8) (cond : Fin 8) (rs1 : GReg) (imm : BitVec 11)
  /-- PLOG (R91). Sets p[pd] from a logical combination of two predicates. -/
  | plog (t : TileIx) (gd : Guard) (pd pa pb : Fin 8) (fn : Fin 4)
  /-- LDB (R93). Loads 1 scratchpad byte, zero-extended. -/
  | ldb (t : TileIx) (gd : Guard) (rd rs1 : GReg) (imm : BitVec 12) (ue : Bool)
  /-- LDH (R93). Loads 2 aligned scratchpad bytes, zero-extended. -/
  | ldh (t : TileIx) (gd : Guard) (rd rs1 : GReg) (imm : BitVec 12) (ue : Bool)
  /-- LDW (R93). Loads 4 aligned scratchpad bytes, zero-extended. -/
  | ldw (t : TileIx) (gd : Guard) (rd rs1 : GReg) (imm : BitVec 12) (ue : Bool)
  /-- LDD (R93). Loads 8 aligned scratchpad bytes. -/
  | ldd (t : TileIx) (gd : Guard) (rd rs1 : GReg) (imm : BitVec 12) (ue : Bool)
  /-- STB (R93). Stores the low byte of g[rd] to the scratchpad. -/
  | stb (t : TileIx) (gd : Guard) (rd rs1 : GReg) (imm : BitVec 12) (ue : Bool)
  /-- STH (R93). Stores the low 2 bytes of g[rd] to an aligned scratchpad address. -/
  | sth (t : TileIx) (gd : Guard) (rd rs1 : GReg) (imm : BitVec 12) (ue : Bool)
  /-- STW (R93). Stores the low 4 bytes of g[rd] to an aligned scratchpad address. -/
  | stw (t : TileIx) (gd : Guard) (rd rs1 : GReg) (imm : BitVec 12) (ue : Bool)
  /-- STD (R93). Stores 8 bytes of g[rd] to an aligned scratchpad address. -/
  | std (t : TileIx) (gd : Guard) (rd rs1 : GReg) (imm : BitVec 12) (ue : Bool)
  /-- BR (R91). Sets PC to TGT. -/
  | br (t : TileIx) (gd : Guard) (tgt : Fin 32768)
  /-- CALL (R91). Saves PC + 1 in g31 and sets PC to TGT. -/
  | call (t : TileIx) (gd : Guard) (tgt : Fin 32768)
  /-- JR (R91). Jumps to g[rs1] + imm12, raising 0x0307 when the target is past 32,767. -/
  | jr (t : TileIx) (gd : Guard) (rs1 : GReg) (imm : BitVec 12)
  /-- SEND (R92). Sends N words on a MSG or HUB endpoint when a credit is held, waiting or failing non-blocking otherwise. -/
  | send (t : TileIx) (gd : Guard) (reg : GReg) (ch : Fin 64) (n : Fin 16) (pd : Fin 8) (nb : Bool)
  /-- RECV (R92). Takes the oldest packet or hub reply of an endpoint into registers and RECV_INFO, returning a credit to a MSG peer. -/
  | recv (t : TileIx) (gd : Guard) (reg : GReg) (ch : Fin 64) (n : Fin 16) (pd : Fin 8) (nb : Bool) (ue : Bool)
  /-- RAVAIL (R91). Reads the ready byte count of a SIN ring. -/
  | ravail (t : TileIx) (gd : Guard) (reg : GReg) (ch : Fin 64)
  /-- RREL (R96). Frees bytes at the head of a SIN ring, which returns ring credit. -/
  | rrel (t : TileIx) (gd : Guard) (reg : GReg) (ch : Fin 64)
  /-- MXI (R99). Reads and checks a cube descriptor, waits for a queue entry and issues the command, returning a ticket. -/
  | mxi (t : TileIx) (gd : Guard) (rd rs1 : GReg) (imm : BitVec 12) (ue : Bool)
  /-- VXI (R99). Reads and checks a vector descriptor, waits for a queue entry and issues the command, returning a ticket. -/
  | vxi (t : TileIx) (gd : Guard) (rd rs1 : GReg) (imm : BitVec 12) (ue : Bool)
  /-- MVI (R99). Reads and checks a mover descriptor, waits for a queue entry and issues the command, returning a ticket. -/
  | mvi (t : TileIx) (gd : Guard) (rd rs1 : GReg) (imm : BitVec 12) (ue : Bool)
  /-- WAITT (R92). Waits until the ticket in g[rs1] is done. -/
  | waitt (t : TileIx) (gd : Guard) (rs1 : GReg)
  /-- TESTT (R92). Sets p[pd] to whether a ticket is done. -/
  | testt (t : TileIx) (gd : Guard) (rs1 : GReg) (pd : Fin 8)
  /-- WAITE (R92). Waits until event counter e[ek] is at or after a value. -/
  | waite (t : TileIx) (gd : Guard) (rs1 : GReg) (ek : Fin 16)
  /-- EVADD (R107). Adds g[rs1] to event counter e[ek] modulo 2³². -/
  | evadd (t : TileIx) (gd : Guard) (rs1 : GReg) (ek : Fin 16)
  /-- EVRD (R91). Reads event counter e[ek] into g[rd]. -/
  | evrd (t : TileIx) (gd : Guard) (rd : GReg) (ek : Fin 16)
  /-- WAITU (R91). Waits until the named units have empty queues. -/
  | waitu (t : TileIx) (gd : Guard) (units : BitVec 3)
  /-- CSRR (R86). Reads a CSR into g[rd], raising 0x0307 for an unassigned number. -/
  | csrr (t : TileIx) (gd : Guard) (rd : GReg) (num : BitVec 12)
  /-- CSRW (R107). Writes a CSR, with EVSRC checks and RNG stream writes under R186. -/
  | csrw (t : TileIx) (gd : Guard) (rs1 : GReg) (num : BitVec 12)
  /-- NOP (R91). The tile-core instruction that does nothing. -/
  | nop (t : TileIx) (gd : Guard)
  /-- TRAP (R91). Raises exception 0x0308 and records imm12. -/
  | trap (t : TileIx) (gd : Guard) (imm : BitVec 12)
  /-- HALT (R113). Waits for the unit queues to empty, then halts the tile normally with CAUSE 5. -/
  | halt (t : TileIx) (gd : Guard)
  /-- WAIT_RESUME (R92). The condition of a waiting instruction becomes true, so the core resumes in the next cycle. -/
  | waitResume (t : TileIx)
  /-- WAIT_LIMIT_EXPIRY (R108). A single timed wait passes UNITS × 1,024 cycles, so the tile raises 0x0309. -/
  | waitLimitExpiry (t : TileIx)
  /-- CUBE_COMMAND_START (R141). A queued MXI starts its steps once the previous command and the accumulator interlocks allow it. -/
  | cubeCommandStart (t : TileIx)
  /-- CUBE_COMMAND_DONE (R100). A cube command's outputs, accumulator writes and flags are complete and its completion counter advances in order. -/
  | cubeCommandDone (t : TileIx) (ue : Bool)
  /-- VECTOR_COMMAND_START (R170). A queued VXI starts after the previous vector command and any interlocking MXI are done, reserving its RNG blocks. -/
  | vectorCommandStart (t : TileIx)
  /-- VECTOR_COMMAND_DONE (R100). A vector command completes, and its flags and completion counter are updated. -/
  | vectorCommandDone (t : TileIx) (ue : Bool)
  /-- MOVER_COMMAND_START (R106). A queued MVI starts when fewer than 4 are in progress and, with ORD set, when earlier mover commands are done. -/
  | moverCommandStart (t : TileIx)
  /-- MOVER_COMMAND_DONE (R100). A mover command's transfers and acknowledgements are complete and its completion counter advances. -/
  | moverCommandDone (t : TileIx) (slot : Fin 4) (event : MoverEvent)
  /-- TILE_REPORT (R111). The hub takes a tile error report: it errors the fence, cancels queued commands and sends a stop to the partition. -/
  | tileReport (t : TileIx)
  /-- TILE_STOP (R111). A hub stop reaches a tile, which halts with CAUSE 2 unless it is already halted with CAUSE 1 or 5. -/
  | tileStop (t : TileIx)
  /-- HALT_REQ (R114). TILE_CTRL.HALT_REQ debug-halts a running tile at its next instruction boundary. -/
  | haltReq (t : TileIx)
  /-- TILE_RESUME (R114). TILE_CTRL.RESUME restarts a debug-halted tile. -/
  | tileResume (t : TileIx)
  /-- SSTEP (R114). TILE_CTRL.SSTEP executes one instruction of a debug-halted tile and halts it with CAUSE 4. -/
  | sstep (t : TileIx) (ue : Bool)
  /-- TILE_MEM_DATA (R116). An access to TILE_MEM_DATA reads or writes 8 bytes of the selected tile memory and advances ADDR. -/
  | tileMemData (t : TileIx) (write : Bool) (value : Word)
  /-- STEP_DONE (R98). The hub takes a tile's STEP_DONE, ORs in its UNIT_FLAGS and checks for a protocol fault. -/
  | stepDone (t : TileIx)
  /-- TRACE (R97). The hub appends a TRACE request to the context's trace ring or counts it as dropped. -/
  | traceReq (t : TileIx)
  /-- STEP_INFO (R97). The hub replies with the step number, the captured generation and the schedule position. -/
  | stepInfo (t : TileIx)
  /-- COLLECTIVE (R254). The hub takes a collective request through HUB service 3, checks it and queues it for pairing. -/
  | collectiveReq (t : TileIx)
  /-- COLL_TIMEOUT (R255). A group set-up or collective pairing exceeds COLL_TIMEOUT and errors with 0x0407. -/
  | collTimeout (who : QueueIx ⊕ TileIx)
  /-- DOORBELL (R358). A write to a BAR2 doorbell sets the queue's TAIL, or it is ignored and posts DOORBELL_BAD. -/
  | doorbell (q : QueueIx) (wide : Bool) (value : Word)
  /-- COMMAND_FETCH (R359). The hub reads a ring entry into a free place, advances HEAD and applies checks 1 to 3, or refuses an unreadable entry. -/
  | commandFetch (q : QueueIx)
  /-- NOP_COMMAND (R361). The NOP command starts, waiting on and signalling fences only. -/
  | nopCommand (q : QueueIx)
  /-- STEP (R364). A STEP command starts the next step of its bound context and captures the weight-set generation. -/
  | stepCmd (q : QueueIx)
  /-- COPY (R365). A COPY command moves bytes between two memory-object ranges as the partition master. -/
  | copyCmd (q : QueueIx)
  /-- SWITCH (R204). A SWITCH command writes a new weight set into the free slot, pending until the next clean step boundary or at once with NOW. -/
  | switchSet (q : QueueIx)
  /-- SNAPSHOT (R208). A SNAPSHOT command waits for no step, captures the generation and starts copying tensors into the export region. -/
  | snapshotCmd (q : QueueIx)
  /-- SNAPSHOT_READ_DONE (R208). The read phase of a snapshot ends, so steps resume and any send phase begins. -/
  | snapshotReadDone (q : QueueIx)
  /-- SNAP_DATA (R210). A received SNAP_DATA message is written under DEST_KEY, and the LAST message is answered with a status. -/
  | snapData (port : PortIx)
  /-- SNAP_DATA_REPLY (R210). A SNAP_DATA reply arrives and completes or errors the SNAPSHOT. -/
  | snapDataReply (port : PortIx)
  /-- SNAP_DATA_TIMEOUT (R210). No reply comes 10 s after the LAST message, so the SNAPSHOT errors with 0x040D. -/
  | snapDataTimeout (q : QueueIx)
  /-- MIGRATE (R268). A MIGRATE command waits, holds step starts and copies the region's sectors as stored to the target controllers. -/
  | migrateCmd (q : QueueIx)
  /-- MIGRATE_COMPLETE (R268). The last sector is copied, so placement switches in one cycle, source sectors are freed and steps resume. -/
  | migrateComplete (q : QueueIx) (met : List (Word × LineFault))
  /-- BEACON_LOAD (R276). A BEACON_LOAD command waits, holds step starts and requests the pack index from its first holder. -/
  | beaconLoad (q : QueueIx)
  /-- COLL_GROUP (R253). A COLL_GROUP command defines a collective group and sends GROUP_HELLO to each member. -/
  | collGroup (q : QueueIx)
  /-- COLL_GROUP_FREE (R253). A COLL_GROUP with FREE set deletes the group and sends PEER_NOTE to the other members. -/
  | collGroupFree (q : QueueIx)
  /-- COMMAND_COMPLETE (R363). A command completes: the record is written, the fence is signalled or given a code, and references are dropped. -/
  | commandComplete (q : QueueIx)
  /-- CONTEXT_EVICT (R356). An eviction finishes writing an idle context's save area and frees its slot. -/
  | contextEvict (slot : Fin 48)
  /-- QUEUE_STOP (R374). Q_CTRL.STOP stops the queue from starting commands, entering STOPPING or STOPPED. -/
  | queueStop (q : QueueIx)
  /-- QUEUE_RESUME (R374). Q_CTRL.RESUME returns a stopped or errored queue to RUNNING. -/
  | queueResume (q : QueueIx)
  /-- QUEUE_CANCEL (R374). Q_CTRL.CANCEL cancels every unstarted command of a stopped queue and sets HEAD to TAIL. -/
  | queueCancel (q : QueueIx) (keep : Bool) (code : BitVec 16)
  /-- GLINT_PASS_START (R226). A waiting update pass takes a free place on a Glint unit. -/
  | glintPassStart (c : CtrlIx)
  /-- GLINT_PASS_COMPLETE (R216). Every unit of a pass has had its writes acknowledged, so the step ends. -/
  | glintPassComplete (p : PartIx)
  /-- GLINT_CNT_CLEAR (R230). GLINT_CTRL.CNT_CLEAR zeroes GLINT_ELEMS and GLINT_BYTES. -/
  | glintCntClear (c : CtrlIx)
  /-- LINK_UP (R232). A port finishes training with lane order and polarity corrected and reaches UP. -/
  | linkUp (port : PortIx) (reversed : Bool)
  /-- LOS_RETRY (R232). A port that sees no signal retries training every 100 ms. -/
  | losRetry (port : PortIx)
  /-- TRAIN_TIMEOUT (R232). A Ramom port that has not trained 1 s after first signal enters FAILED and raises 0x0402. -/
  | trainTimeout (port : PortIx)
  /-- PORT_RETRAIN (R242). PORT_CTRL.RETRAIN retrains a port, keeping its session keys. -/
  | portRetrain (port : PortIx)
  /-- PORT_CNT_CLEAR (R261). PORT_CTRL.CNT_CLEAR zeroes the port counters. -/
  | portCntClear (port : PortIx)
  /-- ETH_TAIL_WRITE (R235). Software advances an Ethernet ring TAIL, making descriptors available to the module. -/
  | ethTailWrite (port : PortIx) (rx : Bool) (tail : BitVec 16)
  /-- ETH_FRAME_TRANSMIT (R235). The module takes a transmit descriptor, sends the frame or refuses it, and writes DONE. -/
  | ethFrameTransmit (port : PortIx)
  /-- ETH_FRAME_RECEIVE (R234). A received Ethernet frame is checked and placed into a posted buffer, or dropped and counted. -/
  | ethFrameReceive (port : PortIx) (frame : List Byte)
  /-- GROUP_SEND (R238). A Ramom port sends one group slot: data, control, setup or idle. -/
  | groupSend (port : PortIx) (kind : Fin 4) (picks : List (Fin 4))
  /-- GROUP_RECEIVE (R241). A received group is checked for CRC, SEQ, reserved bits and tag, then accepted or discarded with a NAK. -/
  | groupReceive (port : PortIx) (data : List Byte) (corrected uncorrectable : Nat)
  /-- RETRY_TIMEOUT (R241). ACK has not advanced for 10 µs with groups outstanding, so the sender resends from the oldest. -/
  | retryTimeout (port : PortIx)
  /-- RESEND_RETRAIN (R242). One SEQ has been resent 8 times in a row, so the port retrains and keeps its session state. -/
  | resendRetrain (port : PortIx)
  /-- TAG_FAIL_LIMIT (R242). The 16th tag failure in an epoch ends the session with 0x0404. -/
  | tagFailLimit (port : PortIx)
  /-- REKEY_START (R240). SEQ reaches 2³¹ on a port, so the sender sends REKEY for the next epoch. -/
  | rekeyStart (port : PortIx)
  /-- SEQ_EXHAUSTED (R240). A port reaches SEQ 2³² − 1 without a completed rekey, so the session ends with 0x040B. -/
  | seqExhausted (port : PortIx)
  /-- CONTROL_NOP (R245). A NOP control message is received; its verification under new keys opens a session. -/
  | controlNop (port : PortIx)
  /-- REKEY (R240). A received REKEY makes the receiver derive the next key and answer REKEY_ACK. -/
  | linkRekey (port : PortIx)
  /-- REKEY_ACK (R240). A received REKEY_ACK makes the sender use the new key, toggle PHASE and restart SEQ. -/
  | linkRekeyAck (port : PortIx)
  /-- JOIN (R250). A received JOIN is matched to a HELLO nonce and answered with JOIN_ACK, followed by a rekey. -/
  | linkJoin (port : PortIx)
  /-- JOIN_ACK (R250). A received JOIN_ACK completes a port join and starts a rekey. -/
  | linkJoinAck (port : PortIx)
  /-- JOIN_TIMEOUT (R250). A JOIN unanswered within 500 ms makes the joining port send REFUSE 0x0409. -/
  | joinTimeout (port : PortIx)
  /-- LEAVE (R251). A received LEAVE makes the peer depart and its entry drain. -/
  | linkLeave (port : PortIx)
  /-- LINK_LOSS (R246). A link down for 100 ms loses its unacknowledged groups, or makes the peer depart. -/
  | linkLoss (port : PortIx)
  /-- DRAIN_END (R251). A DRAINING entry becomes FREE after 100 ms. -/
  | drainEnd (n : Fin 256)
  /-- HELLO (R247). A received HELLO starts session set-up, or a join when the identity already has an OPEN session. -/
  | linkHello (port : PortIx)
  /-- SPDM (R248). A setup SPDM message carries mutual attestation and feeds the admission check. -/
  | linkSpdm (port : PortIx)
  /-- KX (R247). A received KX is verified and the session keys and SESSION_ID are derived. -/
  | linkKx (port : PortIx)
  /-- REFUSE (R247). A received REFUSE ends set-up with its code. -/
  | linkRefuse (port : PortIx)
  /-- SETUP_TIMEOUT (R247). Set-up has not reached OPEN in 500 ms, so it restarts from HELLO, or refuses after 3 restarts. -/
  | setupTimeout (port : PortIx)
  /-- REFUSED_HELLO_RETRY (R248). A REFUSED port sends HELLO again every 1 s. -/
  | refusedHelloRetry (port : PortIx)
  /-- COLL_DATA (R259). A received COLL_DATA message is checked and reduced or copied into the member's output. -/
  | collData (port : PortIx)
  /-- GROUP_HELLO (R253). A received GROUP_HELLO is matched; when all members match, the group is ready and COLL_GROUP completes. -/
  | groupHello (port : PortIx)
  /-- PEER_NOTE (R258). A received PEER_NOTE marks the named group broken and errors its collectives with 0x0405. -/
  | peerNote (port : PortIx)
  /-- SHARD_REQ (R274). A holder answers a SHARD_REQ with sealed bytes from its pack table or with status 0x0207. -/
  | shardReq (port : PortIx)
  /-- SHARD_DATA (R276). An arriving shard or index is opened, written, hashed and checked; a failure retries at the next holder. -/
  | shardData (port : Option PortIx) (num : Nat)
  /-- SHARD_TIMEOUT (R277). No SHARD_DATA arrives 2 s after a request, so the shard fails at that holder and the holder is skipped afterwards. -/
  | shardTimeout (num : Nat)
  /-- REHASH_SHARD (R280). The hasher compares a resident shard with its digest and poisons it on a mismatch. -/
  | rehashShard (visit : ShardVisit)
  /-- SHARD_REFETCH (R280). With AUTO_REFETCH set, a poisoned shard is fetched again as a one-shard load. -/
  | shardRefetch (p : PartIx)
  /-- PRISM_LINE_READ (R286). Prism checks an access, verifies counters and the tag of a line, and decrypts it or refuses it. -/
  | prismLineRead (m : Fin 36) (space : Fin 33) (addr : Word) (fault : LineFault)
  /-- PRISM_LINE_WRITE (R292). Prism increments the minor counter, encrypts a full line and writes it with its tag. -/
  | prismLineWrite (m : Fin 36) (space : Fin 33) (addr : Word) (data : List Byte) (fault : LineFault)
  /-- PRISM_PARTIAL_WRITE (R293). Prism performs an atomic read-modify-write of a line for a partial write. -/
  | prismPartialWrite (m : Fin 36) (space : Fin 33) (addr : Word) (data : List Byte) (fault : LineFault)
  /-- GET_VERSION (R318). An SPDM GET_VERSION request is answered by the module as responder. -/
  | getVersion (req : Option (List Byte))
  /-- GET_CAPABILITIES (R318). An SPDM GET_CAPABILITIES request is answered. -/
  | getCapabilities (req : Option (List Byte))
  /-- NEGOTIATE_ALGORITHMS (R318). An SPDM NEGOTIATE_ALGORITHMS request is answered, offering Ed25519 and SHA-512 only. -/
  | negotiateAlgorithms (req : Option (List Byte))
  /-- GET_DIGESTS (R318). An SPDM GET_DIGESTS request is answered for certificate slot 0. -/
  | getDigests (req : Option (List Byte))
  /-- GET_CERTIFICATE (R318). An SPDM GET_CERTIFICATE request returns the chain of slot 0. -/
  | getCertificate (req : Option (List Byte))
  /-- CHALLENGE (R318). An SPDM CHALLENGE is answered with a signature by the unit identity key. -/
  | spdmChallenge (req : Option (List Byte))
  /-- GET_MEASUREMENTS (R317). An SPDM GET_MEASUREMENTS request returns the measurement blocks, signed with the nonce when asked. -/
  | getMeasurements (req : Option (List Byte))
  /-- VENDOR_DEFINED_REQUEST (R319). An SPDM VENDOR_DEFINED_REQUEST carries a provisioning message. -/
  | vendorDefinedRequest (req : Option (List Byte))
  /-- PROV_OPEN (R320). PROV_OPEN is checked and answered with PROV_OPEN_RSP, deriving the provisioning keys. -/
  | provOpen (conn : Fin 2)
  /-- PROV_KEY (R320). PROV_KEY installs wrapped keys into a RESERVED entry of the owner and answers PROV_ACK. -/
  | provKey (conn : Fin 2)
  /-- PROV_POLICY (R320). PROV_POLICY sets the owner's INGRESS and answers PROV_ACK. -/
  | provPolicy (conn : Fin 2)
  /-- PROV_SESSION_TIMEOUT (R320). A provisioning session ends after 60 s without an accepted message. -/
  | provSessionTimeout (conn : Fin 2)
  /-- GATE_HEADER_READ (R326). The gate reads a contribution header and counts it for the step, or ignores it. -/
  | gateHeaderRead (g entry : Fin 16)
  /-- GATE_TIMEOUT (R326). TIMEOUT_MS expires while COLLECTING, so the gate step is abandoned with 0x060A. -/
  | gateTimeout (g : Fin 16)
  /-- GATE_COMBINE_DONE (R327). The gate finishes combining the contributions and starts writing releases. -/
  | gateCombineDone (g : Fin 16)
  /-- GATE_RELEASE_DONE (R326). The gate has written every release payload and header, so it returns to ARMED with L := n. -/
  | gateReleaseDone (g : Fin 16)
  /-- MEMRD (R340). A CXL.mem MemRd from the Steward reads its region through Prism, returning poison on failure. -/
  | memrd (hpa : Word) (fault : LineFault)
  /-- MEMWR (R340). A CXL.mem MemWr from the Steward writes a line of its region. -/
  | memwr (hpa : Word) (data : List Byte) (fault : LineFault)
  /-- MEMWRPTL (R340). A CXL.mem MemWrPtl from the Steward performs a partial write of its region. -/
  | memwrptl (hpa : Word) (mask : BitVec 64) (data : List Byte) (fault : LineFault)
  /-- UCIE_MODULE_FAIL (R335). A UCIe module that cannot be repaired is disabled at retrain; with no active module, a Steward reset follows. -/
  | ucieModuleFail (m : Fin 4)
  /-- STEWARD_RESTART (R346). After the link retrains, hub firmware reloads and checks the loader and restarts the cores. -/
  | stewardRestart (modules : BitVec 4) (repaired : Byte)
  /-- MBOX_GO (R347). MBOX_CTRL.GO sends a mailbox request to the Pilot island, or sets ERR or OVERRUN. -/
  | mboxGo (len : BitVec 13)
  /-- MCTP_CONTROL (R347). An MCTP control message is answered by the Pilot island. -/
  | mctpControl (req : Option (List Byte))
  /-- GLIMMER_SCRUB (R401). Glimmer uses an idle cycle to read a code word, write back a correction or handle an uncorrectable error. -/
  | glimmerScrub (c : CtrlIx) (place : Nat) (fault : LineFault) (lapEnd : Bool)
  /-- FLOOD_VERIFY (R402). FLOOD_CMD.GO starts a VERIFY pass on the named controllers. -/
  | floodVerify (mask : BitVec 12)
  /-- FLOODLIGHT_COMPLETE (R402). A Floodlight pass finishes on a controller, and waiting work proceeds. -/
  | floodlightComplete (c : CtrlIx) (met : List (Nat × LineFault))
  /-- CAPTURE_STAGE_COMPLETE (R411). Staging ends, so step n + 1 may start and the send phase begins. -/
  | captureStageComplete (p : PartIx)
  /-- CAPTURE_SEND_COMPLETE (R411). Every parameter sector is read and sent, so the Glint pass may run and comparison and commit follow. -/
  | captureSendComplete (p : PartIx)
  /-- RESERVE_TIMEOUT (R417). No GRANT within 2 s, so the origin tries the next peer or leaves the mirror in NONE. -/
  | reserveTimeout (p : PartIx) (mirror : Fin 2)
  /-- MIRROR_WRITE (R419). A received MIRROR_WRITE stores stored-form data into a mirror slot or a restore. -/
  | mirrorWrite (port : PortIx)
  /-- RESERVE (R419). A holder answers RESERVE with GRANT and a handle, or with DECLINE. -/
  | reflReserve (port : PortIx)
  /-- GRANT (R417). A received GRANT makes that peer the mirror's holder. -/
  | reflGrant (port : PortIx)
  /-- DECLINE (R417). A received DECLINE makes the origin try the next peer. -/
  | reflDecline (port : PortIx)
  /-- PREPARE (R419). A holder receives capture record bytes and answers PREPARED after the last part. -/
  | reflPrepare (port : PortIx)
  /-- PREPARED (R411). A received PREPARED makes the origin send COMMIT. -/
  | reflPrepared (port : PortIx)
  /-- COMMIT (R419). A holder marks the new slot committed, frees the old one and answers COMMITTED. -/
  | reflCommit (port : PortIx)
  /-- COMMITTED (R411). A received COMMITTED commits the reflection at that holder and sets REFL_STEP. -/
  | reflCommitted (port : PortIx)
  /-- FETCH (R419). A holder answers FETCH with RECORD and MIRROR_WRITE data and then DONE, or with NONE. -/
  | reflFetch (port : PortIx)
  /-- RECORD (R420). The restoring origin receives capture record bytes and checks the MAC, D and LINEAGE. -/
  | reflRecord (port : PortIx)
  /-- NONE (R420). A received NONE ends the restore with 0x0207. -/
  | reflNone (port : PortIx)
  /-- DONE (R420). A received DONE makes the restore check digests, set RNG state, STEP and GEN, and run the conversion pass. -/
  | reflDone (port : PortIx)
  /-- RELEASE (R418). A holder receiving RELEASE frees the mirror. -/
  | reflRelease (port : PortIx)
  /-- LOST (R418). An origin receiving LOST moves the mirror to state LOST. -/
  | reflLost (port : PortIx)
  /-- RESTORE (R420). REFL_CTRL.RESTORE starts a restore by sending FETCH to PEER, or refuses it. -/
  | reflRestore (p : PartIx)
  /-- RESTORE_TIMEOUT (R420). No answer to FETCH within 2 s ends the restore with 0x0207. -/
  | restoreTimeout (p : PartIx)
  /-- RESTORE_COMPLETE (R420). The restore's conversion pass ends, so CODE 0 is set and the holder becomes mirror 0 COMMITTED. -/
  | restoreComplete (p : PartIx)
  /-- REFL_RELEASE (R418). REFL_CTRL.RELEASE sends RELEASE to every holder of the context. -/
  | reflCtrlRelease (p : PartIx)
  /-- LC_STATUS (R461). Returns the life-cycle state, counters, unit ID, flags and token time left. -/
  | lcStatus (req : Option (List Byte))
  /-- LC_NONCE (R463). Returns and stores a fresh 32-byte nonce. -/
  | lcNonce (req : Option (List Byte))
  /-- LC_TRANSITION (R454). Checks a transition request and, if it is accepted, erases keys, commits the new record, erases units and resets. -/
  | lcTransition (req : Option (List Byte)) (feedDrop flashFail : Bool)
  /-- CERT_STORE (R461). Stores the DER certificate chain in PROVISIONED. -/
  | certStore (req : Option (List Byte))
  /-- STAGE_BEGIN (R457). Opens a staging session for a KIND and erases its staging slot. -/
  | stageBegin (req : Option (List Byte))
  /-- STAGE_DATA (R457). Writes the next image bytes into the staging slot, with header checks under HEADER_FIRST. -/
  | stageData (req : Option (List Byte))
  /-- STAGE_FINISH (R457). Ends a staging session with the checks that FW_CHECK requires. -/
  | stageFinish (req : Option (List Byte))
  /-- STAGE_ABORT (R457). Aborts the staging session and leaves the slot empty. -/
  | stageAbort (req : Option (List Byte))
  /-- SET_SETTINGS (R460). Writes FW_CHECK into the settings block. -/
  | setSettings (req : Option (List Byte))
  /-- DEBUG_TOKEN (R465). Checks a debug token and puts its rights in force. -/
  | debugToken (req : Option (List Byte))
  /-- DEBUG_REVOKE (R465). Ends the debug token in force and restores default debug rights. -/
  | debugRevoke (req : Option (List Byte))
  /-- WEAR_STATUS (R461). Returns the highest erase count of each flash area. -/
  | wearStatus (req : Option (List Byte))
  /-- SAMPLE_PRELOAD (R466). The JTAG SAMPLE/PRELOAD instruction for board test. -/
  | jtagSample (preload : Nat)
  /-- REGISTER_WRITE (R7). A write to a register field with no row of its own acts under its access code, including W1C, W1S, RWL and MSI-X masks. -/
  | registerWrite (target : RegTarget) (value : Word)
  /-- LOSS_OF_SIGNAL (R232). The receive lanes of a trained port lose signal, so LOS is set and the link goes down, starting the 100 ms link-loss interval. -/
  | lossOfSignal (port : PortIx)
  /-- DEBUG_ACCESS_PORT_ACCESS (R305). The debug access port, master 35, reads or writes memory through Prism under its rights, with raw ciphertext reads where RAW_READ applies. -/
  | debugAccessPortAccess (write : Bool) (space : Fin 33) (addr : Word) (data : DebugData)
  /-- PARAM_ROOT (R421). A replica member's PARAM_ROOT arrives for the capture comparison and is counted towards AGREE, after which the capture commits or fails. -/
  | paramRoot (p : PartIx) (rank : Fin 256) (root : List Byte)
  /-- REPLICA_COMPARISON_TIMEOUT (R421). A group member has not answered the PARAM_ROOT exchange within COLL_TIMEOUT, so the comparison is skipped, AGREE is 0 and the capture commits. -/
  | replicaComparisonTimeout (p : PartIx)
  /-- LOAD_BIN_CHANGE (R435). A cluster's supply current moves into another load bin, so within 1 µs the cluster changes to that bin's calibrated voltage or to the fused margin. -/
  | loadBinChange (c : ClusterIx) (bin : Fin 8)
  /-- POWER_LOSS (R426). The bulk capacitance runs out while neither feed is OK, so every supply falls and all volatile state is lost. -/
  | powerLoss
  /-- RESET_IN_N (R442). A low of 500 ns or longer on RESET_IN_N starts a module reset, which holds while the pin is low. -/
  | resetInN
  /-- RESET_IN_N_RELEASE (R442). The rising edge of RESET_IN_N starts bring-up after a module reset. -/
  | resetInNRelease
  /-- REFCLK_LOSS (R430). Loss of REFCLK is detected within 5 µs, so REFCLK_LOSS is set and every PLL fed from REFCLK stops. -/
  | refclkLoss
  /-- REFCLK_RETURN (R430). REFCLK has been present again for 10 ms, so the Pilot island performs a module reset. -/
  | refclkReturn
  /-- HUB_WATCHDOG (R440). No hub firmware heartbeat for 1 s, so the Pilot island performs a hub warm reset and sets HUB_WDOG. -/
  | hubWatchdog
  /-- RESET_CTRL_MODULE (R442). A write to RESET_CTRL with KEY 0x5A and MODULE 1 starts a module reset. -/
  | resetCtrlModule
  /-- RESET_CTRL_HUB_WARM (R442). A write to RESET_CTRL with KEY 0x5A and HUB_WARM 1 starts a hub warm reset. -/
  | resetCtrlHubWarm
  /-- CALIB_PASS (R438). CALIB_CMD.PASS starts a calibration pass on every eligible DARK cluster. -/
  | calibPass
  /-- CALIB_PASS_COMPLETE (R438). A calibration pass finishes its 400 ms of internal load, and its clusters return to DARK. -/
  | calibPassComplete
  /-- FRAME_LOAD_COMPLETE (R81). The Eclipses, cluster wakes, carve initialisation and flash store of an accepted frame have ended, so BUSY clears. -/
  | frameLoadComplete
  /-- FAB_CNT_CLEAR (R49). FAB_CTRL.CNT_CLEAR zeroes every global fabric counter. -/
  | fabCntClear
  /-- COLLECTIVE_START (R257). A waiting collective takes a free engine place and begins its phases. -/
  | collectiveStart
  /-- SLOT_ASSIGN (R356). A runnable context that has waited for a resident slot takes a free one. -/
  | slotAssign
  /-- QUEUE_CREATE (R357). OBJ_CMD OP 1 creates a queue on the lowest free slot and returns its number. -/
  | queueCreate
  /-- QUEUE_DESTROY (R377). OBJ_CMD OP 2 frees a stopped or errored idle queue. -/
  | queueDestroy
  /-- FENCE_ERR (R377). OBJ_CMD OP 3 attaches a code to a fence with v = 2⁶⁴ − 1. -/
  | fenceErr
  /-- CTX_TABLE_LOCK (R354). Setting CTX_TABLE.LOCK locks the context table address and enables queue creation and job loads. -/
  | ctxTableLock
  /-- HASH_LAP_START (R279). HASH_INTERVAL has elapsed, so the hasher begins a lap over registered shards. -/
  | hashLapStart
  /-- BEACON_CNT_CLEAR (R282). BEACON_CTRL.CNT_CLEAR zeroes the Beacon counters. -/
  | beaconCntClear
  /-- PRISM_CNT_CLEAR (R307). PRISM_CFG.CNT_CLEAR zeroes every Prism counter. -/
  | prismCntClear
  /-- ALLOC (R301). KEY_CMD OP 1 sets the lowest FREE key ID to RESERVED with OWNER. -/
  | keyAlloc
  /-- RETIRE (R301). KEY_CMD OP 2 erases a key, flushes the caches, waits for accesses in flight and sets the entry FREE. -/
  | keyRetire
  /-- ROTATE (R301). KEY_CMD OP 3 erases a key, sets the entry RESERVED and re-initialises wear-listed sectors. -/
  | keyRotate
  /-- KEY_READ (R301). KEY_CMD OP 4 loads KEY_INFO with an entry's readable fields. -/
  | keyRead
  /-- REGISTER (R310). OWNER_CMD OP 1 registers a SINGLE owner key at the lowest FREE index. -/
  | ownerRegister
  /-- REGISTER_JOINT (R310). OWNER_CMD OP 2 registers a JOINT owner by manifest hash. -/
  | ownerRegisterJoint
  /-- UNREGISTER (R310). OWNER_CMD OP 3 frees an owner index. -/
  | ownerUnregister
  /-- OWNER_READ (R310). OWNER_CMD OP 4 loads OWNER_INFO and OWNER_DATA from an entry. -/
  | ownerRead
  /-- FUNCTION_LEVEL_RESET (R440). A CXL function-level reset resets configuration, MSI-X, the mailbox and the Ethernet ring registers. -/
  | functionLevelReset
  /-- STEWARD_CTRL_RESET (R346). STEWARD_CTRL.RESET starts a Steward reset: the cores and cache reset and the link retrains. -/
  | stewardCtrlReset
  /-- MBOX_RESPONSE (R347). The Pilot island writes the response, sets DONE and RSP_LEN and raises vector 0. -/
  | mboxResponse
  /-- SCRUB_CNT_CLEAR (R405). SCRUB_CTRL.CNT_CLEAR zeroes the ECC and scrub counters of every window. -/
  | scrubCntClear
  /-- STAGE_TIMEOUT (R457). A staging session with no command for 600 s is aborted. -/
  | stageTimeout
  /-- DEBUG_TOKEN_EXPIRY (R465). A token's DURATION elapses on SCLK, so its rights and measurement 7 are cleared. -/
  | debugTokenExpiry
  /-- NONCE_EXPIRY (R463). The current nonce ends 300 s after it was issued. -/
  | nonceExpiry
  /-- BYPASS (R466). The JTAG BYPASS instruction. -/
  | jtagBypass
  /-- IDCODE (R466). The JTAG IDCODE instruction returns the stepping, part code and manufacturer. -/
  | jtagIdcode
  /-- EXTEST (R466). The JTAG EXTEST instruction for board test. -/
  | jtagExtest
  /-- REFCLK_ARRIVAL (R430). REFCLK becomes present while bring-up waits for it at row 3, so the hub PLL locks and bring-up continues. -/
  | refclkArrival
  deriving DecidableEq, Repr

end Sys2Proof
end

