-- ==== Sys2Proof/Config.lean ====
section
/-!
DEFINITION. What one implementation fixes, and the free values: constants with no body, of which no proof can
see a value. A free value is taken at the counter `fresh` of State, so that each use has one of its own
(assumption log 1). The cryptographic functions are the published standards the manual leaves to their own
documents (00_scope.md), and stand here as functions without a body (assumption log 11).
-/

namespace Sys2Proof.Config

/-- A free number, one for each use (log 1). -/
opaque freeNat : Nat → Nat

/-- A free byte string of a length, one for each use (log 1): nonces and keys the module draws. -/
opaque freeByte : Nat → Nat → Byte

/-- A free number for element `i` of a use (log 1). -/
opaque freeElem : Nat → Nat → Nat

/-- The value of a "fuse" field of the register map, by its key (log 5). -/
opaque fuseField : Nat → Nat

/-- The unit ID in the fuse block, 128 bits (19_lifecycle_firmware_debug.md R448; log 5). -/
opaque unitId : Nat

/-- The firmware images and the gate program that the factory stores, by KIND (log 5). -/
opaque factoryImage : Nat → Bytes

/-- The SHA-512 that the fuse AUTH_HASH holds (19_lifecycle_firmware_debug.md R448; log 5). -/
opaque authHash : Bytes

/-- The fuse JTAG_MFR (19_lifecycle_firmware_debug.md R448; log 5). -/
opaque jtagMfr : Nat

/-- The SHA-512 that the fuse FW_KEY_HASH holds (19_lifecycle_firmware_debug.md R448; log 5). -/
opaque fwKeyHash : Bytes

/-- The answer to an MCTP control message, which the MCTP base specification gives (log 25). -/
opaque mctpAnswer : Bytes → Bytes

/-- The answer to an SPDM request, which SPDM 1.3 gives: the messages of the connection so far, the certificate chain, the
measurement blocks, a fresh nonce, and the request (log 25). -/
opaque spdmAnswer : Bytes → Bytes → Bytes → Bytes → Bytes → Bytes

/-- The answer ERROR to an SPDM request (log 25). -/
opaque spdmError : Bytes → Bytes

/-- The pins that SAMPLE/PRELOAD captures in the boundary register (log 5). -/
opaque boundary : Nat → Nat

/-- The number by which ECC_LAST names a sector slot of a controller, or a node of a level (log 119). -/
opaque slotNumber : Nat → Nat → Nat → Nat

/-- A byte of a line that still holds an earlier image's data: the mark of its space, its place / 64, byte (log 8). -/
opaque residueByte : Nat → Nat → Nat → Byte

/-- The key material such a line was last written under, by mark and place / 64 (log 8). -/
opaque residueKey : Nat → Nat → Nat

/-- Whether such a line's tag verifies under the key material it was last written under, by mark and place / 64 (log 8). -/
opaque residueTagOk : Nat → Nat → Bool

/-- A counter of such a line or sector, by mark and place (log 8). -/
opaque residueCounter : Nat → Nat → Nat

/-- SHA-512, 64 bytes. -/
opaque sha512 : Bytes → Bytes

/-- Ed25519 verification: public key, message, signature. -/
opaque ed25519Verify : Bytes → Bytes → Bytes → Bool

/-- Ed25519 signature by a seed. -/
opaque ed25519Sign : Bytes → Bytes → Bytes

/-- Ed25519 public key of a seed, 32 bytes. -/
opaque ed25519Public : Bytes → Bytes

/-- X25519: scalar, point; 32 bytes. -/
opaque x25519 : Bytes → Bytes → Bytes

/-- HKDF with SHA-512: salt, input keying material, info, length in bytes. -/
opaque hkdf512 : Bytes → Bytes → Bytes → Nat → Bytes

/-- HMAC with SHA-512: key, message. -/
opaque hmac512 : Bytes → Bytes → Bytes

/-- AES-256-GCM seal: key, 96-bit nonce, associated data, plaintext; ciphertext and 16-byte tag. -/
opaque gcmSeal : Bytes → Bytes → Bytes → Bytes → Bytes

/-- AES-256-GCM open: key, nonce, associated data, ciphertext and tag; nothing when the tag fails. -/
opaque gcmOpen : Bytes → Bytes → Bytes → Bytes → Option Bytes

/-- AES-256-XTS of whole data units: 512-bit key, tweak, data. -/
opaque xtsEncrypt : Nat → Nat → Bytes → Bytes

/-- AES-256-XTS decryption of whole data units: 512-bit key, tweak, data. -/
opaque xtsDecrypt : Nat → Nat → Bytes → Bytes

/-- AES-256-CMAC: key, message; 16 bytes. -/
opaque cmac256 : Nat → Bytes → Bytes

/-- The unique device secret in the fuse block, 256 bits (13_tenants_and_joint_training.md R316; 19_lifecycle_firmware_debug.md R448;
log 5). -/
opaque deviceSecret : Bytes

/-- The 32-byte seed of the unit identity key: HKDF-SHA-512 of the device secret, with an empty salt and the info string "E4 identity"
(13_tenants_and_joint_training.md R316). A wiping transition erases it and derives the same seed again. -/
def unitSeed : Bytes := hkdf512 [] deviceSecret ("E4 identity".toList.map fun c => BitVec.ofNat 8 c.toNat) 32

/-- The SPDM messages of session set-up, whose contents SPDM 1.3 gives: from this unit's certificate chain, its measurement blocks, a
fresh nonce and the setup messages so far, the answer to send and whether the peer's chain and signatures are not yet decided (0),
verified (1) or failed (2) (log 25). -/
opaque spdmSetup : Bytes → Bytes → Bytes → Bytes → Bytes × Nat

/-- One block of AES-128: key, block (07_vector_engine.md R185). -/
opaque aes128 : BitVec 128 → BitVec 128 → BitVec 128

end Sys2Proof.Config
end

