-- ==== Sys2Proof/Machine/Bits.lean ====
section
/-!
DEFINITION. Bit fields, little-endian byte strings (00_scope.md R3) and the small list helpers of the model.
-/

namespace Sys2Proof.Machine

/-- Is bit `i` of a number set? -/
def bit (x i : Nat) : Bool := x / 2 ^ i % 2 = 1

/-- A number whose bits below `n` are those a predicate gives. -/
def ofBits (n : Nat) (f : Nat → Bool) : Nat :=
  (List.range n).foldl (fun acc i => if f i then acc + 2 ^ i else acc) 0

/-- The number with bit `i` set. -/
def setBit (x i : Nat) : Nat := if bit x i then x else x + 2 ^ i

/-- The number with bit `i` clear. -/
def clearBit (x i : Nat) : Nat := if bit x i then x - 2 ^ i else x

/-- How many of the low `n` bits are set. -/
def popCount (n x : Nat) : Nat := ((List.range n).filter (bit x)).length

/-- The numbers of the set bits among the low `n`, ascending. -/
def bitList (n x : Nat) : List Nat := (List.range n).filter (bit x)

/-- Little-endian value of a byte string (00_scope.md R3). -/
def leNat : Bytes → Nat
  | [] => 0
  | b :: bs => b.toNat + 256 * leNat bs

/-- The `n` bytes of a number, little-endian (00_scope.md R3). -/
def leBytes : Nat → Nat → Bytes
  | 0, _ => []
  | n + 1, x => BitVec.ofNat 8 x :: leBytes n (x / 256)

/-- The `n` bytes of a number, big-endian. -/
def beBytes (n x : Nat) : Bytes := (leBytes n x).reverse

/-- `n` bytes of a byte string from `off`; short strings give fewer. -/
def slice (b : Bytes) (off n : Nat) : Bytes := (b.drop off).take n

/-- The little-endian number in `n` bytes of a string from `off`. -/
def rd (b : Bytes) (off n : Nat) : Nat := leNat (slice b off n)

/-- `n` zero bytes. -/
def zeros (n : Nat) : Bytes := List.replicate n 0

/-- A byte string cut or zero-padded to `n` bytes. -/
def fit (n : Nat) (b : Bytes) : Bytes := (b ++ zeros (n - b.length)).take n

/-- Are all bytes zero? -/
def allZero (b : Bytes) : Bool := b.all (fun x => x = 0)

/-- Division rounding up. -/
def ceilDiv (a b : Nat) : Nat := (a + b - 1) / b

/-- A number rounded up to a multiple of `m`. -/
def roundUp (a m : Nat) : Nat := ceilDiv a m * m

/-- Is `a` a multiple of `m`? -/
def aligned (a m : Nat) : Bool := a % m = 0

/-- Cut a list into pieces of `n`. -/
def chunks {α : Type} (n : Nat) (l : List α) : List (List α) :=
  (List.range (ceilDiv l.length n)).map fun i => (l.drop (n * i)).take n

/-- Are the half-open ranges [a, a+n) and [b, b+k) disjoint? -/
def disjoint (a n b k : Nat) : Bool := a + n ≤ b || b + k ≤ a

/-- The first index at which a predicate holds. -/
def firstIdx {α : Type} (p : α → Bool) (l : List α) : Option Nat :=
  (l.zipIdx.find? (fun x => p x.1)).map (fun x => x.2)

/-- No two elements of a list have the same key. -/
def noDup {α : Type} (key : α → Nat) (l : List α) : Bool :=
  decide ((l.map key).dedup.length = l.length)

/-- The first index whose key repeats an earlier one. -/
def firstDup {α : Type} (key : α → Nat) (l : List α) : Option Nat :=
  firstIdx (fun x => ((l.map key).take x.2).contains (key x.1)) l.zipIdx

/-- Set element `i` of a list; past the end the list is unchanged. -/
def setAt {α : Type} (l : List α) (i : Nat) (v : α) : List α := l.set i v

/-- Signed value of the low `w` bits of a number. -/
def sext (w x : Nat) : Int :=
  let y := x % 2 ^ w
  if y < 2 ^ (w - 1) then (y : Int) else (y : Int) - (2 ^ w : Nat)

/-- A signed value as a `w`-bit pattern. -/
def wrapInt (w : Nat) (x : Int) : Nat := (x % (2 ^ w : Nat)).toNat

end Sys2Proof.Machine
end

