-- ==== Sys2Proof/Machine/Numerics.lean ====
section
/-!
DEFINITION. Numbers, storage formats and conversions (06_accumulation_and_numerics.md R145 to R169). A number is
held exactly, as a signed multiple of a power of two, and is rounded once where the spec rounds.
-/

namespace Sys2Proof.Machine

/-- An exact number, or NaN: (−1)^neg × m × 2^e. A zero keeps its sign. -/
inductive ExNum where
  | nan
  | num (neg : Bool) (m : Nat) (e : Int)
  deriving DecidableEq, Repr

namespace ExNum

/-- +0. -/
def zero : ExNum := .num false 0 0

/-- An integer. -/
def ofInt (i : Int) : ExNum := .num (i < 0) i.natAbs 0

/-- Is it NaN? -/
def isNan : ExNum → Bool
  | .nan => true
  | .num _ _ _ => false

/-- Is it zero, of either sign? -/
def isZero : ExNum → Bool
  | .nan => false
  | .num _ m _ => m = 0

/-- The magnitude. -/
def abs : ExNum → ExNum
  | .nan => .nan
  | .num _ m e => .num false m e

/-- The negation. -/
def neg : ExNum → ExNum
  | .nan => .nan
  | .num n m e => .num (!n) m e

/-- The signed multiple of 2^q that a number is; exact when q is at most its exponent. -/
def scaled (q : Int) : ExNum → Int
  | .nan => 0
  | .num n m e => let k := m * 2 ^ (e - q).toNat
    if n then -(k : Int) else (k : Int)

/-- The exponent of a number. -/
def exp : ExNum → Int
  | .nan => 0
  | .num _ _ e => e

/-- The exact sum. An exact zero is +0 unless both addends were −0 (06_accumulation_and_numerics.md R162). -/
def add : ExNum → ExNum → ExNum
  | .num n1 m1 e1, .num n2 m2 e2 =>
    let q := min e1 e2
    let k := scaled q (.num n1 m1 e1) + scaled q (.num n2 m2 e2)
    if k = 0 then .num (n1 && n2 && m1 = 0 && m2 = 0) 0 0 else .num (k < 0) k.natAbs q
  | _, _ => .nan

/-- The exact difference. -/
def sub (a b : ExNum) : ExNum := add a (neg b)

/-- The exact product. -/
def mul : ExNum → ExNum → ExNum
  | .num n1 m1 e1, .num n2 m2 e2 => .num (n1 != n2) (m1 * m2) (e1 + e2)
  | _, _ => .nan

/-- A number times 2^k. -/
def scale2 (k : Int) : ExNum → ExNum
  | .nan => .nan
  | .num n m e => .num n m (e + k)

/-- Is a < b as reals? False with a NaN. -/
def lt : ExNum → ExNum → Bool
  | .num n1 m1 e1, .num n2 m2 e2 =>
    let q := min e1 e2
    scaled q (.num n1 m1 e1) < scaled q (.num n2 m2 e2)
  | _, _ => false

/-- Is a ≤ b as reals? False with a NaN. -/
def le (a b : ExNum) : Bool := !a.isNan && !b.isNan && !lt b a

/-- Are they equal as reals? False with a NaN. -/
def eqv (a b : ExNum) : Bool := le a b && le b a

/-- The floor of log₂ of a nonzero magnitude. -/
def log2 : ExNum → Int
  | .nan => 0
  | .num _ m e => (Nat.log2 m : Int) + e

/-- The exact sum of a list. -/
def sum (l : List ExNum) : ExNum :=
  match l with
  | [] => zero
  | x :: xs => xs.foldl add x

end ExNum

/-- A float format: significand bits with the hidden one, exponent of the least subnormal, width of the exponent
field, and the largest finite value as a multiple of 2^exponent; whether it has infinities and NaN
(06_accumulation_and_numerics.md R147). -/
structure FloatFmt where
  p : Nat
  qmin : Int
  ebits : Nat
  maxM : Nat
  maxE : Int
  inf : Bool
  nanCode : Option Nat
  deriving DecidableEq, Repr

/-- FP32. -/
def fFP32 : FloatFmt := ⟨24, -149, 8, 2 ^ 24 - 1, 104, true, some 0x7FC00000⟩
/-- BF16. -/
def fBF16 : FloatFmt := ⟨8, -133, 8, 2 ^ 8 - 1, 120, true, some 0x7FC0⟩
/-- FP16. -/
def fFP16 : FloatFmt := ⟨11, -24, 5, 2 ^ 11 - 1, 5, true, some 0x7E00⟩
/-- E4M3: its largest finite value is 448, E = 15 and F = 6. -/
def fE4M3 : FloatFmt := ⟨4, -9, 4, 14, 5, false, some 0x7F⟩
/-- E5M2. -/
def fE5M2 : FloatFmt := ⟨3, -16, 5, 7, 13, true, some 0x7E⟩
/-- E3M2. -/
def fE3M2 : FloatFmt := ⟨3, -4, 3, 7, 2, false, none⟩
/-- E2M3. -/
def fE2M3 : FloatFmt := ⟨4, -3, 2, 15, -1, false, none⟩
/-- E2M1. -/
def fE2M1 : FloatFmt := ⟨2, -1, 2, 3, 1, false, none⟩

/-- Width of an element in bits. -/
def FloatFmt.bits (f : FloatFmt) : Nat := f.p + f.ebits

/-- The largest finite value. -/
def FloatFmt.top (f : FloatFmt) (neg : Bool) : ExNum := .num neg f.maxM f.maxE

/-- What an element reads as (06_accumulation_and_numerics.md R147, R150): its value, and the SAT and NAN flags. An
infinity reads as the largest finite value of its sign with SAT. -/
def FloatFmt.decode (f : FloatFmt) (x : Nat) : ExNum × Bool × Bool :=
  let m := f.p - 1
  let sign := bit x (f.bits - 1)
  let E := x / 2 ^ m % 2 ^ f.ebits
  let F := x % 2 ^ m
  if f.inf && E = 2 ^ f.ebits - 1 then
    if F = 0 then (f.top sign, true, false) else (.nan, false, true)
  else if f.nanCode.isSome && !f.inf && E = 2 ^ f.ebits - 1 && F = 2 ^ m - 1 then (.nan, false, true)
  else if E = 0 then (.num sign F f.qmin, false, false)
  else (.num sign (2 ^ m + F) (f.qmin + (E : Int) - 1), false, false)

/-- Rounding modes (04_tile_core.md R103: 0 RNE, 1 RZ, 2 stochastic). -/
inductive Rnd where
  | rne | rz | stoch
  deriving DecidableEq, Repr

/-- Round m × 2^−d to an integer (06_accumulation_and_numerics.md R167); `r` is the 24-bit draw. -/
def roundShift (rnd : Rnd) (r m d : Nat) : Nat :=
  let lo := m / 2 ^ d
  let rem := m % 2 ^ d
  if rem = 0 then lo
  else match rnd with
    | .rz => lo
    | .rne => if 2 * rem > 2 ^ d || (2 * rem = 2 ^ d && lo % 2 = 1) then lo + 1 else lo
    | .stoch => if r < rem * 2 ^ 24 / 2 ^ d then lo + 1 else lo

/-- A magnitude m × 2^e rounded to a float format with an unbounded exponent: n and q of the value n × 2^q. -/
def FloatFmt.roundMag (f : FloatFmt) (rnd : Rnd) (r m : Nat) (e : Int) : Nat × Int :=
  let q := max (ExNum.log2 (.num false m e) - (f.p - 1 : Nat)) f.qmin
  let n := if q ≤ e then m * 2 ^ (e - q).toNat else roundShift rnd r m (q - e).toNat
  if n = 2 ^ f.p then (n / 2, q + 1) else (n, q)

/-- The encoding of n × 2^q, a value of the format. -/
def FloatFmt.encode (f : FloatFmt) (neg : Bool) (n : Nat) (q : Int) : Nat :=
  let sg := if neg then 2 ^ (f.bits - 1) else 0
  if n < 2 ^ (f.p - 1) then sg + n
  else sg + (q - f.qmin + 1).toNat * 2 ^ (f.p - 1) + (n - 2 ^ (f.p - 1))

/-- Conversion to a non-MX float format (06_accumulation_and_numerics.md R166): element bits, SAT, NAN. -/
def FloatFmt.conv (f : FloatFmt) (rnd : Rnd) (r : Nat) : ExNum → Nat × Bool × Bool
  | .nan => (f.nanCode.getD 0, false, true)
  | .num neg m e =>
    if m = 0 then (if neg then 2 ^ (f.bits - 1) else 0, false, false)
    else
      let (n, q) := f.roundMag rnd r m e
      if ExNum.lt (f.top false) (.num false n q) then (f.encode neg f.maxM f.maxE, true, false)
      else (f.encode neg n q, false, false)

/-- The value rounded to FP32 with RNE, and whether it saturated (06_accumulation_and_numerics.md R153, R163). -/
def roundF32 (x : ExNum) : ExNum × Bool :=
  match x with
  | .nan => (.nan, false)
  | .num neg m e =>
    if m = 0 then (x, false)
    else
      let (n, q) := fFP32.roundMag .rne 0 m e
      if ExNum.lt (fFP32.top false) (.num false n q) then (fFP32.top neg, true) else (.num neg n q, false)

/-- The FP32 word of a value that is one. -/
def f32Bits (x : ExNum) : Nat := (fFP32.conv .rne 0 x).1

/-- The value of an FP32 word. -/
def f32Val (w : Nat) : ExNum := (fFP32.decode (w % 2 ^ 32)).1

/-- An FP32 word as given, before R150: an infinity lies beyond every finite value (07_vector_engine.md R470). -/
def f32Given (w : Nat) : ExNum :=
  let d := fFP32.decode (w % 2 ^ 32)
  if d.2.1 then (match d.1 with | .nan => .nan | .num neg _ _ => .num neg 1 128) else d.1

/-- The storage formats (06_accumulation_and_numerics.md R145). -/
inductive Fmt where
  | flt (f : FloatFmt)
  | mx (f : FloatFmt)
  | int (w : Nat)
  | bin1
  | sgn2
  | cpair
  deriving DecidableEq, Repr

/-- A format by its code (06_accumulation_and_numerics.md R145). -/
def fmtOf (code : Nat) : Option Fmt :=
  match code with
  | 0x01 => some (.flt fFP32)
  | 0x02 => some (.flt fBF16)
  | 0x03 => some (.flt fFP16)
  | 0x04 => some (.flt fE4M3)
  | 0x05 => some (.flt fE5M2)
  | 0x06 => some (.mx fE4M3)
  | 0x07 => some (.mx fE5M2)
  | 0x08 => some (.mx fE3M2)
  | 0x09 => some (.mx fE2M3)
  | 0x0A => some (.mx fE2M1)
  | 0x10 => some (.int 32)
  | 0x11 => some (.int 8)
  | 0x12 => some (.int 4)
  | 0x13 => some .bin1
  | 0x14 => some .sgn2
  | 0x18 => some .cpair
  | _ => none

/-- Bits per element (06_accumulation_and_numerics.md R145). -/
def Fmt.bits : Fmt → Nat
  | .flt f => f.bits
  | .mx f => f.bits
  | .int w => w
  | .bin1 => 1
  | .sgn2 => 2
  | .cpair => 64

/-- Is it an MX format? -/
def Fmt.isMx : Fmt → Bool
  | .mx _ => true
  | _ => false

/-- Is it a float format, MX or not? -/
def Fmt.isFloat : Fmt → Bool
  | .flt _ => true
  | .mx _ => true
  | _ => false

/-- Is it an integer format? -/
def Fmt.isInt : Fmt → Bool
  | .int _ => true
  | _ => false

/-- What an element reads as, without its run scale: value, SAT, NAN (06_accumulation_and_numerics.md R147, R148,
R150). -/
def Fmt.read (fm : Fmt) (x : Nat) : ExNum × Bool × Bool :=
  match fm with
  | .flt f => f.decode x
  | .mx f => f.decode x
  | .int w => (ExNum.ofInt (sext w x), false, false)
  | .bin1 => (ExNum.ofInt (x % 2 : Nat), false, false)
  | .sgn2 => (match x % 4 with | 1 => ExNum.ofInt 1 | 3 => ExNum.ofInt (-1) | _ => ExNum.zero, false, false)
  | .cpair =>
    let a := fFP32.decode (x % 2 ^ 32)
    let b := fFP32.decode (x / 2 ^ 32 % 2 ^ 32)
    (a.1.add b.1, a.2.1 || b.2.1, a.2.2 || b.2.2)

/-- An element under its E8M0 run scale byte (06_accumulation_and_numerics.md R149, R150; 05_matrix_array.md R125): with the
scale byte 0xFF it is NaN and sets NAN only, whatever its own bits (log 123). -/
def Fmt.readScaled (fm : Fmt) (x scale : Nat) : ExNum × Bool × Bool :=
  if scale = 0xFF then (.nan, false, true)
  else let (v, st, nn) := fm.read x
    (v.scale2 ((scale : Int) - 127), st, nn)

/-- Round to an integer with a limit (06_accumulation_and_numerics.md R166). -/
def convInt (w : Nat) (rnd : Rnd) (r : Nat) : ExNum → Nat × Bool × Bool
  | .nan => (0, false, true)
  | .num neg m e =>
    let n := if 0 ≤ e then m * 2 ^ e.toNat else roundShift rnd r m (-e).toNat
    let lim := if neg then 2 ^ (w - 1) else 2 ^ (w - 1) - 1
    let k := min n lim
    (wrapInt w (if neg then -(k : Int) else (k : Int)), lim < n, false)

/-- Conversion to a format that is not MX (06_accumulation_and_numerics.md R166): element bits, SAT, NAN. -/
def Fmt.conv (fm : Fmt) (rnd : Rnd) (r : Nat) (v : ExNum) : Nat × Bool × Bool :=
  match fm with
  | .flt f => f.conv rnd r v
  | .int w => convInt w rnd r v
  | .bin1 => (if ExNum.lt ExNum.zero v then 1 else 0, false, v.isNan)
  | .sgn2 => (if ExNum.lt ExNum.zero v then 1 else if ExNum.lt v ExNum.zero then 3 else 0, false, v.isNan)
  | .mx _ => (0, false, v.isNan)
  | .cpair => (0, false, v.isNan)

/-- emax of an MX element format (06_accumulation_and_numerics.md R168). -/
def mxEmax (f : FloatFmt) : Int := ExNum.log2 (f.top false)

/-- Conversion of one run to an MX format (06_accumulation_and_numerics.md R168): elements with their draws; scale byte,
element bits, NAN. -/
def mxConv (f : FloatFmt) (rnd : Rnd) (vs : List (ExNum × Nat)) : Nat × List Nat × Bool :=
  if vs.any (fun v => v.1.isNan) then (0xFF, vs.map fun _ => 0, true)
  else
    let a := vs.foldl (fun a v => if ExNum.lt a v.1.abs then v.1.abs else a) ExNum.zero
    let scale : Nat :=
      if a.isZero then 0 else (min 254 (max 0 (a.log2 - mxEmax f + 127))).toNat
    (scale, vs.map fun v => (f.conv rnd v.2 (v.1.scale2 (127 - (scale : Int)))).1, false)

/-! ## Sums (06_accumulation_and_numerics.md R152 to R163) -/

/-- ⌈log₂ n⌉. -/
def clog2 (n : Nat) : Nat := if n ≤ 1 then 0 else Nat.log2 (n - 1) + 1

/-- Is every number an integer multiple of one 2^k, k ≥ −149, with Σ|x| ≤ 2^(k + 24)
(06_accumulation_and_numerics.md R160)? The largest such k is tried. -/
def exactSumCase (xs : List ExNum) : Bool :=
  let ys := xs.filter fun x => !x.isZero
  let lows := ys.map fun x => match x with
    | .nan => (0 : Int)
    | .num _ m e => e + ((List.range (Nat.log2 m + 1)).takeWhile (fun i => m % 2 ^ (i + 1) = 0)).length
  match lows with
  | [] => true
  | l :: ls =>
    let k := ls.foldl min l
    decide ((-149 : Int) ≤ k) && ExNum.le (ExNum.sum (ys.map ExNum.abs)) (.num false 1 (k + 24))

/-- The bound on a plain sum of n terms (06_accumulation_and_numerics.md R155, R158). -/
def plainBound (n : Nat) (sumAbs : ExNum) : ExNum :=
  let b := (ExNum.ofInt (clog2 n : Int)).mul (sumAbs.scale2 (-24))
  (b.add (b.scale2 (-19))).add (.num false n (-149))

/-- The bound on a compensated sum of n terms (06_accumulation_and_numerics.md R156, R158). -/
def compBound (n : Nat) (s sumAbs : ExNum) : ExNum :=
  ((s.abs.scale2 (-23)).add ((ExNum.ofInt (n : Int)).mul (sumAbs.scale2 (-48)))).add (.num false n (-149))

/-- Join the items of a list two at a time until one is left, at places the free number `w` chooses: every order and every
grouping is some choice (R154). `comm` says that the two orders of a pair give the same. -/
def joinAll {α : Type} (comm : Bool) (f : α → α → α × Bool) : Nat → Nat → List α → Option (α × Bool)
  | _, _, [] => none
  | _, _, [x] => some (x, false)
  | 0, _, x :: _ => some (x, false)
  | fuel + 1, w, x :: y :: rest =>
    if rest.isEmpty then some (if comm || w % 2 = 0 then f x y else f y x)
    else
      let l := x :: y :: rest
      let n := l.length
      let a := l.getD (w % n) x
      let l := l.eraseIdx (w % n)
      let k := w / n % (n - 1)
      let r := f a (l.getD k y)
      (joinAll comm f fuel (w / n / (n - 1)) (r.1 :: l.eraseIdx k)).map fun q => (q.1, q.2 || r.2)

/-- Join neighbours, level by level: the grouping of least depth. -/
def joinTree {α : Type} (f : α → α → α × Bool) : Nat → List α → Option (α × Bool)
  | 0, l => l.head?.map fun x => (x, false)
  | fuel + 1, l =>
    if l.length ≤ 1 then l.head?.map fun x => (x, false)
    else
      let rs := (List.range ((l.length + 1) / 2)).filterMap fun i => match l[2 * i]?, l[2 * i + 1]? with
        | some a, some b => some (f a b)
        | some a, none => some (a, false)
        | _, _ => none
      (joinTree f fuel (rs.map (·.1))).map fun q => (q.1, q.2 || rs.any (·.2))

/-- One accumulator addition (06_accumulation_and_numerics.md R153, R163): plain, or compensated, where the second pair is
the run sum's. -/
def addAcc (comp : Bool) (a x : ExNum × ExNum) : (ExNum × ExNum) × Bool :=
  let sm := a.1.add x.1
  let (t, sat) := roundF32 sm
  if !comp then ((t, ExNum.zero), sat)
  else if sat then ((t, ExNum.zero), true)
  else
    let e := roundF32 ((sm.sub t).add x.2)
    let c := roundF32 (a.2.add e.1)
    ((t, c.1), e.2 || c.2)

/-- One run sum (06_accumulation_and_numerics.md R152, R162): a run of one term is that term, and another is rounded once, or
with COMP delivered as a pair whose sum lies within 2⁻⁴⁸ of it, which the free number `w` chooses (log 1). A run sum that
rounds beyond FP32 takes the largest finite value of its sign, with SAT (log 123). -/
def runSum (comp : Bool) (w : Nat) (terms : List ExNum) : (ExNum × ExNum) × Bool :=
  let s := ExNum.sum terms
  let (hi, sat) := roundF32 s
  if sat then ((hi, ExNum.zero), true)
  else if s.isZero then ((s, s), false)
  else if terms.length = 1 then (if comp then (hi, s.sub hi) else (s, ExNum.zero), false)
  else if !comp then ((hi, ExNum.zero), false)
  else
    let c1 := f32Val (w % 2 ^ 32)
    let c2 := f32Val (w / 2 ^ 32 % 2 ^ 32)
    if ExNum.le ((c1.add c2).sub s).abs (s.abs.scale2 (-48)) then ((c1, c2), false)
    else ((hi, (roundF32 (s.sub hi)).1), false)

/-- The float sum of one element: the value, its compensation, SAT and NAN. `old` is the existing element, `runs` are the run
sums, each with whether it saturated, of `terms`. The order and the grouping of the additions are free, chosen by `w`, and
the result keeps to the bound for `n` addends unless an addition saturates (06_accumulation_and_numerics.md R153 to R158,
R160, R163; log 62). An existing NaN makes the element NaN and counts as a NaN read (log 123). -/
def floatSum (comp : Bool) (w : Nat) (old : Option (ExNum × ExNum)) (runs : List ((ExNum × ExNum) × Bool))
    (terms : List ExNum) (n : Nat) : ExNum × ExNum × Bool × Bool :=
  let all := (old.toList.map fun p => p.1.add p.2) ++ terms
  let s := ExNum.sum all
  if all.any ExNum.isNan then (.nan, ExNum.zero, false, true)
  else if exactSumCase all then ((roundF32 s).1, ExNum.zero, (roundF32 s).2, false)
  else
    let sat0 := runs.any (·.2)
    let items := old.toList ++ runs.map (·.1)
    let sa := ExNum.sum (all.map ExNum.abs)
    let bound := if comp then compBound n s sa else plainBound n sa
    let fits (q : (ExNum × ExNum) × Bool) : Bool := sat0 || q.2 || ExNum.le ((q.1.1.add q.1.2).sub s).abs bound
    match ((joinAll (!comp) (addAcc comp) items.length w items).filter fits).or
        ((joinTree (addAcc comp) items.length items).filter fits) with
    | some q => (q.1.1, q.1.2, q.2 || sat0, false)
    | none =>
      let (v, sat) := roundF32 s
      (v, if comp && !sat then (roundF32 (s.sub v)).1 else ExNum.zero, sat, false)

/-- An integer number. -/
def ExNum.toInt : ExNum → Int
  | .nan => 0
  | .num neg m e => let k := if 0 ≤ e then m * 2 ^ e.toNat else m / 2 ^ (-e).toNat
    if neg then -(k : Int) else k

/-- The sum of two integers held to INT32 (06_accumulation_and_numerics.md R153, R163). -/
def addSat32 (a b : Int) : Int × Bool :=
  let s := a + b
  if 2 ^ 31 - 1 < s then (2 ^ 31 - 1, true) else if s < -(2 ^ 31) then (-(2 ^ 31), true) else (s, false)

/-- The INT32 sum of integer addends, in a free order and grouping (06_accumulation_and_numerics.md R153, R154, R160). Where no
order can reach a limit it is the exact sum. -/
def intSum (w : Nat) (items : List Int) : Int × Bool :=
  if (items.map Int.natAbs).sum ≤ 2 ^ 31 - 1 then (items.sum, false)
  else if items.length = 1 then addSat32 0 items.sum
  else (joinAll true addSat32 items.length w items).getD (0, false)

end Sys2Proof.Machine
end

