-- ==== Sys2Proof/Machine/ImageTypes.lean ====
section
/-!
DEFINITION. What a frame image and a job image hold once they are read (03_configuration_images.md R52 to R76):
the records of each section as plain data.
-/

namespace Sys2Proof.Machine

/-- One region of a memory plan (03_configuration_images.md R67). `tier` 0 HBM, 1 LPDDR5X. -/
structure Region where
  region : Nat
  tier : Nat
  keyId : Nat
  ctrlMask : Nat
  base : Nat
  size : Nat
  deriving DecidableEq, Repr

/-- One tensor descriptor (03_configuration_images.md R68). -/
structure Tensor where
  tensor : Nat
  region : Nat
  format : Nat
  layout : Nat
  param : Bool
  group : Nat
  digests : Bool
  offset : Nat
  rows : Nat
  cols : Nat
  tie : Nat
  deriving DecidableEq, Repr

/-- One parameter group (03_configuration_images.md R69). -/
structure PGroup where
  group : Nat
  sched : Nat
  clip : Nat
  beta1 : BitVec 32
  beta2 : BitVec 32
  lambda : BitVec 32
  deriving DecidableEq, Repr

/-- One schedule table: its number and its points (STEP, η) (03_configuration_images.md R70). -/
structure Sched where
  table : Nat
  points : List (Nat × BitVec 32)
  deriving DecidableEq, Repr

/-- One operation of a rank's schedule (03_configuration_images.md R71): KIND 0 forward, 1 backward. -/
structure PipeOp where
  kind : Nat
  micro : Nat
  chunk : Nat
  deriving DecidableEq, Repr

/-- One rank of a pipeline (03_configuration_images.md R71). -/
structure PipeRank where
  rank : Nat
  rx0 : Nat
  ry0 : Nat
  rx1 : Nat
  ry1 : Nat
  ops : List PipeOp
  deriving DecidableEq, Repr

/-- The PIPELINE section (03_configuration_images.md R71). -/
structure Pipeline where
  v : Nat
  m : Nat
  ranks : List PipeRank
  deriving DecidableEq, Repr

/-- The REFLECTION section (03_configuration_images.md R72). -/
structure ReflPolicy where
  mirrors : Nat
  compact : Bool
  every : Nat
  verifyReplica : Bool
  deriving DecidableEq, Repr

/-- An owner entry of a manifest (03_configuration_images.md R75). -/
structure OwnerEntry where
  key : Bytes
  part : Nat
  keyId : Nat
  deriving DecidableEq, Repr

/-- A gate entry of a manifest (03_configuration_images.md R75): COMBINE 0 sum, 1 mean, 2 sign vote. -/
structure GateEntry where
  gate : Nat
  combine : Nat
  modelKey : Nat
  ownerMask : Nat
  deriving DecidableEq, Repr

/-- The MANIFEST section: its entries, its countersignatures and its bytes (03_configuration_images.md R75, R76). -/
structure Manifest where
  owners : List OwnerEntry
  gates : List GateEntry
  sigs : List Bytes
  raw : Bytes
  deriving DecidableEq, Repr

/-- A channel binding (03_configuration_images.md R65): KIND 0 MSG, 1 SOUT, 2 SIN, 3 HUB. -/
structure Binding where
  rx : Nat
  ry : Nat
  ep : Nat
  kind : Nat
  prx : Nat
  pry : Nat
  pep : Nat
  stream : Nat
  ringBase : Nat
  ringSize : Nat
  service : Nat
  deriving DecidableEq, Repr

/-- One branch of a stream (03_configuration_images.md R66): its hops north 0, east 1, south 2, west 3. -/
structure Branch where
  parent : Nat
  forkHop : Nat
  sinkEp : Nat
  sinkHub : Bool
  dirs : List Nat
  deriving DecidableEq, Repr

/-- One stream (03_configuration_images.md R66). -/
structure Route where
  stream : Nat
  srcEp : Nat
  srcRx : Nat
  srcRy : Nat
  branches : List Branch
  deriving DecidableEq, Repr

/-- A tile entry of TILE_CODE (03_configuration_images.md R64). -/
structure TileEntry where
  rx : Nat
  ry : Nat
  blob : Nat
  entry : Nat
  deriving DecidableEq, Repr

/-- A tile record of NEEDS (03_configuration_images.md R73); sizes in bytes and KiB. -/
structure Need where
  rx : Nat
  ry : Nat
  spadBase : Nat
  spadSize : Nat
  accKib : Nat
  deriving DecidableEq, Repr

/-- A job image as the module keeps it while it is loaded (03_configuration_images.md R52 to R76; the blobs are
kept too, 16_reliability_and_integrity.md R396). -/
structure JobImage where
  serial : Nat
  imageId : Nat
  digest : Bytes
  recipe : Bool
  joint : Bool
  partW : Nat
  partH : Nat
  capReq : Nat
  blobs : List (List (BitVec 32))
  tiles : List TileEntry
  bindings : List Binding
  routes : List Route
  plan : List Region
  tensors : List Tensor
  groups : List PGroup
  scheds : List Sched
  pipeline : Option Pipeline
  refl : ReflPolicy
  manifest : Option Manifest
  queues : Nat
  needs : List Need
  recipeInfo : Bytes
  deriving DecidableEq, Repr

/-- The image of no job: what an empty partition holds. -/
def JobImage.empty : JobImage :=
  { serial := 0, imageId := 0, digest := [], recipe := false, joint := false, partW := 0, partH := 0, capReq := 0,
    blobs := [], tiles := [], bindings := [], routes := [], plan := [], tensors := [], groups := [], scheds := [],
    pipeline := none, refl := ⟨0, false, 1, false⟩, manifest := none, queues := 0, needs := [], recipeInfo := [] }

/-- One partition of a frame: its rectangle in global cluster coordinates (03_configuration_images.md R57). -/
structure PartRect where
  part : Nat
  cx0 : Nat
  cx1 : Nat
  cy0 : Nat
  cy1 : Nat
  deriving DecidableEq, Repr

/-- A partition's share of memory in GiB (03_configuration_images.md R59). -/
structure Carve where
  part : Nat
  hbm : List Nat
  lpddr : Nat
  deriving DecidableEq, Repr

/-- A frame image as the module keeps it in force (03_configuration_images.md R57 to R63). -/
structure FrameImage where
  serial : Nat
  imageId : Nat
  digest : Bytes
  capReq : Nat
  parts : List PartRect
  portModes : List Nat
  carve : List Carve
  stewardGib : Nat
  profileK : Bool
  gates : List (Nat × Nat)
  peerMode : Nat
  peers : List Bytes
  glimmerEn : Bool
  floodRate : Nat
  deriving DecidableEq, Repr

/-- The built-in default frame: no partitions, every port off, STEWARD_GIB 128, profile S
(03_configuration_images.md R82). -/
def FrameImage.builtin : FrameImage :=
  { serial := 0, imageId := 0, digest := [], capReq := 0, parts := [], portModes := List.replicate 16 0, carve := [],
    stewardGib := 128, profileK := false, gates := [], peerMode := 0, peers := [], glimmerEn := true,
    floodRate := 1000 }

end Sys2Proof.Machine
end

