-- ==== Sys2Proof/Machine/LinkTypes.lean ====
section
/-!
DEFINITION. What the link ports, the sessions with peers, the collective engine and the holders of mirrors keep, as plain
data (10_links_and_collectives.md; 17_reflection_and_recovery.md R414 to R421).
-/

namespace Sys2Proof.Machine

/-- A flit of a message: its 64 bytes, START and END, and the TYPE, TAG and ARG0 of its message, which a received flit does
not carry (10_links_and_collectives.md R243, R244). -/
structure LFlit where
  data : Bytes
  first : Bool
  last : Bool
  ty : Nat
  tag : Nat
  arg : Nat
  deriving DecidableEq, Repr

/-- A group held for retry (10_links_and_collectives.md R241): epoch, SEQ, bytes, KIND, and TYPE, TAG and ARG0 of the messages it carries
flits of. -/
structure HeldGroup where
  epoch : Nat
  seq : Nat
  bytes : Bytes
  kind : Nat
  msgs : List (Nat × Nat × Nat)
  deriving DecidableEq, Repr

/-- How far set-up has come on a port (10_links_and_collectives.md R247, R248): 0 none, 1 attestation, 2 admitted (KX),
3 keys derived: the own nonce, identity and nonce of the received HELLO, the HELLOs and SPDM messages of the exchange in
order, the restarts made, the ephemeral private key, the peer entry held, and the initiator's key, the responder's key and the
SESSION_ID. -/
structure SetupSt where
  stage : Nat
  nonce : Bytes
  hello : Option (Bytes × Bytes)
  transcript : Bytes
  restarts : Nat
  priv : Bytes
  entry : Option Nat
  keys : Option (Bytes × Bytes × Bytes)
  deriving DecidableEq, Repr

/-- No set-up. -/
def SetupSt.empty : SetupSt :=
  { stage := 0, nonce := [], hello := none, transcript := [], restarts := 0, priv := [], entry := none, keys := none }

/-- The full receive buffers of a port, which are also the credits granted at set-up (10_links_and_collectives.md
R243). -/
def vcDepth : List Nat := [8192, 8192, 4096, 256]

/-- One port beside its registers (10_links_and_collectives.md R232 to R250): per virtual channel the flits to send, the
credits held, the credits owed, the flits received, and how many of those owe no credit: they have left their buffer already, or
came from a lost port; control
and setup messages to send and received, and the start of a setup message; the SEQ it sends next and expects, with their
epochs; the groups held for retry, oldest first, how many of the newest are to be sent again, and the oldest one with how
often it has been resent in a row; NAK to send; the slots of KIND 0 in a row; set-up; whether it waits for a new epoch
after a JOIN, and which; and the entry whose session drains on it. -/
structure PortSt where
  tx : List (List LFlit)
  credit : List Nat
  owe : List Nat
  rx : List (List LFlit)
  debt : List Nat
  ctlTx : List Bytes
  ctlRx : List Bytes
  setupTx : List Bytes
  setupRx : List Bytes
  setupBuf : Bytes
  seq : Nat
  txEpoch : Nat
  expect : Nat
  rxEpoch : Nat
  retry : List HeldGroup
  again : Nat
  resent : Nat × Nat
  nak : Bool
  run : Nat
  setup : SetupSt
  joining : Bool
  joinEpoch : Nat
  drain : Option Nat
  deriving DecidableEq, Repr

/-- A port with nothing in it. -/
def PortSt.empty : PortSt :=
  { tx := [[], [], [], []], credit := vcDepth, owe := [0, 0, 0, 0], rx := [[], [], [], []], debt := [0, 0, 0, 0], ctlTx := [],
    ctlRx := [], setupTx := [], setupRx := [], setupBuf := [], seq := 0, txEpoch := 0, expect := 0, rxEpoch := 0, retry := [],
    again := 0, resent := (0, 0), nak := false, run := 0, setup := SetupSt.empty, joining := false,
    joinEpoch := 0, drain := none }

/-- The session of a peer entry (10_links_and_collectives.md R239, R240, R247): identity, SESSION_ID, whether this end is
the initiator, the keys of each direction by epoch, newest first, whether a REKEY is unanswered, the carrying port of the rekey that
the last join starts once that is answered, and the tag failures of the epoch. -/
structure Session where
  ident : Bytes
  sid : Bytes
  initiator : Bool
  txKeys : List (Nat × Bytes)
  rxKeys : List (Nat × Bytes)
  rekey : Bool
  rekeyNext : Option Nat
  tagFails : Nat
  deriving DecidableEq, Repr

/-- No session. -/
def Session.empty : Session :=
  { ident := [], sid := [], initiator := false, txKeys := [], rxKeys := [], rekey := false, rekeyNext := none,
    tagFails := 0 }

/-- A message as it was received (10_links_and_collectives.md R244). -/
structure LinkMsg where
  ty : Nat
  len : Nat
  tag : Nat
  arg0 : Nat
  arg1 : Nat
  payload : Bytes
  deriving DecidableEq, Repr

/-- A collective group of a context (10_links_and_collectives.md R253): its context and number, GTAG, the members' peer
entries in rank order (none for this module), the digest, the members whose GROUP_HELLO matched, whether it is ready and
whether it is broken, and the requests made so far. -/
structure Group where
  ctx : Nat
  num : Nat
  gtag : Nat
  members : List (Option Nat)
  digest : Bytes
  hellos : List Nat
  ready : Bool
  broken : Bool
  k : Nat
  deriving DecidableEq, Repr

/-- A GROUP_HELLO that came before its group was defined: peer, GTAG, digest. -/
structure EarlyHello where
  peer : Nat
  gtag : Nat
  digest : Nat
  deriving DecidableEq, Repr

/-- A collective of this member (10_links_and_collectives.md R254 to R259): its tile and endpoint, its partition, its group
and its index there, its request words, the stream and branch it takes its input from and the stream it gives its output
to, whether it runs, its input so far and whether that is whole, the sums of its slice as FP32 or INT32 words, the elements
received from each rank in phase 0, the elements or bytes received from each rank in phase 1, its output elements by index,
the members' inputs by rank × 2^40 + byte, and its flags; `reduced` says that its slice is whole and went out. -/
structure Coll where
  tile : Nat
  ep : Nat
  part : Nat
  gtag : Nat
  k : Nat
  words : List Nat
  src : Nat × Nat
  dst : Nat
  running : Bool
  input : Bytes
  loaded : Bool
  slice : List Nat
  got0 : List (Nat × Nat)
  got1 : List (Nat × Nat)
  els : List (Nat × Nat)
  raw : List (Nat × Byte)
  sat : Bool
  nan : Bool
  reduced : Bool
  deriving DecidableEq, Repr

/-- A mirror that this module holds for an origin (17_reflection_and_recovery.md R416 to R419): handle, origin peer, its
identity, MIRROR_ID, host partition, size S, the offsets of its two slots in the host region, which one is committed, the
record of each, whether the record of the slot in progress is complete, and the code of a write that failed in it. -/
structure Mirror where
  handle : Nat
  peer : Nat
  ident : Bytes
  id : Bytes
  part : Nat
  size : Nat
  slot0 : Nat
  slot1 : Nat
  committed : Option Nat
  rec0 : Bytes
  rec1 : Bytes
  ready : Bool
  code : Nat
  deriving DecidableEq, Repr

/-- How far a mirror of a capture has come at its holder (17_reflection_and_recovery.md R411, R417). -/
inductive HoldStage where
  /-- RESERVE is at a peer, the last of those tried -/
  | seeking (tried : List Nat)
  /-- it has a holder -/
  | sending
  /-- PREPARE sent -/
  | preparing
  /-- COMMIT sent -/
  | committing
  | committed
  /-- none for this capture -/
  | lost
  deriving DecidableEq, Repr

/-- A capture (17_reflection_and_recovery.md R408 to R412): step, generation and set captured, its phase (0 stage,
1 send, 2 comparison, 3 commit), the RNG part of the record and its tiles, the sectors (key ID, LBN) in order with how
many of them hold parameters, the stored form and the plaintext of the staged sectors, the record, the stages of its
mirrors, the members whose roots agree and those that answered, whether it has committed, and the first code. -/
structure Capture where
  step : Nat
  gen : Nat
  uses : List (Nat × Nat)
  phase : Nat
  rng : Bytes
  tiles : Nat
  sectors : List (Nat × Nat)
  params : Nat
  stored : List Bytes
  plain : List Bytes
  root : Bytes
  record : Bytes
  holders : List HoldStage
  agree : Nat
  answered : List Nat
  done : Bool
  code : Nat
  deriving DecidableEq, Repr

/-- A restore (17_reflection_and_recovery.md R420): its peer, the HANDLE the data comes under, how far it has come (0 FETCH
sent, 1 record coming, 2 data coming, 3 all data here), and what has come. -/
structure Restore where
  peer : Nat
  handle : Nat
  stage : Nat
  record : Bytes
  data : List (Nat × Byte)
  deriving DecidableEq, Repr

/-- A SNAP_DATA transfer being received (08_training_dataflow.md R210): peer, TAG and the code of its first refusal. -/
structure SnapIn where
  peer : Nat
  tag : Nat
  code : Nat
  deriving DecidableEq, Repr

/-- A shard of a Beacon load (11_memory_tiers_and_weights.md R271, R276): its index in the pack, its tensor with the
offset and length in it, its place in the pack, and its digest. -/
structure LoadShard where
  idx : Nat
  tensor : Nat
  off : Nat
  len : Nat
  pos : Nat
  digest : Bytes
  deriving DecidableEq, Repr

/-- A registered shard (11_memory_tiers_and_weights.md R276, R279): its number, its partition, the shard, the region that
holds its digest and where, and the holders and the pack of the load that registered it. -/
structure RegShard where
  id : Nat
  part : Nat
  shard : LoadShard
  region : Nat
  dig : Nat
  holders : List (Option Nat × Nat)
  pack : Bytes
  deriving DecidableEq, Repr

/-- A request of a Beacon load that no answer has come for (11_memory_tiers_and_weights.md R274, R276): its number, the
position of its shard (none for a part of the index), its range of the pack and the position of its holder. -/
structure ShardReq where
  num : Nat
  shard : Option Nat
  off : Nat
  len : Nat
  holder : Nat
  deriving DecidableEq, Repr

/-- What a Beacon load works on (11_memory_tiers_and_weights.md R275 to R278): its holders (`some` peer, or `none` and
an address in the Steward region), the pack, the region for digests, the holders it skips, the sealed index so far with
DATA_OFF once it is known, whether the index has been accepted, the shards, the requests outstanding, the first shard not
yet requested and the shards not completed. -/
structure BeaconLoad where
  holders : List (Option Nat × Nat)
  pack : Bytes
  digestRegion : Nat
  skip : List Nat
  buf : Bytes
  dataOff : Nat
  index : Bool
  shards : List LoadShard
  reqs : List ShardReq
  next : Nat
  left : List Nat
  deriving DecidableEq, Repr

/-- A refetch of poisoned shards, or a lap of the hasher (11_memory_tiers_and_weights.md R279, R280): partition, load,
whether it has started, and its place in the order in which commands reached the hub. -/
structure Refetch where
  part : Nat
  load : BeaconLoad
  started : Bool
  arrived : Nat
  deriving DecidableEq, Repr

/-- The links, the peers and what works with them. `nextTag` numbers transfers and requests, `nextHandle` the mirrors
held; `early` keeps GROUP_HELLOs of groups not defined yet, `waiting` the COLL_DATA of requests not made yet, and `lap` the shards that the hasher's lap has still to visit,
if one runs. -/
structure Link where
  ports : List (Nat × PortSt)
  sessions : List (Nat × Session)
  groups : List Group
  early : List EarlyHello
  colls : List Coll
  waiting : List (Nat × LinkMsg)
  mirrors : List Mirror
  snaps : List SnapIn
  shards : List RegShard
  refetch : List Refetch
  lap : Option (List Nat)
  nextTag : Nat
  nextHandle : Nat
  deriving DecidableEq, Repr

/-- The links at a hub start. -/
def Link.reset : Link :=
  { ports := [], sessions := [], groups := [], early := [], colls := [], waiting := [], mirrors := [], snaps := [],
    shards := [], refetch := [], lap := none, nextTag := 0, nextHandle := 1 }

end Sys2Proof.Machine
end

