-- ==== Sys2Proof/Machine/PilotTypes.lean ====
section
/-!
DEFINITION. What the Pilot island, its flash and its power controller hold besides registers, as plain data
(18_power_clocks_and_reset.md, 19_lifecycle_firmware_debug.md).
-/

namespace Sys2Proof.Machine

/-- How far a start of the module has come (18_power_clocks_and_reset.md R430, R440, R442, R444, R446;
19_lifecycle_firmware_debug.md R451, R452, R458). -/
inductive Boot where
  /-- no supply: both feeds failed and the bulk capacitance ran out -/
  | off
  /-- a thermal trip: only the Pilot island has its supply -/
  | tripped
  /-- a module reset while RESET_IN_N is low -/
  | held
  /-- row 3, REFCLK absent -/
  | waitRef
  /-- rows 3 to 11 in progress -/
  | running
  /-- READY_OUT is high -/
  | ready
  /-- REFCLK was lost while READY_OUT was high -/
  | noRef
  /-- bring-up has stopped under R446 -/
  | failed
  /-- END and LOST: the start has stopped after row 2 -/
  | parked
  /-- the boot ROM is in recovery -/
  | recovery
  deriving DecidableEq, Repr

/-- The life-cycle record (19_lifecycle_firmware_debug.md R450): STATE, COUNT, SEC_VERSION, OPERATOR. -/
structure LcRecord where
  state : Nat
  count : Nat
  secVersion : Nat
  operator : Bytes
  deriving DecidableEq, Repr

/-- A debug token in force (19_lifecycle_firmware_debug.md R464, R465): RIGHTS, OWNER, its SHA-512 and the TIME_SCLK at
which it ends. -/
structure Token where
  rights : Nat
  owner : Nat
  digest : Bytes
  ends : Nat
  deriving DecidableEq, Repr

/-- A staging session (19_lifecycle_firmware_debug.md R457): KIND, the length it named, the FW_CHECK in force when it began,
and the bytes so far. -/
structure Staging where
  kind : Nat
  total : Nat
  check : Nat
  data : Bytes
  deriving DecidableEq, Repr

/-- The settings block (19_lifecycle_firmware_debug.md R460): FORMAT, SERIAL, FW_CHECK. -/
structure Settings where
  format : Nat
  serial : Nat
  fwCheck : Nat
  deriving DecidableEq, Repr

/-- The flash (19_lifecycle_firmware_debug.md R449): the record that verifies with the higher COUNT, whether LC_INIT is
blown, the authority key that the first transition showed (log 54), the certificate chain, the settings block that verifies, the active images by KIND that differ from what the factory
stored (1 Pilot firmware, 2 hub firmware, 3 gate program, 4 Steward loader), the complete staged images, the
start frame, the erase counts of the first unit of each sub-area, and all erases counted (log 7). -/
structure Flash where
  record : Option LcRecord
  lcInit : Bool
  authority : Bytes
  certs : Bytes
  settings : Option Settings
  active : List (Nat × Bytes)
  staged : List (Nat × Bytes)
  startFrame : Option Bytes
  wear : List (Nat × Nat)
  erases : Nat
  deriving DecidableEq, Repr

/-- The flash as the factory leaves it (log 7). -/
def Flash.factory : Flash :=
  { record := none, lcInit := false, authority := [], certs := [], settings := none, active := [], staged := [], startFrame := none,
    wear := [], erases := 0 }

/-- The Pilot mailbox (14_host_attach.md R347): its two buffers, the requests not yet served, oldest first, each with
whether a function-level reset has discarded its response, and the response not yet written. -/
structure Mailbox where
  reqBuf : List (Nat × Byte)
  rspBuf : List (Nat × Byte)
  reqs : List (Bytes × Bool)
  rsp : Option Bytes
  deriving DecidableEq, Repr

/-- An empty mailbox. -/
def Mailbox.reset : Mailbox := { reqBuf := [], rspBuf := [], reqs := [], rsp := none }

/-- What the Pilot island holds: the stage of the start; RESET_IN_N low and THERMTRIP_OUT_N asserted; which failed feed is
back in range and waits its second, and whether the module runs on its bulk capacitance; the steps of the thermal stretch of
each die and of the power stretch; the flash; FW_CHECK in force and the flags of LC_STATUS; the current nonce, the debug token and the
staging session; the gate program is the active image of KIND 3; measurement 5; the mailbox; the calibrated voltage of
each filled bin in mV by cluster × 8 + bin, the load bin of each cluster, the clusters in the calibration pass, and what PRELOAD has put in the boundary register
(18_power_clocks_and_reset.md R424 to R438). -/
structure Pilot where
  boot : Boot
  resetLow : Bool
  tripOut : Bool
  backA : Bool
  backB : Bool
  bulk : Bool
  thermStep : Vector Nat 6
  powerStep : Nat
  flash : Flash
  fwCheck : Nat
  settingsReset : Bool
  wearLimit : Bool
  deferred : Bool
  rejected : Bool
  nonce : Option Bytes
  token : Option Token
  staging : Option Staging
  loaderDigest : Bytes
  mbox : Mailbox
  bins : List (Nat × Nat)
  loadBin : List (Nat × Nat)
  passing : List Nat
  boundary : Nat
  deriving DecidableEq, Repr

/-- The Pilot island at a cold reset, with its flash. -/
def Pilot.cold (f : Flash) : Pilot :=
  { boot := .waitRef, resetLow := false, tripOut := false, backA := false, backB := false, bulk := false,
    thermStep := Vector.replicate 6 0, powerStep := 0, flash := f, fwCheck := 3, settingsReset := false, wearLimit := false,
    deferred := false, rejected := false, nonce := none, token := none, staging := none, loaderDigest := List.replicate 64 0,
    mbox := Mailbox.reset, bins := [], loadBin := [], passing := [], boundary := 0 }

/-- The Pilot island at the first cold reset. -/
def Pilot.reset : Pilot := Pilot.cold Flash.factory

/-- Has the Pilot island its supply? -/
def Pilot.powered (p : Pilot) : Bool := p.boot ≠ .off

/-- Does a debug token grant tile access (19_lifecycle_firmware_debug.md R464, R465)? -/
def Pilot.debugTile (p : Pilot) : Bool := match p.token with
  | some t => t.rights / 4 % 2 = 1
  | none => false

/-- STATE of the life cycle: 0 BLANK, 1 to 5 as in the record, 0xFF LOST (19_lifecycle_firmware_debug.md R450, R451). -/
def Flash.lcState (f : Flash) : Nat := match f.record with
  | some r => r.state
  | none => if f.lcInit then 0xFF else 0

/-- The active image of a KIND (log 5): the factory's unless an update has replaced it. -/
def Flash.image (f : Flash) (k : Nat) : Bytes := match f.active.find? fun e => e.1 = k with
  | some e => e.2
  | none => if k = 4 then [] else Config.factoryImage k

end Sys2Proof.Machine
end

