-- ==== Sys2Proof/Machine/SMap.lean ====
section
/-!
DEFINITION. Sparse tables: a list of (key, value) pairs in ONE canonical form, keys strictly rising and no
entry equal to what an unlisted key reads as. Registers, memories, tiles, queues and peers are held so.
-/

namespace Sys2Proof.Machine

/-- What key `k` reads as: its entry, else the default `d`. -/
def smapGet {α : Type} (d : α) : List (Nat × α) → Nat → α
  | [], _ => d
  | (k', v) :: rest, k => if k = k' then v else smapGet d rest k

/-- The table with key `k` removed. -/
def smapErase {α : Type} : List (Nat × α) → Nat → List (Nat × α)
  | [], _ => []
  | (k', v) :: rest, k => if k = k' then smapErase rest k else (k', v) :: smapErase rest k

/-- The table with key `k` bound to `v`, in its place. -/
def smapInsert {α : Type} : List (Nat × α) → Nat → α → List (Nat × α)
  | [], k, v => [(k, v)]
  | (k', v') :: rest, k, v =>
    if k = k' then (k, v) :: rest
    else if k < k' then (k, v) :: (k', v') :: rest
    else (k', v') :: smapInsert rest k v

/-- Write `v` at key `k`: writing the default removes the entry. -/
def smapSet {α : Type} [DecidableEq α] (d : α) (m : List (Nat × α)) (k : Nat) (v : α) :
    List (Nat × α) :=
  if v = d then smapErase m k else smapInsert m k v

/-- Change the value at key `k`. -/
def smapUpd {α : Type} [DecidableEq α] (d : α) (m : List (Nat × α)) (k : Nat) (f : α → α) :
    List (Nat × α) :=
  smapSet d m k (f (smapGet d m k))

/-- The keys of a table rise strictly. -/
def smapSorted {α : Type} : List (Nat × α) → Bool
  | [] => true
  | [_] => true
  | (a, _) :: (b, y) :: rest => decide (a < b) && smapSorted ((b, y) :: rest)

/-- The canonical form: keys strictly rising, and no entry equal to the default. -/
def smapWf {α : Type} [DecidableEq α] (d : α) (m : List (Nat × α)) : Bool :=
  smapSorted m && m.all (fun p => decide (p.2 ≠ d))

/-- `n` consecutive keys from `k`, as a list of values. -/
def smapRead {α : Type} (d : α) (m : List (Nat × α)) (k n : Nat) : List α :=
  (List.range n).map (fun i => smapGet d m (k + i))

/-- Write a list of values at consecutive keys from `k`. -/
def smapWrite {α : Type} [DecidableEq α] (d : α) : List (Nat × α) → Nat → List α → List (Nat × α)
  | m, _, [] => m
  | m, k, v :: vs => smapWrite d (smapSet d m k v) (k + 1) vs

end Sys2Proof.Machine
end

