-- ==== Sys2Proof/Machine/TileTypes.lean ====
section
/-!
DEFINITION. What one tile holds (04_tile_core.md R86, 02_fabric.md R44, 07_vector_engine.md R184 to R186) and
what travels on the message and stream networks, as plain data.
-/

namespace Sys2Proof.Machine

/-- A packet in a receive queue (02_fabric.md R40): its source and its words. -/
structure Packet where
  srcTile : Nat
  srcEp : Nat
  words : List Word
  deriving DecidableEq, Repr

/-- The kinds of a channel endpoint (02_fabric.md R44). -/
inductive EpKind where
  | unbound | msg | sout | sin | hub
  deriving DecidableEq, Repr

/-- One channel endpoint with its binding, its credits, its receive queue and its ring
(02_fabric.md R44, 04_tile_core.md R95, R96). Ring base and size are in bytes. -/
structure Endpoint where
  kind : EpKind
  peerTile : Nat
  peerEp : Nat
  stream : Nat
  ringBase : Nat
  ringSize : Nat
  service : Nat
  credits : Nat
  queue : List Packet
  head : Nat
  ready : Nat
  deriving DecidableEq, Repr

/-- An endpoint that no binding names. -/
def Endpoint.unbound : Endpoint :=
  { kind := .unbound, peerTile := 0, peerEp := 0, stream := 0, ringBase := 0, ringSize := 0, service := 0,
    credits := 0, queue := [], head := 0, ready := 0 }

/-- The three units of a tile (04_tile_core.md R100). -/
inductive UnitKind where
  | cube | vector | mover
  deriving DecidableEq, Repr

/-- How far a unit command has come. A command is `sending` while its output for a SOUT endpoint has not all been accepted by
the first stream slot (R100; 05_matrix_array.md R139), and `lost` when a transfer of it has failed, so that it never completes
(R105; 02_fabric.md R46, R48). -/
inductive CmdPhase where
  | queued | running | sending | lost | finished
  deriving DecidableEq, Repr

/-- Is a command between its start and its completion? -/
def CmdPhase.live (p : CmdPhase) : Bool := p = .running || p = .sending || p = .lost

/-- What a command whose output waits for its stream has left to report: the number of flits that its source must have
injected, and its flags. -/
structure UnitOut where
  upto : Nat
  sat : Bool
  nan : Bool
  deriving DecidableEq, Repr

/-- A unit command between its issue and its completion (04_tile_core.md R99, R100): the copy of its descriptor
as eight words, the RNG counter it reserved from, and the 8-byte scratchpad words that the core or another unit
has written since it was issued, each with the values it held before (R94). `got` holds, by endpoint, the bytes it has taken so
far from rings (R96). `mark` is the number its free values stand under (log 1). -/
structure UCmd where
  seq : BitVec 32
  desc : List Word
  phase : CmdPhase
  rngBase : BitVec 128
  rngKey : BitVec 128
  raced : List (Nat × List Word)
  got : List (Nat × Bytes)
  after : Option (BitVec 32)
  mark : Nat
  out : Option UnitOut
  deriving DecidableEq, Repr

/-- The wait a tile core is in (04_tile_core.md R92, R99, R108, R113). The constructors hold what the waiting
instruction needs to end. -/
inductive Wait where
  /-- WAITT of a ticket -/
  | ticket (v : Word)
  /-- WAITE: counter and value -/
  | event (k : Fin 16) (v : BitVec 32)
  /-- WAITU: units -/
  | units (m : BitVec 3)
  /-- SEND: every wait of R92 -/
  | sendWait (ch : Fin 64) (reg : GReg) (n : Nat) (pd : Fin 8) (nb : Bool)
  /-- RECV without NB -/
  | recvWait (ch : Fin 64) (reg : GReg) (n : Nat) (pd : Fin 8) (nb : Bool)
  /-- an issue instruction with its copy of the descriptor -/
  | issue (u : UnitKind) (rd : GReg) (desc : List Word)
  /-- HALT -/
  | halt
  deriving DecidableEq, Repr

/-- One RNG stream (07_vector_engine.md R185). -/
structure RngStream where
  key : BitVec 128
  ctr : BitVec 128
  deriving DecidableEq, Repr

/-- A weight block in a latch set of the cube array: its elements as stored, K row by K row (05_matrix_array.md R119, R143). -/
abbrev WeightBlock := List Nat

/-- One tile (04_tile_core.md R86 and its CSRs and window registers, R115 to R117). `stepping` holds while an SSTEP runs
its instruction (R114). `tileStep` is the last step
this tile has reported done, `replyFrom` the endpoint whose hub request has a reply outstanding, `replyBuf` the
reply in the buffer. -/
structure Tile where
  g : Vector Word 32
  p : Vector Bool 8
  e : Vector (BitVec 32) 16
  evSrc : Vector (BitVec 9) 16
  pc : Nat
  halted : Bool
  stepping : Bool
  coded : Bool
  normalEnd : Bool
  dbgDenied : Bool
  wait : Option Wait
  cause : Nat
  code : Nat
  faultPc : Nat
  reported : Bool
  trapImm : BitVec 12
  cycle : Word
  mxSat : Bool
  mxNan : Bool
  vxSat : Bool
  vxNan : Bool
  waitLimit : BitVec 32
  recvInfo : BitVec 21
  memAddr : BitVec 21
  memSpace : BitVec 2
  rng : Vector RngStream 4
  cubeQ : List UCmd
  vecQ : List UCmd
  movQ : List UCmd
  cubeIssued : BitVec 32
  vecIssued : BitVec 32
  movIssued : BitVec 32
  cubeDone : BitVec 32
  vecDone : BitVec 32
  movDone : BitVec 32
  scratch : List Host.Cell
  acc : List Host.Cell
  latch : Vector WeightBlock 2
  imem : List (Nat × BitVec 32)
  eps : List (Nat × Endpoint)
  replyFrom : Option (Fin 64)
  replyBuf : Option (List Word)
  rx : Nat
  ry : Nat
  ctx : Nat
  entry : Nat
  accKib : Nat
  tileStep : Option Nat
  collTail : List Word
  deriving DecidableEq, Repr

/-- A tile after a hub start or an Eclipse: every field at its reset value (04_tile_core.md R87, R115 to R117;
13_tenants_and_joint_training.md R313). HALTED is 1. -/
def Tile.reset : Tile :=
  { g := Vector.replicate 32 0, p := Vector.replicate 8 false, e := Vector.replicate 16 0,
    evSrc := (Vector.replicate 16 0).set 0 1, pc := 0, halted := true, stepping := false, coded := false, normalEnd := false,
    dbgDenied := false, wait := none, cause := 0, code := 0, faultPc := 0, reported := false, trapImm := 0,
    cycle := 0, mxSat := false, mxNan := false, vxSat := false, vxNan := false, waitLimit := 0, recvInfo := 0,
    memAddr := 0, memSpace := 0, rng := Vector.replicate 4 ⟨0, 0⟩, cubeQ := [], vecQ := [], movQ := [],
    cubeIssued := 0, vecIssued := 0, movIssued := 0, cubeDone := 0, vecDone := 0, movDone := 0, scratch := [],
    acc := [], latch := Vector.replicate 2 [], imem := [], eps := [], replyFrom := none, replyBuf := none, rx := 0, ry := 0, ctx := 0, entry := 0,
    accKib := 256, tileStep := none, collTail := [] }

/-- What travels on the message network (02_fabric.md R40, 04_tile_core.md R95 to R98, R110, R111). -/
inductive NetKind where
  /-- KIND 0 channel data between tiles -/
  | data
  /-- KIND 1 credit return -/
  | credit
  /-- KIND 2 error report, to the hub -/
  | report
  /-- a request on a HUB endpoint, with its service -/
  | request (service : Nat)
  /-- a reply of the hub -/
  | reply
  /-- the hub's stop -/
  | stop
  deriving DecidableEq, Repr

/-- A packet in flight: `flags` are the UNIT_FLAGS that a STEP_DONE carries (04_tile_core.md R98), `code` the code
of an error report, or 1 in a credit return of a tile. -/
structure NetMsg where
  kind : NetKind
  srcTile : Nat
  srcEp : Nat
  dstTile : Nat
  dstEp : Nat
  words : List Word
  flags : BitVec 4
  code : Nat
  deriving DecidableEq, Repr

/-- A stream flit: 64 bytes and LAST (02_fabric.md R32, R38). -/
structure Flit where
  data : Bytes
  last : Bool
  deriving DecidableEq, Repr

/-- One stream slot of a route (02_fabric.md R34, R35): its buffer, the credits on their way back to the sender,
and the mark of a lost flit (R48). -/
structure Slot where
  flits : List Flit
  owed : Nat
  stuck : Bool
  deriving DecidableEq, Repr

/-- An empty slot. -/
def Slot.empty : Slot := { flits := [], owed := 0, stuck := false }

/-- A stream in place: the flits its source has produced and not injected, how many it has injected, its slots by branch × 128 + hop, and the
flits that reached a hub crossing, with their branch (02_fabric.md R33 to R38, R42). -/
structure StreamSt where
  src : List Flit
  taken : Nat
  slots : List (Nat × Slot)
  hubOut : List (Nat × Bytes)
  deriving DecidableEq, Repr

/-- A stream with nothing in it. -/
def StreamSt.empty : StreamSt := { src := [], taken := 0, slots := [], hubOut := [] }

end Sys2Proof.Machine
end

