-- ==== Sys2Proof/Machine/HubTypes.lean ====
section
/-!
DEFINITION. What the hub, the memory controllers and the Pilot island hold besides registers, as plain data.
-/

namespace Sys2Proof.Machine

/-- What the block has emitted (assumption log 2). -/
inductive Out where
  /-- an MSI-X message: address and data (14_host_attach.md R344) -/
  | msix (addr : Word) (data : BitVec 32)
  /-- the data a read returns on CXL.io (14_host_attach.md R340; 04_tile_core.md R117) -/
  | readData (v : Word)
  /-- the plaintext of a line or of a range that Prism returns -/
  | line (data : Bytes)
  /-- a refusal that Prism raises to the requester (12_prism_memory_protection.md R304) -/
  | refused (code : Nat)
  /-- stored ciphertext and tag with the RAW indication (12_prism_memory_protection.md R305) -/
  | raw (data tag : Bytes)
  /-- a group that a Ramom port sends (10_links_and_collectives.md R237) -/
  | group (port : Nat) (data : Bytes)
  /-- a frame that an Ethernet port sends, FCS included (10_links_and_collectives.md R234, R235) -/
  | frame (port : Nat) (data : Bytes)
  /-- an MCTP message that the Pilot island sends over I3C (18_power_clocks_and_reset.md R442; 19_lifecycle_firmware_debug.md
  R461) -/
  | mctp (data : Bytes)
  /-- a private transfer over I3C that is NACKed (18_power_clocks_and_reset.md R445) -/
  | nack
  /-- the completion of a CXL.io request before READY_OUT or beyond a BAR: Unsupported Request
  (18_power_clocks_and_reset.md R445; 14_host_attach.md R340) -/
  | unsupported
  /-- the completion of a configuration request before READY_OUT: Configuration Request Retry Status
  (18_power_clocks_and_reset.md R445) -/
  | retry
  /-- MemData of a CXL.mem read: Poison and the data (14_host_attach.md R340) -/
  | memData (poison : Bool) (data : Bytes)
  /-- normal completion of a CXL.mem write (14_host_attach.md R340) -/
  | memDone
  /-- a CXL.cache request of the hub to the Steward's coherence agent for the lines of a range: whether it is for a write, the device
  logical address and the bytes (14_host_attach.md R338) -/
  | cxlCache (write : Bool) (addr n : Nat)
  /-- what JTAG gives: the instruction that acts, and the value of the register it selects
  (19_lifecycle_firmware_debug.md R466) -/
  | jtag (data : Nat)
  /-- what EXTEST drives on the pins (19_lifecycle_firmware_debug.md R466) -/
  | pins (data : Nat)
  deriving DecidableEq, Repr

/-- The fabric beside the tiles (02_fabric.md): messages in flight oldest first, streams by partition × 4096 + ID; by
number of an edge or bridge (edges 0–3, bridges 4–7) × 2 + direction the consecutive failed replays, the sequence number of
the next transfer unit, the 256-bit key and the last unit as the direction carried it, ciphertext and truncated tag
(R41 to R43); and the edges and bridges that have failed since the last module reset (R48). -/
structure Fabric where
  net : List NetMsg
  streams : List (Nat × StreamSt)
  replays : List (Nat × Nat)
  seqs : List (Nat × Nat)
  keys : List (Nat × Bytes)
  wire : List (Nat × Bytes)
  down : List Nat
  deriving DecidableEq, Repr

/-- The fabric after a hub start. -/
def Fabric.reset : Fabric := { net := [], streams := [], replays := [], seqs := [], keys := [], wire := [], down := [] }

/-- What Prism and the controllers hold for one line beside its plaintext (12_prism_memory_protection.md R285 to
R287, 16_reliability_and_integrity.md R388, R390): whether the model lists it, its minor counter, the key material it was
written under, the code of its poison (0 = none), whether its stored tag no longer matches, the correctable error
in its stored copy (0 = none, else 1 + code word × 72 + symbol), and its stored tag where that is not the one its counters,
key and ciphertext give. -/
structure Line where
  live : Bool
  minor : Nat
  key : Nat
  poison : Nat
  bad : Bool
  ce : Nat
  tag : Option Bytes
  deriving DecidableEq, Repr

/-- A line the model does not list. -/
def Line.fresh : Line := { live := false, minor := 0, key := 0, poison := 0, bad := false, ce := 0, tag := none }

/-- A space whose unlisted lines still hold an earlier image's data: its number, the mark of the load since which they do, and
the controllers, as a mask, whose share has not been initialised since (assumption log 8). -/
structure Residue where
  space : Nat
  mark : Nat
  ctrls : Nat
  deriving DecidableEq, Repr

/-- Device memory. A place is a number: space × 2^64 + device logical address, where space 0 is the Steward region and
the system structures under key ID 0, and space p + 1 is partition p's carve. Bytes are plaintext; lines are keyed by
place / 64; the major counters of sectors, plus one, by place / 4096. `stale` names the spaces whose unlisted
lines still hold an earlier image's data (assumption log 8). `floods` lists the INIT passes of Floodlight that run, by
controller and what waits for them: a partition's number, 32 the frame load, 33 the ROTATE; and 34 a VERIFY pass
(16_reliability_and_integrity.md R402). -/
structure Mem where
  bytes : List Host.Cell
  lines : List (Nat × Line)
  majors : List (Nat × Nat)
  stale : List Residue
  floods : List (Nat × Nat)
  deriving DecidableEq, Repr

/-- Memory that Floodlight has zeroed (12_prism_memory_protection.md R287). -/
def Mem.reset : Mem := { bytes := [], lines := [], majors := [], stale := [], floods := [] }

/-- STATE of a key-table entry (12_prism_memory_protection.md R299). -/
inductive KeyState where
  | free | reserved | valid | system
  deriving DecidableEq, Repr

/-- A key-table entry (12_prism_memory_protection.md R299): `material` is the key bytes as one number, XTS key in
its low 512 bits and tag key in the next 256. -/
structure KeyEntry where
  state : KeyState
  owner : Nat
  gen : Nat
  users : Nat
  material : Nat
  deriving DecidableEq, Repr

/-- A FREE entry. -/
def KeyEntry.free : KeyEntry := { state := .free, owner := 0, gen := 0, users := 0, material := 0 }

/-- A rights entry (12_prism_memory_protection.md R303): maps of 2,048 bits as numbers. -/
structure Rights where
  read : Nat
  write : Nat
  stewardOnly : Bool
  rawRead : Bool
  deriving DecidableEq, Repr

/-- No right. -/
def Rights.none : Rights := { read := 0, write := 0, stewardOnly := false, rawRead := false }

/-- An entry of a counter cache: a node of the instance's tree by level and index, its 64 bytes, and whether a write has
changed it (12_prism_memory_protection.md R288, R289). -/
structure CacheEntry where
  level : Nat
  index : Nat
  data : Bytes
  dirty : Bool
  deriving DecidableEq, Repr

/-- The key table, the rights entries and what the 12 Prism instances keep (12_prism_memory_protection.md R288 to R290,
R299 to R303): key caches as lists of key IDs, tree keys, counter caches, the stored nodes that differ from those an INIT
leaves, by holder, controller, level and index, the roots among them, and the sector slot of each sector in use, by place / 4096, as
slot × 16 + controller + 1 (log 119). -/
structure Prism where
  keys : List (Nat × KeyEntry)
  rights : List (Nat × Rights)
  keyCache : List (Nat × List Nat)
  treeKeys : List (Nat × Nat)
  cache : List (Nat × List CacheEntry)
  nodes : List (Nat × Bytes)
  slots : List (Nat × Nat)
  deriving DecidableEq, Repr

/-- The rights entries as R302 gives their defaults: 32 hub DMA, 34 the Steward die, 35 the debug access port. -/
def Prism.defaultRights : List (Nat × Rights) :=
  [(32, ⟨1, 1, false, false⟩), (34, ⟨1, 1, true, false⟩), (35, ⟨0, 0, false, true⟩)]

/-- Prism at a hub start: key ID 0 SYSTEM with GEN 1 (12_prism_memory_protection.md R299, R300). -/
def Prism.reset : Prism :=
  { keys := [(0, { state := .system, owner := 0, gen := 1, users := 0, material := 0 })],
    rights := Prism.defaultRights, keyCache := [], treeKeys := [], cache := [], nodes := [], slots := [] }

/-- How far a command that the hub has read has come (15_shared_objects_and_submission.md R359, R363). -/
inductive CmdStage where
  | waiting | running | ended
  deriving DecidableEq, Repr

/-- A command read into the hub and not completed (15_shared_objects_and_submission.md R359): its 16 words, the address of
its ring entry, its stage, and once it has ended what its completion carries (R366). `attached` says that its code is on
its fence already (R371); `phase` and `tag` are the progress of an operation with phases, and `arrived` is the place of
the command in the order in which commands reached the hub. -/
structure HubCmd where
  words : List Nat
  entry : Nat
  stage : CmdStage
  code : Nat
  cancelled : Bool
  sat : Bool
  nan : Bool
  info : Nat
  gen : Nat
  tile : Option Nat
  attached : Bool
  phase : Nat
  tag : Nat
  arrived : Nat
  load : Option BeaconLoad
  deriving DecidableEq, Repr

/-- A command with nothing in it. -/
def HubCmd.empty : HubCmd :=
  { words := [], entry := 0, stage := .waiting, code := 0, cancelled := false, sat := false, nan := false, info := 0,
    gen := 0, tile := none, attached := false, phase := 0, tag := 0, arrived := 0, load := none }

/-- An MSI-X table entry (14_host_attach.md R343). -/
structure MsixEntry where
  addr : Word
  data : BitVec 32
  masked : Bool
  deriving DecidableEq, Repr

/-- A table entry as a function-level reset leaves it (log 6). -/
def MsixEntry.reset : MsixEntry := { addr := 0, data := 0, masked := true }

/-- What the hub holds for submission and interrupts (14_host_attach.md R343, R344; 15_shared_objects_and_submission.md
R356, R359): the commands read by queue, oldest first; the time of the last command start in each resident slot on the
hub's count `clock`; the contexts that wait for a slot in their order; the MSI-X table, the pending bits and the two
bits of message control; and the lines of the region that the Steward's system cache holds (14_host_attach.md R338). -/
structure Hub where
  cmds : List (Nat × List HubCmd)
  clock : Nat
  slotUse : List (Nat × Nat)
  slotWait : List Nat
  msix : List (Nat × MsixEntry)
  pba : Nat
  msixOn : Bool
  funcMask : Bool
  cached : List Nat
  deriving DecidableEq, Repr

/-- The hub at a hub start. -/
def Hub.reset : Hub :=
  { cmds := [], clock := 0, slotUse := [], slotWait := [], msix := [], pba := 0, msixOn := false, funcMask := false,
    cached := [] }

/-- How far a step has come (04_tile_core.md R98; 09_parameter_update.md R216): its tiles compute, its pass waits or
runs, or it is over and its STEP completes. -/
inductive StepPhase where
  | compute | pass | ended
  deriving DecidableEq, Repr

/-- A step in progress: the queue of its STEP, its number, its captured generation and set, the units of its pass and
whether each has its place, and its place in the order in which steps ended (09_parameter_update.md R226). -/
structure StepRun where
  queue : Nat
  n : Nat
  gen : Nat
  phase : StepPhase
  uses : List (Nat × Nat)
  units : List (Nat × Bool)
  order : Nat
  deriving DecidableEq, Repr

/-- What runs at a partition's loading controls (03_configuration_images.md R79, R80; 18_power_clocks_and_reset.md R440). -/
inductive LoadBusy where
  | idle
  /-- a job load that was refused, with its result -/
  | load (code sect entry : Nat)
  /-- a job load that has passed every check, with its image, its context and the index of the context's owner -/
  | loading (image : JobImage) (ctx owner : Nat)
  /-- an UNLOAD -/
  | unload
  /-- a partition reset -/
  | reset
  deriving DecidableEq, Repr

/-- One partition (03_configuration_images.md R79 to R85): the image it holds, the context bound to it with its owner's index, step
number with the generation it captured, generation, pending error and trace index, its weight sets in their two slots and the pending switch
(08_training_dataflow.md R201 to R206), the redirects in force, the regions that MIGRATEs hold
(11_memory_tiers_and_weights.md R268), and whether Eclipse runs in it (13_tenants_and_joint_training.md R314); and for
the copy of the schedule tables in the context's memory (03_configuration_images.md R70), and for
Reflection the handles of its mirrors, the capture, the restore, and whether the next boundary captures whatever EVERY is
(17_reflection_and_recovery.md R410, R417, R420, R421). -/
structure Part where
  busy : LoadBusy
  eclipse : Bool
  loaded : Bool
  image : JobImage
  ctx : Nat
  owner : Nat
  lineage : Nat
  stepNo : Nat
  stepGen : Nat
  gen : Nat
  pendErr : Nat
  traceHead : Nat
  set0 : List (Nat × Nat)
  set1 : List (Nat × Nat)
  switchPend : Bool
  failed : Bool
  step : Option StepRun
  uses : List (Nat × Nat)
  migrating : List Nat
  handles : List Nat
  capture : Option Capture
  restore : Option Restore
  recapture : Bool
  scheds : List Sched
  deriving DecidableEq, Repr

/-- An empty partition. -/
def Part.empty : Part :=
  { busy := .idle, eclipse := false, loaded := false, image := JobImage.empty, ctx := 0, owner := 0, lineage := 0, stepNo := 0, stepGen := 0, gen := 0,
    pendErr := 0, traceHead := 0, set0 := [], set1 := [], switchPend := false, failed := false, step := none, uses := [],
    migrating := [], handles := [0, 0], capture := none, restore := none, recapture := false, scheds := [] }

end Sys2Proof.Machine
end

