-- ==== Sys2Proof/Machine/RegMap.lean ====
section
/-!
DEFINITION. The register fields of BAR0, one definition per row of the spec's field tables, and the table of
them all. A field is named register_FIELD as the spec names them.
-/

namespace Sys2Proof.Machine

/-- The access codes (00_scope.md R7). -/
inductive Access where
  | ro | rw | w1c | w1s | wo | rwl
  deriving DecidableEq, Repr

/-- What the Reset value column holds (00_scope.md R10): a number, "boot" or "fuse"; `index` and `lpddr` are
the two fuse fields whose value the spec's meaning column fixes (09_parameter_update.md R230). -/
inductive ResetVal where
  | num (n : Nat) | boot | fuse | index | lpddr
  deriving DecidableEq, Repr

/-- The six contents the Kept across column has in the spec's field tables (00_scope.md R11):
`always` C M W P T F N D; `pilot` M W P T F N D; `hub` P T F N D; `part` T F N D; `func` P T N D; `action` none. -/
inductive Kept where
  | always | pilot | hub | part | func | action
  deriving DecidableEq, Repr

/-- The resets that can return a BAR0 field to its reset value (00_scope.md R11). -/
inductive ResetKind where
  | cold | modul | hubWarm | part | func
  deriving DecidableEq, Repr

/-- Does a field of this Kept across column survive the reset? -/
def Kept.survives : Kept → ResetKind → Bool
  | .always, _ => true
  | .pilot, k => k ≠ .cold
  | .hub, k => k = .part || k = .func
  | .part, k => k = .func
  | .func, k => k = .part
  | .action, _ => false

/-- One row of a field table: the register's BAR0 offset with the strides and counts of its copies, the
bits, the access code, the reset value and the Kept across column. -/
structure Fld where
  base : Nat
  s1 : Nat
  c1 : Nat
  s2 : Nat
  c2 : Nat
  hi : Nat
  lo : Nat
  access : Access
  reset : ResetVal
  kept : Kept
  deriving DecidableEq, Repr

namespace Reg

/-! 02_fabric.md R50. -/
/-- tile columns per die -/
def FAB_CAP_COLS : Fld := ⟨0x24000, 0x8, 1, 0, 1, 4, 0, .ro, .num 24, .always⟩
/-- tile rows per die -/
def FAB_CAP_ROWS : Fld := ⟨0x24000, 0x8, 1, 0, 1, 9, 5, .ro, .num 16, .always⟩
/-- compute dies -/
def FAB_CAP_DIES : Fld := ⟨0x24000, 0x8, 1, 0, 1, 12, 10, .ro, .num 4, .always⟩
/-- stream slots per port, crossing and bridge crossing -/
def FAB_CAP_SLOTS : Fld := ⟨0x24000, 0x8, 1, 0, 1, 16, 13, .ro, .num 8, .always⟩
/-- flits of buffer per edge slot -/
def FAB_CAP_EDGE_DEPTH : Fld := ⟨0x24000, 0x8, 1, 0, 1, 22, 17, .ro, .num 32, .always⟩
/-- sinks per stream -/
def FAB_CAP_MAX_SINKS : Fld := ⟨0x24000, 0x8, 1, 0, 1, 27, 23, .ro, .num 16, .always⟩
/-- hops per branch -/
def FAB_CAP_MAX_HOPS : Fld := ⟨0x24000, 0x8, 1, 0, 1, 34, 28, .ro, .num 127, .always⟩
/-- packets per MSG receive queue -/
def FAB_CAP_MSG_DEPTH : Fld := ⟨0x24000, 0x8, 1, 0, 1, 38, 35, .ro, .num 4, .always⟩
/-- 1 = global fabric counters count -/
def FAB_CTRL_CNT_EN : Fld := ⟨0x24008, 0x8, 1, 0, 1, 0, 0, .rw, .num 1, .hub⟩
/-- 1 = global counters hold their values -/
def FAB_CTRL_CNT_FREEZE : Fld := ⟨0x24008, 0x8, 1, 0, 1, 1, 1, .rw, .num 0, .hub⟩
/-- 1 = clear all global fabric counters -/
def FAB_CTRL_CNT_CLEAR : Fld := ⟨0x24008, 0x8, 1, 0, 1, 2, 2, .wo, .num 0, .action⟩
/-- a flit was discarded at a partition boundary -/
def FAB_ERR_STAT_BND_VIOL : Fld := ⟨0x24010, 0x8, 1, 0, 1, 0, 0, .w1c, .num 0, .hub⟩
/-- stream-network parity error -/
def FAB_ERR_STAT_STREAM_PAR : Fld := ⟨0x24010, 0x8, 1, 0, 1, 1, 1, .w1c, .num 0, .hub⟩
/-- message-network parity error -/
def FAB_ERR_STAT_MSG_PAR : Fld := ⟨0x24010, 0x8, 1, 0, 1, 2, 2, .w1c, .num 0, .hub⟩
/-- memory-network parity error -/
def FAB_ERR_STAT_MEM_PAR : Fld := ⟨0x24010, 0x8, 1, 0, 1, 3, 3, .w1c, .num 0, .hub⟩
/-- at least one edge or bridge replay since last cleared -/
def FAB_ERR_STAT_EDGE_REPLAY : Fld := ⟨0x24010, 0x8, 1, 0, 1, 4, 4, .w1c, .num 0, .hub⟩
/-- bit e = 1: edge e has failed -/
def FAB_ERR_STAT_EDGE_FAIL : Fld := ⟨0x24010, 0x8, 1, 0, 1, 11, 8, .ro, .num 0, .hub⟩
/-- bit n = 1: hub bridge of die n has failed -/
def FAB_ERR_STAT_BRIDGE_FAIL : Fld := ⟨0x24010, 0x8, 1, 0, 1, 15, 12, .ro, .num 0, .hub⟩
/-- 64-byte transfer units carried in this edge direction, all networks -/
def FAB_EDGE_FLITS : Fld := ⟨0x24040, 0x8, 8, 0, 1, 63, 0, .ro, .num 0, .hub⟩
/-- replays on this edge, both directions; holds at all ones -/
def FAB_EDGE_REPLAY : Fld := ⟨0x24080, 0x8, 4, 0, 1, 31, 0, .ro, .num 0, .hub⟩
/-! 02_fabric.md R51. -/
/-- 1 = this partition's counters count -/
def PART_FAB_CTRL_CNT_EN : Fld := ⟨0x100800, 0x1000, 32, 0, 1, 0, 0, .rw, .num 1, .part⟩
/-- 1 = clear this partition's counters -/
def PART_FAB_CTRL_CNT_CLEAR : Fld := ⟨0x100800, 0x1000, 32, 0, 1, 1, 1, .wo, .num 0, .action⟩
/-- 1 = PART_WATCH_STALL follows WATCH_STREAM -/
def PART_FAB_CTRL_WATCH_EN : Fld := ⟨0x100800, 0x1000, 32, 0, 1, 2, 2, .rw, .num 0, .part⟩
/-- stream ID 0–4,095 watched -/
def PART_FAB_CTRL_WATCH_STREAM : Fld := ⟨0x100800, 0x1000, 32, 0, 1, 27, 16, .rw, .num 0, .part⟩
/-- stream flits injected by the partition's tiles -/
def PART_STREAM_FLITS : Fld := ⟨0x100808, 0x1000, 32, 0, 1, 63, 0, .ro, .num 0, .part⟩
/-- slot-cycles with a flit waiting and no credit, as R49 -/
def PART_STREAM_STALL : Fld := ⟨0x100810, 0x1000, 32, 0, 1, 63, 0, .ro, .num 0, .part⟩
/-- message packets sent, credit returns included -/
def PART_MSG_PKTS : Fld := ⟨0x100818, 0x1000, 32, 0, 1, 63, 0, .ro, .num 0, .part⟩
/-- cycles in which a send waited for a channel credit -/
def PART_MSG_WAIT : Fld := ⟨0x100820, 0x1000, 32, 0, 1, 63, 0, .ro, .num 0, .part⟩
/-- 64-byte lines read and written over the memory network -/
def PART_MEM_LINES : Fld := ⟨0x100828, 0x1000, 32, 0, 1, 63, 0, .ro, .num 0, .part⟩
/-- die-edge crossings by the partition's stream flits: 1 for each edge a flit crosses on each branch of its route tree; a crossing made before a fork is counted once -/
def PART_EDGE_FLITS : Fld := ⟨0x100830, 0x1000, 32, 0, 1, 63, 0, .ro, .num 0, .part⟩
/-- cycles in which a slot of the watched stream held a flit without credit -/
def PART_WATCH_STALL : Fld := ⟨0x100838, 0x1000, 32, 0, 1, 63, 0, .ro, .num 0, .part⟩
/-- flits discarded at this partition's boundary -/
def PART_BND_VIOL : Fld := ⟨0x100840, 0x1000, 32, 0, 1, 31, 0, .ro, .num 0, .part⟩
/-! 03_configuration_images.md R84. -/
/-- device logical address of the image, bits [62:6], key ID 0 -/
def FRAME_LOAD_ADDR_ADDR : Fld := ⟨0x25000, 0x8, 1, 0, 1, 62, 6, .rw, .num 0, .hub⟩
/-- 1 = start a frame load -/
def FRAME_LOAD_CTRL_GO : Fld := ⟨0x25008, 0x8, 1, 0, 1, 0, 0, .wo, .num 0, .action⟩
/-- 1 = an accepted frame becomes the start frame -/
def FRAME_LOAD_CTRL_PERSIST : Fld := ⟨0x25008, 0x8, 1, 0, 1, 1, 1, .rw, .num 0, .hub⟩
/-- 1 = a frame load is in progress -/
def FRAME_LOAD_STAT_BUSY : Fld := ⟨0x25010, 0x8, 1, 0, 1, 0, 0, .ro, .num 0, .hub⟩
/-- a frame load has finished -/
def FRAME_LOAD_STAT_DONE : Fld := ⟨0x25010, 0x8, 1, 0, 1, 1, 1, .w1c, .boot, .hub⟩
/-- a GO arrived while BUSY was 1 -/
def FRAME_LOAD_STAT_OVERRUN : Fld := ⟨0x25010, 0x8, 1, 0, 1, 2, 2, .w1c, .num 0, .hub⟩
/-- 1 = the built-in default frame is in force -/
def FRAME_LOAD_STAT_START_DEFAULT : Fld := ⟨0x25010, 0x8, 1, 0, 1, 3, 3, .ro, .boot, .hub⟩
/-- 1 = a stored start frame that changes STEWARD_GIB or PROFILE waits for the next reset that restarts the hub (R82) -/
def FRAME_LOAD_STAT_START_PENDING : Fld := ⟨0x25010, 0x8, 1, 0, 1, 4, 4, .ro, .num 0, .hub⟩
/-- result of the last frame load; 0 = accepted -/
def FRAME_LOAD_STAT_CODE : Fld := ⟨0x25010, 0x8, 1, 0, 1, 31, 16, .ro, .boot, .hub⟩
/-- section index for CODE, as R78 -/
def FRAME_LOAD_STAT_SECTION : Fld := ⟨0x25010, 0x8, 1, 0, 1, 39, 32, .ro, .boot, .hub⟩
/-- entry index for CODE, as R78 -/
def FRAME_LOAD_STAT_ENTRY : Fld := ⟨0x25010, 0x8, 1, 0, 1, 63, 40, .ro, .boot, .hub⟩
/-- SERIAL of the frame in force; 0 for the built-in default -/
def FRAME_SERIAL_SERIAL : Fld := ⟨0x25018, 0x8, 1, 0, 1, 63, 0, .ro, .boot, .hub⟩
/-! 03_configuration_images.md R85. -/
/-- 1 = the frame in force defines partition p -/
def PART_CFG_DEFINED : Fld := ⟨0x100000, 0x1000, 32, 0, 1, 0, 0, .ro, .boot, .hub⟩
/-- 1 = partition p hosts a gate -/
def PART_CFG_GATE : Fld := ⟨0x100000, 0x1000, 32, 0, 1, 1, 1, .ro, .boot, .hub⟩
/-- rectangle, global cluster coordinates -/
def PART_CFG_CX0 : Fld := ⟨0x100000, 0x1000, 32, 0, 1, 5, 2, .ro, .boot, .hub⟩
/-- rectangle -/
def PART_CFG_CX1 : Fld := ⟨0x100000, 0x1000, 32, 0, 1, 9, 6, .ro, .boot, .hub⟩
/-- rectangle -/
def PART_CFG_CY0 : Fld := ⟨0x100000, 0x1000, 32, 0, 1, 12, 10, .ro, .boot, .hub⟩
/-- rectangle -/
def PART_CFG_CY1 : Fld := ⟨0x100000, 0x1000, 32, 0, 1, 15, 13, .ro, .boot, .hub⟩
/-- gate number when GATE = 1; 0 otherwise -/
def PART_CFG_GATE_ID : Fld := ⟨0x100000, 0x1000, 32, 0, 1, 19, 16, .ro, .boot, .hub⟩
/-- device logical address of the image, bits [62:6], key ID 0 -/
def JOB_LOAD_ADDR_ADDR : Fld := ⟨0x100008, 0x1000, 32, 0, 1, 62, 6, .rw, .num 0, .part⟩
/-- context to bind at the next GO -/
def JOB_LOAD_CTX_CTX : Fld := ⟨0x100010, 0x1000, 32, 0, 1, 13, 0, .rw, .num 0, .part⟩
/-- 1 = start a job load -/
def JOB_LOAD_CTRL_GO : Fld := ⟨0x100018, 0x1000, 32, 0, 1, 0, 0, .wo, .num 0, .action⟩
/-- 1 = unload the partition's image -/
def JOB_LOAD_CTRL_UNLOAD : Fld := ⟨0x100018, 0x1000, 32, 0, 1, 1, 1, .wo, .num 0, .action⟩
/-- 1 = a load or unload is in progress -/
def JOB_LOAD_STAT_BUSY : Fld := ⟨0x100020, 0x1000, 32, 0, 1, 0, 0, .ro, .num 0, .part⟩
/-- a load or unload has finished -/
def JOB_LOAD_STAT_DONE : Fld := ⟨0x100020, 0x1000, 32, 0, 1, 1, 1, .w1c, .num 0, .part⟩
/-- a GO or UNLOAD arrived while BUSY was 1, or both in one write -/
def JOB_LOAD_STAT_OVERRUN : Fld := ⟨0x100020, 0x1000, 32, 0, 1, 2, 2, .w1c, .num 0, .part⟩
/-- 1 = a job image is loaded -/
def JOB_LOAD_STAT_LOADED : Fld := ⟨0x100020, 0x1000, 32, 0, 1, 3, 3, .ro, .num 0, .part⟩
/-- result of the last load or unload; 0 = success -/
def JOB_LOAD_STAT_CODE : Fld := ⟨0x100020, 0x1000, 32, 0, 1, 31, 16, .ro, .num 0, .part⟩
/-- section index for CODE, as R78 -/
def JOB_LOAD_STAT_SECTION : Fld := ⟨0x100020, 0x1000, 32, 0, 1, 39, 32, .ro, .num 0, .part⟩
/-- entry index for CODE, as R78 -/
def JOB_LOAD_STAT_ENTRY : Fld := ⟨0x100020, 0x1000, 32, 0, 1, 63, 40, .ro, .num 0, .part⟩
/-- SERIAL of the loaded job image; 0 when LOADED = 0 -/
def JOB_SERIAL_SERIAL : Fld := ⟨0x100028, 0x1000, 32, 0, 1, 63, 0, .ro, .num 0, .part⟩
/-! 09_parameter_update.md R230. -/
/-- elements per HCLK cycle -/
def GLINT_CAP_ELEMS_PER_CLK : Fld := ⟨0xa0c000, 0x10000, 12, 0, 1, 7, 0, .ro, .num 96, .always⟩
/-- passes run at once -/
def GLINT_CAP_MAX_PASSES : Fld := ⟨0xa0c000, 0x10000, 12, 0, 1, 10, 8, .ro, .num 4, .always⟩
/-- controller number 0–11 -/
def GLINT_CAP_CTRL : Fld := ⟨0xa0c000, 0x10000, 12, 0, 1, 14, 11, .ro, .index, .always⟩
/-- 0 = HBM3E; 1 = LPDDR5X -/
def GLINT_CAP_TIER : Fld := ⟨0xa0c000, 0x10000, 12, 0, 1, 15, 15, .ro, .lpddr, .always⟩
/-- 1 = counters count -/
def GLINT_CTRL_CNT_EN : Fld := ⟨0xa0c008, 0x10000, 12, 0, 1, 0, 0, .rw, .num 1, .hub⟩
/-- 1 = clear GLINT_ELEMS and GLINT_BYTES -/
def GLINT_CTRL_CNT_CLEAR : Fld := ⟨0xa0c008, 0x10000, 12, 0, 1, 1, 1, .wo, .num 0, .action⟩
/-- minimum bandwidth share in eighths, 1–8; a write of 0 or of 9–15 leaves SHARE unchanged -/
def GLINT_CTRL_SHARE : Fld := ⟨0xa0c008, 0x10000, 12, 0, 1, 7, 4, .rw, .num 4, .hub⟩
/-- 1 = at least one pass is running -/
def GLINT_STAT_BUSY : Fld := ⟨0xa0c010, 0x10000, 12, 0, 1, 0, 0, .ro, .num 0, .hub⟩
/-- passes running, 0–4 -/
def GLINT_STAT_PASSES : Fld := ⟨0xa0c010, 0x10000, 12, 0, 1, 3, 1, .ro, .num 0, .hub⟩
/-- passes waiting; holds at 255 -/
def GLINT_STAT_WAITING : Fld := ⟨0xa0c010, 0x10000, 12, 0, 1, 15, 8, .ro, .num 0, .hub⟩
/-- a pass of this unit set SAT -/
def GLINT_STAT_SAT : Fld := ⟨0xa0c010, 0x10000, 12, 0, 1, 16, 16, .w1c, .num 0, .hub⟩
/-- a pass of this unit set NAN -/
def GLINT_STAT_NAN : Fld := ⟨0xa0c010, 0x10000, 12, 0, 1, 17, 17, .w1c, .num 0, .hub⟩
/-- a pass of this unit met a fault under R227 or R228 -/
def GLINT_STAT_ERR : Fld := ⟨0xa0c010, 0x10000, 12, 0, 1, 18, 18, .w1c, .num 0, .hub⟩
/-- code of the latest fault; 0 = none -/
def GLINT_STAT_LAST_ERR : Fld := ⟨0xa0c010, 0x10000, 12, 0, 1, 47, 32, .ro, .num 0, .hub⟩
/-- elements updated -/
def GLINT_ELEMS_COUNT : Fld := ⟨0xa0c018, 0x10000, 12, 0, 1, 63, 0, .ro, .num 0, .hub⟩
/-- bytes read and written by passes -/
def GLINT_BYTES_COUNT : Fld := ⟨0xa0c020, 0x10000, 12, 0, 1, 63, 0, .ro, .num 0, .hub⟩
/-- HCLK cycles of the last completed pass on this unit; holds at all ones -/
def GLINT_LAST_CYCLES : Fld := ⟨0xa0c028, 0x10000, 12, 0, 1, 31, 0, .ro, .num 0, .hub⟩
/-- context of that pass -/
def GLINT_LAST_CTX : Fld := ⟨0xa0c028, 0x10000, 12, 0, 1, 45, 32, .ro, .num 0, .hub⟩
/-! 10_links_and_collectives.md R261. -/
/-- 1 = port counters count -/
def PORT_CTRL_CNT_EN : Fld := ⟨0x900000, 0x10000, 16, 0, 1, 0, 0, .rw, .num 1, .hub⟩
/-- 1 = clear the port counters -/
def PORT_CTRL_CNT_CLEAR : Fld := ⟨0x900000, 0x10000, 16, 0, 1, 1, 1, .wo, .num 0, .action⟩
/-- 1 = retrain the port; a Ramom session keeps its keys as R242 states -/
def PORT_CTRL_RETRAIN : Fld := ⟨0x900000, 0x10000, 16, 0, 1, 2, 2, .wo, .num 0, .action⟩
/-- 1 = near-end loopback; the port carries no traffic -/
def PORT_CTRL_LOOPBACK : Fld := ⟨0x900000, 0x10000, 16, 0, 1, 3, 3, .rw, .num 0, .hub⟩
/-- 0 off; 1 Ramom link; 2 Ethernet -/
def PORT_STAT_MODE : Fld := ⟨0x900008, 0x10000, 16, 0, 1, 1, 0, .ro, .boot, .hub⟩
/-- 0 OFF; 1 TRAINING; 2 UP; 3 SETUP; 4 OPEN; 5 REFUSED; 6 FAILED; 7 RETRAINING -/
def PORT_STAT_STATE : Fld := ⟨0x900008, 0x10000, 16, 0, 1, 4, 2, .ro, .boot, .hub⟩
/-- 1 = no signal on some receive lane -/
def PORT_STAT_LOS : Fld := ⟨0x900008, 0x10000, 16, 0, 1, 5, 5, .ro, .boot, .hub⟩
/-- 1 = lane order reversed -/
def PORT_STAT_LANE_REV : Fld := ⟨0x900008, 0x10000, 16, 0, 1, 6, 6, .ro, .num 0, .hub⟩
/-- 1 = PEER names this port's session -/
def PORT_STAT_PEER_VALID : Fld := ⟨0x900008, 0x10000, 16, 0, 1, 7, 7, .ro, .num 0, .hub⟩
/-- peer entry -/
def PORT_STAT_PEER : Fld := ⟨0x900008, 0x10000, 16, 0, 1, 15, 8, .ro, .num 0, .hub⟩
/-- latest group 0x04 code on this port; 0 = none -/
def PORT_STAT_LAST_ERR : Fld := ⟨0x900008, 0x10000, 16, 0, 1, 31, 16, .ro, .num 0, .hub⟩
/-- current key epoch -/
def PORT_STAT_EPOCH : Fld := ⟨0x900008, 0x10000, 16, 0, 1, 63, 32, .ro, .num 0, .hub⟩
/-- KIND 0 and 1 groups sent, resends included -/
def PORT_TX_GROUPS : Fld := ⟨0x900010, 0x10000, 16, 0, 1, 63, 0, .ro, .num 0, .hub⟩
/-- KIND 0 and 1 groups accepted -/
def PORT_RX_GROUPS : Fld := ⟨0x900018, 0x10000, 16, 0, 1, 63, 0, .ro, .num 0, .hub⟩
/-- groups resent -/
def PORT_RETRY : Fld := ⟨0x900020, 0x10000, 16, 0, 1, 31, 0, .ro, .num 0, .hub⟩
/-- GCM tag failures -/
def PORT_TAG_FAIL : Fld := ⟨0x900028, 0x10000, 16, 0, 1, 31, 0, .ro, .num 0, .hub⟩
/-- codewords corrected -/
def PORT_FEC_CORR : Fld := ⟨0x900030, 0x10000, 16, 0, 1, 63, 0, .ro, .num 0, .hub⟩
/-- codewords not correctable -/
def PORT_FEC_UNCORR : Fld := ⟨0x900038, 0x10000, 16, 0, 1, 31, 0, .ro, .num 0, .hub⟩
/-- Ethernet frames dropped under R234 and R235 -/
def PORT_RX_DROP : Fld := ⟨0x900040, 0x10000, 16, 0, 1, 31, 0, .ro, .num 0, .hub⟩
/-- ring of 2^SIZE_LOG2 descriptors, 4–16; other values hold the ring disabled -/
def ETH_TX_RING_SIZE_LOG2 : Fld := ⟨0x900100, 0x10000, 16, 0, 1, 4, 0, .rw, .num 0, .func⟩
/-- ring of 2^SIZE_LOG2 descriptors, 4–16; other values hold the ring disabled -/
def ETH_RX_RING_SIZE_LOG2 : Fld := ⟨0x900110, 0x10000, 16, 0, 1, 4, 0, .rw, .num 0, .func⟩
/-- 1 = ring in use -/
def ETH_TX_RING_EN : Fld := ⟨0x900100, 0x10000, 16, 0, 1, 5, 5, .rw, .num 0, .func⟩
/-- 1 = ring in use -/
def ETH_RX_RING_EN : Fld := ⟨0x900110, 0x10000, 16, 0, 1, 5, 5, .rw, .num 0, .func⟩
/-- device logical address bits [62:6], key ID 0 -/
def ETH_TX_RING_ADDR : Fld := ⟨0x900100, 0x10000, 16, 0, 1, 62, 6, .rw, .num 0, .func⟩
/-- device logical address bits [62:6], key ID 0 -/
def ETH_RX_RING_ADDR : Fld := ⟨0x900110, 0x10000, 16, 0, 1, 62, 6, .rw, .num 0, .func⟩
/-- next descriptor the module takes -/
def ETH_TX_IDX_HEAD : Fld := ⟨0x900108, 0x10000, 16, 0, 1, 15, 0, .ro, .num 0, .func⟩
/-- next descriptor the module takes -/
def ETH_RX_IDX_HEAD : Fld := ⟨0x900118, 0x10000, 16, 0, 1, 15, 0, .ro, .num 0, .func⟩
/-- next descriptor software writes -/
def ETH_TX_IDX_TAIL : Fld := ⟨0x900108, 0x10000, 16, 0, 1, 31, 16, .rw, .num 0, .func⟩
/-- next descriptor software writes -/
def ETH_RX_IDX_TAIL : Fld := ⟨0x900118, 0x10000, 16, 0, 1, 31, 16, .rw, .num 0, .func⟩
/-! 10_links_and_collectives.md R262. -/
/-- OPEN entries, 0–256 -/
def PEER_STAT_OPEN : Fld := ⟨0x26000, 0x8, 1, 0, 1, 8, 0, .ro, .num 0, .hub⟩
/-- DRAINING entries -/
def PEER_STAT_DRAINING : Fld := ⟨0x26000, 0x8, 1, 0, 1, 17, 9, .ro, .num 0, .hub⟩
/-- admissions refused; holds at all ones -/
def PEER_REFUSED_COUNT : Fld := ⟨0x26008, 0x8, 1, 0, 1, 31, 0, .ro, .num 0, .hub⟩
/-- COLL_TIMEOUT in ms, 1–65,535; a write of 0 leaves it unchanged -/
def COLL_CTRL_TIMEOUT_MS : Fld := ⟨0x26010, 0x8, 1, 0, 1, 15, 0, .rw, .num 2000, .hub⟩
/-- collectives running, 0–64 -/
def COLL_STAT_ACTIVE : Fld := ⟨0x26018, 0x8, 1, 0, 1, 6, 0, .ro, .num 0, .hub⟩
/-- requests waiting under R257; holds at 255 -/
def COLL_STAT_WAITING : Fld := ⟨0x26018, 0x8, 1, 0, 1, 15, 8, .ro, .num 0, .hub⟩
/-- latest collective error code -/
def COLL_STAT_LAST_ERR : Fld := ⟨0x26018, 0x8, 1, 0, 1, 31, 16, .ro, .num 0, .hub⟩
/-- 0 FREE; 1 SETUP; 2 OPEN; 3 DRAINING -/
def PEER_ENTRY_STATE : Fld := ⟨0x28000, 0x40, 256, 0, 1, 1, 0, .ro, .num 0, .hub⟩
/-- bit p = port p carries the session -/
def PEER_ENTRY_PORTS : Fld := ⟨0x28000, 0x40, 256, 0, 1, 17, 2, .ro, .num 0, .hub⟩
/-- current key epoch of the session -/
def PEER_ENTRY_EPOCH : Fld := ⟨0x28000, 0x40, 256, 0, 1, 63, 32, .ro, .num 0, .hub⟩
/-! 11_memory_tiers_and_weights.md R282. -/
/-- 1 = the hasher runs laps -/
def BEACON_CTRL_HASH_EN : Fld := ⟨0x27000, 0x8, 1, 0, 1, 0, 0, .rw, .num 1, .hub⟩
/-- 1 = refetch a poisoned shard as R280 states -/
def BEACON_CTRL_AUTO_REFETCH : Fld := ⟨0x27000, 0x8, 1, 0, 1, 1, 1, .rw, .num 1, .hub⟩
/-- 1 = Beacon counters count -/
def BEACON_CTRL_CNT_EN : Fld := ⟨0x27000, 0x8, 1, 0, 1, 2, 2, .rw, .num 1, .hub⟩
/-- 1 = clear the Beacon counters -/
def BEACON_CTRL_CNT_CLEAR : Fld := ⟨0x27000, 0x8, 1, 0, 1, 3, 3, .wo, .num 0, .action⟩
/-- seconds between lap starts, 60–65,535; a write below 60 leaves it unchanged -/
def BEACON_CTRL_HASH_INTERVAL : Fld := ⟨0x27000, 0x8, 1, 0, 1, 31, 16, .rw, .num 900, .hub⟩
/-- hasher read rate in GB/s, 1–1,000; a write of 0 or above 1,000 leaves it unchanged -/
def BEACON_CTRL_HASH_RATE : Fld := ⟨0x27000, 0x8, 1, 0, 1, 41, 32, .rw, .num 8, .hub⟩
/-- BEACON_LOAD commands running, 0–48 -/
def BEACON_STAT_LOADS : Fld := ⟨0x27008, 0x8, 1, 0, 1, 5, 0, .ro, .num 0, .hub⟩
/-- 1 = a lap is in progress -/
def BEACON_STAT_HASHING : Fld := ⟨0x27008, 0x8, 1, 0, 1, 6, 6, .ro, .num 0, .hub⟩
/-- latest code of R281 raised by Beacon or the hasher; 0 = none -/
def BEACON_STAT_LAST_ERR : Fld := ⟨0x27008, 0x8, 1, 0, 1, 31, 16, .ro, .num 0, .hub⟩
/-- seconds taken by the last complete lap; holds at all ones -/
def BEACON_STAT_LAP_S : Fld := ⟨0x27008, 0x8, 1, 0, 1, 63, 32, .ro, .num 0, .hub⟩
/-- shard index of the latest failed load or poisoned shard; 0xFFFF_FFFF = the index -/
def BEACON_LAST_SHARD : Fld := ⟨0x27010, 0x8, 1, 0, 1, 31, 0, .ro, .num 0, .hub⟩
/-- context of that failure -/
def BEACON_LAST_CTX : Fld := ⟨0x27010, 0x8, 1, 0, 1, 45, 32, .ro, .num 0, .hub⟩
/-- 1 = this module answers SHARD_REQ from its pack table; 0 = it answers every request with 0x0207 -/
def BEACON_PACK_TABLE_EN : Fld := ⟨0x27018, 0x8, 1, 0, 1, 0, 0, .rw, .num 0, .hub⟩
/-- device logical address bits [62:5] of the table, key ID 0, in the Steward region -/
def BEACON_PACK_TABLE_ADDR : Fld := ⟨0x27018, 0x8, 1, 0, 1, 62, 5, .rw, .num 0, .hub⟩
/-- table entries, 0–4,096; a write above 4,096 leaves it unchanged -/
def BEACON_PACK_COUNT_ENTRIES : Fld := ⟨0x27020, 0x8, 1, 0, 1, 12, 0, .rw, .num 0, .hub⟩
/-- shards completed by loads and refetches -/
def BEACON_SHARDS_IN : Fld := ⟨0x27028, 0x8, 1, 0, 1, 63, 0, .ro, .num 0, .hub⟩
/-- SHARD_DATA messages sent with status 0 -/
def BEACON_SHARDS_SERVED : Fld := ⟨0x27030, 0x8, 1, 0, 1, 63, 0, .ro, .num 0, .hub⟩
/-- digest mismatches on arrival and at re-hash -/
def BEACON_DIGEST_FAIL : Fld := ⟨0x27038, 0x8, 1, 0, 1, 31, 0, .ro, .num 0, .hub⟩
/-- shard requests that timed out under R277 -/
def BEACON_TIMEOUTS : Fld := ⟨0x27040, 0x8, 1, 0, 1, 31, 0, .ro, .num 0, .hub⟩
/-- shards poisoned under R280 -/
def BEACON_POISONED : Fld := ⟨0x27048, 0x8, 1, 0, 1, 31, 0, .ro, .num 0, .hub⟩
/-! 12_prism_memory_protection.md R307. -/
/-- key IDs -/
def PRISM_CAP_KEY_IDS : Fld := ⟨0x800000, 0x8, 1, 0, 1, 11, 0, .ro, .num 2048, .always⟩
/-- rights entries -/
def PRISM_CAP_MASTERS : Fld := ⟨0x800000, 0x8, 1, 0, 1, 17, 12, .ro, .num 36, .always⟩
/-- counter cache per instance in KiB -/
def PRISM_CAP_CACHE_KIB : Fld := ⟨0x800000, 0x8, 1, 0, 1, 29, 18, .ro, .num 2048, .always⟩
/-- Prism instances -/
def PRISM_CAP_INSTANCES : Fld := ⟨0x800000, 0x8, 1, 0, 1, 33, 30, .ro, .num 12, .always⟩
/-- wear-list entries per controller -/
def PRISM_CAP_WEAR_ENTRIES : Fld := ⟨0x800000, 0x8, 1, 0, 1, 38, 34, .ro, .num 16, .always⟩
/-- 0 = S; 1 = K, from the start frame -/
def PRISM_CFG_PROFILE : Fld := ⟨0x800008, 0x8, 1, 0, 1, 0, 0, .ro, .boot, .hub⟩
/-- 1 = Prism counters count -/
def PRISM_CFG_CNT_EN : Fld := ⟨0x800008, 0x8, 1, 0, 1, 1, 1, .rw, .num 1, .hub⟩
/-- 1 = clear all Prism counters -/
def PRISM_CFG_CNT_CLEAR : Fld := ⟨0x800008, 0x8, 1, 0, 1, 2, 2, .wo, .num 0, .action⟩
/-- an access was refused with 0x0601 -/
def PRISM_STAT_BIT63 : Fld := ⟨0x800010, 0x8, 1, 0, 1, 0, 0, .w1c, .num 0, .hub⟩
/-- an access was refused with 0x0602, 0x0603, 0x0604 or 0x0607 -/
def PRISM_STAT_RIGHTS : Fld := ⟨0x800010, 0x8, 1, 0, 1, 1, 1, .w1c, .num 0, .hub⟩
/-- a tag mismatch occurred -/
def PRISM_STAT_TAG : Fld := ⟨0x800010, 0x8, 1, 0, 1, 2, 2, .w1c, .num 0, .hub⟩
/-- a node or leaf failed its digest (R291) -/
def PRISM_STAT_TREE : Fld := ⟨0x800010, 0x8, 1, 0, 1, 3, 3, .w1c, .num 0, .hub⟩
/-- a major counter reached 2⁶³ -/
def PRISM_STAT_MAJOR_WARN : Fld := ⟨0x800010, 0x8, 1, 0, 1, 4, 4, .w1c, .num 0, .hub⟩
/-- a write was refused with 0x0204 -/
def PRISM_STAT_MAJOR_EXH : Fld := ⟨0x800010, 0x8, 1, 0, 1, 5, 5, .w1c, .num 0, .hub⟩
/-- latest code of R306 raised; 0 = none -/
def PRISM_STAT_LAST_ERR : Fld := ⟨0x800010, 0x8, 1, 0, 1, 31, 16, .ro, .num 0, .hub⟩
/-- master of that access -/
def PRISM_STAT_LAST_MASTER : Fld := ⟨0x800010, 0x8, 1, 0, 1, 37, 32, .ro, .num 0, .hub⟩
/-- controller of that access; 15 when no controller was reached -/
def PRISM_STAT_LAST_CTRL : Fld := ⟨0x800010, 0x8, 1, 0, 1, 41, 38, .ro, .num 0, .hub⟩
/-- device logical address of that access -/
def PRISM_LAST_ADDR_ADDR : Fld := ⟨0x800018, 0x8, 1, 0, 1, 63, 0, .ro, .num 0, .hub⟩
/-- key ID for OP 2–4; ignored by OP 1 (R301) -/
def KEY_CMD_KEY : Fld := ⟨0x800100, 0x8, 1, 0, 1, 11, 0, .rw, .num 0, .hub⟩
/-- owner index for OP 1; ignored by OP 2–4 -/
def KEY_CMD_OWNER : Fld := ⟨0x800100, 0x8, 1, 0, 1, 27, 12, .rw, .num 0, .hub⟩
/-- nonzero starts the command of R301; 5–7 are refused with 0x0606 -/
def KEY_CMD_OP : Fld := ⟨0x800100, 0x8, 1, 0, 1, 30, 28, .wo, .num 0, .action⟩
/-- 1 = a command is running -/
def KEY_STAT_BUSY : Fld := ⟨0x800108, 0x8, 1, 0, 1, 0, 0, .ro, .num 0, .hub⟩
/-- a command has ended -/
def KEY_STAT_DONE : Fld := ⟨0x800108, 0x8, 1, 0, 1, 1, 1, .w1c, .num 0, .hub⟩
/-- an OP was written while BUSY was 1; that write was ignored -/
def KEY_STAT_OVERRUN : Fld := ⟨0x800108, 0x8, 1, 0, 1, 2, 2, .w1c, .num 0, .hub⟩
/-- result; 0 = success -/
def KEY_STAT_CODE : Fld := ⟨0x800108, 0x8, 1, 0, 1, 31, 16, .ro, .num 0, .hub⟩
/-- key ID allocated by the last ALLOC -/
def KEY_STAT_RESULT_KEY : Fld := ⟨0x800108, 0x8, 1, 0, 1, 42, 32, .ro, .num 0, .hub⟩
/-- STATE of the entry last read -/
def KEY_INFO_STATE : Fld := ⟨0x800110, 0x8, 1, 0, 1, 1, 0, .ro, .num 0, .hub⟩
/-- OWNER -/
def KEY_INFO_OWNER : Fld := ⟨0x800110, 0x8, 1, 0, 1, 17, 2, .ro, .num 0, .hub⟩
/-- USERS -/
def KEY_INFO_USERS : Fld := ⟨0x800110, 0x8, 1, 0, 1, 23, 18, .ro, .num 0, .hub⟩
/-- GEN -/
def KEY_INFO_GEN : Fld := ⟨0x800110, 0x8, 1, 0, 1, 63, 32, .ro, .num 0, .hub⟩
/-- master number 0–35; 36–63 make RIGHTS_READ, RIGHTS_WRITE and RIGHTS_FLAGS read zero -/
def RIGHTS_SEL_MASTER : Fld := ⟨0x800200, 0x8, 1, 0, 1, 5, 0, .rw, .num 0, .hub⟩
/-- 64-bit word of the maps, 0–31 -/
def RIGHTS_SEL_WORD : Fld := ⟨0x800200, 0x8, 1, 0, 1, 10, 6, .rw, .num 0, .hub⟩
/-- bit i = read right for key ID 64 × WORD + i -/
def RIGHTS_READ_MAP : Fld := ⟨0x800208, 0x8, 1, 0, 1, 63, 0, .ro, .num 0, .hub⟩
/-- bit i = write right for key ID 64 × WORD + i -/
def RIGHTS_WRITE_MAP : Fld := ⟨0x800210, 0x8, 1, 0, 1, 63, 0, .ro, .num 0, .hub⟩
/-- flag of R303 -/
def RIGHTS_FLAGS_STEWARD_ONLY : Fld := ⟨0x800218, 0x8, 1, 0, 1, 0, 0, .ro, .num 0, .hub⟩
/-- flag of R303 -/
def RIGHTS_FLAGS_RAW_READ : Fld := ⟨0x800218, 0x8, 1, 0, 1, 1, 1, .ro, .num 0, .hub⟩
/-! 12_prism_memory_protection.md R308. -/
/-- tag mismatches under R286 -/
def PRISM_n_TAG_FAIL_COUNT : Fld := ⟨0x801000, 0x100, 12, 0, 1, 31, 0, .ro, .num 0, .hub⟩
/-- partial-line writes under R293 -/
def PRISM_n_PARTIAL_COUNT : Fld := ⟨0x801008, 0x100, 12, 0, 1, 63, 0, .ro, .num 0, .hub⟩
/-- sector refreshes under R294 -/
def PRISM_n_REFRESH_COUNT : Fld := ⟨0x801010, 0x100, 12, 0, 1, 31, 0, .ro, .num 0, .hub⟩
/-- counter-cache lookups that hit -/
def PRISM_n_CACHE_HIT_COUNT : Fld := ⟨0x801018, 0x100, 12, 0, 1, 63, 0, .ro, .num 0, .hub⟩
/-- counter-cache lookups that missed at any level -/
def PRISM_n_CACHE_MISS_COUNT : Fld := ⟨0x801020, 0x100, 12, 0, 1, 63, 0, .ro, .num 0, .hub⟩
/-- wear-list entries in use, 0–16 -/
def PRISM_n_WEAR_COUNT_COUNT : Fld := ⟨0x801028, 0x100, 12, 0, 1, 4, 0, .ro, .num 0, .hub⟩
/-- 1 = a sector raised a wear event with the list full -/
def PRISM_n_WEAR_COUNT_WEAR_OVF : Fld := ⟨0x801028, 0x100, 12, 0, 1, 5, 5, .ro, .num 0, .hub⟩
/-- logical block number of the sector -/
def PRISM_n_WEAR_j_LBN : Fld := ⟨0x801040, 0x100, 12, 8, 16, 39, 0, .ro, .num 0, .hub⟩
/-- key ID of the sector's last write -/
def PRISM_n_WEAR_j_KEY : Fld := ⟨0x801040, 0x100, 12, 8, 16, 50, 40, .ro, .num 0, .hub⟩
/-- 0 = major counter at or past 2⁶³; 1 = exhausted -/
def PRISM_n_WEAR_j_EXH : Fld := ⟨0x801040, 0x100, 12, 8, 16, 51, 51, .ro, .num 0, .hub⟩
/-! 13_tenants_and_joint_training.md R333. -/
/-- owner index for OP 3 and 4 -/
def OWNER_CMD_INDEX : Fld := ⟨0x802000, 0x8, 1, 0, 1, 10, 0, .rw, .num 0, .hub⟩
/-- nonzero starts the command of R310; 5–7 refused with 0x060D, REASON 5 -/
def OWNER_CMD_OP : Fld := ⟨0x802000, 0x8, 1, 0, 1, 13, 11, .wo, .num 0, .action⟩
/-- 1 = a command is running -/
def OWNER_STAT_BUSY : Fld := ⟨0x802008, 0x8, 1, 0, 1, 0, 0, .ro, .num 0, .hub⟩
/-- a command has ended -/
def OWNER_STAT_DONE : Fld := ⟨0x802008, 0x8, 1, 0, 1, 1, 1, .w1c, .num 0, .hub⟩
/-- an OP was written while BUSY was 1; that write was ignored -/
def OWNER_STAT_OVERRUN : Fld := ⟨0x802008, 0x8, 1, 0, 1, 2, 2, .w1c, .num 0, .hub⟩
/-- refusal reason of R310; 0 = none -/
def OWNER_STAT_REASON : Fld := ⟨0x802008, 0x8, 1, 0, 1, 11, 8, .ro, .num 0, .hub⟩
/-- result; 0 = success -/
def OWNER_STAT_CODE : Fld := ⟨0x802008, 0x8, 1, 0, 1, 31, 16, .ro, .num 0, .hub⟩
/-- index returned by OP 1 or 2 -/
def OWNER_STAT_RESULT : Fld := ⟨0x802008, 0x8, 1, 0, 1, 42, 32, .ro, .num 0, .hub⟩
/-- KIND of R309 of the entry last read: 0 FREE; 1 SINGLE; 2 JOINT; 3 SYSTEM -/
def OWNER_INFO_KIND : Fld := ⟨0x802010, 0x8, 1, 0, 1, 1, 0, .ro, .num 0, .hub⟩
/-- INGRESS of that entry -/
def OWNER_INFO_INGRESS : Fld := ⟨0x802010, 0x8, 1, 0, 1, 2, 2, .ro, .num 0, .hub⟩
/-- key IDs not FREE with this OWNER, 0–2,047 -/
def OWNER_INFO_KEYS : Fld := ⟨0x802010, 0x8, 1, 0, 1, 14, 3, .ro, .num 0, .hub⟩
/-- bound contexts with this owner, 0–32 -/
def OWNER_INFO_CONTEXTS : Fld := ⟨0x802010, 0x8, 1, 0, 1, 20, 15, .ro, .num 0, .hub⟩
/-- key (words 0–3) or hash (words 0–7) for OP 1 and 2; loaded by OP 4 -/
def OWNER_DATA_VALUE : Fld := ⟨0x802040, 0x8, 8, 0, 1, 63, 0, .rw, .num 0, .hub⟩
/-- 0 IDLE; 1 ARMED; 2 COLLECTING; 3 COMBINING; 4 RELEASING; 5–7 not used -/
def GATE_g_STAT_STATE : Fld := ⟨0x803000, 0x20, 16, 0, 1, 2, 0, .ro, .num 0, .hub⟩
/-- 1 = the frame places gate g -/
def GATE_g_STAT_PLACED : Fld := ⟨0x803000, 0x20, 16, 0, 1, 3, 3, .ro, .boot, .hub⟩
/-- owner entry at fault in the last abandonment, 0–15; meaningful only when FAIL_VALID = 1 -/
def GATE_g_STAT_FAIL_ENTRY : Fld := ⟨0x803000, 0x20, 16, 0, 1, 7, 4, .ro, .num 0, .hub⟩
/-- headers ignored under R326; holds at 255 -/
def GATE_g_STAT_IGNORED : Fld := ⟨0x803000, 0x20, 16, 0, 1, 15, 8, .ro, .num 0, .hub⟩
/-- code of the last abandonment; 0 = none -/
def GATE_g_STAT_LAST_ERR : Fld := ⟨0x803000, 0x20, 16, 0, 1, 31, 16, .ro, .num 0, .hub⟩
/-- bit i = owner entry i counted for the step being collected -/
def GATE_g_STAT_HAVE : Fld := ⟨0x803000, 0x20, 16, 0, 1, 47, 32, .ro, .num 0, .hub⟩
/-- 1 = FAIL_ENTRY names the owner entry at fault in the last abandonment; 0 = no single owner was at fault, or none was abandoned -/
def GATE_g_STAT_FAIL_VALID : Fld := ⟨0x803000, 0x20, 16, 0, 1, 48, 48, .ro, .num 0, .hub⟩
/-- steps abandoned; holds at all ones -/
def GATE_g_STAT_ABANDONED : Fld := ⟨0x803000, 0x20, 16, 0, 1, 63, 49, .ro, .num 0, .hub⟩
/-- last step released or abandoned; zero while IDLE -/
def GATE_g_STEP_L : Fld := ⟨0x803008, 0x20, 16, 0, 1, 63, 0, .ro, .num 0, .hub⟩
/-- gate timeout in ms, 1–65,535; a write of 0 leaves it unchanged -/
def GATE_g_CTRL_TIMEOUT_MS : Fld := ⟨0x803010, 0x20, 16, 0, 1, 15, 0, .rw, .num 5000, .hub⟩
/-- Eclipses completed -/
def ECLIPSE_COUNT_COUNT : Fld := ⟨0x803400, 0x8, 1, 0, 1, 63, 0, .ro, .num 0, .hub⟩
/-- FCLK cycles of the last Eclipse under R314 -/
def ECLIPSE_LAST_CYCLES : Fld := ⟨0x803408, 0x8, 1, 0, 1, 15, 0, .ro, .num 0, .hub⟩
/-- its partition -/
def ECLIPSE_LAST_PART : Fld := ⟨0x803408, 0x8, 1, 0, 1, 20, 16, .ro, .num 0, .hub⟩
/-! 14_host_attach.md R350. -/
/-- request bytes, 1–4,096 -/
def MBOX_CTRL_REQ_LEN : Fld := ⟨0x10000, 0x8, 1, 0, 1, 12, 0, .rw, .num 0, .func⟩
/-- 1 = send the request -/
def MBOX_CTRL_GO : Fld := ⟨0x10000, 0x8, 1, 0, 1, 13, 13, .wo, .num 0, .action⟩
/-- 1 = request being served -/
def MBOX_STAT_BUSY : Fld := ⟨0x10008, 0x8, 1, 0, 1, 0, 0, .ro, .num 0, .func⟩
/-- a response is ready -/
def MBOX_STAT_DONE : Fld := ⟨0x10008, 0x8, 1, 0, 1, 1, 1, .w1c, .num 0, .func⟩
/-- a GO arrived while BUSY was 1 -/
def MBOX_STAT_OVERRUN : Fld := ⟨0x10008, 0x8, 1, 0, 1, 2, 2, .w1c, .num 0, .func⟩
/-- 1 = last request refused for length or type -/
def MBOX_STAT_ERR : Fld := ⟨0x10008, 0x8, 1, 0, 1, 3, 3, .ro, .num 0, .func⟩
/-- response bytes, 0–4,096 -/
def MBOX_STAT_RSP_LEN : Fld := ⟨0x10008, 0x8, 1, 0, 1, 28, 16, .ro, .num 0, .func⟩
/-- 1 = Steward reset (R346) -/
def STEWARD_CTRL_RESET : Fld := ⟨0x23000, 0x8, 1, 0, 1, 0, 0, .wo, .num 0, .action⟩
/-- 0 OFF; 1 LOADING; 2 RUNNING; 3 RESETTING; 4 LOADER_BAD; 5–7 not used -/
def STEWARD_STAT_STATE : Fld := ⟨0x23008, 0x8, 1, 0, 1, 2, 0, .ro, .boot, .hub⟩
/-- Steward resets since the hub started; holds at 255 -/
def STEWARD_STAT_RESETS : Fld := ⟨0x23008, 0x8, 1, 0, 1, 15, 8, .ro, .num 0, .hub⟩
/-- latest code of R340; 0 = none -/
def STEWARD_STAT_LAST_ERR : Fld := ⟨0x23008, 0x8, 1, 0, 1, 31, 16, .ro, .num 0, .hub⟩
/-- bit m = UCIe module m active -/
def UCIE_STAT_MODULES : Fld := ⟨0x23010, 0x8, 1, 0, 1, 3, 0, .ro, .boot, .hub⟩
/-- 1 = link active -/
def UCIE_STAT_UP : Fld := ⟨0x23010, 0x8, 1, 0, 1, 4, 4, .ro, .boot, .hub⟩
/-- retrains since the hub started; holds at 255 -/
def UCIE_STAT_RETRAINS : Fld := ⟨0x23010, 0x8, 1, 0, 1, 15, 8, .ro, .num 0, .hub⟩
/-- lanes repaired; holds at 255 -/
def UCIE_STAT_REPAIRS : Fld := ⟨0x23010, 0x8, 1, 0, 1, 23, 16, .ro, .num 0, .hub⟩
/-! 15_shared_objects_and_submission.md R381. -/
/-- the bytes "E4CA" -/
def CAP_ID_MAGIC : Fld := ⟨0x0, 0x8, 1, 0, 1, 31, 0, .ro, .num 0x41433445, .always⟩
/-- hardware stepping; 0xB0 for B0 (R1) -/
def CAP_ID_STEPPING : Fld := ⟨0x0, 0x8, 1, 0, 1, 39, 32, .ro, .num 0xB0, .always⟩
/-- layout of this table -/
def CAP_ID_TABLE_VERSION : Fld := ⟨0x0, 0x8, 1, 0, 1, 47, 40, .ro, .num 1, .always⟩
/-- profile K (R298) -/
def CAP_FEATURES_PROFILE_K : Fld := ⟨0x8, 0x8, 1, 0, 1, 0, 0, .ro, .fuse, .always⟩
/-- Penumbra gates -/
def CAP_FEATURES_GATES : Fld := ⟨0x8, 0x8, 1, 0, 1, 1, 1, .ro, .fuse, .always⟩
/-- Ramom link mode -/
def CAP_FEATURES_RAMOM : Fld := ⟨0x8, 0x8, 1, 0, 1, 2, 2, .ro, .fuse, .always⟩
/-- Ethernet mode -/
def CAP_FEATURES_ETHERNET : Fld := ⟨0x8, 0x8, 1, 0, 1, 3, 3, .ro, .fuse, .always⟩
/-- Glint passes -/
def CAP_FEATURES_GLINT : Fld := ⟨0x8, 0x8, 1, 0, 1, 4, 4, .ro, .fuse, .always⟩
/-- BEACON_LOAD -/
def CAP_FEATURES_BEACON : Fld := ⟨0x8, 0x8, 1, 0, 1, 5, 5, .ro, .fuse, .always⟩
/-- Reflection -/
def CAP_FEATURES_REFLECTION : Fld := ⟨0x8, 0x8, 1, 0, 1, 6, 6, .ro, .fuse, .always⟩
/-- 4-bit cube classes -/
def CAP_FEATURES_FOUR_BIT : Fld := ⟨0x8, 0x8, 1, 0, 1, 7, 7, .ro, .fuse, .always⟩
/-- MODE 1–6 -/
def CAP_FEATURES_SEMIRING : Fld := ⟨0x8, 0x8, 1, 0, 1, 8, 8, .ro, .fuse, .always⟩
/-- COMP = 1 -/
def CAP_FEATURES_COMPENSATED : Fld := ⟨0x8, 0x8, 1, 0, 1, 9, 9, .ro, .fuse, .always⟩
/-- SWITCH -/
def CAP_FEATURES_WEIGHT_SETS : Fld := ⟨0x8, 0x8, 1, 0, 1, 10, 10, .ro, .fuse, .always⟩
/-- MIGRATE -/
def CAP_FEATURES_MIGRATE : Fld := ⟨0x8, 0x8, 1, 0, 1, 11, 11, .ro, .fuse, .always⟩
/-- tiles -/
def CAP_COUNTS_TILES : Fld := ⟨0x10, 0x8, 1, 0, 1, 10, 0, .ro, .num 1536, .always⟩
/-- queue slots -/
def CAP_COUNTS_QUEUES : Fld := ⟨0x10, 0x8, 1, 0, 1, 23, 11, .ro, .num 4096, .always⟩
/-- context records -/
def CAP_COUNTS_CONTEXTS : Fld := ⟨0x10, 0x8, 1, 0, 1, 38, 24, .ro, .num 16384, .always⟩
/-- resident slots -/
def CAP_COUNTS_SLOTS : Fld := ⟨0x10, 0x8, 1, 0, 1, 44, 39, .ro, .num 48, .always⟩
/-- partitions -/
def CAP_COUNTS_PARTITIONS : Fld := ⟨0x10, 0x8, 1, 0, 1, 50, 45, .ro, .num 32, .always⟩
/-- peer entries -/
def CAP_COUNTS_PEERS : Fld := ⟨0x10, 0x8, 1, 0, 1, 59, 51, .ro, .num 256, .always⟩
/-- carvable GiB per stack (R59) -/
def CAP_MEM_HBM_GIB : Fld := ⟨0x18, 0x8, 1, 0, 1, 7, 0, .ro, .num 41, .always⟩
/-- carvable LPDDR5X GiB, Steward included -/
def CAP_MEM_LPDDR_GIB : Fld := ⟨0x18, 0x8, 1, 0, 1, 17, 8, .ro, .num 876, .always⟩
/-- least STEWARD_GIB -/
def CAP_MEM_STEWARD_MIN : Fld := ⟨0x18, 0x8, 1, 0, 1, 25, 18, .ro, .num 16, .always⟩
/-- Pilot firmware version -/
def CAP_VERSION_PILOT_FW : Fld := ⟨0x20, 0x8, 1, 0, 1, 15, 0, .ro, .boot, .hub⟩
/-- hub firmware version -/
def CAP_VERSION_HUB_FW : Fld := ⟨0x20, 0x8, 1, 0, 1, 31, 16, .ro, .boot, .hub⟩
/-- security version in force -/
def CAP_VERSION_SEC_VERSION : Fld := ⟨0x20, 0x8, 1, 0, 1, 47, 32, .ro, .boot, .hub⟩
/-- vendor identity of VENDOR_DEFINED payloads (R319); the same on every module (R467) -/
def CAP_VENDOR_VENDOR_ID : Fld := ⟨0x28, 0x8, 1, 0, 1, 15, 0, .ro, .fuse, .always⟩
/-- registry of VENDOR_ID; 3 on every module (R467) -/
def CAP_VENDOR_STANDARD_ID : Fld := ⟨0x28, 0x8, 1, 0, 1, 31, 16, .ro, .num 3, .always⟩
/-! 15_shared_objects_and_submission.md R382. -/
/-- 1 = ADDR locked; the table is in use -/
def CTX_TABLE_LOCK : Fld := ⟨0xc00000, 0x8, 1, 0, 1, 0, 0, .w1s, .num 0, .hub⟩
/-- table address bits [62:12], key ID 0; locked by LOCK -/
def CTX_TABLE_ADDR : Fld := ⟨0xc00000, 0x8, 1, 0, 1, 62, 12, .rwl, .num 0, .hub⟩
/-- 1 QUEUE_CREATE; 2 QUEUE_DESTROY; 3 FENCE_ERR; 4–7 refused with 0x0101 -/
def OBJ_CMD_OP : Fld := ⟨0xc00008, 0x8, 1, 0, 1, 2, 0, .wo, .num 0, .action⟩
/-- first argument, as R357 and R377 -/
def OBJ_ARG0_VALUE : Fld := ⟨0xc00010, 0x8, 1, 0, 1, 63, 0, .rw, .num 0, .hub⟩
/-- second argument -/
def OBJ_ARG1_VALUE : Fld := ⟨0xc00018, 0x8, 1, 0, 1, 63, 0, .rw, .num 0, .hub⟩
/-- 1 = a command is running -/
def OBJ_STAT_BUSY : Fld := ⟨0xc00020, 0x8, 1, 0, 1, 0, 0, .ro, .num 0, .hub⟩
/-- a command has ended -/
def OBJ_STAT_DONE : Fld := ⟨0xc00020, 0x8, 1, 0, 1, 1, 1, .w1c, .num 0, .hub⟩
/-- an OP was written while BUSY was 1; that write was ignored -/
def OBJ_STAT_OVERRUN : Fld := ⟨0xc00020, 0x8, 1, 0, 1, 2, 2, .w1c, .num 0, .hub⟩
/-- result; 0 = success -/
def OBJ_STAT_CODE : Fld := ⟨0xc00020, 0x8, 1, 0, 1, 31, 16, .ro, .num 0, .hub⟩
/-- queue number from QUEUE_CREATE -/
def OBJ_STAT_RESULT : Fld := ⟨0xc00020, 0x8, 1, 0, 1, 43, 32, .ro, .num 0, .hub⟩
/-- signals ignored under R369 -/
def FENCE_STALE_COUNT : Fld := ⟨0xc00028, 0x8, 1, 0, 1, 63, 0, .ro, .num 0, .hub⟩
/-- queues created, 0–4,096 -/
def QUEUE_COUNT_USED : Fld := ⟨0xc00030, 0x8, 1, 0, 1, 12, 0, .ro, .num 0, .hub⟩
/-- reserved slots not yet used by bound contexts -/
def QUEUE_COUNT_RESERVED : Fld := ⟨0xc00030, 0x8, 1, 0, 1, 25, 13, .ro, .num 0, .hub⟩
/-- 4–16; other values hold the ring disabled -/
def LOG_RING_SIZE_LOG2 : Fld := ⟨0xc00100, 0x8, 1, 0, 1, 4, 0, .rw, .num 0, .hub⟩
/-- 1 = notices are written -/
def LOG_RING_EN : Fld := ⟨0xc00100, 0x8, 1, 0, 1, 5, 5, .rw, .num 0, .hub⟩
/-- ring address bits [62:6], key ID 0 -/
def LOG_RING_ADDR : Fld := ⟨0xc00100, 0x8, 1, 0, 1, 62, 6, .rw, .num 0, .hub⟩
/-- next entry the module writes -/
def LOG_IDX_HEAD : Fld := ⟨0xc00108, 0x8, 1, 0, 1, 15, 0, .ro, .num 0, .hub⟩
/-- next entry the driver reads -/
def LOG_IDX_TAIL : Fld := ⟨0xc00108, 0x8, 1, 0, 1, 31, 16, .rw, .num 0, .hub⟩
/-- notices dropped under R379 -/
def LOG_DROPS_COUNT : Fld := ⟨0xc00110, 0x8, 1, 0, 1, 31, 0, .ro, .num 0, .hub⟩
/-! 15_shared_objects_and_submission.md R383. -/
/-- context held -/
def SLOT_STAT_CTX : Fld := ⟨0x200000, 0x1000, 48, 0, 1, 13, 0, .ro, .num 0, .hub⟩
/-- 0 FREE; 1 IDLE; 2 ACTIVE; 3 EVICTING -/
def SLOT_STAT_STATE : Fld := ⟨0x200000, 0x1000, 48, 0, 1, 15, 14, .ro, .num 0, .hub⟩
/-- 1 = context bound -/
def SLOT_STAT_PINNED : Fld := ⟨0x200000, 0x1000, 48, 0, 1, 16, 16, .ro, .num 0, .hub⟩
/-- as R371 -/
def SLOT_STAT_PEND_ERR : Fld := ⟨0x200000, 0x1000, 48, 0, 1, 47, 32, .ro, .num 0, .hub⟩
/-- last step started -/
def SLOT_INFO_STEP : Fld := ⟨0x200008, 0x1000, 48, 0, 1, 63, 0, .ro, .num 0, .hub⟩
/-! 15_shared_objects_and_submission.md R384. -/
/-- ring entries -/
def Q_RING_SIZE : Fld := ⟨0x400000, 0x40, 4096, 0, 1, 16, 0, .ro, .num 0, .hub⟩
/-- ring address bits [62:17] -/
def Q_RING_ADDR : Fld := ⟨0x400000, 0x40, 4096, 0, 1, 62, 17, .ro, .num 0, .hub⟩
/-- next entry to read -/
def Q_IDX_HEAD : Fld := ⟨0x400008, 0x40, 4096, 0, 1, 15, 0, .ro, .num 0, .hub⟩
/-- last doorbell value -/
def Q_IDX_TAIL : Fld := ⟨0x400008, 0x40, 4096, 0, 1, 31, 16, .ro, .num 0, .hub⟩
/-- the queue's context -/
def Q_IDX_CTX : Fld := ⟨0x400008, 0x40, 4096, 0, 1, 45, 32, .ro, .num 0, .hub⟩
/-- 0 FREE; 1 RUNNING; 2 STOPPING; 3 STOPPED; 4 ERROR; 5–7 not used -/
def Q_STAT_STATE : Fld := ⟨0x400010, 0x40, 4096, 0, 1, 2, 0, .ro, .num 0, .hub⟩
/-- 0 none; 1 fence; 2 resident slot; 3 rule of an owning chapter -/
def Q_STAT_WAITING : Fld := ⟨0x400010, 0x40, 4096, 0, 1, 5, 3, .ro, .num 0, .hub⟩
/-- a control ignored under R374 -/
def Q_STAT_OVERRUN : Fld := ⟨0x400010, 0x40, 4096, 0, 1, 6, 6, .w1c, .num 0, .hub⟩
/-- code of the last command of the queue that completed with a nonzero code, CANCEL excepted, including one that completed in STOPPING (R375) or an unreadable entry (R472) -/
def Q_STAT_LAST_ERR : Fld := ⟨0x400010, 0x40, 4096, 0, 1, 31, 16, .ro, .num 0, .hub⟩
/-- doorbells ignored while the queue is not FREE (R358); zero at QUEUE_CREATE; holds at all ones -/
def Q_STAT_DB_BAD : Fld := ⟨0x400010, 0x40, 4096, 0, 1, 47, 32, .ro, .num 0, .hub⟩
/-- 1 = STOP -/
def Q_CTRL_STOP : Fld := ⟨0x400018, 0x40, 4096, 0, 1, 0, 0, .wo, .num 0, .action⟩
/-- 1 = RESUME -/
def Q_CTRL_RESUME : Fld := ⟨0x400018, 0x40, 4096, 0, 1, 1, 1, .wo, .num 0, .action⟩
/-- 1 = CANCEL -/
def Q_CTRL_CANCEL : Fld := ⟨0x400018, 0x40, 4096, 0, 1, 2, 2, .wo, .num 0, .action⟩
/-- with CANCEL: 1 = leave signal fences -/
def Q_CTRL_KEEP_FENCES : Fld := ⟨0x400018, 0x40, 4096, 0, 1, 3, 3, .wo, .num 0, .action⟩
/-- cancellation code; 0 = 0x0702 -/
def Q_CTRL_CODE : Fld := ⟨0x400018, 0x40, 4096, 0, 1, 31, 16, .wo, .num 0, .action⟩
/-- commands completed, cancelled ones included -/
def Q_DONE_COUNT : Fld := ⟨0x400020, 0x40, 4096, 0, 1, 63, 0, .ro, .num 0, .hub⟩
/-! 16_reliability_and_integrity.md R405. -/
/-- 1 = controller failed its self-test (R400) -/
def MC_STAT_FAILED : Fld := ⟨0xa00000, 0x10000, 12, 0, 1, 0, 0, .ro, .boot, .hub⟩
/-- ECC_CE_COUNT passed ECC_CE_THRESH -/
def MC_STAT_CE_OVER : Fld := ⟨0xa00000, 0x10000, 12, 0, 1, 1, 1, .w1c, .num 0, .hub⟩
/-- an uncorrectable error occurred -/
def MC_STAT_UE : Fld := ⟨0xa00000, 0x10000, 12, 0, 1, 2, 2, .w1c, .num 0, .hub⟩
/-- a leaf became unverifiable (R394) -/
def MC_STAT_LEAF_LOST : Fld := ⟨0xa00000, 0x10000, 12, 0, 1, 3, 3, .w1c, .num 0, .hub⟩
/-- an upper node was rewritten from its other copy -/
def MC_STAT_UPPER_REPAIR : Fld := ⟨0xa00000, 0x10000, 12, 0, 1, 4, 4, .w1c, .num 0, .hub⟩
/-- 1 = Glimmer is scrubbing this controller -/
def MC_STAT_GLIMMER_ACTIVE : Fld := ⟨0xa00000, 0x10000, 12, 0, 1, 5, 5, .ro, .num 0, .hub⟩
/-- correctable errors -/
def ECC_CE_COUNT_COUNT : Fld := ⟨0xa00008, 0x10000, 12, 0, 1, 63, 0, .ro, .num 0, .hub⟩
/-- uncorrectable errors -/
def ECC_UE_COUNT_COUNT : Fld := ⟨0xa00010, 0x10000, 12, 0, 1, 63, 0, .ro, .num 0, .hub⟩
/-- CE_OVER threshold; 0 = never -/
def ECC_CE_THRESH_THRESH : Fld := ⟨0xa00018, 0x10000, 12, 0, 1, 31, 0, .rw, .num 1000, .hub⟩
/-- sector slot; node index within its level for AREA 3 -/
def ECC_LAST_SLOT : Fld := ⟨0xa00020, 0x10000, 12, 0, 1, 25, 0, .ro, .num 0, .hub⟩
/-- line 0–63; the level for AREA 3 -/
def ECC_LAST_LINE : Fld := ⟨0xa00020, 0x10000, 12, 0, 1, 31, 26, .ro, .num 0, .hub⟩
/-- 0 data; 1 tag; 2 leaf; 3 upper node -/
def ECC_LAST_AREA : Fld := ⟨0xa00020, 0x10000, 12, 0, 1, 33, 32, .ro, .num 0, .hub⟩
/-- code word 0 or 1 of the line -/
def ECC_LAST_CW : Fld := ⟨0xa00020, 0x10000, 12, 0, 1, 34, 34, .ro, .num 0, .hub⟩
/-- symbol 0–71 corrected; 127 when uncorrectable -/
def ECC_LAST_SYMBOL : Fld := ⟨0xa00020, 0x10000, 12, 0, 1, 41, 35, .ro, .num 0, .hub⟩
/-- 1 = uncorrectable -/
def ECC_LAST_UE : Fld := ⟨0xa00020, 0x10000, 12, 0, 1, 42, 42, .ro, .num 0, .hub⟩
/-- lines poisoned by this controller -/
def POISON_COUNT_COUNT : Fld := ⟨0xa00028, 0x10000, 12, 0, 1, 31, 0, .ro, .num 0, .hub⟩
/-- upper-node copies rewritten -/
def TREE_STAT_UPPER_REPAIRS : Fld := ⟨0xa00030, 0x10000, 12, 0, 1, 31, 0, .ro, .num 0, .hub⟩
/-- leaves made unverifiable -/
def TREE_STAT_LEAVES_LOST : Fld := ⟨0xa00030, 0x10000, 12, 0, 1, 63, 32, .ro, .num 0, .hub⟩
/-- ms of the last complete lap; holds at all ones; 0 until one lap completes -/
def GLIMMER_STAT_LAP_MS : Fld := ⟨0xa00038, 0x10000, 12, 0, 1, 31, 0, .ro, .num 0, .hub⟩
/-- current lap position in 1,024ths -/
def GLIMMER_STAT_PROGRESS : Fld := ⟨0xa00038, 0x10000, 12, 0, 1, 41, 32, .ro, .num 0, .hub⟩
/-- 1 = Floodlight works on this controller -/
def FLOOD_STAT_BUSY : Fld := ⟨0xa00040, 0x10000, 12, 0, 1, 0, 0, .ro, .num 0, .hub⟩
/-- 0 none; 1 INIT; 2 VERIFY; 3 not used -/
def FLOOD_STAT_MODE : Fld := ⟨0xa00040, 0x10000, 12, 0, 1, 2, 1, .ro, .num 0, .hub⟩
/-- MiB left in the running pass -/
def FLOOD_STAT_REMAIN_MIB : Fld := ⟨0xa00040, 0x10000, 12, 0, 1, 63, 32, .ro, .num 0, .hub⟩
/-! 16_reliability_and_integrity.md R406. -/
/-- 1 = Glimmer runs -/
def SCRUB_CTRL_GLIMMER_EN : Fld := ⟨0xac0000, 0x8, 1, 0, 1, 0, 0, .rw, .boot, .hub⟩
/-- 1 = counters of this chapter count -/
def SCRUB_CTRL_CNT_EN : Fld := ⟨0xac0000, 0x8, 1, 0, 1, 1, 1, .rw, .num 1, .hub⟩
/-- 1 = clear those counters -/
def SCRUB_CTRL_CNT_CLEAR : Fld := ⟨0xac0000, 0x8, 1, 0, 1, 2, 2, .wo, .num 0, .action⟩
/-- Floodlight total rate in GB/s, 1–10,000; a write of 0 or above 10,000 leaves it unchanged -/
def SCRUB_CTRL_FLOOD_RATE : Fld := ⟨0xac0000, 0x8, 1, 0, 1, 31, 16, .rw, .boot, .hub⟩
/-- Glimmer rate per controller in MB/s, 1–16,000; a write of 0 or above 16,000 leaves it unchanged -/
def SCRUB_CTRL_GLIMMER_MAX : Fld := ⟨0xac0000, 0x8, 1, 0, 1, 47, 32, .rw, .num 2000, .hub⟩
/-- bit n = controller n for the next VERIFY -/
def FLOOD_CMD_CTRL_MASK : Fld := ⟨0xac0008, 0x8, 1, 0, 1, 11, 0, .rw, .num 0, .hub⟩
/-- 1 = start VERIFY on CTRL_MASK; ignored, with OVERRUN set, when a named controller is BUSY or FAILED or CTRL_MASK is 0 -/
def FLOOD_CMD_GO : Fld := ⟨0xac0008, 0x8, 1, 0, 1, 12, 12, .wo, .num 0, .action⟩
/-- a GO was ignored -/
def FLOOD_CMD_OVERRUN : Fld := ⟨0xac0008, 0x8, 1, 0, 1, 13, 13, .w1c, .num 0, .hub⟩
/-- corrected on-die errors (R395) -/
def SRAM_ERR_CE : Fld := ⟨0xac0010, 0x8, 1, 0, 1, 31, 0, .ro, .num 0, .hub⟩
/-- uncorrectable on-die errors -/
def SRAM_ERR_UE : Fld := ⟨0xac0010, 0x8, 1, 0, 1, 63, 32, .ro, .num 0, .hub⟩
/-- tile ID; 0x7FF for hub and Pilot memories -/
def SRAM_LAST_TILE : Fld := ⟨0xac0018, 0x8, 1, 0, 1, 10, 0, .ro, .num 0, .hub⟩
/-- 0 scratchpad; 1 instruction memory; 2 message store or reply buffer; 3 accumulator store; 4 counter cache; 5 key cache; 6 key table; 7 other hub SRAM -/
def SRAM_LAST_ARRAY : Fld := ⟨0xac0018, 0x8, 1, 0, 1, 13, 11, .ro, .num 0, .hub⟩
/-- 1 = uncorrectable -/
def SRAM_LAST_UE : Fld := ⟨0xac0018, 0x8, 1, 0, 1, 14, 14, .ro, .num 0, .hub⟩
/-- byte address within the array, bits [20:0] -/
def SRAM_LAST_ADDR : Fld := ⟨0xac0018, 0x8, 1, 0, 1, 35, 15, .ro, .num 0, .hub⟩
/-! 17_reflection_and_recovery.md R423. -/
/-- 1 = restore as R420 -/
def REFL_CTRL_RESTORE : Fld := ⟨0x100900, 0x1000, 32, 0, 1, 0, 0, .wo, .num 0, .action⟩
/-- 1 = send RELEASE to every holder; ignored with OVERRUN set while a restore runs -/
def REFL_CTRL_RELEASE : Fld := ⟨0x100900, 0x1000, 32, 0, 1, 1, 1, .wo, .num 0, .action⟩
/-- peer to restore from -/
def REFL_CTRL_PEER : Fld := ⟨0x100900, 0x1000, 32, 0, 1, 15, 8, .rw, .num 0, .part⟩
/-- LINEAGE taken at the next job load -/
def REFL_LINEAGE_VALUE : Fld := ⟨0x100908, 0x1000, 32, 0, 1, 63, 0, .rw, .num 0, .part⟩
/-- 1 = a restore runs -/
def REFL_STAT_BUSY : Fld := ⟨0x100910, 0x1000, 32, 0, 1, 0, 0, .ro, .num 0, .part⟩
/-- a restore has ended -/
def REFL_STAT_DONE : Fld := ⟨0x100910, 0x1000, 32, 0, 1, 1, 1, .w1c, .num 0, .part⟩
/-- a RESTORE or RELEASE was ignored -/
def REFL_STAT_OVERRUN : Fld := ⟨0x100910, 0x1000, 32, 0, 1, 2, 2, .w1c, .num 0, .part⟩
/-- result of the last restore or capture; 0 = success -/
def REFL_STAT_CODE : Fld := ⟨0x100910, 0x1000, 32, 0, 1, 31, 16, .ro, .num 0, .part⟩
/-- step of the last committed capture; 0 = none -/
def REFL_STEP_STEP : Fld := ⟨0x100918, 0x1000, 32, 0, 1, 63, 0, .ro, .num 0, .part⟩
/-- mirror 0: 0 NONE; 1 RESERVING; 2 SENDING; 3 COMMITTED; 4 LOST; 5–7 not used -/
def REFL_HOLDER_STATE0 : Fld := ⟨0x100920, 0x1000, 32, 0, 1, 2, 0, .ro, .num 0, .part⟩
/-- holder peer of mirror 0 -/
def REFL_HOLDER_PEER0 : Fld := ⟨0x100920, 0x1000, 32, 0, 1, 15, 8, .ro, .num 0, .part⟩
/-- mirror 1, as STATE0 -/
def REFL_HOLDER_STATE1 : Fld := ⟨0x100920, 0x1000, 32, 0, 1, 18, 16, .ro, .num 0, .part⟩
/-- holder peer of mirror 1 -/
def REFL_HOLDER_PEER1 : Fld := ⟨0x100920, 0x1000, 32, 0, 1, 31, 24, .ro, .num 0, .part⟩
/-- captures committed at one or more holders; holds at all ones -/
def REFL_COUNT_COMMITS : Fld := ⟨0x100928, 0x1000, 32, 0, 1, 31, 0, .ro, .num 0, .part⟩
/-- boundaries skipped under R410; holds at all ones -/
def REFL_COUNT_SKIPPED : Fld := ⟨0x100928, 0x1000, 32, 0, 1, 47, 32, .ro, .num 0, .part⟩
/-- members agreeing at the last comparison, 0–256 -/
def REFL_COUNT_AGREE : Fld := ⟨0x100928, 0x1000, 32, 0, 1, 56, 48, .ro, .num 0, .part⟩
/-! 18_power_clocks_and_reset.md R447. -/
/-- 1 = feed A OK (R424) -/
def PWR_STAT_A_OK : Fld := ⟨0x20000, 0x8, 1, 0, 1, 0, 0, .ro, .num 0, .pilot⟩
/-- 1 = feed B OK -/
def PWR_STAT_B_OK : Fld := ⟨0x20000, 0x8, 1, 0, 1, 1, 1, .ro, .num 0, .pilot⟩
/-- 1 = drawing from feed B -/
def PWR_STAT_ON_B : Fld := ⟨0x20000, 0x8, 1, 0, 1, 2, 2, .ro, .num 0, .pilot⟩
/-- 1 = feed A in warning -/
def PWR_STAT_A_WARN : Fld := ⟨0x20000, 0x8, 1, 0, 1, 3, 3, .ro, .num 0, .pilot⟩
/-- 1 = feed B in warning -/
def PWR_STAT_B_WARN : Fld := ⟨0x20000, 0x8, 1, 0, 1, 4, 4, .ro, .num 0, .pilot⟩
/-- feed A voltage in units of 0.1 V -/
def PWR_STAT_A_DV : Fld := ⟨0x20000, 0x8, 1, 0, 1, 25, 16, .ro, .num 0, .pilot⟩
/-- feed B voltage in units of 0.1 V -/
def PWR_STAT_B_DV : Fld := ⟨0x20000, 0x8, 1, 0, 1, 35, 26, .ro, .num 0, .pilot⟩
/-- draw in W, averaged over 100 ms -/
def PWR_STAT_POWER_W : Fld := ⟨0x20000, 0x8, 1, 0, 1, 47, 36, .ro, .num 0, .pilot⟩
/-- FCLK runs at (64 − STRETCH) / 64 of 1.75 GHz (R427, R428) -/
def PWR_STAT_STRETCH : Fld := ⟨0x20000, 0x8, 1, 0, 1, 53, 48, .ro, .num 0, .pilot⟩
/-- the feed in use changed (R425) -/
def PWR_EVENT_SWITCH : Fld := ⟨0x20008, 0x8, 1, 0, 1, 0, 0, .w1c, .num 0, .pilot⟩
/-- a feed entered warning -/
def PWR_EVENT_FEED_WARN : Fld := ⟨0x20008, 0x8, 1, 0, 1, 1, 1, .w1c, .num 0, .pilot⟩
/-- a feed failed -/
def PWR_EVENT_FEED_FAIL : Fld := ⟨0x20008, 0x8, 1, 0, 1, 2, 2, .w1c, .num 0, .pilot⟩
/-- both feeds failed and a feed returned within the ride-through (R426) -/
def PWR_EVENT_BOTH_LOST : Fld := ⟨0x20008, 0x8, 1, 0, 1, 3, 3, .w1c, .num 0, .pilot⟩
/-- power stretch applied (R427) -/
def PWR_EVENT_LIMIT : Fld := ⟨0x20008, 0x8, 1, 0, 1, 4, 4, .w1c, .num 0, .pilot⟩
/-- thermal stretch applied (R428) -/
def PWR_EVENT_THERM : Fld := ⟨0x20008, 0x8, 1, 0, 1, 5, 5, .w1c, .num 0, .pilot⟩
/-- STALE went from 0 to 1 (R437) -/
def PWR_EVENT_CALIB_STALE : Fld := ⟨0x20008, 0x8, 1, 0, 1, 6, 6, .w1c, .num 0, .pilot⟩
/-- REFCLK was lost (R430) -/
def PWR_EVENT_REFCLK_LOSS : Fld := ⟨0x20008, 0x8, 1, 0, 1, 7, 7, .w1c, .num 0, .pilot⟩
/-- hub warm reset for a missing heartbeat -/
def PWR_EVENT_HUB_WDOG : Fld := ⟨0x20008, 0x8, 1, 0, 1, 8, 8, .w1c, .num 0, .pilot⟩
/-- bit i = PWR_EVENT bit i drives ALERT_OUT_N (R429) -/
def PWR_ALERT_EN_EN : Fld := ⟨0x20010, 0x8, 1, 0, 1, 8, 0, .rw, .num 0x1FF, .pilot⟩
/-- sustained limit in W, 1,000–2,800; a write outside the range leaves it unchanged -/
def PWR_LIMIT_SUST_W : Fld := ⟨0x20018, 0x8, 1, 0, 1, 11, 0, .rw, .num 2800, .pilot⟩
/-- hottest junction in °C, one byte per die: compute dies 0–3 in bytes 0–3, hub in byte 4, Steward in byte 5 -/
def THERM_STAT_DIE_C : Fld := ⟨0x20020, 0x8, 1, 0, 1, 47, 0, .ro, .num 0, .pilot⟩
/-- 1 = the last change went to feed B -/
def FEED_LOG_TO_B : Fld := ⟨0x20028, 0x8, 1, 0, 1, 0, 0, .ro, .num 0, .pilot⟩
/-- changes of feed since cold reset -/
def FEED_LOG_COUNT : Fld := ⟨0x20028, 0x8, 1, 0, 1, 31, 16, .ro, .num 0, .pilot⟩
/-- TIME_SCLK / 32,768 at the last change -/
def FEED_LOG_TIME_S : Fld := ⟨0x20028, 0x8, 1, 0, 1, 63, 32, .ro, .num 0, .pilot⟩
/-- SCLK cycles since the Pilot island powered on -/
def TIME_SCLK_COUNT : Fld := ⟨0x20100, 0x8, 1, 0, 1, 63, 0, .ro, .num 0, .pilot⟩
/-- 1 = REFCLK present -/
def CLK_STAT_REFCLK_OK : Fld := ⟨0x20108, 0x8, 1, 0, 1, 0, 0, .ro, .num 0, .pilot⟩
/-- 1 = hub PLL locked -/
def CLK_STAT_HCLK_LOCK : Fld := ⟨0x20108, 0x8, 1, 0, 1, 1, 1, .ro, .num 0, .hub⟩
/-- IDLE time in µs before NAP; 0 = never -/
def CLUSTER_CTRL_NAP_AFTER_US : Fld := ⟨0x20200, 0x8, 1, 0, 1, 15, 0, .rw, .num 1000, .hub⟩
/-- 1 = clusters of partitions without an image go DARK (R433) -/
def CLUSTER_CTRL_DARK_UNBOUND : Fld := ⟨0x20200, 0x8, 1, 0, 1, 16, 16, .rw, .num 1, .hub⟩
/-- cluster c of die d in [2c+1:2c]: 0 ACTIVE; 1 IDLE; 2 NAP; 3 DARK -/
def CLUSTER_STATE_d_STATE : Fld := ⟨0x20208, 0x8, 4, 0, 1, 47, 0, .ro, .num 0xFFFFFFFFFFFF, .hub⟩
/-- bit c = cluster c of die d failed its self-test -/
def CLUSTER_FAIL_d_FAILED : Fld := ⟨0x20230, 0x8, 4, 0, 1, 23, 0, .ro, .boot, .hub⟩
/-- R437 -/
def CALIB_STAT_STALE : Fld := ⟨0x20300, 0x8, 1, 0, 1, 0, 0, .ro, .num 0, .pilot⟩
/-- 1 = a calibration pass runs -/
def CALIB_STAT_PASS_BUSY : Fld := ⟨0x20300, 0x8, 1, 0, 1, 1, 1, .ro, .num 0, .pilot⟩
/-- a PASS was ignored -/
def CALIB_STAT_OVERRUN : Fld := ⟨0x20300, 0x8, 1, 0, 1, 2, 2, .w1c, .num 0, .pilot⟩
/-- clusters with bin 6 filled, 0–96 -/
def CALIB_STAT_FILLED6 : Fld := ⟨0x20300, 0x8, 1, 0, 1, 22, 16, .ro, .num 0, .pilot⟩
/-- clusters with bin 7 filled, 0–96 -/
def CALIB_STAT_FILLED7 : Fld := ⟨0x20300, 0x8, 1, 0, 1, 30, 24, .ro, .num 0, .pilot⟩
/-- 1 = start a calibration pass (R438) -/
def CALIB_CMD_PASS : Fld := ⟨0x20308, 0x8, 1, 0, 1, 0, 0, .wo, .num 0, .action⟩
/-- must be 0x5A in the same write (R442) -/
def RESET_CTRL_KEY : Fld := ⟨0x20400, 0x8, 1, 0, 1, 7, 0, .wo, .num 0, .action⟩
/-- 1 = module reset -/
def RESET_CTRL_MODULE : Fld := ⟨0x20400, 0x8, 1, 0, 1, 8, 8, .wo, .num 0, .action⟩
/-- 1 = hub warm reset -/
def RESET_CTRL_HUB_WARM : Fld := ⟨0x20400, 0x8, 1, 0, 1, 9, 9, .wo, .num 0, .action⟩
/-- bit p = reset partition p (R441) -/
def PART_RESET_MASK : Fld := ⟨0x20408, 0x8, 1, 0, 1, 31, 0, .wo, .num 0, .action⟩
/-- linear tile index; 1,536–2,047 make GO ignored -/
def TILE_RESET_INDEX : Fld := ⟨0x20410, 0x8, 1, 0, 1, 10, 0, .rw, .num 0, .hub⟩
/-- 1 = tile reset under R441 -/
def TILE_RESET_GO : Fld := ⟨0x20410, 0x8, 1, 0, 1, 11, 11, .wo, .num 0, .action⟩
/-- 0 cold; 1 RESET_IN_N; 2 MODULE_RESET or RESET_CTRL.MODULE; 3 REFCLK return; 4 HUB_WARM_RESET or RESET_CTRL.HUB_WARM; 5 R393; 6 R398; 7 hub heartbeat missing; 8–15 not used -/
def RESET_CAUSE_CAUSE : Fld := ⟨0x20418, 0x8, 1, 0, 1, 3, 0, .ro, .num 0, .pilot⟩
/-- module and hub warm resets since cold reset -/
def RESET_CAUSE_COUNT : Fld := ⟨0x20418, 0x8, 1, 0, 1, 31, 16, .ro, .num 0, .pilot⟩
/-- 1 = bring-up complete; follows READY_OUT -/
def GLOBAL_STAT_READY : Fld := ⟨0x20420, 0x8, 1, 0, 1, 0, 0, .ro, .num 0, .hub⟩
/-- last row of R444 reached, 1–11 -/
def GLOBAL_STAT_STAGE : Fld := ⟨0x20420, 0x8, 1, 0, 1, 4, 1, .ro, .num 0, .pilot⟩
/-- 1 = bring-up stopped (R446) -/
def GLOBAL_STAT_FAILED : Fld := ⟨0x20420, 0x8, 1, 0, 1, 5, 5, .ro, .num 0, .pilot⟩

end Reg

/-- Fields of chapter 02. -/
def regTable02a : List Fld :=
  [Reg.FAB_CAP_COLS, Reg.FAB_CAP_ROWS, Reg.FAB_CAP_DIES,
   Reg.FAB_CAP_SLOTS, Reg.FAB_CAP_EDGE_DEPTH, Reg.FAB_CAP_MAX_SINKS,
   Reg.FAB_CAP_MAX_HOPS, Reg.FAB_CAP_MSG_DEPTH, Reg.FAB_CTRL_CNT_EN,
   Reg.FAB_CTRL_CNT_FREEZE, Reg.FAB_CTRL_CNT_CLEAR, Reg.FAB_ERR_STAT_BND_VIOL,
   Reg.FAB_ERR_STAT_STREAM_PAR, Reg.FAB_ERR_STAT_MSG_PAR, Reg.FAB_ERR_STAT_MEM_PAR,
   Reg.FAB_ERR_STAT_EDGE_REPLAY, Reg.FAB_ERR_STAT_EDGE_FAIL, Reg.FAB_ERR_STAT_BRIDGE_FAIL,
   Reg.FAB_EDGE_FLITS, Reg.FAB_EDGE_REPLAY, Reg.PART_FAB_CTRL_CNT_EN,
   Reg.PART_FAB_CTRL_CNT_CLEAR, Reg.PART_FAB_CTRL_WATCH_EN, Reg.PART_FAB_CTRL_WATCH_STREAM,
   Reg.PART_STREAM_FLITS, Reg.PART_STREAM_STALL, Reg.PART_MSG_PKTS,
   Reg.PART_MSG_WAIT, Reg.PART_MEM_LINES, Reg.PART_EDGE_FLITS]

/-- Fields of chapter 02. -/
def regTable02b : List Fld :=
  [Reg.PART_WATCH_STALL, Reg.PART_BND_VIOL]

/-- Fields of chapter 03. -/
def regTable03a : List Fld :=
  [Reg.FRAME_LOAD_ADDR_ADDR, Reg.FRAME_LOAD_CTRL_GO, Reg.FRAME_LOAD_CTRL_PERSIST,
   Reg.FRAME_LOAD_STAT_BUSY, Reg.FRAME_LOAD_STAT_DONE, Reg.FRAME_LOAD_STAT_OVERRUN,
   Reg.FRAME_LOAD_STAT_START_DEFAULT, Reg.FRAME_LOAD_STAT_START_PENDING, Reg.FRAME_LOAD_STAT_CODE,
   Reg.FRAME_LOAD_STAT_SECTION, Reg.FRAME_LOAD_STAT_ENTRY, Reg.FRAME_SERIAL_SERIAL,
   Reg.PART_CFG_DEFINED, Reg.PART_CFG_GATE, Reg.PART_CFG_CX0,
   Reg.PART_CFG_CX1, Reg.PART_CFG_CY0, Reg.PART_CFG_CY1,
   Reg.PART_CFG_GATE_ID, Reg.JOB_LOAD_ADDR_ADDR, Reg.JOB_LOAD_CTX_CTX,
   Reg.JOB_LOAD_CTRL_GO, Reg.JOB_LOAD_CTRL_UNLOAD, Reg.JOB_LOAD_STAT_BUSY,
   Reg.JOB_LOAD_STAT_DONE, Reg.JOB_LOAD_STAT_OVERRUN, Reg.JOB_LOAD_STAT_LOADED,
   Reg.JOB_LOAD_STAT_CODE, Reg.JOB_LOAD_STAT_SECTION, Reg.JOB_LOAD_STAT_ENTRY]

/-- Fields of chapter 03. -/
def regTable03b : List Fld :=
  [Reg.JOB_SERIAL_SERIAL]

/-- Fields of chapter 09. -/
def regTable09a : List Fld :=
  [Reg.GLINT_CAP_ELEMS_PER_CLK, Reg.GLINT_CAP_MAX_PASSES, Reg.GLINT_CAP_CTRL,
   Reg.GLINT_CAP_TIER, Reg.GLINT_CTRL_CNT_EN, Reg.GLINT_CTRL_CNT_CLEAR,
   Reg.GLINT_CTRL_SHARE, Reg.GLINT_STAT_BUSY, Reg.GLINT_STAT_PASSES,
   Reg.GLINT_STAT_WAITING, Reg.GLINT_STAT_SAT, Reg.GLINT_STAT_NAN,
   Reg.GLINT_STAT_ERR, Reg.GLINT_STAT_LAST_ERR, Reg.GLINT_ELEMS_COUNT,
   Reg.GLINT_BYTES_COUNT, Reg.GLINT_LAST_CYCLES, Reg.GLINT_LAST_CTX]

/-- Fields of chapter 10. -/
def regTable10a : List Fld :=
  [Reg.PORT_CTRL_CNT_EN, Reg.PORT_CTRL_CNT_CLEAR, Reg.PORT_CTRL_RETRAIN,
   Reg.PORT_CTRL_LOOPBACK, Reg.PORT_STAT_MODE, Reg.PORT_STAT_STATE,
   Reg.PORT_STAT_LOS, Reg.PORT_STAT_LANE_REV, Reg.PORT_STAT_PEER_VALID,
   Reg.PORT_STAT_PEER, Reg.PORT_STAT_LAST_ERR, Reg.PORT_STAT_EPOCH,
   Reg.PORT_TX_GROUPS, Reg.PORT_RX_GROUPS, Reg.PORT_RETRY,
   Reg.PORT_TAG_FAIL, Reg.PORT_FEC_CORR, Reg.PORT_FEC_UNCORR,
   Reg.PORT_RX_DROP, Reg.ETH_TX_RING_SIZE_LOG2, Reg.ETH_RX_RING_SIZE_LOG2,
   Reg.ETH_TX_RING_EN, Reg.ETH_RX_RING_EN, Reg.ETH_TX_RING_ADDR,
   Reg.ETH_RX_RING_ADDR, Reg.ETH_TX_IDX_HEAD, Reg.ETH_RX_IDX_HEAD,
   Reg.ETH_TX_IDX_TAIL, Reg.ETH_RX_IDX_TAIL, Reg.PEER_STAT_OPEN]

/-- Fields of chapter 10. -/
def regTable10b : List Fld :=
  [Reg.PEER_STAT_DRAINING, Reg.PEER_REFUSED_COUNT, Reg.COLL_CTRL_TIMEOUT_MS,
   Reg.COLL_STAT_ACTIVE, Reg.COLL_STAT_WAITING, Reg.COLL_STAT_LAST_ERR,
   Reg.PEER_ENTRY_STATE, Reg.PEER_ENTRY_PORTS, Reg.PEER_ENTRY_EPOCH]

/-- Fields of chapter 11. -/
def regTable11a : List Fld :=
  [Reg.BEACON_CTRL_HASH_EN, Reg.BEACON_CTRL_AUTO_REFETCH, Reg.BEACON_CTRL_CNT_EN,
   Reg.BEACON_CTRL_CNT_CLEAR, Reg.BEACON_CTRL_HASH_INTERVAL, Reg.BEACON_CTRL_HASH_RATE,
   Reg.BEACON_STAT_LOADS, Reg.BEACON_STAT_HASHING, Reg.BEACON_STAT_LAST_ERR,
   Reg.BEACON_STAT_LAP_S, Reg.BEACON_LAST_SHARD, Reg.BEACON_LAST_CTX,
   Reg.BEACON_PACK_TABLE_EN, Reg.BEACON_PACK_TABLE_ADDR, Reg.BEACON_PACK_COUNT_ENTRIES,
   Reg.BEACON_SHARDS_IN, Reg.BEACON_SHARDS_SERVED, Reg.BEACON_DIGEST_FAIL,
   Reg.BEACON_TIMEOUTS, Reg.BEACON_POISONED]

/-- Fields of chapter 12. -/
def regTable12a : List Fld :=
  [Reg.PRISM_CAP_KEY_IDS, Reg.PRISM_CAP_MASTERS, Reg.PRISM_CAP_CACHE_KIB,
   Reg.PRISM_CAP_INSTANCES, Reg.PRISM_CAP_WEAR_ENTRIES, Reg.PRISM_CFG_PROFILE,
   Reg.PRISM_CFG_CNT_EN, Reg.PRISM_CFG_CNT_CLEAR, Reg.PRISM_STAT_BIT63,
   Reg.PRISM_STAT_RIGHTS, Reg.PRISM_STAT_TAG, Reg.PRISM_STAT_TREE,
   Reg.PRISM_STAT_MAJOR_WARN, Reg.PRISM_STAT_MAJOR_EXH, Reg.PRISM_STAT_LAST_ERR,
   Reg.PRISM_STAT_LAST_MASTER, Reg.PRISM_STAT_LAST_CTRL, Reg.PRISM_LAST_ADDR_ADDR,
   Reg.KEY_CMD_KEY, Reg.KEY_CMD_OWNER, Reg.KEY_CMD_OP,
   Reg.KEY_STAT_BUSY, Reg.KEY_STAT_DONE, Reg.KEY_STAT_OVERRUN,
   Reg.KEY_STAT_CODE, Reg.KEY_STAT_RESULT_KEY, Reg.KEY_INFO_STATE,
   Reg.KEY_INFO_OWNER, Reg.KEY_INFO_USERS, Reg.KEY_INFO_GEN]

/-- Fields of chapter 12. -/
def regTable12b : List Fld :=
  [Reg.RIGHTS_SEL_MASTER, Reg.RIGHTS_SEL_WORD, Reg.RIGHTS_READ_MAP,
   Reg.RIGHTS_WRITE_MAP, Reg.RIGHTS_FLAGS_STEWARD_ONLY, Reg.RIGHTS_FLAGS_RAW_READ,
   Reg.PRISM_n_TAG_FAIL_COUNT, Reg.PRISM_n_PARTIAL_COUNT, Reg.PRISM_n_REFRESH_COUNT,
   Reg.PRISM_n_CACHE_HIT_COUNT, Reg.PRISM_n_CACHE_MISS_COUNT, Reg.PRISM_n_WEAR_COUNT_COUNT,
   Reg.PRISM_n_WEAR_COUNT_WEAR_OVF, Reg.PRISM_n_WEAR_j_LBN, Reg.PRISM_n_WEAR_j_KEY,
   Reg.PRISM_n_WEAR_j_EXH]

/-- Fields of chapter 13. -/
def regTable13a : List Fld :=
  [Reg.OWNER_CMD_INDEX, Reg.OWNER_CMD_OP, Reg.OWNER_STAT_BUSY,
   Reg.OWNER_STAT_DONE, Reg.OWNER_STAT_OVERRUN, Reg.OWNER_STAT_REASON,
   Reg.OWNER_STAT_CODE, Reg.OWNER_STAT_RESULT, Reg.OWNER_INFO_KIND,
   Reg.OWNER_INFO_INGRESS, Reg.OWNER_INFO_KEYS, Reg.OWNER_INFO_CONTEXTS,
   Reg.OWNER_DATA_VALUE, Reg.GATE_g_STAT_STATE, Reg.GATE_g_STAT_PLACED,
   Reg.GATE_g_STAT_FAIL_ENTRY, Reg.GATE_g_STAT_IGNORED, Reg.GATE_g_STAT_LAST_ERR,
   Reg.GATE_g_STAT_HAVE, Reg.GATE_g_STAT_FAIL_VALID, Reg.GATE_g_STAT_ABANDONED,
   Reg.GATE_g_STEP_L, Reg.GATE_g_CTRL_TIMEOUT_MS, Reg.ECLIPSE_COUNT_COUNT,
   Reg.ECLIPSE_LAST_CYCLES, Reg.ECLIPSE_LAST_PART]

/-- Fields of chapter 14. -/
def regTable14a : List Fld :=
  [Reg.MBOX_CTRL_REQ_LEN, Reg.MBOX_CTRL_GO, Reg.MBOX_STAT_BUSY,
   Reg.MBOX_STAT_DONE, Reg.MBOX_STAT_OVERRUN, Reg.MBOX_STAT_ERR,
   Reg.MBOX_STAT_RSP_LEN, Reg.STEWARD_CTRL_RESET, Reg.STEWARD_STAT_STATE,
   Reg.STEWARD_STAT_RESETS, Reg.STEWARD_STAT_LAST_ERR, Reg.UCIE_STAT_MODULES,
   Reg.UCIE_STAT_UP, Reg.UCIE_STAT_RETRAINS, Reg.UCIE_STAT_REPAIRS]

/-- Fields of chapter 15. -/
def regTable15a : List Fld :=
  [Reg.CAP_ID_MAGIC, Reg.CAP_ID_STEPPING, Reg.CAP_ID_TABLE_VERSION,
   Reg.CAP_FEATURES_PROFILE_K, Reg.CAP_FEATURES_GATES, Reg.CAP_FEATURES_RAMOM,
   Reg.CAP_FEATURES_ETHERNET, Reg.CAP_FEATURES_GLINT, Reg.CAP_FEATURES_BEACON,
   Reg.CAP_FEATURES_REFLECTION, Reg.CAP_FEATURES_FOUR_BIT, Reg.CAP_FEATURES_SEMIRING,
   Reg.CAP_FEATURES_COMPENSATED, Reg.CAP_FEATURES_WEIGHT_SETS, Reg.CAP_FEATURES_MIGRATE,
   Reg.CAP_COUNTS_TILES, Reg.CAP_COUNTS_QUEUES, Reg.CAP_COUNTS_CONTEXTS,
   Reg.CAP_COUNTS_SLOTS, Reg.CAP_COUNTS_PARTITIONS, Reg.CAP_COUNTS_PEERS,
   Reg.CAP_MEM_HBM_GIB, Reg.CAP_MEM_LPDDR_GIB, Reg.CAP_MEM_STEWARD_MIN,
   Reg.CAP_VERSION_PILOT_FW, Reg.CAP_VERSION_HUB_FW, Reg.CAP_VERSION_SEC_VERSION,
   Reg.CAP_VENDOR_VENDOR_ID, Reg.CAP_VENDOR_STANDARD_ID, Reg.CTX_TABLE_LOCK]

/-- Fields of chapter 15. -/
def regTable15b : List Fld :=
  [Reg.CTX_TABLE_ADDR, Reg.OBJ_CMD_OP, Reg.OBJ_ARG0_VALUE,
   Reg.OBJ_ARG1_VALUE, Reg.OBJ_STAT_BUSY, Reg.OBJ_STAT_DONE,
   Reg.OBJ_STAT_OVERRUN, Reg.OBJ_STAT_CODE, Reg.OBJ_STAT_RESULT,
   Reg.FENCE_STALE_COUNT, Reg.QUEUE_COUNT_USED, Reg.QUEUE_COUNT_RESERVED,
   Reg.LOG_RING_SIZE_LOG2, Reg.LOG_RING_EN, Reg.LOG_RING_ADDR,
   Reg.LOG_IDX_HEAD, Reg.LOG_IDX_TAIL, Reg.LOG_DROPS_COUNT,
   Reg.SLOT_STAT_CTX, Reg.SLOT_STAT_STATE, Reg.SLOT_STAT_PINNED,
   Reg.SLOT_STAT_PEND_ERR, Reg.SLOT_INFO_STEP, Reg.Q_RING_SIZE,
   Reg.Q_RING_ADDR, Reg.Q_IDX_HEAD, Reg.Q_IDX_TAIL,
   Reg.Q_IDX_CTX, Reg.Q_STAT_STATE, Reg.Q_STAT_WAITING]

/-- Fields of chapter 15. -/
def regTable15c : List Fld :=
  [Reg.Q_STAT_OVERRUN, Reg.Q_STAT_LAST_ERR, Reg.Q_STAT_DB_BAD,
   Reg.Q_CTRL_STOP, Reg.Q_CTRL_RESUME, Reg.Q_CTRL_CANCEL,
   Reg.Q_CTRL_KEEP_FENCES, Reg.Q_CTRL_CODE, Reg.Q_DONE_COUNT]

/-- Fields of chapter 16. -/
def regTable16a : List Fld :=
  [Reg.MC_STAT_FAILED, Reg.MC_STAT_CE_OVER, Reg.MC_STAT_UE,
   Reg.MC_STAT_LEAF_LOST, Reg.MC_STAT_UPPER_REPAIR, Reg.MC_STAT_GLIMMER_ACTIVE,
   Reg.ECC_CE_COUNT_COUNT, Reg.ECC_UE_COUNT_COUNT, Reg.ECC_CE_THRESH_THRESH,
   Reg.ECC_LAST_SLOT, Reg.ECC_LAST_LINE, Reg.ECC_LAST_AREA,
   Reg.ECC_LAST_CW, Reg.ECC_LAST_SYMBOL, Reg.ECC_LAST_UE,
   Reg.POISON_COUNT_COUNT, Reg.TREE_STAT_UPPER_REPAIRS, Reg.TREE_STAT_LEAVES_LOST,
   Reg.GLIMMER_STAT_LAP_MS, Reg.GLIMMER_STAT_PROGRESS, Reg.FLOOD_STAT_BUSY,
   Reg.FLOOD_STAT_MODE, Reg.FLOOD_STAT_REMAIN_MIB, Reg.SCRUB_CTRL_GLIMMER_EN,
   Reg.SCRUB_CTRL_CNT_EN, Reg.SCRUB_CTRL_CNT_CLEAR, Reg.SCRUB_CTRL_FLOOD_RATE,
   Reg.SCRUB_CTRL_GLIMMER_MAX, Reg.FLOOD_CMD_CTRL_MASK, Reg.FLOOD_CMD_GO]

/-- Fields of chapter 16. -/
def regTable16b : List Fld :=
  [Reg.FLOOD_CMD_OVERRUN, Reg.SRAM_ERR_CE, Reg.SRAM_ERR_UE,
   Reg.SRAM_LAST_TILE, Reg.SRAM_LAST_ARRAY, Reg.SRAM_LAST_UE,
   Reg.SRAM_LAST_ADDR]

/-- Fields of chapter 17. -/
def regTable17a : List Fld :=
  [Reg.REFL_CTRL_RESTORE, Reg.REFL_CTRL_RELEASE, Reg.REFL_CTRL_PEER,
   Reg.REFL_LINEAGE_VALUE, Reg.REFL_STAT_BUSY, Reg.REFL_STAT_DONE,
   Reg.REFL_STAT_OVERRUN, Reg.REFL_STAT_CODE, Reg.REFL_STEP_STEP,
   Reg.REFL_HOLDER_STATE0, Reg.REFL_HOLDER_PEER0, Reg.REFL_HOLDER_STATE1,
   Reg.REFL_HOLDER_PEER1, Reg.REFL_COUNT_COMMITS, Reg.REFL_COUNT_SKIPPED,
   Reg.REFL_COUNT_AGREE]

/-- Fields of chapter 18. -/
def regTable18a : List Fld :=
  [Reg.PWR_STAT_A_OK, Reg.PWR_STAT_B_OK, Reg.PWR_STAT_ON_B,
   Reg.PWR_STAT_A_WARN, Reg.PWR_STAT_B_WARN, Reg.PWR_STAT_A_DV,
   Reg.PWR_STAT_B_DV, Reg.PWR_STAT_POWER_W, Reg.PWR_STAT_STRETCH,
   Reg.PWR_EVENT_SWITCH, Reg.PWR_EVENT_FEED_WARN, Reg.PWR_EVENT_FEED_FAIL,
   Reg.PWR_EVENT_BOTH_LOST, Reg.PWR_EVENT_LIMIT, Reg.PWR_EVENT_THERM,
   Reg.PWR_EVENT_CALIB_STALE, Reg.PWR_EVENT_REFCLK_LOSS, Reg.PWR_EVENT_HUB_WDOG,
   Reg.PWR_ALERT_EN_EN, Reg.PWR_LIMIT_SUST_W, Reg.THERM_STAT_DIE_C,
   Reg.FEED_LOG_TO_B, Reg.FEED_LOG_COUNT, Reg.FEED_LOG_TIME_S,
   Reg.TIME_SCLK_COUNT, Reg.CLK_STAT_REFCLK_OK, Reg.CLK_STAT_HCLK_LOCK,
   Reg.CLUSTER_CTRL_NAP_AFTER_US, Reg.CLUSTER_CTRL_DARK_UNBOUND, Reg.CLUSTER_STATE_d_STATE]

/-- Fields of chapter 18. -/
def regTable18b : List Fld :=
  [Reg.CLUSTER_FAIL_d_FAILED, Reg.CALIB_STAT_STALE, Reg.CALIB_STAT_PASS_BUSY,
   Reg.CALIB_STAT_OVERRUN, Reg.CALIB_STAT_FILLED6, Reg.CALIB_STAT_FILLED7,
   Reg.CALIB_CMD_PASS, Reg.RESET_CTRL_KEY, Reg.RESET_CTRL_MODULE,
   Reg.RESET_CTRL_HUB_WARM, Reg.PART_RESET_MASK, Reg.TILE_RESET_INDEX,
   Reg.TILE_RESET_GO, Reg.RESET_CAUSE_CAUSE, Reg.RESET_CAUSE_COUNT,
   Reg.GLOBAL_STAT_READY, Reg.GLOBAL_STAT_STAGE, Reg.GLOBAL_STAT_FAILED]

/-- Every register field of BAR0 that a field table lists. -/
def regTable : List Fld :=
  regTable02a ++
  regTable02b ++
  regTable03a ++
  regTable03b ++
  regTable09a ++
  regTable10a ++
  regTable10b ++
  regTable11a ++
  regTable12a ++
  regTable12b ++
  regTable13a ++
  regTable14a ++
  regTable15a ++
  regTable15b ++
  regTable15c ++
  regTable16a ++
  regTable16b ++
  regTable17a ++
  regTable18a ++
  regTable18b


end Sys2Proof.Machine
end

