-- ==== Sys2Proof/Machine/TenantTypes.lean ====
section
/-!
DEFINITION. What the owner table, the SPDM connections and the Penumbra gates hold, as plain data
(13_tenants_and_joint_training.md R309, R318 to R320, R326).
-/

namespace Sys2Proof.Machine

/-- An entry of the owner table (13_tenants_and_joint_training.md R309): KIND 0 FREE, 1 SINGLE, 2 JOINT, 3 SYSTEM, its key
or hash, and INGRESS. -/
structure Owner where
  kind : Nat
  data : Bytes
  ingress : Bool
  deriving DecidableEq, Repr

/-- A FREE entry. -/
def Owner.free : Owner := { kind := 0, data := [], ingress := false }

/-- A provisioning session (13_tenants_and_joint_training.md R319, R320): the owner's index, the keys of its two
directions and the last SEQ it accepted. -/
structure ProvSession where
  owner : Nat
  keyIn : Bytes
  keyOut : Bytes
  seq : Nat
  deriving DecidableEq, Repr

/-- An SPDM connection by its transport, 0 MCTP over I3C and 1 the Pilot mailbox (13_tenants_and_joint_training.md R318):
every message of it so far, whether it has carried a signed GET_MEASUREMENTS response, its provisioning session, and the
provisioning requests not answered yet. -/
structure SpdmConn where
  transcript : Bytes
  measured : Bool
  prov : Option ProvSession
  inbox : List Bytes
  deriving DecidableEq, Repr

/-- No connection. -/
def SpdmConn.empty : SpdmConn := { transcript := [], measured := false, prov := none, inbox := [] }

/-- A gate that collects (13_tenants_and_joint_training.md R326): the step, and COUNT and FMT by owner entry of the headers
counted; `combined` holds the released payload with its FMT, SAT and NAN while it releases. -/
structure GateRun where
  step : Nat
  heads : List (Nat × Nat × Nat)
  combined : Option (Bytes × Nat × Bool × Bool)
  deriving DecidableEq, Repr

/-- The owners, the connections by transport and the gates that work on a step by number. -/
structure Tenants where
  owners : List (Nat × Owner)
  conns : List (Nat × SpdmConn)
  gates : List (Nat × GateRun)
  deriving DecidableEq, Repr

/-- The tenants at a hub start: no owner but the system owner, entry 0. -/
def Tenants.reset : Tenants :=
  { owners := [(0, { kind := 3, data := [], ingress := false })], conns := [], gates := [] }

end Sys2Proof.Machine
end

