-- ==== Sys2Proof/Machine/State.lean ====
section
/-!
DEFINITION. The state of the module: every register, memory, queue, counter, mode and pin the spec names, as
plain data, and the queue of the commands that wait. State.reset is the module right after a cold reset has
begun (18_power_clocks_and_reset.md R440, R444), waiting for REFCLK.
-/

namespace Sys2Proof.Machine

/-- Why the machine stops with a fault. No command of the table stops so: every error the spec names is an
effect on State. -/
inductive Fault where
  /-- Raised by no command; kept so that the type has an element. Safe. -/
  | none
  deriving DecidableEq, Repr

/-- Why a command has no meaning in the model. -/
inductive Refusal where
  /-- Raised by exec for a row whose meaning is not written yet, with its mnemonic. Safe. -/
  | notModelled (mnemonic : String)
  deriving DecidableEq, Repr

/-- The module. `pending` is the queue of waiting commands; `fresh` the counter at which free values are taken
(assumption log 1); `out` the outputs emitted, oldest first (assumption log 2). -/
structure State where
  pending : List Instr
  fresh : Nat
  out : List Out
  regs : List (Nat × Nat)
  tiles : List (Nat × Tile)
  fab : Fabric
  mem : Mem
  prism : Prism
  frame : FrameImage
  parts : List (Nat × Part)
  hub : Hub
  link : Link
  ten : Tenants
  pilot : Pilot
  deriving DecidableEq, Repr

/-- The module right after a cold reset has begun. -/
def State.reset : State :=
  { pending := [], fresh := 0, out := [], regs := [], tiles := [], fab := Fabric.reset, mem := Mem.reset,
    prism := Prism.reset, frame := FrameImage.builtin, parts := [], hub := Hub.reset,
    link := Link.reset, ten := Tenants.reset, pilot := Pilot.reset }

end Sys2Proof.Machine
end

