-- ==== Sys2Proof/Machine/Ops.lean ====
section
/-!
DEFINITION. The named operations over registers, free values, tiles and outputs.
-/

namespace Sys2Proof.Machine

/-- The outcome of one command. -/
abbrev Res := Host.Outcome State Fault Refusal

/-! ## Registers (00_scope.md R7 to R12) -/

/-- The key of a field's copy (i, j) in the register file: byte offset in BAR0 × 64 + low bit. -/
def Fld.key (f : Fld) (i j : Nat) : Nat := (f.base + f.s1 * i + f.s2 * j) * 64 + f.lo

/-- The width of a field in bits. -/
def Fld.width (f : Fld) : Nat := f.hi + 1 - f.lo

/-- The value a field returns to at a reset it does not survive (00_scope.md R10; logs 4 and 5). -/
def Fld.resetVal (f : Fld) (i j : Nat) : Nat :=
  match f.reset with
  | .num n => n
  | .boot => 0
  | .fuse => Config.fuseField (f.key i j) % 2 ^ f.width
  | .index => i
  | .lpddr => if i < 8 then 0 else 1

/-- A field's value. -/
def State.getF (s : State) (f : Fld) (i j : Nat) : Nat := smapGet (f.resetVal i j) s.regs (f.key i j)

/-- Set a field, cut to its width. -/
def State.setF (s : State) (f : Fld) (i j : Nat) (v : Nat) : State :=
  { s with regs := smapSet (f.resetVal i j) s.regs (f.key i j) (v % 2 ^ f.width) }

/-- A field of a register with one copy. -/
def State.get (s : State) (f : Fld) : Nat := s.getF f 0 0

/-- Set a field of a register with one copy. -/
def State.set (s : State) (f : Fld) (v : Nat) : State := s.setF f 0 0 v

/-- Add to a counter, which holds at all ones (02_fabric.md R49). -/
def State.addF (s : State) (f : Fld) (i j n : Nat) : State :=
  s.setF f i j (min (2 ^ f.width - 1) (s.getF f i j + n))

/-- Return a field to its reset value. -/
def State.resetF (s : State) (f : Fld) (i j : Nat) : State := s.setF f i j (f.resetVal i j)

/-- The copies (i, j) of a field. -/
def Fld.copies (f : Fld) : List (Nat × Nat) :=
  (List.range f.c1).flatMap fun i => (List.range f.c2).map fun j => (i, j)

/-- Set every copy of a field. -/
def State.setAllF (s : State) (f : Fld) (v : Nat) : State :=
  f.copies.foldl (fun s ij => s.setF f ij.1 ij.2 v) s

/-- Is a key of the register file a copy of this field? -/
def Fld.owns (f : Fld) (key : Nat) : Bool :=
  let d := key / 64 - f.base
  key % 64 = f.lo && f.base ≤ key / 64 && d / f.s1 < f.c1 &&
    (if f.s2 = 0 then d % f.s1 = 0 else d % f.s1 % f.s2 = 0 && d % f.s1 / f.s2 < f.c2)

/-- Every field whose Kept across column does not list a reset returns to its reset value (00_scope.md R11). -/
def State.resetRegs (s : State) (k : ResetKind) : State :=
  { s with regs := s.regs.filter fun p => regTable.any fun f => f.kept.survives k && f.owns p.1 }

/-- Every field of copy `i` whose Kept across column does not list a partition reset returns to its reset value
(00_scope.md R11; 18_power_clocks_and_reset.md R441). -/
def State.resetPartRegs (s : State) (i : Nat) : State :=
  (regTable.filter fun f => f.kept = .part).foldl (fun s f => s.resetF f i 0) s

/-! ## Free values (assumption log 1) -/

/-- The free number at the counter, below `n`. -/
def State.free (s : State) (n : Nat) : Nat := Config.freeNat s.fresh % n

/-- The state after one free value has been taken. -/
def State.tick (s : State) : State := { s with fresh := s.fresh + 1 }

/-- `n` free bytes at the counter. -/
def State.freeBytes (s : State) (n : Nat) : Bytes := (List.range n).map (Config.freeByte s.fresh)

/-! ## Outputs (assumption log 2) -/

/-- Emit an output. -/
def State.emit (s : State) (o : Out) : State := { s with out := s.out ++ [o] }

/-! ## CXL.io -/

/-- READY_OUT is high (18_power_clocks_and_reset.md R444, R447). -/
def State.readyOut (s : State) : Bool := s.get Reg.GLOBAL_STAT_READY = 1

/-- Do the hub's registers answer on CXL.io: after READY_OUT and while the hub's clock runs (18_power_clocks_and_reset.md R430, R445)? -/
def State.hubUp (s : State) : Bool := s.readyOut && s.get Reg.CLK_STAT_HCLK_LOCK = 1

/-- A request on CXL.io: before READY_OUT it gets Unsupported Request and does nothing (18_power_clocks_and_reset.md R445). -/
def State.cxlIo (s : State) (f : State → State) : State :=
  if !s.readyOut then s.emit .unsupported else if s.hubUp then f s else s

/-! ## Places (00_scope.md R15, R16; 02_fabric.md R30) -/

/-- The die of a tile. -/
def tileDie (t : Nat) : Nat := t / 384

/-- The row of a tile in its die. -/
def tileRow (t : Nat) : Nat := t % 384 / 24

/-- The column of a tile in its die. -/
def tileCol (t : Nat) : Nat := t % 24

/-- The 11-bit tile ID of a linear index (00_scope.md R15). -/
def tileId (t : Nat) : Nat := tileDie t * 512 + tileRow t * 32 + tileCol t

/-- The linear index of a tile ID (00_scope.md R16). -/
def tileOfId (x : Nat) : Nat := x / 512 * 384 + x / 32 % 16 * 24 + x % 32

/-- The cluster of a tile: die × 24 + number in the die (00_scope.md R15). -/
def tileCluster (t : Nat) : Nat := tileDie t * 24 + tileRow t / 4 * 6 + tileCol t / 4

/-- Global X of a tile (02_fabric.md R30). -/
def tileX (t : Nat) : Nat := tileDie t % 2 * 24 + tileCol t

/-- Global Y of a tile (02_fabric.md R30). -/
def tileY (t : Nat) : Nat := tileDie t / 2 * 16 + tileRow t

/-- The tile at global coordinates. -/
def tileAt (x y : Nat) : Nat := (y / 16 * 2 + x / 24) * 384 + y % 16 * 24 + x % 24

/-- The cluster at global cluster coordinates. -/
def clusterAt (cx cy : Nat) : Nat := tileCluster (tileAt (4 * cx) (4 * cy))

/-- The clusters of a rectangle. -/
def PartRect.clusters (r : PartRect) : List Nat :=
  (List.range (r.cy1 + 1 - r.cy0)).flatMap fun dy =>
    (List.range (r.cx1 + 1 - r.cx0)).map fun dx => clusterAt (r.cx0 + dx) (r.cy0 + dy)

/-- The tiles of a rectangle, in linear index order. -/
def PartRect.tiles (r : PartRect) : List Nat :=
  (List.range 1536).filter fun t =>
    r.cx0 ≤ tileX t / 4 && tileX t / 4 ≤ r.cx1 && (r.cy0 ≤ tileY t / 4 && tileY t / 4 ≤ r.cy1)

/-- The rectangle of a partition in the frame in force. -/
def State.rect (s : State) (p : Nat) : Option PartRect := s.frame.parts.find? fun r => r.part = p

/-- The partition of a tile. -/
def State.partOf (s : State) (t : Nat) : Option Nat :=
  (s.frame.parts.find? fun r =>
    r.cx0 ≤ tileX t / 4 && tileX t / 4 ≤ r.cx1 && (r.cy0 ≤ tileY t / 4 && tileY t / 4 ≤ r.cy1)).map (·.part)

/-- The tile at partition-relative coordinates. -/
def State.tileRel (s : State) (p rx ry : Nat) : Nat :=
  match s.rect p with
  | some r => tileAt (4 * r.cx0 + rx) (4 * r.cy0 + ry)
  | none => 0

/-- One partition. -/
def State.part (s : State) (p : Nat) : Part := smapGet Part.empty s.parts p

/-- Change one partition. -/
def State.updPart (s : State) (p : Nat) (f : Part → Part) : State :=
  { s with parts := smapUpd Part.empty s.parts p f }

/-- The tiles of a partition. -/
def State.partTiles (s : State) (p : Nat) : List Nat :=
  match s.rect p with
  | some r => r.tiles
  | none => []

/-- The clusters of a partition. -/
def State.partClusters (s : State) (p : Nat) : List Nat :=
  match s.rect p with
  | some r => r.clusters
  | none => []

/-! ## Cluster power states (18_power_clocks_and_reset.md R433, R447): 0 ACTIVE, 1 IDLE, 2 NAP, 3 DARK -/

/-- The state of a cluster. -/
def State.cluster (s : State) (c : Nat) : Nat :=
  s.getF Reg.CLUSTER_STATE_d_STATE (c / 24) 0 / 4 ^ (c % 24) % 4

/-- Set the state of a cluster. -/
def State.setCluster (s : State) (c v : Nat) : State :=
  let w := s.getF Reg.CLUSTER_STATE_d_STATE (c / 24) 0
  s.setF Reg.CLUSTER_STATE_d_STATE (c / 24) 0 (w - s.cluster c * 4 ^ (c % 24) + v * 4 ^ (c % 24))

/-- Did the cluster fail its self-test? -/
def State.clusterFailed (s : State) (c : Nat) : Bool := bit (s.getF Reg.CLUSTER_FAIL_d_FAILED (c / 24) 0) (c % 24)

/-! ## Tiles (04_tile_core.md R86) -/

/-- One tile. -/
def State.tile (s : State) (t : Nat) : Tile := smapGet Tile.reset s.tiles t

/-- Replace one tile. -/
def State.setTile (s : State) (t : Nat) (x : Tile) : State := { s with tiles := smapSet Tile.reset s.tiles t x }

/-- Change one tile. -/
def State.updTile (s : State) (t : Nat) (f : Tile → Tile) : State := s.setTile t (f (s.tile t))

/-- A general register: g0 reads as 0 (04_tile_core.md R86). -/
def Tile.getG (x : Tile) (r : GReg) : Word := if r = 0 then 0 else x.g[r.val]

/-- Write a general register: writes to g0 are ignored (04_tile_core.md R86). -/
def Tile.setG (x : Tile) (r : GReg) (v : Word) : Tile := if r = 0 then x else { x with g := x.g.set r.val v }

/-- A predicate: p0 reads as 1 (04_tile_core.md R86). -/
def Tile.getP (x : Tile) (i : Fin 8) : Bool := if i = 0 then true else x.p[i.val]

/-- Write a predicate: writes to p0 are ignored (04_tile_core.md R86). -/
def Tile.setP (x : Tile) (i : Fin 8) (v : Bool) : Tile := if i = 0 then x else { x with p := x.p.set i.val v }

/-- Does the guard pass (04_tile_core.md R88)? -/
def Tile.guard (x : Tile) (gd : Guard) : Bool := x.getP gd.pg != gd.pn

/-- An endpoint of a tile. -/
def Tile.ep (x : Tile) (ch : Nat) : Endpoint := smapGet Endpoint.unbound x.eps ch

/-- Change an endpoint of a tile. -/
def Tile.updEp (x : Tile) (ch : Nat) (f : Endpoint → Endpoint) : Tile :=
  { x with eps := smapUpd Endpoint.unbound x.eps ch f }

/-- Scratchpad bytes from an address. -/
def Tile.readSp (x : Tile) (a n : Nat) : Bytes := smapRead 0 x.scratch a n

/-- Write scratchpad bytes from an address. -/
def Tile.writeSp (x : Tile) (a : Nat) (b : Bytes) : Tile := { x with scratch := smapWrite 0 x.scratch a b }

/-- Advance every event counter whose source is (SRC, ARG) by `n` (04_tile_core.md R107). -/
def Tile.bump (x : Tile) (src arg n : Nat) : Tile :=
  { x with e := Vector.ofFn fun i : Fin 16 =>
      if (x.evSrc[i.val]).toNat = src + 8 * arg then x.e[i.val] + BitVec.ofNat 32 n else x.e[i.val] }

/-- The queue of a unit. -/
def Tile.queue (x : Tile) : UnitKind → List UCmd
  | .cube => x.cubeQ
  | .vector => x.vecQ
  | .mover => x.movQ

/-- Replace the queue of a unit. -/
def Tile.setQueue (x : Tile) (u : UnitKind) (q : List UCmd) : Tile :=
  match u with
  | .cube => { x with cubeQ := q }
  | .vector => { x with vecQ := q }
  | .mover => { x with movQ := q }

/-- The completion counter of a unit (04_tile_core.md R100). -/
def Tile.unitDone (x : Tile) : UnitKind → BitVec 32
  | .cube => x.cubeDone
  | .vector => x.vecDone
  | .mover => x.movDone

/-- The issue counter of a unit (04_tile_core.md R100). -/
def Tile.unitIssued (x : Tile) : UnitKind → BitVec 32
  | .cube => x.cubeIssued
  | .vector => x.vecIssued
  | .mover => x.movIssued

/-- The number of a unit in tickets and events (04_tile_core.md R100, R107). -/
def UnitKind.num : UnitKind → Nat
  | .cube => 0
  | .vector => 1
  | .mover => 2

/-- Commands a unit's queue holds, the running one included (04_tile_core.md R86). -/
def UnitKind.depth : UnitKind → Nat
  | .cube => 8
  | .vector => 8
  | .mover => 16

/-- Does FCLK run in the tile's cluster: the cluster is ACTIVE and REFCLK feeds its PLL
(18_power_clocks_and_reset.md R430, R431, R433)? -/
def State.active (s : State) (t : Nat) : Bool :=
  s.cluster (tileCluster t) = 0 && s.get Reg.CLK_STAT_REFCLK_OK = 1

/-- Is the tile executing: coded and not halted, not waiting, and in an ACTIVE cluster
(04_tile_core.md R92, R110; 18_power_clocks_and_reset.md R433)? -/
def State.runs (s : State) (t : Nat) : Bool :=
  (s.tile t).coded && !(s.tile t).halted && (s.tile t).wait.isNone && s.active t

/-- Halt a tile for good: issue stops, TILE_FAULT is written, and the queues and running commands are dropped
(04_tile_core.md R110, R111). -/
def Tile.stop (x : Tile) (cause code : Nat) : Tile :=
  { x with halted := true, stepping := false, wait := none, cause := cause, code := code, faultPc := x.pc, cubeQ := [], vecQ := [],
           movQ := [] }

/-- Put a packet on the message network. -/
def State.inject (s : State) (m : NetMsg) : State := { s with fab := { s.fab with net := s.fab.net ++ [m] } }

end Sys2Proof.Machine
end

