-- ==== Sys2Proof/Machine/Descriptor.lean ====
section
/-!
DEFINITION. The descriptors of MXI, VXI and MVI (04_tile_core.md R103 to R105): their fields, their checks in the
order of R99, and the scratchpad ranges each command writes.
-/

namespace Sys2Proof.Machine

/-- Bits of word `i` of a descriptor. -/
def dw (d : List Word) (i hi lo : Nat) : Nat := bitsOf (d.getD i 0).toNat hi lo

/-- One bit of word `i` of a descriptor. -/
def db (d : List Word) (i b : Nat) : Bool := bit (d.getD i 0).toNat b

/-- The size of the scratchpad in bytes. -/
def spSize : Nat := 0x200000

/-- The result of a check: no fault, or the first code. -/
abbrev Check := Option Nat

/-- The code when a condition is broken. -/
def need (ok : Bool) (code : Nat) : Check := if ok then none else some code

/-- The first failing check of a list. -/
def firstFail (l : List Check) : Check := l.findSome? id

/-! ## MXI -/

/-- The pair classes of R123 (05_matrix_array.md). -/
inductive PairClass where
  | fp4 | int4 | f8 | int8 | f16 | fp32 | bits | refused
  deriving DecidableEq, Repr

/-- Formats of the 8-bit float class. -/
def isF8 (c : Nat) : Bool := 4 ≤ c && c ≤ 0x0A

/-- BF16 or FP16. -/
def isF16 (c : Nat) : Bool := c = 2 || c = 3

/-- The float semiring formats (05_matrix_array.md R126). -/
def isSemiF (c : Nat) : Bool := 2 ≤ c && c ≤ 5

/-- The class of a pair in a mode (05_matrix_array.md R123, R126). -/
def pairClass (mode a b : Nat) : PairClass :=
  match mode with
  | 0 =>
    if a = 0x0A && b = 0x0A then .fp4
    else if a = 0x12 && b = 0x12 then .int4
    else if isF8 a && isF8 b then .f8
    else if (a = 0x11 || a = 0x12) && (b = 0x11 || b = 0x12) then .int8
    else if (isF16 a && (isF16 b || isF8 b)) || (isF16 b && isF8 a) then .f16
    else if a = 1 && b = 1 then .fp32
    else .refused
  | 5 => if a = 0x13 && b = 0x13 then .bits else .refused
  | 6 => if a = 0x11 && b = 0x11 then .int8 else .refused
  | m =>
    if m ≤ 4 then
      if isSemiF a && isSemiF b then .f16 else if a = 0x11 && b = 0x11 then .int8 else .refused
    else .refused

/-- Does the pair sum into INT32? -/
def PairClass.isInt : PairClass → Bool
  | .int4 => true
  | .int8 => true
  | .bits => true
  | _ => false

/-- Bytes of one block row of a stored matrix with `c` columns (05_matrix_array.md R128). -/
def brb (fm : Fmt) (c : Nat) : Nat :=
  ceilDiv c 32 * 128 * fm.bits + (if fm.isMx then roundUp (32 * ceilDiv c 32) 64 else 0)

/-- A format that a command's output or E may have: every code but CPAIR (06_accumulation_and_numerics.md R145). -/
def dataFmt (code : Nat) : Bool := (fmtOf code).isSome && code ≠ 0x18

/-- A format code's width-only stand-in for an unlisted code, which check 1 has already refused. -/
def fmtD (code : Nat) : Fmt := (fmtOf code).getD .bin1

/-- M′ (05_matrix_array.md R133). -/
def effM (d : List Word) : Nat :=
  let m := dw d 1 16 0
  if db d 0 19 then max 32 (roundUp m 16) else roundUp m 8

/-- N′ (05_matrix_array.md R133). -/
def effN (d : List Word) : Nat :=
  let n := dw d 1 29 17
  if db d 0 20 then max 32 (roundUp n 16) else roundUp n 16

/-- Bytes of a sum (05_matrix_array.md R135). -/
def sumBytes (d : List Word) : Nat := if db d 0 25 then 8 else 4

/-- Is the accumulator range in the full layout (05_matrix_array.md R135)? -/
def fullLayout (d : List Word) : Bool := !db d 0 26 || dw d 0 24 23 = 1

/-- The accumulator footprint in bytes (05_matrix_array.md R135). -/
def accFoot (d : List Word) : Nat :=
  let m := effM d; let n := effN d
  let tm := min m 128; let tn := min n 128
  roundUp (if fullLayout d then m * n * sumBytes d
    else if m ≤ 128 && n ≤ 128 then tm * tn * sumBytes d else 2 * tm * tn * sumBytes d) 4096

/-- Stored rows and columns of A (05_matrix_array.md R128). -/
def shapeA (d : List Word) : Nat × Nat :=
  if db d 0 19 then (dw d 1 42 30, dw d 1 16 0) else (dw d 1 16 0, dw d 1 42 30)

/-- Stored rows and columns of B (05_matrix_array.md R128). -/
def shapeB (d : List Word) : Nat × Nat :=
  if db d 0 20 then (dw d 1 29 17, dw d 1 42 30) else (dw d 1 42 30, dw d 1 29 17)

/-- Check 3 of a scratchpad operand (05_matrix_array.md R129). R99 gives 0x0305 to a field outside its stated range and R109 gives
0x0306 to a misaligned scratchpad address; the model takes 0x0306 for an operand address that is no multiple of 64 (log 124). -/
def blockedFits (addr stride code rows cols : Nat) : Check :=
  let b := brb (fmtD code) cols
  need (aligned addr 64 && b ≤ stride &&
    ((addr : Int) + ((ceilDiv rows 32 : Int) - 1) * (stride : Int) + (b : Int) - 1 < (spSize : Int))) 0x0306

/-- Check 2 of an endpoint operand: its kind. -/
def epKind (x : Tile) (ch : Nat) (k : EpKind) : Check := need ((x.ep ch).kind = k) 0x0302

/-- Check 3 of a SIN operand (05_matrix_array.md R131). -/
def ringFits (x : Tile) (ch code rows cols : Nat) : Check :=
  need (ceilDiv rows 32 * brb (fmtD code) cols ≤ (x.ep ch).ringSize) 0x0306

/-- An address word whose operand is an endpoint keeps only the endpoint (04_tile_core.md R103). -/
def epWord (d : List Word) (i : Nat) : Bool := dw d i 20 6 = 0 && dw d i 41 21 = 0

/-- Check 1 of MXI: reserved bits and fields outside their range (04_tile_core.md R99, R103; 05_matrix_array.md R123,
R126, R127). -/
def mxiCheck1 (d : List Word) : Check :=
  let mode := dw d 0 2 0; let fa := dw d 0 10 3; let fb := dw d 0 18 11
  let cls := pairClass mode fa fb
  let epi := db d 0 26
  firstFail [
    need (dw d 0 63 29 = 0 && dw d 1 63 43 = 0 && dw d 2 63 42 = 0 && dw d 3 63 42 = 0 && dw d 4 63 13 = 0) 0x0305,
    need (mode ≤ 6 && dw d 0 24 23 ≤ 1 && dw d 1 16 0 ≤ 65536 && dw d 1 29 17 ≤ 4096 && dw d 1 42 30 ≤ 4096) 0x0305,
    need (cls ≠ .refused) 0x0305,
    need (!db d 0 25 || (mode ≤ 2 && !cls.isInt)) 0x0305,
    need (if db d 0 21 then epWord d 2 else aligned (dw d 2 41 21) 64) 0x0305,
    need (if db d 0 22 then epWord d 3 else aligned (dw d 3 41 21) 64) 0x0305,
    need (1 ≤ dw d 4 12 6 && dw d 4 12 6 ≤ 64) 0x0305,
    (if epi then
      firstFail [
        need (dw d 5 63 16 = 0 && dw d 6 63 50 = 0 && dw d 7 63 42 = 0) 0x0305,
        need (dw d 5 1 0 ≤ 2 && dw d 5 11 10 ≤ 2 && dataFmt (dw d 5 9 2)) 0x0305,
        need (if dw d 5 1 0 = 0 then dw d 6 63 0 = 0 else dataFmt (dw d 6 28 21) && aligned (dw d 6 49 29) 64) 0x0305,
        need (if db d 5 14 then epWord d 7 else aligned (dw d 7 41 21) 64) 0x0305]
    else need (dw d 5 63 0 = 0 && dw d 6 63 0 = 0 && dw d 7 63 0 = 0) 0x0305)]

/-- Check 2 of MXI: endpoints (04_tile_core.md R99). -/
def mxiCheck2 (x : Tile) (d : List Word) : Check :=
  firstFail [
    if db d 0 21 then epKind x (dw d 2 5 0) .sin else none,
    if db d 0 22 then epKind x (dw d 3 5 0) .sin else none,
    if db d 0 26 && db d 5 14 then epKind x (dw d 7 5 0) .sout else none]

/-- Check 3 of MXI: ranges (04_tile_core.md R99, R103; 05_matrix_array.md R129, R131). -/
def mxiCheck3 (x : Tile) (d : List Word) : Check :=
  let (ra, ca) := shapeA d; let (rb, cb) := shapeB d
  let fa := dw d 0 10 3; let fb := dw d 0 18 11
  let m := dw d 1 16 0; let n := dw d 1 29 17
  firstFail [
    (if db d 0 21 then ringFits x (dw d 2 5 0) fa ra ca else blockedFits (dw d 2 20 0) (dw d 2 41 21) fa ra ca),
    (if db d 0 22 then ringFits x (dw d 3 5 0) fb rb cb else blockedFits (dw d 3 20 0) (dw d 3 41 21) fb rb cb),
    (if db d 0 26 && dw d 5 1 0 ≠ 0 then blockedFits (dw d 6 20 0) (dw d 6 49 29) (dw d 6 28 21) m n else none),
    (if db d 0 26 && !db d 5 14 then blockedFits (dw d 7 20 0) (dw d 7 41 21) (dw d 5 9 2) m n else none),
    need (dw d 4 5 0 + dw d 4 12 6 ≤ 64 && accFoot d ≤ dw d 4 12 6 * 4096 &&
      (dw d 4 5 0 + dw d 4 12 6) * 4 ≤ x.accKib) 0x0306]

/-! ## VXI -/

/-- The class of an operation (07_vector_engine.md R176). -/
inductive VClass where
  | a | s | r | rs | p | n
  deriving DecidableEq, Repr

/-- An operation code's operand roles X, Y, Z (0 unused, 1 per-element, 2 per-group) and its class
(07_vector_engine.md R176). -/
def vOp (op : Nat) : Option (Nat × Nat × Nat × VClass) :=
  match op with
  | 0x01 => some (1, 1, 0, .a) | 0x02 => some (1, 1, 0, .a) | 0x03 => some (1, 1, 0, .a)
  | 0x04 => some (1, 1, 1, .a) | 0x05 => some (1, 1, 0, .a) | 0x06 => some (1, 0, 0, .a)
  | 0x07 => some (1, 1, 0, .a) | 0x08 => some (1, 1, 0, .a) | 0x09 => some (1, 0, 0, .a)
  | 0x0A => some (1, 0, 0, .a) | 0x0B => some (1, 0, 0, .a) | 0x0C => some (1, 1, 0, .a)
  | 0x10 => some (1, 0, 0, .a) | 0x11 => some (1, 1, 1, .a) | 0x12 => some (1, 1, 0, .a)
  | 0x20 => some (1, 0, 0, .s) | 0x21 => some (1, 0, 0, .s) | 0x22 => some (1, 0, 0, .s)
  | 0x23 => some (1, 0, 0, .s) | 0x24 => some (1, 0, 0, .s) | 0x25 => some (1, 0, 0, .s)
  | 0x26 => some (1, 0, 0, .s) | 0x27 => some (1, 0, 0, .s) | 0x28 => some (1, 0, 0, .s)
  | 0x29 => some (1, 1, 0, .s) | 0x2A => some (1, 1, 0, .s)
  | 0x30 => some (1, 0, 0, .r) | 0x31 => some (1, 0, 0, .r) | 0x32 => some (1, 1, 0, .r)
  | 0x33 => some (1, 0, 0, .r) | 0x34 => some (1, 0, 0, .r) | 0x35 => some (1, 2, 0, .rs)
  | 0x38 => some (1, 2, 2, .a) | 0x39 => some (1, 2, 0, .a) | 0x3A => some (1, 2, 2, .s)
  | 0x40 => some (1, 1, 0, .p) | 0x41 => some (1, 0, 0, .p)
  | 0x50 => some (0, 0, 0, .n) | 0x51 => some (0, 0, 0, .n) | 0x52 => some (1, 0, 0, .n)
  | _ => none

/-- Does the operation use the group length and period of R177? -/
def vGrouped (op : Nat) : Bool := (0x30 ≤ op && op ≤ 0x35) || (0x38 ≤ op && op ≤ 0x3A)

/-- Is it a reduction, whose output has one element per group? -/
def vReduces (op : Nat) : Bool := 0x30 ≤ op && op ≤ 0x35

/-- An FP32 word that is exactly an integer from 0 to 8,192 (07_vector_engine.md R177). -/
def f32Small (w : Nat) : Option Nat :=
  if (fFP32.decode w).2.2 then none
  else match f32Val w with
    | .nan => none
    | .num neg m e =>
      if m = 0 then some 0
      else if neg then none
      else if 0 ≤ e then
        if e ≤ 14 && m * 2 ^ e.toNat ≤ 8192 then some (m * 2 ^ e.toNat) else none
      else if m % 2 ^ (-e).toNat = 0 && m / 2 ^ (-e).toNat ≤ 8192 then some (m / 2 ^ (-e).toNat) else none

/-- Bytes that n elements of a format take from an address (07_vector_engine.md R172, R181). -/
def vBytes (fm : Fmt) (n : Nat) : Nat :=
  if fm.isMx then ceilDiv (n * fm.bits) 512 * 64 + roundUp (ceilDiv n 32) 64 else ceilDiv (n * fm.bits) 8

/-- Elements of an operand in a role (07_vector_engine.md R171, R177). -/
def vCount (d : List Word) (role : Nat) : Nat :=
  let count := dw d 0 21 8
  let g := (f32Small (dw d 6 31 0)).getD 1
  let p := (f32Small (dw d 6 63 32)).getD 0
  if role = 2 then (if p = 0 then count / max g 1 else p) else count

/-- Output elements (07_vector_engine.md R177, R181). -/
def vOutCount (d : List Word) : Nat :=
  let op := dw d 0 7 0
  if vReduces op then vCount d 2 else if op = 0x40 then 2 * dw d 0 21 8 else dw d 0 21 8

/-- Is the operand scalar? -/
def vScalar (d : List Word) (i : Nat) : Bool := db d i 31

/-- Check 1 of one operand word: used operands are supplied, unused are absent (07_vector_engine.md R171, R176, R181;
04_tile_core.md R104). -/
def vOperand1 (d : List Word) (i role : Nat) : Check :=
  let kind := dw d i 1 0; let fmt := dw d i 9 2; let op := dw d 0 7 0
  if role = 0 then need (kind = 0 && !vScalar d i && dw d i 63 32 = 0) 0x0305
  else if vScalar d i then need (dw d i 30 0 = 0) 0x0305
  else firstFail [
    need (kind ≠ 0 && dw d i 63 32 = 0) 0x0305,
    need (kind ≠ 2 || (role = 1 && dw d i 30 16 = 0)) 0x0305,
    need (kind ≠ 3 || dw d i 30 28 = 0) 0x0305,
    need (if kind = 3 then fmt = 1 || fmt = 0x10 || fmt = 0x18 else dataFmt fmt) 0x0305,
    need (!(op = 0x40 || op = 0x41) || (if kind = 3 then fmt = 0x18 else fmt = 1)) 0x0305]

/-- Check 1 of VXI (04_tile_core.md R99, R104; 07_vector_engine.md R170 to R183). -/
def vxiCheck1 (d : List Word) : Check :=
  let op := dw d 0 7 0
  let c0 := dw d 6 31 0; let c1 := dw d 6 63 32
  match vOp op with
  | none => some 0x0305
  | some (rx, ry, rz, cls) =>
    firstFail [
      need (dw d 0 63 31 = 0 && dw d 4 63 31 = 0 && dw d 5 63 21 = 0 && dw d 7 63 0 = 0) 0x0305,
      need (dw d 0 21 8 ≤ 8192 && dw d 0 23 22 ≤ 2 && dw d 0 25 24 ≤ 2) 0x0305,
      vOperand1 d 1 rx, vOperand1 d 2 ry, vOperand1 d 3 rz,
      need (dw d 4 1 0 = 1 || (dw d 4 1 0 = 2 && dw d 4 30 16 = 0)) 0x0305,
      need (dataFmt (dw d 4 9 2)) 0x0305,
      need (dw d 0 23 22 ≠ 0 || dw d 5 20 0 = 0) 0x0305,
      need (dw d 0 23 22 ≠ 1 || (dw d 4 1 0 = 1 && !(fmtD (dw d 4 9 2)).isMx)) 0x0305,
      need (!vGrouped op || (match f32Small c0, f32Small c1 with
        | some g, some p => 1 ≤ g && (if p = 0 then dw d 0 21 8 % g = 0 else dw d 0 21 8 % (g * p) = 0)
        | _, _ => false)) 0x0305,
      need (op ≠ 0x0A || !ExNum.lt (f32Given c1) (f32Given c0)) 0x0305,
      need (op ≠ 0x40 || (dw d 4 9 2 = 1 && dw d 0 25 24 = 0)) 0x0305,
      need (cls ≠ .n || dw d 0 25 24 ≠ 2) 0x0305,
      need (op ≠ 0x50 || ExNum.lt (f32Given c0) (f32Given c1)) 0x0305,
      need (!(op = 0x51 || op = 0x52) || (ExNum.le ExNum.zero (f32Given c0) && ExNum.le (f32Given c0) (ExNum.ofInt 1)))
        0x0305]

/-- Check 2 of one operand. -/
def vOperand2 (x : Tile) (d : List Word) (i role : Nat) : Check :=
  if role ≠ 0 && !vScalar d i && dw d i 1 0 = 2 then epKind x (dw d i 15 10) .sin else none

/-- Check 2 of VXI. -/
def vxiCheck2 (x : Tile) (d : List Word) : Check :=
  match vOp (dw d 0 7 0) with
  | none => none
  | some (rx, ry, rz, _) =>
    firstFail [vOperand2 x d 1 rx, vOperand2 x d 2 ry, vOperand2 x d 3 rz,
      if dw d 4 1 0 = 2 then epKind x (dw d 4 15 10) .sout else none]

/-- Bytes of an operand's elements: a pair operand of CPADD or CPROUND in FP32 has two words each
(07_vector_engine.md R181). -/
def vOperandBytes (d : List Word) (i role : Nat) : Nat :=
  let op := dw d 0 7 0
  let n := vCount d role
  vBytes (fmtD (dw d i 9 2)) (if (op = 0x40 || op = 0x41) && dw d i 1 0 ≠ 3 then 2 * n else n)

/-- Is an address of KIND 1 aligned for its format (07_vector_engine.md R172)? -/
def vAligned (fm : Fmt) (addr : Nat) : Bool :=
  if fm.isMx then aligned addr 64 else if 8 ≤ fm.bits then aligned addr (fm.bits / 8) else true

/-- Check 3 of one operand (07_vector_engine.md R172 to R174): a SIN operand may be longer than its ring (log 59). -/
def vOperand3 (x : Tile) (d : List Word) (i role : Nat) : Check :=
  let fm := fmtD (dw d i 9 2)
  if role = 0 || vScalar d i then none
  else match dw d i 1 0 with
    | 1 => need (vAligned fm (dw d i 30 10) && dw d i 30 10 + vOperandBytes d i role ≤ spSize) 0x0306
    | 2 => none
    | _ => need (aligned (dw d i 27 10) (if fm = .cpair then 8 else 4) &&
        dw d i 27 10 + vOperandBytes d i role ≤ x.accKib * 1024) 0x0306

/-- Check 3 of VXI. -/
def vxiCheck3 (x : Tile) (d : List Word) : Check :=
  match vOp (dw d 0 7 0) with
  | none => none
  | some (rx, ry, rz, _) =>
    let fm := fmtD (dw d 4 9 2)
    firstFail [vOperand3 x d 1 rx, vOperand3 x d 2 ry, vOperand3 x d 3 rz,
      (if dw d 4 1 0 = 1 then
        need (vAligned fm (dw d 4 30 10) && dw d 4 30 10 + vBytes fm (vOutCount d) ≤ spSize) 0x0306 else none),
      (if dw d 0 23 22 ≠ 0 then
        need (aligned (dw d 5 20 0) 8 && dw d 5 20 0 + ceilDiv (dw d 0 21 8) 8 ≤ spSize) 0x0306 else none)]

/-! ## MVI -/

/-- The byte after the last of a scratchpad range of rows (04_tile_core.md R105). -/
def rowsEnd (addr stride bytes rows : Nat) : Nat :=
  if bytes = 0 || rows = 0 then addr else addr + (rows - 1) * stride + bytes

/-- Check 1 of MVI (04_tile_core.md R99, R105). -/
def mviCheck1 (d : List Word) : Check :=
  let k := dw d 0 2 0
  let mem := k = 0 || k = 1 || k = 5
  firstFail [
    need (dw d 0 63 5 = 0 && dw d 2 63 48 = 0 && dw d 3 63 40 = 0 && dw d 4 63 48 = 0 && dw d 5 63 42 = 0 &&
      dw d 6 63 0 = 0 && dw d 7 63 0 = 0) 0x0305,
    need (k ≤ 5) 0x0305,
    need (k = 3 || k = 5 || !db d 0 4) 0x0305,
    need (mem || (dw d 1 63 0 = 0 && dw d 4 47 0 = 0)) 0x0305,
    need (k ≠ 5 || (dw d 2 20 0 = 0 && dw d 5 20 0 = 0)) 0x0305,
    need (k = 2 || (dw d 2 41 21 = 0 && dw d 5 41 21 = 0)) 0x0305,
    need (k = 3 || k = 4 || k = 5 || dw d 2 47 42 = 0) 0x0305,
    need (aligned (dw d 1 63 0) 64 && aligned (dw d 2 20 0) 64 && aligned (dw d 2 41 21) 64 &&
      aligned (dw d 3 23 0) 64 && aligned (dw d 4 47 0) 64 && aligned (dw d 5 20 0) 64 &&
      aligned (dw d 5 41 21) 64) 0x0305]

/-- Check 2 of MVI. -/
def mviCheck2 (x : Tile) (d : List Word) : Check :=
  match dw d 0 2 0 with
  | 3 => epKind x (dw d 2 47 42) .sout
  | 4 => epKind x (dw d 2 47 42) .sin
  | 5 => epKind x (dw d 2 47 42) .sout
  | _ => none

/-- Check 3 of MVI. -/
def mviCheck3 (d : List Word) : Check :=
  firstFail [
    need (dw d 0 2 0 = 5 || rowsEnd (dw d 2 20 0) (dw d 5 20 0) (dw d 3 23 0) (dw d 3 39 24) ≤ spSize) 0x0306,
    need (dw d 0 2 0 ≠ 2 || rowsEnd (dw d 2 41 21) (dw d 5 41 21) (dw d 3 23 0) (dw d 3 39 24) ≤ spSize) 0x0306]

/-- The checks of a descriptor in the order of R99 (04_tile_core.md). -/
def descCheck (x : Tile) (u : UnitKind) (d : List Word) : Check :=
  match u with
  | .cube => firstFail [mxiCheck1 d, mxiCheck2 x d, mxiCheck3 x d]
  | .vector => firstFail [vxiCheck1 d, vxiCheck2 x d, vxiCheck3 x d]
  | .mover => firstFail [mviCheck1 d, mviCheck2 x d, mviCheck3 d]

/-- Is the command a no-op (04_tile_core.md R102)? -/
def isNoop (u : UnitKind) (d : List Word) : Bool :=
  match u with
  | .cube => dw d 1 16 0 = 0 || dw d 1 29 17 = 0
  | .vector => dw d 0 21 8 = 0
  | .mover => dw d 3 23 0 = 0 || dw d 3 39 24 = 0

/-- Row ranges (address, bytes). -/
def rowRanges (addr stride bytes rows : Nat) : List (Nat × Nat) :=
  (List.range rows).map fun r => (addr + r * stride, bytes)

end Sys2Proof.Machine
end

