-- ==== Sys2Proof/Machine/Paths.lean ====
section
/-!
DEFINITION. The paths of messages and of memory requests over the grid, the die edges and bridges they cross, the edge cipher
and the bits of a packet (02_fabric.md R30, R32, R40 to R43, R48, R469). An edge direction is edge × 2 + direction, and
the bridge of die d is number 4 + d, with direction 0 towards the hub.
-/

namespace Sys2Proof.Machine

/-! ## Paths (R32, R41, R42, R469) -/

/-- The edge directions that an X-first route crosses (02_fabric.md R32, R41). -/
def routeEdges (x0 y0 x1 y1 : Nat) : List Nat :=
  let h := if x0 < 24 && 24 ≤ x1 then [0] else if x1 < 24 && 24 ≤ x0 then [1] else []
  let v := if y0 < 16 && 16 ≤ y1 then [0] else if y1 < 16 && 16 ≤ y0 then [1] else []
  (h.map fun d => (if y0 < 16 then 0 else 2) + d) ++ v.map fun d => (if x1 < 24 then 4 else 6) + d

/-- The attach point of an HBM3E controller for a request from row `y` (02_fabric.md R469). -/
def attachAt (n y : Nat) : Nat × Nat :=
  let d := n / 2
  let lo := d / 2 * 16 + n % 2 * 8
  (if d % 2 = 0 then 0 else 47, if y < lo then lo else if lo + 7 < y then lo + 7 else y)

/-- The two directions of the bridge of a die, the request's first (R42). -/
def bridgeOut (d : Nat) : List Nat := [8 + 2 * d, 8 + 2 * d + 1]

/-- The edge and bridge directions a tile's requests to a controller and their responses cross: over die edges to an HBM3E
controller, over the bridge of the tile's die to an LPDDR5X controller (02_fabric.md R42, R469). -/
def memEdges (t n : Nat) : List Nat :=
  if n < 8 then
    let (ax, ay) := attachAt n (tileY t)
    routeEdges (tileX t) (tileY t) ax ay ++ routeEdges ax ay (tileX t) (tileY t)
  else bridgeOut (tileDie t)

/-- The directions that a request of the hub to a controller and its response cross: the bridge of an HBM3E controller's die, and
none to an LPDDR5X controller, which the hub die holds (R42). -/
def hubVia (n : Nat) : List Nat := if n < 8 then (bridgeOut (n / 2)).reverse else []

/-- The directions that a request of controller `n` to controller `m` and its response cross: die edges between HBM3E controllers,
and a bridge to or from the hub die (R41, R42, R469). -/
def ctrlVia (n m : Nat) : List Nat :=
  if n = m then []
  else if n < 8 && m < 8 then
    let a := attachAt n 0
    let b := attachAt m a.2
    routeEdges a.1 a.2 b.1 b.2 ++ routeEdges b.1 b.2 a.1 a.2
  else if n < 8 then bridgeOut (n / 2) else hubVia m

/-! ## Failed edges (R48) -/

/-- Has an edge or a bridge failed? -/
def State.edgeDown (s : State) (e : Nat) : Bool := s.fab.down.contains e

/-- Does a path cross a failed edge or bridge? -/
def State.pathDown (s : State) (eds : List Nat) : Bool := eds.any fun e => s.edgeDown (e / 2)

/-! ## Transfer units (R41, R43) -/

/-- The nonce of a transfer unit: sequence number, edge or bridge number, direction (R43). -/
def edgeNonce (ed seq : Nat) : Bytes := leBytes 8 seq ++ leBytes 1 (ed / 2) ++ leBytes 1 (ed % 2) ++ zeros 2

/-- A transfer unit as it crosses: 64 bytes of ciphertext and the tag cut to 64 bits (R43). The CRC-16 beside them has no
polynomial in the spec and is left out (log 113). -/
def sealUnit (key : Bytes) (ed seq : Nat) (unit : Bytes) : Bytes := (Config.gcmSeal key (edgeNonce ed seq) [] (fit 64 unit)).take 72

/-- `n` transfer units cross an edge or bridge direction, the last of them holding `unit`: they take sequence numbers, end a run
of failed replays, leave the last one's ciphertext on the wire (R41, R43; 01_module_overview.md R19), and count while
FAB_CTRL lets the global counters count (R49). Directions 8 to 15 are the bridges', which have no counter. -/
def State.carry (s : State) (ed n : Nat) (unit : Bytes) : State :=
  let q := smapGet 0 s.fab.seqs ed + n
  let s := { s with fab := { s.fab with
    seqs := smapSet 0 s.fab.seqs ed q, replays := if n = 0 then s.fab.replays else smapSet 0 s.fab.replays ed 0,
    wire := if n = 0 then s.fab.wire
      else smapInsert s.fab.wire ed (sealUnit (smapGet [] s.fab.keys ed) ed (q - 1) unit) } }
  if ed < 8 && s.get Reg.FAB_CTRL_CNT_EN = 1 && s.get Reg.FAB_CTRL_CNT_FREEZE = 0 then s.addF Reg.FAB_EDGE_FLITS ed 0 n else s

/-- Packets of the message or the memory network cross the directions of a path: how they are packed into units is the
module's choice, so the number of units and what the last one holds beside them are free (02_fabric.md R41, R50; log 1). -/
def State.countEdges (s : State) (eds : List Nat) : State :=
  eds.foldl (fun s e => (s.carry e (s.free (2 ^ 16)) (s.freeBytes 64)).tick) s

/-- The hub draws a 256-bit key for a direction, whose sequence numbers begin at 0 (R43; log 1). -/
def State.drawEdgeKey (s : State) (ed : Nat) : State :=
  { s with fab := { s.fab with seqs := smapSet 0 s.fab.seqs ed 0, keys := smapSet [] s.fab.keys ed (s.freeBytes 32) } }.tick

/-! ## Packets (R40) -/

/-- KIND of a packet: 0 channel data, 1 credit return, 2 error report, 3 hub command (R40). What the hub sends to a tile, a
reply and a stop, is a hub command (log 114). -/
def NetMsg.kindCode (m : NetMsg) : Nat := match m.kind with
  | .data => 0
  | .credit => 1
  | .report => 2
  | _ => 3

/-- Is the packet for the hub? A credit between tiles carries code 1, one of the hub 0. -/
def NetMsg.toHub (m : NetMsg) : Bool := match m.kind with
  | .report => true
  | .request _ => true
  | _ => false

/-- Comes the packet from the hub? -/
def NetMsg.fromHub (m : NetMsg) : Bool := match m.kind with
  | .reply => true
  | .stop => true
  | .credit => m.code = 0
  | _ => false

/-- The edge and bridge directions on a packet's way (R32, R42). -/
def NetMsg.edges (m : NetMsg) : List Nat :=
  if m.toHub then [8 + 2 * tileDie m.srcTile]
  else if m.fromHub then [8 + 2 * tileDie m.dstTile + 1]
  else routeEdges (tileX m.srcTile) (tileY m.srcTile) (tileX m.dstTile) (tileY m.dstTile)

/-- The header flit of a packet (R40); `part` is the partition of the source tile. The packets of the hub name tile 0 as their
source (log 114). -/
def NetMsg.header (m : NetMsg) (part : Nat) : Nat :=
  (if m.toHub then 0 else tileId m.dstTile + m.dstEp * 2 ^ 11) + tileId m.srcTile * 2 ^ 17 + m.srcEp * 2 ^ 28 +
    min 8 m.words.length * 2 ^ 34 + part * 2 ^ 38 + (if m.toHub then 2 ^ 43 else 0) + m.kindCode * 2 ^ 44 +
    (m.words.headD 0).toNat * 2 ^ 64

/-- The 128-bit flits of a packet: the header with word 0, then words 1 to 7 two to a flit, the lower-numbered word in the
low half (R40). -/
def NetMsg.flits (m : NetMsg) (part : Nat) : List Nat :=
  m.header part :: ((chunks 2 ((m.words.take 8).drop 1)).map fun w => (w.getD 0 0).toNat + (w.getD 1 0).toNat * 2 ^ 64)

end Sys2Proof.Machine
end

