-- ==== Sys2Proof/Machine/Tree.lean ====
section
/-!
DEFINITION. The counter tree of a controller: its nodes in memory and in the counter cache, their digests, and the eviction of a
changed node (12_prism_memory_protection.md R287 to R290). Whether a node verifies is not computed: a failure is an event of
the access (16_reliability_and_integrity.md R394), and without one the digests match.
-/

namespace Sys2Proof.Machine

/-! ## The shape of a tree (R288, R290) -/

/-- The sector slots of a controller, which are its leaves. -/
def leafCount (c : Nat) : Nat := if c < 8 then 41 * 2 ^ 18 else 220 * 2 ^ 18

/-- The nodes of a level. -/
def levelCount (c : Nat) : Nat → Nat
  | 0 => leafCount c
  | k + 1 => ceilDiv (levelCount c k) 8

/-- The highest stored level; the root stands one above it. -/
def topLevel (c : Nat) : Nat := if c < 8 then 7 else 8

/-- The controller whose tag region holds the second copy of an upper node. -/
def partner (c : Nat) : Nat := if c < 8 then (c + 2) % 8 else 8 + (c - 7) % 4

/-- The digest of a node under a tree key, 8 bytes: the first 64 bits of AES-256-CMAC over the descriptor and the node. -/
def nodeDigest (key c level index : Nat) (b : Bytes) : Bytes :=
  let mac := Config.cmac256 key (leBytes 1 c ++ leBytes 1 level ++ leBytes 8 index ++ zeros 5 ++ [2] ++ b)
  (List.range 8).map fun i => mac.getD i 0

/-- A node as Floodlight INIT computes it: a leaf of zero counters, and above it the digests of the children that exist
(R287, R288). -/
def initNode (key c : Nat) : Nat → Nat → Bytes
  | 0, _ => zeros 64
  | k + 1, j => (List.range 8).flatMap fun i =>
      if 8 * j + i < levelCount c k then nodeDigest key c k (8 * j + i) (initNode key c k (8 * j + i)) else zeros 8

/-- The key of a stored copy of a node: the controller that holds it, the tree, the level and the index. -/
def nodeKey (holder c level index : Nat) : Nat := ((holder * 16 + c) * 16 + level) * 2 ^ 32 + index

/-! ## Nodes -/

/-- The tree key of a controller. -/
def Prism.treeKey (p : Prism) (c : Nat) : Nat := smapGet 0 p.treeKeys c

/-- A copy of a node in memory, or the root on the die. -/
def Prism.copyOf (p : Prism) (holder c level index : Nat) : Bytes :=
  match smapGet [] p.nodes (nodeKey holder c level index) with
  | [] => initNode (p.treeKey c) c level index
  | b => b

/-- Store a node: a leaf and the root once, an upper node in both copies (R290). -/
def Prism.storeNode (p : Prism) (c level index : Nat) (b : Bytes) : Prism :=
  let l := smapInsert p.nodes (nodeKey c c level index) b
  { p with nodes := if level = 0 || topLevel c < level then l else smapInsert l (nodeKey (partner c) c level index) b }

/-- The entries of an instance's counter cache. -/
def Prism.entries (p : Prism) (c : Nat) : List CacheEntry := smapGet [] p.cache c

/-- A node in the counter cache. -/
def Prism.entry? (p : Prism) (c level index : Nat) : Option CacheEntry :=
  (p.entries c).find? fun e => e.level = level && e.index = index

/-- Take a node out of the counter cache. -/
def Prism.dropEntry (p : Prism) (c level index : Nat) : Prism :=
  { p with cache := smapUpd [] p.cache c fun l => l.filter fun e => !(e.level = level && e.index = index) }

/-- Put an entry into the counter cache in place of the one of its node. -/
def Prism.putEntry (p : Prism) (c : Nat) (e : CacheEntry) : Prism :=
  { p with cache := smapUpd [] p.cache c fun l => l.filter (fun x => !(x.level = e.level && x.index = e.index)) ++ [e] }

/-- Write the digest of a child into its slot of a node's bytes. -/
def setDigest (b : Bytes) (child : Nat) (d : Bytes) : Bytes :=
  b.take (8 * (child % 8)) ++ d ++ b.drop (8 * (child % 8) + 8)

/-- The digest of a node goes into its parent: the root on the die, or a cached node, which becomes dirty (R289). -/
def Prism.toParent (p : Prism) (c level index : Nat) (b : Bytes) : Prism :=
  let d := nodeDigest (p.treeKey c) c level index b
  if level = topLevel c then p.storeNode c (level + 1) 0 (setDigest (p.copyOf c c (level + 1) 0) index d)
  else match p.entry? c (level + 1) (index / 8) with
    | some e => p.putEntry c { e with data := setDigest e.data index d, dirty := true }
    | none => p

/-- Bring a node into a counter cache of 32,768 entries, its parent first. A full cache evicts an entry, which one is free; a
dirty one is stored and its digest goes into its parent, which is brought in (R289, R290). `use` numbers the free choice
and the first argument bounds the work. -/
def Prism.bring : Nat → Nat → Prism → Nat → Nat → Nat → Prism
  | 0, _, p, _, _, _ => p
  | n + 1, use, p, c, level, index =>
    if topLevel c < level || (p.entry? c level index).isSome then p
    else
      let p := p.bring n use c (level + 1) (index / 8)
      let l := p.entries c
      if l.length < 32768 then p.putEntry c ⟨level, index, p.copyOf c c level index, false⟩
      else match l[Config.freeElem use n % l.length]? with
        | none => p
        | some v =>
          let q := if v.dirty then
              (((p.storeNode c v.level v.index v.data).dropEntry c v.level v.index).bring n use c (v.level + 1)
                (v.index / 8)).toParent c v.level v.index v.data
            else p.dropEntry c v.level v.index
          q.bring n use c level index

/-- Change a node that is in the counter cache (R289); another is stored, as Floodlight does. -/
def Prism.changeNode (p : Prism) (c level index : Nat) (b : Bytes) : Prism :=
  match p.entry? c level index with
  | some e => p.putEntry c { e with data := b, dirty := true }
  | none => p.storeNode c level index b

/-- Every node above a leaf and the root are recomputed in memory and in the cache (16_reliability_and_integrity.md R402). -/
def Prism.fixPath (p : Prism) (c index : Nat) : Prism :=
  (List.range (topLevel c + 1)).foldl (fun p k =>
    let j := index / 8 ^ k
    let d := nodeDigest (p.treeKey c) c k j (p.copyOf c c k j)
    let b := setDigest (p.copyOf c c (k + 1) (j / 8)) j d
    let q := p.storeNode c (k + 1) (j / 8) b
    match q.entry? c (k + 1) (j / 8) with
    | some e => q.putEntry c { e with data := b, dirty := false }
    | none => q) p

/-- A leaf enters a tree from outside: it leaves the counter cache, and the nodes above it follow. -/
def Prism.enterLeaf (p : Prism) (c index : Nat) (b : Bytes) : Prism :=
  ((p.dropEntry c 0 index).storeNode c 0 index b).fixPath c index

/-- A leaf of zero counters, as Floodlight writes it (16_reliability_and_integrity.md R402). -/
def Prism.zeroLeaf (p : Prism) (c index : Nat) : Prism := p.enterLeaf c index (zeros 64)

/-- The damaged copies of a node are rewritten from one that verifies (16_reliability_and_integrity.md R394). -/
def Prism.mendNode (p : Prism) (c level index : Nat) : Prism := p.storeNode c level index (p.copyOf c c level index)

/-- A clean entry is dropped and fetched again; a dirty one has its second bank (16_reliability_and_integrity.md R397). -/
def Prism.mendEntry (p : Prism) (c index : Nat) : Prism :=
  match p.entry? c 0 index with
  | some e => if e.dirty then p else p.dropEntry c 0 index
  | none => p

/-! ## Sector slots (log 119) -/

/-- The controller and the slot of a sector in use. -/
def Prism.slotOf (p : Prism) (sec : Nat) : Option (Nat × Nat) :=
  match smapGet 0 p.slots sec with
  | 0 => none
  | v + 1 => some (v % 16, v / 16)

/-- Give a sector a slot on a controller, the lowest that no sector there has. Where a sector lies is the module's choice
(11_memory_tiers_and_weights.md R266; log 119). -/
def Prism.settle (p : Prism) (c sec : Nat) : Prism :=
  if (p.slotOf sec).any fun x => x.1 = c then p
  else
    let taken := (p.slots.map fun e => e.2 - 1).filter fun v => v % 16 = c
    let q := ((List.range (taken.length + 1)).find? fun q => !taken.contains (16 * q + c)).getD 0
    { p with slots := smapInsert p.slots sec (16 * q + c + 1) }

end Sys2Proof.Machine
end

