-- ==== Sys2Proof/Machine/MemOps.lean ====
section
/-!
DEFINITION. The operations over device memory: address resolution (11_memory_tiers_and_weights.md R265, R266), Prism's
checks, reads, writes and refreshes (12_prism_memory_protection.md R284 to R305), and what an error of the memory code
leaves (16_reliability_and_integrity.md R388 to R398).
-/

namespace Sys2Proof.Machine

/-! ## Places -/

/-- Is profile K in force (12_prism_memory_protection.md R297, R298)? -/
def State.profileK (s : State) : Bool := s.get Reg.PRISM_CFG_PROFILE = 1

/-- The key ID of a device logical address (12_prism_memory_protection.md R297, R298). -/
def State.keyOf (s : State) (a : Nat) : Nat := if s.profileK then a / 2 ^ 52 % 2048 else 0

/-- A key-table entry. -/
def State.keyEntry (s : State) (k : Nat) : KeyEntry := smapGet KeyEntry.free s.prism.keys k

/-- Change a key-table entry. -/
def State.updKey (s : State) (k : Nat) (f : KeyEntry → KeyEntry) : State :=
  { s with prism := { s.prism with keys := smapUpd KeyEntry.free s.prism.keys k f } }

/-- A master's rights entry. -/
def State.rightsOf (s : State) (m : Nat) : Rights := smapGet Rights.none s.prism.rights m

/-- Replace a master's rights entry. -/
def State.setRights (s : State) (m : Nat) (r : Rights) : State :=
  { s with prism := { s.prism with rights := smapSet Rights.none s.prism.rights m r } }

/-- The size of the Steward region in bytes (14_host_attach.md R337). -/
def State.stewardBytes (s : State) : Nat := s.frame.stewardGib * 2 ^ 30

/-- The place of a device logical address in a space, by its key and offset. -/
def State.placeOf (s : State) (space a : Nat) : Nat := space * 2 ^ 64 + s.keyOf a * 2 ^ 52 + a % 2 ^ 52

/-- The share of a controller in a partition's carve in GiB, ×4 for LPDDR5X (11_memory_tiers_and_weights.md R264). -/
def State.carveShare (s : State) (p c : Nat) : Nat :=
  match s.frame.carve.find? fun x => x.part = p with
  | some v => if c < 8 then 4 * v.hbm.getD c 0 else v.lpddr
  | none => 0

/-- The 4 KiB sectors of a region. -/
def Region.sectorCount (r : Region) : Nat := (r.size + 4095) / 4096

/-- The controllers of a region, ascending (11_memory_tiers_and_weights.md R266). -/
def State.regionCtrls (s : State) (p : Nat) (r : Region) : List Nat :=
  if r.ctrlMask = 0 then
    ((List.range 12).filter fun c => if r.tier = 0 then c < 8 else 8 ≤ c).filter fun c => s.carveShare p c ≠ 0
  else bitList 12 r.ctrlMask

/-- The controller of byte `d` of a region. -/
def State.regionCtrl (s : State) (p : Nat) (r : Region) (d : Nat) : Nat :=
  let l := s.regionCtrls p r
  if l.length = 0 then 15 else l.getD (d / 4096 % l.length) 15

/-- The region of a plan under a key that holds an offset. -/
def findRegion (plan : List Region) (key off : Nat) : Option Region :=
  plan.find? fun r => r.keyId = key && r.base ≤ off && off < r.base + r.size

/-- Address resolution of a partition's access: controller and place, under the redirects of a weight set
(11_memory_tiers_and_weights.md R265; 08_training_dataflow.md R202). -/
def State.resolve (s : State) (p : Nat) (uses : List (Nat × Nat)) (a : Nat) : Option (Nat × Nat) :=
  let plan := (s.part p).image.plan
  let off := a % 2 ^ 52
  match findRegion plan (s.keyOf a) off with
  | none => none
  | some r =>
    let r' := match uses.find? fun u => u.1 = r.region with
      | some u => (plan.find? fun q => q.region = u.2).getD r
      | none => r
    some (s.regionCtrl p r' (off - r.base),
      (p + 1) * 2 ^ 64 + s.keyOf a * 2 ^ 52 + (r'.base + (off - r.base)))

/-- The controller of a place: system memory is spread over controllers 8 to 11 by sector (log 18). -/
def State.placeCtrl (s : State) (place : Nat) : Nat :=
  let space := place / 2 ^ 64
  if space = 0 then 8 + place / 4096 % 4
  else match s.resolve (space - 1) [] (place % 2 ^ 64) with
    | some r => r.1
    | none => 15

/-! ## Ciphertext (12_prism_memory_protection.md R283, R285) -/

/-- The stored ciphertext of a line written under a key material. -/
def lineCipher (key ln : Nat) (plain : Bytes) : Bytes :=
  let i := ln % 64
  slice (Config.xtsEncrypt (key % 2 ^ 512) (ln / 64 % 2 ^ 40) (zeros (64 * i) ++ plain ++ zeros (64 * (63 - i)))) (64 * i) 64

/-- The plaintext a key material gives a stored line. -/
def linePlain (key ln : Nat) (cipher : Bytes) : Bytes :=
  let i := ln % 64
  slice (Config.xtsDecrypt (key % 2 ^ 512) (ln / 64 % 2 ^ 40) (zeros (64 * i) ++ cipher ++ zeros (64 * (63 - i)))) (64 * i) 64

/-- The tag of a line (12_prism_memory_protection.md R285). -/
def lineTag (key ln major minor : Nat) (cipher : Bytes) : Bytes :=
  (Config.cmac256 (key / 2 ^ 512)
    (leBytes 5 (ln / 64 % 2 ^ 40) ++ leBytes 1 (ln % 64) ++ leBytes 8 major ++ leBytes 1 minor ++ leBytes 1 1 ++
      cipher)).take 8

/-! ## Stored lines -/

/-- The mark under which an unlisted sector, by its place / 4096, still holds an earlier image's data (log 8). -/
def State.residue (s : State) (sec : Nat) : Option Nat :=
  match s.mem.stale.find? fun r => r.space = sec / 2 ^ 52 with
  | none => none
  | some r =>
    let c := s.placeCtrl (4096 * sec)
    if 12 ≤ c || bit r.ctrls c then some r.mark else none

/-- The major counter of a sector by its place / 4096. -/
def State.major (s : State) (sec : Nat) : Nat :=
  match smapGet 0 s.mem.majors sec with
  | 0 => match s.residue sec with
    | some k => Config.residueCounter k (sec * 64) % 2 ^ 64
    | none => 0
  | m + 1 => m

/-- Set a sector's major counter. -/
def State.setMajor (s : State) (sec v : Nat) : State :=
  { s with mem := { s.mem with majors := smapSet 0 s.mem.majors sec (v + 1) } }

/-- A line by its place / 64: an unlisted line of a stale space holds an earlier image's data, under the key material it was last
written with, and reads as zeros where its counters say that it was never written (log 8). -/
def State.line (s : State) (ln : Nat) : Line :=
  let l := smapGet Line.fresh s.mem.lines ln
  if l.live then l
  else match s.residue (ln / 64) with
    | some k => { live := true, minor := Config.residueCounter k (ln + 1) % 128, key := Config.residueKey k ln, poison := 0,
                  bad := !Config.residueTagOk k ln, ce := 0, tag := none }
    | none => l

/-- The plaintext of a line. -/
def State.lineData (s : State) (ln : Nat) : Bytes :=
  if (smapGet Line.fresh s.mem.lines ln).live then smapRead 0 s.mem.bytes (64 * ln) 64
  else match s.residue (ln / 64) with
    | some k => (List.range 64).map fun i => Config.residueByte k ln i
    | none => smapRead 0 s.mem.bytes (64 * ln) 64

/-- The stored tag of a line: zero where it was never written, and free where it no longer matches (R285; log 1). -/
def State.storedTag (s : State) (ln : Nat) : Bytes :=
  let l := s.line ln
  let major := s.major (ln / 64)
  match l.tag with
  | some b => b
  | none =>
    if major = 0 && l.minor = 0 then zeros 8
    else if l.bad then (List.range 8).map fun i => Config.freeByte s.fresh (ln * 72 + 64 + i)
    else lineTag l.key ln major l.minor (lineCipher l.key ln (s.lineData ln))

/-- Put a line in memory with its plaintext. -/
def State.setLine (s : State) (ln : Nat) (l : Line) (b : Bytes) : State :=
  { s with mem := { s.mem with lines := smapSet Line.fresh s.mem.lines ln { l with live := true },
                               bytes := smapWrite 0 s.mem.bytes (64 * ln) b } }

/-- Change a line and keep its plaintext. -/
def State.updLine (s : State) (ln : Nat) (f : Line → Line) : State :=
  s.setLine ln (f (s.line ln)) (s.lineData ln)

/-- Add to a Prism counter of a controller while PRISM_CFG.CNT_EN is 1 (12_prism_memory_protection.md R307). -/
def State.prismCount (s : State) (f : Fld) (c n : Nat) : State :=
  if s.get Reg.PRISM_CFG_CNT_EN = 1 && c < 12 then s.addF f c 0 n else s

/-- Add to a counter of the ECC block while SCRUB_CTRL.CNT_EN is 1 (16_reliability_and_integrity.md R405, R406). -/
def State.eccCount (s : State) (f : Fld) (c n : Nat) : State :=
  if s.get Reg.SCRUB_CTRL_CNT_EN = 1 && c < 12 then s.addF f c 0 n else s

/-- Record an access that Prism refused (12_prism_memory_protection.md R304, R307). -/
def State.noteRefusal (s : State) (m code c a : Nat) : State :=
  let s := if code = 0x0601 then s.set Reg.PRISM_STAT_BIT63 1
    else if code = 0x0202 then s.set Reg.PRISM_STAT_TAG 1
    else if code = 0x0204 then s else s.set Reg.PRISM_STAT_RIGHTS 1
  ((((s.set Reg.PRISM_STAT_LAST_ERR code).set Reg.PRISM_STAT_LAST_MASTER m).set Reg.PRISM_STAT_LAST_CTRL c).set
    Reg.PRISM_LAST_ADDR_ADDR a)

/-- Put a sector, by its place / 4096, on a slot of its controller. -/
def State.settle (s : State) (c sec : Nat) : State := if c < 12 then { s with prism := s.prism.settle c sec } else s

/-- The slot of a sector. -/
def State.slotOfSector (s : State) (sec : Nat) : Nat := ((s.prism.slotOf sec).map (·.2)).getD 0

/-- Update ECC_LAST for an error in a sector, or in the upper node above its leaf at level `line`. Where a sector lies in its
controller is the module's choice, so the number in SLOT is free (16_reliability_and_integrity.md R405; log 119). -/
def State.eccLast (s : State) (c sec line area cw sym : Nat) (ue : Bool) : State :=
  if c < 12 then
    let q := s.slotOfSector sec
    let n := if area = 3 then Config.slotNumber c line (q / 8 ^ line) else Config.slotNumber c 0 q
    (((((s.setF Reg.ECC_LAST_SLOT c 0 (n % 2 ^ 26)).setF Reg.ECC_LAST_LINE c 0 line).setF Reg.ECC_LAST_AREA c 0
      area).setF Reg.ECC_LAST_CW c 0 cw).setF Reg.ECC_LAST_SYMBOL c 0 sym).setF Reg.ECC_LAST_UE c 0 (if ue then 1 else 0)
  else s

/-- Count an uncorrectable error (16_reliability_and_integrity.md R389). -/
def State.countUe (s : State) (c sec line area cw : Nat) : State :=
  let s := (s.eccCount Reg.ECC_UE_COUNT_COUNT c 1).eccLast c sec line area cw 127 true
  if c < 12 then s.setF Reg.MC_STAT_UE c 0 1 else s

/-- Count a correctable error in an area of a sector: 0 data, 1 tag, 2 leaf, 3 upper node (16_reliability_and_integrity.md R388, R394,
R405). -/
def State.countCeIn (s : State) (c sec line area cw sym : Nat) : State :=
  let s := (s.eccCount Reg.ECC_CE_COUNT_COUNT c 1).eccLast c sec line area cw sym false
  let th := s.getF Reg.ECC_CE_THRESH_THRESH c 0
  if c < 12 && th ≠ 0 && th < s.getF Reg.ECC_CE_COUNT_COUNT c 0 then s.setF Reg.MC_STAT_CE_OVER c 0 1 else s

/-- Count a correctable error in a data line. -/
def State.countCe (s : State) (c ln cw sym : Nat) : State := s.countCeIn c (ln / 64) (ln % 64) 0 cw sym

/-- Count an error corrected in an on-die array (16_reliability_and_integrity.md R395). R395 records only an uncorrectable error in
SRAM_LAST, so SRAM_LAST stays (log 141). -/
def State.countSramCe (s : State) : State :=
  if s.get Reg.SCRUB_CTRL_CNT_EN = 1 then s.addF Reg.SRAM_ERR_CE 0 0 1 else s

/-- Count an error of a hub or Pilot array (16_reliability_and_integrity.md R395, R406): the address is free (log 1). -/
def State.countSram (s : State) (arr : Nat) : State :=
  let s := if s.get Reg.SCRUB_CTRL_CNT_EN = 1 then s.addF Reg.SRAM_ERR_UE 0 0 1 else s
  ((((s.set Reg.SRAM_LAST_TILE 0x7FF).set Reg.SRAM_LAST_ARRAY arr).set Reg.SRAM_LAST_UE 1).set Reg.SRAM_LAST_ADDR
    (s.free (2 ^ 21))).tick

/-- Poison a line with a code: the line is rewritten, its stored tag stays (16_reliability_and_integrity.md R389, R390). -/
def State.poison (s : State) (c ln code : Nat) : State :=
  let tag := s.storedTag ln
  (s.updLine ln fun l => { l with poison := code, ce := 0, tag := some tag }).eccCount Reg.POISON_COUNT_COUNT c 1

/-- The counter leaf of a sector (12_prism_memory_protection.md R287). -/
def State.storedLeaf (s : State) (sec : Nat) : Bytes :=
  leBytes 64 ((List.range 64).foldl (fun n i => n + (s.line (64 * sec + i)).minor % 128 * 2 ^ (64 + 7 * i)) (s.major sec))

/-- The leaf of a sector follows its counters: in the counter cache, where it becomes dirty (12_prism_memory_protection.md
R289). -/
def State.noteLeaf (s : State) (c sec : Nat) : State :=
  if c < 12 then { s with prism := s.prism.changeNode c 0 (s.slotOfSector sec) (s.storedLeaf sec) } else s

/-- The leaf of a sector enters the counter tree of a controller from outside (12_prism_memory_protection.md R291). -/
def State.enterLeaf (s : State) (c sec : Nat) : State :=
  let s := s.settle c sec
  if c < 12 then { s with prism := s.prism.enterLeaf c (s.slotOfSector sec) (s.storedLeaf sec) } else s

/-- The leaf of a sector becomes one of zero counters, and the nodes above it follow. -/
def State.clearLeaf (s : State) (c sec : Nat) : State :=
  if c < 12 then { s with prism := s.prism.zeroLeaf c (s.slotOfSector sec) } else s

/-- A sector whose leaf is lost: its 64 lines are poisoned with 0x0203 and its leaf is one of zero counters
(16_reliability_and_integrity.md R394). -/
def State.loseLeaf (s : State) (c sec : Nat) : State :=
  (((List.range 64).foldl (fun s i => (s.poison c (64 * sec + i) 0x0203).updLine (64 * sec + i) fun l =>
    { l with minor := 0 }) s).setMajor sec 0).clearLeaf c sec

/-- Count lost leaves. -/
def State.countLost (s : State) (c n : Nat) : State :=
  let s := s.eccCount Reg.TREE_STAT_LEAVES_LOST c n
  if c < 12 then s.setF Reg.MC_STAT_LEAF_LOST c 0 1 else s

/-- Set PRISM_STAT.TREE for a failure of a digest (12_prism_memory_protection.md R291, R307). -/
def State.noteTree (s : State) (digest : Bool) : State := if digest then s.set Reg.PRISM_STAT_TREE 1 else s

/-- An access under a key brings it into the instance's key cache of 64 entries; which entry makes room is free
(12_prism_memory_protection.md R299; log 1). -/
def State.touchKey (s : State) (c k : Nat) : State :=
  let l := smapGet [] s.prism.keyCache c
  if l.contains k then s
  else
    let l' := if l.length < 64 then l else l.eraseIdx (s.free 64)
    { s with prism := { s.prism with keyCache := smapSet [] s.prism.keyCache c (l' ++ [k]) } }.tick

/-- Flush keys from the key caches of all instances (12_prism_memory_protection.md R301). -/
def State.flushKeys (s : State) (ks : List Nat) : State :=
  (List.range 12).foldl (fun s c => { s with prism := { s.prism with
    keyCache := smapUpd [] s.prism.keyCache c fun l => l.filter fun k => !ks.contains k } }) s

/-- What a physical event at a line leaves in memory and in the registers, before the access goes on
(16_reliability_and_integrity.md R388 to R398; 12_prism_memory_protection.md R291). -/
def State.strike (s : State) (c place : Nat) (f : LineFault) : State :=
  let ln := place / 64
  let sec := place / 4096
  let s := s.settle c sec
  match f with
  | .none => s
  | .ce cw sym => s.updLine ln fun l => { l with ce := 1 + cw.val * 72 + sym.val }
  | .ceMeta area level cw sym => s.countCeIn c sec (if area = 2 then level.val else ln % 64) (1 + area.val) cw.val sym.val
  | .ue cw => (s.countUe c sec (ln % 64) 0 cw.val).poison c ln 0x0201
  | .tagUe =>
    (List.range 4).foldl (fun s i =>
      (s.poison c (ln / 4 * 4 + i) 0x0201).updLine (ln / 4 * 4 + i) fun l => { l with bad := true, tag := some (zeros 8) })
      (s.countUe c sec (ln % 64) 1 0)
  | .altered => s.updLine ln fun l => { l with bad := true }
  | .leaf d => (((s.countUe c sec (ln % 64) 2 0).noteTree d).countLost c 1).loseLeaf c sec
  | .upperOne k d =>
    let s := ((s.countUe c sec k.val 3 0).noteTree d).eccCount Reg.TREE_STAT_UPPER_REPAIRS c 1
    if c < 12 then
      { s with prism := s.prism.mendNode c k.val (s.slotOfSector sec / 8 ^ k.val) }.setF Reg.MC_STAT_UPPER_REPAIR c 0 1
    else s
  | .upperBoth k d others =>
    (sec :: others.map (· / 4096)).foldl (fun s q => s.loseLeaf c q)
      (((s.countUe c sec k.val 3 0).noteTree d).countLost c (8 ^ k.val))
  | .cacheEntry =>
    let s := s.countSram 4
    if c < 12 then { s with prism := s.prism.mendEntry c (s.slotOfSector sec) } else s
  | .cacheBoth => ((s.countSram 4).countLost c 1).loseLeaf c sec
  | .keyCache => (s.countSram 5).flushKeys [place / 2 ^ 52 % 2048]
  | .keyTable => s.countSram 6
  | .sramCe => s.countSramCe
  | .system _ => s

/-- A physical event that a scrub of stored code words can meet. -/
def storedFault : LineFault → Bool
  | .none => true
  | .ce _ _ => true
  | .ceMeta _ _ _ _ => true
  | .ue _ => true
  | .tagUe => true
  | .leaf false => true
  | .upperOne _ false => true
  | .upperBoth _ false _ => true
  | _ => false

/-! ## Reads and writes of lines -/

/-- One counter-cache lookup: it hits when the sector's leaf is in the cache, which then holds it
(12_prism_memory_protection.md R286, R289, R308). -/
def State.lookup (s : State) (c sec : Nat) : State :=
  if c < 12 then
    let s := s.settle c sec
    let q := s.slotOfSector sec
    let hit : Bool := (s.prism.entry? c 0 q).isSome
    let s := s.prismCount (if hit then Reg.PRISM_n_CACHE_HIT_COUNT else Reg.PRISM_n_CACHE_MISS_COUNT) c 1
    if hit then s else { s with prism := s.prism.bring 4096 s.fresh c 0 q }.tick
  else s

/-- ECC of a line that is read: a correctable error is counted, and stays (16_reliability_and_integrity.md R388). -/
def State.readEcc (s : State) (c ln : Nat) : State :=
  let l := s.line ln
  if l.ce = 0 then s else s.countCe c ln ((l.ce - 1) / 72) ((l.ce - 1) % 72)

/-- Steps 2 to 5 of a read of a line (12_prism_memory_protection.md R286; 16_reliability_and_integrity.md R388, R391):
the plaintext, or the code of its refusal. -/
def State.readLine (s : State) (m c a ln key : Nat) : State × Except Nat Bytes :=
  let s := (s.lookup c (ln / 64)).readEcc c ln
  let l := s.line ln
  if l.poison ≠ 0 then (s, .error l.poison)
  else if s.major (ln / 64) = 0 && l.minor = 0 then (s, .ok (zeros 64))
  else if l.bad || l.key / 2 ^ 512 ≠ key / 2 ^ 512 then
    ((s.prismCount Reg.PRISM_n_TAG_FAIL_COUNT c 1).noteRefusal m 0x0202 c a, .error 0x0202)
  else if l.key = key then (s, .ok (s.lineData ln))
  else (s, .ok (linePlain key ln (lineCipher l.key ln (s.lineData ln))))

/-- Put a sector in a controller's wear list, or set WEAR_OVF (12_prism_memory_protection.md R295, R308). -/
def State.wear (s : State) (c lbn keyId : Nat) (exh : Bool) : State :=
  let n := s.getF Reg.PRISM_n_WEAR_COUNT_COUNT c 0
  let hit := (List.range n).find? fun j =>
    s.getF Reg.PRISM_n_WEAR_j_LBN c j = lbn && s.getF Reg.PRISM_n_WEAR_j_KEY c j = keyId
  match hit with
  | some j => if exh then s.setF Reg.PRISM_n_WEAR_j_EXH c j 1 else s
  | none =>
    if n < 16 then
      (((s.setF Reg.PRISM_n_WEAR_j_LBN c n lbn).setF Reg.PRISM_n_WEAR_j_KEY c n keyId).setF Reg.PRISM_n_WEAR_j_EXH c n
        (if exh then 1 else 0)).setF Reg.PRISM_n_WEAR_COUNT_COUNT c 0 (n + 1)
    else s.setF Reg.PRISM_n_WEAR_COUNT_WEAR_OVF c 0 1

/-- Does the stored tag of a line verify under a key material? A line never written counts as good. -/
def State.tagGood (s : State) (ln key : Nat) : Bool :=
  let l := s.line ln
  (s.major (ln / 64) = 0 && l.minor = 0) || (!l.bad && l.key / 2 ^ 512 = key / 2 ^ 512)

/-- A line that fails its tag in a refresh, counted as any mismatch (12_prism_memory_protection.md R286, R294). -/
def State.refreshCheck (s : State) (c ln key : Nat) : State :=
  let s := s.readEcc c ln
  if (s.line ln).poison = 0 && !s.tagGood ln key then (s.prismCount Reg.PRISM_n_TAG_FAIL_COUNT c 1).set Reg.PRISM_STAT_TAG 1
  else s

/-- A refresh of a sector (12_prism_memory_protection.md R294): every line is verified, the major counter advances, the minor
counters become 0, lines never written become written zeros, and a line that fails keeps its failed tag. -/
def State.refresh (s : State) (c sec keyId key : Nat) : State :=
  let s := (List.range 64).foldl (fun t i => t.refreshCheck c (64 * sec + i) key) s
  let m := s.major sec
  let s' := (List.range 64).foldl (fun t i =>
    let ln := 64 * sec + i
    let l := s.line ln
    if m = 0 && l.minor = 0 && l.poison = 0 then t.setLine ln { l with key := key, bad := false } (zeros 64)
    else if s.tagGood ln key && l.poison = 0 then t.setLine ln { l with minor := 0, bad := false, tag := none } (s.lineData ln)
    else t.setLine ln { l with minor := 0, bad := true, tag := some (s.storedTag ln) } (s.lineData ln)) s
  let s' := (s'.setMajor sec (m + 1)).prismCount Reg.PRISM_n_REFRESH_COUNT c 1
  if m + 1 = 2 ^ 63 then (s'.set Reg.PRISM_STAT_MAJOR_WARN 1).wear c (sec % 2 ^ 40) keyId false else s'

/-- A write of a whole line (12_prism_memory_protection.md R292, R294, R295; 16_reliability_and_integrity.md R391): the
code of its refusal, if any. -/
def State.writeLine (s : State) (m c a ln keyId key : Nat) (b : Bytes) : State × Option Nat :=
  let s := s.lookup c (ln / 64)
  let l := s.line ln
  if l.poison = 0x0203 then (s, some 0x0203)
  else if l.minor = 127 && s.major (ln / 64) = 2 ^ 64 - 1 then
    ((((s.set Reg.PRISM_STAT_MAJOR_EXH 1).wear c (ln / 64 % 2 ^ 40) keyId true).noteRefusal m 0x0204 c a), some 0x0204)
  else
    let s := if l.minor = 127 then s.refresh c (ln / 64) keyId key else s
    let n := if l.minor = 127 then 0 else l.minor
    ((s.setLine ln { live := true, minor := n + 1, key := key, poison := 0, bad := false, ce := 0, tag := none } (fit 64 b)).noteLeaf c
      (ln / 64), none)

/-- A write of part of a line, as one atomic read-modify-write (12_prism_memory_protection.md R293). -/
def State.writePart (s : State) (m c a ln off keyId key : Nat) (b : Bytes) : State × Option Nat :=
  let s := s.prismCount Reg.PRISM_n_PARTIAL_COUNT c 1
  match s.readLine m c a ln key with
  | (s, .error e) => (s, some e)
  | (s, .ok old) => s.writeLine m c a ln keyId key (old.take off ++ b ++ old.drop (off + b.length))

/-! ## Prism's checks (12_prism_memory_protection.md R304) -/

/-- What passes the checks: controller, place, key ID and key material. -/
structure Gate where
  ctrl : Nat
  place : Nat
  keyId : Nat
  key : Nat
  deriving DecidableEq, Repr

/-- The space an access of a master reaches; masters other than partitions name it. -/
def spaceOf (m space : Nat) : Nat := if m < 32 then m + 1 else space

/-- Checks 1 to 5 of R304, with the failed controllers of 16_reliability_and_integrity.md R400; `raw` says that RAW_READ
applies. -/
def State.gate (s : State) (m space : Nat) (uses : List (Nat × Nat)) (wr : Bool) (a : Nat) : Except Nat Gate :=
  let k := s.keyOf a
  let e := s.keyEntry k
  let r := s.rightsOf m
  if a / 2 ^ 63 % 2 = 1 then .error 0x0601
  else if e.state = .free || e.state = .reserved then .error 0x0604
  else if wr && !bit r.write k then .error 0x0603
  else if !wr && !bit r.read k && !r.rawRead then .error 0x0602
  else if r.stewardOnly && k = 0 && s.stewardBytes ≤ a % 2 ^ 52 then .error 0x0607
  else
    let at? := if m < 32 then s.resolve m uses a
      else some (s.placeCtrl (s.placeOf space a), s.placeOf space a)
    match at? with
    | none => .error 0x0206
    | some (c, pl) =>
      if c < 12 && s.getF Reg.MC_STAT_FAILED c 0 = 1 then .error 0x0201
      else .ok { ctrl := c, place := pl, keyId := k, key := e.material }

/-- Record a refusal by checks 1 to 4. -/
def State.noteGate (s : State) (m code a : Nat) : State :=
  if code = 0x0601 || code = 0x0602 || code = 0x0603 || code = 0x0604 || code = 0x0607 then s.noteRefusal m code 15 a
  else s

/-! ## Ranges -/

/-- The pieces of a byte range by line: address and length. -/
def pieces (a n : Nat) : List (Nat × Nat) :=
  if n = 0 then []
  else (List.range ((a + n - 1) / 64 + 1 - a / 64)).map fun i =>
    let lo := max a ((a / 64 + i) * 64)
    (lo, min (a + n) ((a / 64 + i + 1) * 64) - lo)

/-- A read of a byte range by a master through Prism: the bytes, or the first refusal's code. `via` gives the edges and bridges
between the requester and a controller; a request over a failed one meets 0x0304 (02_fabric.md R48; log 115). -/
def State.readVia (s : State) (via : Nat → List Nat) (m space : Nat) (uses : List (Nat × Nat)) (a n : Nat) :
    State × Except Nat Bytes :=
  (pieces a n).foldl (fun acc q =>
    match acc with
    | (s, .error e) => (s, .error e)
    | (s, .ok b) =>
      match s.gate m space uses false q.1 with
      | .error e => (s.noteGate m e q.1, .error e)
      | .ok g =>
        if s.pathDown (via g.ctrl) then (s, .error 0x0304)
        else
          match ((s.countEdges (via g.ctrl)).touchKey g.ctrl g.keyId).readLine m g.ctrl q.1 (g.place / 64) g.key with
          | (s, .error e) => (s, .error e)
          | (s, .ok d) => (s, .ok (b ++ slice d (q.1 % 64) q.2))) (s, .ok [])

/-- A write of a byte range by a master through Prism: the first refusal's code, if any; the lines before it are
written. -/
def State.writeVia (s : State) (via : Nat → List Nat) (m space : Nat) (uses : List (Nat × Nat)) (a : Nat) (b : Bytes) :
    State × Option Nat :=
  (pieces a b.length).foldl (fun acc q =>
    match acc with
    | (s, some e) => (s, some e)
    | (s, none) =>
      match s.gate m space uses true q.1 with
      | .error e => (s.noteGate m e q.1, some e)
      | .ok g =>
        let d := slice b (q.1 - a) q.2
        if s.pathDown (via g.ctrl) then (s, some 0x0304)
        else
        let s := (s.countEdges (via g.ctrl)).touchKey g.ctrl g.keyId
        if q.2 = 64 then s.writeLine m g.ctrl q.1 (g.place / 64) g.keyId g.key d
        else s.writePart m g.ctrl q.1 (g.place / 64) (q.1 % 64) g.keyId g.key d) (s, none)

/-- A read that the hub makes for a master. -/
def State.readMem (s : State) (m space : Nat) (uses : List (Nat × Nat)) (a n : Nat) : State × Except Nat Bytes :=
  s.readVia hubVia m space uses a n

/-- A write that the hub makes for a master. -/
def State.writeMem (s : State) (m space : Nat) (uses : List (Nat × Nat)) (a : Nat) (b : Bytes) : State × Option Nat :=
  s.writeVia hubVia m space uses a b

/-! ## The hub and the Steward's system cache (14_host_attach.md R338, R345, R346) -/

/-- A CXL.cache request goes to the Steward's coherence agent before an access of the hub to lines of the region, once the Steward
serves it (R338, R345). -/
def State.snoop (s : State) (write : Bool) (a n : Nat) : State :=
  if s.get Reg.STEWARD_STAT_STATE = 2 && a < s.stewardBytes && n ≠ 0 then s.emit (.cxlCache write a n) else s

/-- The lines of a range that the Steward's system cache may hold. -/
def State.heldIn (s : State) (a n : Nat) : List Nat :=
  if n = 0 then [] else s.hub.cached.filter fun l => a / 64 ≤ l && l ≤ (a + n - 1) / 64

/-- The bytes of a range as the cores last wrote them: a line that the system cache holds may be modified there, with bytes that are
free (R338; logs 1 and 131). -/
def State.latest (s : State) (a : Nat) (b : Bytes) : Bytes :=
  b.zipIdx.map fun p =>
    let l := (a + p.2) / 64
    if s.hub.cached.contains l && Config.freeElem s.fresh l % 2 = 0 then Config.freeByte (s.fresh + 1) (a + p.2) else p.1

/-- A read by the hub DMA (master 32), coherent with the Steward's system cache (R338). -/
def State.hubRead (s : State) (a n : Nat) : State × Except Nat Bytes :=
  match (s.snoop false a n).readMem 32 0 [] a n with
  | (s, .error e) => (s, .error e)
  | (s, .ok b) => if (s.heldIn a n).isEmpty then (s, .ok b) else (s.tick.tick, .ok (s.latest a b))

/-- Every cached copy of the lines of a range is invalidated. A line that is modified and not written whole is written back first;
what it holds is free (R338; logs 1 and 131). -/
def State.invalidate (s : State) (a n : Nat) : State :=
  let l := s.heldIn a n
  if l.isEmpty then s
  else
    let s := l.foldl (fun s k =>
      if (a ≤ 64 * k && 64 * k + 64 ≤ a + n) || s.free 2 = 0 then s.tick
      else ((s.tick.writeMem 34 0 [] (64 * k) (s.tick.freeBytes 64)).1).tick) s
    { s with hub := { s.hub with cached := s.hub.cached.filter fun k => !l.contains k } }

/-- A write by the hub DMA (master 32), which no cached copy outlives (R338). -/
def State.hubWrite (s : State) (a : Nat) (b : Bytes) : State × Option Nat :=
  ((s.snoop true a b.length).invalidate a b.length).writeMem 32 0 [] a b

/-- The Steward's system cache holds a line that it has read. -/
def State.cacheLine (s : State) (l : Nat) : State :=
  if s.hub.cached.contains l then s else { s with hub := { s.hub with cached := s.hub.cached ++ [l] } }

/-! ## Floodlight INIT (16_reliability_and_integrity.md R402) -/

/-- The controller on which a sector lies: that of its slot, or the one its place resolves to. -/
def State.home (s : State) (sec : Nat) : Nat := match s.prism.slotOf sec with
  | some x => x.1
  | none => s.placeCtrl (4096 * sec)

/-- The sectors that memory lists, each once, by place / 4096. -/
def State.listed (s : State) (f : Nat → Bool) : List Nat :=
  let l : List Nat := s.mem.lines.map fun e => e.1 / 64
  let m : List Nat := s.mem.majors.map fun e => e.1
  ((l ++ m).dedup).filter f

/-- Take the sectors that a test names out of what memory lists. -/
def State.forget (s : State) (f : Nat → Bool) : State :=
  { s with mem := { s.mem with bytes := s.mem.bytes.filter fun e => !f (e.1 / 4096),
                               lines := s.mem.lines.filter fun e => !f (e.1 / 64),
                               majors := s.mem.majors.filter fun e => !f e.1 },
           prism := { s.prism with slots := s.prism.slots.filter fun e => !f e.1 } }

/-- Zero the sectors of a space that lie on the controllers of a list: every line of them then reads as zeros under R287. -/
def State.initShares (s : State) (space : Nat) (l : List Nat) : State :=
  let f (sec : Nat) : Bool := sec / 2 ^ 52 = space && (12 ≤ s.home sec || l.contains (s.home sec))
  let gone := s.prism.slots.filter fun e => f e.1
  let s := { s with prism := gone.foldl (fun (p : Prism) (e : Nat × Nat) => p.zeroLeaf ((e.2 - 1) % 16) ((e.2 - 1) / 16)) s.prism }.forget f
  let left := s.mem.stale.map fun (r : Residue) =>
    if r.space = space then { r with ctrls := ofBits 12 fun c => bit r.ctrls c && !l.contains c } else r
  { s with mem := { s.mem with stale := left.filter fun r => r.ctrls ≠ 0 } }

/-- Zero the whole of a space. -/
def State.initSpace (s : State) (space : Nat) : State := s.initShares space (List.range 12)

/-- Zero one sector, by its place / 4096. -/
def State.initSector (s : State) (sec : Nat) : State :=
  let s := (List.range 64).foldl (fun s i => s.setLine (64 * sec + i) { Line.fresh with live := true } (zeros 64)) s
  (s.setMajor sec 0).clearLeaf (s.home sec) sec

/-- FLOOD_STAT and GLIMMER_ACTIVE of a controller: an INIT pass shows before a VERIFY pass, and while either runs Glimmer
pauses. The MiB left are free (R401, R405; log 1, log 120). -/
def State.showFlood (s : State) (c : Nat) : State :=
  let l := (s.mem.floods.filter fun x => x.1 = c).map (·.2)
  if l.isEmpty then
    ((s.setF Reg.FLOOD_STAT_BUSY c 0 0).setF Reg.FLOOD_STAT_MODE c 0 0).setF Reg.FLOOD_STAT_REMAIN_MIB c 0 0
  else
    ((((s.setF Reg.FLOOD_STAT_BUSY c 0 1).setF Reg.FLOOD_STAT_MODE c 0 (if l.any fun w => w ≠ 34 then 1 else 2)).setF
      Reg.FLOOD_STAT_REMAIN_MIB c 0 (s.free (2 ^ 20))).setF Reg.MC_STAT_GLIMMER_ACTIVE c 0 0).tick

/-- Change the Floodlight passes under way. -/
def State.updFloods (s : State) (f : List (Nat × Nat) → List (Nat × Nat)) : State :=
  { s with mem := { s.mem with floods := f s.mem.floods } }

/-- Floodlight passes begin on controllers: an INIT for which a partition (its number), the frame load (32) or the ROTATE (33)
waits, or a VERIFY (34). -/
def State.startFlood (s : State) (what : Nat) (l : List Nat) : State :=
  l.foldl (fun s c => s.showFlood c) (s.updFloods fun f => f ++ l.map fun c => (c, what))

/-- Does something wait for a Floodlight pass? -/
def State.flooding (s : State) (what : Nat) : Bool := s.mem.floods.any fun x => x.2 = what

/-- The controllers on which a partition's carve is not empty (11_memory_tiers_and_weights.md R264). -/
def State.carveCtrls (s : State) (p : Nat) : List Nat := (List.range 12).filter fun c => s.carveShare p c ≠ 0

end Sys2Proof.Machine
end

