-- ==== Sys2Proof/Machine/Tensors.lean ====
section
/-!
DEFINITION. Tensors in memory: where their elements and scale bytes lie (03_configuration_images.md R68; 05_matrix_array.md
R128; 06_accumulation_and_numerics.md R146, R149; 08_training_dataflow.md R191), and reading and writing their footprints
line by line.
-/

namespace Sys2Proof.Machine

/-- Bytes of a tensor's footprint (03_configuration_images.md R68). -/
def Tensor.footprint (t : Tensor) : Nat :=
  let n := if t.layout = 1 then roundUp t.rows 32 * roundUp t.cols 32 else t.rows * t.cols
  ceilDiv (n * (fmtD t.format).bits) 8 + (if (fmtD t.format).isMx then ceilDiv n 32 else 0)

/-- Lines of a tensor's footprint. -/
def Tensor.lines (t : Tensor) : Nat := ceilDiv t.footprint 64

/-- The device logical address of a tensor's first byte. -/
def JobImage.addrOf (j : JobImage) (t : Tensor) : Nat :=
  match j.plan.find? fun r => r.region = t.region with
  | some r => r.keyId * 2 ^ 52 + r.base + t.offset
  | none => 0

/-- First bit of element (r, c) in the footprint. -/
def Tensor.elemPos (t : Tensor) (r c : Nat) : Nat :=
  let b := (fmtD t.format).bits
  if t.layout = 1 then (r / 32 * brb (fmtD t.format) t.cols + c / 32 * 128 * b + r % 32 * 4 * b) * 8 + c % 32 * b
  else (r * t.cols + c) * b

/-- First bit of the scale byte of element (r, c)'s run; `runRow` when runs lie along stored rows. -/
def Tensor.scalePos (t : Tensor) (runRow : Bool) (r c : Nat) : Nat :=
  let b := (fmtD t.format).bits
  if t.layout = 1 then
    8 * (r / 32 * brb (fmtD t.format) t.cols + ceilDiv t.cols 32 * 128 * b + c / 32 * 32 + (if runRow then r % 32 else c % 32))
  else 8 * (t.rows * t.cols * b / 8 + (r * t.cols + c) / 32)

/-- The elements of a tensor, row by row. -/
def Tensor.elems (t : Tensor) : List (Nat × Nat) :=
  (List.range t.rows).flatMap fun r => (List.range t.cols).map fun c => (r, c)

/-- The pad elements of a blocked tensor. -/
def Tensor.pads (t : Tensor) : List (Nat × Nat) :=
  if t.layout = 1 then
    (List.range (roundUp t.rows 32)).flatMap fun r => ((List.range (roundUp t.cols 32)).filter fun c =>
      t.rows ≤ r || t.cols ≤ c).map fun c => (r, c)
  else []

/-! ## Footprints as numbers -/

/-- The lines of a footprint as they were read: the bytes of each, or the code of its read. -/
abbrev Lines := List (Except Nat Bytes)

/-- Read the lines of a range that are wanted as a master, each over its own path; a line that is not wanted stands as an empty
one. -/
def State.readLines (s : State) (via : Nat → Nat → List Nat) (want : Nat → Bool) (m space : Nat) (uses : List (Nat × Nat)) (a n : Nat) :
    State × Lines :=
  (List.range n).foldl (fun (acc : State × Lines) i =>
    if want i then
      let (s, r) := acc.1.readVia (via i) m space uses (a + 64 * i) 64
      (s, acc.2 ++ [r])
    else (acc.1, acc.2 ++ [.ok []])) (s, [])

/-- The footprint's value: its readable lines as one little-endian number. -/
def Lines.val (ls : Lines) : Nat :=
  leNat (ls.flatMap fun l => match l with
    | .ok b => fit 64 b
    | .error _ => zeros 64)

/-- The code of the first line under a bit range that could not be read. -/
def Lines.fault (ls : Lines) (pos w : Nat) : Option Nat :=
  (List.range ((pos + w - 1) / 512 + 1 - pos / 512)).findSome? fun i => match ls[pos / 512 + i]? with
    | some (.error e) => some e
    | _ => none

/-- The codes met. -/
def Lines.codes (ls : Lines) : List Nat := ls.filterMap fun l => match l with
  | .error e => some e
  | .ok _ => none

/-- A bit field of a number. -/
def getBits (v pos w : Nat) : Nat := v / 2 ^ pos % 2 ^ w

/-- A footprint's new value and the bits of it that have been set. -/
structure Img where
  val : Nat
  mask : Nat
  deriving DecidableEq, Repr

/-- Set a bit field. -/
def Img.put (x : Img) (pos w v : Nat) : Img :=
  { val := x.val - getBits x.val pos w * 2 ^ pos + v % 2 ^ w * 2 ^ pos,
    mask := x.mask - getBits x.mask pos w * 2 ^ pos + (2 ^ w - 1) * 2 ^ pos }

/-- The bits of a line that have been set. -/
def Img.lineMask (x : Img) (i : Nat) : Nat := getBits x.mask (512 * i) 512

/-- Has every bit of a line been set? -/
def Img.lineFull (x : Img) (i : Nat) : Bool := x.lineMask i = 2 ^ 512 - 1

/-- Lay the bits that were set over a footprint's value. -/
def Img.over (x : Img) (v : Nat) : Nat := v - Nat.land v x.mask + Nat.land x.val x.mask

/-- Write the lines of a footprint that hold a bit that was set, or that are written back. A line that could not be read is
written only when all of it was set. The lines that failed, with their codes. -/
def State.writeLines (s : State) (via : Nat → Nat → List Nat) (back : Nat → Bool) (m space : Nat) (uses : List (Nat × Nat)) (a : Nat)
    (ls : Lines) (x : Img) : State × List (Nat × Nat) :=
  (List.range ls.length).foldl (fun (acc : State × List (Nat × Nat)) i =>
    if x.lineMask i = 0 && !back i then acc
    else match ls.getD i (.error 0), x.lineFull i with
      | .error e, false => (acc.1, acc.2 ++ [(i, e)])
      | _, _ =>
        match acc.1.writeVia (via i) m space uses (a + 64 * i) (leBytes 64 (getBits x.val (512 * i) 512)) with
        | (s, some e) => (s, acc.2 ++ [(i, e)])
        | (s, none) => (s, acc.2)) (s, [])

/-- The lines of a footprint that were read and whose write would be refused, with the codes. What is written does not matter. -/
def State.shutLines (s : State) (via : Nat → Nat → List Nat) (m space : Nat) (uses : List (Nat × Nat)) (a : Nat) (ls : Lines) :
    List (Nat × Nat) :=
  (List.range ls.length).filterMap fun i => match ls.getD i (.error 0) with
    | .ok _ => ((s.writeVia (via i) m space uses (a + 64 * i) (zeros 64)).2).map fun e => (i, e)
    | .error _ => none

/-- An element that lies in a line of a footprint, or whose scale byte does. -/
def Tensor.inLine (t : Tensor) (i : Nat) : Nat × Nat :=
  let b := (fmtD t.format).bits
  let off := 64 * i
  if t.layout = 1 then
    let row := max 1 (brb (fmtD t.format) t.cols)
    let o := off % row
    let data := ceilDiv t.cols 32 * 128 * b
    if o < data then (off / row * 32 + o % (128 * b) / (4 * b), o / (128 * b) * 32 + o % (4 * b) * 8 / b)
    else (off / row * 32, (o - data) / 32 * 32)
  else
    let n := t.rows * t.cols
    let k := if off * 8 < n * b then off * 8 / b else 32 * (off - n * b / 8)
    (k / max 1 t.cols, k % max 1 t.cols)

/-- An element of a tensor under its run's scale: value, SAT, NAN. -/
def Tensor.elemVal (t : Tensor) (v : Nat) (runRow : Bool) (r c : Nat) : ExNum × Bool × Bool :=
  let fm := fmtD t.format
  let x := getBits v (t.elemPos r c) fm.bits
  if fm.isMx then fm.readScaled x (getBits v (t.scalePos runRow r c) 8) else fm.read x

end Sys2Proof.Machine
end

