-- ==== Sys2Proof/Machine/Glint.lean ====
section
/-!
DEFINITION. The Glint update (09_parameter_update.md R213 to R230): step sizes, the rule of one element, the working copy,
and a pass over the parameter tensors of a partition.
-/

namespace Sys2Proof.Machine

/-! ## Step size (R223) -/

/-- A number over a positive integer, exact but for a sticky bit far below every format's last place. -/
def divSticky (x : ExNum) (d : Nat) : ExNum :=
  match x with
  | .nan => .nan
  | .num neg m e =>
    if m = 0 || d = 0 then .num neg 0 0
    else
      let k := 80 + Nat.log2 d
      .num neg (2 * (m * 2 ^ k / d) + (if m * 2 ^ k % d = 0 then 0 else 1)) (e - (k : Int) - 1)

/-- A number over a positive integer, rounded to FP32 with RNE. -/
def divF32 (x : ExNum) (d : Nat) : ExNum := (roundF32 (divSticky x d)).1

/-- The step size of a schedule table at a step (R223). -/
def etaAt (t : Sched) (n : Nat) : ExNum :=
  match t.points, t.points.getLast? with
  | (s0, e0) :: _, some (sl, el) =>
    if n ≤ s0 then f32Val e0.toNat
    else if sl ≤ n then f32Val el.toNat
    else match (t.points.zip t.points.tail).find? fun p => p.1.1 ≤ n && n < p.2.1 with
      | none => ExNum.zero
      | some (a, b) =>
        let d := b.1 - a.1
        let ea := f32Val a.2.toNat
        let eb := f32Val b.2.toNat
        divF32 ((ea.mul (ExNum.ofInt d)).add ((eb.sub ea).mul (ExNum.ofInt (n - a.1 : Nat)))) d
  | _, _ => ExNum.zero

/-- The step size of a group under the schedule tables in the context's memory (R222, R223). -/
def etaOf (l : List Sched) (g : PGroup) (n : Nat) : ExNum :=
  match l.find? fun t => t.table = g.sched with
  | some t => etaAt t n
  | none => ExNum.zero

/-! ## One element (R219 to R222, R224) -/

/-- sgn of a number: −1, 0 or 1; NaN of NaN. -/
def sgn (x : ExNum) : ExNum :=
  if x.isNan then .nan else if x.isZero then ExNum.zero
  else if ExNum.lt x ExNum.zero then ExNum.ofInt (-1) else ExNum.ofInt 1

/-- The new master and moment of an element, with SAT and NAN (R219 to R222). -/
def glintElem (g : PGroup) (eta : ExNum) (gfmt wb mb gb : Nat) : Nat × Nat × Bool × Bool :=
  let (w, sw, _) := fFP32.decode wb
  let (m, sm, _) := fBF16.decode mb
  let (gv, sg, _) := (fmtD gfmt).read gb
  let st := sgn gv
  let sat := sw || sm || sg
  if st.isNan || w.isNan || m.isNan then
    if bit g.clip 0 then (wb, mb, sat, true)
    else ((fFP32.conv .rne 0 .nan).1, (fBF16.conv .rne 0 .nan).1, sat, true)
  else
    let one := ExNum.ofInt 1
    let b1 := f32Val g.beta1.toNat
    let b2 := f32Val g.beta2.toNat
    let c := (b1.mul m).add ((one.sub b1).mul st)
    let w' := w.sub (eta.mul ((sgn c).add ((f32Val g.lambda.toNat).mul w)))
    let m' := (b2.mul m).add ((one.sub b2).mul st)
    let (wn, ws, _) := fFP32.conv .rne 0 w'
    (wn, if bit g.clip 1 && st.isZero then mb else (fBF16.conv .rne 0 m').1, sat || ws, false)

/-! ## Working copies (R225) -/

/-- The runs of a working copy: the elements converted together. -/
def copyRuns (t : Tensor) (along : Bool) : List (List (Nat × Nat)) :=
  if (fmtD t.format).isMx then
    if along then
      (List.range t.rows).flatMap fun r => (List.range (ceilDiv t.cols 32)).map fun k =>
        (List.range (min 32 (t.cols - 32 * k))).map fun i => (r, 32 * k + i)
    else
      (List.range (ceilDiv t.rows 32)).flatMap fun k => (List.range t.cols).map fun c =>
        (List.range (min 32 (t.rows - 32 * k))).map fun i => (32 * k + i, c)
  else t.elems.map fun e => [e]

/-- Pad elements as +0 and pad scale bytes as 0 (R225; 05_matrix_array.md R130). -/
def padCopy (t : Tensor) (along : Bool) (x : Img) : Img :=
  let fm := fmtD t.format
  t.pads.foldl (fun x e =>
    let x := x.put (t.elemPos e.1 e.2) fm.bits 0
    if fm.isMx && (if along then t.rows ≤ e.1 else t.cols ≤ e.2) then x.put (t.scalePos along e.1 e.2) 8 0 else x) x

/-- Convert one run of masters into the copy: `wv` is the masters' value and `wl` their lines as read. A run with a
master that could not be read keeps its old bits. -/
def copyRun (t c : Tensor) (along : Bool) (wl : Lines) (wv : Nat) (acc : Img × Bool × Bool) (run : List (Nat × Nat)) :
    Img × Bool × Bool :=
  if run.any fun e => (wl.fault (t.elemPos e.1 e.2) 32).isSome then acc
  else
    let fm := fmtD c.format
    let vals := run.map fun e => (fFP32.decode (getBits wv (t.elemPos e.1 e.2) 32)).1
    match fm, run with
    | .mx f, e0 :: _ =>
      let (sc, xs, nn) := mxConv f .rne (vals.map fun v => (v, 0))
      let x := acc.1.put (c.scalePos along e0.1 e0.2) 8 sc
      ((run.zip xs).foldl (fun x p => x.put (c.elemPos p.1.1 p.1.2) fm.bits p.2) x, acc.2.1, acc.2.2 || nn)
    | _, _ =>
      (run.zip vals).foldl (fun (acc : Img × Bool × Bool) p =>
        let (b, st, nn) := fm.conv .rne 0 p.2
        (acc.1.put (c.elemPos p.1.1 p.1.2) fm.bits b, acc.2.1 || st, acc.2.2 || nn)) acc

/-! ## A pass (R213, R215, R216, R225, R227) -/

/-- What a pass has met so far: SAT and NAN by unit, codes by unit, and by unit the elements updated and
the quarter bits they moved. -/
structure PassOut where
  sat : List Nat
  nan : List Nat
  codes : List (Nat × Nat)
  elems : List (Nat × Nat)
  moved : List (Nat × Nat)
  deriving DecidableEq, Repr

/-- Nothing met. -/
def PassOut.empty : PassOut := { sat := [], nan := [], codes := [], elems := [], moved := [] }

/-- The unit of an element: the controller of its master's sector (R213). -/
def State.unitOf (s : State) (p : Nat) (uses : List (Nat × Nat)) (a pos : Nat) : Nat :=
  ((s.resolve p uses (a + pos / 8)).map (·.1)).getD 15

/-- Bits that a pass moves per element × 4 (R215). -/
def passBits (gfmt : Nat) (copy : Option Tensor) : Nat :=
  (12 * 8 + (fmtD gfmt).bits) * 4 + (match copy with
    | some c => 4 * (fmtD c.format).bits + (if (fmtD c.format).isMx then 1 else 0)
    | none => 0)

/-- Add a mark per unit. -/
def addMark (on : Bool) (u : Nat) (l : List Nat) : List Nat := if on && !l.contains u then l ++ [u] else l

/-- The unit that reads and writes a line of a companion: the one that updates an element of it (R213). -/
def State.lineUnit (s : State) (p : Nat) (uses : List (Nat × Nat)) (wa : Nat) (t c : Tensor) (i : Nat) : Nat :=
  let e := c.inLine i
  s.unitOf p uses wa (t.elemPos e.1 e.2)

/-- The path of a unit to a line of a companion: a remote line travels the memory network, the die edges and the bridges (R213). -/
def State.unitVia (s : State) (p : Nat) (uses : List (Nat × Nat)) (wa : Nat) (t c : Tensor) (i n : Nat) : List Nat :=
  ctrlVia (s.lineUnit p uses wa t c i) n

/-- The codes of the lines of a companion that failed, with their units. -/
def State.lineCodes (s : State) (p : Nat) (uses : List (Nat × Nat)) (wa : Nat) (t c : Tensor) (l : List (Nat × Nat)) : List (Nat × Nat) :=
  l.map fun b => (s.lineUnit p uses wa t c b.1, b.2)

/-- The lines that could not be read, with their codes. -/
def Lines.bad (ls : Lines) : List (Nat × Nat) :=
  ls.zipIdx.filterMap fun l => match l.1 with
    | .error e => some (l.2, e)
    | .ok _ => none

/-- The working copy of a tensor after its masters stand (R225). A line that is not written whole is read first, so that what lies
beyond the footprint and what keeps its bits is written back (R215). A line whose write is refused keeps its bits, and the
masters and moments of its elements stand updated (log 132). -/
def State.copyPass (s : State) (p : Nat) (uses : List (Nat × Nat)) (j : JobImage) (t c : Tensor) (along : Bool)
    (wl : Lines) (wv : Nat) (o : PassOut) : State × PassOut :=
  let a := j.addrOf c
  let wa := j.addrOf t
  let (x, o) := (copyRuns c along).foldl (fun (acc : Img × PassOut) run =>
    let (x, st, nn) := copyRun t c along wl wv (acc.1, false, false) run
    let u := match run with
      | e :: _ => s.unitOf p uses wa (t.elemPos e.1 e.2)
      | [] => 15
    (x, { acc.2 with sat := addMark st u acc.2.sat, nan := addMark nn u acc.2.nan }))
    ({ val := 0, mask := 0 }, o)
  let x := padCopy c along x
  let via := s.unitVia p uses wa t c
  let (s, cl) := s.readLines via (fun i => x.lineMask i ≠ 0 && !x.lineFull i) p 0 uses a c.lines
  let (s, bad) := s.writeLines via (fun _ => false) p 0 uses a cl { x with val := x.over cl.val }
  (s, { o with codes := o.codes ++ s.lineCodes p uses wa t c bad })

/-- The pass over one parameter tensor at step `n`. An element is left unchanged when a line of its master, moment or gradient cannot
be read, or when the line of its master or its moment cannot be written (R227). Every other line of masters and moments is
read and written back whole (R215). -/
def State.passTensor (s : State) (p : Nat) (uses : List (Nat × Nat)) (j : JobImage) (n : Nat) (acc : PassOut)
    (t : Tensor) : State × PassOut :=
  match j.groups.find? (fun g => g.group = t.group), j.tensors.find? (fun u => u.tensor = t.tensor + 1),
      j.tensors.find? (fun u => u.tensor = t.tensor + 2) with
  | some g, some mt, some gt =>
    let eta := etaOf (s.part p).scheds g n
    let copy := if bit g.clip 2 then j.tensors.find? (fun u => u.tensor = t.tensor + 3) else none
    let wa := j.addrOf t
    let ma := j.addrOf mt
    let via := s.unitVia p uses wa t
    let all := fun (_ : Nat) => true
    let (s, wl) := s.readLines (via t) all p 0 uses wa t.lines
    let (s, ml) := s.readLines (via mt) all p 0 uses ma mt.lines
    let (s, gl) := s.readLines (via gt) all p 0 uses (j.addrOf gt) gt.lines
    let shutW := s.shutLines (via t) p 0 uses wa wl
    let shutM := s.shutLines (via mt) p 0 uses ma ml
    let gb := (fmtD gt.format).bits
    let wv := wl.val
    let mv := ml.val
    let gv := gl.val
    -- each element that is updated: its place, its unit and its new values
    let res := t.elems.filterMap fun e =>
      let pw := t.elemPos e.1 e.2
      let pm := mt.elemPos e.1 e.2
      if (wl.fault pw 32).isSome || (ml.fault pm 16).isSome || (gl.fault (gt.elemPos e.1 e.2) gb).isSome ||
          shutW.any (fun b => b.1 = pw / 512) || shutM.any (fun b => b.1 = pm / 512) then none
      else some (e, s.unitOf p uses wa pw, glintElem g eta gt.format (getBits wv pw 32) (getBits mv pm 16)
        (getBits gv (gt.elemPos e.1 e.2) gb))
    let acc := res.foldl (fun (acc : PassOut) r =>
      { acc with sat := addMark r.2.2.2.2.1 r.2.1 acc.sat, nan := addMark r.2.2.2.2.2 r.2.1 acc.nan,
                 elems := smapUpd 0 acc.elems r.2.1 fun k => k + 1,
                 moved := smapUpd 0 acc.moved r.2.1 fun k => k + passBits gt.format copy }) acc
    let wx := res.foldl (fun (x : Img) r => x.put (t.elemPos r.1.1 r.1.2) 32 r.2.2.1) { val := wv, mask := 0 }
    let mx := res.foldl (fun (x : Img) r => x.put (mt.elemPos r.1.1 r.1.2) 16 r.2.2.2.1) { val := mv, mask := 0 }
    let back (ls : Lines) (shut : List (Nat × Nat)) (i : Nat) : Bool :=
      !(shut.any fun b => b.1 = i) && match ls.getD i (.error 0) with
        | .ok _ => true
        | .error _ => false
    let (s, badW) := s.writeLines (via t) (back wl shutW) p 0 uses wa wl wx
    let (s, badM) := s.writeLines (via mt) (back ml shutM) p 0 uses ma ml mx
    let codes := s.lineCodes p uses wa t
    let acc := { acc with codes := acc.codes ++ codes t (wl.bad ++ shutW ++ badW) ++ codes mt (ml.bad ++ shutM ++ badM) ++ codes gt gl.bad }
    -- the masters as they stand: the old line where its write failed
    let now := badW.foldl (fun (x : Img) b => x.put (512 * b.1) 512 (getBits wv (512 * b.1) 512)) wx
    match copy with
    | some c => s.copyPass p uses j t c (bit g.clip 3) wl now.val acc
    | none => (s, acc)
  | _, _, _ => (s, acc)

/-- The pass over every parameter tensor of a partition's context. -/
def State.runPass (s : State) (p : Nat) (uses : List (Nat × Nat)) (n : Nat) : State × PassOut :=
  let j := (s.part p).image
  (j.tensors.filter (·.param)).foldl (fun (acc : State × PassOut) t => acc.1.passTensor p uses j n acc.2 t)
    (s, PassOut.empty)

/-- The units that hold a master sector of a partition's context (R213, R216). -/
def State.passUnits (s : State) (p : Nat) (uses : List (Nat × Nat)) : List Nat :=
  let j := (s.part p).image
  let secs (t : Tensor) : List Nat := (List.range (ceilDiv (t.offset % 4096 + t.footprint) 4096)).map fun i =>
    s.unitOf p uses (j.addrOf t / 4096 * 4096 + 4096 * i) 0
  (List.range 12).filter fun u => (j.tensors.filter (·.param)).any fun t => (secs t).contains u

/-- The edges and bridges that the units of a running pass need to reach the companions of their masters (R213, R228). -/
def State.passNeeds (s : State) (p : Nat) : List Nat :=
  let j := (s.part p).image
  match (s.part p).step with
  | none => []
  | some r =>
    if r.phase ≠ .pass || !(r.units.any (·.2)) then []
    else (j.tensors.filter (·.param)).flatMap fun t => [t.tensor + 1, t.tensor + 2, t.tensor + 3].flatMap fun k =>
      match j.tensors.find? fun c => c.tensor = k with
      | none => []
      | some c => (List.range c.lines).flatMap fun i => match s.resolve p r.uses (j.addrOf c + 64 * i) with
        | some q => (s.unitVia p r.uses (j.addrOf t) t c i q.1).map (· / 2)
        | none => []

/-- A pass that is stopped has updated some of its elements: how many, of those it would have updated, is free (R228, R230;
log 1). A partition reset and a failed edge or bridge are faults of R228, which the units note. -/
def State.noteStopped (s : State) (units : List Nat) (o : PassOut) (code : Nat) : State :=
  units.foldl (fun s u =>
    let s := if s.getF Reg.GLINT_CTRL_CNT_EN u 0 = 1 then
        (s.addF Reg.GLINT_ELEMS_COUNT u 0 (s.free (smapGet 0 o.elems u + 1))).addF Reg.GLINT_BYTES_COUNT u 0
          (s.tick.free (smapGet 0 o.moved u / 32 + 1))
      else s
    let s := if code = 0x0801 || code = 0x0304 then (s.setF Reg.GLINT_STAT_ERR u 0 1).setF Reg.GLINT_STAT_LAST_ERR u 0 code else s
    s.tick.tick) s

/-- What a completed pass leaves in the registers of its units (R221, R227, R230): BYTES counts R215's bytes (log 24);
the cycles are free (log 1). -/
def State.notePass (s : State) (p : Nat) (units : List Nat) (o : PassOut) : State :=
  units.foldl (fun s u =>
    let s := if s.getF Reg.GLINT_CTRL_CNT_EN u 0 = 1 then
        (s.addF Reg.GLINT_ELEMS_COUNT u 0 (smapGet 0 o.elems u)).addF Reg.GLINT_BYTES_COUNT u 0 (smapGet 0 o.moved u / 32)
      else s
    let s := if o.sat.contains u then s.setF Reg.GLINT_STAT_SAT u 0 1 else s
    let s := if o.nan.contains u then s.setF Reg.GLINT_STAT_NAN u 0 1 else s
    let s := match (o.codes.filter fun c => c.1 = u).getLast? with
      | some c => (s.setF Reg.GLINT_STAT_ERR u 0 1).setF Reg.GLINT_STAT_LAST_ERR u 0 c.2
      | none => s
    ((s.setF Reg.GLINT_LAST_CYCLES u 0 (s.free (2 ^ 32))).setF Reg.GLINT_LAST_CTX u 0 (s.part p).ctx).tick) s

end Sys2Proof.Machine
end

