-- ==== Sys2Proof/Machine/Images.lean ====
section
/-!
DEFINITION. The container of an image and the sections of a frame image (03_configuration_images.md R52 to R63, R77,
R78, R468): parsing, and the checks up to 0x0907 and from 0x0910 to 0x0916.
-/

namespace Sys2Proof.Machine

/-- How a load ends when a check fails: CODE, SECTION and ENTRY (03_configuration_images.md R78). -/
structure LoadErr where
  code : Nat
  sect : Nat
  entry : Nat
  deriving DecidableEq, Repr

/-- The fault unless a condition holds. -/
def chk (ok : Bool) (code sect entry : Nat) : Option LoadErr := if ok then none else some ⟨code, sect, entry⟩

/-- The first fault of a list of checks. -/
def firstErr (l : List (Option LoadErr)) : Option LoadErr := l.findSome? id

/-- The first element of a list that breaks a rule, which may look at the elements before it. -/
def scanErr {α : Type} (code sect base : Nat) (l : List α) (ok : List α → α → Bool) : Option LoadErr :=
  (firstIdx (fun (p : α × Nat) => !ok (l.take p.2) p.1) l.zipIdx).map fun i => ⟨code, sect, base + i⟩

/-! ## Header and section table (R52, R53) -/

/-- A section: its index, TYPE, LEVEL, OFFSET and LENGTH in the table, and its bytes. -/
structure Sec where
  idx : Nat
  ty : Nat
  level : Nat
  off : Nat
  len : Nat
  data : Bytes
  deriving DecidableEq, Repr

/-- COUNT of a section's prologue (R54). -/
def Sec.count (x : Sec) : Nat := rd x.data 0 4

/-- COUNT2 of a section's prologue (R54). -/
def Sec.count2 (x : Sec) : Nat := rd x.data 4 4

/-- A 64-bit little-endian word of a section. -/
def Sec.word (x : Sec) (off : Nat) : Nat := rd x.data off 8

/-- KIND of an image. -/
def imgKind (b : Bytes) : Nat := rd b 6 1

/-- RECIPE of an image. -/
def imgRecipe (b : Bytes) : Bool := bit (rd b 7 1) 0

/-- JOINT of an image. -/
def imgJoint (b : Bytes) : Bool := bit (rd b 7 1) 1

/-- TOTAL_SIZE of an image. -/
def imgTotal (b : Bytes) : Nat := rd b 8 4

/-- SECTION_COUNT of an image. -/
def imgSections (b : Bytes) : Nat := rd b 0x0C 2

/-- SIG_OFF of an image. -/
def imgSigOff (b : Bytes) : Nat := rd b 0x34 4

/-- Check 0x0901 on the header (R52). -/
def headerOk (b : Bytes) (kind : Nat) : Bool :=
  let w := rd b 0x0E 1; let h := rd b 0x0F 1
  rd b 0 4 = 0x4D493445 && rd b 4 2 = 1 && imgKind b = kind && aligned (imgTotal b) 64 && 256 ≤ imgTotal b &&
    imgTotal b ≤ 2 ^ 28 && rd b 0x30 4 = 128 && aligned (imgSigOff b) 64 && 128 ≤ imgSigOff b &&
    imgSigOff b < imgTotal b &&
    (if kind = 1 then !imgRecipe b && !imgJoint b && w = 0 && h = 0
      else 1 ≤ w && w ≤ 12 && (1 ≤ h && h ≤ 8))

/-- The sections of an image by its table (R53). -/
def imgSecs (b : Bytes) : List Sec :=
  (List.range (imgSections b)).map fun i =>
    let e := 128 + 16 * i
    { idx := i, ty := rd b e 2, level := rd b (e + 2) 1, off := rd b (e + 4) 4, len := rd b (e + 8) 4,
      data := slice b (rd b (e + 4) 4) (rd b (e + 8) 4) }

/-- Where the records of a ROUTES, SCHEDULES or PIPELINE section end, each record's length taken from its own words; the
walk stops past the section's `len` bytes. -/
def walkEnd (size : Nat → Nat) (len : Nat) : Nat → Nat → Nat
  | 0, off => off
  | n + 1, off => if len < off then off else walkEnd size len n (off + size off)

/-- The offsets of the records of such a section. -/
def walkOffs (size : Nat → Nat) : Nat → Nat → List Nat
  | 0, _ => []
  | n + 1, off => off :: walkOffs size n (off + size off)

/-- Bytes of the ROUTES record at an offset (R66). -/
def routeSize (x : Sec) (off : Nat) : Nat := 8 + 40 * (bitsOf (x.word off) 32 29 + 1)

/-- Bytes of the SCHEDULES record at an offset (R70). -/
def schedSize (x : Sec) (off : Nat) : Nat := 8 + 8 * bitsOf (x.word off) 14 8

/-- Bytes of the PIPELINE record at an offset (R71). -/
def rankSize (x : Sec) (off : Nat) : Nat := 8 + 4 * bitsOf (x.word off) 47 32

/-- The LENGTH that a section's prologue and entries imply (R54, R57 to R75, R468); nothing for an unknown TYPE. -/
def Sec.implied (x : Sec) : Option Nat :=
  let n := x.count
  match x.ty with
  | 0x0001 => some (8 + 8 * n)
  | 0x0002 => some (8 + 8 * n)
  | 0x0003 => some (8 + 16 * n)
  | 0x0004 => some (8 + 8 * n)
  | 0x0005 => some (8 + 8 * n)
  | 0x0006 => some (8 + 32 * n)
  | 0x0007 => some (8 + 8 * n)
  | 0x0101 =>
    let t := 8 + 8 * (n + x.count2)
    some (if x.len < t then t else
      (List.range n).foldl (fun e i =>
        max e (bitsOf (x.word (8 + 8 * i)) 31 0 + 4 * bitsOf (x.word (8 + 8 * i)) 47 32)) t)
  | 0x0102 => some (walkEnd (routeSize x) x.len n 8)
  | 0x0103 => some (8 + 16 * n)
  | 0x0104 => some (8 + 32 * n)
  | 0x0105 => some (8 + 32 * n)
  | 0x0106 => some (8 + 32 * n)
  | 0x0107 => some (walkEnd (schedSize x) x.len n 8)
  | 0x0108 => some (walkEnd (rankSize x) x.len n 8)
  | 0x0109 => some (8 + 16 * n)
  | 0x010A => some (8 + 112 * n + 16 * x.count2)
  | 0x010B => some (8 + 16 * n)
  | 0x010C => some (24 + 16 * n)
  | _ => none

/-- Is a byte of the image in no section, past the first one (R53)? -/
def inGap (secs : List Sec) (p : Nat) : Bool := secs.all fun x => p < x.off || x.off + x.len ≤ p

/-- Check 0x0902: the section table (R53, R54, R468). -/
def check0902 (b : Bytes) : Option LoadErr :=
  let n := imgSections b
  let secs := imgSecs b
  let tabEnd := 128 + 16 * n
  let sig := imgSigOff b
  let first := secs.foldl (fun m x => min m x.off) sig
  firstErr [
    chk (1 ≤ n && n ≤ 64 && tabEnd ≤ sig) 0x0902 0xFF 0,
    (secs.find? fun x => !(aligned x.off 64 && 8 ≤ x.len && tabEnd ≤ x.off && x.off + x.len ≤ sig)).map
      fun x => ⟨0x0902, x.idx, 0⟩,
    (secs.find? fun x => (secs.take x.idx).any fun y => !disjoint x.off x.len y.off y.len).map fun x => ⟨0x0902, x.idx, 0⟩,
    chk ((List.range (sig - first)).all fun i => !inGap secs (first + i) || b.getD (first + i) 0 = 0) 0x0902 0xFF 0,
    (secs.find? fun x => match x.implied with
      | some l => x.len ≠ l
      | none => false).map fun x => ⟨0x0902, x.idx, 0⟩]

/-! ## Reserved bits (R12, R468) -/

/-- May COUNT2 of a section be nonzero (R54)? A type that the tables do not list is left to check 0x0904. -/
def usesCount2 (ty : Nat) : Bool :=
  ty = 0x0003 || ty = 0x0006 || ty = 0x0101 || ty = 0x0108 || ty = 0x010A || ty = 0x010B ||
    !((1 ≤ ty && ty ≤ 7) || (0x0101 ≤ ty && ty ≤ 0x010C))

/-- Are the bits of a word above `hi` zero? -/
def above (w hi : Nat) : Bool := w / 2 ^ (hi + 1) = 0

/-- Are the reserved bits of one branch record zero (R66)? -/
def branchClean (x : Sec) (o : Nat) : Bool :=
  let w := x.word o
  above w 24 && rd x.data (o + 8) 32 / 2 ^ (2 * bitsOf w 17 11) = 0

/-- Is byte `p` of a TILE_CODE section outside its records and blobs (R64)? -/
def codePad (x : Sec) (p : Nat) : Bool :=
  8 + 8 * (x.count + x.count2) ≤ p && (List.range x.count).all fun i =>
    let d := x.word (8 + 8 * i)
    p < bitsOf d 31 0 || bitsOf d 31 0 + 4 * bitsOf d 47 32 ≤ p

/-- The first record of a section with a reserved bit set, by entry number: each test is a record's number and whether
it is clean. An undefined COUNT2 counts as reserved (log 19). -/
def Sec.reserved (x : Sec) : Option Nat :=
  let n := x.count
  let recs (size : Nat) (ok : Nat → Bool) : Option Nat := firstIdx (fun i => !ok (8 + size * i)) (List.range n)
  if !usesCount2 x.ty && x.count2 ≠ 0 then some 0
  else match x.ty with
  | 0x0001 => recs 8 fun o => above (x.word o) 18
  | 0x0002 => recs 8 fun o => above (x.word o) 1
  | 0x0003 => recs 16 fun o => rd x.data (o + 9) 1 = 0 && rd x.data (o + 12) 4 = 0
  | 0x0004 => recs 8 fun o => above (x.word o) 0
  | 0x0005 => recs 8 fun o => above (x.word o) 8
  | 0x0007 => recs 8 fun o => bitsOf (x.word o) 15 1 = 0 && above (x.word o) 31
  | 0x0101 =>
    let blob := recs 8 fun o => above (x.word o) 47
    let tile := (firstIdx (fun j =>
      let w := x.word (8 + 8 * (n + j))
      !(bitsOf w 15 11 = 0 && bitsOf w 31 27 = 0 && above w 46)) (List.range x.count2)).map (n + ·)
    let pad := if (List.range x.len).any fun p => codePad x p && x.data.getD p 0 ≠ 0 then some 0 else none
    [blob, tile, pad].findSome? id
  | 0x0102 => firstIdx (fun o => !(above (x.word o) 32 &&
      (List.range (bitsOf (x.word o) 32 29 + 1)).all fun k => branchClean x (o + 8 + 40 * k))) (walkOffs (routeSize x) n 8)
  | 0x0103 => recs 16 fun o =>
      let w := x.word o
      above w 18 && above (x.word (o + 8)) (match bitsOf w 18 17 with | 0 => 16 | 1 => 11 | 2 => 39 | _ => 7)
  | 0x0104 => recs 32 fun o => above (x.word o) 35 && above (x.word (o + 8)) 51 && x.word (o + 24) = 0
  | 0x0105 => recs 32 fun o => above (x.word o) 47 && above (x.word (o + 24)) 31
  | 0x0106 => recs 32 fun o => above (x.word o) 19 && above (x.word (o + 16)) 31 && x.word (o + 24) = 0
  | 0x0107 => firstIdx (fun o => !above (x.word o) 14) (walkOffs (schedSize x) n 8)
  | 0x0108 =>
    if x.count2 / 2 ^ 16 ≠ 0 then some 0
    else firstIdx (fun o => !(bitsOf (x.word o) 31 28 = 0 && above (x.word o) 47 &&
      (List.range (bitsOf (x.word o) 47 32)).all fun k => above (rd x.data (o + 8 + 4 * k) 4) 16))
        (walkOffs (rankSize x) n 8)
  | 0x0109 => recs 16 fun o => bitsOf (x.word o) 7 3 = 0 && above (x.word o) 16 && x.word (o + 8) = 0
  | 0x010A =>
    let own := recs 48 fun o => above (rd x.data (o + 0x21) 2) 10 && allZero (slice x.data (o + 0x23) 13)
    let gate := (firstIdx (fun k => !allZero (slice x.data (8 + 48 * n + 16 * k + 6) 10)) (List.range x.count2)).map (n + ·)
    [own, gate].findSome? id
  | 0x010B => recs 16 fun o => above (x.word o) 10 && above (x.word (o + 8)) 40
  | _ => none

/-- The signature block: COUNT (R56). -/
def sigCount (b : Bytes) : Nat := rd b (imgSigOff b) 4

/-- Check 0x0903: reserved bits of the header, the table, the sections and the signature block (R468). -/
def check0903 (b : Bytes) : Option LoadErr :=
  let secs := imgSecs b
  let sig := imgSigOff b
  let recEnd := sig + 8 + 96 * sigCount b
  firstErr [
    chk (rd b 7 1 / 4 = 0 && allZero (slice b 0x38 72)) 0x0903 0xFF 0,
    (secs.find? fun x => !(rd b (128 + 16 * x.idx + 3) 1 = 0 && rd b (128 + 16 * x.idx + 12) 4 = 0)).map
      fun x => ⟨0x0903, x.idx, 0⟩,
    secs.findSome? fun x => x.reserved.map fun e => ⟨0x0903, x.idx, e⟩,
    chk (rd b (sig + 4) 4 = 0 && allZero ((b.take (imgTotal b)).drop recEnd)) 0x0903 0xFF 0]

/-! ## Section types (R55) -/

/-- When a type is required: never, always, with JOINT, or with RECIPE. -/
inductive Required where
  | no | yes | joint | recipe
  deriving DecidableEq, Repr

/-- The section types: kind, level, and when they are required (R55). -/
def secType (ty : Nat) : Option (Nat × Nat × Required) :=
  match ty with
  | 0x0001 => some (1, 0, .yes)
  | 0x0002 => some (1, 0, .no)
  | 0x0003 => some (1, 0, .yes)
  | 0x0004 => some (1, 0, .yes)
  | 0x0005 => some (1, 0, .no)
  | 0x0006 => some (1, 0, .no)
  | 0x0007 => some (1, 1, .no)
  | 0x0101 => some (2, 1, .yes)
  | 0x0102 => some (2, 1, .no)
  | 0x0103 => some (2, 1, .no)
  | 0x0104 => some (2, 0, .yes)
  | 0x0105 => some (2, 0, .yes)
  | 0x0106 => some (2, 0, .no)
  | 0x0107 => some (2, 0, .no)
  | 0x0108 => some (2, 1, .no)
  | 0x0109 => some (2, 0, .no)
  | 0x010A => some (2, 0, .joint)
  | 0x010B => some (2, 0, .yes)
  | 0x010C => some (2, 0, .recipe)
  | _ => none

/-- Does an image need, or may it not hold, a conditional type? -/
def Required.wanted (r : Required) (b : Bytes) : Bool :=
  match r with
  | .no => false
  | .yes => true
  | .joint => imgJoint b
  | .recipe => imgRecipe b

/-- Check 0x0904 (R55). -/
def check0904 (b : Bytes) : Option LoadErr :=
  let secs := imgSecs b
  let types := (List.range 7).map (· + 1) ++ (List.range 12).map (· + 0x101)
  firstErr [
    (secs.find? fun x => match secType x.ty with
      | none => true
      | some (kind, level, req) =>
        kind ≠ imgKind b || x.level ≠ level || (secs.take x.idx).any (fun y => y.ty = x.ty) ||
          ((req = .joint || req = .recipe) && !req.wanted b)).map fun x => ⟨0x0904, x.idx, 0⟩,
    chk (types.all fun t => match secType t with
      | none => true
      | some (kind, _, req) => kind ≠ imgKind b || !req.wanted b || secs.any fun x => x.ty = t) 0x0904 0xFF 0]

/-- The image digest D (R56). -/
def imgDigest (b : Bytes) : Bytes := Config.sha512 (b.take (imgSigOff b))

/-- Public key and signature of the first record of the signature block (R56). -/
def imgSigner (b : Bytes) : Bytes × Bytes := (slice b (imgSigOff b + 8) 32, slice b (imgSigOff b + 40) 64)

/-- The value of a BAR0 register: its fields at their places. -/
def State.regWord (s : State) (off : Nat) : Nat :=
  ((regTable.flatMap fun f => f.copies.filterMap fun ij =>
    if f.base + f.s1 * ij.1 + f.s2 * ij.2 = off then some (s.getF f ij.1 ij.2 * 2 ^ f.lo) else none)).sum

/-- The capability bits of the module (15_shared_objects_and_submission.md R353). -/
def State.capFeatures (s : State) : Nat :=
  [Reg.CAP_FEATURES_PROFILE_K, Reg.CAP_FEATURES_GATES, Reg.CAP_FEATURES_RAMOM, Reg.CAP_FEATURES_ETHERNET,
   Reg.CAP_FEATURES_GLINT, Reg.CAP_FEATURES_BEACON, Reg.CAP_FEATURES_REFLECTION, Reg.CAP_FEATURES_FOUR_BIT,
   Reg.CAP_FEATURES_SEMIRING, Reg.CAP_FEATURES_COMPENSATED, Reg.CAP_FEATURES_WEIGHT_SETS,
   Reg.CAP_FEATURES_MIGRATE].foldl (fun n f => n + s.get f * 2 ^ f.lo) 0

/-- Checks 0x0901 to 0x0907 in order; `accept` says which signers the target accepts (R56). -/
def State.checkContainer (s : State) (b : Bytes) (kind : Nat) (accept : Bytes → Bool) : Option LoadErr :=
  if !headerOk b kind then some ⟨0x0901, 0xFF, 0⟩
  else firstErr [check0902 b, check0903 b, check0904 b,
    chk (sigCount b = 1 && imgSigOff b + 104 ≤ imgTotal b && accept (imgSigner b).1) 0x0905 0xFF 0,
    chk (Config.ed25519Verify (imgSigner b).1 (imgDigest b) (imgSigner b).2) 0x0906 0xFF 0,
    chk ((List.range 64).all fun i => !bit (rd b 0x18 8) i || bit s.capFeatures i) 0x0907 0xFF 0]

/-- The section of a type. -/
def imgSec (b : Bytes) (ty : Nat) : Option Sec := (imgSecs b).find? fun x => x.ty = ty

/-! ## Frame images (R57 to R63) -/

/-- The entries of PARTITION_MAP (R57). -/
def frameParts (b : Bytes) : List PartRect :=
  match imgSec b 0x0001 with
  | none => []
  | some x => (List.range x.count).map fun i =>
    let w := x.word (8 + 8 * i)
    { part := bitsOf w 4 0, cx0 := bitsOf w 8 5, cx1 := bitsOf w 12 9, cy0 := bitsOf w 15 13, cy1 := bitsOf w 18 16 }

/-- Do two rectangles share a cluster? -/
def PartRect.meets (p q : PartRect) : Bool :=
  p.cx0 ≤ q.cx1 && q.cx0 ≤ p.cx1 && (p.cy0 ≤ q.cy1 && q.cy0 ≤ p.cy1)

/-- The entries of MEMORY_CARVE (R59). -/
def frameCarve (b : Bytes) : List Carve :=
  match imgSec b 0x0003 with
  | none => []
  | some x => (List.range x.count).map fun i =>
    let o := 8 + 16 * i
    { part := rd x.data o 1, hbm := (List.range 8).map fun k => rd x.data (o + 1 + k) 1, lpddr := rd x.data (o + 10) 2 }

/-- A frame image as data. Missing optional sections take their defaults (R55). -/
def frameOf (b : Bytes) : FrameImage :=
  { serial := rd b 0x10 8, imageId := rd b 0x20 16, digest := imgDigest b, capReq := rd b 0x18 8, parts := frameParts b,
    portModes := match imgSec b 0x0002 with
      | none => List.replicate 16 0
      | some x => (List.range 16).map fun i => bitsOf (x.word (8 + 8 * i)) 1 0,
    carve := frameCarve b,
    stewardGib := match imgSec b 0x0003 with
      | none => 0
      | some x => x.count2,
    profileK := match imgSec b 0x0004 with
      | none => false
      | some x => bit (x.word 8) 0,
    gates := match imgSec b 0x0005 with
      | none => []
      | some x => (List.range x.count).map fun i => (bitsOf (x.word (8 + 8 * i)) 3 0, bitsOf (x.word (8 + 8 * i)) 8 4),
    peerMode := match imgSec b 0x0006 with
      | none => 0
      | some x => x.count2,
    peers := match imgSec b 0x0006 with
      | none => []
      | some x => (List.range x.count).map fun i => slice x.data (8 + 32 * i) 32,
    glimmerEn := match imgSec b 0x0007 with
      | none => true
      | some x => bit (x.word 8) 0,
    floodRate := match imgSec b 0x0007 with
      | none => 1000
      | some x => bitsOf (x.word 8) 31 16 }

/-- What the checks of a frame depend on beside the image (R81, R82). -/
structure FrameCtx where
  /-- at bring-up there is no frame in force, and neither the idle check nor a change is refused -/
  boot : Bool
  persist : Bool
  idle : Bool
  /-- has the start-frame area reached its wear limit? -/
  worn : Bool
  deriving DecidableEq, Repr

/-- Does a frame change STEWARD_GIB, or PROFILE? -/
def State.frameChanges (s : State) (f : FrameImage) : Bool × Bool :=
  (f.stewardGib ≠ s.frame.stewardGib, f.profileK ≠ s.frame.profileK)

/-- The first carve entry at which a sum passes its limit (R59). -/
def carveOver (steward : Nat) (l : List Carve) : Option Nat :=
  firstIdx (fun (p : Carve × Nat) =>
    let t := l.take (p.2 + 1)
    (List.range 8).any (fun k => 41 < (t.map fun c => c.hbm.getD k 0).sum) || 876 < (t.map (·.lpddr)).sum + steward) l.zipIdx

/-- Checks 0x0910 to 0x0916 of a frame image (R57 to R63, R78, R81, R82, R468; 16_reliability_and_integrity.md R400). -/
def State.checkFrame (s : State) (b : Bytes) (c : FrameCtx) : Option LoadErr :=
  let f := frameOf b
  let at' (ty : Nat) : Nat := ((imgSec b ty).map (·.idx)).getD 0xFF
  let n (ty : Nat) : Nat := ((imgSec b ty).map (·.count)).getD 0
  let has (ty : Nat) : Bool := (imgSec b ty).isSome
  let (chgS, chgP) := s.frameChanges f
  let refuseS := !c.boot && chgS && (!c.persist || c.worn)
  let refuseP := !c.boot && chgP && (!c.persist || c.worn)
  firstErr [
    chk (n 1 ≤ 32) 0x0910 (at' 1) 0,
    scanErr 0x0910 (at' 1) 0 f.parts fun before p =>
      p.cx0 ≤ p.cx1 && p.cy0 ≤ p.cy1 && p.cx1 ≤ 11 && before.all (fun q => q.part ≠ p.part && !q.meets p) &&
        p.clusters.all fun k => !s.clusterFailed k,
    chk (c.boot || c.idle || (c.persist && (chgS || chgP))) 0x0911 0xFF 0,
    chk (!has 2 || n 2 = 16) 0x0912 (at' 2) 0,
    scanErr 0x0912 (at' 2) 0 f.portModes fun _ m => m ≠ 3,
    chk (n 3 ≤ 32 && 16 ≤ f.stewardGib && f.stewardGib ≤ 876 && !refuseS) 0x0913 (at' 3) 0,
    scanErr 0x0913 (at' 3) 0 f.carve fun before e =>
      (f.parts.any fun p => p.part = e.part) && (before.all fun q => q.part ≠ e.part) &&
        (List.range 8).all fun k => e.hbm.getD k 0 = 0 || s.getF Reg.MC_STAT_FAILED k 0 = 0,
    (carveOver f.stewardGib f.carve).map fun i => ⟨0x0913, at' 3, i⟩,
    chk (n 5 ≤ 16) 0x0914 (at' 5) 0,
    scanErr 0x0914 (at' 5) 0 f.gates fun before g =>
      (before.all fun q => q.1 ≠ g.1 && q.2 ≠ g.2) && (f.carve.all fun e => e.part ≠ g.2) &&
        (match f.parts.find? fun p => p.part = g.2 with
          | some p => p.cx0 = p.cx1 && p.cy0 = p.cy1
          | none => false),
    chk (n 4 = 1 && !refuseP) 0x0915 (at' 4) 0,
    chk (!has 6 || (n 6 ≤ 256 && f.peerMode ≤ 2)) 0x0915 (at' 6) 0,
    chk (!has 7 || (n 7 = 1 && 1 ≤ f.floodRate && f.floodRate ≤ 10000)) 0x0916 (at' 7) 0]

end Sys2Proof.Machine
end

