-- ==== Sys2Proof/Machine/JobCheck.lean ====
section
/-!
DEFINITION. The sections of a job image (03_configuration_images.md R64 to R75) as data, and its checks from 0x0924 to
0x0931 and 0x0933 (R77, R78, R468; 08_training_dataflow.md R192, R197, R201; 09_parameter_update.md R214, R222;
17_reflection_and_recovery.md R407, R408, R416).
-/

namespace Sys2Proof.Machine

/-! ## Sections as data -/

/-- The 32-bit words of a byte string. -/
def words32 (b : Bytes) : List (BitVec 32) :=
  (List.range (b.length / 4)).map fun i => BitVec.ofNat 32 (rd b (4 * i) 4)

/-- The blobs of TILE_CODE (R64). -/
def codeBlobs (x : Sec) : List (List (BitVec 32)) :=
  (List.range x.count).map fun i =>
    let d := x.word (8 + 8 * i)
    words32 (slice x.data (bitsOf d 31 0) (4 * bitsOf d 47 32))

/-- The tile entries of TILE_CODE (R64). -/
def codeTiles (x : Sec) : List TileEntry :=
  (List.range x.count2).map fun j =>
    let w := x.word (8 + 8 * (x.count + j))
    { rx := bitsOf w 5 0, ry := bitsOf w 10 6, blob := bitsOf w 26 16, entry := bitsOf w 46 32 }

/-- The bindings of CHANNELS (R65). -/
def chanBindings (x : Sec) : List Binding :=
  (List.range x.count).map fun i =>
    let w := x.word (8 + 16 * i)
    let v := x.word (16 + 16 * i)
    let k := bitsOf w 18 17
    { rx := bitsOf w 5 0, ry := bitsOf w 10 6, ep := bitsOf w 16 11, kind := k,
      prx := if k = 0 then bitsOf v 5 0 else 0, pry := if k = 0 then bitsOf v 10 6 else 0,
      pep := if k = 0 then bitsOf v 16 11 else 0, stream := if k = 1 || k = 2 then bitsOf v 11 0 else 0,
      ringBase := if k = 2 then 64 * bitsOf v 26 12 else 0, ringSize := if k = 2 then 64 * bitsOf v 39 27 else 0,
      service := if k = 3 then bitsOf v 7 0 else 0 }

/-- The streams of ROUTES (R66). -/
def routesOf (x : Sec) : List Route :=
  (walkOffs (routeSize x) x.count 8).map fun o =>
    let h := x.word o
    { stream := bitsOf h 11 0, srcEp := bitsOf h 17 12, srcRx := bitsOf h 23 18, srcRy := bitsOf h 28 24,
      branches := (List.range (bitsOf h 32 29 + 1)).map fun k =>
        let w := x.word (o + 8 + 40 * k)
        let dirs := rd x.data (o + 16 + 40 * k) 32
        { parent := bitsOf w 3 0, forkHop := bitsOf w 10 4, sinkEp := bitsOf w 23 18, sinkHub := bit w 24,
          dirs := (List.range (bitsOf w 17 11)).map fun i => bitsOf dirs (2 * i + 1) (2 * i) } }

/-- The regions of MEMORY_PLAN (R67). -/
def planOf (x : Sec) : List Region :=
  (List.range x.count).map fun i =>
    let w := x.word (8 + 32 * i)
    { region := bitsOf w 11 0, tier := bitsOf w 12 12, keyId := bitsOf w 23 13, ctrlMask := bitsOf w 35 24,
      base := bitsOf (x.word (16 + 32 * i)) 51 0, size := x.word (24 + 32 * i) }

/-- The tensors of TENSORS (R68). -/
def tensorsOf (x : Sec) : List Tensor :=
  (List.range x.count).map fun i =>
    let w := x.word (8 + 32 * i)
    let v := x.word (24 + 32 * i)
    { tensor := bitsOf w 15 0, region := bitsOf w 27 16, format := bitsOf w 35 28, layout := bitsOf w 37 36,
      param := bit w 38, group := bitsOf w 46 39, digests := bit w 47, offset := x.word (16 + 32 * i),
      rows := bitsOf v 31 0, cols := bitsOf v 63 32, tie := bitsOf (x.word (32 + 32 * i)) 31 0 }

/-- The groups of PARAM_GROUPS (R69). -/
def groupsOf (x : Sec) : List PGroup :=
  (List.range x.count).map fun i =>
    let w := x.word (8 + 32 * i)
    let v := x.word (16 + 32 * i)
    { group := bitsOf w 7 0, sched := bitsOf w 15 8, clip := bitsOf w 19 16, beta1 := BitVec.ofNat 32 (bitsOf v 31 0),
      beta2 := BitVec.ofNat 32 (bitsOf v 63 32), lambda := BitVec.ofNat 32 (bitsOf (x.word (24 + 32 * i)) 31 0) }

/-- The tables of SCHEDULES (R70). -/
def schedsOf (x : Sec) : List Sched :=
  (walkOffs (schedSize x) x.count 8).map fun o =>
    let h := x.word o
    { table := bitsOf h 7 0, points := (List.range (bitsOf h 14 8)).map fun k =>
        let w := x.word (o + 8 + 8 * k)
        (bitsOf w 31 0, BitVec.ofNat 32 (bitsOf w 63 32)) }

/-- The PIPELINE section (R71). -/
def pipelineOf (x : Sec) : Pipeline :=
  { v := bitsOf x.count2 3 0, m := bitsOf x.count2 15 4,
    ranks := (walkOffs (rankSize x) x.count 8).map fun o =>
      let h := x.word o
      { rank := bitsOf h 5 0, rx0 := bitsOf h 11 6, ry0 := bitsOf h 16 12, rx1 := bitsOf h 22 17, ry1 := bitsOf h 27 23,
        ops := (List.range (bitsOf h 47 32)).map fun k =>
          let w := rd x.data (o + 8 + 4 * k) 4
          { kind := bitsOf w 1 0, micro := bitsOf w 13 2, chunk := bitsOf w 16 14 } } }

/-- The entry of REFLECTION (R72). -/
def reflOf (x : Sec) : ReflPolicy :=
  let w := x.word 8
  { mirrors := bitsOf w 1 0, compact := bit w 2, every := bitsOf w 15 8, verifyReplica := bit w 16 }

/-- The MANIFEST section (R75). -/
def manifestOf (x : Sec) : Manifest :=
  let n := x.count; let g := x.count2
  { owners := (List.range n).map fun i =>
      let o := 8 + 48 * i
      { key := slice x.data o 32, part := rd x.data (o + 0x20) 1, keyId := rd x.data (o + 0x21) 2 },
    gates := (List.range g).map fun k =>
      let o := 8 + 48 * n + 16 * k
      { gate := rd x.data o 1, combine := rd x.data (o + 1) 1, modelKey := rd x.data (o + 2) 2, ownerMask := rd x.data (o + 4) 2 },
    sigs := (List.range n).map fun i => slice x.data (8 + 48 * n + 16 * g + 64 * i) 64,
    raw := x.data }

/-- The tile records of NEEDS (R73). -/
def needsOf (x : Sec) : List Need :=
  (List.range x.count).map fun i =>
    let w := x.word (8 + 16 * i); let v := x.word (16 + 16 * i)
    { rx := bitsOf w 5 0, ry := bitsOf w 10 6, spadBase := 64 * bitsOf v 15 0, spadSize := 64 * bitsOf v 31 16,
      accKib := bitsOf v 40 32 }

/-- A job image as data (R64 to R75); missing optional sections take their defaults (R55). -/
def jobOf (b : Bytes) : JobImage :=
  let opt {α : Type} (ty : Nat) (d : α) (f : Sec → α) : α := ((imgSec b ty).map f).getD d
  { serial := rd b 0x10 8, imageId := rd b 0x20 16, digest := imgDigest b, recipe := imgRecipe b, joint := imgJoint b,
    partW := rd b 0x0E 1, partH := rd b 0x0F 1, capReq := rd b 0x18 8,
    blobs := opt 0x0101 [] codeBlobs, tiles := opt 0x0101 [] codeTiles, bindings := opt 0x0103 [] chanBindings,
    routes := opt 0x0102 [] routesOf, plan := opt 0x0104 [] planOf, tensors := opt 0x0105 [] tensorsOf,
    groups := opt 0x0106 [] groupsOf, scheds := opt 0x0107 [] schedsOf,
    pipeline := (imgSec b 0x0108).map pipelineOf, refl := opt 0x0109 ⟨0, false, 1, false⟩ reflOf,
    manifest := (imgSec b 0x010A).map manifestOf, queues := opt 0x010B 0 Sec.count2, needs := opt 0x010B [] needsOf,
    recipeInfo := opt 0x010C [] (·.data) }

/-! ## Code and channels (R64, R65, R97) -/

/-- Is a partition-relative tile inside the image's rectangle? -/
def JobImage.inside (j : JobImage) (rx ry : Nat) : Bool := rx < 4 * j.partW && ry < 4 * j.partH

/-- Does the image code a tile? -/
def JobImage.codes (j : JobImage) (rx ry : Nat) : Bool := j.tiles.any fun t => t.rx = rx && t.ry = ry

/-- One step in a direction, as partition-relative coordinates; nothing past coordinate 0 (R66). -/
def stepDir (p : Nat × Nat) (d : Nat) : Option (Nat × Nat) :=
  match d with
  | 0 => if p.2 = 0 then none else some (p.1, p.2 - 1)
  | 1 => some (p.1 + 1, p.2)
  | 2 => some (p.1, p.2 + 1)
  | _ => if p.1 = 0 then none else some (p.1 - 1, p.2)

/-- The tiles a branch visits from its first one; it ends early where it leaves coordinate 0. -/
def pathFrom (p : Nat × Nat) : List Nat → List (Nat × Nat)
  | [] => [p]
  | d :: ds => p :: (match stepDir p d with
    | some q => pathFrom q ds
    | none => [])

/-- The tiles of every branch of a route, each coordinate raised by `o`; a branch with a bad fork has none (R66). -/
def Route.pathsAt (o : Nat) (r : Route) : List (List (Nat × Nat)) :=
  r.branches.zipIdx.foldl (fun acc b =>
    let from? : Option (Nat × Nat) :=
      if b.2 = 0 then some (r.srcRx + o, r.srcRy + o)
      else if b.1.parent < b.2 then (acc.getD b.1.parent [])[b.1.forkHop]? else none
    acc ++ [match from? with
      | some p => pathFrom p b.1.dirs
      | none => []]) []

/-- The tiles of every branch of a route (R66). -/
def Route.paths (r : Route) : List (List (Nat × Nat)) := r.pathsAt 0

/-- The tile a branch ends at, when it is whole. -/
def Branch.endOf (b : Branch) (path : List (Nat × Nat)) : Option (Nat × Nat) :=
  if path.length = b.dirs.length + 1 then path.getLast? else none

/-- Does a stream have its source at a tile's endpoint (R65)? -/
def JobImage.hasSource (j : JobImage) (stream rx ry ep : Nat) : Bool :=
  j.routes.any fun r => r.stream = stream && r.srcRx = rx && r.srcRy = ry && r.srcEp = ep

/-- Does a stream have a branch that ends at a tile's endpoint (R65), wherever it leads on its way (R66 judges that)? -/
def JobImage.hasSink (j : JobImage) (stream rx ry ep : Nat) : Bool :=
  j.routes.any fun r => r.stream = stream && (r.branches.zip (r.pathsAt 4096)).any fun p =>
    !p.1.sinkHub && p.1.sinkEp = ep && p.1.endOf p.2 = some (rx + 4096, ry + 4096)

/-- Is a binding of CHANNELS in order, given those before it (R65; 04_tile_core.md R97)? -/
def JobImage.bindingOk (j : JobImage) (before : List Binding) (b : Binding) : Bool :=
  j.inside b.rx b.ry && (before.all fun c => !(c.rx = b.rx && c.ry = b.ry && c.ep = b.ep)) &&
    (match b.kind with
      | 0 => (j.bindings.any fun c => c.kind = 0 && c.rx = b.prx && c.ry = b.pry && c.ep = b.pep && c.prx = b.rx &&
          c.pry = b.ry && c.pep = b.ep) &&
        decide ((before.filter fun c => c.kind = 0 && c.rx = b.rx && c.ry = b.ry).length < 51)
      | 1 => j.hasSource b.stream b.rx b.ry b.ep
      | 2 => 256 ≤ b.ringSize && b.ringSize ≤ 262144 && j.hasSink b.stream b.rx b.ry b.ep
      | _ => b.service ≤ 3)

/-- Does a SIN ring fit and meet no earlier ring of its tile (R65)? -/
def ringOk (before : List Binding) (b : Binding) : Bool :=
  b.kind ≠ 2 || (b.ringBase + b.ringSize ≤ 0x200000 && before.all fun c =>
    c.kind ≠ 2 || !(c.rx = b.rx && c.ry = b.ry) || disjoint b.ringBase b.ringSize c.ringBase c.ringSize)

/-- Is a NEEDS record in order (R73)? -/
def JobImage.needOk (j : JobImage) (before : List Need) (n : Need) : Bool :=
  j.codes n.rx n.ry && (before.all fun m => !(m.rx = n.rx && m.ry = n.ry)) && n.spadBase + n.spadSize ≤ 0x200000 &&
    (n.spadSize = 0 || j.bindings.all fun c =>
      c.kind ≠ 2 || !(c.rx = n.rx && c.ry = n.ry) || disjoint n.spadBase n.spadSize c.ringBase c.ringSize)

/-! ## Routes (02_fabric.md R33, R34; R66) -/

/-- The hub crossing of a router in global coordinates, as die × 16 + crossing (R66). -/
def crossingAt (x y : Nat) : Option Nat :=
  if y % 16 = 15 && 4 ≤ x % 24 && x % 24 < 20 then some ((y / 16 * 2 + x / 24) * 16 + (x % 24 - 4)) else none

/-- Is a stream sourced from the hub (R66)? -/
def JobImage.hubSourced (j : JobImage) (x0 y0 : Nat) (r : Route) : Bool :=
  r.srcEp = 63 && (crossingAt (x0 + r.srcRx) (y0 + r.srcRy)).isSome &&
    !(j.bindings.any fun c => c.kind = 1 && c.rx = r.srcRx && c.ry = r.srcRy && c.ep = 63 && c.stream = r.stream)

/-- The mesh output ports a route uses, as (tile, direction) in partition-relative coordinates. -/
def Route.ports (r : Route) : List ((Nat × Nat) × Nat) := (r.branches.zip r.paths).flatMap fun p => p.2.zip p.1.dirs

/-- Hops from the source to the end of each branch. -/
def Route.lengths (r : Route) : List Nat :=
  r.branches.zipIdx.foldl (fun acc b =>
    let start := if b.2 = 0 then 0
      else (acc.getD b.1.parent 0) - ((r.branches[b.1.parent]?.map (·.dirs.length)).getD 0) + b.1.forkHop
    acc ++ [start + b.1.dirs.length]) []

/-- Is a route in order, given the ones before it (02_fabric.md R33, R44; R66; log 20)? -/
def JobImage.routeOk (j : JobImage) (x0 y0 : Nat) (before : List Route) (r : Route) : Bool :=
  let hub := j.hubSourced x0 y0 r
  let bound := j.bindings.any fun c =>
    c.kind = 1 && c.rx = r.srcRx && c.ry = r.srcRy && c.ep = r.srcEp && c.stream = r.stream
  let ends := (r.branches.zip r.paths).map fun p => p.1.endOf p.2
  (before.all fun q => q.stream ≠ r.stream) && j.inside r.srcRx r.srcRy && (bound || hub) &&
    (!hub || r.branches.all fun b => !b.sinkHub) &&
    (r.branches.zipIdx.all fun b => if b.2 = 0 then b.1.parent = 0 && b.1.forkHop = 0
      else b.1.parent < b.2 && b.1.forkHop ≤ ((r.branches[b.1.parent]?).map (·.dirs.length)).getD 0) &&
    (r.paths.all fun p => p.all fun q => j.inside q.1 q.2) && ends.all Option.isSome &&
    (r.lengths.all fun n => n ≤ 127) && decide (r.ports.Nodup) && decide (ends.Nodup) &&
    ((r.branches.zip ends).all fun p => match p.2 with
      | none => false
      | some q =>
        if p.1.sinkHub then (crossingAt (x0 + q.1) (y0 + q.2)).map (· % 16) = some p.1.sinkEp
        else j.bindings.any fun c =>
          c.kind = 2 && c.rx = q.1 && c.ry = q.2 && c.ep = p.1.sinkEp && c.stream = r.stream)

/-- The hub crossings a route uses, × 2 + 1 towards the hub, + 0 from it (02_fabric.md R34, R42). -/
def JobImage.routeCrossings (j : JobImage) (x0 y0 : Nat) (r : Route) : List Nat :=
  (if j.hubSourced x0 y0 r then ((crossingAt (x0 + r.srcRx) (y0 + r.srcRy)).map fun c => 2 * c).toList else []) ++
    (r.branches.zip r.paths).filterMap fun p =>
      if p.1.sinkHub then (p.1.endOf p.2).bind fun q => (crossingAt (x0 + q.1) (y0 + q.2)).map fun c => 2 * c + 1
      else none

/-- The first stream that needs a 9th slot of a port or of a hub crossing (02_fabric.md R34). -/
def JobImage.slotsOver (j : JobImage) (x0 y0 : Nat) : Option Nat :=
  firstIdx (fun (p : Route × Nat) =>
    let before := j.routes.take (p.2 + 1)
    (p.1.ports.any fun q => 8 < (before.filter fun r => r.ports.contains q).length) ||
      ((j.routeCrossings x0 y0 p.1).any fun c =>
        8 < (before.flatMap (j.routeCrossings x0 y0)).countP fun d => d = c)) j.routes.zipIdx

/-! ## Memory plan and tensors (R67, R68) -/

/-- Sectors of a region on the `i`-th of `k` controllers (11_memory_tiers_and_weights.md R266). -/
def sectorsOn (size k i : Nat) : Nat := (size / 4096 + k - 1 - i) / k

/-- Bytes × 4 that regions place on a controller. -/
def State.planDemand (s : State) (p : Nat) (l : List Region) (c : Nat) : Nat :=
  (l.map fun r =>
    let cs := s.regionCtrls p r
    match cs.idxOf? c with
    | some i => 4 * 4096 * sectorsOn r.size cs.length i
    | none => 0).sum

/-- Is a region in order, and does the plan so far fit the partition's carve (R67, R78; 08_training_dataflow.md R201;
17_reflection_and_recovery.md R416)? -/
def State.regionOk (s : State) (p : Nat) (before : List Region) (r : Region) : Bool :=
  (before.all fun q => q.region ≠ r.region && (q.keyId ≠ r.keyId || disjoint q.base q.size r.base r.size)) &&
    r.size ≠ 0 && aligned r.size 4096 && aligned r.base 4096 && r.base + r.size ≤ 2 ^ 52 &&
    (if r.tier = 0 then r.ctrlMask < 256 else r.ctrlMask % 256 = 0) && !(s.regionCtrls p r).isEmpty &&
    (r.region ≠ 0xFFF || r.size = 4096) && (r.region ≠ 0xFFD || (r.tier = 1 && aligned r.size 0x200000)) &&
    (s.regionCtrls p r).all fun c => s.planDemand p (before ++ [r]) c ≤ s.carveShare p c * 2 ^ 30

/-- Bytes of a tensor (R68). -/
def Tensor.bytes (t : Tensor) : Nat :=
  let fm := (fmtOf t.format).getD .bin1
  let n := if t.layout = 1 then roundUp t.rows 32 * roundUp t.cols 32 else t.rows * t.cols
  ceilDiv (n * fm.bits) 8 + (if fm.isMx then ceilDiv n 32 else 0)

/-- A tensor of an image by its ID. -/
def JobImage.tensor (j : JobImage) (id : Nat) : Option Tensor := j.tensors.find? fun t => t.tensor = id

/-- A region of an image's plan by its number. -/
def JobImage.region (j : JobImage) (r : Nat) : Option Region := j.plan.find? fun q => q.region = r

/-- A parameter group of an image. -/
def JobImage.group (j : JobImage) (g : Nat) : Option PGroup := j.groups.find? fun x => x.group = g

/-- COPY of a group (09_parameter_update.md R222). -/
def PGroup.copy (g : PGroup) : Bool := bit g.clip 2

/-- COPY_RUNS of a group (09_parameter_update.md R222). -/
def PGroup.copyRuns (g : PGroup) : Bool := bit g.clip 3

/-- Is a tensor descriptor in order by itself (R68; 06_accumulation_and_numerics.md R145, R149; 08_training_dataflow.md
R192, R201; 13_tenants_and_joint_training.md R323)? -/
def JobImage.tensorOk (j : JobImage) (before : List Tensor) (t : Tensor) : Bool :=
  (before.all fun u => u.tensor ≠ t.tensor) && (fmtOf t.format).isSome && t.format ≠ 0x18 && t.layout ≤ 1 &&
    (t.param || t.group = 0) && aligned t.offset 64 && t.rows ≠ 0 && t.cols ≠ 0 && t.region ≠ 0xFFF &&
    (!((fmtOf t.format).getD .bin1).isMx || (if t.layout = 0 then aligned t.cols 32 else ceilDiv t.cols 32 % 2 = 0)) &&
    (match j.region t.region with
      | some r => t.offset + t.bytes ≤ r.size
      | none => false) &&
    (!(j.joint && 0xF00 ≤ t.region && t.region ≤ 0xF1F) || (!t.param && t.tie = 0 && 4096 ≤ t.offset))

/-- Is a tie group in order (08_training_dataflow.md R197)? -/
def JobImage.tieOk (j : JobImage) (tie : Nat) : Bool :=
  let g := j.tensors.filter fun t => t.tie = tie
  let bufs := g.filter fun t => !t.param
  match g, bufs with
  | t :: _, b :: _ =>
    g.length = bufs.length + 1 && 2 ≤ bufs.length && bufs.length ≤ 16 &&
      (g.all fun u => u.rows = t.rows && u.cols = t.cols && u.layout = t.layout) &&
      (bufs.all fun u => u.format = b.format) && (b.format = 1 || b.format = 2)
  | _, _ => false

/-- A companion of a parameter tensor: present, PARAM 0, of the same shape (09_parameter_update.md R214). -/
def JobImage.companion (j : JobImage) (t : Tensor) (k : Nat) : Option Tensor :=
  (j.tensor (t.tensor + k)).filter fun u => !u.param && u.rows = t.rows && u.cols = t.cols && u.layout = t.layout

/-- Are a parameter tensor, its group and its companions in order (09_parameter_update.md R214, R222)? -/
def JobImage.paramOk (j : JobImage) (t : Tensor) : Bool :=
  t.format = 1 &&
    (match j.companion t 1 with
      | some m => m.format = 2 && m.region = t.region && m.tie = 0
      | none => false) &&
    (match j.companion t 2 with
      | some g => (g.format = 2 || g.format = 1 || g.format = 0x14 || g.format = 0x11) &&
        (if t.tie = 0 then g.tie = 0
          else g.tie = t.tie && j.tensors.all fun u => u.param || u.tie ≠ t.tie || g.tensor ≤ u.tensor)
      | none => false) &&
    (match j.group t.group with
      | none => false
      | some pg =>
        !pg.copy || (match j.companion t 3 with
          | some w => 2 ≤ w.format && w.format ≤ 0x0A && w.region = t.region && w.tie = 0 &&
            !(w.layout = 0 && ((fmtOf w.format).getD .bin1).isMx && !pg.copyRuns)
          | none => false))

/-! ## Groups, schedules, pipeline, Reflection (R69 to R72) -/

/-- Is an FP32 word finite and not negative? -/
def f32NonNeg (w : BitVec 32) : Bool :=
  let v := fFP32.decode w.toNat
  !v.2.1 && ExNum.le ExNum.zero v.1

/-- Is an FP32 word in [0, 1)? -/
def f32Unit (w : BitVec 32) : Bool := f32NonNeg w && ExNum.lt (f32Val w.toNat) (ExNum.ofInt 1)

/-- Is a parameter group in order (R69)? -/
def JobImage.groupOk (j : JobImage) (before : List PGroup) (g : PGroup) : Bool :=
  (before.all fun h => h.group ≠ g.group) && f32Unit g.beta1 && f32Unit g.beta2 && f32NonNeg g.lambda &&
    j.scheds.any fun t => t.table = g.sched

/-- Is a schedule table in order (R70)? -/
def schedOk (before : List Sched) (t : Sched) : Bool :=
  (before.all fun u => u.table ≠ t.table) && 1 ≤ t.points.length && t.points.length ≤ 64 &&
    (t.points.zip t.points.tail).all (fun p => p.1.1 < p.2.1) && t.points.all fun p => f32NonNeg p.2

/-- Is the list of a rank in order (R71)? -/
def opsOk (v m : Nat) (ops : List PipeOp) : Bool :=
  decide (ops.length = 2 * v * m) && ops.zipIdx.all fun o =>
    o.1.kind ≤ 1 && o.1.micro < m && o.1.chunk < v && (ops.take o.2).all (fun q => q ≠ o.1) &&
      (o.1.kind = 0 || (ops.take o.2).any fun q => q.kind = 0 && q.micro = o.1.micro && q.chunk = o.1.chunk)

/-- Is a rank in order (R71)? -/
def JobImage.rankOk (j : JobImage) (p v m : Nat) (before : List PipeRank) (r : PipeRank) : Bool :=
  r.rank < p && (before.all fun q => q.rank ≠ r.rank &&
      !(q.rx0 ≤ r.rx1 && r.rx0 ≤ q.rx1 && (q.ry0 ≤ r.ry1 && r.ry0 ≤ q.ry1))) &&
    r.rx0 ≤ r.rx1 && r.ry0 ≤ r.ry1 && j.inside r.rx1 r.ry1 && opsOk v m r.ops

/-- The sector intervals of a byte range of a region, under its key. -/
def Region.sectors (r : Region) (off n : Nat) : Nat × Nat :=
  (r.keyId * 2 ^ 40 + (r.base + off) / 4096, r.keyId * 2 ^ 40 + (r.base + off + n + 4095) / 4096)

/-- The sector intervals of a capture, group by group (17_reflection_and_recovery.md R408). -/
def JobImage.captureSpans (j : JobImage) : List (List (Nat × Nat)) :=
  let at' (t : Tensor) : Option (Nat × Nat) := (j.region t.region).map fun r => r.sectors t.offset t.bytes
  let params := j.tensors.filter (·.param)
  let first := params.flatMap fun t =>
    if j.refl.compact then ((j.tensor (t.tensor + 3)).bind at').toList
    else (at' t).toList ++ ((j.tensor (t.tensor + 1)).bind at').toList
  let whole (n : Nat) := ((j.region n).map fun r => r.sectors 0 r.size).toList
  [first, whole 0xFFF, whole 0xFFE]

/-- Sectors in a union of intervals. -/
def unionSize (l : List (Nat × Nat)) : Nat :=
  ((l.mergeSort fun a b => a.1 ≤ b.1).foldl (fun (acc : Nat × Nat) p =>
    (acc.1 + (p.2 - max p.1 acc.2), max acc.2 p.2)) (0, 0)).1

/-- Check 0x0931 (R72; 17_reflection_and_recovery.md R407). -/
def State.reflOk (s : State) (j : JobImage) : Bool :=
  j.refl.mirrors ≠ 3 && j.refl.every ≠ 0 &&
    (j.refl.mirrors = 0 || (s.profileK && (j.region 0xFFE).isSome &&
      (!j.refl.compact || j.tensors.all fun t => !t.param || (match j.group t.group with
        | some g => g.copy
        | none => false)) &&
      unionSize j.captureSpans.flatten ≤ 45964975))

/-! ## The checks in order (R77, R78, R468) -/

/-- Checks 0x0924 to 0x0933 of a job image for partition `p`. `held` says which key IDs the context holds with write
rights (13_tenants_and_joint_training.md R311), `freeQ` how many queue slots are free, `man` is check 0x0932. -/
def State.checkJob (s : State) (b : Bytes) (p : Nat) (held : Nat → Bool) (freeQ : Nat) (man : Option LoadErr) :
    Option LoadErr :=
  let j := jobOf b
  let at' (ty : Nat) : Nat := ((imgSec b ty).map (·.idx)).getD 0xFF
  let n (ty : Nat) : Nat := ((imgSec b ty).map (·.count)).getD 0
  let has (ty : Nat) : Bool := (imgSec b ty).isSome
  let tiles := ((imgSec b 0x0101).map (·.count2)).getD 0
  let blobs := n 0x0101
  let (x0, y0) := match s.rect p with
    | some r => (4 * r.cx0, 4 * r.cy0)
    | none => (0, 0)
  let descs := (List.range blobs).map fun i => ((imgSec b 0x0101).map fun x => x.word (8 + 8 * i)).getD 0
  firstErr [
    chk (tiles ≠ 0) 0x0924 (at' 0x0101) 0,
    chk (tiles ≤ 1536) 0x0925 (at' 0x0101) 0,
    scanErr 0x0925 (at' 0x0101) blobs j.tiles fun before t =>
      j.inside t.rx t.ry && before.all fun u => !(u.rx = t.rx && u.ry = t.ry),
    chk (1 ≤ blobs && blobs ≤ 2048) 0x0926 (at' 0x0101) 0,
    scanErr 0x0926 (at' 0x0101) 0 descs fun _ d =>
      aligned (bitsOf d 31 0) 64 && 8 + 8 * (blobs + tiles) ≤ bitsOf d 31 0 && 1 ≤ bitsOf d 47 32 && bitsOf d 47 32 ≤ 32768,
    scanErr 0x0926 (at' 0x0101) blobs j.tiles fun _ t =>
      t.blob < blobs && t.entry < (j.blobs.getD t.blob []).length,
    scanErr 0x0927 (at' 0x0103) 0 j.bindings j.bindingOk,
    scanErr 0x0928 (at' 0x0103) 0 j.bindings ringOk,
    scanErr 0x0928 (at' 0x010B) 0 j.needs j.needOk,
    scanErr 0x0929 (at' 0x0102) 0 j.routes (j.routeOk x0 y0),
    (j.slotsOver x0 y0).map fun i => ⟨0x092A, at' 0x0102, i⟩,
    scanErr 0x092B (at' 0x010B) 0 j.needs fun _ x => x.accKib ≤ 256,
    chk (1 ≤ n 0x0104 && n 0x0104 ≤ 4096) 0x092C (at' 0x0104) 0,
    scanErr 0x092C (at' 0x0104) 0 j.plan (s.regionOk p),
    chk (1 ≤ n 0x0105 && n 0x0105 ≤ 65536) 0x092D (at' 0x0105) 0,
    scanErr 0x092D (at' 0x0105) 0 j.tensors j.tensorOk,
    scanErr 0x092D (at' 0x0105) 0 j.tensors fun before t =>
      t.tie = 0 || before.any (fun u => u.tie = t.tie) || j.tieOk t.tie,
    scanErr 0x092D (at' 0x0105) 0 j.tensors fun _ t => !t.param || j.paramOk t,
    scanErr 0x092E (at' 0x0104) 0 j.plan fun _ r => held r.keyId,
    chk (n 0x0106 ≤ 256) 0x092F (at' 0x0106) 0,
    scanErr 0x092F (at' 0x0106) 0 j.groups j.groupOk,
    chk (n 0x0107 ≤ 256) 0x092F (at' 0x0107) 0,
    scanErr 0x092F (at' 0x0107) 0 j.scheds schedOk,
    (match j.pipeline with
      | none => none
      | some q => firstErr [
          chk (1 ≤ q.ranks.length && q.ranks.length ≤ 64 && 1 ≤ q.v && q.v ≤ 8 && 1 ≤ q.m && q.m ≤ 4095) 0x0930
            (at' 0x0108) 0,
          scanErr 0x0930 (at' 0x0108) 0 q.ranks (j.rankOk q.ranks.length q.v q.m)]),
    chk (!has 0x0109 || n 0x0109 = 1) 0x0931 (at' 0x0109) 0,
    chk (s.reflOk j) 0x0931 (at' 0x0109) 0,
    man,
    chk (1 ≤ j.queues && j.queues ≤ 4096 && j.queues ≤ freeQ) 0x0933 (at' 0x010B) 0]

end Sys2Proof.Machine
end

