-- ==== Sys2Proof/Machine/Rights.lean ====
section
/-!
DEFINITION. The entries of the owner table, and the two rights entries that follow the key table and the owner table while
the module runs: link ingress, master 33, and the debug access port, master 35 (12_prism_memory_protection.md R302, R303;
13_tenants_and_joint_training.md R309, R321; 17_reflection_and_recovery.md R416; 19_lifecycle_firmware_debug.md R465).
-/

namespace Sys2Proof.Machine

/-- An entry of the owner table. -/
def State.owner (s : State) (i : Nat) : Owner := smapGet Owner.free s.ten.owners i

/-- Change an entry of the owner table. -/
def State.updOwner (s : State) (i : Nat) (f : Owner → Owner) : State :=
  { s with ten := { s.ten with owners := smapUpd Owner.free s.ten.owners i f } }

/-- The entry of KIND SINGLE that holds a public key. -/
def State.ownerOfKey (s : State) (k : Bytes) : Option Nat :=
  (s.ten.owners.find? fun e => e.2.kind = 1 && e.2.data = k).map (·.1)

/-- INGRESS of the owner of a key. -/
def State.keyIngress (s : State) (k : Nat) : Bool := (s.owner (s.keyEntry k).owner).ingress

/-- A map of 2,048 bits with the bits of a list of key IDs. -/
def keyMap (l : List Nat) : Nat := l.foldl setBit 0

/-- Has the plan of a bound context a region under a key that a predicate takes? -/
def State.boundRegion (s : State) (k : Nat) (f : Region → Bool) : Bool :=
  (List.range 32).any fun p => (s.part p).loaded && (s.part p).image.plan.any fun r => r.keyId = k && f r

/-- The VALID key IDs that a predicate takes. -/
def State.validKeys (s : State) (f : Nat → KeyEntry → Bool) : List Nat :=
  (s.prism.keys.filter fun e => e.2.state = .valid && f e.1 e.2).map (·.1)

/-- The rights of link ingress: write for the VALID key IDs of owners with INGRESS 1 that a bound plan names, and read
too where the plan's region is the host region. -/
def State.ingressRights (s : State) : Rights :=
  { read := keyMap (s.validKeys fun k _ => s.keyIngress k && s.boundRegion k fun r => r.region = 0xFFD),
    write := keyMap (s.validKeys fun k _ => s.keyIngress k && s.boundRegion k fun _ => true),
    stewardOnly := false, rawRead := false }

/-- The rights of the debug access port: what the token in force grants, and RAW_READ. -/
def State.debugRights (s : State) : Rights :=
  match s.pilot.token with
  | none => ⟨0, 0, false, true⟩
  | some t =>
    let own := keyMap (s.validKeys fun _ e => t.owner ≠ 0 && e.owner = t.owner)
    { read := (if bit t.rights 3 then 1 else 0) + (if bit t.rights 5 then own else 0),
      write := (if bit t.rights 4 then 1 else 0) + (if bit t.rights 6 then own else 0),
      stewardOnly := false, rawRead := true }

/-- Bring both entries up to date. -/
def State.syncRights (s : State) : State := (s.setRights 33 s.ingressRights).setRights 35 s.debugRights

end Sys2Proof.Machine
end

