-- ==== Sys2Proof/Machine/Objects.lean ====
section
/-!
DEFINITION. MSI-X, the notice ring, records and their references, context records, fences
(14_host_attach.md R343, R344; 15_shared_objects_and_submission.md R351, R352, R354, R355, R368 to R372, R379, R471).
-/

namespace Sys2Proof.Machine

/-! ## MSI-X (14_host_attach.md R343, R344) -/

/-- Does the Steward run? Otherwise it is in reset for R344. -/
def State.stewardRuns (s : State) : Bool := s.get Reg.STEWARD_STAT_STATE = 2

/-- Is a vector held back by its mask, by the function mask or by MSI-X being disabled? -/
def State.vectorHeld (s : State) (v : Nat) : Bool :=
  (smapGet MsixEntry.reset s.hub.msix v).masked || s.hub.funcMask || !s.hub.msixOn

/-- Send the message of a vector. -/
def State.sendMsix (s : State) (v : Nat) : State :=
  let e := smapGet MsixEntry.reset s.hub.msix v
  s.emit (.msix e.addr e.data)

/-- A source raises its vector. -/
def State.raise (s : State) (v : Nat) : State :=
  if !s.stewardRuns then s
  else if s.vectorHeld v then { s with hub := { s.hub with pba := setBit s.hub.pba v } }
  else s.sendMsix v

/-- The vectors that wait and are no longer held back are sent, and their bits clear. -/
def State.flushMsix (s : State) : State :=
  (bitList 2048 s.hub.pba).foldl (fun s v =>
    if s.vectorHeld v then s
    else { s with hub := { s.hub with pba := clearBit s.hub.pba v } }.sendMsix v) s

/-! ## Notices (R379) -/

/-- Count a dropped notice. -/
def State.dropNotice (s : State) : State := s.addF Reg.LOG_DROPS_COUNT 0 0 1

/-- The 32 bytes of a notice. -/
def noticeBytes (kind code ctx queue addr arg : Nat) : Bytes :=
  leBytes 8 (kind + code * 2 ^ 8 + ctx * 2 ^ 24 + queue * 2 ^ 38) ++ leBytes 8 addr ++ leBytes 8 arg ++ zeros 8

/-- Post a notice: KIND 1 ERROR, 2 RELEASE, 3 PEER_DEPARTED, 4 DOORBELL_BAD. -/
def State.notice (s : State) (kind code ctx queue addr arg : Nat) : State :=
  let lg := s.get Reg.LOG_RING_SIZE_LOG2
  let size := 2 ^ lg
  let head := s.get Reg.LOG_IDX_HEAD % size
  if s.get Reg.LOG_RING_EN = 0 || lg < 4 || 16 < lg || (head + 1) % size = s.get Reg.LOG_IDX_TAIL % size then s.dropNotice
  else
    match s.hubWrite (s.get Reg.LOG_RING_ADDR * 64 + 32 * head) (noticeBytes kind code ctx queue addr arg) with
    | (s, some _) => s.dropNotice
    | (s, none) => (s.set Reg.LOG_IDX_HEAD ((head + 1) % size)).raise 1

/-- Post an ERROR notice. -/
def State.noteError (s : State) (code ctx queue addr arg : Nat) : State := s.notice 1 code ctx queue addr arg

/-! ## Records (R351, R352) -/

/-- Do `n` bytes at a device logical address lie in the Steward region under key ID 0? -/
def State.inSteward (s : State) (a n : Nat) : Bool := a + n ≤ s.stewardBytes

/-- KIND of the record at an address. -/
def State.kindAt (s : State) (a : Nat) : State × Except Nat Nat :=
  match s.hubRead a 1 with
  | (s, .ok b) => (s, .ok (leNat b))
  | (s, .error e) => (s, .error e)

/-- The module drops one reference of a record: the last one posts RELEASE, and an underflow posts 0x0107. -/
def State.dropRef (s : State) (ctx queue seq a : Nat) : State :=
  match s.hubRead (a + 4) 4 with
  | (s, .error e) => s.noteError e ctx queue a seq
  | (s, .ok b) =>
    if leNat b = 0 then s.noteError 0x0107 ctx queue a seq
    else match s.hubWrite (a + 4) (leBytes 4 (leNat b - 1)) with
      | (s, some e) => s.noteError e ctx queue a seq
      | (s, none) => if leNat b = 1 then s.notice 2 0 0 0x1FFF a 0 else s

/-- Drop a reference of a record if it is one of the given KIND in the Steward region. -/
def State.dropNaming (s : State) (ctx queue seq kind n a : Nat) : State :=
  if !s.inSteward a n then s
  else match s.kindAt a with
    | (s, .ok k) => if k = kind then s.dropRef ctx queue seq a else s
    | (s, .error e) => s.noteError e ctx queue a seq

/-! ## Context records (R354, R355) -/

/-- The address of a context's record. -/
def State.ctxAddr (s : State) (c : Nat) : Nat := s.get Reg.CTX_TABLE_ADDR * 4096 + 256 * c

/-- A word of a context's record; one that cannot be read counts as 0 (log 21). -/
def State.ctxWord (s : State) (c w : Nat) : State × Nat :=
  match s.hubRead (s.ctxAddr c + 8 * w) 8 with
  | (s, .ok b) => (s, leNat b)
  | (s, .error _) => (s, 0)

/-- Are the reserved bits of words 0 to 7 of a context's record zero (R351, R355; 00_scope.md R12)? -/
def ctxClean (b : Bytes) : Bool :=
  rd b 2 2 = 0 && rd b 8 8 < 2 ^ 12 && bitsOf (rd b 16 8) 15 12 = 0 && rd b 16 8 < 2 ^ 32 && bitsOf (rd b 40 8) 6 1 = 0 &&
    rd b 40 8 < 2 ^ 63 && bitsOf (rd b 48 8) 31 17 = 0 && rd b 48 8 < 2 ^ 48 && rd b 56 8 < 2 ^ 48

/-- The owner index in a context's record, and whether the context is valid (R354, R355): a record with a reserved bit set is
refused as one that is not (00_scope.md R12), and one that cannot be read counts as zeros (log 21). -/
def State.ctxRecord (s : State) (c : Nat) : State × Nat × Bool :=
  match s.hubRead (s.ctxAddr c) 64 with
  | (s, .ok b) => (s, rd b 8 8 % 2048, rd b 0 1 = 1 && bit (rd b 8 8) 11 && ctxClean b)
  | (s, .error _) => (s, 0, false)

/-- OWNER of a context, if the context is valid (R354). -/
def State.ctxOwner (s : State) (c : Nat) : State × Option Nat :=
  match s.ctxRecord c with
  | (s, o, v) => (s, if v then some o else none)

/-- The partition a context is bound to. -/
def State.boundPart (s : State) (c : Nat) : Option Nat :=
  (List.range 32).find? fun p => (s.part p).loaded && (s.part p).ctx = c

/-- The resident slot of a context. -/
def State.slotOf (s : State) (c : Nat) : Option Nat :=
  (List.range 48).find? fun i => s.getF Reg.SLOT_STAT_STATE i 0 ≠ 0 && s.getF Reg.SLOT_STAT_CTX i 0 = c

/-- Write words 2, 3, 4 and 6 of a context's record at an eviction or a binding change. -/
def State.saveCtx (s : State) (c : Nat) (w2 step gen : Nat) (head : Option Nat) : State :=
  let (s, w6) := s.ctxWord c 6
  let w6 := match head with
    | some h => w6 % 2 ^ 32 + h % 2 ^ 16 * 2 ^ 32
    | none => w6
  let s := (s.hubWrite (s.ctxAddr c + 16) (leBytes 8 w2 ++ leBytes 8 step ++ leBytes 8 gen)).1
  (s.hubWrite (s.ctxAddr c + 48) (leBytes 8 w6)).1

/-- Show a bound context's step and pending error in its resident slot (R383). -/
def State.showSlot (s : State) (p : Nat) : State :=
  match s.slotOf (s.part p).ctx with
  | none => s
  | some i => ((s.setF Reg.SLOT_STAT_PEND_ERR i 0 (s.part p).pendErr).setF Reg.SLOT_INFO_STEP i 0 (s.part p).stepNo).setF
      Reg.SLOT_STAT_PINNED i 0 (if (s.part p).loaded then 1 else 0)

/-- Hold an error for the next step-boundary fence of a partition's context; a later one is logged in an ERROR notice and dropped
(R371; log 140). -/
def State.pend (s : State) (p code : Nat) : State :=
  if !(s.part p).loaded then s
  else if (s.part p).pendErr ≠ 0 then s.noteError code (s.part p).ctx 0x1FFF 0 0
  else (s.updPart p fun x => { x with pendErr := code }).showSlot p

/-! ## Fences and events (R368 to R372, R471) -/

/-- What the module reads of a fence record: VALUE, word 2, word 3 and EV_THRESHOLD. -/
structure Fence where
  value : Nat
  w2 : Nat
  w3 : Nat
  thr : Nat
  deriving DecidableEq, Repr

/-- ERRED of a fence. -/
def Fence.erred (f : Fence) : Bool := bit f.w2 16

/-- ERR of a fence. -/
def Fence.err (f : Fence) : Nat := f.w2 % 2 ^ 16

/-- Read a fence record. A read that fails posts its notice (R471). -/
def State.readFence (s : State) (ctx queue seq a : Nat) : State × Except Nat Fence :=
  match s.hubRead (a + 8) 32 with
  | (s, .ok b) => (s, .ok { value := rd b 0 8, w2 := rd b 8 8, w3 := rd b 16 8, thr := rd b 24 8 })
  | (s, .error e) => (s.noteError e ctx queue a seq, .error e)

/-- Does an armed event of the fence fire (R372)? -/
def Fence.fires (f : Fence) : Bool := bit f.w3 11 && (f.thr ≤ f.value || f.erred)

/-- Write a fence and fire its event: EV_EN clears in the same write, EV_VECTOR is raised, or 0x0108 posted (R372). A
write that fails posts its notice (R471). -/
def State.writeFence (s : State) (ctx queue seq a : Nat) (f : Fence) : State × Option Nat :=
  let w3 := if f.fires then clearBit f.w3 11 else f.w3
  match s.hubWrite (a + 8) (leBytes 8 f.value ++ leBytes 8 f.w2 ++ leBytes 8 w3) with
  | (s, some e) => (s.noteError e ctx queue a seq, some e)
  | (s, none) =>
    if !f.fires then (s, none)
    else if f.w3 % 2048 < 64 then (s.noteError 0x0108 ctx queue a seq, none)
    else (s.raise (f.w3 % 2048), none)

/-- A signal of value `v` to a fence (R369): the code with which the command completes. -/
def State.signal (s : State) (ctx queue seq a v : Nat) : State × Nat :=
  match s.readFence ctx queue seq a with
  | (s, .error e) => (s, e)
  | (s, .ok f) =>
    if f.erred then (s.addF Reg.FENCE_STALE_COUNT 0 0 1, 0)
    else if f.value = 2 ^ 64 - 1 then (s, 0x0106)
    else if v ≤ f.value then (s.addF Reg.FENCE_STALE_COUNT 0 0 1, 0)
    else match s.writeFence ctx queue seq a { f with value := v } with
      | (s, some e) => (s, e)
      | (s, none) => (s, 0)

/-- Attach a code to a fence for value `v` (R370). -/
def State.attach (s : State) (ctx queue seq a v code : Nat) : State :=
  match s.readFence ctx queue seq a with
  | (s, .error _) => s
  | (s, .ok f) =>
    if f.erred || v ≤ f.value then s.noteError code ctx queue a seq
    else match s.writeFence ctx queue seq a { f with w2 := f.w2 / 2 ^ 17 * 2 ^ 17 + 2 ^ 16 + code % 2 ^ 16 } with
      | (s, some _) => s
      | (s, none) => s.noteError code ctx queue a seq

end Sys2Proof.Machine
end

