-- ==== Sys2Proof/Machine/Queues.lean ====
section
/-!
DEFINITION. Queues, residency of contexts and the completion of commands
(15_shared_objects_and_submission.md R356 to R363, R366, R371, R374 to R377, R472).
-/

namespace Sys2Proof.Machine

/-! ## Commands (R360, R361) -/

/-- Word `i` of a command. -/
def HubCmd.w (c : HubCmd) (i : Nat) : Nat := c.words.getD i 0

/-- Operand word `i`. -/
def HubCmd.o (c : HubCmd) (i : Nat) : Nat := c.w (8 + i)

/-- OP. -/
def HubCmd.op (c : HubCmd) : Nat := c.w 0 % 256

/-- WAIT_EN. -/
def HubCmd.waitEn (c : HubCmd) : Bool := bit (c.w 0) 8

/-- SIGNAL_EN. -/
def HubCmd.signalEn (c : HubCmd) : Bool := bit (c.w 0) 9

/-- RECORD_EN. -/
def HubCmd.recordEn (c : HubCmd) : Bool := bit (c.w 0) 10

/-- CTX. -/
def HubCmd.ctx (c : HubCmd) : Nat := bitsOf (c.w 0) 29 16

/-- SEQ. -/
def HubCmd.seq (c : HubCmd) : Nat := bitsOf (c.w 0) 63 32

/-- An OP of R361. -/
def HubCmd.listed (c : HubCmd) : Bool := [0x01, 0x02, 0x03, 0x10, 0x11, 0x12, 0x13, 0x14].contains c.op

/-- How many operand words the OP uses (R361, R365; 08_training_dataflow.md R203, R207; 11_memory_tiers_and_weights.md
R267, R275; 10_links_and_collectives.md R253). -/
def HubCmd.uses (c : HubCmd) : Nat :=
  match c.op with
  | 0x03 => 5
  | 0x10 => 1
  | 0x11 => 3
  | 0x12 => 1
  | 0x13 => let h := c.o 0 % 8; if 1 ≤ h && h ≤ 4 then 3 + h else 7
  | 0x14 => 3
  | _ => 0

/-- Check 1 of R362: OP listed, the queue's context, no reserved bit. -/
def HubCmd.formOk (c : HubCmd) (ctx : Nat) : Bool :=
  let addr (i : Nat) (on : Bool) : Bool := if on then c.w i % 64 = 0 && c.w i < 2 ^ 63 else c.w i = 0
  c.listed && c.ctx = ctx && bitsOf (c.w 0) 15 11 = 0 && bitsOf (c.w 0) 31 30 = 0 && addr 1 c.waitEn &&
    (c.waitEn || c.w 2 = 0) && addr 3 c.signalEn && (c.signalEn || c.w 4 = 0) && addr 5 c.recordEn && c.w 6 = 0 &&
    c.w 7 = 0 && (List.range 8).all fun i => i < c.uses || c.o i = 0

/-! ## Queue fields -/

/-- The context of a queue. -/
def State.qCtx (s : State) (q : Nat) : Nat := s.getF Reg.Q_IDX_CTX q 0

/-- The state of a queue: 0 FREE, 1 RUNNING, 2 STOPPING, 3 STOPPED, 4 ERROR (R374, R384). -/
def State.qState (s : State) (q : Nat) : Nat := s.getF Reg.Q_STAT_STATE q 0

/-- The commands of a queue that the hub has read, oldest first. -/
def State.qCmds (s : State) (q : Nat) : List HubCmd := smapGet [] s.hub.cmds q

/-- Replace them. -/
def State.setCmds (s : State) (q : Nat) (l : List HubCmd) : State :=
  { s with hub := { s.hub with cmds := smapSet [] s.hub.cmds q l } }

/-- The oldest command of a queue. -/
def State.qHead (s : State) (q : Nat) : Option HubCmd := (s.qCmds q).head?

/-- Change the oldest command of a queue. -/
def State.updHead (s : State) (q : Nat) (f : HubCmd → HubCmd) : State :=
  match s.qCmds q with
  | [] => s
  | c :: r => s.setCmds q (f c :: r)

/-- The oldest command of a queue ends with a code. -/
def State.endCmd (s : State) (q code : Nat) : State :=
  (s.updHead q fun c => { c with stage := .ended, code := code, load := none }).setF Reg.Q_STAT_WAITING q 0 0

/-- The queues of a context, ascending. -/
def State.ctxQueues (s : State) (c : Nat) : List Nat :=
  (List.range 4096).filter fun q => s.qState q ≠ 0 && s.qCtx q = c

/-- Commands of a queue that are queued: read and not started, or covered by the doorbell (R359). -/
def State.qQueued (s : State) (q : Nat) : Bool :=
  (s.qCmds q).any (fun c => c.stage = .waiting) || s.getF Reg.Q_IDX_HEAD q 0 ≠ s.getF Reg.Q_IDX_TAIL q 0

/-- Has a report stopped the image of a context (04_tile_core.md R111)? -/
def State.ctxFailed (s : State) (c : Nat) : Bool :=
  (List.range 32).any fun p => (s.part p).loaded && (s.part p).ctx = c && (s.part p).failed

/-- Is any command of a context queued or running (03_configuration_images.md R80)? A command that has ended and not
completed counts as running, unless a report has stopped the context (04_tile_core.md R111). -/
def State.ctxBusy (s : State) (c : Nat) : Bool :=
  (s.ctxQueues c).any fun q => (s.qCmds q).any (fun x => x.stage ≠ .ended || !s.ctxFailed c) ||
    s.getF Reg.Q_IDX_HEAD q 0 ≠ s.getF Reg.Q_IDX_TAIL q 0

/-- QUEUE_COUNT from the queues and the loaded images (R357; 03_configuration_images.md R77). -/
def State.countQueues (s : State) : State :=
  let used := ((List.range 4096).filter fun q => s.qState q ≠ 0)
  let res := (List.range 32).map fun p =>
    if (s.part p).loaded then (s.part p).image.queues - (used.filter fun q => s.qCtx q = (s.part p).ctx).length else 0
  (s.set Reg.QUEUE_COUNT_USED used.length).set Reg.QUEUE_COUNT_RESERVED res.sum

/-- Queue slots that no reservation holds. -/
def State.freeQueues (s : State) : Nat := 4096 - s.get Reg.QUEUE_COUNT_USED - s.get Reg.QUEUE_COUNT_RESERVED

/-! ## Fetching (R359, R362, R472) -/

/-- Are the reserved bits of a fence record zero (R351, R368; 00_scope.md R12)? -/
def fenceClean (b : Bytes) : Bool := rd b 2 2 = 0 && rd b 16 8 < 2 ^ 17 && rd b 24 8 < 2 ^ 12 && allZero (slice b 40 24)

/-- Is an address that of a record of a KIND, of `n` bytes in the Steward region? A record that cannot be read is none
(log 22), and a fence record with a reserved bit set is refused as one (00_scope.md R12). -/
def State.recordOk (s : State) (kind n a : Nat) : State × Bool :=
  if !s.inSteward a n then (s, false)
  else match s.hubRead a n with
    | (s, .ok b) => (s, rd b 0 1 = kind && (kind ≠ 3 || fenceClean b))
    | (s, .error _) => (s, false)

/-- The records that a command names beside its context: KIND, bytes and address. -/
def HubCmd.namings (c : HubCmd) : List (Nat × Nat × Nat) :=
  (if c.waitEn then [(3, 64, c.w 1)] else []) ++ (if c.signalEn then [(3, 64, c.w 3)] else []) ++
    (if c.op = 0x03 then [(2, 64, c.o 0), (2, 64, c.o 2)] else [])

/-- Does the OP need a bound context (R361)? -/
def HubCmd.needsBound (c : HubCmd) : Bool := c.op ≠ 0x01

/-- Checks 1 to 3 of R362, in order: the code of the first that fails. -/
def State.checkCmd (s : State) (ctx : Nat) (c : HubCmd) : State × Nat :=
  if !c.formOk ctx then (s, 0x0101)
  else if c.recordEn && !s.inSteward (c.w 5) 64 then (s, 0x0102)
  else
    let (s, ok) := c.namings.foldl (fun (acc : State × Bool) n =>
      if acc.2 then acc.1.recordOk n.1 n.2.1 n.2.2 else acc) (s, true)
    if !ok then (s, 0x0102)
    else
      let (s, o) := s.ctxOwner ctx
      if o.isNone || (c.needsBound && (s.boundPart ctx).isNone) then (s, 0x0103) else (s, 0)

/-- The address of the ring entry at an index of a queue. -/
def State.entryAddr (s : State) (q i : Nat) : Nat := s.getF Reg.Q_RING_ADDR q 0 * 2 ^ 17 + 128 * i

/-- Advance HEAD past one entry. -/
def State.advanceHead (s : State) (q : Nat) : State :=
  s.setF Reg.Q_IDX_HEAD q 0 ((s.getF Reg.Q_IDX_HEAD q 0 + 1) % s.getF Reg.Q_RING_SIZE q 0)

/-- The entry at HEAD: the command as read, or the code of its read with its notice; HEAD advances (R359, R472). -/
def State.readEntry (s : State) (q : Nat) : State × Except Nat HubCmd :=
  let a := s.entryAddr q (s.getF Reg.Q_IDX_HEAD q 0)
  match s.hubRead a 128 with
  | (s, .error e) =>
    (((s.advanceHead q).setF Reg.Q_STAT_LAST_ERR q 0 e).noteError e (s.qCtx q) q a 0, .error e)
  | (s, .ok b) =>
    let n := s.hub.clock + 1
    ({ s with hub := { s.hub with clock := n } }.advanceHead q,
     .ok { HubCmd.empty with words := (List.range 16).map fun i => rd b (8 * i) 8, entry := a, arrived := n })

/-- COMMAND_FETCH of a queue (R359, R362, R472): only a running queue fetches, and it holds at most 8 commands. -/
def execCommandFetch (q : QueueIx) (s : State) : Res :=
  let k : Nat := q.val
  .next (
    if s.qState k ≠ 1 || 8 ≤ (s.qCmds k).length || s.getF Reg.Q_IDX_HEAD k 0 = s.getF Reg.Q_IDX_TAIL k 0 then s
    else match s.readEntry k with
      | (s, .error _) => s.setF Reg.Q_STAT_STATE k 0 4
      | (s, .ok c) =>
        match s.checkCmd (s.qCtx k) c with
        | (s, 0) => s.setCmds k (s.qCmds k ++ [c])
        | (s, code) => s.setCmds k (s.qCmds k ++ [{ c with code := code }]))

/-! ## Resident slots (R356) -/

/-- Is a resident context idle: not bound, and no command started and not completed? -/
def State.slotIdle (s : State) (i : Nat) : Bool :=
  let c := s.getF Reg.SLOT_STAT_CTX i 0
  (s.boundPart c).isNone && !((s.ctxQueues c).any fun q => (s.qCmds q).any fun x => x.stage ≠ .waiting)

/-- Show IDLE or ACTIVE in a resident slot. -/
def State.showActive (s : State) (i : Nat) : State :=
  if s.getF Reg.SLOT_STAT_STATE i 0 = 1 || s.getF Reg.SLOT_STAT_STATE i 0 = 2 then
    let c := s.getF Reg.SLOT_STAT_CTX i 0
    let on := (s.ctxQueues c).any fun q => (s.qCmds q).any fun x => x.stage ≠ .waiting
    s.setF Reg.SLOT_STAT_STATE i 0 (if on then 2 else 1)
  else s

/-- Put a context into a free slot. -/
def State.placeCtx (s : State) (c i : Nat) : State :=
  let (s, step) := match s.boundPart c with
    | some p => (s, (s.part p).stepNo)
    | none => s.ctxWord c 3
  let pend := match s.boundPart c with
    | some p => (s.part p).pendErr
    | none => 0
  ((((s.setF Reg.SLOT_STAT_CTX i 0 c).setF Reg.SLOT_STAT_STATE i 0 1).setF Reg.SLOT_STAT_PINNED i 0
    (if (s.boundPart c).isSome then 1 else 0)).setF Reg.SLOT_STAT_PEND_ERR i 0 pend).setF Reg.SLOT_INFO_STEP i 0 step

/-- The lowest free slot. -/
def State.freeSlot (s : State) : Option Nat := (List.range 48).find? fun i => s.getF Reg.SLOT_STAT_STATE i 0 = 0

/-- The least recently used idle resident context's slot. -/
def State.lruSlot (s : State) : Option Nat :=
  let idle := (List.range 48).filter fun i => s.getF Reg.SLOT_STAT_STATE i 0 = 1 && s.slotIdle i
  idle.foldl (fun best i => match best with
    | none => some i
    | some b => if smapGet 0 s.hub.slotUse i < smapGet 0 s.hub.slotUse b then some i else some b) none

/-- A runnable context wants a slot: whether it is resident now. Without a free slot it waits and the least recently used
idle one is evicted; waiting contexts go first. -/
def State.wantSlot (s : State) (c : Nat) : State × Bool :=
  match s.slotOf c with
  | some i => (s, s.getF Reg.SLOT_STAT_STATE i 0 ≠ 3)
  | none =>
    match s.freeSlot, s.hub.slotWait with
    | some i, [] => (s.placeCtx c i, true)
    | f, l =>
      let s := if l.contains c then s else { s with hub := { s.hub with slotWait := l ++ [c] } }
      let evicting := ((List.range 48).filter fun i => s.getF Reg.SLOT_STAT_STATE i 0 = 3).length
      if f.isSome || s.hub.slotWait.length ≤ evicting then (s, false)
      else match s.lruSlot with
        | some i => (s.setF Reg.SLOT_STAT_STATE i 0 3, false)
        | none => (s, false)

/-- Has a context a command that waits to start? -/
def State.ctxWaits (s : State) (c : Nat) : Bool :=
  (s.ctxQueues c).any fun q => match s.qHead q with
    | some x => x.stage = .waiting
    | none => false

/-- SLOT_ASSIGN: the first waiting context that still has something to start takes the lowest free slot (R356). -/
def execSlotAssign (s : State) : Res :=
  let l := s.hub.slotWait.dropWhile fun c => !s.ctxWaits c
  .next (match s.freeSlot, l with
    | some i, c :: r => { s with hub := { s.hub with slotWait := r } }.placeCtx c i
    | _, _ => { s with hub := { s.hub with slotWait := l } })

/-- Free a slot. -/
def State.clearSlot (s : State) (i : Nat) : State :=
  let s := ((((s.setF Reg.SLOT_STAT_CTX i 0 0).setF Reg.SLOT_STAT_STATE i 0 0).setF Reg.SLOT_STAT_PINNED i 0 0).setF
    Reg.SLOT_STAT_PEND_ERR i 0 0).setF Reg.SLOT_INFO_STEP i 0 0
  { s with hub := { s.hub with slotUse := smapSet 0 s.hub.slotUse i 0 } }

/-- CONTEXT_EVICT: the save area and word 3 are written and the slot is free (R355, R356). What the save area holds is the
module's own, so free bytes (log 1). -/
def execContextEvict (slot : Fin 48) (s : State) : Res :=
  let i : Nat := slot.val
  .next (
    if s.getF Reg.SLOT_STAT_STATE i 0 ≠ 3 then s
    else
      let c := s.getF Reg.SLOT_STAT_CTX i 0
      let (s, gen) := s.ctxWord c 4
      let s := s.saveCtx c (63 * 64) (s.getF Reg.SLOT_INFO_STEP i 0) gen none
      let s := (s.hubWrite (s.ctxAddr c + 64) (s.freeBytes 192)).1.tick
      s.clearSlot i)

/-! ## Starting (R362, R363, R368) -/

/-- What a queue's oldest command meets when the hub looks whether it can start. -/
inductive StartLook where
  /-- nothing waits to start -/
  | none
  /-- it waits -/
  | wait
  /-- it ends without starting, with a code -/
  | fail (code : Nat)
  /-- its owning chapter's rules decide -/
  | go (c : HubCmd)
  deriving DecidableEq, Repr

/-- Look at a queue's oldest command if its OP is `op`: the queue runs, the wait is satisfied and the context is resident
(R363, R368, R471). -/
def State.lookStart (s : State) (q op : Nat) : State × StartLook :=
  match s.qHead q with
  | none => (s, .none)
  | some c =>
    if c.op ≠ op || c.stage ≠ .waiting || c.code ≠ 0 || s.qState q ≠ 1 then (s, .none)
    else
      let (s, w) := if !c.waitEn then (s, StartLook.go c)
        else match s.readFence (s.qCtx q) q c.seq (c.w 1) with
          | (s, .error e) => (s, .fail e)
          | (s, .ok f) => if f.erred then (s, .fail f.err) else if c.w 2 ≤ f.value then (s, .go c) else (s, .wait)
      match w with
      | .go c =>
        match s.wantSlot (s.qCtx q) with
        | (s, true) => (s, .go c)
        | (s, false) => (s.setF Reg.Q_STAT_WAITING q 0 2, .wait)
      | .wait => (s.setF Reg.Q_STAT_WAITING q 0 1, .wait)
      | r => (s, r)

/-- A command starts: the slot's recency is its time (R356). -/
def State.beginCmd (s : State) (q : Nat) : State :=
  let s := (s.updHead q fun c => { c with stage := .running }).setF Reg.Q_STAT_WAITING q 0 0
  match s.slotOf (s.qCtx q) with
  | none => s
  | some i =>
    { s with hub := { s.hub with clock := s.hub.clock + 1, slotUse := smapSet 0 s.hub.slotUse i (s.hub.clock + 1) } }.showActive i

/-- A start event of a command with an OP: `f` is what its owning chapter does once it may start. -/
def State.tryStart (s : State) (q op : Nat) (f : HubCmd → State → State) : State :=
  match s.lookStart q op with
  | (s, .none) => s
  | (s, .wait) => s
  | (s, .fail e) => s.endCmd q e
  | (s, .go c) => f c s

/-- The rules of the owning chapter hold the command back. -/
def State.holdBack (s : State) (q : Nat) : State := s.setF Reg.Q_STAT_WAITING q 0 3

/-- NOP_COMMAND (R361, R378). -/
def execNopCommand (q : QueueIx) (s : State) : Res :=
  .next (s.tryStart q.val 0x01 fun _ s => (s.beginCmd q.val).endCmd q.val 0)

/-! ## Completion (R363, R366, R369 to R371, R375) -/

/-- The bytes of a completion record (R366). -/
def HubCmd.record (c : HubCmd) (code : Nat) : Bytes :=
  leBytes 8 (code % 2 ^ 16 + (if c.sat then 2 ^ 16 else 0) + (if c.nan then 2 ^ 17 else 0) +
    (if c.cancelled then 2 ^ 18 else 0) + c.seq * 2 ^ 32) ++ leBytes 8 c.info ++ leBytes 8 c.gen ++
    leBytes 8 (match c.tile with
      | some t => tileId t + 2 ^ 11
      | none => 0) ++ zeros 32

/-- The signal fence of a command, if it has one that is a fence record. -/
def State.signalFence (s : State) (c : HubCmd) : State × Option (Nat × Nat) :=
  if !c.signalEn || !s.inSteward (c.w 3) 64 then (s, none)
  else match s.kindAt (c.w 3) with
    | (s, .ok 3) => (s, some (c.w 3, c.w 4))
    | (s, .ok _) => (s, none)
    | (s, .error _) => (s, some (c.w 3, c.w 4))

/-- The module drops one reference for each naming of a command (R352). -/
def State.dropRefs (s : State) (ctx q : Nat) (c : HubCmd) : State :=
  c.namings.foldl (fun s n => s.dropNaming ctx q c.seq n.1 n.2.1 n.2.2) (s.dropNaming ctx q c.seq 1 256 (s.ctxAddr c.ctx))

/-- A command completes: its record, its fence, its references; and the code it completes with (R363, R366, R370, R471).
`keep` leaves the signal fence alone (R374). A code with no fence to go to is posted with the entry's address (log 23). -/
def State.complete (s : State) (q : Nat) (c : HubCmd) (keep : Bool) : State × Nat :=
  let ctx := s.qCtx q
  let (s, fence) := s.signalFence c
  let code := if c.code ≠ 0 then c.code else match fence with
    | some f => (s.signal ctx q c.seq f.1 f.2).2
    | none => 0
  let s := if c.recordEn && s.inSteward (c.w 5) 64 then
      match s.hubWrite (c.w 5) (c.record code) with
      | (s, some e) => s.noteError e ctx q (c.w 5) c.seq
      | (s, none) => s
    else s
  let s := match fence with
    | some f =>
      if c.code = 0 then
        match s.signal ctx q c.seq f.1 f.2 with
        | (s, 0x0106) => s.attach ctx q c.seq f.1 f.2 0x0106
        | (s, _) => s
      else if c.attached then s
      else if keep then s.noteError code ctx q c.entry c.seq
      else s.attach ctx q c.seq f.1 f.2 code
    | none => if c.code = 0 then s else s.noteError code ctx q c.entry c.seq
  ((s.dropRefs ctx q c).addF Reg.Q_DONE_COUNT q 0 1, code)

/-- The state of a queue after a command has completed (R374, R375). -/
def State.afterComplete (s : State) (q code : Nat) : State :=
  let s := if code = 0 then s else s.setF Reg.Q_STAT_LAST_ERR q 0 code
  let st := s.qState q
  if st = 2 then s.setF Reg.Q_STAT_STATE q 0 3
  else if code ≠ 0 && st = 1 then s.setF Reg.Q_STAT_STATE q 0 4
  else s

/-- A command ends cancelled, with a code. -/
def State.cancelCmd (s : State) (q code : Nat) (keep : Bool) (c : HubCmd) : State :=
  (s.complete q { c with stage := .ended, code := code, cancelled := true } keep).1

/-- Cancel the commands of a queue that have not started: those in the hub and those in the ring up to TAIL
(R374, R376). -/
def State.cancelQueue (s : State) (q code : Nat) (keep : Bool) : State :=
  let l := s.qCmds q
  let s := s.setCmds q (l.filter fun c => c.stage ≠ .waiting)
  let s := (l.filter fun c => c.stage = .waiting).foldl (fun s c => s.cancelCmd q code keep c) s
  let size := s.getF Reg.Q_RING_SIZE q 0
  let n := if size = 0 then 0 else (s.getF Reg.Q_IDX_TAIL q 0 + size - s.getF Reg.Q_IDX_HEAD q 0) % size
  ((List.range n).foldl (fun s _ => match s.readEntry q with
    | (s, .error _) => s.setF Reg.Q_STAT_STATE q 0 4
    | (s, .ok c) => s.cancelCmd q code keep c) s).setF Reg.Q_STAT_WAITING q 0 0

/-! ## Errors that stop a context (R111, R371, R375, R376) -/

/-- The STEP of a partition's step in progress: its queue and its command. -/
def State.stepCmdOf (s : State) (p : Nat) : Option (Nat × HubCmd) :=
  match (s.part p).step with
  | none => none
  | some r => (s.qHead r.queue).map fun c => (r.queue, c)

/-- A code goes to the context's current fence at once, unless one has gone there before (R371; 04_tile_core.md R111). -/
def State.errCurrent (s : State) (p code : Nat) : State :=
  match s.stepCmdOf p with
  | none => s.pend p code
  | some (q, c) =>
    if c.attached then s else
    let s := s.updHead q fun c => { c with attached := true, code := code }
    match s.signalFence c with
    | (s, some f) => s.attach (s.qCtx q) q c.seq f.1 f.2 code
    | (s, none) => s.noteError code (s.qCtx q) q c.entry c.seq

/-- Show how many BEACON_LOADs run (11_memory_tiers_and_weights.md R282). -/
def State.showLoads (s : State) : State :=
  s.set Reg.BEACON_STAT_LOADS ((List.range 4096).filter fun q => match s.qHead q with
    | some c => c.op = 0x13 && c.stage = .running
    | none => false).length

/-- Every command of a context stops: the running ones end with the code, the others are cancelled with it, and its queues
go to ERROR (R376). -/
def State.stopCtx (s : State) (c code : Nat) (tile : Option Nat) : State :=
  ((s.ctxQueues c).foldl (fun s q =>
    let s := s.setCmds q ((s.qCmds q).map fun x =>
      if x.stage = .running then { x with stage := .ended, code := code, tile := tile, load := none } else x)
    (s.cancelQueue q code false).setF Reg.Q_STAT_STATE q 0 4) s).showLoads

/-! ## Controls (R357, R358, R374, R377) -/

/-- The doorbell of a queue: a 4-byte or an 8-byte write in the first 8 bytes of its page (R358). -/
def execDoorbell (q : QueueIx) (wide : Bool) (value : Word) (s : State) : Res :=
  let k : Nat := q.val
  let v := if wide then value.toNat else value.toNat % 2 ^ 32
  .next (s.cxlIo fun s =>
    if s.qState k = 0 then s.notice 4 0 0 k 0 v
    else if s.getF Reg.Q_RING_SIZE k 0 ≤ v % 2 ^ 16 || v / 2 ^ 16 ≠ 0 then
      (s.addF Reg.Q_STAT_DB_BAD k 0 1).notice 4 0 (s.qCtx k) k 0 v
    else s.setF Reg.Q_IDX_TAIL k 0 v)

/-- An OBJ_CMD has ended with CODE (R382). RESULT keeps the number of the last queue created (log 61). -/
def State.objEnd (s : State) (code : Nat) : State := (s.set Reg.OBJ_STAT_DONE 1).set Reg.OBJ_STAT_CODE code

/-- The fields of a queue. -/
def queueFields : List Fld :=
  [Reg.Q_RING_SIZE, Reg.Q_RING_ADDR, Reg.Q_IDX_HEAD, Reg.Q_IDX_TAIL, Reg.Q_IDX_CTX, Reg.Q_STAT_STATE, Reg.Q_STAT_WAITING,
   Reg.Q_STAT_OVERRUN, Reg.Q_STAT_LAST_ERR, Reg.Q_STAT_DB_BAD, Reg.Q_DONE_COUNT]

/-- Every field of a queue at zero. -/
def State.clearQueue (s : State) (q : Nat) : State :=
  (queueFields.foldl (fun s f => s.setF f q 0 0) s).setCmds q []

/-- QUEUE_CREATE (R354, R357). -/
def execQueueCreate (s : State) : Res :=
  let a0 := s.get Reg.OBJ_ARG0_VALUE
  let a1 := s.get Reg.OBJ_ARG1_VALUE
  let size := a0 % 2 ^ 17
  let base := bitsOf a0 62 17
  let c := a1 % 2 ^ 14
  .next (s.cxlIo fun s =>
    let (s, owner) := s.ctxOwner c
    if s.get Reg.CTX_TABLE_LOCK = 0 || !([2, 4, 8, 16, 32, 64, 128, 256, 512, 1024, 2048, 4096, 8192, 16384, 32768, 65536].contains size) ||
        !s.inSteward (base * 2 ^ 17) (128 * size) || owner.isNone || a0 / 2 ^ 63 ≠ 0 || a1 / 2 ^ 14 ≠ 0 then
      s.objEnd 0x0111
    else
      let created := (s.ctxQueues c).length
      let reserved := match s.boundPart c with
        | some p => created < (s.part p).image.queues
        | none => false
      if !reserved && s.freeQueues = 0 then s.objEnd 0x0110
      else match (List.range 4096).find? fun q => s.qState q = 0 with
        | none => s.objEnd 0x0110
        | some q =>
          let s := ((((s.clearQueue q).setF Reg.Q_RING_SIZE q 0 size).setF Reg.Q_RING_ADDR q 0 base).setF Reg.Q_IDX_CTX q 0 c).setF
            Reg.Q_STAT_STATE q 0 1
          (s.countQueues.objEnd 0).set Reg.OBJ_STAT_RESULT q)

/-- QUEUE_DESTROY (R377). -/
def execQueueDestroy (s : State) : Res :=
  let q := s.get Reg.OBJ_ARG0_VALUE % 4096
  .next (s.cxlIo fun s =>
    if !(s.qState q = 3 || s.qState q = 4) || !(s.qCmds q).isEmpty ||
        s.getF Reg.Q_IDX_HEAD q 0 ≠ s.getF Reg.Q_IDX_TAIL q 0 then s.objEnd 0x0112
    else (s.clearQueue q).countQueues.objEnd 0)

/-- FENCE_ERR (R377). -/
def execFenceErr (s : State) : Res :=
  let a := s.get Reg.OBJ_ARG0_VALUE
  let code := s.get Reg.OBJ_ARG1_VALUE % 2 ^ 16
  .next (s.cxlIo fun s =>
    let (s, ok) := s.recordOk 3 64 a
    if !ok || !aligned a 64 || code = 0 then s.objEnd 0x0102
    else (s.attach 0 0x1FFF 0 a (2 ^ 64 - 1) code).objEnd 0)

/-- A control that the queue's state does not allow (R374). -/
def State.qOverrun (s : State) (q : Nat) : State :=
  if s.qState q = 0 then s else s.setF Reg.Q_STAT_OVERRUN q 0 1

/-- QUEUE_STOP (R374). -/
def execQueueStop (q : QueueIx) (s : State) : Res :=
  let k : Nat := q.val
  .next (s.cxlIo fun s =>
    if s.qState k = 1 || s.qState k = 4 then
      (if (s.qCmds k).any fun c => c.stage ≠ .waiting then s.setF Reg.Q_STAT_STATE k 0 2
        else s.setF Reg.Q_STAT_STATE k 0 3).setF Reg.Q_STAT_WAITING k 0 0
    else s.qOverrun k)

/-- QUEUE_RESUME (R374). -/
def execQueueResume (q : QueueIx) (s : State) : Res :=
  .next (s.cxlIo fun s => if s.qState q.val = 3 || s.qState q.val = 4 then s.setF Reg.Q_STAT_STATE q.val 0 1 else s.qOverrun q.val)

/-- QUEUE_CANCEL (R374). -/
def execQueueCancel (q : QueueIx) (keep : Bool) (code : BitVec 16) (s : State) : Res :=
  .next (s.cxlIo fun s => if s.qState q.val = 3 then s.cancelQueue q.val (if code = 0 then 0x0702 else code.toNat) keep else s.qOverrun q.val)

/-- CTX_TABLE_LOCK (R354, R382). -/
def execCtxTableLock (s : State) : Res := .next (s.cxlIo fun s => s.set Reg.CTX_TABLE_LOCK 1)

end Sys2Proof.Machine
end

