-- ==== Sys2Proof/Machine/Links.lean ====
section
/-!
DEFINITION. Ports, sessions and messages as shared operations (10_links_and_collectives.md R231 to R251).
-/

namespace Sys2Proof.Machine

/-- A string's bytes. -/
def ascii (x : String) : Bytes := x.toList.map fun c => BitVec.ofNat 8 c.toNat

/-- One step of CRC-32 by a byte. -/
def crcByte (c : Nat) (b : Byte) : Nat :=
  (List.range 8).foldl (fun c _ => if c % 2 = 1 then Nat.xor (c / 2) 0xEDB88320 else c / 2) (Nat.xor c b.toNat)

/-- CRC-32 with the IEEE 802.3 polynomial (10_links_and_collectives.md R237). -/
def crc32 (b : Bytes) : Nat := Nat.xor (b.foldl crcByte 0xFFFFFFFF) 0xFFFFFFFF

/-- This unit's identity public key. -/
def unitKey : Bytes := Config.ed25519Public Config.unitSeed

/-! ## Ports and sessions -/

/-- A port. -/
def State.port (s : State) (p : Nat) : PortSt := smapGet PortSt.empty s.link.ports p

/-- Change a port. -/
def State.updPort (s : State) (p : Nat) (f : PortSt → PortSt) : State :=
  { s with link := { s.link with ports := smapUpd PortSt.empty s.link.ports p f } }

/-- A session by its peer entry. -/
def State.session (s : State) (n : Nat) : Session := smapGet Session.empty s.link.sessions n

/-- Change a session. -/
def State.updSession (s : State) (n : Nat) (f : Session → Session) : State :=
  { s with link := { s.link with sessions := smapUpd Session.empty s.link.sessions n f } }

/-- MODE of a port: 0 off, 1 Ramom, 2 Ethernet. -/
def State.portMode (s : State) (p : Nat) : Nat := s.getF Reg.PORT_STAT_MODE p 0

/-- STATE of a port. -/
def State.portState (s : State) (p : Nat) : Nat := s.getF Reg.PORT_STAT_STATE p 0

/-- Set STATE of a port: 0 OFF; 1 TRAINING; 2 UP; 3 SETUP; 4 OPEN; 5 REFUSED; 6 FAILED; 7 RETRAINING. -/
def State.setPortState (s : State) (p v : Nat) : State := s.setF Reg.PORT_STAT_STATE p 0 v

/-- The peer entry whose session a port carries. -/
def State.portPeer (s : State) (p : Nat) : Option Nat :=
  if s.getF Reg.PORT_STAT_PEER_VALID p 0 = 1 then some (s.getF Reg.PORT_STAT_PEER p 0) else none

/-- STATE of a peer entry: 0 FREE; 1 SETUP; 2 OPEN; 3 DRAINING. -/
def State.peerState (s : State) (n : Nat) : Nat := s.getF Reg.PEER_ENTRY_STATE n 0

/-- Set STATE of a peer entry, and the counts of PEER_STAT. -/
def State.setPeerState (s : State) (n v : Nat) : State :=
  let s := s.setF Reg.PEER_ENTRY_STATE n 0 v
  let cnt (k : Nat) : Nat := ((List.range 256).filter fun i => s.peerState i = k).length
  (s.set Reg.PEER_STAT_OPEN (cnt 2)).set Reg.PEER_STAT_DRAINING (cnt 3)

/-- The ports that carry a session. -/
def State.peerPorts (s : State) (n : Nat) : List Nat := bitList 16 (s.getF Reg.PEER_ENTRY_PORTS n 0)

/-- Count on a port while CNT_EN is 1. -/
def State.portCount (s : State) (f : Fld) (p n : Nat) : State :=
  if s.getF Reg.PORT_CTRL_CNT_EN p 0 = 1 then s.addF f p 0 n else s

/-- A port meets a group 0x04 code (R261). -/
def State.portErr (s : State) (p code : Nat) : State := s.setF Reg.PORT_STAT_LAST_ERR p 0 code

/-! ## Messages (R243, R244) -/

/-- The virtual channel of a message type. -/
def tyVc (ty : Nat) : Option Nat :=
  match ty with
  | 0x01 => some 0
  | 0x02 => some 3
  | 0x03 => some 3
  | 0x10 => some 1
  | 0x11 => some 1
  | 0x20 => some 2
  | 0x21 => some 2
  | 0x22 => some 2
  | _ => none

/-- The flits of a message: header and payload, the last padded with zeros. -/
def msgFlits (m : LinkMsg) : List LFlit :=
  let b := leBytes 8 (m.ty + m.len * 2 ^ 16) ++ leBytes 8 m.tag ++ leBytes 8 m.arg0 ++ leBytes 8 m.arg1 ++ m.payload
  let n := ceilDiv (32 + m.len) 64
  (List.range n).map fun i =>
    { data := fit 64 (slice b (64 * i) 64), first := i = 0, last := i + 1 = n, ty := m.ty, tag := m.tag, arg := m.arg0 }

/-- Queue a message on one port. -/
def State.queueMsg (s : State) (p : Nat) (m : LinkMsg) : State :=
  match tyVc m.ty with
  | none => s
  | some vc => s.updPort p fun x => { x with tx := setAt x.tx vc (x.tx.getD vc [] ++ msgFlits m) }

/-- Send a message to a peer, on one of its session's ports; which one is the module's choice (R250; log 1). -/
def State.sendMsg (s : State) (peer ty tag arg0 arg1 : Nat) (payload : Bytes) : State :=
  let ports := (s.peerPorts peer).filter fun p => !(s.port p).joining
  match ports[s.free ports.length]? with
  | none => s
  | some p => s.tick.queueMsg p { ty := ty, len := payload.length, tag := tag, arg0 := arg0, arg1 := arg1, payload := payload }

/-- The first whole message received on a virtual channel of a port, with its flits. -/
def PortSt.firstMsg (x : PortSt) (vc : Nat) : Option (LinkMsg × Nat) :=
  let l := x.rx.getD vc []
  match firstIdx (fun f : LFlit => f.last) l with
  | none => none
  | some i =>
    let b := (l.take (i + 1)).flatMap (·.data)
    let len := bitsOf (rd b 0 8) 38 16
    some ({ ty := rd b 0 1, len := len, tag := rd b 8 8, arg0 := rd b 16 8, arg1 := rd b 24 8, payload := slice b 32 len },
      i + 1)

/-- The whole messages at the front of a receive buffer, and the start of one behind them. -/
def splitWhole (l : List LFlit) : List LFlit × List LFlit :=
  let n := l.length - (l.reverse.takeWhile fun f => !f.last).length
  (l.take n, l.drop n)

/-- The flits at the front of a receive buffer leave it while their message is still coming: their credits are owed, so that a
message longer than the buffer goes on (R243, R244). A message that is whole leaves when its event takes it (log 134). -/
def PortSt.stream (x : PortSt) (vc : Nat) : PortSt :=
  let n := (x.rx.getD vc []).length
  if (x.firstMsg vc).isSome then x
  else { x with owe := setAt x.owe vc (x.owe.getD vc 0 + (n - x.debt.getD vc 0)), debt := setAt x.debt vc n }

/-- The same on every virtual channel. -/
def PortSt.streams (x : PortSt) : PortSt := (List.range 4).foldl PortSt.stream x

/-- Take the first message of a virtual channel if it is of a type: its flits leave the buffer and their credits are
owed (R243). -/
def State.takeMsg (s : State) (p ty : Nat) : Option (LinkMsg × State) :=
  match tyVc ty with
  | none => none
  | some vc =>
    match (s.port p).firstMsg vc with
    | none => none
    | some (m, n) =>
      if m.ty ≠ ty then none
      else some (m, s.updPort p fun x => ({ x with
        rx := setAt x.rx vc ((x.rx.getD vc []).drop n), owe := setAt x.owe vc (x.owe.getD vc 0 + (n - x.debt.getD vc 0)),
        debt := setAt x.debt vc (x.debt.getD vc 0 - n) } : PortSt).stream vc)

/-- A message event of a type on a port: `f` takes the peer and the message. Without such a message nothing happens
(log 12). -/
def State.onMsg (s : State) (p ty : Nat) (f : Nat → LinkMsg → State → State) : State :=
  match s.portPeer p, s.takeMsg p ty with
  | some n, some (m, s) => f n m s
  | _, _ => s

/-- Are the bits that a type's owner reserves in ARG0 and ARG1 zero (R244, R258, R259; 08_training_dataflow.md R210)? -/
def argsOk (ty len arg0 arg1 : Nat) : Bool :=
  match ty with
  | 0x01 => arg0 / 2 ^ 61 = 0
  | 0x03 => arg0 / 2 ^ 24 = 0 && arg0 % 2 ^ 16 = 0x0405 && arg1 = 0 && len = 0
  | 0x22 => bitsOf arg0 61 52 = 0 && !bit arg1 11 && arg1 / 2 ^ 52 = 0
  | _ => true

/-- Is a whole message in order (R244)? -/
def flitsOk (vc : Nat) (l : List LFlit) : Bool :=
  let b := l.flatMap (·.data)
  let w := rd b 0 8
  let len := bitsOf w 38 16
  tyVc (w % 256) = some vc && bitsOf w 15 8 = 0 && w / 2 ^ 39 = 0 && len ≤ 4194304 && l.length = ceilDiv (32 + len) 64 &&
    argsOk (w % 256) len (rd b 16 8) (rd b 24 8)

/-! ## Control and setup messages (R245, R247) -/

/-- A control message of 64 bytes. -/
def ctlMsg (ctype : Nat) (body : Bytes) : Bytes := fit 64 (leBytes 8 ctype ++ body)

/-- Queue a control message on a port. -/
def State.queueCtl (s : State) (p ctype : Nat) (body : Bytes) : State :=
  s.updPort p fun x => { x with ctlTx := x.ctlTx ++ [ctlMsg ctype body] }

/-- Take the first control message received on a port if it is of a type. -/
def State.takeCtl (s : State) (p ctype : Nat) : Option (Bytes × State) :=
  match (s.port p).ctlRx with
  | [] => none
  | b :: r => if rd b 0 1 = ctype then some (b, s.updPort p fun x => { x with ctlRx := r }) else none

/-- A setup message: STYPE, LEN, body, padded to 64 B (R247). -/
def setupMsg (stype : Nat) (body : Bytes) : Bytes :=
  let b := leBytes 2 stype ++ leBytes 2 body.length ++ body
  fit (roundUp b.length 64) b

/-- Queue a setup message and enter it in the transcript. -/
def State.queueSetup (s : State) (p stype : Nat) (body : Bytes) : State :=
  let m := setupMsg stype body
  s.updPort p fun x => { x with setupTx := x.setupTx ++ [m], setup := { x.setup with transcript := x.setup.transcript ++ m } }

/-- Take the first setup message received on a port if it is of a type: its body. -/
def State.takeSetup (s : State) (p stype : Nat) : Option (Bytes × State) :=
  match (s.port p).setupRx with
  | [] => none
  | b :: r =>
    if rd b 0 1 = stype then
      some (slice b 4 (rd b 2 2), s.updPort p fun x => { x with setupRx := r })
    else none

/-- Start set-up on a port: a fresh nonce and a HELLO (R247). -/
def State.sendHello (s : State) (p restarts : Nat) : State :=
  let nonce := s.freeBytes 32
  let s := s.tick.updPort p fun x => { x with setup := { SetupSt.empty with nonce := nonce, restarts := restarts },
                                              joining := false }
  s.queueSetup p 0x01 (unitKey ++ nonce ++ leBytes 2 1)

/-- Give back the entry that a set-up holds. -/
def State.freeSetup (s : State) (p : Nat) : State :=
  match (s.port p).setup.entry with
  | some n => (if s.peerState n = 1 then (s.setPeerState n 0).updSession n fun _ => Session.empty else s).updPort p fun x => { x with
      setup := { x.setup with entry := none } }
  | none => s

/-- Refuse on a port: REFUSE with a code, state REFUSED (R247, R248). -/
def State.refusePort (s : State) (p code : Nat) (count : Bool) : State :=
  let s := if count then s.addF Reg.PEER_REFUSED_COUNT 0 0 1 else s
  (((s.freeSetup p).queueSetup p 0x04 (leBytes 2 code)).portErr p code).setPortState p 5

/-! ## Keys (R239, R240) -/

/-- The key of an epoch. -/
def keyAt (l : List (Nat × Bytes)) (e : Nat) : Option Bytes := (l.find? fun k => k.1 = e).map (·.2)

/-- The next key of a direction (R240). -/
def nextKey (key : Bytes) (epoch : Nat) : Bytes := Config.hkdf512 [] key (ascii "E4 rekey" ++ leBytes 4 epoch) 32

/-- The nonce of a group (R239). -/
def groupNonce (seq epoch port : Nat) (fromInitiator : Bool) : Bytes :=
  leBytes 4 seq ++ leBytes 4 epoch ++ leBytes 1 port ++ leBytes 1 (if fromInitiator then 0 else 1) ++ zeros 2

/-- The newest epoch of a direction. -/
def topEpoch (l : List (Nat × Bytes)) : Nat := (l.head?.map (·.1)).getD 0

/-- Start a rekey of a session's sending direction on a port (R240, R250). -/
def State.startRekey (s : State) (n p : Nat) : State :=
  if (s.session n).rekey then s
  else (s.updSession n fun x => { x with rekey := true }).queueCtl p 0x01 (leBytes 4 (topEpoch (s.session n).txKeys + 1))

/-- Show a session's epoch in the registers: that of its sending direction (log 26). -/
def State.showEpoch (s : State) (n : Nat) : State :=
  let e := topEpoch (s.session n).txKeys
  (s.peerPorts n).foldl (fun s p => s.setF Reg.PORT_STAT_EPOCH p 0 e) (s.setF Reg.PEER_ENTRY_EPOCH n 0 e)

/-- A port takes part in a session. -/
def State.joinPort (s : State) (p n : Nat) : State :=
  ((((s.setPortState p 4).setF Reg.PORT_STAT_PEER_VALID p 0 1).setF Reg.PORT_STAT_PEER p 0 n).setF Reg.PEER_ENTRY_PORTS n 0
    (setBit (s.getF Reg.PEER_ENTRY_PORTS n 0) p)).showEpoch n

/-- A port leaves its session: its traffic is gone. -/
def State.dropPort (s : State) (p : Nat) : State :=
  let s := match s.portPeer p with
    | some n => s.setF Reg.PEER_ENTRY_PORTS n 0 (clearBit (s.getF Reg.PEER_ENTRY_PORTS n 0) p)
    | none => s
  (((s.setF Reg.PORT_STAT_PEER_VALID p 0 0).setF Reg.PORT_STAT_PEER p 0 0).setF Reg.PORT_STAT_EPOCH p 0 0).updPort p
    fun x => { PortSt.empty with setup := x.setup }

/-- A fresh number for a transfer or a request (08_training_dataflow.md R210; 11_memory_tiers_and_weights.md R274). -/
def State.newTag (s : State) : State × Nat :=
  ({ s with link := { s.link with nextTag := s.link.nextTag + 1 } }, s.link.nextTag)

end Sys2Proof.Machine
end

