-- ==== Sys2Proof/Machine/Owners.lean ====
section
/-!
DEFINITION. The owner table and the key table: OWNER_CMD and KEY_CMD (13_tenants_and_joint_training.md R309, R310, R321,
R333; 12_prism_memory_protection.md R299, R301).
-/

namespace Sys2Proof.Machine

/-! ## Owners (13_tenants_and_joint_training.md R309, R310) -/

/-- The public key of a SINGLE entry. -/
def State.ownerKey (s : State) (i : Nat) : Option Bytes := if (s.owner i).kind = 1 then some (s.owner i).data else none

/-- Key IDs that are not FREE and have an owner. -/
def State.ownerKeys (s : State) (i : Nat) : Nat := (s.prism.keys.filter fun e => e.2.state ≠ .free && e.2.owner = i).length

/-- Bound contexts with an owner. -/
def State.ownerContexts (s : State) (i : Nat) : Nat :=
  ((List.range 32).filter fun p => (s.part p).loaded && (s.part p).owner = i).length

/-- The 64 bytes of OWNER_DATA. -/
def State.ownerData (s : State) : Bytes := (List.range 8).flatMap fun w => leBytes 8 (s.getF Reg.OWNER_DATA_VALUE w 0)

/-- An OWNER_CMD has ended with CODE and REASON. -/
def State.ownerEnd (s : State) (code reason : Nat) : State :=
  ((s.set Reg.OWNER_STAT_DONE 1).set Reg.OWNER_STAT_CODE code).set Reg.OWNER_STAT_REASON reason

/-- A refusal of an OWNER_CMD. -/
def State.ownerRefuse (s : State) (reason : Nat) : State := s.ownerEnd 0x060D reason

/-- REGISTER and REGISTER_JOINT: the lowest FREE index takes a KIND and its data. -/
def State.ownerTake (s : State) (kind : Nat) (data : Bytes) : State :=
  match (List.range 2048).find? fun i => i ≠ 0 && (s.owner i).kind = 0 with
  | none => s.ownerRefuse 1
  | some i =>
    if s.ten.owners.any fun e => e.2.kind = kind && e.2.data = data then s.ownerRefuse 2
    else ((s.updOwner i fun _ => { kind := kind, data := data, ingress := false }).set Reg.OWNER_STAT_RESULT i).ownerEnd 0 0

/-- OWNER_REGISTER (R310). -/
def execOwnerRegister (s : State) : Res := .next (s.cxlIo fun s => s.ownerTake 1 (s.ownerData.take 32))

/-- OWNER_REGISTER_JOINT (R310). -/
def execOwnerRegisterJoint (s : State) : Res := .next (s.cxlIo fun s => s.ownerTake 2 s.ownerData)

/-- OWNER_UNREGISTER (R310). -/
def execOwnerUnregister (s : State) : Res :=
  let i := s.get Reg.OWNER_CMD_INDEX
  .next (s.cxlIo fun s =>
    if i = 0 || (s.owner i).kind = 0 then s.ownerRefuse 4
    else if s.ownerKeys i ≠ 0 || s.ownerContexts i ≠ 0 then s.ownerRefuse 3
    else (s.updOwner i fun _ => Owner.free).ownerEnd 0 0)

/-- OWNER_READ (R309, R310). -/
def execOwnerRead (s : State) : Res :=
  let i := s.get Reg.OWNER_CMD_INDEX
  let o := s.owner i
  .next (s.cxlIo fun s =>
    let s := ((((s.set Reg.OWNER_INFO_KIND o.kind).set Reg.OWNER_INFO_INGRESS (if o.ingress then 1 else 0)).set
      Reg.OWNER_INFO_KEYS (s.ownerKeys i)).set Reg.OWNER_INFO_CONTEXTS (s.ownerContexts i))
    ((List.range 8).foldl (fun s w => s.setF Reg.OWNER_DATA_VALUE w 0 (rd o.data (8 * w) 8)) s).ownerEnd 0 0)

/-! ## Relations between keys (13_tenants_and_joint_training.md R311, R321) -/

/-- The manifest whose SHA-512 a JOINT entry holds, found in a loaded image. -/
def State.manifestOf (s : State) (hash : Bytes) : Option Manifest :=
  (List.range 32).findSome? fun p => match (s.part p).loaded, (s.part p).image.manifest with
    | true, some m => if Config.sha512 m.raw = hash then some m else none
    | _, _ => none

/-- Does a destination key count as registered to the same owner as a source key (R321)? -/
def State.sameOwner (s : State) (src dst : Nat) : Bool :=
  let a := (s.keyEntry src).owner
  let b := (s.keyEntry dst).owner
  (s.keyEntry dst).state ≠ .free && (a = b || ((s.owner a).kind = 2 && match s.manifestOf (s.owner a).data with
    | some m => m.owners.any fun e => s.ownerOfKey e.key = some b
    | none => false))

/-! ## The key table (12_prism_memory_protection.md R301) -/

/-- A KEY_CMD has ended with CODE. -/
def State.keyEnd (s : State) (code : Nat) : State := (s.set Reg.KEY_STAT_DONE 1).set Reg.KEY_STAT_CODE code

/-- A KEY_CMD is refused, and the code is the latest of R306 raised (R307). -/
def State.keyRefuse (s : State) (code : Nat) : State := (s.keyEnd code).set Reg.PRISM_STAT_LAST_ERR code

/-- An OP of KEY_CMD: one written while BUSY is 1 is ignored and sets OVERRUN (R301, R307). -/
def State.keyIdle (s : State) (f : State → State) : State :=
  if s.get Reg.KEY_STAT_BUSY = 1 then s.set Reg.KEY_STAT_OVERRUN 1 else f s

/-- A write of an OP of KEY_CMD that has a command (R301). -/
def State.keyCmd (s : State) (f : State → State) : State := s.cxlIo fun s => s.keyIdle f

/-- KEY_ALLOC (R301). -/
def execKeyAlloc (s : State) : Res :=
  .next (s.keyCmd fun s => match (List.range 2048).find? fun k => k ≠ 0 && (s.keyEntry k).state = .free with
    | none => s.keyRefuse 0x0605
    | some k => ((s.updKey k fun e => { e with state := .reserved, owner := s.get Reg.KEY_CMD_OWNER, material := 0 }).set
        Reg.KEY_STAT_RESULT_KEY k).keyEnd 0)

/-- The entries of a controller's wear list: LBN, KEY, EXH. -/
def State.wearList (s : State) (c : Nat) : List (Nat × Nat × Nat) :=
  (List.range (s.getF Reg.PRISM_n_WEAR_COUNT_COUNT c 0)).map fun j =>
    (s.getF Reg.PRISM_n_WEAR_j_LBN c j, s.getF Reg.PRISM_n_WEAR_j_KEY c j, s.getF Reg.PRISM_n_WEAR_j_EXH c j)

/-- Replace a controller's wear list. -/
def State.setWearList (s : State) (c : Nat) (l : List (Nat × Nat × Nat)) : State :=
  let s := (List.range 16).foldl (fun s j =>
    let e := l.getD j (0, 0, 0)
    ((s.setF Reg.PRISM_n_WEAR_j_LBN c j e.1).setF Reg.PRISM_n_WEAR_j_KEY c j e.2.1).setF Reg.PRISM_n_WEAR_j_EXH c j e.2.2) s
  s.setF Reg.PRISM_n_WEAR_COUNT_COUNT c 0 l.length

/-- The controllers whose wear list names a key ID. -/
def State.wearCtrls (s : State) (k : Nat) : List Nat := (List.range 12).filter fun c => (s.wearList c).any fun e => e.2.1 = k

/-- Floodlight initialises every sector that a wear list names under a key ID, in whatever carve it lies, and the entries
go (R301; log 27). -/
def State.wearInit (s : State) (k : Nat) : State :=
  (s.wearCtrls k).foldl (fun s c =>
    let mine := (s.wearList c).filter fun e => e.2.1 = k
    let s := mine.foldl (fun s e => (List.range 33).foldl (fun s space =>
      let sec := space * 2 ^ 52 + k * 2 ^ 40 + e.1
      if s.major sec = 0 && (s.residue sec).isNone then s else s.initSector sec) s) s
    s.setWearList c ((s.wearList c).filter fun e => e.2.1 ≠ k)) s

/-- The refusals of OP 2 and 3 of KEY_CMD. -/
def State.keyGuard (s : State) (k : Nat) : Option Nat :=
  if 2048 ≤ k then some 0x0606 else if k = 0 then some 0x0609
  else if (s.keyEntry k).users ≠ 0 then some 0x0608 else none

/-- KEY_RETIRE (R301). GEN counts on; the entry's owner is 0 (log 28). -/
def execKeyRetire (s : State) : Res :=
  let k := s.get Reg.KEY_CMD_KEY
  .next (s.keyCmd fun s => match s.keyGuard k with
    | some e => s.keyRefuse e
    | none => ((s.updKey k fun e => { KeyEntry.free with gen := e.gen }).flushKeys [k]).syncRights.keyEnd 0)

/-- KEY_ROTATE (R301): as RETIRE, but RESERVED with the same owner. While Floodlight initialises sectors that the wear lists
name, the command runs. -/
def execKeyRotate (s : State) : Res :=
  let k := s.get Reg.KEY_CMD_KEY
  .next (s.keyCmd fun s => match s.keyGuard k with
    | some e => s.keyRefuse e
    | none =>
      let l := s.wearCtrls k
      let s := (((s.updKey k fun e => { e with state := .reserved, material := 0 }).flushKeys [k]).wearInit k).syncRights
      if l.isEmpty then s.keyEnd 0 else (s.set Reg.KEY_STAT_BUSY 1).startFlood 33 l)

/-- STATE of a key as KEY_INFO shows it. -/
def KeyState.num : KeyState → Nat
  | .free => 0
  | .reserved => 1
  | .valid => 2
  | .system => 3

/-- KEY_READ (R301). -/
def execKeyRead (s : State) : Res :=
  let k := s.get Reg.KEY_CMD_KEY
  let e := s.keyEntry k
  .next (s.keyCmd fun s =>
    if 2048 ≤ k then s.keyRefuse 0x0606
    else ((((s.set Reg.KEY_INFO_STATE e.state.num).set Reg.KEY_INFO_OWNER e.owner).set Reg.KEY_INFO_USERS e.users).set
      Reg.KEY_INFO_GEN e.gen).keyEnd 0)

end Sys2Proof.Machine
end

