-- ==== Sys2Proof/Machine/UnitIO.lean ====
section
/-!
DEFINITION. What the three units of a tile share: the rings they take from, the scratchpad words that another access has
raced for, draws, and the retirement of commands (04_tile_core.md R94, R96, R100; 05_matrix_array.md R131;
07_vector_engine.md R173).
-/

namespace Sys2Proof.Machine

/-! ## Rings (04_tile_core.md R96; 05_matrix_array.md R131; 07_vector_engine.md R173) -/

/-- What a command takes from rings: endpoint and bytes, in the order of its operands (04_tile_core.md R96, R105;
05_matrix_array.md R131; 07_vector_engine.md R173). -/
def sinNeeds (u : UnitKind) (d : List Word) : List (Nat × Nat) :=
  if isNoop u d then []
  else match u with
    | .cube =>
      (if db d 0 21 then [(dw d 2 5 0, ceilDiv (shapeA d).1 32 * brb (fmtD (dw d 0 10 3)) (shapeA d).2)] else []) ++
      (if db d 0 22 then [(dw d 3 5 0, ceilDiv (shapeB d).1 32 * brb (fmtD (dw d 0 18 11)) (shapeB d).2)] else [])
    | .vector =>
      match vOp (dw d 0 7 0) with
      | none => []
      | some (rx, ry, rz, _) =>
        ([(1, rx), (2, ry), (3, rz)].filter fun w => w.2 ≠ 0 && !vScalar d w.1 && dw d w.1 1 0 = 2).map fun w =>
          (dw d w.1 15 10, roundUp (vOperandBytes d w.1 w.2) 64)
    | .mover => if dw d 0 2 0 = 4 then [(dw d 2 47 42, dw d 3 23 0 * dw d 3 39 24)] else []

/-- What a command takes from one endpoint's ring in all. -/
def ringNeed (u : UnitKind) (d : List Word) (ch : Nat) : Nat :=
  (((sinNeeds u d).filter fun q => q.1 = ch).map (·.2)).sum

/-- The bytes a command has taken so far from an endpoint's ring. -/
def UCmd.gotOf (c : UCmd) (ch : Nat) : Bytes := (c.got.filter fun q => q.1 = ch).flatMap (·.2)

/-- What has arrived for a command on an endpoint: what it has taken and the ready bytes. -/
def Tile.arrived (x : Tile) (c : UCmd) (ch : Nat) : Nat := (c.gotOf ch).length + (x.ep ch).ready

/-- Have all bytes a command takes from rings arrived (04_tile_core.md R96)? -/
def Tile.inputsReady (x : Tile) (u : UnitKind) (c : UCmd) : Bool :=
  (sinNeeds u c.desc).all fun q => ringNeed u c.desc q.1 ≤ x.arrived c q.1

/-- Free bytes at the head of a ring (04_tile_core.md R96). -/
def Endpoint.consume (e : Endpoint) (n : Nat) : Endpoint :=
  { e with head := if e.ringSize = 0 then 0 else (e.head + n) % e.ringSize, ready := e.ready - n }

/-- Of `arr` arrived bytes of A or B, those that no remaining step reads, once every step has run whose data are there: an output
tile (u, v) needs A's block rows of its u and B's of its v, tiles run in order of u and then of v, and an MX block row is
read only when its scale group is there (05_matrix_array.md R131, R133, R134). -/
def cubeFreed (d : List Word) (isA : Bool) (arr total : Nat) : Nat :=
  let nu := ceilDiv (effM d) 128
  let nv := ceilDiv (effN d) 128
  let code := if isA then dw d 0 10 3 else dw d 0 18 11
  let row := max 1 (brb (fmtD code) (if isA then (shapeA d).2 else (shapeB d).2))
  let one := if (fmtD code).isMx then arr / row * row else arr
  if total ≤ arr then total
  else if isA then
    (if db d 0 19 then (if nu ≤ 1 && nv ≤ 1 then one else 0) else if nv ≤ 1 then one else arr / (4 * row) * (4 * row))
  else if nu ≤ 1 && (db d 0 20 || nv ≤ 1) then one else 0

/-- How many bytes of an endpoint's ring a command has read for the last time, of the `arr` that have arrived. The mover and the
vector engine read each byte once. The cube array cannot run a step of one operand before the other operand is there; of two
operands on one endpoint it frees none before the last step. -/
def Tile.freedOf (x : Tile) (u : UnitKind) (c : UCmd) (ch arr : Nat) : Nat :=
  let need := ringNeed u c.desc ch
  let arr := min arr need
  match u with
  | .cube =>
    let d := c.desc
    let hasA := db d 0 21 && dw d 2 5 0 = ch
    let hasB := db d 0 22 && dw d 3 5 0 = ch
    let other := ((sinNeeds .cube d).filter fun q => q.1 ≠ ch).all fun q => q.2 ≤ x.arrived c q.1
    if !other || (hasA && hasB) then 0 else cubeFreed d hasA arr need
  | _ => arr

/-- What a running command takes now from its rings (04_tile_core.md R96; log 59). -/
def Tile.drainCmd (x : Tile) (u : UnitKind) (c : UCmd) : Tile :=
  if c.phase ≠ .running then x
  else ((sinNeeds u c.desc).map (·.1)).dedup.foldl (fun x ch =>
    let e := x.ep ch
    let n := x.freedOf u c ch (x.arrived c ch) - (c.gotOf ch).length
    if n = 0 then x
    else
      let b := (List.range n).map fun i => smapGet 0 x.scratch (e.ringBase + (e.head + i) % max 1 e.ringSize)
      let mark (q : List UCmd) := q.map fun o => if o.seq = c.seq then { o with got := o.got ++ [(ch, b)] } else o
      (x.setQueue u (mark (x.queue u))).updEp ch fun e => e.consume n) x

/-- The running commands of a tile take what has arrived for them. -/
def Tile.drain (x : Tile) : Tile :=
  [UnitKind.cube, .vector, .mover].foldl (fun x u => (x.queue u).foldl (fun x c => x.drainCmd u c) x) x

/-- Free what a command still holds of its rings. -/
def Tile.freeRings (x : Tile) (u : UnitKind) (c : UCmd) : Tile :=
  ((sinNeeds u c.desc).map (·.1)).dedup.foldl (fun x ch =>
    x.updEp ch fun e => e.consume (ringNeed u c.desc ch - (c.gotOf ch).length)) x

/-! ## Races (04_tile_core.md R94) -/

/-- The scratchpad ranges a command writes (04_tile_core.md R94). -/
def outRanges (u : UnitKind) (d : List Word) : List (Nat × Nat) :=
  if isNoop u d then []
  else match u with
    | .cube =>
      if db d 0 26 && !db d 5 14 then
        rowRanges (dw d 7 20 0) (dw d 7 41 21) (brb (fmtD (dw d 5 9 2)) (dw d 1 29 17)) (ceilDiv (dw d 1 16 0) 32)
      else []
    | .vector => if dw d 4 1 0 = 1 then [(dw d 4 30 10, vBytes (fmtD (dw d 4 9 2)) (vOutCount d))] else []
    | .mover =>
      match dw d 0 2 0 with
      | 0 => rowRanges (dw d 2 20 0) (dw d 5 20 0) (dw d 3 23 0) (dw d 3 39 24)
      | 4 => rowRanges (dw d 2 20 0) (dw d 5 20 0) (dw d 3 23 0) (dw d 3 39 24)
      | 2 => rowRanges (dw d 2 41 21) (dw d 5 41 21) (dw d 3 23 0) (dw d 3 39 24)
      | _ => []

/-- An aligned 8-byte word of the scratchpad. -/
def Tile.spWord (x : Tile) (w : Nat) : Word := BitVec.ofNat 64 (leNat (x.readSp (8 * w) 8))

/-- The values that a word has held since a command was issued, beside its present one; none when nothing has raced for it. -/
def UCmd.past (c : UCmd) (w : Nat) : List Word := (c.raced.filter fun q => q.1 = w).flatMap (·.2)

/-- A word as a command reads it: one of the values it has held since the command was issued (log 1). -/
def Tile.wordFor (x : Tile) (c : UCmd) (w : Nat) : Word :=
  match c.past w with
  | [] => x.spWord w
  | old => (x.spWord w :: old).getD (Config.freeElem c.mark w % (old.length + 1)) 0

/-- A byte of the scratchpad as a command reads it. -/
def Tile.inByte (x : Tile) (c : UCmd) (a : Nat) : Nat :=
  if c.raced.isEmpty then (smapGet 0 x.scratch a).toNat else (x.wordFor c (a / 8)).toNat / 256 ^ (a % 8) % 256

/-- Add a value to those a word has held. -/
def noteWord (r : List (Nat × List Word)) (w : Nat) (v : Word) : List (Nat × List Word) :=
  if r.any fun q => q.1 = w then r.map fun q => if q.1 = w then (w, (q.2 ++ [v]).dedup) else q else r ++ [(w, [v])]

/-- The aligned words that `n` bytes from `a` touch. -/
def wordsOf (a n : Nat) : List Nat := if n = 0 then [] else (List.range ((a + n - 1) / 8 + 1 - a / 8)).map (a / 8 + ·)

/-- The words that are about to be written, noted with their values in every command not done, but the writer's own; a vector
command sees the writes of those before it (04_tile_core.md R94; 07_vector_engine.md R170). -/
def Tile.noteRace (x : Tile) (who : Option (UnitKind × BitVec 32)) (a n : Nat) : Tile :=
  let own (u : UnitKind) (c : UCmd) : Bool := match who with
    | some (v, seq) => v = u && (u = .vector || c.seq = seq)
    | none => false
  let note (u : UnitKind) : List UCmd := (x.queue u).map fun c =>
    if c.phase = .sending || c.phase = .lost || c.phase = .finished || own u c then c
    else { c with raced := (wordsOf a n).foldl (fun r w => noteWord r w (x.spWord w)) c.raced }
  { x with cubeQ := note .cube, vecQ := note .vector, movQ := note .mover }

/-- The core or the debug window writes the scratchpad. -/
def Tile.storeSp (x : Tile) (a : Nat) (b : Bytes) : Tile := (x.noteRace none a b.length).writeSp a b

/-- What a command's write leaves: a word that another writer raced for ends up with one of the values (log 1). -/
def Tile.landed (x : Tile) (c : UCmd) (a : Nat) (b : Bytes) : Bytes :=
  if c.raced.isEmpty then b
  else b.zipIdx.map fun p =>
    if (c.past ((a + p.2) / 8)).isEmpty || Config.freeElem (c.mark + 1) ((a + p.2) / 8) % 2 = 0 then p.1
    else smapGet 0 x.scratch (a + p.2)

/-- Write bytes to the scratchpad as a command's output. -/
def Tile.outBytes (x : Tile) (u : UnitKind) (c : UCmd) (a : Nat) (b : Bytes) : Tile :=
  (x.noteRace (some (u, c.seq)) a b.length).writeSp a (x.landed c a b)

/-- A byte string that takes each run of `g` bits from the old string or from the new one (log 1). -/
def mixBits (fresh at' g : Nat) (old new : Bytes) : Bytes :=
  (old.zip new).zipIdx.map fun p => BitVec.ofNat 8 (ofBits 8 fun b =>
    bit (if Config.freeElem fresh (8 * at' + (8 * p.2 + b) / max 1 g) % 2 = 0 then p.1.1.toNat else p.1.2.toNat) b)

/-! ## Bytes of operands -/

/-- A byte of a ring, `i` bytes past its head. -/
def Tile.ringByte (x : Tile) (c : UCmd) (ch i : Nat) : Nat :=
  let e := x.ep ch
  x.inByte c (e.ringBase + (if e.ringSize = 0 then 0 else (e.head + i) % e.ringSize))

/-- Byte `i` of what a command takes from an endpoint's ring, from its first operand there on. -/
def Tile.cmdRingByte (x : Tile) (c : UCmd) (ch i : Nat) : Nat :=
  let g := c.gotOf ch
  if i < g.length then (g.getD i 0).toNat else x.ringByte c ch (i - g.length)

/-- The `b` bits of a bit string from bit `off`, the string given by its bytes (06_accumulation_and_numerics.md R146). -/
def bitsAt (src : Nat → Nat) (off b : Nat) : Nat :=
  let lo := off / 8
  let n := (off % 8 + b + 7) / 8
  ((List.range n).map fun i => src (lo + i) * 256 ^ i).sum / 2 ^ (off % 8) % 2 ^ b

/-! ## Draws (06_accumulation_and_numerics.md R169; 07_vector_engine.md R185) -/

/-- The 24-bit draw of element `w` of a reservation. -/
def drawOf (c : UCmd) (w : Nat) : Nat :=
  let block := (Config.aes128 c.rngKey (c.rngBase + BitVec.ofNat 128 (w / 4))).toNat
  block / 2 ^ (32 * (w % 4)) % 2 ^ 24

/-- The rounding mode of a descriptor field (04_tile_core.md R103, R104). -/
def rndOf (r : Nat) : Rnd := if r = 1 then .rz else if r = 2 then .stoch else .rne

/-- A reservation of `blocks` blocks of a stream at the start of a command. -/
def Tile.reserve (x : Tile) (stream blocks : Nat) (c : UCmd) : Tile × UCmd :=
  let i := stream % 4
  if h : i < 4 then
    let r := x.rng[i]
    ({ x with rng := x.rng.set i { r with ctr := r.ctr + BitVec.ofNat 128 blocks } },
      { c with rngBase := r.ctr, rngKey := r.key })
  else (x, c)

/-! ## The queue (04_tile_core.md R100, R107) -/

/-- The finished commands at the head of a unit's queue leave it: the completion counter advances in issue order and its
event source counts (04_tile_core.md R100, R107). -/
def Tile.retire (x : Tile) (u : UnitKind) : Tile :=
  let q := x.queue u
  let k := (q.takeWhile fun c => c.phase = .finished).length
  let x := x.setQueue u (q.drop k)
  let n := BitVec.ofNat 32 k
  let x := match u with
    | .cube => { x with cubeDone := x.cubeDone + n }
    | .vector => { x with vecDone := x.vecDone + n }
    | .mover => { x with movDone := x.movDone + n }
  x.bump 4 u.num k

/-- Change the command of a queue with a sequence number. -/
def updCmd (q : List UCmd) (seq : BitVec 32) (f : UCmd → UCmd) : List UCmd := q.map fun c => if c.seq = seq then f c else c

/-- Put a phase on the command with a sequence number. -/
def setPhase (q : List UCmd) (seq : BitVec 32) (ph : CmdPhase) : List UCmd := updCmd q seq fun c => { c with phase := ph }

end Sys2Proof.Machine
end

