-- ==== Sys2Proof/Machine/CubeCalc.lean ====
section
/-!
DEFINITION. What a cube command computes (05_matrix_array.md) with its sums and epilogue (06_accumulation_and_numerics.md), as
functions of the tile and the command.
-/

namespace Sys2Proof.Machine

/-! ## Operands (05_matrix_array.md R128, R130, R131) -/

/-- The byte source of an operand: the scratchpad from its address, or its ring. -/
def cubeSrc (x : Tile) (c : UCmd) (sin : Bool) (w : Nat) (b : Nat) : (Nat → Nat) × Nat :=
  let d := c.desc
  let off := if w = 3 then (((sinNeeds .cube d).take (if db d 0 21 then 1 else 0)).filter fun q => q.1 = dw d 3 5 0).map (·.2) else []
  if sin then (fun o => x.cmdRingByte c (dw d w 5 0) (off.sum + o), b)
  else (fun o => x.inByte c (dw d w 20 0 + o), dw d w 41 21)

/-- Stored element (r, c) of a blocked matrix with `cols` stored columns; `runRow` when MX runs lie along stored rows
(05_matrix_array.md R128). -/
def blockElem (src : Nat → Nat) (stride code cols : Nat) (runRow : Bool) (r c : Nat) : ExNum × Bool × Bool :=
  let fm := fmtD code
  let blocks := ceilDiv cols 32
  let base := r / 32 * stride + c / 32 * 128 * fm.bits + r % 32 * 4 * fm.bits
  let v := bitsAt (fun i => src (base + i)) (c % 32 * fm.bits) fm.bits
  if fm.isMx then
    let sc := src (r / 32 * stride + blocks * 128 * fm.bits + c / 32 * 32 + (if runRow then r % 32 else c % 32))
    fm.readScaled v sc
  else fm.read v

/-- Element (i, k) of A. -/
def elemA (src : Nat → Nat) (stride : Nat) (d : List Word) (i k : Nat) : ExNum × Bool × Bool :=
  let (_, cols) := shapeA d
  if db d 0 19 then blockElem src stride (dw d 0 10 3) cols false k i
  else blockElem src stride (dw d 0 10 3) cols true i k

/-- Element (k, j) of B. -/
def elemB (src : Nat → Nat) (stride : Nat) (d : List Word) (k j : Nat) : ExNum × Bool × Bool :=
  let (_, cols) := shapeB d
  if db d 0 20 then blockElem src stride (dw d 0 18 11) cols true j k
  else blockElem src stride (dw d 0 18 11) cols false k j

/-! ## Terms (05_matrix_array.md R124, R126) -/

/-- hi and lo of an FP32 element (05_matrix_array.md R124). -/
def splitF32 (v : ExNum) : ExNum × ExNum :=
  match v with
  | .nan => (.nan, .nan)
  | .num _ _ _ =>
    let hi := (fBF16.decode (fBF16.conv .rz 0 v).1).1
    (hi, (fBF16.decode (fBF16.conv .rne 0 (v.sub hi)).1).1)

/-- The terms of one (a, b): three partial products for an FP32 pair, else f(a, b) (05_matrix_array.md R124, R126). -/
def termsOf (mode : Nat) (cls : PairClass) (a b : ExNum) : List ExNum :=
  match mode with
  | 0 =>
    if cls = .fp32 then
      let (ha, la) := splitF32 a; let (hb, lb) := splitF32 b
      [ha.mul hb, ha.mul lb, la.mul hb]
    else [a.mul b]
  | 1 => [(a.sub b).abs]
  | 2 => [(a.sub b).mul (a.sub b)]
  | 3 => [a.add b]
  | 4 => [a.add b]
  | _ => [if ExNum.eqv a b then ExNum.ofInt 1 else ExNum.zero]

/-- The minimum or maximum of rounded terms; between zeros of both signs −0 for the minimum and +0 for the maximum
(06_accumulation_and_numerics.md R161). -/
def pickExt (isMin : Bool) (a b : ExNum) : ExNum :=
  if a.isNan || b.isNan then .nan
  else if ExNum.lt a b then (if isMin then a else b)
  else if ExNum.lt b a then (if isMin then b else a)
  else match a, b with
    | .num n1 m1 e1, .num n2 _ _ => if m1 = 0 then .num (if isMin then n1 || n2 else n1 && n2) 0 0 else .num n1 m1 e1
    | _, _ => .nan

/-- The combined value of one element: (s, c, SAT, NAN). `old` is the existing element under ACC_MODE 1; without a term it stands
unchanged and no flag is set (05_matrix_array.md R126, R142; 06_accumulation_and_numerics.md R152 to R163). The term a + b of
MINPLUS and MAXPLUS that rounds beyond FP32 takes the largest finite value of its sign, with SAT, and an existing NaN counts as
a NaN read (log 123). -/
def combine (mode : Nat) (cls : PairClass) (comp : Bool) (w : Nat) (prods : List (ExNum × ExNum))
    (old : Option (ExNum × ExNum)) : ExNum × ExNum × Bool × Bool :=
  let terms := prods.flatMap fun p => termsOf mode cls p.1 p.2
  if terms.isEmpty then
    match old with
    | some p => (p.1, p.2, false, false)
    | none => (ExNum.zero, ExNum.zero, false, false)
  else if mode = 3 || mode = 4 then
    let r := terms.map fun t => if cls.isInt then (t, false) else roundF32 t
    let v := match (old.toList.map (·.1)) ++ r.map (·.1) with
      | [] => ExNum.zero
      | v :: vs => vs.foldl (pickExt (mode = 3)) v
    (v, ExNum.zero, r.any (·.2), v.isNan)
  else
    let passes := if cls = .fp32 && mode = 0 then (List.range 3).map fun i => prods.map fun p =>
      ((termsOf mode cls p.1 p.2).getD i ExNum.zero) else [terms]
    let runs := passes.flatMap (chunks 32)
    if cls.isInt then
      let (v, sat) := intSum w (((old.toList.map (·.1)) ++ runs.map ExNum.sum).map ExNum.toInt)
      (ExNum.ofInt v, ExNum.zero, sat, false)
    else
      floatSum comp w old (runs.zipIdx.map fun r => runSum comp (w / 2 ^ (64 * (r.2 + 1))) r.1) terms
        (terms.length + old.toList.length)

/-! ## The accumulator store (05_matrix_array.md R135, R136; 06_accumulation_and_numerics.md R151) -/

/-- A 4-byte word of the accumulator store. -/
def Tile.accWord (x : Tile) (a : Nat) : Nat := leNat (smapRead 0 x.acc a 4)

/-- An existing element in the full layout, which under ACC_MODE 1 is read as whatever stands there (05_matrix_array.md R136). An
infinity pattern counts as the largest finite value of its sign, without SAT (log 123). -/
def oldElem (x : Tile) (d : List Word) (cls : PairClass) (i j : Nat) : ExNum × ExNum :=
  let a := dw d 4 5 0 * 4096 + (i * effN d + j) * sumBytes d
  if cls.isInt then (ExNum.ofInt (sext 32 (x.accWord a)), ExNum.zero)
  else if db d 0 25 then (f32Val (x.accWord a), f32Val (x.accWord (a + 4)))
  else (f32Val (x.accWord a), ExNum.zero)

/-- The stored bytes of an element. -/
def accBytes (cls : PairClass) (comp : Bool) (v c : ExNum) : Bytes :=
  let w (z : ExNum) : Bytes := leBytes 4 (if cls.isInt then wrapInt 32 z.toInt else f32Bits z)
  if comp then w v ++ w c else w v

/-- The results of a command, by row and column. -/
structure CubeOut where
  v : ExNum
  c : ExNum
  deriving DecidableEq, Repr

/-! ## Done (05_matrix_array.md R132, R142, R144; 06_accumulation_and_numerics.md R164 to R168) -/

/-- The class of a command's pair. -/
def cubeClass (d : List Word) : PairClass := pairClass (dw d 0 2 0) (dw d 0 10 3) (dw d 0 18 11)

/-- Every (a, b) of element (i, j) along K, as read: values with the flags of their reads. -/
def cubePairs (x : Tile) (c : UCmd) (i j : Nat) : List ((ExNum × Bool × Bool) × (ExNum × Bool × Bool)) :=
  let d := c.desc
  let (srcA, strA) := cubeSrc x c (db d 0 21) 2 (brb (fmtD (dw d 0 10 3)) (shapeA d).2)
  let (srcB, strB) := cubeSrc x c (db d 0 22) 3 (brb (fmtD (dw d 0 18 11)) (shapeB d).2)
  (List.range (dw d 1 42 30)).map fun q => (elemA srcA strA d i q, elemB srcB strB d q j)

/-- The existing element under ACC_MODE 1. -/
def cubeOld (x : Tile) (d : List Word) (i j : Nat) : Option (ExNum × ExNum) :=
  if dw d 0 24 23 = 1 then some (oldElem x d (cubeClass d) i j) else none

/-- The sums of every element of the product, and the command's SAT and NAN from reads and additions. -/
def cubeSums (x : Tile) (c : UCmd) : List (List CubeOut) × Bool × Bool :=
  let d := c.desc
  let n := dw d 1 29 17
  let cells := (List.range (dw d 1 16 0)).map fun i => (List.range n).map fun j =>
    let es := cubePairs x c i j
    let (v, cc, sat, nan) := combine (dw d 0 2 0) (cubeClass d) (db d 0 25) (Config.freeElem c.mark (i * n + j))
      (es.map fun e => (e.1.1, e.2.1)) (cubeOld x d i j)
    let rs := es.any fun e => e.1.2.1 || e.2.2.1
    let rn := es.any fun e => e.1.2.2 || e.2.2.2
    (({ v := v, c := cc } : CubeOut), sat || rs, nan || rn)
  (cells.map fun r => r.map (·.1), cells.any fun r => r.any (·.2.1), cells.any fun r => r.any (·.2.2))

/-- The output tiles in the order of R134, as (u, v). -/
def cubeTiles (d : List Word) : List (Nat × Nat) :=
  (List.range (ceilDiv (dw d 1 16 0) 128)).flatMap fun u => (List.range (ceilDiv (dw d 1 29 17) 128)).map fun v => (u, v)

/-- The sums and compensation terms of one output tile as 4-byte words. -/
def tileWords (d : List Word) (sums : List (List CubeOut)) (q : Nat × Nat) : List Bytes :=
  (((sums.drop (128 * q.1)).take 128).flatMap fun r => (r.drop (128 * q.2)).take 128).flatMap fun o =>
    let b := accBytes (cubeClass d) (db d 0 25) o.v o.c
    if db d 0 25 then [b.take 4, b.drop 4] else [b]

/-- The accumulator store after the command (05_matrix_array.md R135, R136, R142). In the full layout the elements past M or N keep
what they held under ACC_MODE 1 and are free otherwise. In the window layout each 4-byte word holds a free choice of the sums and
compensation terms of the last two tiles (log 1), and so does the range of one tile that is drained (log 122). K = 0 writes
zeros, or nothing under ACC_MODE 1. -/
def Tile.accAfter (x : Tile) (c : UCmd) (sums : List (List CubeOut)) : Tile :=
  let d := c.desc
  let base := dw d 4 5 0 * 4096
  let addMode := dw d 0 24 23 = 1
  if dw d 1 42 30 = 0 then
    (if addMode then x else { x with acc := smapWrite 0 x.acc base (zeros (accFoot d)) })
  else if fullLayout d then
    let b := (List.range (effM d)).flatMap fun i => (List.range (effN d)).flatMap fun j =>
      match (sums[i]?).bind (·[j]?) with
      | some o => accBytes (cubeClass d) (db d 0 25) o.v o.c
      | none => (List.range (sumBytes d)).map fun q =>
        let k := (i * effN d + j) * sumBytes d + q
        if addMode then smapGet 0 x.acc (base + k) else Config.freeByte (c.mark + 2) k
    { x with acc := smapWrite 0 x.acc base b }
  else
    let ws := ((cubeTiles d).reverse.take 2).flatMap (tileWords d sums)
    { x with acc := smapWrite 0 x.acc base ((List.range (accFoot d / 4)).flatMap fun i =>
        ws.getD (Config.freeElem (c.mark + 2) i % ws.length) (zeros 4)) }

/-- A partial result of an element: a free choice of its runs along K, added to the existing element under ACC_MODE 1; nothing
when no run is in (05_matrix_array.md R143; log 1). -/
def cubePart (x : Tile) (c : UCmd) (i j : Nat) : Option CubeOut :=
  let d := c.desc
  let w := Config.freeElem (c.mark + 3) (i * effN d + j)
  let es := (cubePairs x c i j).zipIdx.filter fun e => bit w (e.2 / 32)
  if es.isEmpty then none
  else
    let r := combine (dw d 0 2 0) (cubeClass d) (db d 0 25) w (es.map fun e => (e.1.1.1, e.1.2.1)) (cubeOld x d i j)
    some { v := r.1, c := r.2.1 }

/-- The accumulator store when the command is stopped: each element holds its value from before or a partial result
(05_matrix_array.md R143). In the window layout each word is one of the partial results, or what it was. -/
def Tile.accStopped (x : Tile) (c : UCmd) : Tile :=
  let d := c.desc
  let base := dw d 4 5 0 * 4096
  let old (a n : Nat) : Bytes := smapRead 0 x.acc a n
  if dw d 1 42 30 = 0 then
    (if dw d 0 24 23 = 1 then x
      else { x with acc := smapWrite 0 x.acc base (mixBits (c.mark + 3) base 32 (old base (accFoot d)) (zeros (accFoot d))) })
  else if fullLayout d then
    let parts := (List.range (dw d 1 16 0)).flatMap fun i => (List.range (dw d 1 29 17)).filterMap fun j =>
      (cubePart x c i j).map fun o =>
        (base + (i * effN d + j) * sumBytes d, accBytes (cubeClass d) (db d 0 25) o.v o.c)
    { x with acc := parts.foldl (fun m q => smapWrite 0 m q.1 q.2) x.acc }
  else
    let parts := (List.range (dw d 1 16 0)).map fun i => (List.range (dw d 1 29 17)).map fun j =>
      (cubePart x c i j).getD ⟨ExNum.zero, ExNum.zero⟩
    let ws := (cubeTiles d).flatMap (tileWords d parts)
    { x with acc := smapWrite 0 x.acc base ((List.range (accFoot d / 4)).flatMap fun i =>
        ws.getD (Config.freeElem (c.mark + 2) i % (2 * ws.length)) (old (base + 4 * i) 4)) }

/-! ## Latched weight blocks (05_matrix_array.md R118, R119, R143) -/

/-- K rows of a weight block (05_matrix_array.md R123). -/
def cubeKappa (d : List Word) : Nat := if cubeClass d = .fp4 || cubeClass d = .int4 then 64 else 32

/-- The weight block of K-slice `ks` and N-group `g`, as stored elements; places past the stored matrix are zero. -/
def weightBlock (x : Tile) (c : UCmd) (ks g : Nat) : WeightBlock :=
  let d := c.desc
  let (src, str) := cubeSrc x c (db d 0 22) 3 (brb (fmtD (dw d 0 18 11)) (shapeB d).2)
  let b := (fmtD (dw d 0 18 11)).bits
  (List.range (cubeKappa d)).flatMap fun q => (List.range 16).map fun w =>
    let k := ks * cubeKappa d + q
    let j := 16 * g + w
    let (r, cc) := if db d 0 20 then (j, k) else (k, j)
    if roundUp (shapeB d).1 32 ≤ r || roundUp (shapeB d).2 32 ≤ cc then 0
    else bitsAt src ((r / 32 * str + cc / 32 * 128 * b + r % 32 * 4 * b) * 8 + cc % 32 * b) b

/-- The weight blocks of the steps of an output tile. -/
def tileBlocks (d : List Word) (q : Nat × Nat) : List (Nat × Nat) :=
  (List.range (ceilDiv (dw d 1 42 30) (cubeKappa d))).flatMap fun ks =>
    (List.range ((min 128 (effN d - 128 * q.2)) / 16)).map fun g => (ks, 8 * q.2 + g)

/-- The latch sets after the command: the last two blocks that its steps have loaded. The order of the steps in a tile, and which
set a block takes, are free (R119, R134; log 1). -/
def Tile.latchAfter (x : Tile) (c : UCmd) : Tile :=
  let w := Config.freeElem (c.mark + 2) (2 ^ 40)
  let last := (((cubeTiles c.desc).getLast?).map (tileBlocks c.desc)).getD []
  match last with
  | [] => x
  | b :: _ =>
    let one := last.getD (w / 2 % last.length) b
    let before := (cubeTiles c.desc).dropLast.flatMap (tileBlocks c.desc)
    let rest := if last.length = 1 then before else last.filter fun q => q ≠ one
    let blk (q : Nat × Nat) : WeightBlock := weightBlock x c q.1 q.2
    let v (new old : WeightBlock) : Vector WeightBlock 2 := if w % 2 = 0 then #v[new, old] else #v[old, new]
    { x with latch := match rest with
      | [] => v (blk one) (if w % 2 = 0 then x.latch[1] else x.latch[0])
      | r :: _ => v (blk one) (blk (rest.getD (w / 2 / last.length % rest.length) r)) }

/-- The latch sets when the command is stopped: each keeps its block or holds one the command loaded (R143; log 1). -/
def Tile.latchStopped (x : Tile) (c : UCmd) : Tile :=
  let bs := (cubeTiles c.desc).flatMap (tileBlocks c.desc)
  { x with latch := Vector.ofFn fun i : Fin 2 =>
      match bs[Config.freeElem (c.mark + 2) (2 ^ 40 + i.val) % (bs.length + 1)]? with
      | some q => weightBlock x c q.1 q.2
      | none => x.latch[i.val] }

/-! ## Epilogue (05_matrix_array.md R132; 06_accumulation_and_numerics.md R164 to R169) -/

/-- Element (i, j) of E, at the position of the output. -/
def elemE (x : Tile) (c : UCmd) (i j : Nat) : ExNum × Bool × Bool :=
  let d := c.desc
  blockElem (fun o => x.inByte c (dw d 6 20 0 + o)) (dw d 6 49 29) (dw d 6 28 21) (dw d 1 29 17) true i j

/-- The exact value the epilogue converts (06_accumulation_and_numerics.md R166 items 1 and 2), with the flags of E. -/
def epiValue (x : Tile) (c : UCmd) (sums : List (List CubeOut)) (i j : Nat) : ExNum × Bool × Bool :=
  let d := c.desc
  let o := ((sums[i]?).bind (·[j]?)).getD ⟨ExNum.zero, ExNum.zero⟩
  let v := if db d 0 25 then o.v.add o.c else o.v
  match dw d 5 1 0 with
  | 1 => let (e, st, nn) := elemE x c i j; (v.add e, st, nn)
  | 2 => let (e, st, nn) := elemE x c i j; (v.mul e, st, nn)
  | _ => (v, false, false)

/-- One row of 32 output columns: the element bits, the scale byte, SAT, NAN. Pad elements are +0
(05_matrix_array.md R130; 06_accumulation_and_numerics.md R168, R169). -/
def epiRun (x : Tile) (c : UCmd) (sums : List (List CubeOut)) (i cb : Nat) :
    List Nat × Nat × Bool × Bool :=
  let d := c.desc
  let m := dw d 1 16 0; let n := dw d 1 29 17
  let fm := fmtD (dw d 5 9 2); let rnd := rndOf (dw d 5 11 10)
  let js := (List.range 32).filterMap fun q => if i < m && cb * 32 + q < n then some (cb * 32 + q) else none
  let vals := js.map fun j => (epiValue x c sums i j, if rnd = .stoch then drawOf c (i * n + j) else 0)
  let st0 := vals.any fun v => v.1.2.1
  let nn0 := vals.any fun v => v.1.2.2
  match fm with
  | .mx f =>
    let (sc, bits, nn) := mxConv f rnd (vals.map fun v => (v.1.1, v.2))
    (bits ++ List.replicate (32 - bits.length) 0, if vals.isEmpty then 0 else sc, st0, nn0 || nn)
  | _ =>
    let r := vals.map fun v => fm.conv rnd v.2 v.1.1
    (r.map (·.1) ++ List.replicate (32 - r.length) 0, 0, st0 || r.any (·.2.1), nn0 || r.any (·.2.2))

/-- 32 elements of `b` bits as bytes (06_accumulation_and_numerics.md R146). -/
def packBits (b : Nat) (l : List Nat) : Bytes :=
  leBytes (ceilDiv (l.length * b) 8) ((l.zipIdx.map fun p => p.1 * 2 ^ (b * p.2)).sum)

/-- Blocks `cb0` to `cb0 + nb − 1` of one block row of the output, then their scale group when MX
(05_matrix_array.md R128, R132). -/
def epiBlockRow (x : Tile) (c : UCmd) (sums : List (List CubeOut)) (br cb0 nb : Nat) :
    Bytes × Bool × Bool :=
  let fm := fmtD (dw c.desc 5 9 2)
  let runs := (List.range nb).map fun q => (List.range 32).map fun r => epiRun x c sums (br * 32 + r) (cb0 + q)
  let data := runs.flatMap fun blk => blk.flatMap fun r => packBits fm.bits r.1
  let scales := runs.flatMap fun blk => blk.map fun r => BitVec.ofNat 8 r.2.1
  let bytes := if fm.isMx then data ++ fit (roundUp (32 * nb) 64) scales else data
  (bytes, runs.any fun blk => blk.any (·.2.2.1), runs.any fun blk => blk.any (·.2.2.2))

/-- The output of the epilogue: its block rows in place, or the stream order of R132; and its flags. -/
def epiOut (x : Tile) (c : UCmd) (sums : List (List CubeOut)) :
    List (Nat × Bytes) × Bytes × Bool × Bool :=
  let d := c.desc
  let m := dw d 1 16 0; let n := dw d 1 29 17
  let rows := (List.range (ceilDiv m 32)).map fun br => (br, epiBlockRow x c sums br 0 (ceilDiv n 32))
  let strm := (List.range (ceilDiv m 128)).flatMap fun u => (List.range (ceilDiv n 128)).flatMap fun v =>
    (List.range (ceilDiv (min 128 (m - 128 * u)) 32)).flatMap fun q =>
      (epiBlockRow x c sums (4 * u + q) (4 * v) (ceilDiv (min 128 (n - 128 * v)) 32)).1
  (rows.map fun r => (dw d 7 20 0 + r.1 * dw d 7 41 21, r.2.1), if db d 5 14 then strm else [],
    rows.any fun r => r.2.2.1, rows.any fun r => r.2.2.2)

/-- The accumulator range of an MXI in bytes. -/
def accRange (d : List Word) : Nat × Nat := (dw d 4 5 0 * 4096, dw d 4 12 6 * 4096)

/-! ## The results in place -/

/-- The scratchpad writes of a cube command. -/
def cubeWrites (x : Tile) (c : UCmd) : List (Nat × Bytes) :=
  if isNoop .cube c.desc || !db c.desc 0 26 || db c.desc 5 14 then []
  else (epiOut x c (cubeSums x c).1).1

/-- The tile after a cube command's results are in place, with what its SOUT endpoint gets, SAT and NAN. -/
def cubeFinish (x : Tile) (c : UCmd) : Tile × Bytes × Bool × Bool :=
  let d := c.desc
  if isNoop .cube d then (x, [], false, false)
  else
    let (sums, sat, nan) := cubeSums x c
    let y := ((x.accAfter c sums).latchAfter c).freeRings .cube c
    if db d 0 26 then
      let (rows, strm, st2, nn2) := epiOut x c sums
      let y := if db d 5 14 then y else rows.foldl (fun y r => y.outBytes .cube c r.1 r.2) y
      (y, strm, sat || st2, nan || nn2)
    else (y, [], sat, nan)

/-- The accumulator store and the latch sets when a running cube command is stopped (R143). -/
def cubeStopped (x : Tile) (c : UCmd) : Tile :=
  if isNoop .cube c.desc then x else (x.accStopped c).latchStopped c

end Sys2Proof.Machine
end

