-- ==== Sys2Proof/Machine/Functions.lean ====
section
/-!
DEFINITION. The functions of the vector engine's class S (07_vector_engine.md R176, R180): the exact function is reckoned in
fixed point to far more bits than the bound of R180 needs, and the result is a free value within that bound (log 17).
-/

namespace Sys2Proof.Machine

/-! ## Fixed point of 512 fraction bits -/

/-- One. -/
def fxOne : Nat := 2 ^ 512

/-- A fixed-point number. -/
def ofFx (x : Int) : ExNum := .num (x < 0) x.natAbs (-512)

/-- A number in fixed point, cut. -/
def toFx (x : ExNum) : Int :=
  match x with
  | .nan => 0
  | .num neg m e =>
    let k := if -512 ≤ e then m * 2 ^ (e + 512).toNat else m / 2 ^ (-512 - e).toNat
    if neg then -(k : Int) else (k : Int)

/-- Σ xᵏ / k! from term `t` of index `k`. -/
def expTail : Nat → Nat → Nat → Nat → Nat
  | 0, _, _, _ => 0
  | f + 1, k, x, t => t + expTail f (k + 1) x (t * x / fxOne / (k + 1))

/-- Σ zᵏ·p / (2k + 1), for atanh. -/
def atanhTail : Nat → Nat → Nat → Nat → Nat
  | 0, _, _, _ => 0
  | f + 1, k, z2, p => p / (2 * k + 1) + atanhTail f (k + 1) z2 (p * z2 / fxOne)

/-- Σ (−1)ᵏ·p / ((2k + 1)·q²ᵏ), for atan (1 / q). -/
def atanTail : Nat → Nat → Nat → Int → Int
  | 0, _, _, _ => 0
  | f + 1, k, q, p => p / (2 * k + 1 : Nat) + atanTail f (k + 1) q (-(p / (q * q : Nat)))

/-- Σ x²ᵏ⁺¹ / (1·3·…·(2k + 1)) from term `t` of index `k`, for the normal distribution. -/
def oddTail : Nat → Nat → Nat → Nat → Nat
  | 0, _, _, _ => 0
  | f + 1, k, x2, t => t + oddTail f (k + 1) x2 (t * x2 / fxOne / (2 * k + 3))

/-- ln 2. -/
def ln2Fx : Nat := 2 * atanhTail 180 0 (fxOne / 9) (fxOne / 3)

/-- π. -/
def piFx : Nat := (16 * atanTail 140 0 5 ((fxOne / 5 : Nat) : Int) - 4 * atanTail 60 0 239 ((fxOne / 239 : Nat) : Int)).toNat

/-- √(2π). -/
def sqrt2Pi : ExNum := .num false (Nat.sqrt (2 * piFx * fxOne)) (-512)

/-! ## The exact functions, to 200 bits and more -/

/-- a / b cut to 300 bits, for b ≠ 0. -/
def divCut (a b : ExNum) : ExNum :=
  match a, b with
  | .num n1 m1 e1, .num n2 m2 e2 =>
    let k := Nat.log2 m2 + 300
    .num (n1 != n2) (m1 * 2 ^ k / m2) (e1 - e2 - (k : Int))
  | _, _ => .nan

/-- √(m × 2^e) cut to 300 bits. -/
def sqrtCut (m : Nat) (e : Int) : ExNum :=
  let sh : Nat := 600 + (if e % 2 = 0 then 0 else 1)
  .num false (Nat.sqrt (m * 2 ^ sh)) ((e - (sh : Int)) / 2)

/-- e^a; past ±600 a number beyond every format's range, or zero. -/
def expEx (a : ExNum) : ExNum :=
  if ExNum.lt (ExNum.ofInt 600) a then .num false 1 900
  else if ExNum.lt a (ExNum.ofInt (-600)) then ExNum.zero
  else
    let x := toFx a
    let k := x / (ln2Fx : Int)
    .num false (expTail 120 0 (x - k * (ln2Fx : Int)).toNat fxOne) (k - 512)

/-- ln a, for a > 0. -/
def lnEx (a : ExNum) : ExNum :=
  match a with
  | .nan => .nan
  | .num _ m e =>
    let l := Nat.log2 m
    let f := m * fxOne / 2 ^ l
    let (f, l) := if 3 * fxOne ≤ 2 * f then (f / 2, l + 1) else (f, l)
    let d : Int := (f : Int) - (fxOne : Int)
    let z := d.natAbs * fxOne / (f + fxOne)
    let v : Int := ((2 * atanhTail 130 0 (z * z / fxOne) z : Nat) : Int)
    ofFx (((l : Int) + e) * (ln2Fx : Int) + (if d < 0 then -v else v))

/-- σ(a) = 1 / (1 + e^(−a)). -/
def sigmoidEx (a : ExNum) : ExNum := divCut (ExNum.ofInt 1) ((ExNum.ofInt 1).add (expEx a.neg))

/-- tanh a. -/
def tanhEx (a : ExNum) : ExNum :=
  let q := expEx ((a.abs.neg).scale2 1)
  let v := divCut ((ExNum.ofInt 1).sub q) ((ExNum.ofInt 1).add q)
  if ExNum.lt a ExNum.zero then v.neg else v

/-- φ(a), the standard normal density. -/
def normDensity (a : ExNum) : ExNum := divCut (expEx (((a.mul a).neg).scale2 (-1))) sqrt2Pi

/-- Φ(a), the standard normal distribution function; past ±20 it is 0 or 1. -/
def normDist (a : ExNum) : ExNum :=
  if ExNum.lt (ExNum.ofInt 20) a then ExNum.ofInt 1
  else if ExNum.lt a (ExNum.ofInt (-20)) then ExNum.zero
  else
    let x := (toFx a).natAbs
    let half := (normDensity a).mul (ofFx (oddTail 1000 0 (x * x / fxOne) x : Nat))
    let h : ExNum := .num false 1 (-1)
    if ExNum.lt a ExNum.zero then h.sub half else h.add half

/-! ## Class S and RS (07_vector_engine.md R180) -/

/-- A free value within `b` × |f| of f, or within 2⁻¹⁴⁹ when |f| < 2⁻¹²⁶; `w` chooses it. -/
def near (w : Nat) (b f : ExNum) : ExNum :=
  let r : ExNum := .num (w % 2 = 1) (w / 2 % 2 ^ 42) (-42)
  if ExNum.lt f.abs (.num false 1 (-126)) then f.add (r.scale2 (-149)) else f.add ((f.mul b).mul r)

/-- 2⁻²². -/
def sBound : ExNum := .num false 1 (-22)

/-- The largest finite FP32 value. -/
def topF32 (neg : Bool) : ExNum := fFP32.top neg

/-- A result above the largest finite FP32 value becomes it, with SAT. -/
def capTop (v : ExNum) : ExNum × Bool := if ExNum.lt (topF32 false) v then (topF32 false, true) else (v, false)

/-- A class S function: the value before conversion, and its SAT (07_vector_engine.md R176, R180). -/
def vFnS (op w : Nat) (xs : List ExNum) (c0 c1 : ExNum) : ExNum × Bool :=
  let x := xs.getD 0 ExNum.zero
  let y := xs.getD 1 ExNum.zero
  let one := ExNum.ofInt 1
  let res (f : ExNum) : ExNum × Bool := (near w sBound f, false)
  match op with
  | 0x20 => if x.isZero then (match x with | .num n _ _ => topF32 n | .nan => .nan, true) else res (divCut one x)
  | 0x21 =>
    let z := (c0.mul x).add c1
    if ExNum.le z ExNum.zero then (topF32 false, true)
    else res (divCut one (match z with | .num _ m e => sqrtCut m e | .nan => .nan))
  | 0x22 =>
    if ExNum.lt x ExNum.zero then (ExNum.zero, true)
    else match x with
      | .num neg m e => if m = 0 && neg then (x, false) else res (sqrtCut m e)
      | .nan => (.nan, false)
  | 0x23 => capTop (near w sBound (expEx x))
  | 0x24 => if ExNum.le x ExNum.zero then (topF32 true, true) else res (lnEx x)
  | 0x25 => res (tanhEx x)
  | 0x26 => res (sigmoidEx x)
  | 0x27 => res (x.mul (sigmoidEx x))
  | 0x28 => res (x.mul (normDist x))
  | 0x29 => res ((x.mul (sigmoidEx y)).mul (one.add (y.mul (sigmoidEx y.neg))))
  | 0x2A => res (x.mul ((normDist y).add (y.mul (normDensity y))))
  | _ => capTop (near w sBound ((expEx (x.sub y)).mul (xs.getD 2 ExNum.zero)))

/-- RSUMEXP over a group: Σ e^(X − Y), each term within R180's bound and the sum within R155's for `g` terms
(07_vector_engine.md R179, R180; log 17). -/
def vSumExp (w g : Nat) (xs : List ExNum) (y : ExNum) : ExNum × Bool :=
  let b := sBound.add ((ExNum.ofInt (clog2 g : Int)).scale2 (-24))
  capTop (near w b (ExNum.sum (xs.map fun x => expEx (x.sub y))))

end Sys2Proof.Machine
end

