-- ==== Sys2Proof/Machine/VecCalc.lean ====
section
/-!
DEFINITION. What a vector command computes (07_vector_engine.md R171 to R184, R470), as functions of the tile and the command.
-/

namespace Sys2Proof.Machine

/-! ## Operands (07_vector_engine.md R171 to R175) -/

/-- The scratchpad range of the output, of no bytes when it goes to a stream. -/
def vOutRange (d : List Word) : Nat × Nat :=
  if dw d 4 1 0 = 1 then (dw d 4 30 10, vBytes (fmtD (dw d 4 9 2)) (vOutCount d)) else (0, 0)

/-- Does an input operand of KIND 1 overlap the output at another address or with other bits per element
(07_vector_engine.md R175)? -/
def vOverlaps (d : List Word) (i role : Nat) : Bool :=
  role ≠ 0 && dw d i 1 0 = 1 && !vScalar d i && dw d 4 1 0 = 1 &&
    !(dw d i 30 10 = dw d 4 30 10 && (fmtD (dw d i 9 2)).bits = (fmtD (dw d 4 9 2)).bits) &&
    !disjoint (dw d i 30 10) (vOperandBytes d i role) (vOutRange d).1 (vOutRange d).2

/-- Where element `e` of an input, which the bytes from `a` hold, is read: in the tile as it was, or where it overlaps the output
in the tile `nw` that has the command's writes, as a free bit says (07_vector_engine.md R175; log 1). -/
def vSide (x nw : Tile) (c : UCmd) (lap : Bool) (i e a n : Nat) : Tile :=
  if lap && !disjoint a n (vOutRange c.desc).1 (vOutRange c.desc).2 && Config.freeElem (c.mark + 3) (4 * e + i) % 2 = 0
  then nw else x

/-- Where operand `i` begins in what the command takes from its ring: after the operands before it that name the same
endpoint (log 59). -/
def vRingOff (d : List Word) (i : Nat) : Nat :=
  match vOp (dw d 0 7 0) with
  | none => 0
  | some (rx, ry, rz, _) =>
    ((([(1, rx), (2, ry), (3, rz)].filter fun w => w.1 < i && w.2 ≠ 0 && !vScalar d w.1 && dw d w.1 1 0 = 2 &&
      dw d w.1 15 10 = dw d i 15 10)).map fun w => roundUp (vOperandBytes d w.1 w.2) 64).sum

/-- Bits `off` to `off + b − 1` of operand `i`, of its element `e`. -/
def vBits (x nw : Tile) (c : UCmd) (i role e off b : Nat) : Nat :=
  let d := c.desc
  match dw d i 1 0 with
  | 1 =>
    let a := dw d i 30 10 + off / 8
    let y := vSide x nw c (vOverlaps d i role) i e a ((off % 8 + b + 7) / 8)
    bitsAt (fun o => y.inByte c (dw d i 30 10 + o)) off b
  | 2 => bitsAt (fun o => x.cmdRingByte c (dw d i 15 10) (vRingOff d i + o)) off b
  | _ => bitsAt (fun o => (smapGet 0 x.acc (dw d i 27 10 + o)).toNat) off b

/-- The words of an FP32 pair of an element, for CPADD and CPROUND (07_vector_engine.md R181). -/
def vPair (x nw : Tile) (c : UCmd) (i e : Nat) : ExNum × ExNum × Bool × Bool :=
  let d := c.desc
  if vScalar d i then
    let v := fFP32.decode (dw d i 63 32)
    (v.1, ExNum.zero, v.2.1, v.2.2)
  else
    let w := vBits x nw c i 1 e (64 * e) 64
    let a := fFP32.decode (w % 2 ^ 32)
    let b := fFP32.decode (w / 2 ^ 32)
    (a.1, b.1, a.2.1 || b.2.1, a.2.2 || b.2.2)

/-- Element `e` of operand word `i` in a role: value, SAT, NAN (06_accumulation_and_numerics.md R150). -/
def vElem (x nw : Tile) (c : UCmd) (i role e : Nat) : ExNum × Bool × Bool :=
  let d := c.desc
  let fm := fmtD (dw d i 9 2)
  if vScalar d i then fFP32.decode (dw d i 63 32)
  else
    let v := vBits x nw c i role e (e * fm.bits) fm.bits
    if fm.isMx then
      fm.readScaled v (vBits x nw c i role (8192 + e / 32) ((ceilDiv (vCount d role * fm.bits) 512 * 64 + e / 32) * 8) 8)
    else fm.read v

/-- The group of element `i` (07_vector_engine.md R177). -/
def vGroup (d : List Word) (i : Nat) : Nat :=
  let g := max 1 ((f32Small (dw d 6 31 0)).getD 1)
  let p := (f32Small (dw d 6 63 32)).getD 0
  if p = 0 then i / g else i / g % p

/-- Does the mask let element `i` be computed (07_vector_engine.md R183)? A mask string that the output overlaps is an input in
the sense of R175. -/
def vKept (x nw : Tile) (c : UCmd) (i : Nat) : Bool :=
  let d := c.desc
  let a := dw d 5 20 0 + i / 8
  let y := vSide x nw c (dw d 4 1 0 = 1) 0 i a 1
  dw d 0 23 22 = 0 || bit (y.inByte c a) (i % 8)

/-! ## Functions (07_vector_engine.md R176, R178 to R182, R470) -/

/-- min and max of class A; the sign of a zero that both signs share is free (log 1). -/
def vExt (isMin : Bool) (fr : Nat) (a b : ExNum) : ExNum :=
  if ExNum.lt a b then (if isMin then a else b)
  else if ExNum.lt b a then (if isMin then b else a)
  else if a.isZero && a ≠ b then .num (bit fr 0) 0 0 else a

/-- Class A and N: the exact result of element `i` (07_vector_engine.md R176, R178, R182). -/
def vFnA (op fr r : Nat) (xs : List ExNum) (c0 c1 : ExNum) : ExNum :=
  let x := xs.getD 0 ExNum.zero; let y := xs.getD 1 ExNum.zero; let z := xs.getD 2 ExNum.zero
  let keep := ExNum.le (ExNum.ofInt ((r : Int) + 1)) (c0.scale2 24)
  match op with
  | 0x01 => x.add y
  | 0x02 => x.sub y
  | 0x03 => x.mul y
  | 0x04 => (x.mul y).add z
  | 0x05 => (c0.mul x).add (c1.mul y)
  | 0x06 => (c0.mul x).add c1
  | 0x07 => vExt true fr x y
  | 0x08 => vExt false fr x y
  | 0x09 => x.abs
  | 0x0A => vExt true fr (vExt false fr x c0) c1
  | 0x0B => if ExNum.lt ExNum.zero x then x else c0.mul x
  | 0x0C => if ExNum.lt ExNum.zero y then x else c0.mul x
  | 0x10 => x
  | 0x11 => if ExNum.lt ExNum.zero z then x else y
  | 0x12 => if ExNum.lt y x then ExNum.ofInt 1 else ExNum.zero
  | 0x38 => (x.sub y).mul z
  | 0x39 => x.mul y
  | 0x50 => c0.add ((c1.sub c0).mul (.num false r (-24)))
  | 0x51 => if keep then ExNum.ofInt 1 else ExNum.zero
  | 0x52 => if keep then x.mul c1 else ExNum.zero
  | _ => ExNum.zero

/-- Does an operation use C0, and C1, as values (07_vector_engine.md R176)? -/
def vUsesC (op : Nat) : Bool × Bool :=
  (op = 5 || op = 6 || op = 0x0A || op = 0x0B || op = 0x0C || op = 0x21 || (0x50 ≤ op && op ≤ 0x52),
    op = 5 || op = 6 || op = 0x0A || op = 0x21 || op = 0x50 || op = 0x52)

/-- The sum of two compensated pairs: its words and SAT (06_accumulation_and_numerics.md R159; 07_vector_engine.md R181). A sum
beyond the FP32 range takes the largest finite value of its sign, with compensation +0 (R163), and so does the word c alone
where only it rounds beyond the range (log 123). -/
def cpAdd (a b : ExNum × ExNum) : ExNum × ExNum × Bool :=
  let sm := a.1.add b.1
  let t := roundF32 sm
  let whole := roundF32 (sm.add (a.2.add b.2))
  if t.2 then (t.1, ExNum.zero, true)
  else if whole.2 then (whole.1, ExNum.zero, true)
  else
    let cc := roundF32 (a.2.add b.2)
    let c := roundF32 (cc.1.add (sm.sub t.1))
    (t.1, c.1, cc.2 || c.2)

/-- One output element before conversion: its value (for CPADD its two words), SAT and NAN so far, or nothing where the
mask excludes it (07_vector_engine.md R178, R180, R181, R183, R470). -/
def vResult (x nw : Tile) (c : UCmd) (i : Nat) : Option (List ExNum × Bool × Bool) :=
  let d := c.desc
  let op := dw d 0 7 0
  match vOp op with
  | none => none
  | some (rx, ry, rz, cls) =>
    if !vKept x nw c i then none
    else if op = 0x40 then
      let (s1, c1, st1, nn1) := vPair x nw c 1 i
      let (s2, c2, st2, nn2) := vPair x nw c 2 i
      if nn1 || nn2 then some ([.nan, .nan], st1 || st2, true)
      else
        let (t, cc, sat) := cpAdd (s1, c1) (s2, c2)
        some ([t, cc], st1 || st2 || sat, false)
    else if op = 0x41 then
      let (s1, c1, st, nn) := vPair x nw c 1 i
      some ([s1.add c1], st, nn)
    else
      let idx (role : Nat) := if role = 2 then vGroup d i else i
      let es := [(1, rx), (2, ry), (3, rz)].map fun w =>
        if w.2 = 0 then (ExNum.zero, false, false) else vElem x nw c w.1 w.2 (idx w.2)
      let k0 := fFP32.decode (dw d 6 31 0); let k1 := fFP32.decode (dw d 6 63 32)
      let (u0, u1) := vUsesC op
      let st := es.any (·.2.1) || (u0 && k0.2.1) || (u1 && k1.2.1)
      let nn := es.any (·.2.2) || (u0 && k0.2.2) || (u1 && k1.2.2)
      if nn then some ([.nan], st, true)
      else
        let xs := es.map (·.1)
        if cls = .s then
          let (v, sat) := vFnS op (Config.freeElem c.mark i) xs k0.1 k1.1
          some ([v], st || sat, false)
        else some ([vFnA op (Config.freeElem c.mark i) (drawOf c i) xs k0.1 k1.1], st, false)

/-- The largest finite value of an output format (07_vector_engine.md R179). -/
def fmtTop (fm : Fmt) (neg : Bool) : ExNum :=
  match fm with
  | .flt f => f.top neg
  | .mx f => f.top neg
  | .int w => .num neg (2 ^ (w - 1) - 1) 0
  | _ => .num neg 1 0

/-- One group of a reduction: the value before conversion, SAT, NAN (07_vector_engine.md R179, R180). -/
def vReduce (x nw : Tile) (c : UCmd) (g : Nat) : ExNum × Bool × Bool :=
  let d := c.desc
  let op := dw d 0 7 0
  let out := fmtD (dw d 4 9 2)
  let len := (f32Small (dw d 6 31 0)).getD 1
  let is := (List.range (dw d 0 21 8)).filter fun i => vGroup d i = g && vKept x nw c i
  if is.isEmpty then
    (match op with
      | 0x33 => fmtTop out true
      | 0x34 => fmtTop out false
      | _ => ExNum.zero, false, false)
  else
    let xs := is.map fun i => vElem x nw c 1 1 i
    let ys := if op = 0x32 then is.map fun i => vElem x nw c 2 1 i
      else if op = 0x35 then [vElem x nw c 2 2 g] else []
    let st := xs.any (·.2.1) || ys.any (·.2.1)
    if xs.any (·.2.2) || ys.any (·.2.2) then (.nan, st, true)
    else
      let w := Config.freeElem c.mark g
      let a := xs.map (·.1)
      let allInt := (vScalar d 1 = false && (fmtD (dw d 1 9 2)).isInt) &&
        (op ≠ 0x32 || (vScalar d 2 = false && (fmtD (dw d 2 9 2)).isInt)) && out = .int 32
      match op with
      | 0x33 => (a.foldl (vExt false w) (a.headD ExNum.zero), st, false)
      | 0x34 => (a.foldl (vExt true w) (a.headD ExNum.zero), st, false)
      | 0x35 =>
        let (v, sat) := vSumExp w len a ((ys.map (·.1)).headD ExNum.zero)
        (v, st || sat, false)
      | _ =>
        let terms := if op = 0x31 then a.map fun v => v.mul v
          else if op = 0x32 then (a.zip (ys.map (·.1))).map fun p => p.1.mul p.2 else a
        if allInt && op ≠ 0x31 then
          let (v, sat) := intSum w (terms.map ExNum.toInt)
          (ExNum.ofInt v, st || sat, false)
        else
          let (v, _, sat, nn) := floatSum false w none (terms.map fun v => ((v, ExNum.zero), false)) terms len
          (v, st || sat, nn)

/-! ## Output (07_vector_engine.md R172, R183, R184) -/

/-- Every output element before conversion; nothing where the mask excludes it. -/
def vOutputs (x nw : Tile) (c : UCmd) : List (Option (ExNum × Bool × Bool)) :=
  let d := c.desc
  let op := dw d 0 7 0
  if vReduces op then (List.range (vOutCount d)).map fun g => some (vReduce x nw c g)
  else
    (List.range (dw d 0 21 8)).flatMap fun i =>
      match vResult x nw c i with
      | none => if op = 0x40 then [none, none] else [none]
      | some (vs, st, nn) => vs.map fun v => some (v, st, nn)

/-- The bytes of an output of a format that is not MX: masked elements keep their bits under KEEP and are zero under
ZERO, and the bits past the last element keep theirs. -/
def vPlainBytes (fm : Fmt) (rnd : Rnd) (keep : Bool) (old : Nat → Nat) (c : UCmd)
    (vs : List (Option (ExNum × Bool × Bool))) : Bytes × Bool × Bool :=
  let b := fm.bits
  let r := vs.zipIdx.map fun p => match p.1 with
    | none => (if keep then bitsAt old (p.2 * b) b else 0, false, false)
    | some (v, st, nn) =>
      let (w, s2, n2) := fm.conv rnd (if rnd = Rnd.stoch then drawOf c p.2 else 0) v
      (w, st || s2, nn || n2)
  let bits := r.map (·.1)
  let n := bits.length * b
  let pad := if n % 8 = 0 then 0 else bitsAt old n (8 - n % 8)
  let total := ((bits.zipIdx.map fun p => p.1 * 2 ^ (b * p.2)).sum) + pad * 2 ^ n
  (leBytes (ceilDiv n 8) total, r.any (·.2.1), r.any (·.2.2))

/-- The bytes of an MX output: elements, pad, scale bytes, pad (07_vector_engine.md R172;
06_accumulation_and_numerics.md R168). -/
def vMxBytes (f : FloatFmt) (rnd : Rnd) (c : UCmd) (vs : List (Option (ExNum × Bool × Bool))) : Bytes × Bool × Bool :=
  let n := vs.length
  let runs := (List.range (ceilDiv n 32)).map fun q =>
    let es := ((vs.drop (32 * q)).take 32).zipIdx
    let live := es.filterMap fun (p : Option (ExNum × Bool × Bool) × Nat) =>
      p.1.map fun v => (v.1, if rnd = Rnd.stoch then drawOf c (32 * q + p.2) else 0)
    let (sc, bits, nn) := mxConv f rnd live
    let laid := es.foldl (fun (acc : List Nat × List Nat) (p : Option (ExNum × Bool × Bool) × Nat) =>
      match p.1, acc.2 with
      | some _, w :: ws => (acc.1 ++ [w], ws)
      | _, ws => (acc.1 ++ [0], ws)) ([], bits)
    (sc, laid.1, nn)
  let bits := runs.flatMap fun r => r.2.1
  let data := leBytes (ceilDiv (n * f.bits) 512 * 64) ((bits.zipIdx.map fun p => p.1 * 2 ^ (f.bits * p.2)).sum)
  let scales := fit (roundUp (ceilDiv n 32) 64) (runs.map fun r => BitVec.ofNat 8 r.1)
  (data ++ scales, vs.any fun v => match v with | some (_, st, _) => st | none => false,
    runs.any (·.2.2) || vs.any fun v => match v with | some (_, _, nn) => nn | none => false)

/-- The accumulator ranges a VXI reads. -/
def vAccRanges (d : List Word) : List (Nat × Nat) :=
  match vOp (dw d 0 7 0) with
  | none => []
  | some (rx, ry, rz, _) =>
    ([(1, rx), (2, ry), (3, rz)].filter fun w => w.2 ≠ 0 && !vScalar d w.1 && dw d w.1 1 0 = 3).map fun w =>
      (dw d w.1 27 10, vOperandBytes d w.1 w.2)

/-! ## The results in place -/

/-- The bytes of the output, SAT and NAN, where overlapped inputs are read from `nw`. -/
def vecBytes (x nw : Tile) (c : UCmd) : Bytes × Bool × Bool :=
  let d := c.desc
  let vs := vOutputs x nw c
  match fmtD (dw d 4 9 2) with
  | .mx f => vMxBytes f (rndOf (dw d 0 25 24)) c vs
  | fm => vPlainBytes fm (rndOf (dw d 0 25 24)) (dw d 0 23 22 = 1)
      (fun o => if dw d 4 1 0 = 1 then (smapGet 0 x.scratch (dw d 4 30 10 + o)).toNat else 0) c vs

/-- The tile with what the command writes, after `n` rounds in which each overlapped input is read from the round before: a
chain of reads of written values is as long as the output at most (07_vector_engine.md R175). -/
def vecView (x : Tile) (c : UCmd) : Nat → Tile
  | 0 => x
  | n + 1 => x.writeSp (vOutRange c.desc).1 (vecBytes x (vecView x c n) c).1

/-- Does any input of the command overlap its output as R175 says? -/
def vecLaps (d : List Word) : Bool :=
  match vOp (dw d 0 7 0) with
  | none => false
  | some (rx, ry, rz, _) => vOverlaps d 1 rx || vOverlaps d 2 ry || vOverlaps d 3 rz ||
      (dw d 0 23 22 ≠ 0 && dw d 4 1 0 = 1 &&
        !disjoint (dw d 5 20 0) (ceilDiv (dw d 0 21 8) 8) (vOutRange d).1 (vOutRange d).2)

/-- The bytes a command gives, SAT and NAN. -/
def vecOut (x : Tile) (c : UCmd) : Bytes × Bool × Bool :=
  vecBytes x (vecView x c (if vecLaps c.desc then vOutCount c.desc + 1 else 0)) c

/-- The scratchpad writes of a vector command, each with the bits of its elements. -/
def vecWrites (x : Tile) (c : UCmd) : List (Nat × Bytes × Nat) :=
  let d := c.desc
  if isNoop .vector d || dw d 4 1 0 ≠ 1 then []
  else
    let fm := fmtD (dw d 4 9 2)
    let b := (vecOut x c).1
    let a := dw d 4 30 10
    if fm.isMx then
      let n := ceilDiv (vOutCount d * fm.bits) 512 * 64
      [(a, b.take n, fm.bits), (a + n, b.drop n, 8)]
    else [(a, b, fm.bits)]

/-- The tile after a vector command, and what its SOUT endpoint gets, SAT and NAN. -/
def vecFinish (x : Tile) (c : UCmd) : Tile × Bytes × Bool × Bool :=
  let d := c.desc
  if isNoop .vector d then (x, [], false, false)
  else
    let (b, st, nn) := vecOut x c
    let y := x.freeRings .vector c
    if dw d 4 1 0 = 1 then (y.outBytes .vector c (dw d 4 30 10) b, [], st, nn) else (y, b, st, nn)

end Sys2Proof.Machine
end

