-- ==== Sys2Proof/Machine/MoverCalc.lean ====
section
/-!
DEFINITION. What a mover command moves (04_tile_core.md R105, R106), and the scratchpad writes of the running commands of a tile
(R94, R110).
-/

namespace Sys2Proof.Machine

/-- The lines a mover command reads or writes in memory, in the order it issues them, with the scratchpad address of each
(04_tile_core.md R105, R106). -/
def mviLines (d : List Word) : List (Nat × Nat) :=
  if dw d 3 23 0 = 0 then []
  else (List.range (dw d 3 39 24)).flatMap fun r => (List.range (dw d 3 23 0 / 64)).map fun i =>
    ((dw d 1 63 0 + r * dw d 4 47 0 + 64 * i) % 2 ^ 64, dw d 2 20 0 + r * dw d 5 20 0 + 64 * i)

/-- Bytes of a mover command. -/
def mviBytes (d : List Word) : Nat := dw d 3 23 0 * dw d 3 39 24

/-- The first scratchpad range of a mover command, row by row, and its second. -/
def mviRows (d : List Word) : List (Nat × Nat) := rowRanges (dw d 2 20 0) (dw d 5 20 0) (dw d 3 23 0) (dw d 3 39 24)
/-- The second range. -/
def mviRows2 (d : List Word) : List (Nat × Nat) := rowRanges (dw d 2 41 21) (dw d 5 41 21) (dw d 3 23 0) (dw d 3 39 24)

/-- `n` scratchpad bytes as a command reads them. -/
def Tile.inBytes (x : Tile) (c : UCmd) (a n : Nat) : Bytes := (List.range n).map fun i => BitVec.ofNat 8 (x.inByte c (a + i))

/-- The rows that a scratchpad copy writes when each byte is read after `n` rounds of its own writes. -/
def copyLap (x : Tile) (c : UCmd) : Nat → List (Nat × Bytes)
  | 0 => ((mviRows c.desc).zip (mviRows2 c.desc)).map fun q => (q.2.1, x.inBytes c q.1.1 q.1.2)
  | n + 1 =>
    let y := (copyLap x c n).foldl (fun y w => y.writeSp w.1 w.2) x
    ((mviRows c.desc).zip (mviRows2 c.desc)).map fun q => (q.2.1, y.inBytes c q.1.1 q.1.2)

/-- Do the rows of a scratchpad copy overlap those it writes? -/
def copyLaps (d : List Word) : Bool := (mviRows d).any fun a => (mviRows2 d).any fun b => !disjoint a.1 a.2 b.1 b.2

/-- What a scratchpad copy writes. R105 does not say which of its lines it reads before it writes them: a word that it reads and
writes is read before or after any of those writes (log 15). -/
def copyWrites (x : Tile) (c : UCmd) : List (Nat × Bytes) :=
  if !copyLaps c.desc then copyLap x c 0
  else
    let n := mviBytes c.desc / 64
    let laps := (List.range (n + 1)).map (copyLap x c)
    (copyLap x c 0).zipIdx.map fun q => (q.1.1, (List.range q.1.2.length).map fun i =>
      (((laps.getD (Config.freeElem (c.mark + 1) ((q.1.1 + i) / 8) % (n + 1)) []).getD q.2 (0, [])).2).getD i 0)

/-- The requests of one tile's mover cross the edges and bridges of the memory network (02_fabric.md R42, R469). -/
def State.tileRead (s : State) (t p a : Nat) : State × Except Nat Bytes := s.readVia (memEdges t) p 0 (s.part p).uses a 64

/-- A line written by a tile's mover. -/
def State.tileWrite (s : State) (t p a : Nat) (b : Bytes) : State × Option Nat :=
  s.writeVia (memEdges t) p 0 (s.part p).uses a b

/-- Read lines until one is refused: the data so far, by scratchpad address, and the refusal's code. -/
def State.mviRead (s : State) (t p : Nat) (lines : List (Nat × Nat)) : State × List (Nat × Bytes) × Option Nat :=
  lines.foldl (fun acc q =>
    match acc with
    | (s, b, some e) => (s, b, some e)
    | (s, b, none) =>
      match s.tileRead t p q.1 with
      | (s, .error e) => (s, b, some e)
      | (s, .ok v) => (s, b ++ [(q.2, v)], none)) (s, [], none)

/-- The scratchpad writes of a mover command. -/
def State.mviWrites (s : State) (t : Nat) (c : UCmd) : List (Nat × Bytes) :=
  let d := c.desc
  let x := s.tile t
  if isNoop .mover d then []
  else match dw d 0 2 0 with
    | 0 => match s.partOf t with
      | some p => (s.mviRead t p (mviLines d)).2.1
      | none => []
    | 2 => copyWrites x c
    | 4 => (mviRows d).zipIdx.map fun q =>
        (q.1.1, (List.range q.1.2).map fun i => BitVec.ofNat 8 (x.cmdRingByte c (dw d 2 47 42) (q.2 * dw d 3 23 0 + i)))
    | _ => []

/-- What the running commands of a tile write to its scratchpad: addresses, bytes, and the bits of what is written as one. -/
def State.unitWrites (s : State) (t : Nat) : List (Nat × Bytes × Nat) :=
  let x := s.tile t
  let live (q : List UCmd) := q.filter fun c => c.phase = .running
  ((live x.cubeQ).flatMap fun c => (cubeWrites x c).map fun w => (w.1, w.2, 8)) ++
    ((live x.vecQ).flatMap (vecWrites x)) ++ ((live x.movQ).flatMap fun c => (s.mviWrites t c).map fun w => (w.1, w.2, 64))

/-- A word of the scratchpad with a write laid over it. -/
def overlay (w : Nat) (old : Word) (a : Nat) (b : Bytes) : Word :=
  BitVec.ofNat 64 (leNat ((List.range 8).map fun i =>
    if a ≤ 8 * w + i && 8 * w + i < a + b.length then b.getD (8 * w + i - a) 0 else BitVec.ofNat 8 (old.toNat / 256 ^ i)))

/-- Is an 8-byte word of the scratchpad in the output of a running command? -/
def Tile.wordInFlight (x : Tile) (w : Nat) : Bool :=
  [UnitKind.cube, .vector, .mover].any fun u => (x.queue u).any fun c =>
    c.phase = .running && (outRanges u c.desc).any fun r => !disjoint (8 * w) 8 r.1 r.2

/-- The values that a load of a word may give: what it holds, and what a running command writes there (04_tile_core.md R94). -/
def State.wordValues (s : State) (t w : Nat) : List Word :=
  let now := (s.tile t).spWord w
  now :: ((s.unitWrites t).filter fun q => !disjoint (8 * w) 8 q.1 q.2.1.length).map fun q => overlay w now q.1 q.2.1

/-- A word of the scratchpad as the core or the debug window reads it; which value, where a running command writes it, is free
(04_tile_core.md R94; log 1). -/
def State.seeWord (s : State) (t w : Nat) : Word :=
  if (s.tile t).wordInFlight w then
    let vs := s.wordValues t w
    vs.getD (Config.freeElem s.fresh w % vs.length) 0
  else (s.tile t).spWord w

end Sys2Proof.Machine
end

