-- ==== Sys2Proof/Machine/TileExc.lean ====
section
/-!
DEFINITION. How a tile stops at an exception or at the hub's stop (04_tile_core.md R110, R111), as shared operations.
-/

namespace Sys2Proof.Machine

/-- The memory writes of a stopped mover command that were already in the network complete: which they are is free
(04_tile_core.md R110; log 1). -/
def State.strayWrites (s : State) (t : Nat) (c : UCmd) : State :=
  match s.partOf t with
  | none => s
  | some p =>
    if dw c.desc 0 2 0 = 1 then
      (mviLines c.desc).foldl (fun s q =>
        if s.free 2 = 0 then (s.tick.tileWrite t p q.1 ((s.tile t).inBytes c q.2 64)).1 else s.tick) s
    else s

/-- Does a unit of the tile run a command? -/
def Tile.anyRunning (x : Tile) : Bool := (x.cubeQ ++ x.vecQ ++ x.movQ).any fun c => c.phase.live

/-- The SOUT endpoint of a command, if its output goes to a stream (04_tile_core.md R96). -/
def soutOf (u : UnitKind) (d : List Word) : Option Nat :=
  if isNoop u d then none
  else match u with
    | .cube => if db d 0 26 && db d 5 14 then some (dw d 7 5 0) else none
    | .vector => if dw d 4 1 0 = 2 then some (dw d 4 15 10) else none
    | .mover => if dw d 0 2 0 = 3 || dw d 0 2 0 = 5 then some (dw d 2 47 42) else none

/-- The stream state of a partition. -/
def State.stream (s : State) (p id : Nat) : StreamSt := smapGet StreamSt.empty s.fab.streams (p * 4096 + id)

/-- Change a stream's state. -/
def State.updStream (s : State) (p id : Nat) (f : StreamSt → StreamSt) : State :=
  { s with fab := { s.fab with streams := smapUpd StreamSt.empty s.fab.streams (p * 4096 + id) f } }

/-- What a stopped command has presented and its stream has not accepted is dropped, but for a free number of flits already on
their way (04_tile_core.md R110; 05_matrix_array.md R139; log 1). -/
def State.dropOutput (s : State) (t : Nat) (u : UnitKind) (c : UCmd) : State :=
  match soutOf u c.desc, s.partOf t with
  | some ch, some p =>
    (s.updStream p ((s.tile t).ep ch).stream fun st => { st with src := st.src.take (s.free (st.src.length + 1)) }).tick
  | _, _ => s

/-- What the running commands of a tile leave when they are stopped: each scratchpad word, byte or element of their outputs holds
its earlier value or the one the command writes, the accumulator elements earlier or partial results, and the latched weight
blocks stay (04_tile_core.md R110; 05_matrix_array.md R143; 07_vector_engine.md R189; log 1). -/
def State.stopUnits (s : State) (t : Nat) : State :=
  let x := s.tile t
  let s := (x.movQ.filter fun c => c.phase = .running).foldl (fun s c => s.strayWrites t c) s
  let s := [UnitKind.cube, .vector, .mover].foldl (fun s u =>
    ((x.queue u).filter fun c => c.phase = .sending || c.phase = .lost).foldl (fun s c => s.dropOutput t u c) s) s
  let ws := s.unitWrites t
  (s.updTile t fun x =>
    let x := (x.cubeQ.filter fun c => c.phase = .running).foldl cubeStopped x
    ws.foldl (fun x w => x.writeSp w.1 (mixBits s.fresh w.1 w.2.2 (x.readSp w.1 w.2.1.length) w.2.1)) x).tick

/-- Add to a counter of the tile's partition while its CNT_EN is 1 (02_fabric.md R49, R51). -/
def State.countPart (s : State) (t : Nat) (f : Fld) (n : Nat) : State :=
  match s.partOf t with
  | some p => if s.getF Reg.PART_FAB_CTRL_CNT_EN p 0 = 1 then s.addF f p 0 n else s
  | none => s

/-- The cycles in which a SEND of the tile has waited for a credit are counted when its wait ends; how many they are is free
(02_fabric.md R51; logs 1 and 10). -/
def State.countWait (s : State) (t : Nat) : State :=
  match (s.tile t).wait with
  | some (.sendWait _ _ _ _ _) => (s.countPart t Reg.PART_MSG_WAIT (s.free (2 ^ 32))).tick
  | _ => s

/-- A tile halts for good with a cause and a code; its running commands are stopped (04_tile_core.md R110). -/
def State.haltTile (s : State) (t : Nat) (cause code : Nat) : State :=
  ((if (s.tile t).anyRunning then s.stopUnits t else s).countWait t).updTile t fun x => x.stop cause code

/-- A tile exception (04_tile_core.md R110): the tile halts with CAUSE 1 and its code, and sends one report, a message packet
(02_fabric.md R51). -/
def State.tileExc (s : State) (t : Nat) (code : Nat) : State :=
  ((s.haltTile t 1 code).inject
    { kind := .report, srcTile := t, srcEp := 0, dstTile := 0, dstEp := 0, words := [], flags := 0, code := code }).countPart t
    Reg.PART_MSG_PKTS 1

end Sys2Proof.Machine
end

