-- ==== Sys2Proof/Machine/TileAlu.lean ====
section
/-!
DEFINITION. The register, predicate, branch and control instructions of the tile core (04_tile_core.md R88 to
R92, R107): the issue of an instruction under its guard, once, and one meaning per instruction over it.
-/

namespace Sys2Proof.Machine

/-- The end of an instruction: a tile that is single-stepping halts with CAUSE 4 (04_tile_core.md R114). -/
def Tile.boundary (x : Tile) : Tile :=
  if x.stepping then { x with stepping := false, halted := true, cause := 4, faultPc := x.pc } else x

/-- The PC moves on by one and the issue cycles are counted; PC past 32,767 raises 0x0307 (04_tile_core.md R92). -/
def State.advance (s : State) (t : Nat) (cycles : Nat) : State :=
  if (s.tile t).pc < 32767 then
    s.updTile t fun x => { x with pc := x.pc + 1, cycle := x.cycle + BitVec.ofNat 64 cycles }.boundary
  else (s.updTile t fun x => { x with cycle := x.cycle + BitVec.ofNat 64 cycles }).tileExc t 0x0307

/-- The PC is set by a branch, which costs 3 cycles (04_tile_core.md R92). -/
def State.jump (s : State) (t : Nat) (tgt : Nat) : State :=
  s.updTile t fun x => { x with pc := tgt, cycle := x.cycle + 3 }.boundary

/-- An instruction issues on an executing tile: under a failed guard it takes one cycle and has no effect
(04_tile_core.md R88). An instruction of a tile that does not execute cannot occur, and changes nothing
(assumption log 12). -/
def State.issue (s : State) (t : Nat) (gd : Guard) (body : State → State) : State :=
  if s.runs t then
    if (s.tile t).guard gd then body s else s.advance t 1
  else s

/-- An instruction that writes one general register and takes `cycles`. -/
def State.aluOp (s : State) (t : Nat) (gd : Guard) (rd : GReg) (cycles : Nat) (v : Tile → Word) : State :=
  s.issue t gd fun s => (s.updTile t fun x => x.setG rd (v x)).advance t cycles

/-- An instruction that writes one predicate and takes 1 cycle. -/
def State.predOp (s : State) (t : Nat) (gd : Guard) (pd : Fin 8) (v : Tile → Bool) : State :=
  s.issue t gd fun s => (s.updTile t fun x => x.setP pd (v x)).advance t 1

/-! ## Operand forms and values (04_tile_core.md R91) -/

/-- A 12-bit immediate, sign-extended. -/
def imm12 (i : BitVec 12) : Word := i.signExtend 64

/-- The shift amount of a register: its low 6 bits. -/
def shAmt (v : Word) : Nat := v.toNat % 64

/-- Signed minimum. -/
def sminW (a b : Word) : Word := if a.slt b then a else b

/-- Signed maximum. -/
def smaxW (a b : Word) : Word := if a.slt b then b else a

/-- Unsigned minimum. -/
def uminW (a b : Word) : Word := if a.ult b then a else b

/-- Unsigned maximum. -/
def umaxW (a b : Word) : Word := if a.ult b then b else a

/-- The high 64 bits of the unsigned product. -/
def mulhuW (a b : Word) : Word := BitVec.ofNat 64 (a.toNat * b.toNat / 2 ^ 64)

/-- Unsigned quotient, all ones on division by zero. -/
def divuW (a b : Word) : Word := if b = 0 then BitVec.allOnes 64 else a / b

/-- Unsigned remainder, the dividend on division by zero. -/
def remuW (a b : Word) : Word := if b = 0 then a else a % b

/-- The number of 1 bits. -/
def popcW (a : Word) : Word := BitVec.ofNat 64 (popCount 64 a.toNat)

/-- The number of leading zeros, 64 for 0. -/
def clzW (a : Word) : Word := BitVec.ofNat 64 (if a = 0 then 64 else 63 - Nat.log2 a.toNat)

/-- One 16-bit field replaced. -/
def movkW (old : Word) (hw : Fin 4) (imm : BitVec 16) : Word :=
  (old &&& ~~~((0xFFFF : Word) <<< (16 * hw.val))) ||| (imm.zeroExtend 64 <<< (16 * hw.val))

/-- The condition COND of CMP and CMPI (04_tile_core.md R91). -/
def condW (c : Fin 8) (a b : Word) : Bool :=
  match c.val with
  | 0 => a = b
  | 1 => a ≠ b
  | 2 => a.slt b
  | 3 => !a.slt b
  | 4 => a.ult b
  | 5 => !a.ult b
  | 6 => a &&& b ≠ 0
  | _ => a &&& b = 0

/-- The logical combination of PLOG (04_tile_core.md R91). -/
def plogB (fn : Fin 4) (a b : Bool) : Bool :=
  match fn.val with
  | 0 => a && b
  | 1 => a || b
  | 2 => a != b
  | _ => a && !b

/-! ## Meanings -/

/-- ADD (04_tile_core.md R91). -/
def execAdd (t : TileIx) (gd : Guard) (rd rs1 rs2 : GReg) (s : State) : Res :=
  .next (s.aluOp t gd rd 1 fun x => x.getG rs1 + x.getG rs2)

/-- SUB (04_tile_core.md R91). -/
def execSub (t : TileIx) (gd : Guard) (rd rs1 rs2 : GReg) (s : State) : Res :=
  .next (s.aluOp t gd rd 1 fun x => x.getG rs1 - x.getG rs2)

/-- AND (04_tile_core.md R91). -/
def execAnd (t : TileIx) (gd : Guard) (rd rs1 rs2 : GReg) (s : State) : Res :=
  .next (s.aluOp t gd rd 1 fun x => x.getG rs1 &&& x.getG rs2)

/-- OR (04_tile_core.md R91). -/
def execOr (t : TileIx) (gd : Guard) (rd rs1 rs2 : GReg) (s : State) : Res :=
  .next (s.aluOp t gd rd 1 fun x => x.getG rs1 ||| x.getG rs2)

/-- XOR (04_tile_core.md R91). -/
def execXor (t : TileIx) (gd : Guard) (rd rs1 rs2 : GReg) (s : State) : Res :=
  .next (s.aluOp t gd rd 1 fun x => x.getG rs1 ^^^ x.getG rs2)

/-- SLL (04_tile_core.md R91). -/
def execSll (t : TileIx) (gd : Guard) (rd rs1 rs2 : GReg) (s : State) : Res :=
  .next (s.aluOp t gd rd 1 fun x => x.getG rs1 <<< shAmt (x.getG rs2))

/-- SRL (04_tile_core.md R91). -/
def execSrl (t : TileIx) (gd : Guard) (rd rs1 rs2 : GReg) (s : State) : Res :=
  .next (s.aluOp t gd rd 1 fun x => x.getG rs1 >>> shAmt (x.getG rs2))

/-- SRA (04_tile_core.md R91). -/
def execSra (t : TileIx) (gd : Guard) (rd rs1 rs2 : GReg) (s : State) : Res :=
  .next (s.aluOp t gd rd 1 fun x => (x.getG rs1).sshiftRight (shAmt (x.getG rs2)))

/-- MUL (04_tile_core.md R91). -/
def execMul (t : TileIx) (gd : Guard) (rd rs1 rs2 : GReg) (s : State) : Res :=
  .next (s.aluOp t gd rd 1 fun x => x.getG rs1 * x.getG rs2)

/-- MULHU (04_tile_core.md R91). -/
def execMulhu (t : TileIx) (gd : Guard) (rd rs1 rs2 : GReg) (s : State) : Res :=
  .next (s.aluOp t gd rd 1 fun x => mulhuW (x.getG rs1) (x.getG rs2))

/-- DIVU (04_tile_core.md R91, R92). -/
def execDivu (t : TileIx) (gd : Guard) (rd rs1 rs2 : GReg) (s : State) : Res :=
  .next (s.aluOp t gd rd 34 fun x => divuW (x.getG rs1) (x.getG rs2))

/-- REMU (04_tile_core.md R91, R92). -/
def execRemu (t : TileIx) (gd : Guard) (rd rs1 rs2 : GReg) (s : State) : Res :=
  .next (s.aluOp t gd rd 34 fun x => remuW (x.getG rs1) (x.getG rs2))

/-- MIN (04_tile_core.md R91). -/
def execSmin (t : TileIx) (gd : Guard) (rd rs1 rs2 : GReg) (s : State) : Res :=
  .next (s.aluOp t gd rd 1 fun x => sminW (x.getG rs1) (x.getG rs2))

/-- MAX (04_tile_core.md R91). -/
def execSmax (t : TileIx) (gd : Guard) (rd rs1 rs2 : GReg) (s : State) : Res :=
  .next (s.aluOp t gd rd 1 fun x => smaxW (x.getG rs1) (x.getG rs2))

/-- MINU (04_tile_core.md R91). -/
def execMinu (t : TileIx) (gd : Guard) (rd rs1 rs2 : GReg) (s : State) : Res :=
  .next (s.aluOp t gd rd 1 fun x => uminW (x.getG rs1) (x.getG rs2))

/-- MAXU (04_tile_core.md R91). -/
def execMaxu (t : TileIx) (gd : Guard) (rd rs1 rs2 : GReg) (s : State) : Res :=
  .next (s.aluOp t gd rd 1 fun x => umaxW (x.getG rs1) (x.getG rs2))

/-- POPC (04_tile_core.md R91). -/
def execPopc (t : TileIx) (gd : Guard) (rd rs1 : GReg) (s : State) : Res :=
  .next (s.aluOp t gd rd 1 fun x => popcW (x.getG rs1))

/-- CLZ (04_tile_core.md R91). -/
def execClz (t : TileIx) (gd : Guard) (rd rs1 : GReg) (s : State) : Res :=
  .next (s.aluOp t gd rd 1 fun x => clzW (x.getG rs1))

/-- ADDI (04_tile_core.md R91). -/
def execAddi (t : TileIx) (gd : Guard) (rd rs1 : GReg) (imm : BitVec 12) (s : State) : Res :=
  .next (s.aluOp t gd rd 1 fun x => x.getG rs1 + imm12 imm)

/-- ANDI (04_tile_core.md R91). -/
def execAndi (t : TileIx) (gd : Guard) (rd rs1 : GReg) (imm : BitVec 12) (s : State) : Res :=
  .next (s.aluOp t gd rd 1 fun x => x.getG rs1 &&& imm12 imm)

/-- ORI (04_tile_core.md R91). -/
def execOri (t : TileIx) (gd : Guard) (rd rs1 : GReg) (imm : BitVec 12) (s : State) : Res :=
  .next (s.aluOp t gd rd 1 fun x => x.getG rs1 ||| imm12 imm)

/-- XORI (04_tile_core.md R91). -/
def execXori (t : TileIx) (gd : Guard) (rd rs1 : GReg) (imm : BitVec 12) (s : State) : Res :=
  .next (s.aluOp t gd rd 1 fun x => x.getG rs1 ^^^ imm12 imm)

/-- SLLI (04_tile_core.md R91). -/
def execSlli (t : TileIx) (gd : Guard) (rd rs1 : GReg) (sh : BitVec 6) (s : State) : Res :=
  .next (s.aluOp t gd rd 1 fun x => x.getG rs1 <<< sh.toNat)

/-- SRLI (04_tile_core.md R91). -/
def execSrli (t : TileIx) (gd : Guard) (rd rs1 : GReg) (sh : BitVec 6) (s : State) : Res :=
  .next (s.aluOp t gd rd 1 fun x => x.getG rs1 >>> sh.toNat)

/-- SRAI (04_tile_core.md R91). -/
def execSrai (t : TileIx) (gd : Guard) (rd rs1 : GReg) (sh : BitVec 6) (s : State) : Res :=
  .next (s.aluOp t gd rd 1 fun x => (x.getG rs1).sshiftRight sh.toNat)

/-- The guard that always passes, for MOVZ and MOVK, which carry none (04_tile_core.md R88). -/
def noGuard : Guard := ⟨0, false⟩

/-- MOVZ (04_tile_core.md R91). -/
def execMovz (t : TileIx) (rd : GReg) (hw : Fin 4) (imm : BitVec 16) (s : State) : Res :=
  .next (s.aluOp t noGuard rd 1 fun _ => imm.zeroExtend 64 <<< (16 * hw.val))

/-- MOVK (04_tile_core.md R91). -/
def execMovk (t : TileIx) (rd : GReg) (hw : Fin 4) (imm : BitVec 16) (s : State) : Res :=
  .next (s.aluOp t noGuard rd 1 fun x => movkW (x.getG rd) hw imm)

/-- CMP (04_tile_core.md R91). -/
def execCmp (t : TileIx) (gd : Guard) (pd cond : Fin 8) (rs1 rs2 : GReg) (s : State) : Res :=
  .next (s.predOp t gd pd fun x => condW cond (x.getG rs1) (x.getG rs2))

/-- CMPI (04_tile_core.md R91). -/
def execCmpi (t : TileIx) (gd : Guard) (pd cond : Fin 8) (rs1 : GReg) (imm : BitVec 11) (s : State) : Res :=
  .next (s.predOp t gd pd fun x => condW cond (x.getG rs1) (imm.signExtend 64))

/-- PLOG (04_tile_core.md R91). -/
def execPlog (t : TileIx) (gd : Guard) (pd pa pb : Fin 8) (fn : Fin 4) (s : State) : Res :=
  .next (s.predOp t gd pd fun x => plogB fn (x.getP pa) (x.getP pb))

/-- BR (04_tile_core.md R91). -/
def execBr (t : TileIx) (gd : Guard) (tgt : Fin 32768) (s : State) : Res :=
  .next (s.issue t gd fun s => s.jump t tgt)

/-- CALL (04_tile_core.md R91): g31 takes PC + 1. -/
def execCall (t : TileIx) (gd : Guard) (tgt : Fin 32768) (s : State) : Res :=
  .next (s.issue t gd fun s => (s.updTile t fun x => x.setG 31 (BitVec.ofNat 64 (x.pc + 1))).jump t tgt)

/-- JR (04_tile_core.md R91): a target past 32,767 raises 0x0307. -/
def execJr (t : TileIx) (gd : Guard) (rs1 : GReg) (imm : BitVec 12) (s : State) : Res :=
  .next (s.issue t gd fun s =>
    let tgt := ((s.tile t).getG rs1 + imm12 imm).toNat
    if tgt > 32767 then s.tileExc t 0x0307 else s.jump t tgt)

/-- EVADD (04_tile_core.md R107). -/
def execEvadd (t : TileIx) (gd : Guard) (rs1 : GReg) (ek : Fin 16) (s : State) : Res :=
  .next (s.issue t gd fun s =>
    (s.updTile t fun x => { x with e := x.e.set ek.val (x.e[ek.val] + (x.getG rs1).setWidth 32) }).advance t 1)

/-- EVRD (04_tile_core.md R91). -/
def execEvrd (t : TileIx) (gd : Guard) (rd : GReg) (ek : Fin 16) (s : State) : Res :=
  .next (s.aluOp t gd rd 1 fun x => (x.e[ek.val]).zeroExtend 64)

/-- NOP (04_tile_core.md R91). -/
def execNop (t : TileIx) (gd : Guard) (s : State) : Res := .next (s.issue t gd fun s => s.advance t 1)

/-- TRAP (04_tile_core.md R91, R109): imm12 is recorded. -/
def execTrap (t : TileIx) (gd : Guard) (imm : BitVec 12) (s : State) : Res :=
  .next (s.issue t gd fun s => (s.updTile t fun x => { x with trapImm := imm }).tileExc t 0x0308)

end Sys2Proof.Machine
end

