-- ==== Sys2Proof/Machine/TileMem.lean ====
section
/-!
DEFINITION. Loads and stores, the issue of unit commands, tickets, waits and CSRs of the tile core
(04_tile_core.md R93, R94, R99, R100, R107, R108, R113, R115).
-/

namespace Sys2Proof.Machine

/-! ## SEC-DED arrays of a tile (16_reliability_and_integrity.md R395, R406) -/

/-- An uncorrectable error in a tile array: it is counted, SRAM_LAST records it, and the tile raises 0x0201
(16_reliability_and_integrity.md R395). -/
def State.tileUe (s : State) (t arrayNo addr : Nat) : State :=
  let s := if s.get Reg.SCRUB_CTRL_CNT_EN = 1 then s.addF Reg.SRAM_ERR_UE 0 0 1 else s
  let s := s.set Reg.SRAM_LAST_TILE (tileId t)
  let s := s.set Reg.SRAM_LAST_ARRAY arrayNo
  let s := s.set Reg.SRAM_LAST_UE 1
  let s := s.set Reg.SRAM_LAST_ADDR addr
  s.tileExc t 0x0201

/-! ## Loads and stores -/

/-- The address of a load or store of `n` bytes (04_tile_core.md R93). -/
def spAddr (x : Tile) (rs1 : GReg) (imm : BitVec 12) (n : Nat) : Nat :=
  (x.getG rs1 + imm12 imm * BitVec.ofNat 64 n).toNat

/-- A load of `n` bytes: an address out of range or misaligned raises 0x0306, an uncorrectable error 0x0201. A word that a running
command writes reads as one of its values (04_tile_core.md R93, R94). -/
def State.load (s : State) (t : Nat) (gd : Guard) (rd rs1 : GReg) (imm : BitVec 12) (n : Nat) (ue : Bool) : State :=
  s.issue t gd fun s =>
    let x := s.tile t
    let a := spAddr x rs1 imm n
    if !(a < spSize && aligned a n) then s.tileExc t 0x0306
    else if ue then s.tileUe t 0 a
    else if x.wordInFlight (a / 8) then
      let v := (s.seeWord t (a / 8)).toNat / 256 ^ (a % 8) % 256 ^ n
      ((s.updTile t fun x => x.setG rd (BitVec.ofNat 64 v)).tick).advance t 1
    else (s.updTile t fun x => x.setG rd (BitVec.ofNat 64 (leNat (x.readSp a n)))).advance t 1

/-- A store of the low `n` bytes of g[rd] (04_tile_core.md R93, R94). A store of less than a protected word reads the
word first, and meets its error (16_reliability_and_integrity.md R395). -/
def State.store (s : State) (t : Nat) (gd : Guard) (rd rs1 : GReg) (imm : BitVec 12) (n : Nat) (ue : Bool) : State :=
  s.issue t gd fun s =>
    let x := s.tile t
    let a := spAddr x rs1 imm n
    if !(a < spSize && aligned a n) then s.tileExc t 0x0306
    else if ue && n < 8 then s.tileUe t 0 a
    else (s.updTile t fun x => x.storeSp a (leBytes n (x.getG rd).toNat)).advance t 1

/-- LDB (04_tile_core.md R91, R93). -/
def execLdb (t : TileIx) (gd : Guard) (rd rs1 : GReg) (imm : BitVec 12) (ue : Bool) (s : State) : Res :=
  .next (s.load t gd rd rs1 imm 1 ue)

/-- LDH (04_tile_core.md R91, R93). -/
def execLdh (t : TileIx) (gd : Guard) (rd rs1 : GReg) (imm : BitVec 12) (ue : Bool) (s : State) : Res :=
  .next (s.load t gd rd rs1 imm 2 ue)

/-- LDW (04_tile_core.md R91, R93). -/
def execLdw (t : TileIx) (gd : Guard) (rd rs1 : GReg) (imm : BitVec 12) (ue : Bool) (s : State) : Res :=
  .next (s.load t gd rd rs1 imm 4 ue)

/-- LDD (04_tile_core.md R91, R93). -/
def execLdd (t : TileIx) (gd : Guard) (rd rs1 : GReg) (imm : BitVec 12) (ue : Bool) (s : State) : Res :=
  .next (s.load t gd rd rs1 imm 8 ue)

/-- STB (04_tile_core.md R91, R93). -/
def execStb (t : TileIx) (gd : Guard) (rd rs1 : GReg) (imm : BitVec 12) (ue : Bool) (s : State) : Res :=
  .next (s.store t gd rd rs1 imm 1 ue)

/-- STH (04_tile_core.md R91, R93). -/
def execSth (t : TileIx) (gd : Guard) (rd rs1 : GReg) (imm : BitVec 12) (ue : Bool) (s : State) : Res :=
  .next (s.store t gd rd rs1 imm 2 ue)

/-- STW (04_tile_core.md R91, R93). -/
def execStw (t : TileIx) (gd : Guard) (rd rs1 : GReg) (imm : BitVec 12) (ue : Bool) (s : State) : Res :=
  .next (s.store t gd rd rs1 imm 4 ue)

/-- STD (04_tile_core.md R91, R93). -/
def execStd (t : TileIx) (gd : Guard) (rd rs1 : GReg) (imm : BitVec 12) (ue : Bool) (s : State) : Res :=
  .next (s.store t gd rd rs1 imm 8 ue)

/-! ## Tickets (04_tile_core.md R92, R100) -/

/-- done(t) for a unit's sequence number. -/
def Tile.seqDone (x : Tile) (u : UnitKind) (seq : BitVec 32) : Bool := (x.unitDone u - seq).toNat < 2 ^ 31

/-- The unit a ticket names; none for UNIT 3 or a set bit of [63:34]. -/
def ticketUnit (v : Word) : Option UnitKind :=
  match bitsOf v.toNat 63 32 with
  | 0 => some .cube
  | 1 => some .vector
  | 2 => some .mover
  | _ => none

/-- done(t), for a valid ticket: ticket 0 is always done. -/
def Tile.ticketDone (x : Tile) (v : Word) : Bool :=
  v = 0 || match ticketUnit v with
  | some u => x.seqDone u (v.setWidth 32)
  | none => false

/-- A ticket: SEQ, UNIT (04_tile_core.md R100). -/
def ticket (u : UnitKind) (seq : BitVec 32) : Word := BitVec.ofNat 64 (seq.toNat + u.num * 2 ^ 32)

/-- The issue of a command with a free entry: the issue counter advances, the command joins the queue, the ticket is
written (04_tile_core.md R99, R100). -/
def Tile.enqueue (x : Tile) (u : UnitKind) (rd : GReg) (desc : List Word) : Tile :=
  let seq := x.unitIssued u + 1
  let c : UCmd := { seq := seq, desc := desc, phase := .queued, rngBase := 0, rngKey := 0, raced := [], got := [],
                    after := if u = .vector then some x.cubeIssued else none, mark := 0, out := none }
  let x := x.setQueue u (x.queue u ++ [c])
  let x := match u with
    | .cube => { x with cubeIssued := seq }
    | .vector => { x with vecIssued := seq }
    | .mover => { x with movIssued := seq }
  x.setG rd (ticket u seq)

/-- Is every queue named idle (04_tile_core.md R91, WAITU)? -/
def Tile.unitsIdle (x : Tile) (m : Nat) : Bool :=
  (!bit m 0 || x.cubeQ.isEmpty) && (!bit m 1 || x.vecQ.isEmpty) && (!bit m 2 || x.movQ.isEmpty)

/-- after(e, v) (04_tile_core.md R92). -/
def evAfter (e v : BitVec 32) : Bool := (e - v).toNat < 2 ^ 31

/-- The eight words of a descriptor. -/
def Tile.readDesc (x : Tile) (a : Nat) : List Word :=
  (List.range 8).map fun i => BitVec.ofNat 64 (leNat (x.readSp (a + 8 * i) 8))

/-- MXI, VXI, MVI: the descriptor is read once, checked, and queued or held in a wait (04_tile_core.md R99). A word of the
descriptor that a running command writes reads as one of its values (R94). -/
def State.issueUnit (s : State) (t : Nat) (gd : Guard) (rd rs1 : GReg) (imm : BitVec 12) (u : UnitKind) (ue : Bool) :
    State :=
  s.issue t gd fun s =>
    let x := s.tile t
    let a := (x.getG rs1 + imm12 imm * 64).toNat
    if !(a < spSize && aligned a 64) then s.tileExc t 0x0306
    else if ue then s.tileUe t 0 a
    else
      let desc := (List.range 8).map fun i => s.seeWord t (a / 8 + i)
      let s := s.tick
      match descCheck x u desc with
      | some code => s.tileExc t code
      | none =>
        if (x.queue u).length < u.depth then (s.updTile t fun x => x.enqueue u rd desc).advance t 2
        else s.updTile t fun x => { x with wait := some (.issue u rd desc) }

/-- MXI (04_tile_core.md R99, R103). -/
def execMxi (t : TileIx) (gd : Guard) (rd rs1 : GReg) (imm : BitVec 12) (ue : Bool) (s : State) : Res :=
  .next (s.issueUnit t gd rd rs1 imm .cube ue)

/-- VXI (04_tile_core.md R99, R104). -/
def execVxi (t : TileIx) (gd : Guard) (rd rs1 : GReg) (imm : BitVec 12) (ue : Bool) (s : State) : Res :=
  .next (s.issueUnit t gd rd rs1 imm .vector ue)

/-- MVI (04_tile_core.md R99, R105). -/
def execMvi (t : TileIx) (gd : Guard) (rd rs1 : GReg) (imm : BitVec 12) (ue : Bool) (s : State) : Res :=
  .next (s.issueUnit t gd rd rs1 imm .mover ue)

/-- WAITT (04_tile_core.md R91, R100): an invalid ticket raises 0x030A; a ticket not done waits. -/
def execWaitt (t : TileIx) (gd : Guard) (rs1 : GReg) (s : State) : Res :=
  .next (s.issue t gd fun s =>
    let x := s.tile t
    let v := x.getG rs1
    if (ticketUnit v).isNone then s.tileExc t 0x030A
    else if x.ticketDone v then s.advance t 1
    else s.updTile t fun x => { x with wait := some (.ticket v) })

/-- TESTT (04_tile_core.md R91, R100). -/
def execTestt (t : TileIx) (gd : Guard) (rs1 : GReg) (pd : Fin 8) (s : State) : Res :=
  .next (s.issue t gd fun s =>
    let v := (s.tile t).getG rs1
    if (ticketUnit v).isNone then s.tileExc t 0x030A
    else (s.updTile t fun x => x.setP pd (x.ticketDone v)).advance t 1)

/-- WAITE (04_tile_core.md R91, R92). -/
def execWaite (t : TileIx) (gd : Guard) (rs1 : GReg) (ek : Fin 16) (s : State) : Res :=
  .next (s.issue t gd fun s =>
    let x := s.tile t
    let v := (x.getG rs1).setWidth 32
    if evAfter x.e[ek.val] v then s.advance t 1
    else s.updTile t fun x => { x with wait := some (.event ek v) })

/-- WAITU (04_tile_core.md R91). -/
def execWaitu (t : TileIx) (gd : Guard) (units : BitVec 3) (s : State) : Res :=
  .next (s.issue t gd fun s =>
    if (s.tile t).unitsIdle units.toNat then s.advance t 1
    else s.updTile t fun x => { x with wait := some (.units units) })

/-- The end of HALT (04_tile_core.md R113): CAUSE 5, normally halted. -/
def Tile.haltNormal (x : Tile) : Tile :=
  { x with halted := true, normalEnd := true, wait := none, cause := 5, faultPc := x.pc, cycle := x.cycle + 1 }

/-! ## CSRs (04_tile_core.md R115; 07_vector_engine.md R190) -/

/-- UNIT_FLAGS as four bits. -/
def Tile.unitFlags (x : Tile) : BitVec 4 :=
  BitVec.ofNat 4 (ofBits 4 fun i => match i with
    | 0 => x.mxSat
    | 1 => x.mxNan
    | 2 => x.vxSat
    | _ => x.vxNan)

/-- PREDS. -/
def Tile.preds (x : Tile) : Nat := ofBits 8 fun i => if h : i < 8 then x.getP ⟨i, h⟩ else false

/-- The value of a CSR; none for a number not assigned. CYCLE is given by `cyc`. -/
def Tile.csr (x : Tile) (t : Nat) (cyc : Word) (num : Nat) : Option Word :=
  if num = 0 then some (BitVec.ofNat 64 (tileId t))
  else if num = 1 then some (BitVec.ofNat 64 (x.rx + x.ry * 64))
  else if num = 2 then some (BitVec.ofNat 64 x.ctx)
  else if num = 3 then some cyc
  else if num = 4 then some (BitVec.ofNat 64 x.preds)
  else if num = 5 then some (x.unitFlags.zeroExtend 64)
  else if num = 6 then some (x.waitLimit.zeroExtend 64)
  else if num = 7 then some (x.recvInfo.zeroExtend 64)
  else if num = 8 then some (x.cubeDone.zeroExtend 64)
  else if num = 9 then some (x.vecDone.zeroExtend 64)
  else if num = 0xA then some (x.movDone.zeroExtend 64)
  else if h : 0x10 ≤ num ∧ num < 0x20 then some ((x.evSrc[num - 0x10]).zeroExtend 64)
  else if h : 0x100 ≤ num ∧ num < 0x140 then
    let r := x.rng[(num - 0x100) / 16]
    match num % 16 with
    | 0 => some (r.key.setWidth 64)
    | 1 => some ((r.key >>> 64).setWidth 64)
    | 2 => some (r.ctr.setWidth 64)
    | 3 => some ((r.ctr >>> 64).setWidth 64)
    | _ => none
  else none

/-- Is an EVSRC value one that R107 accepts (04_tile_core.md)? -/
def Tile.evSrcOk (x : Tile) (v : Nat) : Bool :=
  let src := v % 8; let arg := v / 8 % 64
  match src with
  | 0 => arg = 0
  | 1 => arg = 0
  | 2 => (x.ep arg).kind = .sin
  | 3 => (x.ep arg).kind = .msg || (x.ep arg).kind = .hub
  | 4 => arg ≤ 2
  | _ => false

/-- Write the low or high half of a 128-bit value. -/
def setHalf (old : BitVec 128) (hi : Bool) (v : Word) : BitVec 128 :=
  if hi then BitVec.ofNat 128 (old.toNat % 2 ^ 64 + v.toNat * 2 ^ 64)
  else BitVec.ofNat 128 (old.toNat / 2 ^ 64 * 2 ^ 64 + v.toNat)

/-- A write of a CSR: the tile after it, or the code of the exception (04_tile_core.md R107, R109, R115). Writes to
read-only CSRs and fields are ignored. -/
def Tile.csrWrite (x : Tile) (num : Nat) (v : Word) : Tile ⊕ Nat :=
  if num = 4 then
    .inl { x with p := Vector.ofFn fun i : Fin 8 => if i = 0 then x.p[0] else bit v.toNat i.val }
  else if num = 5 then
    .inl { x with mxSat := x.mxSat && !bit v.toNat 0, mxNan := x.mxNan && !bit v.toNat 1,
                  vxSat := x.vxSat && !bit v.toNat 2, vxNan := x.vxNan && !bit v.toNat 3 }
  else if num = 6 then .inl { x with waitLimit := v.setWidth 32 }
  else if num ≤ 0xA then .inl x
  else if h : 0x10 ≤ num ∧ num < 0x20 then
    if x.evSrcOk v.toNat then .inl { x with evSrc := x.evSrc.set (num - 0x10) (v.setWidth 9) } else .inr 0x0305
  else if h : 0x100 ≤ num ∧ num < 0x140 then
    let r := x.rng[(num - 0x100) / 16]
    match num % 16 with
    | 0 => .inl { x with rng := x.rng.set ((num - 0x100) / 16) { r with key := setHalf r.key false v } }
    | 1 => .inl { x with rng := x.rng.set ((num - 0x100) / 16) { r with key := setHalf r.key true v } }
    | 2 => .inl { x with rng := x.rng.set ((num - 0x100) / 16) { r with ctr := setHalf r.ctr false v } }
    | 3 => .inl { x with rng := x.rng.set ((num - 0x100) / 16) { r with ctr := setHalf r.ctr true v } }
    | _ => .inr 0x0307
  else .inr 0x0307

/-- CSRR (04_tile_core.md R91, R115). CYCLE reads as the cycles counted so far and a free number of further cycles that
waits and stalls have taken (log 10). -/
def execCsrr (t : TileIx) (gd : Guard) (rd : GReg) (num : BitVec 12) (s : State) : Res :=
  .next (s.issue t gd fun s =>
    let x := s.tile t
    if num = 3 then
      let c := x.cycle + BitVec.ofNat 64 (Config.freeNat s.fresh)
      ((s.updTile t fun x => { x.setG rd c with cycle := c }).tick).advance t 1
    else
      match x.csr t x.cycle num.toNat with
      | some v => (s.updTile t fun x => x.setG rd v).advance t 1
      | none => s.tileExc t 0x0307)

/-- CSRW (04_tile_core.md R91, R107, R115; 07_vector_engine.md R186). -/
def execCsrw (t : TileIx) (gd : Guard) (rs1 : GReg) (num : BitVec 12) (s : State) : Res :=
  .next (s.issue t gd fun s =>
    let x := s.tile t
    match x.csrWrite num.toNat (x.getG rs1) with
    | .inl x' => (s.setTile t x').advance t 1
    | .inr code => s.tileExc t code)

end Sys2Proof.Machine
end

