-- ==== Sys2Proof/Machine/StepEnd.lean ====
section
/-!
DEFINITION. The end of a step's compute, and what the update units show (04_tile_core.md R98, R113; 09_parameter_update.md
R216, R226, R230; 15_shared_objects_and_submission.md R364).
-/

namespace Sys2Proof.Machine

/-! ## The pass in the units' registers (09_parameter_update.md R226, R230) -/

/-- The units of a partition's waiting or running pass. -/
def Part.passUnits (x : Part) : List (Nat × Bool) :=
  match x.step with
  | some r => r.units
  | none => []

/-- Show BUSY, PASSES and WAITING of every unit. -/
def State.showGlint (s : State) : State :=
  (List.range 12).foldl (fun s u =>
    let placed := ((List.range 32).filter fun p => (s.part p).passUnits.contains (u, true)).length
    let waits := ((List.range 32).filter fun p => (s.part p).passUnits.contains (u, false)).length
    ((s.setF Reg.GLINT_STAT_BUSY u 0 (if placed = 0 then 0 else 1)).setF Reg.GLINT_STAT_PASSES u 0 placed).setF
      Reg.GLINT_STAT_WAITING u 0 waits) s

/-! ## End of the compute (04_tile_core.md R98; 09_parameter_update.md R216) -/

/-- The coded tiles of a partition, in linear index order. -/
def State.codedTiles (s : State) (p : Nat) : List Nat := (s.partTiles p).filter fun t => (s.tile t).coded

/-- Has every coded tile finished step `n`? A STEP_DONE counts once every collective of its tile has replied
(10_links_and_collectives.md R255). A tile that halts normally behind a STEP_DONE on its way finishes by that STEP_DONE, which
carries its flags (log 60). -/
def State.tilesDone (s : State) (p n : Nat) : Bool :=
  (s.codedTiles p).all fun t =>
    ((s.tile t).normalEnd && !(s.fab.net.any fun m => m.kind = .request 0 && m.srcTile = t)) || ((s.tile t).tileStep = some n && s.link.colls.all fun c => c.tile ≠ t)

/-- The step of a partition is over when its tiles are done: its pass waits for its units, or the step ends at once
without one (R364; 09_parameter_update.md R216). -/
def State.finishStep (s : State) (p : Nat) : State :=
  match (s.part p).step with
  | none => s
  | some r =>
    if r.phase ≠ .compute || !s.tilesDone p r.n then s
    else
      let units := s.passUnits p r.uses
      let n := s.hub.clock + 1
      let s := { s with hub := { s.hub with clock := n } }
      if units.isEmpty then
        (s.updPart p fun x => { x with step := some { r with phase := .ended } }).endCmd r.queue 0
      else
        (s.updPart p fun x => { x with step := some { r with
          phase := .pass, units := units.map fun u => (u, false), order := n } }).showGlint

/-- A tile halts normally, which may finish a step (04_tile_core.md R98, R113). -/
def State.haltDone (s : State) (t : Nat) : State :=
  let s := s.updTile t Tile.haltNormal
  match s.partOf t with
  | some p => s.finishStep p
  | none => s

end Sys2Proof.Machine
end

