-- ==== Sys2Proof/Machine/Capture.lean ====
section
/-!
DEFINITION. What a capture holds and how its record is made (17_reflection_and_recovery.md R407 to R417).
-/

namespace Sys2Proof.Machine

/-! ## Sets (08_training_dataflow.md R202) -/

/-- The redirects of a generation's set. -/
def Part.setOf (x : Part) (g : Nat) : List (Nat × Nat) := if g % 2 = 0 then x.set0 else x.set1

/-- The region that serves a region under a set. -/
def JobImage.served (j : JobImage) (uses : List (Nat × Nat)) (r : Nat) : Option Region :=
  j.region (match uses.find? fun u => u.1 = r with
    | some u => u.2
    | none => r)

/-! ## Sectors (R408) -/

/-- The sectors of an interval, as (key ID, LBN). -/
def spanSectors (x : Nat × Nat) : List (Nat × Nat) :=
  (List.range (x.2 - x.1)).map fun i => ((x.1 + i) / 2 ^ 40, (x.1 + i) % 2 ^ 40)

/-- The sectors of a group, each once, by key ID and LBN. -/
def groupSectors (l : List (Nat × Nat)) : List (Nat × Nat) :=
  ((l.flatMap spanSectors).dedup).mergeSort fun a b => a.1 * 2 ^ 40 + a.2 ≤ b.1 * 2 ^ 40 + b.2

/-- The sectors of a capture in order under a set, and how many of them are parameter sectors. -/
def JobImage.captureSectors (j : JobImage) (uses : List (Nat × Nat)) : List (Nat × Nat) × Nat :=
  let at' (t : Tensor) : Option (Nat × Nat) := (j.served uses t.region).map fun r => r.sectors t.offset t.bytes
  let first := (j.tensors.filter (·.param)).flatMap fun t =>
    if j.refl.compact then ((j.tensor (t.tensor + 3)).bind at').toList
    else (at' t).toList ++ ((j.tensor (t.tensor + 1)).bind at').toList
  let whole (n : Nat) := groupSectors ((j.region n).map fun r => r.sectors 0 r.size).toList
  let g1 := groupSectors first
  let g2 := (whole 0xFFF).filter fun x => !g1.contains x
  let g3 := (whole 0xFFE).filter fun x => !g1.contains x && !g2.contains x
  (g1 ++ g2 ++ g3, g1.length)

/-- The sector number (place / 4096) of a captured sector of a partition. -/
def capSector (p : Nat) (x : Nat × Nat) : Nat := (p + 1) * 2 ^ 52 + x.1 * 2 ^ 40 + x.2

/-! ## Stored form (R414) -/

/-- The stored ciphertext and tag of a line. A line never written stores zeros; of a poisoned line the data is its code
(16_reliability_and_integrity.md R390). -/
def State.storedLine (s : State) (ln : Nat) : Bytes × Bytes :=
  let l := s.line ln
  (if l.poison ≠ 0 then leBytes 64 (l.poison % 2 ^ 16)
    else if s.major (ln / 64) = 0 && l.minor = 0 then zeros 64 else lineCipher l.key ln (s.lineData ln), s.storedTag ln)

/-- The stored form of a sector: 4,096 B of ciphertext, 512 B of tags and the leaf. -/
def State.storedSector (s : State) (sec : Nat) : Bytes :=
  let ls := (List.range 64).map fun i => s.storedLine (64 * sec + i)
  ls.flatMap (·.1) ++ ls.flatMap (·.2) ++ s.storedLeaf sec

/-- The plaintext of a sector, its tags checked, as the partition's master; or the code of the first line that fails. -/
def State.plainSector (s : State) (p sec keyId : Nat) : State × Except Nat Bytes :=
  let key := (s.keyEntry keyId).material
  (List.range 64).foldl (fun (acc : State × Except Nat Bytes) i =>
    match acc with
    | (s, .error e) => (s, .error e)
    | (s, .ok b) =>
      match s.readLine p (s.placeCtrl (sec * 4096)) (keyId * 2 ^ 52 + sec % 2 ^ 40 * 4096 + 64 * i) (64 * sec + i) key with
      | (s, .error e) => (s, .error e)
      | (s, .ok d) => (s, .ok (b ++ d))) (s, .ok [])

/-! ## The record (R415) -/

/-- The shards of a capture's plaintext sectors: 1,024 sectors each, and the last parameter sector closes one. -/
def shardsOf (params : Nat) (l : List Bytes) : List Bytes :=
  ((chunks 1024 (l.take params)) ++ chunks 1024 (l.drop params)).map fun x => x.flatMap id

/-- The runs of consecutive sectors: key ID, first LBN and COUNT. -/
def runsOf (l : List (Nat × Nat)) : List (Nat × Nat × Nat) :=
  (l.foldl (fun (acc : List (Nat × Nat × Nat)) x =>
    match acc with
    | (k, f, n) :: r => if k = x.1 && f + n = x.2 && n < 2 ^ 32 - 1 then (k, f, n + 1) :: r else (x.1, x.2, 1) :: acc
    | [] => [(x.1, x.2, 1)]) []).reverse

/-- RX, RY and the four RNG streams of a tile, 136 B. -/
def Tile.rngRecord (x : Tile) : Bytes :=
  leBytes 1 x.rx ++ leBytes 1 x.ry ++ zeros 6 ++
    (x.rng.toList.flatMap fun r => leBytes 16 r.key.toNat ++ leBytes 16 r.ctr.toNat)

/-- Bytes of a record, the MAC included. -/
def recordBytes (runs tiles shards : Nat) : Nat := 192 + 16 * runs + 136 * tiles + 64 * shards + 16

/-- The material of the tag key that a record's MAC uses: that of the state region's key ID. -/
def State.recordKey (s : State) (p : Nat) : Nat :=
  match (s.part p).image.region 0xFFE with
  | some r => (s.keyEntry r.keyId).material
  | none => 0

/-- The capture record. -/
def State.makeRecord (s : State) (p : Nat) (c : Capture) (digests : List Bytes) (paramShards : Nat) : Bytes :=
  let x := s.part p
  let runs := runsOf c.sectors
  let b := leBytes 4 0x43523445 ++ leBytes 2 1 ++ leBytes 1 (if x.image.refl.compact then 1 else 0) ++ zeros 1 ++
    leBytes 8 c.step ++ leBytes 8 c.gen ++ leBytes 8 x.lineage ++ leBytes 4 runs.length ++ leBytes 4 digests.length ++
    leBytes 4 paramShards ++ leBytes 4 c.tiles ++ leBytes 8 (recordBytes runs.length c.tiles digests.length) ++ zeros 8 ++
    fit 64 x.image.digest ++ c.root ++
    (runs.flatMap fun r => leBytes 2 r.1 ++ zeros 2 ++ leBytes 4 r.2.2 ++ leBytes 8 r.2.1) ++ c.rng ++
    digests.flatMap id
  b ++ Config.cmac256 (s.recordKey p / 2 ^ 512) b

/-- MIRROR_ID of a partition's context (R419). -/
def State.mirrorId (s : State) (p : Nat) : Bytes :=
  let x := s.part p
  (Config.sha512 (((s.ownerKey x.owner).getD []) ++ fit 64 x.image.digest ++ leBytes 8 x.lineage)).take 16

/-! ## Holders on the origin's side (R417, R418, R423) -/

/-- Show the state and the peer of a mirror in REFL_HOLDER. -/
def State.setHolder (s : State) (p i st peer : Nat) : State :=
  if i = 0 then (s.setF Reg.REFL_HOLDER_STATE0 p 0 st).setF Reg.REFL_HOLDER_PEER0 p 0 peer
  else (s.setF Reg.REFL_HOLDER_STATE1 p 0 st).setF Reg.REFL_HOLDER_PEER1 p 0 peer

/-- STATE of a mirror. -/
def State.holderState (s : State) (p i : Nat) : Nat :=
  if i = 0 then s.getF Reg.REFL_HOLDER_STATE0 p 0 else s.getF Reg.REFL_HOLDER_STATE1 p 0

/-- PEER of a mirror. -/
def State.holderPeer (s : State) (p i : Nat) : Nat :=
  if i = 0 then s.getF Reg.REFL_HOLDER_PEER0 p 0 else s.getF Reg.REFL_HOLDER_PEER1 p 0

/-- Has a mirror a holder, or asks a peer for one? -/
def State.holderTaken (s : State) (p i : Nat) : Bool := 1 ≤ s.holderState p i && s.holderState p i ≤ 3

/-- Send a MIRROR_COMMIT to a peer (R419). -/
def State.sendReflection (s : State) (peer op handle code arg1 : Nat) (last : Bool) (b : Bytes) : State :=
  s.sendMsg peer 0x11 handle (op + (if last then 2 ^ 8 else 0) + code * 2 ^ 32) arg1 b

/-- Change the stage of a mirror in a partition's capture. -/
def State.setHold (s : State) (p i : Nat) (h : HoldStage) : State :=
  s.updPart p fun x => { x with capture := x.capture.map fun c => { c with holders := setAt c.holders i h } }

/-- The size S of a mirror (R414). -/
def captureSize (c : Capture) : Nat :=
  c.sectors.length * 4672 + recordBytes (runsOf c.sectors).length c.tiles
    (ceilDiv c.params 1024 + ceilDiv (c.sectors.length - c.params) 1024)

/-- Ask the next OPEN peer for a mirror, ascending, or give the mirror up for this capture (R417). -/
def State.seekHolder (s : State) (p i : Nat) (tried : List Nat) : State :=
  match (s.part p).capture with
  | none => s
  | some c =>
    let other := 1 - i
    match (List.range 256).find? fun n => s.peerState n = 2 && !tried.contains n &&
        !(s.holderTaken p other && s.holderPeer p other = n) with
    | none => (s.setHold p i .lost).setHolder p i 0 0
    | some n =>
      ((s.setHold p i (.seeking (tried ++ [n]))).setHolder p i 1 n).sendReflection n 1 0 0 (captureSize c) false (s.mirrorId p)

/-- The capture of a step boundary begins (R410, R411 step 1). -/
def State.startCapture (s : State) (p n : Nat) : State :=
  let x := s.part p
  let uses := x.setOf x.gen
  let (secs, params) := x.image.captureSectors uses
  let c : Capture := {
    step := n, gen := x.gen, uses := uses, phase := 0, rng := [], tiles := (s.codedTiles p).length, sectors := secs,
    params := params, stored := [], plain := [], root := [], record := [],
    holders := List.replicate x.image.refl.mirrors .lost, agree := 0, answered := [], done := false, code := 0 }
  let s := s.updPart p fun x => { x with capture := some c, recapture := false }
  (List.range x.image.refl.mirrors).foldl (fun s i =>
    if x.handles.getD i 0 ≠ 0 then (s.setHold p i .sending).setHolder p i 2 (s.holderPeer p i)
    else s.seekHolder p i []) s

/-- What a step that ended without error does for Reflection (R410, R421). -/
def State.boundary (s : State) (p n : Nat) : State :=
  let x := s.part p
  if x.image.refl.mirrors = 0 || !(x.recapture || n % x.image.refl.every = 0) then s
  else if x.capture.isSome then s.addF Reg.REFL_COUNT_SKIPPED p 0 1
  else s.startCapture p n

/-- A capture has ended: CODE holds its first code. -/
def State.endCapture (s : State) (p : Nat) : State :=
  match (s.part p).capture with
  | none => s
  | some c => (s.updPart p fun x => { x with capture := none }).setF Reg.REFL_STAT_CODE p 0 c.code

/-- Note a code that a capture met: the first one stays (R412). -/
def State.captureCode (s : State) (p code : Nat) : State :=
  s.updPart p fun x => { x with capture := x.capture.map fun c => { c with code := if c.code = 0 then code else c.code } }

/-- A capture ends without committing (R412, R413). Its holders keep what they had committed. -/
def State.abandonCapture (s : State) (p : Nat) : State :=
  let s := match (s.part p).capture with
    | none => s
    | some c => (List.range c.holders.length).foldl (fun s i =>
        match c.holders.getD i .lost with
        | .lost => s
        | .seeking _ => s.setHolder p i 0 0
        | _ => s.setHolder p i 3 (s.holderPeer p i)) s
  s.endCapture p

/-- A capture ends with a code that goes to PEND_ERR (R412). -/
def State.failCapture (s : State) (p code : Nat) : State := ((s.captureCode p code).abandonCapture p).pend p code

/-- The capture ends when every mirror is committed or lost (R411, R412). -/
def State.checkCapture (s : State) (p : Nat) : State :=
  match (s.part p).capture with
  | none => s
  | some c => if c.holders.all fun h => h = .lost || h = .committed then s.endCapture p else s

/-- A mirror of a partition loses its holder: a capture under way notes the code (R412, R418). -/
def State.loseHolder (s : State) (p i code : Nat) : State :=
  let s := (s.updPart p fun x => { x with handles := setAt x.handles i 0 }).setHolder p i 4 (s.holderPeer p i)
  match (s.part p).capture with
  | none => s
  | some c =>
    if c.holders.getD i .lost = .lost || c.holders.getD i .lost = .committed then s
    else ((s.captureCode p code).setHold p i .lost).checkCapture p

/-! ## Stage and send (R411, R412) -/

/-- What stands for the plaintext of a sector that failed its check; such a capture does not commit. -/
def blankSector : Bytes := zeros 4096

/-- The plaintext of a sector joins those before it, and its code the first code met. -/
def stageJoin (l : List Bytes) (code : Nat) (r : State × Except Nat Bytes) : State × List Bytes × Nat :=
  match r with
  | (s, .ok b) => (s, l ++ [b], code)
  | (s, .error e) => (s, l ++ [blankSector], if code = 0 then e else code)

/-- Read a staged sector and check its tags. -/
def State.stageSector (p : Nat) (acc : State × List Bytes × Nat) (x : Nat × Nat) : State × List Bytes × Nat :=
  stageJoin acc.2.1 acc.2.2 (acc.1.plainSector p (capSector p x) x.1)

/-- CAPTURE_STAGE_COMPLETE (R411 step 1): the RNG states, and the weight-set page and the state region in their stored
form, stand in hub-private memory; the next step may start. Their plaintext is checked when they are hashed. -/
def execCaptureStageComplete (p : PartIx) (s : State) : Res :=
  let k : Nat := p.val
  .next (match (s.part k).capture with
    | none => s
    | some c =>
      if c.phase ≠ 0 then s
      else
        let staged := c.sectors.drop c.params
        let stored := staged.map fun x => s.storedSector (capSector k x)
        let rng := (s.codedTiles k).flatMap fun t => (s.tile t).rngRecord
        let (s, plain, code) := staged.foldl (State.stageSector k) (s, [], 0)
        let s := s.updPart k fun x => { x with capture := some { c with
          phase := 1, rng := rng, stored := stored, plain := plain } }
        if code = 0 then s else s.failCapture k code)

/-- The part of a record or of data that goes in one message: at most 4 MiB (10_links_and_collectives.md R244). -/
def parts4M (b : Bytes) : List (Nat × Bytes) :=
  (List.range (max 1 (ceilDiv b.length 4194304))).map fun i => (4194304 * i, slice b (4194304 * i) 4194304)

/-- Send the data of a mirror to its holder (R411 step 2). -/
def State.sendMirror (s : State) (p i : Nat) (data : Bytes) : State :=
  let h := (s.part p).handles.getD i 0
  (parts4M data).foldl (fun s x => s.sendMsg (s.holderPeer p i) 0x10 h x.1 0 x.2) s

/-- Begin the commit phase: PREPARE to every holder (R411 step 5). -/
def State.prepare (s : State) (p : Nat) : State :=
  match (s.part p).capture with
  | none => s
  | some c =>
    let s := s.updPart p fun x => { x with capture := x.capture.map fun c => { c with phase := 3 } }
    let parts := parts4M c.record
    ((List.range c.holders.length).foldl (fun s i =>
      if c.holders.getD i .lost = .sending then
        (parts.foldl (fun s x => s.sendReflection (s.holderPeer p i) 4 ((s.part p).handles.getD i 0) 0 x.1
          (x.1 + x.2.length = c.record.length) x.2) s).setHold p i .preparing
      else s) s).checkCapture p

/-- Collective group 0 of a context, with its ready members. -/
def State.groupZero (s : State) (p : Nat) : Option Group :=
  s.link.groups.find? fun g => g.ctx = (s.part p).ctx && g.num = 0 && g.ready && !g.broken

/-- The comparison of a capture is over: it commits when more than half the members agree (R421). -/
def State.judgeRoots (s : State) (p members agree : Nat) : State :=
  let s := s.setF Reg.REFL_COUNT_AGREE p 0 agree
  if members < 2 * agree then s.prepare p else s.failCapture p 0x0205

/-- CAPTURE_SEND_COMPLETE (R411 steps 2 to 4, R412, R421): every parameter sector has been read, checked, hashed and sent.
While a mirror still asks for a holder the send is not over (log 12). -/
def execCaptureSendComplete (p : PartIx) (s : State) : Res :=
  let k : Nat := p.val
  .next (match (s.part k).capture with
    | none => s
    | some c =>
      if c.phase ≠ 1 || (c.holders.any fun h => match h with
        | .seeking _ => true
        | _ => false) then s
      else if c.holders.all fun h => h = .lost then s.endCapture k
      else
        let pl := c.sectors.take c.params
        let (s, plain, code) := pl.foldl (fun (acc : State × List Bytes × Nat) x =>
          if acc.2.2 ≠ 0 then acc
          else match acc.1.plainSector k (capSector k x) x.1 with
            | (s, .ok b) => (s, acc.2.1 ++ [b], 0)
            | (s, .error e) => (s, acc.2.1, e)) (s, [], 0)
        if code ≠ 0 then s.failCapture k code
        else
          let data := (pl.flatMap fun x => s.storedSector (capSector k x)) ++ c.stored.flatMap id
          let s := (List.range c.holders.length).foldl (fun s i =>
            if c.holders.getD i .lost = .sending then s.sendMirror k i data else s) s
          let digests := (shardsOf c.params (plain ++ c.plain)).map Config.sha512
          let np := ceilDiv c.params 1024
          let c := { c with root := Config.sha512 ((digests.take np).flatMap id) }
          let c := { c with record := s.makeRecord k c digests np, phase := 2 }
          let s := s.updPart k fun x => { x with capture := some c }
          if !(s.part k).image.refl.verifyReplica then s.prepare k
          else match s.groupZero k with
            | none => (s.setF Reg.REFL_COUNT_AGREE k 0 0).prepare k
            | some g =>
              let s := s.updPart k fun x => { x with capture := some { c with
                agree := 1, answered := [(firstIdx (fun m => m = none) g.members).getD 0] } }
              if g.members.length ≤ 1 then s.judgeRoots k g.members.length 1 else s)

/-- PARAM_ROOT (R421): a member's root arrives. The exchange has no message format in the spec, so the command carries the
member's rank and root (log 29). -/
def execParamRoot (p : PartIx) (rank : Fin 256) (root : List Byte) (s : State) : Res :=
  let k : Nat := p.val
  .next (match (s.part k).capture, s.groupZero k with
    | some c, some g =>
      if c.phase ≠ 2 || c.answered.contains rank.val || g.members.length ≤ rank.val then s
      else
        let c := { c with agree := c.agree + (if root = c.root then 1 else 0), answered := c.answered ++ [rank.val] }
        let s := s.updPart k fun x => { x with capture := some c }
        if c.answered.length = g.members.length then s.judgeRoots k g.members.length c.agree else s
    | _, _ => s)

/-- REPLICA_COMPARISON_TIMEOUT (R421): a member has not answered within COLL_TIMEOUT, so the comparison is skipped. -/
def execReplicaComparisonTimeout (p : PartIx) (s : State) : Res :=
  let k : Nat := p.val
  .next (match (s.part k).capture with
    | some c => if c.phase = 2 then (s.setF Reg.REFL_COUNT_AGREE k 0 0).prepare k else s
    | none => s)

end Sys2Proof.Machine
end

