-- ==== Sys2Proof/Machine/Reflect.lean ====
section
/-!
DEFINITION. Mirrors at their holders, the messages of Reflection, and restore (17_reflection_and_recovery.md R414 to R421).
-/

namespace Sys2Proof.Machine

/-! ## Messages (R419) -/

/-- Discard the MIRROR_COMMITs at the front of a port whose OP is not listed: `n` bounds how many. -/
def State.skimRefl (s : State) (port : Nat) : Nat → State
  | 0 => s
  | n + 1 =>
    match s.takeMsg port 0x11 with
    | some (m, s') => if 1 ≤ m.arg0 % 256 && m.arg0 % 256 ≤ 13 then s else s'.skimRefl port n
    | none => s

/-- A MIRROR_COMMIT event with an OP on a port. Without such a message nothing happens (log 12). -/
def State.onRefl (s : State) (port op : Nat) (f : Nat → LinkMsg → State → State) : State :=
  let s := s.skimRefl port 4096
  match s.portPeer port, s.takeMsg port 0x11 with
  | some n, some (m, s') => if m.arg0 % 256 = op then f n m s' else s
  | _, _ => s

/-! ## Holding mirrors (R416, R418) -/

/-- Change the mirror of a HANDLE. -/
def State.updMirror (s : State) (h : Nat) (f : Mirror → Mirror) : State :=
  { s with link := { s.link with mirrors := s.link.mirrors.map fun m => if m.handle = h then f m else m } }

/-- The mirror of a HANDLE that is held for a peer. -/
def State.mirrorOf (s : State) (n h : Nat) : Option Mirror := s.link.mirrors.find? fun m => m.handle = h && m.peer = n

/-- The host region of a partition that may hold mirrors: region 0xFFD of a bound context whose owner has INGRESS 1. -/
def State.hostRegion (s : State) (p : Nat) : Option Region :=
  if (s.part p).loaded && (s.owner (s.part p).owner).ingress then (s.part p).image.region 0xFFD else none

/-- Offsets at which a slot of `n` bytes fits in a host region beside those in use. -/
def slotPlaces (size n : Nat) (used : List (Nat × Nat)) : List Nat :=
  ((List.range (size / 2097152)).map (· * 2097152)).filter fun o => o + n ≤ size && used.all fun u => disjoint o n u.1 u.2

/-- The slots in use in a partition's host region. -/
def State.usedSlots (s : State) (p : Nat) : List (Nat × Nat) :=
  (s.link.mirrors.filter fun m => m.part = p).flatMap fun m =>
    [(m.slot0, roundUp m.size 2097152), (m.slot1, roundUp m.size 2097152)]

/-- Set two slots aside for a mirror, in the lowest partition whose host region has room; where they lie there is the
holder's choice, so free (R416; log 1). -/
def State.reserveSlots (s : State) (size : Nat) : State × Option (Nat × Nat × Nat) :=
  let n := roundUp size 2097152
  (List.range 32).foldl (fun (acc : State × Option (Nat × Nat × Nat)) p =>
    match acc.2, acc.1.hostRegion p with
    | none, some r =>
      let s := acc.1
      let used := s.usedSlots p
      let l0 := slotPlaces r.size n used
      let o0 := l0.getD (s.free l0.length) 0
      let l1 := slotPlaces r.size n ((o0, n) :: used)
      let o1 := l1.getD (s.tick.free l1.length) 0
      if l0.isEmpty || l1.isEmpty then acc else (s.tick.tick, some (p, o0, o1))
    | _, _ => acc) (s, none)

/-- The slot that the reflection in progress uses: the one that is not committed. -/
def Mirror.progress (m : Mirror) : Nat := if m.committed = some 0 then 1 else 0

/-- The offset of a slot. -/
def Mirror.slot (m : Mirror) (i : Nat) : Nat := if i = 0 then m.slot0 else m.slot1

/-- The device logical address of a byte of a mirror's slot. -/
def State.mirrorAddr (s : State) (m : Mirror) (slot off : Nat) : Nat :=
  match (s.part m.part).image.region 0xFFD with
  | some r => r.keyId * 2 ^ 52 + r.base + m.slot slot + off
  | none => 0

/-- REFL_RESERVE (R416, R417, R419): a holder grants space or declines. A MIRROR_ID that it holds gets its HANDLE back; a
size that its slots do not hold is declined. -/
def execReflReserve (port : PortIx) (s : State) : Res :=
  .next (s.onRefl port.val 1 fun n m s =>
    let id := fit 16 m.payload
    match s.link.mirrors.find? fun x => x.id = id with
    | some x =>
      if roundUp m.arg1 2097152 ≤ roundUp x.size 2097152 then
        (s.updMirror x.handle fun y => { y with peer := n, ident := (s.session n).ident, ready := false, code := 0 }).sendReflection
          n 2 x.handle 0 0 false []
      else s.sendReflection n 3 0 0 0 false []
    | none =>
      match s.reserveSlots m.arg1 with
      | (s, none) => s.sendReflection n 3 0 0 0 false []
      | (s, some (p, o0, o1)) =>
        let h := s.link.nextHandle
        let x : Mirror := {
          handle := h, peer := n, ident := (s.session n).ident, id := id, part := p, size := m.arg1, slot0 := o0, slot1 := o1,
          committed := none, rec0 := [], rec1 := [], ready := false, code := 0 }
        { s with link := { s.link with mirrors := s.link.mirrors ++ [x], nextHandle := h + 1 } }.sendReflection n 2 h 0 0
          false [])

/-- MIRROR_WRITE (R419): data of a capture at its holder, written as link ingress, or data of a restore at its origin. -/
def execMirrorWrite (port : PortIx) (s : State) : Res :=
  .next (s.onMsg port.val 0x10 fun n m s =>
    match s.mirrorOf n m.tag with
    | some x =>
      if roundUp x.size 2097152 < m.arg0 + m.payload.length then s
      else
        let s := s.updMirror x.handle fun y => { y with ready := false, code := if m.arg0 = 0 then 0 else y.code }
        match s.writeMem 33 (x.part + 1) [] (s.mirrorAddr x x.progress m.arg0) m.payload with
        | (s, none) => s
        | (s, some e) => s.updMirror x.handle fun y => { y with code := if y.code = 0 then e else y.code }
    | none =>
      match (List.range 32).find? fun p => match (s.part p).restore with
          | some r => r.peer = n && r.stage = 2 && r.handle = m.tag
          | none => false with
      | none => s
      | some p => s.updPart p fun x => { x with restore := x.restore.map fun r => { r with
          data := smapWrite 0 r.data m.arg0 m.payload } })

/-- STEP of a capture record. -/
def recStep (b : Bytes) : Nat := rd b 8 8

/-- REFL_PREPARE (R411, R419): a part of the record at the holder; the last one is answered PREPARED, with the code of a
write that failed (log 30). -/
def execReflPrepare (port : PortIx) (s : State) : Res :=
  .next (s.onRefl port.val 4 fun n m s =>
    match s.mirrorOf n m.tag with
    | none => s
    | some x =>
      let put (b : Bytes) : Bytes := fit m.arg1 b ++ m.payload
      let x' : Mirror := if x.progress = 0 then { x with rec0 := put x.rec0 } else { x with rec1 := put x.rec1 }
      let last := bit m.arg0 8
      let s := s.updMirror x.handle fun _ => { x' with ready := last && x.code = 0 }
      if last then s.sendReflection n 5 x.handle x.code (recStep (if x.progress = 0 then x'.rec0 else x'.rec1)) false [] else s)

/-- REFL_COMMIT (R419): the new slot's header marks it committed and frees the old one; then COMMITTED. -/
def execReflCommit (port : PortIx) (s : State) : Res :=
  .next (s.onRefl port.val 6 fun n m s =>
    match s.mirrorOf n m.tag with
    | none => s
    | some x =>
      if x.ready && recStep (if x.progress = 0 then x.rec0 else x.rec1) = m.arg1 then
        (s.updMirror x.handle fun y => { y with committed := some x.progress, ready := false }).sendReflection n 7 x.handle 0
          m.arg1 false []
      else s)

/-- The sectors a record's runs name: COUNT of each. -/
def recRuns (b : Bytes) : List (Nat × Nat × Nat) :=
  (List.range (rd b 32 4)).map fun i =>
    let o := 192 + 16 * i
    (rd b o 2 % 2048, rd b (o + 8) 8 % 2 ^ 40, rd b (o + 4) 4)

/-- The bytes that one message carries: 4 MiB. -/
def mib4 : Nat := 4194304

/-- A part of a mirror slot goes to its origin in MIRROR_WRITE data (R419); a read that fails gives its code. -/
def State.sendPart (s : State) (n : Nat) (x : Mirror) (i off len : Nat) : State × Nat :=
  match s.readMem 33 (x.part + 1) [] (s.mirrorAddr x i off) len with
  | (s, .ok b) => (s.sendMsg n 0x10 x.handle off 0 b, 0)
  | (s, .error e) => (s, e)

/-- The parts of a mirror slot go in order, as far as the first that fails. -/
def State.sendParts (s : State) (n : Nat) (x : Mirror) (i size : Nat) (l : List Nat) : State × Nat :=
  l.foldl (fun (acc : State × Nat) k =>
    if acc.2 ≠ 0 then acc else acc.1.sendPart n x i (mib4 * k) (min mib4 (size - mib4 * k))) (s, 0)

/-- A holder answers FETCH with the committed reflection of a mirror (R419): RECORD, the data, DONE. -/
def State.serveFetch (s : State) (n : Nat) (x : Mirror) : State :=
  let i := x.committed.getD 0
  let rec' := if i = 0 then x.rec0 else x.rec1
  let s := (s.updMirror x.handle fun y => { y with peer := n, ident := (s.session n).ident })
  let s := (parts4M rec').foldl (fun s q =>
    s.sendReflection n 9 x.handle 0 q.1 (q.1 + q.2.length = rec'.length) q.2) s
  let size := 4672 * ((recRuns rec').map fun r => r.2.2).sum
  let r := s.sendParts n x i size (List.range (ceilDiv size mib4))
  r.1.sendReflection n 11 x.handle r.2 (recStep rec') false []

/-- REFL_FETCH (R419, R420): the committed record, then the data, then DONE, with the code of a read that failed (log 30);
NONE without a committed reflection. -/
def execReflFetch (port : PortIx) (s : State) : Res :=
  .next (s.onRefl port.val 8 fun n m s =>
    let id := fit 16 m.payload
    match s.link.mirrors.find? fun x => x.id = id && x.committed.isSome with
    | none => s.sendReflection n 10 0 0 0 false []
    | some x => s.serveFetch n x)

/-- REFL_RELEASE (R418, R419): the holder gives the mirror up. -/
def execReflRelease (port : PortIx) (s : State) : Res :=
  .next (s.onRefl port.val 12 fun n m s =>
    match s.mirrorOf n m.tag with
    | none => s
    | some x => { s with link := { s.link with mirrors := s.link.mirrors.filter fun y => y.handle ≠ x.handle } })

/-- The mirrors in a partition's host region go, and LOST to each origin that is OPEN (R418). -/
def State.dropHost (s : State) (p : Nat) : State :=
  let l := s.link.mirrors.filter fun m => m.part = p
  let s := { s with link := { s.link with mirrors := s.link.mirrors.filter fun m => m.part ≠ p } }
  l.foldl (fun s m => if s.peerState m.peer = 2 && (s.session m.peer).ident = m.ident then
    s.sendReflection m.peer 13 m.handle 0 0 false [] else s) s

/-! ## The origin's side (R411, R417, R418) -/

/-- The mirrors of captures: partition and number. -/
def mirrorSlots : List (Nat × Nat) := (List.range 32).flatMap fun p => [(p, 0), (p, 1)]

/-- The stage of a mirror in its partition's capture. -/
def State.holdOf (s : State) (x : Nat × Nat) : HoldStage :=
  match (s.part x.1).capture with
  | some c => c.holders.getD x.2 .lost
  | none => .lost

/-- Does a mirror wait for the answer of a peer to its RESERVE? -/
def HoldStage.asks (h : HoldStage) (n : Nat) : Bool :=
  match h with
  | .seeking tried => tried.getLast? = some n
  | _ => false

/-- The peers that a mirror has tried. -/
def HoldStage.tried : HoldStage → List Nat
  | .seeking l => l
  | _ => []

/-- The mirror that asks a peer: GRANT and DECLINE name none, so the lowest (log 31). -/
def State.asker (s : State) (n : Nat) : Option (Nat × Nat) := mirrorSlots.find? fun x => (s.holdOf x).asks n

/-- The mirror that a peer holds under a HANDLE. -/
def State.heldAs (s : State) (n h : Nat) : Option (Nat × Nat) :=
  mirrorSlots.find? fun x => h ≠ 0 && (s.part x.1).handles.getD x.2 0 = h && s.holderPeer x.1 x.2 = n

/-- REFL_GRANT (R417, R419). -/
def execReflGrant (port : PortIx) (s : State) : Res :=
  .next (s.onRefl port.val 2 fun n m s =>
    match s.asker n with
    | none => s
    | some x =>
      (((s.updPart x.1 fun y => { y with handles := setAt y.handles x.2 m.tag }).setHold x.1 x.2 .sending).setHolder x.1 x.2 2
        n))

/-- REFL_DECLINE (R417, R419): the next peer is asked. -/
def execReflDecline (port : PortIx) (s : State) : Res :=
  .next (s.onRefl port.val 3 fun n _ s =>
    match s.asker n with
    | none => s
    | some x => s.seekHolder x.1 x.2 (s.holdOf x).tried)

/-- RESERVE_TIMEOUT (R417): no answer within 2 s, so the next peer is asked. -/
def execReserveTimeout (p : PartIx) (mirror : Fin 2) (s : State) : Res :=
  .next (match s.holdOf (p.val, mirror.val) with
    | .seeking tried => s.seekHolder p.val mirror.val tried
    | _ => s)

/-- REFL_PREPARED (R411): COMMIT to that holder. A holder that could not write loses its copy (log 30). -/
def execReflPrepared (port : PortIx) (s : State) : Res :=
  .next (s.onRefl port.val 5 fun n m s =>
    match s.heldAs n m.tag with
    | none => s
    | some x =>
      match (s.part x.1).capture with
      | none => s
      | some c =>
        if s.holdOf x ≠ .preparing || c.step ≠ m.arg1 then s
        else if bitsOf m.arg0 47 32 ≠ 0 then s.loseHolder x.1 x.2 (bitsOf m.arg0 47 32)
        else (s.sendReflection n 6 m.tag 0 c.step false []).setHold x.1 x.2 .committing)

/-- REFL_COMMITTED (R411, R423): the reflection is committed at that holder; REFL_STEP takes n. -/
def execReflCommitted (port : PortIx) (s : State) : Res :=
  .next (s.onRefl port.val 7 fun n m s =>
    match s.heldAs n m.tag with
    | none => s
    | some x =>
      match (s.part x.1).capture with
      | none => s
      | some c =>
        if s.holdOf x ≠ .committing || c.step ≠ m.arg1 then s
        else
          let s := ((s.setF Reg.REFL_STEP_STEP x.1 0 c.step).setHold x.1 x.2 .committed).setHolder x.1 x.2 3 n
          let s := if c.done then s else s.addF Reg.REFL_COUNT_COMMITS x.1 0 1
          (s.updPart x.1 fun y => { y with capture := y.capture.map fun c => { c with done := true } }).checkCapture x.1)

/-- REFL_LOST (R418, R419). -/
def execReflLost (port : PortIx) (s : State) : Res :=
  .next (s.onRefl port.val 13 fun n m s =>
    match s.heldAs n m.tag with
    | none => s
    | some x => s.loseHolder x.1 x.2 0)

/-- REFL_CTRL_RELEASE (R418, R423): RELEASE to every holder. -/
def execReflCtrlRelease (p : PartIx) (s : State) : Res :=
  let k : Nat := p.val
  .next (s.cxlIo fun s =>
    if s.getF Reg.REFL_STAT_BUSY k 0 = 1 then s.setF Reg.REFL_STAT_OVERRUN k 0 1
    else [0, 1].foldl (fun s i =>
      let h := (s.part k).handles.getD i 0
      if h = 0 then s
      else
        let s := if s.peerState (s.holderPeer k i) = 2 then s.sendReflection (s.holderPeer k i) 12 h 0 0 false [] else s
        (s.loseHolder k i 0).setHolder k i 0 0) s)

/-! ## Restore (R420) -/

/-- A restore has ended with a code, which a nonzero one also leaves in PEND_ERR. -/
def State.endRestore (s : State) (p code : Nat) : State :=
  let s := ((((s.updPart p fun x => { x with restore := none }).setF Reg.REFL_STAT_BUSY p 0 0).setF Reg.REFL_STAT_DONE p 0 1).setF
    Reg.REFL_STAT_CODE p 0 code)
  if code = 0 then s else s.pend p code

/-- A restore is refused. -/
def State.refuseRestore (s : State) (k code : Nat) : State :=
  (s.setF Reg.REFL_STAT_DONE k 0 1).setF Reg.REFL_STAT_CODE k 0 code

/-- REFL_RESTORE (R420): refused while a command of the context is queued or running, and for an image with MIRRORS 0;
else FETCH to PEER. -/
def execReflRestore (p : PartIx) (s : State) : Res :=
  let k : Nat := p.val
  let x := s.part k
  .next (s.cxlIo fun s =>
    if s.getF Reg.REFL_STAT_BUSY k 0 = 1 then s.setF Reg.REFL_STAT_OVERRUN k 0 1
    else if x.loaded && s.ctxBusy x.ctx then s.refuseRestore k 0x0921
    else if !x.loaded || x.image.refl.mirrors = 0 then s.refuseRestore k 0x0931
    else
      let n := s.getF Reg.REFL_CTRL_PEER k 0
      let s := (s.setF Reg.REFL_STAT_BUSY k 0 1).updPart k fun x => { x with
        restore := some { peer := n, handle := 0, stage := 0, record := [], data := [] } }
      if s.peerState n ≠ 2 then s.endRestore k 0x0207 else s.sendReflection n 8 0 0 0 false (s.mirrorId k))

/-- The partition whose restore waits on a peer at a stage. -/
def State.restorer (s : State) (n : Nat) (stages : List Nat) : Option (Nat × Restore) :=
  (List.range 32).findSome? fun p => match (s.part p).restore with
    | some r => if r.peer = n && stages.contains r.stage then some (p, r) else none
    | none => none

/-- The checks of a record (R420 step 2). -/
def State.recordGood (s : State) (p : Nat) (b : Bytes) : Bool :=
  let x := s.part p
  let n := b.length - 16
  16 ≤ b.length && b.drop n = Config.cmac256 (s.recordKey p / 2 ^ 512) (b.take n) && rd b 0 4 = 0x43523445 &&
    rd b 6 1 = (if x.image.refl.compact then 1 else 0) && slice b 64 64 = fit 64 x.image.digest && rd b 24 8 = x.lineage

/-- REFL_RECORD (R419, R420 steps 1 and 2). -/
def execReflRecord (port : PortIx) (s : State) : Res :=
  .next (s.onRefl port.val 9 fun n m s =>
    match s.restorer n [0, 1] with
    | none => s
    | some (p, r) =>
      let b := fit m.arg1 r.record ++ m.payload
      let last := bit m.arg0 8
      let s := s.updPart p fun x => { x with restore := some { r with
        record := b, stage := if last then 2 else 1, handle := m.tag } }
      if last && !s.recordGood p b then s.endRestore p 0x0205 else s)

/-- REFL_NONE (R419, R420 step 1). -/
def execReflNone (port : PortIx) (s : State) : Res :=
  .next (s.onRefl port.val 10 fun n _ s =>
    match s.restorer n [0] with
    | none => s
    | some (p, _) => s.endRestore p 0x0207)

/-- REFL_DONE (R419, R420): all data is here, or the holder could not read it (log 30). -/
def execReflDone (port : PortIx) (s : State) : Res :=
  .next (s.onRefl port.val 11 fun n m s =>
    match s.restorer n [2] with
    | none => s
    | some (p, r) =>
      if bitsOf m.arg0 47 32 ≠ 0 then s.endRestore p (bitsOf m.arg0 47 32)
      else s.updPart p fun x => { x with restore := some { r with stage := 3 } })

/-- RESTORE_TIMEOUT (R420 step 1): no answer within 2 s. -/
def execRestoreTimeout (p : PartIx) (s : State) : Res :=
  .next (match (s.part p.val).restore with
    | some r => if r.stage = 0 then s.endRestore p.val 0x0207 else s
    | none => s)

/-- The sectors of a record in run order. -/
def recSectors (b : Bytes) : List (Nat × Nat) :=
  (recRuns b).flatMap fun r => (List.range r.2.2).map fun i => (r.1, r.2.1 + i)

/-- Restore one sector (R420 steps 3 and 4): every tag is checked against the captured leaf; the sector takes a major
counter above both and minor counters 0, which clears any poison. The plaintext, or the code. -/
def State.restoreSector (s : State) (p : Nat) (x : Nat × Nat) (b : Bytes) : State × Except Nat Bytes :=
  let sec := capSector p x
  let key := (s.keyEntry x.1).material
  let leaf := rd b 4608 64
  let major := leaf % 2 ^ 64
  let minor (i : Nat) : Nat := bitsOf leaf (64 + 7 * i + 6) (64 + 7 * i)
  if (findRegion (s.part p).image.plan x.1 (x.2 * 4096)).isNone then (s, .error 0x0206)
  else if (List.range 64).any fun i => !(major = 0 && minor i = 0) &&
      lineTag key (64 * sec + i) major (minor i) (slice b (64 * i) 64) ≠ slice b (4096 + 8 * i) 8 then (s, .error 0x0202)
  else
    let old := s.major sec
    let plain (i : Nat) : Bytes :=
      if major = 0 && minor i = 0 then zeros 64 else linePlain key (64 * sec + i) (slice b (64 * i) 64)
    let s := (List.range 64).foldl (fun s i => s.setLine (64 * sec + i)
      { live := true, minor := 0, key := key, poison := 0, bad := false, ce := 0, tag := none } (plain i)) s
    ((s.setMajor sec (max major old + 1)).enterLeaf (s.placeCtrl (4096 * sec)) sec, .ok ((List.range 64).flatMap plain))

/-- The set that a slot of the weight-set page holds (08_training_dataflow.md R202). -/
def State.pageSet (s : State) (p slot : Nat) : List (Nat × Nat) :=
  match (s.part p).image.region 0xFFF with
  | none => []
  | some r =>
    let b := s.lineData
    let base := ((p + 1) * 2 ^ 64 + r.keyId * 2 ^ 52 + r.base + 2048 * slot) / 64
    let d := (List.range 32).flatMap fun i => b (base + i)
    (List.range (min 124 (rd d 8 8 % 128))).map fun i =>
      let w := rd d (64 + 16 * i) 8
      (w % 4096, w / 4096 % 4096)

/-- The conversion pass of a restore (R420 step 7): in full mode every working copy from its masters, in compact mode every
master from its working copy and every moment 0. The first code met. -/
def State.conversion (s : State) (p : Nat) : State × Nat :=
  let x := s.part p
  let j := x.image
  let uses := x.setOf x.gen
  (j.tensors.filter (·.param)).foldl (fun (acc : State × Nat) t =>
    let s := acc.1
    match j.group t.group, j.tensor (t.tensor + 1), j.tensor (t.tensor + 3) with
    | some g, some mt, some c =>
      if acc.2 ≠ 0 || !g.copy then acc
      else if j.refl.compact then
        let via := s.unitVia p uses (j.addrOf t) t
        let all := fun (_ : Nat) => true
        let (s, cl) := s.readLines (via c) all p 0 uses (j.addrOf c) c.lines
        let (s, wl) := s.readLines (via t) all p 0 uses (j.addrOf t) t.lines
        let (s, ml) := s.readLines (via mt) all p 0 uses (j.addrOf mt) mt.lines
        let wx := t.elems.foldl (fun (y : Img) e =>
          y.put (t.elemPos e.1 e.2) 32 (f32Bits (c.elemVal cl.val g.copyRuns e.1 e.2).1)) { val := wl.val, mask := 0 }
        let mx := t.elems.foldl (fun (y : Img) e => y.put (mt.elemPos e.1 e.2) 16 0) { val := ml.val, mask := 0 }
        let (s, b1) := s.writeLines (via t) (fun _ => false) p 0 uses (j.addrOf t) wl wx
        let (s, b2) := s.writeLines (via mt) (fun _ => false) p 0 uses (j.addrOf mt) ml mx
        (s, ((cl.codes ++ b1.map (·.2) ++ b2.map (·.2)).head?).getD 0)
      else
        let (s, wl) := s.readLines (s.unitVia p uses (j.addrOf t) t t) (fun _ => true) p 0 uses (j.addrOf t) t.lines
        let (s, o) := s.copyPass p uses j t c g.copyRuns wl wl.val PassOut.empty
        (s, ((wl.codes ++ o.codes.map (·.2)).head?).getD 0)
    | _, _, _ => acc) (s, 0)

/-- Write the RNG states of a record into the tiles it lists (R420 step 6). -/
def State.restoreRng (s : State) (p : Nat) (b : Bytes) : State :=
  let o := 192 + 16 * rd b 32 4
  (List.range (rd b 44 4)).foldl (fun s i =>
    let a := o + 136 * i
    (((s.codedTiles p).filter fun t => (s.tile t).rx = rd b a 1 && (s.tile t).ry = rd b (a + 1) 1).foldl (fun s t =>
      s.updTile t fun x => { x with rng := Vector.ofFn fun k : Fin 4 =>
        { key := BitVec.ofNat 128 (rd b (a + 8 + 32 * k.val) 16), ctr := BitVec.ofNat 128 (rd b (a + 24 + 32 * k.val) 16) } }) s)) s

/-- RESTORE_COMPLETE (R420 steps 3 to 8). A success clears PEND_ERR (log 32), and the next boundary captures (R421). -/
def execRestoreComplete (p : PartIx) (s : State) : Res :=
  let k : Nat := p.val
  .next (match (s.part k).restore with
    | none => s
    | some r =>
      if r.stage ≠ 3 then s
      else
        let b := r.record
        let secs := recSectors b
        let np := rd b 40 4
        let (s, plain, code) := secs.zipIdx.foldl (fun (acc : State × List Bytes × Nat) x =>
          if acc.2.2 ≠ 0 then acc
          else match acc.1.restoreSector k x.1 (smapRead 0 r.data (4672 * x.2) 4672) with
            | (s, .ok d) => (s, acc.2.1 ++ [d], 0)
            | (s, .error e) => (s, acc.2.1, e)) (s, [], 0)
        if code ≠ 0 then s.endRestore k code
        else
          let params := ((s.part k).image.captureSectors (s.pageSet k (rd b 16 8 % 2))).2
          let digests := (shardsOf params plain).map Config.sha512
          let o := 192 + 16 * rd b 32 4 + 136 * rd b 44 4
          if np ≠ ceilDiv params 1024 || digests ≠ (List.range (rd b 36 4)).map (fun i => slice b (o + 64 * i) 64) then
            s.endRestore k 0x0205
          else
            let s := s.restoreRng k b
            let set0 := s.pageSet k 0
            let set1 := s.pageSet k 1
            let gen := rd b 16 8
            let s := s.updPart k fun x => { x with
              stepNo := recStep b, stepGen := gen, gen := gen, set0 := set0, set1 := set1,
              uses := if gen % 2 = 0 then set0 else set1, switchPend := false }
            let (s, e) := s.conversion k
            if e ≠ 0 then s.endRestore k e
            else
              let s := (s.updPart k fun x => { x with
                pendErr := 0, recapture := true, handles := setAt x.handles 0 r.handle }).setHolder k 0 3 r.peer
              (s.endRestore k 0).showSlot k)

end Sys2Proof.Machine
end

