-- ==== Sys2Proof/Machine/Power.lean ====
section
/-!
DEFINITION. The feeds, the power and thermal limits, the power states of clusters and their calibration
(01_module_overview.md R24; 18_power_clocks_and_reset.md R424 to R429, R433 to R438).
-/

namespace Sys2Proof.Machine

/-- Change the Pilot island. -/
def State.updPilot (s : State) (f : Pilot → Pilot) : State := { s with pilot := f s.pilot }

/-! ## Feeds (18_power_clocks_and_reset.md R424 to R426) -/

/-- A_OK or B_OK. -/
def feedOk (i : Fin 2) : Fld := if i = 0 then Reg.PWR_STAT_A_OK else Reg.PWR_STAT_B_OK

/-- A_WARN or B_WARN. -/
def feedWarnF (i : Fin 2) : Fld := if i = 0 then Reg.PWR_STAT_A_WARN else Reg.PWR_STAT_B_WARN

/-- A_DV or B_DV. -/
def feedDv (i : Fin 2) : Fld := if i = 0 then Reg.PWR_STAT_A_DV else Reg.PWR_STAT_B_DV

/-- Are both feeds OK? -/
def State.feedsOk (s : State) : Bool := s.get Reg.PWR_STAT_A_OK = 1 && s.get Reg.PWR_STAT_B_OK = 1

/-- Has a failed feed come back into range? -/
def State.feedBack (s : State) (i : Fin 2) : Bool := if i = 0 then s.pilot.backA else s.pilot.backB

/-- Mark whether a failed feed has come back into range. -/
def State.setFeedBack (s : State) (i : Fin 2) (b : Bool) : State :=
  s.updPilot fun p => if i = 0 then { p with backA := b } else { p with backB := b }

/-- Draw from a feed: a change sets SWITCH and updates FEED_LOG (R425). -/
def State.drawFrom (s : State) (i : Fin 2) : State :=
  if s.get Reg.PWR_STAT_ON_B = i.val then s
  else (((((s.set Reg.PWR_STAT_ON_B i.val).set Reg.PWR_EVENT_SWITCH 1).set Reg.FEED_LOG_TO_B i.val).addF
    Reg.FEED_LOG_COUNT 0 0 1).set Reg.FEED_LOG_TIME_S (s.get Reg.TIME_SCLK_COUNT / 32768))

/-- FEED_WARN (R424): an OK feed enters the warning band. For a failed feed the second in range is broken. -/
def execFeedWarn (feed : Fin 2) (dv : BitVec 10) (s : State) : Res :=
  .next (
    if !s.pilot.powered then s
    else
      let s := s.set (feedDv feed) dv.toNat
      if s.get (feedOk feed) = 1 then (s.set (feedWarnF feed) 1).set Reg.PWR_EVENT_FEED_WARN 1
      else s.setFeedBack feed false)

/-- FEED_FAIL (R424 to R426): an OK feed fails, and the draw moves to the other if that is OK. When neither is, the module runs
on its bulk capacitance. R426 does not say whether a failed feed that is already back in range, in its second, is used at once:
the model stays on the capacitance until a FEED_RETURN or that feed's timer (log 126). -/
def execFeedFail (feed : Fin 2) (dv : BitVec 10) (s : State) : Res :=
  .next (
    if !s.pilot.powered then s
    else
      let other : Fin 2 := 1 - feed
      let s := (s.set (feedDv feed) dv.toNat).setFeedBack feed false
      if s.get (feedOk feed) = 0 then s
      else
        let s := ((s.set (feedOk feed) 0).set (feedWarnF feed) 0).set Reg.PWR_EVENT_FEED_FAIL 1
        if s.get (feedOk other) = 1 then s.drawFrom other else s.updPilot fun p => { p with bulk := true })

/-- FEED_RETURN (R424, R426): a failed feed is back in range. While neither is OK it is used at once and BOTH_LOST is set;
otherwise its second in range begins. An OK feed leaves its warning band. -/
def execFeedReturn (feed : Fin 2) (dv : BitVec 10) (s : State) : Res :=
  .next (
    if !s.pilot.powered then s
    else
      let s := s.set (feedDv feed) dv.toNat
      if s.get (feedOk feed) = 1 then s.set (feedWarnF feed) 0
      else if s.pilot.bulk then
        (((s.set (feedOk feed) 1).set Reg.PWR_EVENT_BOTH_LOST 1).drawFrom feed).updPilot fun p => { p with bulk := false }
      else s.setFeedBack feed true)

/-- FEED_RESTORE_TIMER (R424, R425): a feed that has stayed in range for 1 s is OK, and feed A is taken back into use. A module on
its bulk capacitance draws from it, and BOTH_LOST is set (R426; log 126). -/
def execFeedRestoreTimer (feed : Fin 2) (s : State) : Res :=
  .next (
    if s.pilot.powered && s.feedBack feed && s.get (feedOk feed) = 0 then
      let s := (s.set (feedOk feed) 1).setFeedBack feed false
      let s := if s.pilot.bulk then (s.set Reg.PWR_EVENT_BOTH_LOST 1).updPilot fun p => { p with bulk := false } else s
      if feed = 0 || s.get Reg.PWR_STAT_A_OK = 0 then s.drawFrom feed else s
    else s)

/-! ## Limits (01_module_overview.md R23, R24; 18_power_clocks_and_reset.md R427, R428) -/

/-- STRETCH shows the larger of the power stretch and the thermal stretch (R428), which is the largest of the dies'. -/
def State.showStretch (s : State) : State :=
  s.set Reg.PWR_STAT_STRETCH (s.pilot.thermStep.toList.foldl max s.pilot.powerStep)

/-- The step by which FCLK of a cluster is stretched while the cluster is ACTIVE: the power stretch is the same for every cluster
(R427), the thermal stretch is that of the affected ones (01_module_overview.md R24), which are the clusters of a hot compute
die, and all of them when the hub die or the Steward die is hot (log 130). -/
def State.clusterStretch (s : State) (c : Nat) : Nat :=
  if s.cluster c ≠ 0 then 0
  else
    let own := if h : c / 24 < 6 then s.pilot.thermStep[c / 24] else 0
    max (max own (max s.pilot.thermStep[4] s.pilot.thermStep[5])) s.pilot.powerStep

/-- POWER_LIMIT (R427; 01_module_overview.md R23): the controller's new step for a measured draw. While the average is above PWR_LIMIT.SUST_W or the peak is met, the step grows. LIMIT is set
when STRETCH leaves 0, and no cluster stops. -/
def execPowerLimit (step : Fin 64) (draw : PowerDraw) (s : State) : Res :=
  .next (
    if !s.pilot.powered then s
    else
      let s := s.set Reg.PWR_STAT_POWER_W draw.watts.toNat
      let above : Bool := s.get Reg.PWR_LIMIT_SUST_W < draw.watts.toNat || draw.peak
      let v := if above then max step.val (min 63 (s.pilot.powerStep + 1)) else step.val
      let s := if s.pilot.powerStep = 0 && v ≠ 0 then s.set Reg.PWR_EVENT_LIMIT 1 else s
      (s.updPilot fun p => { p with powerStep := v }).showStretch)

/-- THERM_STAT with one die's byte replaced. -/
def State.setDieC (s : State) (die : Fin 6) (celsius : Byte) : State :=
  let w := s.get Reg.THERM_STAT_DIE_C
  s.set Reg.THERM_STAT_DIE_C (w - w / 256 ^ die.val % 256 * 256 ^ die.val + celsius.toNat * 256 ^ die.val)

/-! ## Pins that follow registers (18_power_clocks_and_reset.md R429, R444) -/

/-- ALERT_OUT_N is low (R429, R446). -/
def State.alertLow (s : State) : Bool :=
  s.pilot.powered && (s.pilot.boot = .failed ||
    [Reg.PWR_EVENT_SWITCH, Reg.PWR_EVENT_FEED_WARN, Reg.PWR_EVENT_FEED_FAIL, Reg.PWR_EVENT_BOTH_LOST, Reg.PWR_EVENT_LIMIT,
      Reg.PWR_EVENT_THERM, Reg.PWR_EVENT_CALIB_STALE, Reg.PWR_EVENT_REFCLK_LOSS, Reg.PWR_EVENT_HUB_WDOG].any fun f =>
        s.get f = 1 && bit (s.get Reg.PWR_ALERT_EN_EN) f.lo)

/-! ## Calibration by load bin (18_power_clocks_and_reset.md R435 to R438) -/

/-- Is a bin of a cluster filled? -/
def State.binFilled (s : State) (c bin : Nat) : Bool := smapGet 0 s.pilot.bins (8 * c + bin) ≠ 0

/-- STALE, FILLED6 and FILLED7 follow the bins and the clusters; STALE from 0 to 1 sets CALIB_STALE (R437). -/
def State.showCalib (s : State) : State :=
  let all := List.range 96
  let stale : Bool := all.any fun c => s.cluster c ≠ 3 && !(s.binFilled c 6 && s.binFilled c 7)
  let s := if stale && s.get Reg.CALIB_STAT_STALE = 0 then s.set Reg.PWR_EVENT_CALIB_STALE 1 else s
  ((s.set Reg.CALIB_STAT_STALE (if stale then 1 else 0)).set Reg.CALIB_STAT_FILLED6
    (all.filter fun c => s.binFilled c 6).length).set Reg.CALIB_STAT_FILLED7 (all.filter fun c => s.binFilled c 7).length

/-- LOAD_BIN_CHANGE (R435). -/
def execLoadBinChange (c : ClusterIx) (bin : Fin 8) (s : State) : Res :=
  .next (
    if s.cluster c.val = 0 then s.updPilot fun p => { p with loadBin := smapSet 0 p.loadBin c.val bin.val } else s)

/-- Does a cluster run in a bin: the one of its supply current, or one of the internal load of a calibration pass? -/
def State.runsBin (s : State) (c bin : Nat) : Bool :=
  s.cluster c = 0 && (smapGet 0 s.pilot.loadBin c = bin || (s.pilot.passing.contains c && 6 ≤ bin))

/-- CALIB_BIN_FILL (R436): the calibrated voltage is the lowest at which the monitors kept the slack, plus 15 mV. -/
def execCalibBinFill (c : ClusterIx) (bin : Fin 8) (millivolts : Fin 4096) (s : State) : Res :=
  .next (
    if s.runsBin c.val bin.val && !s.binFilled c.val bin.val then
      (s.updPilot fun p => { p with bins := smapSet 0 p.bins (8 * c.val + bin.val) (millivolts.val + 15) }).showCalib
    else s)

/-! ## Cluster power states (18_power_clocks_and_reset.md R433, R434) -/

/-- Put clusters in a power state. -/
def State.powerClusters (s : State) (l : List Nat) (v : Nat) : State := (l.foldl (fun s c => s.setCluster c v) s).showCalib

/-- The tiles of a cluster. -/
def clusterTiles (c : Nat) : List Nat := (List.range 1536).filter fun t => tileCluster t = c

/-- Clusters go DARK: their tiles' state is lost, and cleared on the wake (R433). -/
def State.darken (s : State) (l : List Nat) : State :=
  ((l.flatMap clusterTiles).foldl (fun s t => s.setTile t Tile.reset) s).powerClusters l 3

/-- Wake clusters: those that failed their self-test stay DARK (R433, R434). -/
def State.wake (s : State) (l : List Nat) : State := s.powerClusters (l.filter fun c => !s.clusterFailed c) 0

/-- The partition of a cluster. -/
def State.partOfCluster (s : State) (c : Nat) : Option Nat :=
  (s.frame.parts.find? fun r => r.clusters.contains c).map (·.part)

/-- Does a partition host a gate (03_configuration_images.md R61)? -/
def State.isGate (s : State) (p : Nat) : Bool := s.frame.gates.any fun g => g.2 = p

/-- A cluster shows no activity: each coded tile is halted, or waits without a limit, and no unit command runs (R433). -/
def State.inactive (s : State) (c : Nat) : Bool :=
  (clusterTiles c).all fun t =>
    let x := s.tile t
    (!x.coded || x.halted || (x.wait.isSome && x.waitLimit = 0)) &&
      (x.cubeQ ++ x.vecQ ++ x.movQ).all fun u => !u.phase.live

/-- CLUSTER_IDLE_ENTRY (R433). -/
def execClusterIdleEntry (c : ClusterIx) (s : State) : Res :=
  .next (
    if s.cluster c.val = 0 && s.inactive c.val && !s.pilot.passing.contains c.val then s.powerClusters [c.val] 1 else s)

/-- CLUSTER_NAP_ENTRY (R433): gate partitions never enter NAP. -/
def execClusterNapEntry (c : ClusterIx) (s : State) : Res :=
  .next (match s.partOfCluster c.val with
    | some p =>
      if s.cluster c.val = 1 && (s.part p).loaded && s.get Reg.CLUSTER_CTRL_NAP_AFTER_US ≠ 0 && !s.isGate p then
        s.powerClusters [c.val] 2
      else s
    | none => s)

/-- CLUSTER_WAKE_COMPLETE (R433, R434; 16_reliability_and_integrity.md R399, R400): an IDLE or napping cluster is ACTIVE; a DARK
cluster of a partition is tested first, and one that fails stays DARK and is marked. -/
def execClusterWakeComplete (c : ClusterIx) (bad : Bool) (s : State) : Res :=
  let k : Nat := c.val
  .next (
    if s.cluster k = 1 || s.cluster k = 2 then s.powerClusters [k] 0
    else if s.cluster k = 3 && !s.clusterFailed k && (s.partOfCluster k).isSome then
      if bad then s.setF Reg.CLUSTER_FAIL_d_FAILED (k / 24) 0 (setBit (s.getF Reg.CLUSTER_FAIL_d_FAILED (k / 24) 0) (k % 24))
      else s.powerClusters [k] 0
    else s)

/-! ## The calibration pass (18_power_clocks_and_reset.md R438) -/

/-- CALIB_PASS: every cluster that is DARK, not failed, and in no partition with an image wakes for the pass. -/
def execCalibPass (s : State) : Res :=
  .next (s.cxlIo fun s =>
    if s.get Reg.CALIB_STAT_PASS_BUSY = 1 then s.set Reg.CALIB_STAT_OVERRUN 1
    else
      let l := (List.range 96).filter fun c => s.cluster c = 3 && !s.clusterFailed c &&
        match s.partOfCluster c with
        | some p => !(s.part p).loaded
        | none => true
      ((s.updPilot fun p => { p with passing := l }).set Reg.CALIB_STAT_PASS_BUSY 1).powerClusters l 0)

/-- CALIB_PASS_COMPLETE: its clusters return to DARK. -/
def execCalibPassComplete (s : State) : Res :=
  .next (
    if s.get Reg.CALIB_STAT_PASS_BUSY = 1 then
      ((s.updPilot fun p => { p with passing := [] }).set Reg.CALIB_STAT_PASS_BUSY 0).darken s.pilot.passing
    else s)

/-- A load takes clusters out of the pass (R438). -/
def State.leavePass (s : State) (l : List Nat) : State :=
  s.updPilot fun p => { p with passing := p.passing.filter fun c => !l.contains c }

end Sys2Proof.Machine
end

