-- ==== Sys2Proof/Machine/TileNet.lean ====
section
/-!
DEFINITION. Channels, waits, halts and debug control of the tile core (04_tile_core.md R92, R95 to R98, R108, R110 to
R117; 02_fabric.md R40, R44).
-/

namespace Sys2Proof.Machine

/-- Does a hub service reply (04_tile_core.md R97)? -/
def replies (service : Nat) : Bool := service = 2 || service = 3

/-- What a SEND on an endpoint meets (04_tile_core.md R92). -/
inductive SendState where
  | wrongKind | waits | noCredit | ready
  deriving DecidableEq, Repr

/-- The state of a SEND (04_tile_core.md R92). -/
def Tile.sendState (x : Tile) (ch : Fin 64) : SendState :=
  let e := x.ep ch
  if !(e.kind = .msg || e.kind = .hub) then .wrongKind
  else if e.kind = .hub && replies e.service && x.replyFrom.isSome then .waits
  else if e.kind = .hub && e.service = 0 && !x.unitsIdle 7 then .waits
  else if e.credits = 0 then .noCredit
  else .ready

/-- The packet of a SEND that goes: a credit is taken, the packet enters the network; a STEP_DONE takes the UNIT_FLAGS
with it, a request with a reply makes the reply outstanding (04_tile_core.md R92, R95, R98). -/
def State.sendPacket (s : State) (t : Nat) (ch : Fin 64) (reg : GReg) (n : Nat) : State :=
  let x := s.tile t
  let e := x.ep ch
  let words := (List.range n).map fun i => if h : reg.val + i < 32 then x.getG ⟨reg.val + i, h⟩ else 0
  let done := e.kind = .hub && e.service = 0
  let m : NetMsg :=
    { kind := if e.kind = .hub then .request e.service else .data, srcTile := t, srcEp := ch.val,
      dstTile := e.peerTile, dstEp := e.peerEp, words := words, flags := if done then x.unitFlags else 0, code := 0 }
  let s := s.updTile t fun x =>
    let x := x.updEp ch fun e => { e with credits := e.credits - 1 }
    let x := if done then { x with mxSat := false, mxNan := false, vxSat := false, vxNan := false } else x
    if e.kind = .hub && replies e.service then { x with replyFrom := some ch } else x
  (s.inject m).countPart t Reg.PART_MSG_PKTS 1

/-- Issue cycles of SEND and RECV (04_tile_core.md R91). -/
def chanCycles (n : Nat) : Nat := 1 + n / 2

/-- Is a register range of a channel instruction illegal (04_tile_core.md R90)? -/
def badRange (reg : GReg) (n : Fin 16) : Bool := n.val > 8 || reg.val + n.val > 32

/-- SEND once it has issued (04_tile_core.md R92). -/
def State.doSend (s : State) (t : Nat) (ch : Fin 64) (reg : GReg) (n : Nat) (pd : Fin 8) (nb : Bool) : State :=
  match (s.tile t).sendState ch with
  | .wrongKind => s.tileExc t 0x0302
  | .waits => s.updTile t fun x => { x with wait := some (.sendWait ch reg n pd nb) }
  | .noCredit =>
    if nb then (s.updTile t fun x => { x with wait := none }.setP pd false).advance t (chanCycles n)
    else s.updTile t fun x => { x with wait := some (.sendWait ch reg n pd nb) }
  | .ready =>
    ((s.sendPacket t ch reg n).updTile t fun x =>
      if nb then { x with wait := none }.setP pd true else { x with wait := none }).advance t (chanCycles n)

/-- SEND (04_tile_core.md R90, R91, R92). -/
def execSend (t : TileIx) (gd : Guard) (reg : GReg) (ch : Fin 64) (n : Fin 16) (pd : Fin 8) (nb : Bool) (s : State) :
    Res :=
  .next (if s.runs t && badRange reg n then s.tileExc t 0x0307
    else s.issue t gd fun s => s.doSend t ch reg n pd nb)

/-- Write the words of a packet into registers, zero past its end (04_tile_core.md R92). -/
def Tile.setWords (x : Tile) (reg : GReg) (n : Nat) (words : List Word) : Tile :=
  (List.range n).foldl (fun x i => if h : reg.val + i < 32 then x.setG ⟨reg.val + i, h⟩ (words.getD i 0) else x) x

/-- RECV_INFO (04_tile_core.md R95, R115). -/
def recvInfo (words srcEp srcTile : Nat) : BitVec 21 := BitVec.ofNat 21 (words + srcEp * 16 + srcTile * 1024)

/-- Is there something to receive (04_tile_core.md R92, R95)? -/
def Tile.recvReady (x : Tile) (ch : Fin 64) : Bool :=
  match (x.ep ch).kind with
  | .msg => !(x.ep ch).queue.isEmpty
  | .hub => x.replyBuf.isSome && x.replyFrom = some ch
  | _ => false

/-- RECV takes the oldest packet or the reply; a MSG peer gets its credit back (04_tile_core.md R92, R95). -/
def State.takePacket (s : State) (t : Nat) (ch : Fin 64) (reg : GReg) (n : Nat) : State :=
  let x := s.tile t
  let e := x.ep ch
  match e.kind, e.queue, x.replyBuf with
  | .msg, q :: rest, _ =>
    let s := s.updTile t fun x =>
      { (x.updEp ch fun e => { e with queue := rest }).setWords reg n q.words with
        recvInfo := recvInfo q.words.length q.srcEp (tileId q.srcTile) }
    (s.inject { kind := .credit, srcTile := t, srcEp := ch.val, dstTile := e.peerTile, dstEp := e.peerEp, words := [],
                flags := 0, code := 1 }).countPart t Reg.PART_MSG_PKTS 1
  | .hub, _, some w =>
    s.updTile t fun x =>
      { x.setWords reg n w with recvInfo := recvInfo w.length ch.val 0x7FF, replyBuf := none, replyFrom := none }
  | _, _, _ => s

/-- RECV once it has issued (04_tile_core.md R92). -/
def State.doRecv (s : State) (t : Nat) (ch : Fin 64) (reg : GReg) (n : Nat) (pd : Fin 8) (nb : Bool) : State :=
  let x := s.tile t
  if !((x.ep ch).kind = .msg || (x.ep ch).kind = .hub) then s.tileExc t 0x0302
  else if x.recvReady ch then
    ((s.takePacket t ch reg n).updTile t fun x =>
      if nb then { x with wait := none }.setP pd true else { x with wait := none }).advance t (chanCycles n)
  else if nb then (s.updTile t fun x => x.setP pd false).advance t (chanCycles n)
  else s.updTile t fun x => { x with wait := some (.recvWait ch reg n pd nb) }

/-- RECV (04_tile_core.md R90, R91, R92; a message-store error raises 0x0201, R109). -/
def execRecv (t : TileIx) (gd : Guard) (reg : GReg) (ch : Fin 64) (n : Fin 16) (pd : Fin 8) (nb ue : Bool) (s : State) :
    Res :=
  .next (if s.runs t && badRange reg n then s.tileExc t 0x0307
    else s.issue t gd fun s =>
      if ue && (s.tile t).recvReady ch then s.tileUe t 2 0 else s.doRecv t ch reg n pd nb)

/-- RAVAIL (04_tile_core.md R91, R96): an endpoint that is not SIN raises 0x0302. -/
def execRavail (t : TileIx) (gd : Guard) (reg : GReg) (ch : Fin 64) (s : State) : Res :=
  .next (s.issue t gd fun s =>
    if ((s.tile t).ep ch).kind ≠ .sin then s.tileExc t 0x0302
    else (s.updTile t fun x => x.setG reg (BitVec.ofNat 64 (x.ep ch).ready)).advance t 1)

/-- RREL (04_tile_core.md R91, R96). -/
def execRrel (t : TileIx) (gd : Guard) (reg : GReg) (ch : Fin 64) (s : State) : Res :=
  .next (s.issue t gd fun s =>
    let x := s.tile t
    let n := (x.getG reg).toNat
    if (x.ep ch).kind ≠ .sin then s.tileExc t 0x0302
    else if !(aligned n 64 && n ≤ (x.ep ch).ready) then s.tileExc t 0x0306
    else (s.updTile t fun x => x.updEp ch fun e => e.consume n).advance t 1)

/-- HALT (04_tile_core.md R91, R113): it waits for the unit queues to empty. -/
def execHalt (t : TileIx) (gd : Guard) (s : State) : Res :=
  .next (s.issue t gd fun s =>
    if (s.tile t).unitsIdle 7 then s.haltDone t
    else s.updTile t fun x => { x with wait := some .halt })

/-! ## Waits (04_tile_core.md R92, R108) -/

/-- Has the condition of the tile's wait become true? -/
def Tile.waitOver (x : Tile) : Bool :=
  match x.wait with
  | none => false
  | some (.ticket v) => x.ticketDone v
  | some (.event k v) => evAfter x.e[k.val] v
  | some (.units m) => x.unitsIdle m.toNat
  | some (.sendWait ch _ _ _ nb) => x.sendState ch = .ready || (nb && x.sendState ch = .noCredit)
  | some (.recvWait ch _ _ _ _) => x.recvReady ch
  | some (.issue u _ _) => (x.queue u).length < u.depth
  | some .halt => x.unitsIdle 7

/-- The waiting instruction ends (04_tile_core.md R92). -/
def State.endWait (s : State) (t : Nat) : State :=
  let s := s.countWait t
  match (s.tile t).wait with
  | none => s
  | some (.sendWait ch reg n pd nb) => s.doSend t ch reg n pd nb
  | some (.recvWait ch reg n pd nb) => s.doRecv t ch reg n pd nb
  | some (.issue u rd desc) => (s.updTile t fun x => { x with wait := none }.enqueue u rd desc).advance t 2
  | some .halt => s.haltDone t
  | some _ => (s.updTile t fun x => { x with wait := none }).advance t 1

/-- WAIT_RESUME (04_tile_core.md R92). A wait whose condition is not true cannot end, and nothing changes (log 12). -/
def execWaitResume (t : TileIx) (s : State) : Res :=
  .next (if !(s.tile t).halted && (s.tile t).waitOver && s.active t then s.endWait t else s)

/-- Is the wait one of the timed waits of R108 (04_tile_core.md)? -/
def Wait.timed : Wait → Bool
  | .halt => false
  | _ => true

/-- WAIT_LIMIT_EXPIRY (04_tile_core.md R108): a timed wait past the limit raises 0x0309; a wait that ends in that cycle
ends normally. -/
def execWaitLimitExpiry (t : TileIx) (s : State) : Res :=
  let x := s.tile t
  .next (match x.wait with
    | some w =>
      if !x.halted && w.timed && x.waitLimit ≠ 0 then (if x.waitOver then s.endWait t else s.tileExc t 0x0309) else s
    | none => s)

/-- TILE_STAT.WAITING (04_tile_core.md R117). -/
def Tile.waiting (x : Tile) : Nat :=
  match x.wait with
  | none => 0
  | some (.ticket _) => 1
  | some (.event _ _) => 2
  | some (.sendWait ch _ _ _ _) => if x.sendState ch = .waits then 6 else 3
  | some (.recvWait ch _ _ _ _) => if (x.ep ch).kind = .hub then 6 else 4
  | some (.issue _ _ _) => 5
  | some (.units _) => 7
  | some .halt => 7

/-! ## Stops and debug control (04_tile_core.md R110, R111, R114, R117) -/

/-- Take the first packet in flight that satisfies a predicate, if its way is whole (02_fabric.md R42, R48): its units cross the
bridge. -/
def State.takeNet (s : State) (p : NetMsg → Bool) : Option (NetMsg × State) :=
  (s.fab.net.find? fun m => p m && !s.pathDown m.edges).map fun m =>
    (m, { s with fab := { s.fab with net := s.fab.net.eraseP fun m => p m && !s.pathDown m.edges } }.countEdges m.edges)

/-- TILE_STOP (04_tile_core.md R111): CAUSE 2, unless the tile is already halted with CAUSE 1 or 5, or was never
executing. Without a stop on its way to the tile nothing happens (log 12). -/
def execTileStop (t : TileIx) (s : State) : Res :=
  .next (match s.takeNet fun m => m.kind = .stop && m.dstTile = t.val with
    | none => s
    | some (_, s) =>
      let x := s.tile t
      if x.coded && (!x.halted || x.cause = 3 || x.cause = 4) then s.haltTile t 2 0
      else s)

/-- An order of the hub reaches the tile's router, which wakes an IDLE or napping cluster (18_power_clocks_and_reset.md R434). -/
def State.wakeTile (s : State) (t : Nat) : State :=
  let c := tileCluster t
  if s.cluster c = 1 || s.cluster c = 2 then s.powerClusters [c] 0 else s

/-- A control of the tile window: without debug authorisation it is ignored (R117). -/
def State.tileCtrl (s : State) (t : Nat) (f : State → State) : State :=
  s.cxlIo fun s => if s.pilot.debugTile then f (s.wakeTile t) else s

/-- HALT_REQ (04_tile_core.md R114, R117): a running tile halts with CAUSE 3; a tile in a wait keeps its wait (log 14).
Without debug authorisation, and on a halted tile, it is ignored. -/
def execHaltReq (t : TileIx) (s : State) : Res :=
  .next (s.tileCtrl t fun s => if (s.tile t).coded && !(s.tile t).halted then
    s.updTile t fun x => { x with halted := true, stepping := false, cause := 3, faultPc := x.pc } else s)

/-- Is the tile halted for debug? -/
def Tile.debugHalted (x : Tile) : Bool := x.halted && (x.cause = 3 || x.cause = 4)

/-- TILE_RESUME (04_tile_core.md R114, R117). -/
def execTileResume (t : TileIx) (s : State) : Res :=
  .next (s.tileCtrl t fun s => if (s.tile t).debugHalted then
    s.updTile t fun x => { x with halted := false, cause := 0 } else s)

/-! ## The tile window (04_tile_core.md R115 to R117) -/

/-- Do the debug rights cover every key ID of the plan of the image that binds the tile's partition (R117)? R117 does not say
which rights cover a key ID; the model takes the right to read it (log 125). -/
def State.debugCovers (s : State) (t : Nat) : Bool :=
  match s.partOf t with
  | none => true
  | some p =>
    let r := smapGet Rights.none s.prism.rights 35
    !(s.part p).loaded || (s.part p).image.plan.all fun g => bit r.read g.keyId

/-- Is an access to GREG, EVCNT, the CSR aperture or TILE_MEM_DATA allowed (R117)? -/
def State.windowOpen (s : State) (t : Nat) : Bool := (s.tile t).halted && s.debugCovers t

/-- Is a window offset one that R117 closes while the tile runs or its keys are not covered? -/
def windowGuarded (o : Nat) : Bool :=
  o = 0x28 || (0x100 ≤ o && o < 0x200) || (0x200 ≤ o && o < 0x280) || (0x1000 ≤ o && o < 0x1A00)

/-- The size of a tile memory by SPACE (R117). -/
def spaceSize (sp : Nat) : Nat :=
  match sp with
  | 0 => 0x200000
  | 1 => 0x20000
  | 2 => 0x40000
  | _ => 0

/-- An access to TILE_MEM_DATA: 8 bytes at ADDR are read or written, and ADDR advances modulo the size of the space. ADDR at or past
the size of SPACE 1 or 2 is taken modulo that size (log 125). A scratchpad word that a running command writes reads as one of its
values (R94); an accumulator word of a running command's range reads as a free value (05_matrix_array.md R143; log 1). -/
def State.memData (s : State) (t : Nat) (write : Bool) (value : Word) : State × Word :=
  let x := s.tile t
  let sp := x.memSpace.toNat
  if sp = 3 then (s, 0)
  else
    let a := x.memAddr.toNat / 8 * 8 % spaceSize sp
    let move (x : Tile) : Tile := { x with memAddr := BitVec.ofNat 21 ((a + 8) % spaceSize sp) }
    if write then
      (s.updTile t fun x => match sp with
        | 0 => move (x.storeSp a (leBytes 8 value.toNat))
        | 1 => move { x with imem := smapWrite 0 x.imem (a / 4) [value.setWidth 32, (value >>> 32).setWidth 32] }
        | _ => move { x with acc := smapWrite 0 x.acc a (leBytes 8 value.toNat) }, 0)
    else
      let v : Nat := match sp with
        | 0 => (s.seeWord t (a / 8)).toNat
        | 1 => (smapGet 0 x.imem (a / 4)).toNat + (smapGet 0 x.imem (a / 4 + 1)).toNat * 2 ^ 32
        | _ =>
          if x.cubeQ.any fun c => c.phase = .running && !disjoint a 8 (dw c.desc 4 5 0 * 4096) (accFoot c.desc) then
            Config.freeNat s.fresh
          else leNat (smapRead 0 x.acc a 8)
      ((s.updTile t move).tick, BitVec.ofNat 64 v)

/-- The answer of a read; a write has none. -/
def State.giveRead (s : State) (write : Bool) (v : Word) : State := if write then s else s.emit (.readData v)

/-- TILE_MEM_DATA (04_tile_core.md R116, R117): 8 bytes at ADDR are written, or read into `out`, and ADDR advances. A
denied access reads zero or writes nothing, and sets DBG_DENIED. -/
def execTileMemData (t : TileIx) (write : Bool) (value : Word) (s : State) : Res :=
  .next (s.cxlIo fun s =>
    if !s.pilot.debugTile then s.giveRead write 0
    else
      let s := s.wakeTile t
      if !s.windowOpen t then (s.updTile t fun x => { x with dbgDenied := true }).giveRead write 0
      else
        let r := s.memData t write value
        r.1.giveRead write r.2)

/-- TILE_STAT (R117). -/
def Tile.statWord (x : Tile) : Nat :=
  (if x.halted then 1 else 0) + (if x.coded then 2 else 0) + (if x.normalEnd then 4 else 0) + (if x.dbgDenied then 8 else 0) +
    x.waiting * 2 ^ 4 + x.cubeQ.length * 2 ^ 8 + x.vecQ.length * 2 ^ 12 + x.movQ.length * 2 ^ 16

/-- TILE_FAULT (R117). -/
def Tile.faultWord (x : Tile) : Nat :=
  x.cause + x.code * 2 ^ 8 + x.faultPc * 2 ^ 24 + (if x.reported then 2 ^ 39 else 0) + x.trapImm.toNat * 2 ^ 40

/-- What a read of offset `o` of a tile's window gives, beside TILE_MEM_DATA (R116, R117). -/
def State.windowRead (s : State) (t o : Nat) : Nat :=
  let x := s.tile t
  if !s.pilot.debugTile || (windowGuarded o && !s.windowOpen t) then 0
  else if o = 8 then x.statWord
  else if o = 0x10 then x.faultWord
  else if o = 0x18 then x.pc
  else if o = 0x20 then x.memAddr.toNat + x.memSpace.toNat * 2 ^ 62
  else if h : 0x100 ≤ o ∧ o < 0x200 then (x.getG ⟨(o - 0x100) / 8, by omega⟩).toNat
  else if h : 0x200 ≤ o ∧ o < 0x280 then (x.e[(o - 0x200) / 8]).toNat
  else if 0x1000 ≤ o && o < 0x1A00 then ((x.csr t x.cycle ((o - 0x1000) / 8)).getD 0).toNat
  else 0

/-- What a write of offset `o` of a tile's window does, beside TILE_CTRL and TILE_MEM_DATA, which have rows of their own (R116, R117).
Through the CSR aperture a write follows the access codes of R115; a value that R107 refuses to an EVSRC leaves it unchanged. -/
def State.windowWrite (s : State) (t o : Nat) (v : Word) : State :=
  if !s.pilot.debugTile then s
  else
    let s := s.wakeTile t
    if windowGuarded o && !s.windowOpen t then s.updTile t fun x => { x with dbgDenied := true }
    else s.updTile t fun x =>
      if o = 8 then { x with dbgDenied := x.dbgDenied && !bit v.toNat 3 }
      else if o = 0x20 then
        { x with memAddr := BitVec.ofNat 21 (v.toNat % 2 ^ 21 / 8 * 8), memSpace := BitVec.ofNat 2 (v.toNat / 2 ^ 62) }
      else if h : 0x100 ≤ o ∧ o < 0x200 then x.setG ⟨(o - 0x100) / 8, by omega⟩ v
      else if h : 0x200 ≤ o ∧ o < 0x280 then { x with e := x.e.set ((o - 0x200) / 8) (v.setWidth 32) }
      else if 0x1000 ≤ o && o < 0x1A00 then
        match x.csrWrite ((o - 0x1000) / 8) v with
        | .inl x' => x'
        | .inr _ => x
      else x

/-- The tile and the window offset of an offset of BAR0 (00_scope.md R16; 04_tile_core.md R116). -/
def windowOf (base : Nat) : Option (Nat × Nat) :=
  if 0x1000000 ≤ base && base < 0x1000000 + 1536 * 0x4000 then some ((base - 0x1000000) / 0x4000, (base - 0x1000000) % 0x4000)
  else none

end Sys2Proof.Machine
end

