-- ==== Sys2Proof/Machine/Steps.lean ====
section
/-!
DEFINITION. Steps of a context: their start, the hub services of its tiles, the pass, their end, and errors that stop a
context (04_tile_core.md R97, R98, R111; 09_parameter_update.md R216 to R228; 15_shared_objects_and_submission.md R355,
R363, R364, R371, R376).
-/

namespace Sys2Proof.Machine

/-! ## What holds a step back (R364; 08_training_dataflow.md R208; 11_memory_tiers_and_weights.md R268, R276) -/

/-- The commands of a context in the hub. -/
def State.ctxCmds (s : State) (c : Nat) : List HubCmd := (s.ctxQueues c).flatMap s.qCmds

/-- Runs a command of a context whose OP and progress satisfy a predicate? -/
def State.ctxRuns (s : State) (c : Nat) (f : HubCmd → Bool) : Bool :=
  (s.ctxCmds c).any fun x => x.stage = .running && f x

/-- Does an accepted MIGRATE or BEACON_LOAD of the context, or a refetch, that reached the hub before `at'` still wait
(11_memory_tiers_and_weights.md R268, R276, R280)? `phase` 1 marks one that has been accepted (log 33). -/
def State.movesWait (s : State) (p at' : Nat) : Bool :=
  ((s.ctxCmds (s.part p).ctx).any fun x =>
    x.stage = .waiting && x.phase = 1 && (x.op = 0x12 || x.op = 0x13) && x.arrived < at') ||
  s.link.refetch.any fun r => r.part = p && !r.started && r.arrived < at'

/-- Does a MIGRATE, a BEACON_LOAD or a refetch of the context run? -/
def State.movesRun (s : State) (p : Nat) : Bool :=
  s.ctxRuns (s.part p).ctx (fun x => x.op = 0x12 || x.op = 0x13) || s.link.refetch.any fun r => r.part = p && r.started

/-- Is a SNAPSHOT of the context in its read phase (08_training_dataflow.md R208)? -/
def State.snapReads (s : State) (p : Nat) : Bool := s.ctxRuns (s.part p).ctx fun x => x.op = 0x11 && x.phase = 1

/-- Is a capture of the partition in its stage (17_reflection_and_recovery.md R411 step 1)? -/
def Part.staging (x : Part) : Bool :=
  match x.capture with
  | some c => c.phase = 0
  | none => false

/-- Has a capture of the partition parameter sectors still to read (17_reflection_and_recovery.md R411 step 3)? -/
def Part.reading (x : Part) : Bool :=
  match x.capture with
  | some c => c.phase ≤ 1
  | none => false

/-! ## Stopping a pass (09_parameter_update.md R228) -/

/-- Lines that a stopped pass was writing: each holds its value from before or after, which is free; what else the pass
left of a line is as after it (09_parameter_update.md R228; log 1). -/
def State.mixLines (old new : State) : State :=
  let keys := ((old.mem.lines.map (·.1)) ++ new.mem.lines.map (·.1)).dedup
  keys.foldl (fun s ln =>
    let l := smapGet Line.fresh old.mem.lines ln
    if l = smapGet Line.fresh new.mem.lines ln && smapRead 0 old.mem.bytes (64 * ln) 64 = smapRead 0 new.mem.bytes (64 * ln) 64
    then s
    else if s.free 2 = 0 then s.tick
    else s.tick.setLine ln { smapGet Line.fresh new.mem.lines ln with poison := l.poison } (old.lineData ln)) new

/-- A pass that runs is stopped with a code. -/
def State.stopPass (s : State) (p code : Nat) : State :=
  match (s.part p).step with
  | some r =>
    let s := if r.phase = .pass && r.units.any (·.2) then
        let run := s.runPass p r.uses r.n
        (s.mixLines run.1).noteStopped ((r.units.filter (·.2)).map (·.1)) run.2 code
      else s
    (s.updPart p fun x => { x with step := some { r with phase := .ended, units := [] } }).showGlint
  | none => s

/-! ## Errors that stop a context (04_tile_core.md R111; 15_shared_objects_and_submission.md R371, R376) -/

/-- The running work of a partition's context on the hub side stops: its pass and its migration; its commands end with
a code, or are cancelled with it. -/
def State.stopWork (s : State) (p code : Nat) (tile : Option Nat) : State :=
  let s := (s.stopPass p code).updPart p fun x => { x with migrating := [] }
  s.stopCtx (s.part p).ctx code tile

/-- An error that stops the context of a partition: a report of a tile, a fabric error or a gate abandonment
(04_tile_core.md R111; 02_fabric.md R46, R48; 13_tenants_and_joint_training.md R329). The first one sets the fence's
code; later ones change nothing. -/
def State.stopReport (s : State) (p code : Nat) (tile : Option Nat) : State :=
  let x := s.part p
  let live : Bool := match x.step with
    | some r => r.phase ≠ .ended
    | none => false
  if !x.loaded || (x.failed && !live) then s
  else
    let s := if live then s.errCurrent p code else s.pend p code
    let s := (s.stopWork p code tile).updPart p fun x => { x with failed := true }
    let s := match tile with
      | some t => if x.failed then s else s.updTile t fun y => { y with reported := true }
      | none => s
    (s.partTiles p).foldl (fun s t => s.inject
      { kind := .stop, srcTile := 0, srcEp := 0, dstTile := t, dstEp := 0, words := [], flags := 0, code := 0 }) s

/-- TILE_REPORT (04_tile_core.md R111). Without a report on its way nothing happens (log 12). -/
def execTileReport (t : TileIx) (s : State) : Res :=
  .next (match s.takeNet fun m => m.kind = .report && m.srcTile = t.val with
    | none => s
    | some (m, s) => match s.partOf t.val with
      | some p => s.stopReport p m.code (some t.val)
      | none => s)

/-! ## Start (R364; 04_tile_core.md R98) -/

/-- STEP (R364): the next step of the bound context starts once every cluster of the partition is ACTIVE
(18_power_clocks_and_reset.md R434), and captures the generation. A step whose tiles have all halted normally finishes as
soon as it starts (04_tile_core.md R113). -/
def execStepCmd (q : QueueIx) (s : State) : Res :=
  let k : Nat := q.val
  .next (s.tryStart k 0x02 fun c s =>
    match s.boundPart (s.qCtx k) with
    | none => s.endCmd k 0x0103
    | some p =>
      let x := s.part p
      if x.step.isSome || x.staging || s.snapReads p || s.movesRun p || s.movesWait p c.arrived ||
          !((s.partClusters p).all fun c => s.cluster c = 0) then s.holdBack k
      else
        let n := (x.stepNo + 1) % 2 ^ 64
        let uses := x.setOf x.gen
        let s := (s.beginCmd k).updHead k fun c => { c with gen := x.gen, info := n }
        let s := s.updPart p fun x => { x with
          stepNo := n, stepGen := x.gen, uses := uses,
          step := some { queue := k, n := n, gen := x.gen, phase := .compute, uses := uses, units := [], order := 0 } }
        let s := (s.codedTiles p).foldl (fun s t => if (s.tile t).halted then s else s.updTile t fun y => y.bump 1 0 1) s
        (s.showSlot p).finishStep p)

/-! ## Hub services (04_tile_core.md R95, R97, R98) -/

/-- The hub has taken a packet of a HUB endpoint: its credit returns (04_tile_core.md R95). -/
def State.hubCredit (s : State) (m : NetMsg) : State :=
  s.inject { kind := .credit, srcTile := 0, srcEp := 0, dstTile := m.srcTile, dstEp := m.srcEp, words := [], flags := 0, code := 0 }

/-- The hub takes a tile's oldest request of a service, if one is on its way. -/
def State.takeRequest (s : State) (t svc : Nat) : Option (NetMsg × State) :=
  (s.takeNet fun m => m.kind = .request svc && m.srcTile = t).map fun x => (x.1, x.2.hubCredit x.1)

/-- The hub's reply to a request (04_tile_core.md R95). -/
def State.reply (s : State) (t ep : Nat) (words : List Word) : State :=
  s.inject { kind := .reply, srcTile := 0, srcEp := ep, dstTile := t, dstEp := ep, words := words, flags := 0, code := 0 }

/-- A protocol fault of a tile: the tile stops as at an exception with 0x030B and counts as reported (04_tile_core.md
R98; log 34). -/
def State.protocolFault (s : State) (p t : Nat) : State :=
  (if (s.tile t).halted then s else s.haltTile t 1 0x030B).stopReport p 0x030B (some t)

/-- STEP_DONE (04_tile_core.md R98). -/
def execStepDone (t : TileIx) (s : State) : Res :=
  let k : Nat := t.val
  .next (match s.takeRequest k 0, s.partOf k with
    | some (m, s), some p =>
      match (s.part p).step with
      | some r =>
        if (s.part p).failed then s
        else if r.phase ≠ .compute || m.words.isEmpty || (m.words.getD 0 0).toNat ≠ r.n || (s.tile k).tileStep = some r.n then
          s.protocolFault p k
        else
          let f := m.flags.toNat
          ((s.updTile k fun x => { x with tileStep := some r.n }).updHead r.queue fun c => { c with
            sat := c.sat || bit f 0 || bit f 2, nan := c.nan || bit f 1 || bit f 3 }).finishStep p
      | none => if (s.part p).loaded && !(s.part p).failed then s.protocolFault p k else s
    | some (_, s), none => s
    | none, _ => s)

/-- Count a dropped TRACE request in word 7 of a context's record (R355). -/
def State.traceDrop (s : State) (c : Nat) : State :=
  let (s, w) := s.ctxWord c 7
  (s.hubWrite (s.ctxAddr c + 58) (leBytes 4 (min (2 ^ 32 - 1) (bitsOf w 47 16 + 1)))).1

/-- TRACE (04_tile_core.md R97; R355): the request joins the context's trace ring, or is dropped and counted. With TRACE_EN
0 it is neither stored nor counted (log 35). -/
def execTraceReq (t : TileIx) (s : State) : Res :=
  let k : Nat := t.val
  .next (match s.takeRequest k 1, s.partOf k with
    | some (m, s), some p =>
      if !(s.part p).loaded then s
      else
        let c := (s.part p).ctx
        let (s, w5) := s.ctxWord c 5
        let (s, w6) := s.ctxWord c 6
        let (s, w7) := s.ctxWord c 7
        let size := w6 % 2 ^ 17
        let head := (s.part p).traceHead
        if !bit w5 0 then s
        else if !((List.range 16).any fun i => size = 2 ^ (i + 1)) || (head + 1) % size = w7 % 2 ^ 16 % size then s.traceDrop c
        else
          let b := leBytes 8 (tileId k + m.words.length * 2 ^ 11) ++ leBytes 8 (s.part p).stepNo ++
            fit 112 (m.words.flatMap fun w => leBytes 8 w.toNat)
          match s.hubWrite (w5 / 2 ^ 7 % 2 ^ 56 * 2 ^ 7 + 128 * head) b with
          | (s, some _) => s.traceDrop c
          | (s, none) => s.updPart p fun x => { x with traceHead := (head + 1) % size }
    | some (_, s), none => s
    | none, _ => s)

/-- STEP_INFO (04_tile_core.md R97): step number, captured generation, schedule position, which follows the step number. -/
def execStepInfo (t : TileIx) (s : State) : Res :=
  let k : Nat := t.val
  .next (match s.takeRequest k 2, s.partOf k with
    | some (m, s), some p =>
      let x := s.part p
      s.reply k m.srcEp [BitVec.ofNat 64 x.stepNo, BitVec.ofNat 64 x.stepGen, BitVec.ofNat 64 x.stepNo]
    | some (_, s), none => s
    | none, _ => s)

/-! ## The pass (09_parameter_update.md R216, R226, R227) -/

/-- GLINT_PASS_START (09_parameter_update.md R226): the pass that waits longest for a unit takes a free place there. A pass
whose capture still reads does not begin (17_reflection_and_recovery.md R411 step 3). -/
def execGlintPassStart (c : CtrlIx) (s : State) : Res :=
  let u : Nat := c.val
  let order (p : Nat) : Nat := match (s.part p).step with
    | some r => r.order
    | none => 0
  let l := (List.range 32).filter fun p => (s.part p).passUnits.contains (u, false) && !(s.part p).reading
  let placed := ((List.range 32).filter fun p => (s.part p).passUnits.contains (u, true)).length
  let first := l.foldl (fun (best : Option Nat) p => match best with
    | none => some p
    | some b => if order p < order b then some p else some b) none
  .next (match first with
    | none => s
    | some p =>
      if 4 ≤ placed then s
      else (s.updPart p fun x => { x with step := x.step.map fun r => { r with
        units := r.units.map fun y => if y.1 = u then (u, true) else y } }).showGlint)

/-- GLINT_PASS_COMPLETE (09_parameter_update.md R216, R221, R227): the whole pass has been made; which of its codes was
taken first is free (log 1). -/
def execGlintPassComplete (p : PartIx) (s : State) : Res :=
  let k : Nat := p.val
  .next (match (s.part k).step with
    | none => s
    | some r =>
      if r.phase ≠ .pass || r.units.any (fun u => !u.2) then s
      else
        let (s, o) := s.runPass k r.uses r.n
        let s := s.notePass k (r.units.map (·.1)) o
        let s := match o.codes[s.free o.codes.length]? with
          | some e => s.tick.pend k e.2
          | none => s
        let s := s.updHead r.queue fun c => { c with sat := c.sat || !o.sat.isEmpty, nan := c.nan || !o.nan.isEmpty }
        ((s.updPart k fun x => { x with step := some { r with phase := .ended, units := [] } }).endCmd r.queue 0).showGlint)

/-! ## Completion (R363, R364, R371) -/

/-- The STEP of a partition completes (R364, R371): PEND_ERR takes the place of its signal; a step that ends without error
applies the pending switch (08_training_dataflow.md R204) and lets Reflection capture. -/
def State.completeStep (s : State) (p q : Nat) (c : HubCmd) (n : Nat) : State × Nat :=
  let x := s.part p
  let code := if c.code ≠ 0 then c.code else x.pendErr
  let s := if c.code = 0 then s.updPart p fun x => { x with pendErr := 0 } else s
  let (s, fin) := s.complete q { c with code := code } false
  let s := s.updPart p fun x => { x with step := none }
  let s := if fin = 0 && x.switchPend then s.updPart p fun x => { x with gen := (x.gen + 1) % 2 ^ 64, switchPend := false } else s
  let s := s.updPart p fun x => { x with uses := x.setOf x.gen }
  let s := if fin = 0 then s.boundary p n else s
  (s.showSlot p, fin)

end Sys2Proof.Machine
end

