-- ==== Sys2Proof/Machine/Migrate.lean ====
section
/-!
DEFINITION. MIGRATE (11_memory_tiers_and_weights.md R267 to R270).
-/

namespace Sys2Proof.Machine

/-- A plan with a region's placement replaced. -/
def replacePlan (plan : List Region) (r : Region) : List Region := plan.map fun x => if x.region = r.region then r else x

/-- The operands of a MIGRATE: region, tier, CTRL_MASK (R267). -/
def migOp (c : HubCmd) : Nat × Nat × Nat := (bitsOf (c.o 0) 11 0, bitsOf (c.o 0) 12 12, bitsOf (c.o 0) 24 13)

/-- The checks of R267 for a region: its new record, or the code of the refusal. Placements are compared as lists of
controllers (log 39). -/
def State.migCheck (s : State) (p : Nat) (c : HubCmd) : Except Nat Region :=
  let (n, tier, mask) := migOp c
  let plan := (s.part p).image.plan
  match plan.find? fun r => r.region = n with
  | none => .error 0x0124
  | some r =>
    let r' := { r with tier := tier, ctrlMask := mask }
    if c.o 0 / 2 ^ 25 ≠ 0 || n = 0xFFF || !(if tier = 0 then mask < 256 else mask % 256 = 0) ||
        s.regionCtrls p r' = s.regionCtrls p r then .error 0x0124
    else if (s.regionCtrls p r').isEmpty || !((s.regionCtrls p r').all fun c =>
        s.planDemand p (replacePlan plan r') c ≤ s.carveShare p c * 2 ^ 30) then .error 0x0126
    else .ok r'

/-- An accepted MIGRATE or BEACON_LOAD waits: it is marked, and holds back what reaches the hub later (R268, R276). -/
def State.markWait (s : State) (q : Nat) : State := (s.updHead q fun c => { c with phase := 1 }).holdBack q

/-- The edges and bridges on the path of a running MIGRATE (11_memory_tiers_and_weights.md R270). -/
def State.migrateNeeds (s : State) (p : Nat) (c : HubCmd) : List Nat :=
  match (s.part p).image.region (migOp c).1 with
  | none => []
  | some r =>
    let r' := { r with tier := (migOp c).2.1, ctrlMask := (migOp c).2.2 }
    let a := s.regionCtrls p r
    let b := s.regionCtrls p r'
    (List.range (min r.sectorCount (a.length * b.length))).flatMap fun q =>
      (ctrlVia (a.getD (q % a.length) 0) (b.getD (q % b.length) 0)).map (· / 2)

/-- Does something hold a MIGRATE or a BEACON_LOAD back (R268 step 1, R276; 17_reflection_and_recovery.md R413)? -/
def State.moveHeld (s : State) (p : Nat) : Bool :=
  (s.part p).step.isSome || (s.part p).reading || s.snapReads p || s.link.refetch.any (fun r => r.part = p && r.started) ||
    s.ctxRuns (s.part p).ctx fun x => x.op = 0x13

/-- Does a BEACON_LOAD or a refetch of the context that reached the hub before `at'` still wait (R276, R280)? -/
def State.earlierLoad (s : State) (p at' : Nat) : Bool :=
  ((s.ctxCmds (s.part p).ctx).any fun x => x.stage = .waiting && x.phase = 1 && x.op = 0x13 && x.arrived < at') ||
    s.link.refetch.any fun r => r.part = p && !r.started && r.arrived < at'

/-- MIGRATE (R267, R268 steps 1 and 2). A second migration of the same region waits for the first (log 39). -/
def execMigrateCmd (q : QueueIx) (s : State) : Res :=
  let k : Nat := q.val
  .next (s.tryStart k 0x12 fun c s =>
    match s.boundPart (s.qCtx k) with
    | none => s.endCmd k 0x0103
    | some p =>
      match (if c.phase = 1 then .ok () else (s.migCheck p c).map fun _ => ()) with
      | .error e => s.endCmd k e
      | .ok () =>
        if s.moveHeld p || (s.part p).migrating.contains (migOp c).1 || s.earlierLoad p c.arrived then s.markWait k
        else ((s.beginCmd k).updHead k fun c => { c with phase := 2 }).updPart p fun x => { x with
          migrating := x.migrating ++ [(migOp c).1] })

/-- What a copy meets at a source line or its leaf, before the placement switches: an uncorrectable error is counted where it
lies, and a leaf that cannot be verified never enters the target tree (R270; 12_prism_memory_protection.md R291). -/
def State.meetSource (s : State) (place : Nat) (f : LineFault) : State :=
  let c := s.home (place / 4096)
  match f with
  | .ue cw => s.countUe c (place / 4096) (place / 64 % 64) 0 cw.val
  | .tagUe => s.countUe c (place / 4096) (place / 64 % 64) 1 0
  | _ => s.strike c place f

/-- What it leaves at the target: the line, or the four lines of the tag code word, poisoned with 0x0201 (R270;
16_reliability_and_integrity.md R389). -/
def State.meetTarget (s : State) (place : Nat) (f : LineFault) : State :=
  let ln := place / 64
  let c := s.placeCtrl place
  match f with
  | .ue _ => s.poison c ln 0x0201
  | .tagUe => (List.range 4).foldl (fun s i => (s.poison c (ln / 4 * 4 + i) 0x0201).updLine (ln / 4 * 4 + i) fun l =>
      { l with bad := true, tag := some (zeros 8) }) s
  | _ => s

/-- The code with which a MIGRATE errors for what it met. -/
def metCode : LineFault → Nat
  | .ue _ => 0x0201
  | .tagUe => 0x0201
  | .leaf _ => 0x0203
  | .upperBoth _ _ _ => 0x0203
  | _ => 0

/-- The leaves of a region's sectors leave the source trees and enter those of the controllers on which the sectors now lie
(R268 step 3). -/
def State.moveLeaves (s : State) (p : Nat) (r : Region) : State :=
  let lo := ((p + 1) * 2 ^ 64 + r.keyId * 2 ^ 52 + r.base) / 4096
  (s.prism.slots.filter fun e => lo ≤ e.1 && e.1 < lo + r.sectorCount).foldl (fun s e =>
    let c := s.placeCtrl (4096 * e.1)
    ({ s with prism := s.prism.zeroLeaf ((e.2 - 1) % 16) ((e.2 - 1) / 16) } : State).enterLeaf c e.1) s

/-- A region of a partition's plan no longer migrates. -/
def State.settleRegion (s : State) (p n : Nat) : State :=
  s.updPart p fun x => { x with migrating := x.migrating.filter fun k => k ≠ n }

/-- MIGRATE_COMPLETE (R268 steps 3 to 5, R269, R270): the placement switches; what the sectors hold does not change. `met`
names the source lines, by device logical address, at which the copy met an event, a line already poisoned excepted. A copy
whose path has failed leaves the region at its source. -/
def execMigrateComplete (q : QueueIx) (met : List (Word × LineFault)) (s : State) : Res :=
  let k : Nat := q.val
  .next (match s.qHead k, s.boundPart (s.qCtx k) with
    | some c, some p =>
      if !(c.op = 0x12 && c.stage = .running) then s
      else match (s.part p).image.region (migOp c).1 with
        | none => s
        | some r =>
          let r' := { r with tier := (migOp c).2.1, ctrlMask := (migOp c).2.2 }
          if (s.migrateNeeds p c).any s.edgeDown then (s.settleRegion p r.region).endCmd k 0x0304
          else
            let hits := (met.filter fun x => storedFault x.2 && s.keyOf x.1.toNat = r.keyId && r.base ≤ x.1.toNat % 2 ^ 52 &&
              x.1.toNat % 2 ^ 52 < r.base + r.size).map fun x =>
                ((p + 1) * 2 ^ 64 + r.keyId * 2 ^ 52 + x.1.toNat % 2 ^ 52, x.2)
            let hits := hits.filter fun x => (s.line (x.1 / 64)).poison = 0
            let s := hits.foldl (fun s x => s.meetSource x.1 x.2) s
            let s := (s.settleRegion p r.region).updPart p fun x => { x with image := { x.image with plan := replacePlan x.image.plan r' } }
            let s := hits.foldl (fun s x => s.meetTarget x.1 x.2) (s.moveLeaves p r')
            s.endCmd k (((hits.map fun x => metCode x.2).find? fun n => n ≠ 0).getD 0)
    | _, _ => s)

end Sys2Proof.Machine
end

