-- ==== Sys2Proof/Machine/RegWrite.lean ====
section
/-!
DEFINITION. What a write of a register's word leaves in its fields: the access codes and the ranges that the field tables name
(00_scope.md R7 to R9, R12).
-/

namespace Sys2Proof.Machine

/-- The copy of a field that lies at a BAR0 offset. -/
def Fld.copyAt (f : Fld) (off : Nat) : Option (Nat × Nat) :=
  let d := off - f.base
  let i := d / f.s1
  let r := d % f.s1
  if f.base ≤ off && i < f.c1 then
    if f.s2 = 0 then (if r = 0 then some (i, 0) else none)
    else if r % f.s2 = 0 && r / f.s2 < f.c2 then some (i, r / f.s2) else none
  else none

/-- The fields of the register at an offset, each with its copy. -/
def regAt (off : Nat) : List (Fld × Nat × Nat) := regTable.filterMap fun f => (f.copyAt off).map fun c => (f, c)

/-- The values that a field takes where its row names a range: a write outside it leaves the field unchanged
(09_parameter_update.md R230, 10_links_and_collectives.md R261, 11_memory_tiers_and_weights.md R281, R282,
13_tenants_and_joint_training.md R333, 16_reliability_and_integrity.md R405, 18_power_clocks_and_reset.md R447). -/
def Fld.takes (f : Fld) (v : Nat) : Bool :=
  if f = Reg.GLINT_CTRL_SHARE then 1 ≤ v && v ≤ 8
  else if f = Reg.COLL_CTRL_TIMEOUT_MS || f = Reg.GATE_g_CTRL_TIMEOUT_MS then v ≠ 0
  else if f = Reg.BEACON_CTRL_HASH_INTERVAL then 60 ≤ v
  else if f = Reg.BEACON_CTRL_HASH_RATE then 1 ≤ v && v ≤ 1000
  else if f = Reg.BEACON_PACK_COUNT_ENTRIES then v ≤ 4096
  else if f = Reg.SCRUB_CTRL_FLOOD_RATE then 1 ≤ v && v ≤ 10000
  else if f = Reg.SCRUB_CTRL_GLIMMER_MAX then 1 ≤ v && v ≤ 16000
  else if f = Reg.PWR_LIMIT_SUST_W then 1000 ≤ v && v ≤ 2800
  else true

/-- What a write of `v` leaves in a field that holds `old` under its access code; `locked` says that its lock bit is 1
(00_scope.md R7). A WO field's actions have rows of their own. -/
def Fld.written (f : Fld) (locked : Bool) (old v : Nat) : Nat :=
  match f.access with
  | .ro | .wo => old
  | .rw => if f.takes v then v else old
  | .w1c => ofBits f.width fun i => bit old i && !bit v i
  | .w1s => ofBits f.width fun i => bit old i || bit v i
  | .rwl => if locked then old else v

/-- The fields of a port's Ethernet rings (10_links_and_collectives.md R261). -/
def ethFields : List Fld :=
  [Reg.ETH_TX_RING_SIZE_LOG2, Reg.ETH_TX_RING_EN, Reg.ETH_TX_RING_ADDR, Reg.ETH_TX_IDX_HEAD, Reg.ETH_TX_IDX_TAIL,
   Reg.ETH_RX_RING_SIZE_LOG2, Reg.ETH_RX_RING_EN, Reg.ETH_RX_RING_ADDR, Reg.ETH_RX_IDX_HEAD, Reg.ETH_RX_IDX_TAIL]

/-- Does a field keep its reset value whatever is written: a ring's, on a port that is not in Ethernet mode
(10_links_and_collectives.md R261)? -/
def State.shut (s : State) (f : Fld) (i : Nat) : Bool := ethFields.contains f && s.getF Reg.PORT_STAT_MODE i 0 ≠ 2

/-- Write one field's part of a register's 64 bits. -/
def State.writeFld (s : State) (locked : Bool) (w : Nat) (x : Fld × Nat × Nat) : State :=
  if s.shut x.1 x.2.1 then s
  else s.setF x.1 x.2.1 x.2.2 (x.1.written locked (s.getF x.1 x.2.1 x.2.2) (bitsOf w x.1.hi x.1.lo))

/-- A write of a word of BAR0: every field of its register takes its part under its access code. -/
def State.writeWord (s : State) (off w : Nat) : State :=
  let locked : Bool := s.get Reg.CTX_TABLE_LOCK = 1
  (regAt off).foldl (fun s x => s.writeFld locked w x) s

/-- Set every copy of each field of a list to zero. -/
def State.clearAll (s : State) (l : List Fld) : State := l.foldl (fun s f => s.setAllF f 0) s

/-- Set copy `i` of each field of a list to zero. -/
def State.clearCopy (s : State) (i : Nat) (l : List Fld) : State := l.foldl (fun s f => s.setF f i 0 0) s

/-! ## Clearing counters (02_fabric.md R49) -/

/-- The counters of a port (10_links_and_collectives.md R261). -/
def portCounters : List Fld :=
  [Reg.PORT_TX_GROUPS, Reg.PORT_RX_GROUPS, Reg.PORT_RETRY, Reg.PORT_TAG_FAIL, Reg.PORT_FEC_CORR, Reg.PORT_FEC_UNCORR,
   Reg.PORT_RX_DROP]

/-- The counters of which a CNT_CLEAR bit clears every copy (02_fabric.md R50; 11_memory_tiers_and_weights.md R282;
12_prism_memory_protection.md R307; 16_reliability_and_integrity.md R405, R406). -/
def clearsAll (f : Fld) : List Fld :=
  if f = Reg.FAB_CTRL_CNT_CLEAR then [Reg.FAB_EDGE_FLITS, Reg.FAB_EDGE_REPLAY]
  else if f = Reg.BEACON_CTRL_CNT_CLEAR then
    [Reg.BEACON_SHARDS_IN, Reg.BEACON_SHARDS_SERVED, Reg.BEACON_DIGEST_FAIL, Reg.BEACON_TIMEOUTS, Reg.BEACON_POISONED]
  else if f = Reg.PRISM_CFG_CNT_CLEAR then
    [Reg.PRISM_n_TAG_FAIL_COUNT, Reg.PRISM_n_PARTIAL_COUNT, Reg.PRISM_n_REFRESH_COUNT, Reg.PRISM_n_CACHE_HIT_COUNT,
     Reg.PRISM_n_CACHE_MISS_COUNT]
  else if f = Reg.SCRUB_CTRL_CNT_CLEAR then
    [Reg.ECC_CE_COUNT_COUNT, Reg.ECC_UE_COUNT_COUNT, Reg.POISON_COUNT_COUNT, Reg.TREE_STAT_UPPER_REPAIRS,
     Reg.TREE_STAT_LEAVES_LOST, Reg.SRAM_ERR_CE, Reg.SRAM_ERR_UE]
  else []

/-- The counters of which a CNT_CLEAR bit clears the copy of its own number (02_fabric.md R51; 09_parameter_update.md R230;
10_links_and_collectives.md R261). -/
def clearsCopy (f : Fld) : List Fld :=
  if f = Reg.PART_FAB_CTRL_CNT_CLEAR then
    [Reg.PART_STREAM_FLITS, Reg.PART_STREAM_STALL, Reg.PART_MSG_PKTS, Reg.PART_MSG_WAIT, Reg.PART_MEM_LINES,
     Reg.PART_EDGE_FLITS, Reg.PART_WATCH_STALL, Reg.PART_BND_VIOL]
  else if f = Reg.GLINT_CTRL_CNT_CLEAR then [Reg.GLINT_ELEMS_COUNT, Reg.GLINT_BYTES_COUNT]
  else if f = Reg.PORT_CTRL_CNT_CLEAR then portCounters
  else []

/-- What a 1 written to copy `i` of a CNT_CLEAR bit clears. -/
def State.cntClear (s : State) (f : Fld) (i : Nat) : State := (s.clearAll (clearsAll f)).clearCopy i (clearsCopy f)

/-- The counters that a word written at an offset of BAR0 clears. -/
def State.clearWord (s : State) (off w : Nat) : State :=
  (regAt off).foldl (fun s x => if bitsOf w x.1.hi x.1.lo = 0 then s else s.cntClear x.1 x.2.1) s

end Sys2Proof.Machine
end

