-- ==== Sys2Proof/Machine/Beacon.lean ====
section
/-!
DEFINITION. Beacon: weight packs, their loading, their holders and the hasher (11_memory_tiers_and_weights.md R271 to R282).
-/

namespace Sys2Proof.Machine

/-! ## Registers (R282) -/

/-- Count on a Beacon counter while CNT_EN is 1. -/
def State.beaconCount (s : State) (f : Fld) : State := if s.get Reg.BEACON_CTRL_CNT_EN = 1 then s.addF f 0 0 1 else s

/-- A code of R281 is raised for a shard of a context. -/
def State.beaconErr (s : State) (ctx shard code : Nat) : State :=
  ((s.set Reg.BEACON_STAT_LAST_ERR code).set Reg.BEACON_LAST_SHARD shard).set Reg.BEACON_LAST_CTX ctx

/-! ## Where a load is kept -/

/-- A load: that of a queue's BEACON_LOAD, or the refetch of a partition. -/
inductive LoadAt where
  | cmd (q : Nat)
  | refetch (p : Nat)
  deriving DecidableEq, Repr

/-- The load that runs there. -/
def State.loadAt (s : State) : LoadAt → Option BeaconLoad
  | .cmd q => match s.qHead q with
    | some c => if c.op = 0x13 && c.stage = .running then c.load else none
    | none => none
  | .refetch p => (s.link.refetch.find? fun r => r.part = p && r.started).map (·.load)

/-- Change it. -/
def State.updLoad (s : State) (l : LoadAt) (f : BeaconLoad → BeaconLoad) : State :=
  match l with
  | .cmd q => s.updHead q fun c => { c with load := c.load.map f }
  | .refetch p => { s with link := { s.link with refetch := s.link.refetch.map fun r =>
      if r.part = p && r.started then { r with load := f r.load } else r } }

/-- Its partition. -/
def State.loadPart (s : State) (l : LoadAt) : Nat :=
  match l with
  | .cmd q => (s.boundPart (s.qCtx q)).getD 0
  | .refetch p => p

/-- The loads that may run. -/
def allLoads : List LoadAt := ((List.range 32).map LoadAt.refetch) ++ (List.range 4096).map LoadAt.cmd

/-- The load with a request outstanding. -/
def State.loadOfReq (s : State) (num : Nat) : Option (LoadAt × BeaconLoad × ShardReq) :=
  allLoads.findSome? fun l => (s.loadAt l).bind fun x => (x.reqs.find? fun r => r.num = num).map fun r => (l, x, r)

/-! ## Requests (R274, R276, R277) -/

/-- The first holder from a position on that may still be asked: not skipped, and its peer OPEN. -/
def State.nextHolder (s : State) (x : BeaconLoad) (from' : Nat) : Option Nat :=
  (List.range x.holders.length).find? fun h => from' ≤ h && !x.skip.contains h && match (x.holders.getD h (none, 0)).1 with
    | some n => s.peerState n = 2
    | none => true

/-- Request a range of the pack from a holder. -/
def State.sendReq (s : State) (l : LoadAt) (x : BeaconLoad) (shard : Option Nat) (off len h : Nat) : State :=
  let (s, num) := s.newTag
  let s := s.updLoad l fun y => { y with reqs := y.reqs ++ [{ num := num, shard := shard, off := off, len := len, holder := h }] }
  match (x.holders.getD h (none, 0)).1 with
  | some n => s.sendMsg n 0x20 num off len x.pack
  | none => s

/-- The range of the pack that holds a shard, in whole units of 4,096 B. -/
def LoadShard.span (x : LoadShard) : Nat × Nat := (x.pos, roundUp x.len 4096)

/-! ## Ends (R276 step 5, R278, R280) -/

/-- A load ends with a code for a shard index: its requests are abandoned, nothing is registered and steps resume. -/
def State.failLoad (s : State) (l : LoadAt) (code shard : Nat) : State :=
  let p := s.loadPart l
  let s := s.beaconErr (s.part p).ctx shard code
  match l with
  | .cmd q => ((s.updHead q fun c => { c with info := shard }).endCmd q code).showLoads
  | .refetch p => { s with link := { s.link with refetch := s.link.refetch.filter fun r => !(r.part = p && r.started) } }.pend p code

/-- Write the digests of the PARAM = 0 tensors and register their shards (R276 step 5, R279): the code of a write that
fails, or 0. -/
def State.register (s : State) (p : Nat) (x : BeaconLoad) : State × Nat :=
  let j := (s.part p).image
  match j.region x.digestRegion with
  | none => (s, 0)
  | some r =>
    if x.digestRegion = 0xFFF then (s, 0)
    else
      let plain := x.shards.filter fun h => match j.tensor h.tensor with
        | some t => !t.param
        | none => false
      match s.writeMem p 0 (s.part p).uses (r.keyId * 2 ^ 52 + r.base) (plain.flatMap (·.digest)) with
      | (s, some e) => (s, e)
      | (s, none) =>
        let keep := s.link.shards.filter fun g => !(g.part = p && plain.any fun h => h.tensor = g.shard.tensor)
        let base := s.link.nextTag
        let new := plain.zipIdx.map fun h =>
          { id := base + h.2, part := p, shard := h.1, region := x.digestRegion, dig := 64 * h.2, holders := x.holders,
            pack := x.pack : RegShard }
        ({ s with link := { s.link with shards := keep ++ new, nextTag := base + new.length } }, 0)

/-- A load whose last shard has completed ends (R276 step 5, R280). -/
def State.endLoad (s : State) (l : LoadAt) (x : BeaconLoad) : State :=
  match l with
  | .refetch p => { s with link := { s.link with refetch := s.link.refetch.filter fun r => !(r.part = p && r.started) } }
  | .cmd q =>
    match s.register (s.loadPart l) x with
    | (s, 0) => (s.endCmd q 0).showLoads
    | (s, e) => s.failLoad l e 0xFFFFFFFF

/-- Go on with a load: up to 64 requests outstanding, in shard order; it ends when no shard is left, or when a shard has no
holder. -/
def State.pump (s : State) (l : LoadAt) : Nat → State
  | 0 => s
  | n + 1 =>
    match s.loadAt l with
    | none => s
    | some x =>
      if !x.index then s
      else if x.left.isEmpty then s.endLoad l x
      else if 64 ≤ x.reqs.length then s
      else match x.shards[x.next]? with
        | none => s
        | some h =>
          match s.nextHolder x 0 with
          | none => s.failLoad l 0x0207 h.idx
          | some k =>
            let s := s.sendReq l x (some x.next) h.span.1 h.span.2 k
            (s.updLoad l fun y => { y with next := y.next + 1 }).pump l n

/-- A peer has departed: every load skips the holders it stands for from now on (R277; 10_links_and_collectives.md R251). -/
def State.skipPeer (s : State) (n : Nat) : State :=
  (allLoads.filter fun l => (s.loadAt l).isSome).foldl (fun s l => s.updLoad l fun y => { y with
    skip := y.skip ++ (List.range y.holders.length).filter fun h => (y.holders.getD h (none, 0)).1 = some n }) s

/-- Go on with a load as far as it goes. -/
def State.goOn (s : State) (l : LoadAt) : State := s.pump l 65

/-- Ask the first usable holder from a position for the index, whose first unit tells how long it is (log 40). -/
def State.askIndex (s : State) (l : LoadAt) (from' : Nat) : State :=
  match s.loadAt l with
  | none => s
  | some x => match s.nextHolder x from' with
    | none => s.failLoad l 0x0205 0xFFFFFFFF
    | some h => (s.updLoad l fun y => { y with buf := [], dataOff := 0, reqs := [] }).sendReq l x none 0 4096 h

/-- A request has failed at its holder: the next one is asked (R277). -/
def State.failReq (s : State) (l : LoadAt) (r : ShardReq) : State :=
  let s := s.updLoad l fun y => { y with reqs := y.reqs.filter fun z => z.num ≠ r.num }
  match r.shard, s.loadAt l with
  | none, _ => s.askIndex l (r.holder + 1)
  | some k, some x => match s.nextHolder x (r.holder + 1) with
    | some h => s.sendReq l x (some k) r.off r.len h
    | none => s.failLoad l 0x0207 ((x.shards[k]?.map (·.idx)).getD 0)
  | some _, none => s

/-! ## The index (R271, R276 step 2) -/

/-- Open sealed units of a pack from unit `j` on. -/
def openUnits (key j : Nat) (b : Bytes) : Bytes :=
  (chunks 4096 b).zipIdx.flatMap fun u => Config.xtsDecrypt (key % 2 ^ 512) (2 ^ 63 + j + u.2) u.1

/-- The key ID under which the first unit of a pack opens: among those of the image's tensors with DIGESTS 1 (log 40). -/
def State.packKey (s : State) (p : Nat) (first : Bytes) : Option Nat :=
  let j := (s.part p).image
  let keys := ((j.tensors.filter (·.digests)).filterMap fun t => (j.region t.region).map (·.keyId)).dedup
  keys.find? fun k => (s.keyEntry k).state = .valid && rd (openUnits (s.keyEntry k).material 0 first) 0 4 = 0x50573445 &&
    rd (openUnits (s.keyEntry k).material 0 first) 4 2 = 1

/-- The shards an index lists, in directory order and shard order, with their digests. -/
def indexShards (b : Bytes) : List LoadShard :=
  let n := rd b 8 4
  let dig := roundUp (64 + 32 * n) 64
  let l := (List.range n).flatMap fun i =>
    let e := 64 + 32 * i
    let size := rd b (e + 24) 8
    (List.range (ceilDiv size 4194304)).map fun k =>
      (rd b e 2, 4194304 * k, min 4194304 (size - 4194304 * k), rd b (e + 16) 8 + 4194304 * k)
  l.zipIdx.map fun x =>
    { idx := x.2, tensor := x.1.1, off := x.1.2.1, len := x.1.2.2.1, pos := x.1.2.2.2, digest := slice b (dig + 64 * x.2) 64 }

/-- Is an opened index accepted under a key ID (R276 step 2)? -/
def State.indexOk (s : State) (p key : Nat) (x : BeaconLoad) (b : Bytes) : Bool :=
  let j := (s.part p).image
  let n := rd b 8 4
  let entry (i : Nat) : Option Tensor :=
    let e := 64 + 32 * i
    (j.tensor (rd b e 2)).filter fun t => t.digests && t.format = rd b (e + 2) 1 && t.layout = rd b (e + 3) 1 &&
      t.rows = rd b (e + 4) 4 && t.cols = rd b (e + 8) 4 && t.footprint = rd b (e + 24) 8 &&
      (match j.region t.region with
        | some r => r.keyId = key
        | none => false)
  let plain := (indexShards b).filter fun h => match j.tensor h.tensor with
    | some t => !t.param
    | none => false
  rd b 0 4 = 0x50573445 && rd b 4 2 = 1 && ((List.range n).all fun i => (entry i).isSome) &&
    (x.digestRegion = 0xFFF || (match j.region x.digestRegion with
      | some r => r.keyId = key && 64 * plain.length ≤ r.size
      | none => false))

/-- A part of the index has arrived: the next part is asked of the same holder, or the whole is opened and checked. -/
def State.indexPart (s : State) (l : LoadAt) (x : BeaconLoad) (r : ShardReq) (b : Bytes) : State :=
  let p := s.loadPart l
  let buf := x.buf ++ b
  match s.packKey p (buf.take 4096) with
  | none => s.failReq l r
  | some k =>
    let key := (s.keyEntry k).material
    let head := openUnits key 0 (buf.take 4096)
    let off := rd head 48 8
    let want := roundUp off 4096
    if buf.length < want then
      let s := s.updLoad l fun y => { y with buf := buf, dataOff := off, reqs := [] }
      s.sendReq l x none buf.length (min 4194304 (want - buf.length)) r.holder
    else
      let idx := (openUnits key 0 (buf.take want)).take off
      if !s.indexOk p k x idx then s.failReq l r
      else
        let sh := indexShards idx
        (s.updLoad l fun y => { y with buf := [], dataOff := off, index := true, shards := sh, reqs := [], next := 0,
                                       left := List.range sh.length }).goOn l

/-! ## Shards (R276 steps 3 and 4) -/

/-- Clear the poison of a shard's lines before a refetch writes it (R280). -/
def State.clearShard (s : State) (p a n : Nat) : State :=
  (pieces a n).foldl (fun s q => match s.resolve p (s.part p).uses q.1 with
    | some (_, pl) =>
      let key := (s.keyEntry (s.keyOf q.1)).material
      if (s.line (pl / 64)).poison = 0x0205 then s.updLine (pl / 64) fun l => { l with poison := 0 } else s
    | none => s) s

/-- A shard has arrived: opened, written to its tensor and checked against its digest. A refetch writes what has matched
(R280; log 41). -/
def State.shardPart (s : State) (l : LoadAt) (x : BeaconLoad) (r : ShardReq) (k : Nat) (b : Bytes) : State :=
  let p := s.loadPart l
  let j := (s.part p).image
  match x.shards[k]? with
  | none => s
  | some h =>
    match j.tensor h.tensor with
    | none => s.failReq l r
    | some t =>
      let a := j.addrOf t + h.off
      let plain := (openUnits (s.keyEntry (s.keyOf a)).material (h.pos / 4096) b).take h.len
      let ok := decide (plain.length = h.len) && Config.sha512 plain = h.digest
      let refetch := match l with
        | .refetch _ => true
        | .cmd _ => false
      let s := if refetch && ok then s.clearShard p a h.len else s
      match (if refetch && !ok then (s, none) else s.writeMem p 0 (s.part p).uses a plain) with
      | (s, some e) => s.failLoad l e h.idx
      | (s, none) =>
        if !ok then (s.beaconCount Reg.BEACON_DIGEST_FAIL).failReq l r
        else
          let s := s.updLoad l fun y => { y with reqs := y.reqs.filter (fun z => z.num ≠ r.num),
                                                 left := y.left.filter fun z => z ≠ k }
          (s.beaconCount Reg.BEACON_SHARDS_IN).goOn l

/-- The answer to a request: its data, or a status other than 0. -/
def State.answer (s : State) (num status : Nat) (b : Bytes) : State :=
  match s.loadOfReq num with
  | none => s
  | some (l, x, r) =>
    if status ≠ 0 || b.length ≠ r.len then s.failReq l r
    else match r.shard with
      | none => s.indexPart l x r b
      | some k => s.shardPart l x r k b

/-- SHARD_DATA (R274, R276, R277): an answer on a port; or, without a port, the data that a holder in the Steward region
has for a request. A number that is not outstanding is discarded. -/
def execShardData (port : Option PortIx) (num : Nat) (s : State) : Res :=
  .next (match port with
    | some p => s.onMsg p.val 0x21 fun n m s => match s.loadOfReq m.tag with
        | some (_, x, r) => if (x.holders.getD r.holder (none, 0)).1 = some n then s.answer m.tag (m.arg1 % 2 ^ 16) m.payload else s
        | none => s
    | none => match s.loadOfReq num with
      | none => s
      | some (_, x, r) => match x.holders.getD r.holder (none, 0) with
        | (some _, _) => s
        | (none, a) =>
          if !s.inSteward (a + r.off) r.len then s.answer num 0x0207 []
          else match s.hubRead (a + r.off) r.len with
            | (s, .error _) => s.answer num 0x0207 []
            | (s, .ok b) => s.answer num 0 b)

/-- SHARD_TIMEOUT (R277): the shard fails at its holder, which is skipped from then on. -/
def execShardTimeout (num : Nat) (s : State) : Res :=
  .next (match s.loadOfReq num with
    | none => s
    | some (l, _, r) =>
      ((s.beaconCount Reg.BEACON_TIMEOUTS).updLoad l fun y => { y with skip := y.skip ++ [r.holder] }).failReq l r)

/-! ## BEACON_LOAD (R275, R276) -/

/-- The holders that a BEACON_LOAD lists. -/
def loadHolders (c : HubCmd) : List (Option Nat × Nat) :=
  (List.range (c.o 0 % 8)).map fun h =>
    let w := c.o (3 + h)
    if bit w 0 then (none, w / 512 * 512) else (some (bitsOf w 8 1), 0)

/-- The checks of R275. A KIND 1 address that is not a multiple of 4,096 is taken as outside the region (log 40). -/
def State.loadOk (s : State) (p : Nat) (c : HubCmd) : Bool :=
  let h := c.o 0 % 8
  let dr := bitsOf (c.o 0) 14 3
  1 ≤ h && h ≤ 4 && c.o 0 / 2 ^ 15 = 0 && (dr = 0xFFF || ((s.part p).image.region dr).isSome) &&
    (List.range h).all fun i =>
      let w := c.o (3 + i)
      if bit w 0 then aligned (w / 512 * 512) 4096 && s.inSteward (w / 512 * 512) 1
      else w / 512 = 0 && s.peerState (bitsOf w 8 1) = 2

/-- Does something hold a BEACON_LOAD or a refetch back: what holds a MIGRATE, a MIGRATE that runs, or one of them that reached
the hub earlier and still waits (R268 step 1, R276, R280)? -/
def State.loadHeld (s : State) (p arrived : Nat) : Bool :=
  s.moveHeld p || s.ctxRuns (s.part p).ctx (fun x => x.op = 0x12) || s.movesWait p arrived

/-- BEACON_LOAD (R275, R276 steps 1 and 2). -/
def execBeaconLoad (q : QueueIx) (s : State) : Res :=
  let k : Nat := q.val
  .next (s.tryStart k 0x13 fun c s =>
    match s.boundPart (s.qCtx k) with
    | none => s.endCmd k 0x0103
    | some p =>
      if c.phase ≠ 1 && !s.loadOk p c then s.endCmd k 0x0125
      else if s.loadHeld p c.arrived then s.markWait k
      else
        let x : BeaconLoad := {
          holders := loadHolders c, pack := leBytes 8 (c.o 1) ++ leBytes 8 (c.o 2), digestRegion := bitsOf (c.o 0) 14 3,
          skip := [], buf := [], dataOff := 0, index := false, shards := [], reqs := [], next := 0, left := [] }
        (((s.beginCmd k).updHead k fun c => { c with phase := 2, load := some x }).showLoads).askIndex (.cmd k) 0)

/-! ## Holding packs (R273, R274) -/

/-- The pack-table entry of a pack: address and length. -/
def State.packEntry (s : State) (id : Bytes) : State × Option (Nat × Nat) :=
  let a := s.get Reg.BEACON_PACK_TABLE_ADDR * 32
  (List.range (s.get Reg.BEACON_PACK_COUNT_ENTRIES)).foldl (fun (acc : State × Option (Nat × Nat)) i =>
    if acc.2.isSome then acc
    else match acc.1.hubRead (a + 32 * i) 32 with
      | (s, .ok b) => (s, if slice b 0 16 = id then some (rd b 16 8, rd b 24 8) else none)
      | (s, .error _) => (s, none)) (s, none)

/-- The answer to a SHARD_REQ that cannot be served (R274). -/
def State.noShard (s : State) (n : Nat) (m : LinkMsg) : State := s.sendMsg n 0x21 m.tag m.arg0 0x0207 []

/-- SHARD_REQ (R274). -/
def execShardReq (port : PortIx) (s : State) : Res :=
  .next (s.onMsg port.val 0x20 fun n m s =>
    if s.get Reg.BEACON_PACK_TABLE_EN = 0 then s.noShard n m
    else match s.packEntry (fit 16 m.payload) with
      | (s, none) => s.noShard n m
      | (s, some (a, len)) =>
        if len < m.arg0 + m.arg1 || !s.inSteward (a + m.arg0) m.arg1 || m.arg1 = 0 || 4194304 < m.arg1 then s.noShard n m
        else match s.hubRead (a + m.arg0) m.arg1 with
          | (s, .error _) => s.noShard n m
          | (s, .ok b) => (s.sendMsg n 0x21 m.tag m.arg0 0 b).beaconCount Reg.BEACON_SHARDS_SERVED)

/-! ## The hasher (R279, R280) -/

/-- HASH_LAP_START (R279). -/
def execHashLapStart (s : State) : Res :=
  .next (
    if s.get Reg.BEACON_CTRL_HASH_EN = 0 || s.link.lap.isSome then s
    else
      let ids := s.link.shards.map (·.id)
      let s := { s with link := { s.link with lap := if ids.isEmpty then none else some ids } }
      s.set Reg.BEACON_STAT_HASHING (if ids.isEmpty then 0 else 1))

/-- The lap has nothing left to visit: it ends; how long it took is free (log 1). -/
def State.endLap (s : State) : State :=
  match s.link.lap with
  | some [] => (({ s with link := { s.link with lap := none } }.set Reg.BEACON_STAT_HASHING 0).set Reg.BEACON_STAT_LAP_S
      (s.free (2 ^ 32))).tick
  | _ => s

/-- A shard fails its re-hash: every line is poisoned, the next fence errors, and a refetch waits (R280). A line that is
poisoned already keeps its code (log 121). -/
def State.poisonShard (s : State) (g : RegShard) (a : Nat) : State :=
  let s := (pieces a g.shard.len).foldl (fun s q => match s.resolve g.part (s.part g.part).uses q.1 with
    | some (c, pl) => if (s.line (pl / 64)).poison = 0 then s.poison c (pl / 64) 0x0205 else s
    | none => s) s
  let s := ((s.beaconCount Reg.BEACON_POISONED).beaconErr (s.part g.part).ctx g.shard.idx 0x0205).pend g.part 0x0205
  if s.get Reg.BEACON_CTRL_AUTO_REFETCH = 0 then s
  else
    let n := s.hub.clock + 1
    let x : BeaconLoad := {
      holders := g.holders, pack := g.pack, digestRegion := 0xFFF, skip := [], buf := [], dataOff := 0, index := true,
      shards := [g.shard], reqs := [], next := 0, left := [0] }
    { s with hub := { s.hub with clock := n },
             link := { s.link with refetch := s.link.refetch ++ [{ part := g.part, load := x, started := false, arrived := n }] } }

/-- A shard leaves the lap. -/
def State.dropShard (s : State) (ids : List Nat) (id : Nat) : State :=
  { s with link := { s.link with lap := some (ids.filter fun i => i ≠ id) } }.endLap

/-- What the lines of a range meet as they are read: each event that the command lists, by device logical address
(16_reliability_and_integrity.md R389, R394). -/
def State.meetRange (s : State) (p : Nat) (uses : List (Nat × Nat)) (a n : Nat) (met : List (Word × LineFault)) : State :=
  (met.filter fun x => a / 64 * 64 ≤ x.1.toNat && x.1.toNat < a + n && (storedFault x.2 || x.2 = .altered)).foldl (fun s x =>
    match s.resolve p uses x.1.toNat with
    | some (c, pl) => s.strike c pl x.2
    | none => s) s

/-- A shard is read at its address and compared with the digest at another (R280). -/
def State.rehash (s : State) (g : RegShard) (a d : Nat) (met : List (Word × LineFault)) : State :=
  let uses := (s.part g.part).uses
  let s := (s.meetRange g.part uses a g.shard.len met).meetRange g.part uses d 64 met
  match s.readMem g.part 0 uses a g.shard.len with
  | (s, .error _) => s.poisonShard g a
  | (s, .ok b) =>
    match s.readMem g.part 0 uses d 64 with
    | (s, .error _) => s.poisonShard g a
    | (s, .ok x) => if Config.sha512 b = x then s else (s.beaconCount Reg.BEACON_DIGEST_FAIL).poisonShard g a

/-- REHASH_SHARD (R279, R280): the hasher visits one of the shards left in its lap; a shard whose context runs a MIGRATE or
a BEACON_LOAD is left for later. -/
def execRehashShard (visit : ShardVisit) (s : State) : Res :=
  .next (match s.link.lap with
    | none => s
    | some ids =>
      let id := ids.getD (visit.index % max 1 ids.length) 0
      match s.link.shards.find? fun g => g.id = id with
      | none => s.dropShard ids id
      | some g =>
        if s.movesRun g.part then s
        else
          let j := (s.part g.part).image
          match j.tensor g.shard.tensor, j.region g.region with
          | some t, some r =>
            (s.dropShard ids id).rehash g (j.addrOf t + g.shard.off) (r.keyId * 2 ^ 52 + r.base + g.dig) visit.met
          | _, _ => s.dropShard ids id)

/-- SHARD_REFETCH (R280): the oldest refetch of a partition that waits starts, under the conditions of a BEACON_LOAD. -/
def execShardRefetch (p : PartIx) (s : State) : Res :=
  let k : Nat := p.val
  .next (
    match firstIdx (fun r : Refetch => r.part = k && !r.started) s.link.refetch with
      | none => s
      | some i =>
        let l := s.link.refetch
        match l[i]? with
        | none => s
        | some r =>
          if s.loadHeld k r.arrived || !(s.part k).loaded then s else { s with link := { s.link with refetch := setAt l i { r with started := true } } }.goOn (.refetch k))

/-- BEACON_CNT_CLEAR (R282; 02_fabric.md R49). -/
def execBeaconCntClear (s : State) : Res := .next (s.cxlIo fun s => s.cntClear Reg.BEACON_CTRL_CNT_CLEAR 0)

end Sys2Proof.Machine
end

