-- ==== Sys2Proof/Machine/Cube.lean ====
section
/-!
DEFINITION. The start and the completion of unit commands, and the commands of the cube array (04_tile_core.md R99 to R101;
05_matrix_array.md R141, R144). A command reserves its draws when it starts; its results are written when it is done, and a
command whose output goes to a stream completes when the first slot has accepted the last of it (logs 15, 16).
-/

namespace Sys2Proof.Machine

/-! ## What the units share -/

/-- Bytes as flits, the last one padded and marked when LAST is set (04_tile_core.md R96). -/
def toFlits (b : Bytes) (last : Bool) : List Flit :=
  let n := ceilDiv b.length 64
  (List.range n).map fun i => { data := fit 64 (slice b (64 * i) 64), last := last && i + 1 = n }

/-- A command starts: it reserves `blocks` blocks of an RNG stream, takes a number for its free values, and takes what its rings
hold for it (04_tile_core.md R96, R99; 06_accumulation_and_numerics.md R169; log 1). -/
def State.startUnit (s : State) (t : Nat) (u : UnitKind) (c : UCmd) (stream blocks : Nat) : State :=
  let n := s.fresh
  ((((s.updTile t fun x =>
    let (x, c) := if blocks = 0 then (x, c) else x.reserve stream blocks c
    (x.setQueue u (updCmd (x.queue u) c.seq fun _ => { c with phase := .running, mark := n })).drain).tick).tick).tick).tick

/-- Set a unit's flags (06_accumulation_and_numerics.md R164, R165). The mover has none. -/
def Tile.setFlags (x : Tile) (u : UnitKind) (sat nan : Bool) : Tile :=
  match u with
  | .cube => { x with mxSat := x.mxSat || sat, mxNan := x.mxNan || nan }
  | .vector => { x with vxSat := x.vxSat || sat, vxNan := x.vxNan || nan }
  | .mover => x

/-- The code of the trap that a command's flags raise at its completion (04_tile_core.md R109; 05_matrix_array.md R144). -/
def trapCode (u : UnitKind) (d : List Word) (sat nan : Bool) : Option Nat :=
  match u with
  | .cube => if nan && db d 0 28 then some 0x0502 else if sat && db d 0 27 then some 0x0501 else none
  | .vector => if nan && db d 0 29 then some 0x0504 else if sat && db d 0 28 then some 0x0503 else none
  | .mover => none

/-- A command is done: its flags are set, its unit's completion counter advances in issue order, and it may trap
(04_tile_core.md R100, R109). -/
def State.closeUnit (s : State) (t : Nat) (u : UnitKind) (c : UCmd) (sat nan : Bool) : State :=
  let s := s.updTile t fun x =>
    let x := x.setFlags u sat nan
    (x.setQueue u (setPhase (x.queue u) c.seq .finished)).retire u
  match trapCode u c.desc sat nan with
  | some code => s.tileExc t code
  | none => s

/-- Flits of a command join those that its stream has not injected; the command completes when the first slot has accepted the
last of them (04_tile_core.md R96, R100; 05_matrix_array.md R139; log 16). -/
def State.present (s : State) (t p ch : Nat) (u : UnitKind) (c : UCmd) (flits : List Flit) (sat nan : Bool) : State :=
  let id := ((s.tile t).ep ch).stream
  let st := s.stream p id
  let o : UnitOut := { upto := st.taken + st.src.length + flits.length, sat := sat, nan := nan }
  (s.updStream p id fun st => { st with src := st.src ++ flits }).updTile t fun x =>
    x.setQueue u (updCmd (x.queue u) c.seq fun c => { c with phase := .sending, out := some o })

/-- The results of a command are in place, but for the bytes that its SOUT endpoint gets. -/
def State.endUnit (s : State) (t : Nat) (u : UnitKind) (c : UCmd) (strm : Bytes) (last sat nan : Bool) : State :=
  match soutOf u c.desc, s.partOf t with
  | some ch, some p =>
    if strm.isEmpty then s.closeUnit t u c sat nan else s.present t p ch u c (toFlits strm last) sat nan
  | _, _ => s.closeUnit t u c sat nan

/-- Has the first slot accepted all that a command has presented (04_tile_core.md R100)? -/
def State.accepted (s : State) (t : Nat) (u : UnitKind) (c : UCmd) : Bool :=
  match soutOf u c.desc, s.partOf t, c.out with
  | some ch, some p, some o => o.upto ≤ (s.stream p ((s.tile t).ep ch).stream).taken
  | _, _, _ => true

/-- A command whose output was waiting for its stream completes once all of it is accepted; before, nothing changes. -/
def State.closeSent (s : State) (t : Nat) (u : UnitKind) (c : UCmd) : State :=
  if s.accepted t u c then s.closeUnit t u c ((c.out.map (·.sat)).getD false) ((c.out.map (·.nan)).getD false) else s

/-! ## The cube array -/

/-- CUBE_COMMAND_START (05_matrix_array.md R141; 04_tile_core.md R99, R101): the oldest queued MXI starts when no earlier
MXI not done has an overlapping accumulator range, and reserves its draws (06_accumulation_and_numerics.md R169). When
it may not start, nothing changes (log 12). -/
def execCubeCommandStart (t : TileIx) (s : State) : Res :=
  let x := s.tile t
  .next (match x.cubeQ.find? fun c => c.phase = .queued with
    | none => s
    | some c =>
      let d := c.desc
      let r := accRange d
      let earlier := x.cubeQ.takeWhile fun e => e.seq ≠ c.seq
      if s.active t && earlier.all fun e =>
          e.phase ≠ .queued && (let q := accRange e.desc; disjoint q.1 q.2 r.1 r.2) then
        s.startUnit t .cube c (dw d 5 13 12)
          (if db d 0 26 && dw d 5 11 10 = 2 && !isNoop .cube d then ceilDiv (dw d 1 16 0 * dw d 1 29 17) 4 else 0)
      else s)

/-- CUBE_COMMAND_DONE (04_tile_core.md R100; 05_matrix_array.md R144; 06_accumulation_and_numerics.md R165): the oldest
running MXI has its outputs, accumulator writes and flags complete. With `ue` it meets an uncorrectable error of the
scratchpad or a parity error of the accumulator store (16_reliability_and_integrity.md R395). Before its inputs have
arrived, or its stream has taken its output, it cannot complete, and nothing changes (logs 12, 16). -/
def execCubeCommandDone (t : TileIx) (ue : Bool) (s : State) : Res :=
  let x := s.tile t
  .next (match x.cubeQ.head? with
    | none => s
    | some c =>
      if c.phase = .sending then s.closeSent t .cube c
      else if c.phase ≠ .running || !x.inputsReady .cube c then s
      else if ue then s.tileUe t 3 (dw c.desc 4 5 0 * 4096)
      else
        let (y, strm, sat, nan) := cubeFinish x c
        (s.setTile t y).endUnit t .cube c strm (db c.desc 5 15) sat nan)

end Sys2Proof.Machine
end

