-- ==== Sys2Proof/Machine/Submit.lean ====
section
/-!
DEFINITION. COPY, SWITCH and SNAPSHOT (08_training_dataflow.md R201 to R211; 13_tenants_and_joint_training.md R321;
15_shared_objects_and_submission.md R365, R367).
-/

namespace Sys2Proof.Machine

/-! ## COPY (R365, R367) -/

/-- A memory-object record as a COPY uses it: BASE, SIZE, CTX, read and write ACCESS. -/
structure MemObj where
  base : Nat
  size : Nat
  ctx : Nat
  read : Bool
  write : Bool
  deriving DecidableEq, Repr

/-- Read a memory-object record: nothing when it breaks a rule of R367, or the code of its read (log 36). -/
def State.memObj (s : State) (a : Nat) : State × Except Nat (Option MemObj) :=
  match s.hubRead a 64 with
  | (s, .error e) => (s, .error e)
  | (s, .ok b) =>
    let base := rd b 8 8
    let size := rd b 16 8
    let w := rd b 24 8
    (s, .ok (if base < 2 ^ 63 && aligned base 64 && size ≠ 0 && aligned size 64 && w / 2 ^ 16 = 0 && rd b 2 2 = 0 && allZero (b.drop 32) then
      some { base := base, size := size, ctx := w % 2 ^ 14, read := bit w 14, write := bit w 15 } else none))

/-- The lines of a COPY, each source line read once and each destination line written once. A destination line that the
source range holds too ends with its old value or a copied one: what its source line held before the copy, or holds by then; which is
free (R365; log 1). The first refusal's code. -/
def State.copyLines (s : State) (p src dst n : Nat) : State × Nat :=
  let uses := (s.part p).uses
  (List.range (n / 64)).foldl (fun (acc : State × Nat) i =>
    if acc.2 ≠ 0 then acc
    else match s.readMem p 0 uses (src + 64 * i) 64, acc.1.readMem p 0 uses (src + 64 * i) 64 with
      | (_, .ok d), (s', .ok d') =>
        let a := dst + 64 * i
        let both : Bool := src ≤ a && a < src + n
        if both && s'.free 3 = 0 then (s'.tick, 0)
        else match s'.writeMem p 0 uses a (if both && s'.free 3 = 1 then d' else d) with
          | (s', some e) => (s'.tick, e)
          | (s', none) => (s'.tick, 0)
      | _, (s', .error e) => (s', e)
      | (_, .error e), (s', _) => (s', e)) (s, 0)

/-- COPY (R365): checks 0x0104, then the copy as master p. The copy is made when the command starts (log 15). -/
def execCopyCmd (q : QueueIx) (s : State) : Res :=
  let k : Nat := q.val
  .next (s.tryStart k 0x03 fun c s =>
    match s.boundPart (s.qCtx k) with
    | none => s.endCmd k 0x0103
    | some p =>
      let n := c.o 4 % 2 ^ 48
      match s.memObj (c.o 0) with
      | (s, .error e) => s.endCmd k e
      | (s, .ok a) =>
        match s.memObj (c.o 2) with
        | (s, .error e) => s.endCmd k e
        | (s, .ok b) =>
          match a, b with
          | some a, some b =>
            if c.o 4 / 2 ^ 48 = 0 && aligned (c.o 1) 64 && aligned (c.o 3) 64 && aligned n 64 && a.ctx = c.ctx && b.ctx = c.ctx &&
                a.read && b.write && c.o 1 + n ≤ a.size && c.o 3 + n ≤ b.size then
              let (s, e) := (s.beginCmd k).copyLines p (a.base + c.o 1) (b.base + c.o 3) n
              s.endCmd k e
            else s.endCmd k 0x0104
          | _, _ => s.endCmd k 0x0104)

/-! ## Weight sets (08_training_dataflow.md R201 to R206) -/

/-- Is the slot of a generation's set referenced by another than the current generation: by a step in progress, its pass
included, or by a SNAPSHOT in its read phase (R206)? -/
def State.slotHeld (s : State) (p g : Nat) : Bool :=
  let x := s.part p
  (match x.step with
    | some r => r.gen % 2 = g % 2
    | none => false) ||
  s.ctxRuns x.ctx fun c => c.op = 0x11 && c.phase = 1 && c.gen % 2 = g % 2

/-- The entries of a weight-set descriptor (R202): REGION and USE. -/
def setEntries (b : Bytes) : List (Nat × Nat) :=
  (List.range (rd b 8 8 % 128)).map fun i => let w := rd b (64 + 16 * i) 8; (w % 4096, w / 4096 % 4096)

/-- Is a source descriptor in order (R203)? -/
def JobImage.setOk (j : JobImage) (b : Bytes) : Bool :=
  let n := rd b 8 8 % 128
  let l := setEntries b
  rd b 8 8 / 128 = 0 && n ≤ 124 && allZero (slice b 16 48) &&
    ((List.range n).all fun i => rd b (64 + 16 * i) 8 / 2 ^ 24 = 0 && rd b (72 + 16 * i) 8 / 2 ^ 52 = 0) &&
    noDup (·.1) l && noDup (·.2) l &&
    l.all fun e => e.2 ≠ 0xFFF && (j.tensors.any fun t => t.param && t.region = e.1) && match j.region e.1, j.region e.2 with
      | some r, some u => r.size = u.size && r.keyId = u.keyId
      | _, _ => false

/-- The page of a weight set: its generation, its number of entries, its entries. -/
def setPage (j : JobImage) (g : Nat) (l : List (Nat × Nat)) : Bytes :=
  leBytes 8 g ++ leBytes 8 l.length ++ zeros 48 ++ l.flatMap fun e =>
    leBytes 8 (e.1 + e.2 * 2 ^ 12) ++ leBytes 8 (((j.region e.2).map (·.base)).getD 0)

/-- Write the page of a set at an address, as the partition's master (log 37): the code of a write that fails. -/
def State.putSet (s : State) (p g a : Nat) (l : List (Nat × Nat)) (b : Bytes) : State × Nat :=
  match s.writeMem p 0 [] a b with
  | (s, some e) => (s, e)
  | (s, none) => (s.updPart p fun x => if g % 2 = 0 then { x with set0 := l } else { x with set1 := l }, 0)

/-- Write a set into the slot of a generation. -/
def State.writeSet (s : State) (p g : Nat) (l : List (Nat × Nat)) : State × Nat :=
  let j := (s.part p).image
  match j.region 0xFFF with
  | none => (s, 0x0122)
  | some r => s.putSet p g (r.keyId * 2 ^ 52 + r.base + 2048 * (g % 2)) l (setPage j g l)

/-- SWITCH (R203 to R205). -/
def execSwitchSet (q : QueueIx) (s : State) : Res :=
  let k : Nat := q.val
  .next (s.tryStart k 0x10 fun c s =>
    match s.boundPart (s.qCtx k) with
    | none => s.endCmd k 0x0103
    | some p =>
      let x := s.part p
      let w := c.o 0
      let src := w / 64 % 2 ^ 57 * 64
      let g := (x.gen + 1) % 2 ^ 64
      let now := bit w 0
      let computing := match x.step with
        | some r => r.phase = .compute
        | none => false
      if (x.image.region 0xFFF).isNone then s.endCmd k 0x0122
      else if w / 2 ^ 63 ≠ 0 || bitsOf w 5 1 ≠ 0 || !s.inSteward src 2048 then s.endCmd k 0x0120
      else match s.hubRead src 2048 with
        | (s, .error e) => s.endCmd k e
        | (s, .ok b) =>
          if !x.image.setOk b then s.endCmd k 0x0120
          else if now && (computing || x.switchPend) then s.endCmd k 0x0121
          else if x.switchPend || s.slotHeld p g then s.holdBack k
          else
            let (s, e) := (s.beginCmd k).writeSet p g (setEntries b)
            if e ≠ 0 then s.endCmd k e
            else if now then
              (s.updPart p fun x => { x with gen := g, uses := if x.step.isNone then x.setOf g else x.uses }).endCmd k 0
            else (s.updPart p fun x => { x with switchPend := true }).endCmd k 0)

/-! ## SNAPSHOT (08_training_dataflow.md R207 to R211) -/

/-- The operands of a SNAPSHOT (R207). -/
structure SnapOp where
  dest : Nat
  all : Bool
  count : Nat
  exRegion : Nat
  peer : Nat
  part : Nat
  destKey : Nat
  list : Nat
  off : Nat
  deriving DecidableEq, Repr

/-- Read the operands. -/
def snapOp (c : HubCmd) : SnapOp :=
  let w := c.o 0
  { dest := bitsOf w 1 0, all := bit w 2, count := bitsOf w 15 3, exRegion := bitsOf w 27 16, peer := bitsOf w 35 28,
    part := bitsOf w 40 36, destKey := bitsOf w 51 41, list := c.o 1, off := c.o 2 % 2 ^ 52 }

/-- Are the reserved bits and the fixed values of the operands in order (R207)? A DEST_OFF or LIST that is not the
multiple the spec gives is taken as a broken reserved bit (log 38). -/
def snapForm (c : HubCmd) : Bool :=
  let o := snapOp c
  c.o 0 / 2 ^ 52 = 0 && o.dest ≠ 3 && c.o 2 / 2 ^ 52 = 0 && aligned o.off 4096 && (o.dest ≠ 0 || o.off = 0) &&
    (if o.all then o.count = 0 && c.o 1 = 0
      else 1 ≤ o.count && o.count ≤ 4096 && aligned o.list 64 && o.list < 2 ^ 52)

/-- The layout of an export region (R209): DIG_OFF, DATA_OFF, the place of each tensor's data, and the end. -/
def exportLayout (ts : List Tensor) : Nat × Nat × List Nat × Nat :=
  let dig := roundUp (64 + 32 * ts.length) 64
  let shards := (ts.map fun t => ceilDiv t.footprint 4194304).sum
  let data := roundUp (dig + 64 * shards) 4096
  let (offs, fin) := ts.foldl (fun (acc : List Nat × Nat) t => (acc.1 ++ [roundUp acc.2 4096], roundUp acc.2 4096 + t.footprint))
    ([], data)
  (dig, data, offs, fin)

/-- The tensors a SNAPSHOT names, or the code of its refusal. -/
def State.snapTensors (s : State) (p : Nat) (o : SnapOp) : State × Except Nat (List Tensor) :=
  let j := (s.part p).image
  if o.all then (s, .ok (j.tensors.filter (·.param)))
  else match s.hubRead o.list (2 * o.count) with
    | (s, .error e) => (s, .error e)
    | (s, .ok b) =>
      let l := (List.range o.count).map fun i => j.tensors.find? fun t => t.tensor = rd b (2 * i) 2
      (s, if l.all (·.isSome) then .ok (l.filterMap id) else .error 0x0123)

/-- Do the tensors, the export region and the destination suit each other (R207, R321)? -/
def State.snapOk (s : State) (p : Nat) (o : SnapOp) (ts : List Tensor) : Bool :=
  let j := (s.part p).image
  let (_, _, _, fin) := exportLayout ts
  match j.region o.exRegion with
  | none => false
  | some r =>
    (ts.all fun t => match j.region t.region with
      | some q => q.keyId = r.keyId
      | none => false) && fin ≤ r.size &&
    (o.dest ≠ 1 || ((s.part o.part).loaded && bit (s.rightsOf o.part).write o.destKey &&
      match findRegion (s.part o.part).image.plan o.destKey o.off with
        | some d => o.off + fin ≤ d.base + d.size
        | none => false)) &&
    (o.dest = 0 || s.sameOwner r.keyId o.destKey)

/-- SNAPSHOT (R207, R208 steps 1 and 2). -/
def execSnapshotCmd (q : QueueIx) (s : State) : Res :=
  let k : Nat := q.val
  .next (s.tryStart k 0x11 fun c s =>
    match s.boundPart (s.qCtx k) with
    | none => s.endCmd k 0x0103
    | some p =>
      let o := snapOp c
      if !snapForm c then s.endCmd k 0x0123
      else match s.snapTensors p o with
        | (s, .error e) => s.endCmd k e
        | (s, .ok ts) =>
          let x := s.part p
          if !s.snapOk p o ts then s.endCmd k 0x0123
          else if x.step.isSome || x.staging || s.movesRun p || s.movesWait p c.arrived ||
              (s.ctxCmds x.ctx).any (fun y => y.op = 0x11 && y.stage ≠ .waiting && (snapOp y).exRegion = o.exRegion) then s.holdBack k
          else (s.beginCmd k).updHead k fun c => { c with gen := x.gen, phase := 1 })

/-- The header and the directory of an export layout (R209). -/
def exportHead (ts : List Tensor) (gen step : Nat) : Bytes :=
  let (dig, data, offs, _) := exportLayout ts
  let shards := (ts.map fun t => ceilDiv t.footprint 4194304).sum
  leBytes 4 0x4E533445 ++ leBytes 2 1 ++ zeros 2 ++ leBytes 4 ts.length ++ zeros 4 ++ leBytes 8 gen ++ leBytes 8 step ++
    leBytes 4 4194304 ++ leBytes 4 shards ++ leBytes 4 dig ++ zeros 4 ++ leBytes 8 data ++ zeros 8 ++
    (ts.zip offs).flatMap fun x => leBytes 2 x.1.tensor ++ leBytes 1 x.1.format ++ leBytes 1 x.1.layout ++ leBytes 4 x.1.rows ++
      leBytes 4 x.1.cols ++ zeros 4 ++ leBytes 8 x.2 ++ leBytes 8 x.1.footprint

/-- Write pieces of an address space as a master, under a weight set: the first refusal's code, or 0. -/
def State.writePieces (s : State) (m space : Nat) (uses : List (Nat × Nat)) (l : List (Nat × Bytes)) : State × Nat :=
  l.foldl (fun (acc : State × Nat) x =>
    if acc.2 ≠ 0 then acc
    else match acc.1.writeMem m space uses x.1 x.2 with
      | (s, some e) => (s, e)
      | (s, none) => (s, 0)) (s, 0)

/-- The read phase (R208 step 3): every tensor through the captured set, its digests, and the export region written. -/
def State.snapRead (s : State) (p gen : Nat) (o : SnapOp) (ts : List Tensor) : State × Nat :=
  let x := s.part p
  let j := x.image
  let (dig, _, offs, _) := exportLayout ts
  let base := match j.region o.exRegion with
    | some r => r.keyId * 2 ^ 52 + r.base
    | none => 0
  let (s, data, code) := ts.foldl (fun (acc : State × List Bytes × Nat) t =>
    if acc.2.2 ≠ 0 then acc
    else match acc.1.readMem p 0 (x.setOf gen) (j.addrOf t) t.footprint with
      | (s, .error e) => (s, acc.2.1, e)
      | (s, .ok b) => (s, acc.2.1 ++ [b], 0)) (s, [], 0)
  if code ≠ 0 then (s, code)
  else
    let digests := data.flatMap fun b => (chunks 4194304 b).flatMap Config.sha512
    s.writePieces p 0 (x.setOf gen) ([(base, exportHead ts gen x.stepNo), (base + dig, digests)] ++
      (offs.zip data).map fun y => (base + y.1, y.2))

/-- The export region from its start through the captured set, in units of 4,096 B. -/
def State.exportUnits (s : State) (p gen : Nat) (o : SnapOp) (fin : Nat) : State × Except Nat (List Bytes) :=
  let base := match (s.part p).image.region o.exRegion with
    | some r => r.keyId * 2 ^ 52 + r.base
    | none => 0
  (List.range (ceilDiv fin 4096)).foldl (fun (acc : State × Except Nat (List Bytes)) i =>
    match acc with
    | (s, .error e) => (s, .error e)
    | (s, .ok l) => match s.readMem p 0 ((s.part p).setOf gen) (base + 4096 * i) 4096 with
      | (s, .error e) => (s, .error e)
      | (s, .ok b) => (s, .ok (l ++ [b]))) (s, .ok [])

/-- SNAPSHOT_READ_DONE (R208 steps 3 to 5, R210, R211): the read phase ends and the send phase begins, if there is one; for DEST 2
its messages go to the peer. -/
def execSnapshotReadDone (q : QueueIx) (s : State) : Res :=
  let k : Nat := q.val
  .next (match s.qHead k, s.boundPart (s.qCtx k) with
    | some c, some p =>
      if !(c.op = 0x11 && c.stage = .running && c.phase = 1) then s
      else
        let o := snapOp c
        match s.snapTensors p o with
        | (s, .error e) => s.endCmd k e
        | (s, .ok ts) =>
          let (_, _, _, fin) := exportLayout ts
          let (s, code) := s.snapRead p c.gen o ts
          if code ≠ 0 || o.dest = 0 then s.endCmd k code
          else if o.dest = 1 then s.updHead k fun c => { c with phase := 3 }
          else match s.exportUnits p c.gen o fin with
            | (s, .error e) => s.endCmd k e
            | (s, .ok us) =>
              if s.peerState o.peer ≠ 2 then s.endCmd k 0x0405
              else
                let (s, tag) := s.newTag
                let msgs := (chunks 1024 us).zipIdx
                let s := msgs.foldl (fun s m => s.sendMsg o.peer 0x22 tag
                  (4194304 * m.2 + (if m.2 + 1 = msgs.length then 2 ^ 63 else 0)) (o.destKey + o.off) (m.1.flatMap id)) s
                s.updHead k fun c => { c with phase := 2, tag := tag }
    | _, _ => s)

/-- Is a command a SNAPSHOT whose send phase to a partition runs? -/
def HubCmd.sendsPart (c : HubCmd) : Bool := c.op = 0x11 && c.stage = .running && c.phase = 3

/-- The send phase of the SNAPSHOT at the head of a queue ends: the export region is written to the partition under DEST_KEY, through
the set of the destination's context. The table has no row for this end, so the completion of the command stands for it
(R208 step 5; log 133). -/
def State.sendExport (s : State) (q : Nat) : State :=
  match s.qHead q, s.boundPart (s.qCtx q) with
  | some c, some p =>
    if !c.sendsPart then s
    else
      let o := snapOp c
      match s.snapTensors p o with
      | (s, .error e) => s.endCmd q e
      | (s, .ok ts) =>
        let (_, _, _, fin) := exportLayout ts
        match s.exportUnits p c.gen o fin with
        | (s, .error e) => s.endCmd q e
        | (s, .ok us) =>
          let (s, e) := s.writePieces o.part 0 (s.part o.part).uses
            (us.zipIdx.map fun u => (o.destKey * 2 ^ 52 + o.off + 4096 * u.2, u.1))
          s.endCmd q e
  | _, _ => s

/-- The destination of a send phase is reset or unloaded: the fence of the SNAPSHOT errors (R211). A reset gives its own code, and a
partition whose image is gone has no write right (12_prism_memory_protection.md R304). -/
def State.endSends (s : State) (p code : Nat) : State :=
  ((s.hub.cmds.map (·.1)).filter fun q => match s.qHead q with
    | some c => c.sendsPart && (snapOp c).part = p
    | none => false).foldl (fun s q => s.endCmd q code) s

/-! ## SNAP_DATA (08_training_dataflow.md R210; 13_tenants_and_joint_training.md R321) -/

/-- Write one unit of a transfer as link ingress: the code of its refusal, or 0. -/
def State.ingressUnit (s : State) (key off : Nat) (b : Bytes) : State × Nat :=
  if (s.keyEntry key).state ≠ .valid then (s, 0x0604)
  else if !s.keyIngress key then (s, 0x0603)
  else match (List.range 32).find? fun p => (s.part p).loaded && match findRegion (s.part p).image.plan key off with
      | some r => off + b.length ≤ r.base + r.size
      | none => false with
    | none => (s, 0x0206)
    | some p => match s.writeMem 33 (p + 1) [] (key * 2 ^ 52 + off) b with
      | (s, some e) => (s, e)
      | (s, none) => (s, 0)

/-- A message event of a type on a port whose message satisfies a predicate. -/
def State.onMsgIf (s : State) (port ty : Nat) (ok : LinkMsg → Bool) (f : Nat → LinkMsg → State → State) : State :=
  match s.takeMsg port ty with
  | some (m, _) => if ok m then s.onMsg port ty f else s
  | none => s

/-- SNAP_DATA (R210): each unit is written or dropped, and the LAST message is answered with the first refusal's code. -/
def execSnapData (port : PortIx) (s : State) : Res :=
  .next (s.onMsgIf port.val 0x22 (fun m => !bit m.arg0 62) fun n m s =>
    let off := m.arg0 % 2 ^ 52
    let key := m.arg1 % 2048
    let dst := bitsOf m.arg1 51 12 * 4096
    let old := ((s.link.snaps.find? fun x => x.peer = n && x.tag = m.tag).map (·.code)).getD 0
    let (s, code) := (chunks 4096 m.payload).zipIdx.foldl (fun (acc : State × Nat) u =>
      let (s, e) := acc.1.ingressUnit key (dst + off + 4096 * u.2) u.1
      (s, if acc.2 = 0 then e else acc.2)) (s, old)
    let rest := s.link.snaps.filter fun x => !(x.peer = n && x.tag = m.tag)
    if bit m.arg0 63 then
      { s with link := { s.link with snaps := rest } }.sendMsg n 0x22 m.tag (code + 2 ^ 62) 0 []
    else { s with link := { s.link with snaps := rest ++ [{ peer := n, tag := m.tag, code := code }] } })

/-- The queue whose running SNAPSHOT waits for the reply of a transfer to a peer. -/
def State.snapOf (s : State) (n tag : Nat) : Option Nat :=
  (List.range 4096).find? fun q => match s.qHead q with
    | some c => c.op = 0x11 && c.stage = .running && c.phase = 2 && c.tag = tag && (snapOp c).peer = n
    | none => false

/-- SNAP_DATA_REPLY (R210): a reply whose TAG names no outstanding transfer is discarded. -/
def execSnapDataReply (port : PortIx) (s : State) : Res :=
  .next (s.onMsgIf port.val 0x22 (fun m => bit m.arg0 62) fun n m s =>
    match s.snapOf n m.tag with
    | none => s
    | some q => s.endCmd q (m.arg0 % 2 ^ 16))

/-- SNAP_DATA_TIMEOUT (R210). -/
def execSnapDataTimeout (q : QueueIx) (s : State) : Res :=
  .next (match s.qHead q.val with
    | some c => if c.op = 0x11 && c.stage = .running && c.phase = 2 then s.endCmd q.val 0x040D else s
    | none => s)

/-! ## Completion (15_shared_objects_and_submission.md R363) -/

/-- COMMAND_COMPLETE (R363): the oldest command of a queue, once it has ended or has been refused. -/
def execCommandComplete (q : QueueIx) (s : State) : Res :=
  let k : Nat := q.val
  let s := s.sendExport k
  .next (match s.qCmds k with
    | [] => s
    | c :: r =>
      if !(c.stage = .ended || (c.stage = .waiting && c.code ≠ 0 && s.qState k = 1)) then s
      else
        let ctx := s.qCtx k
        let s := s.setCmds k r
        let run := (List.range 32).findSome? fun p => match (s.part p).step with
          | some y => if y.queue = k then some (p, y) else none
          | none => none
        let (s, fin) := match run with
          | some (p, y) => s.completeStep p k c y.n
          | none => s.complete k c false
        let s := (s.afterComplete k fin).setF Reg.Q_STAT_WAITING k 0 0
        match s.slotOf ctx with
        | some i => s.showActive i
        | none => s)

end Sys2Proof.Machine
end

