-- ==== Sys2Proof/Machine/Collectives.lean ====
section
/-!
DEFINITION. Collective groups and the collective engine (10_links_and_collectives.md R253 to R259).
-/

namespace Sys2Proof.Machine

/-! ## Groups (R253, R258) -/

/-- The group of a context by its number. -/
def State.groupOf (s : State) (c n : Nat) : Option Group := s.link.groups.find? fun g => g.ctx = c && g.num = n

/-- The group with a tag. -/
def State.groupTag (s : State) (tag : Nat) : Option Group := s.link.groups.find? fun g => g.gtag = tag

/-- Change the group with a tag. -/
def State.updGroup (s : State) (tag : Nat) (f : Group → Group) : State :=
  { s with link := { s.link with groups := s.link.groups.map fun g => if g.gtag = tag then f g else g } }

/-- This member's rank: its own place in the list. -/
def Group.rank (g : Group) : Nat := (firstIdx (fun m : Option Nat => m.isNone) g.members).getD 0

/-- The ranks that a peer holds. -/
def Group.ranksOf (g : Group) (n : Nat) : List Nat := (List.range g.members.length).filter fun r => g.members[r]? = some (some n)

/-- The other members, with their ranks. -/
def Group.others (g : Group) : List (Nat × Nat) :=
  g.members.zipIdx.filterMap fun m => m.1.map fun n => (n, m.2)

/-- The COLL_GROUP of a group that has not completed ends with a code. -/
def State.endGroupCmd (s : State) (g : Group) (code : Nat) : State :=
  match (s.ctxQueues g.ctx).find? fun q => match s.qHead q with
    | some c => c.op = 0x14 && c.stage = .running && c.tag = g.num
    | none => false with
  | some q => s.endCmd q code
  | none => s

/-- A group that every member has greeted is ready, and its COLL_GROUP completes. -/
def State.readyGroup (s : State) (tag : Nat) : State :=
  match s.groupTag tag with
  | none => s
  | some g =>
    if g.ready || !(g.others.all fun m => g.hellos.contains m.2) then s
    else (s.updGroup tag fun g => { g with ready := true }).endGroupCmd g 0

/-- A GROUP_HELLO of a member. -/
def State.greet (s : State) (g : Group) (n digest : Nat) : State :=
  if digest = rd g.digest 0 8 then
    (s.updGroup g.gtag fun g => { g with hellos := g.hellos ++ g.ranksOf n }).readyGroup g.gtag
  else s.endGroupCmd g 0x0408

/-- GROUP_HELLO (R253). One of a tag that no group here has waits for its group; one of another sender is discarded. -/
def execGroupHello (port : PortIx) (s : State) : Res :=
  .next (s.onMsg port.val 0x02 fun n m s =>
    match s.groupTag m.tag with
    | some g => if (g.ranksOf n).isEmpty then s else s.greet g n m.arg0
    | none => { s with link := { s.link with early := s.link.early ++ [{ peer := n, gtag := m.tag, digest := m.arg0 }] } })

/-- The identity key of a member. -/
def State.memberKey (s : State) : Option Nat → Bytes
  | none => unitKey
  | some n => (s.session n).ident

/-- Do the entries of a LIST keep the rules of R253? -/
def State.listOk (s : State) (l : List Nat) : Bool :=
  decide ((l.filter fun e => bit e 15).length = 1) && l.all fun e =>
    bitsOf e 14 8 = 0 && (bit e 15 || s.peerState (e % 256) = 2)

/-- Define a group and greet its members. -/
def State.defineGroup (s : State) (ctx num tag : Nat) (l : List Nat) : State :=
  let members := l.map fun e => if bit e 15 then none else some (e % 256)
  let digest := Config.sha512 (members.flatMap s.memberKey)
  let g : Group := { ctx := ctx, num := num, gtag := tag, members := members, digest := digest, hellos := [], ready := false,
                     broken := false, k := 0 }
  let s := { s with link := { s.link with groups := s.link.groups ++ [g] } }
  let s := g.others.foldl (fun s m => s.sendMsg m.1 0x02 tag (rd digest 0 8) 0 []) s
  let came := s.link.early.filter fun e => e.gtag = tag
  let s := { s with link := { s.link with early := s.link.early.filter fun e => e.gtag ≠ tag } }
  (came.foldl (fun s e => if (g.ranksOf e.peer).isEmpty then s else s.greet g e.peer e.digest) s).readyGroup tag

/-- Has the oldest command of a queue the OP of COLL_GROUP with a value of FREE? -/
def State.groupCmd (s : State) (q : Nat) (free : Bool) : Bool :=
  match s.qHead q with
  | some c => c.op = 0x14 && bit (c.o 0) 13 = free
  | none => false

/-- COLL_GROUP (R253). -/
def execCollGroup (q : QueueIx) (s : State) : Res :=
  let k : Nat := q.val
  .next (if !s.groupCmd k false then s
    else s.tryStart k 0x14 fun c s =>
      let ctx := s.qCtx k
      let num := c.o 0 % 16
      let n := bitsOf (c.o 0) 12 4
      if (s.boundPart ctx).isNone then s.endCmd k 0x0103
      else if (s.groupOf ctx num).isSome || c.o 0 / 2 ^ 14 ≠ 0 || n < 2 || 256 < n || c.o 2 / 2 ^ 63 ≠ 0 || !aligned (c.o 2) 64 then
        s.endCmd k 0x0408
      else match s.hubRead (c.o 2) (2 * n) with
        | (s, .error e) => s.endCmd k e
        | (s, .ok b) =>
          let l := (List.range n).map fun i => rd b (2 * i) 2
          if !s.listOk l then s.endCmd k 0x0408
          else ((s.beginCmd k).updHead k fun c => { c with tag := num }).defineGroup ctx num (c.o 1) l)

/-! ## Requests (R254) -/

/-- OP of a request. -/
def Coll.op (c : Coll) : Nat := c.words.getD 0 0 % 8

/-- The code of the format of a request. -/
def Coll.fmtCode (c : Coll) : Nat := bitsOf (c.words.getD 0 0) 10 3

/-- Its element format. -/
def Coll.fmt (c : Coll) : Fmt := fmtD c.fmtCode

/-- ROOT. -/
def Coll.root (c : Coll) : Nat := bitsOf (c.words.getD 0 0) 36 29

/-- VOTE_INT8. -/
def Coll.vote (c : Coll) : Bool := bit (c.words.getD 0 0) 37

/-- COUNT. -/
def Coll.count (c : Coll) : Nat := c.words.getD 1 0 % 2 ^ 32

/-- The format of results: FMT, or for a sign vote SGN2 or INT8 (R259). -/
def Coll.outFmt (c : Coll) : Fmt := if c.op = 4 && c.vote then .int 8 else c.fmt

/-- Elements of the output (R254). -/
def Coll.outCount (c : Coll) (n : Nat) : Nat :=
  match c.op with
  | 1 => c.count / n
  | 2 => c.count * n
  | _ => c.count

/-- Is a format allowed for an OP (R254)? -/
def collFmtOk (op f : Nat) : Bool :=
  match op with
  | 0 => f = 0x02 || f = 0x01 || f = 0x10
  | 1 => f = 0x02 || f = 0x01 || f = 0x10
  | 2 => (fmtOf f).isSome && f ≠ 0x18
  | 3 => (fmtOf f).isSome && f ≠ 0x18
  | 4 => f = 0x14
  | _ => false

/-- Are the words of a request in order for a group of `n` (R254)? -/
def collForm (w : List Nat) (n : Nat) : Bool :=
  let w0 := w.getD 0 0
  let op := w0 % 8
  let count := w.getD 1 0
  let root := bitsOf w0 36 29
  let addr (kind : Bool) (a : Nat) : Bool := if kind then a = 0 else a < 2 ^ 63 && aligned a 64
  collFmtOk op (bitsOf w0 10 3) && w0 / 2 ^ 38 = 0 && (op = 3 || root = 0) && (op = 4 || !bit w0 37) && count < 2 ^ 32 &&
    addr (bit w0 15) (w.getD 2 0) && addr (bit w0 16) (w.getD 3 0) && (!(op = 1 || op = 2) || count % n = 0) &&
    (op ≠ 4 || n ≤ 127) && (op ≠ 3 || root < n)

/-- The code of the first access of a byte range that Prism would refuse, or 0. -/
def State.rangeCode (s : State) (p : Nat) (wr : Bool) (a n : Nat) : Nat :=
  ((List.range (ceilDiv (a % 4096 + n) 4096)).findSome? fun i =>
    match s.gate p 0 (s.part p).uses wr (if i = 0 then a else (a / 4096 + i) * 4096) with
    | .error e => some e
    | .ok _ => none).getD 0

/-- The streams of a partition that end at a hub crossing, with their branch, or start from it, by die × 16 + crossing
(02_fabric.md R42; 03_configuration_images.md R66). -/
def State.crossStreams (s : State) (p x : Nat) (out : Bool) : List (Nat × Nat) :=
  let j := (s.part p).image
  match s.rect p with
  | none => []
  | some r => j.routes.flatMap fun t =>
      if out then
        if j.hubSourced (4 * r.cx0) (4 * r.cy0) t && crossingAt (4 * r.cx0 + t.srcRx) (4 * r.cy0 + t.srcRy) = some x then [(t.stream, 0)]
        else []
      else ((t.branches.zip t.paths).zipIdx.filter fun b => b.1.1.sinkHub && match b.1.1.endOf b.1.2 with
        | some e => crossingAt (4 * r.cx0 + e.1) (4 * r.cy0 + e.2) = some x
        | none => false).map fun b => (t.stream, b.2)

/-- Show the engine's counts (R257, R262). -/
def State.showColl (s : State) : State :=
  let run := (s.link.colls.filter (·.running)).length
  (s.set Reg.COLL_STAT_ACTIVE run).set Reg.COLL_STAT_WAITING (min 255 (s.link.colls.length - run))

/-- The collective of a tile. -/
def State.collOf (s : State) (t : Nat) : Option Coll := s.link.colls.find? fun c => c.tile = t

/-- Change it. -/
def State.updColl (s : State) (t : Nat) (f : Coll → Coll) : State :=
  { s with link := { s.link with colls := s.link.colls.map fun c => if c.tile = t then f c else c } }

/-- The reply word of service 3 (R255). -/
def collReply (code : Nat) (sat nan : Bool) (k : Nat) : Word :=
  BitVec.ofNat 64 (code + (if sat then 2 ^ 16 else 0) + (if nan then 2 ^ 17 else 0) + k % 2 ^ 32 * 2 ^ 32)

/-- A collective leaves the engine with its reply; the step may then be over (R255). -/
def State.dropColl (s : State) (c : Coll) (code : Nat) : State :=
  let s := { s with link := { s.link with
    colls := s.link.colls.filter (fun d => d.tile ≠ c.tile),
    waiting := s.link.waiting.filter fun w => !(w.2.tag = c.gtag && w.2.arg0 % 2 ^ 32 = c.k % 2 ^ 32) } }
  ((s.showColl).reply c.tile c.ep [collReply code c.sat c.nan c.k]).finishStep c.part

/-- A collective fails: its code goes to the current fence too (R255). -/
def State.failColl (s : State) (c : Coll) (code : Nat) : State :=
  ((s.set Reg.COLL_STAT_LAST_ERR code).errCurrent c.part code).dropColl c code

/-- A request that is refused gets its code as its reply (R254). -/
def State.refuseColl (s : State) (t ep code k : Nat) : State :=
  (s.set Reg.COLL_STAT_LAST_ERR code).reply t ep [collReply code false false k]

/-- COLLECTIVE (R254, R257). Words that the request leaves out count as 0. Where several streams of the partition use a
crossing, which one the request takes is free (log 1). -/
def execCollectiveReq (t : TileIx) (s : State) : Res :=
  let i : Nat := t.val
  .next (match s.takeRequest i 3, s.partOf i with
    | some (m, s), some p =>
      let x := s.part p
      let w := (List.range 4).map fun j => (m.words.getD j 0).toNat
      let w0 := w.getD 0 0
      match s.groupOf x.ctx (bitsOf w0 14 11) with
      | none => s.refuseColl i m.srcEp 0x040A 0
      | some g =>
        if g.broken then s.refuseColl i m.srcEp 0x0405 g.k
        else if !g.ready || !collForm w g.members.length then s.refuseColl i m.srcEp 0x040A g.k
        else
          let ins := s.crossStreams p (bitsOf w0 22 17) false
          let outs := s.crossStreams p (bitsOf w0 28 23) true
          let c : Coll :=
            { tile := i, ep := m.srcEp, part := p, gtag := g.gtag, k := g.k, words := w,
              src := ins.getD (s.free ins.length) (0, 0), dst := (outs.getD (s.free outs.length) (0, 0)).1, running := false,
              input := [], loaded := false, slice := [], got0 := [], got1 := [], els := [], raw := [], sat := false,
              nan := false, reduced := false }
          let rd := if bit w0 15 then 0 else s.rangeCode p false (w.getD 2 0) (vBytes c.fmt c.count)
          let wr := if bit w0 16 then 0 else s.rangeCode p true (w.getD 3 0) (vBytes c.outFmt (c.outCount g.members.length))
          if rd ≠ 0 then s.refuseColl i m.srcEp rd g.k
          else if wr ≠ 0 then s.refuseColl i m.srcEp wr g.k
          else if (bit w0 15 && ins.isEmpty) || (bit w0 16 && outs.isEmpty) then s.refuseColl i m.srcEp 0x0302 g.k
          else
            let s := (s.tick.updGroup g.gtag fun g => { g with k := g.k + 1 })
            { s with link := { s.link with colls := s.link.colls ++ [c] } }.showColl
    | some (_, s), none => s
    | none, _ => s)

/-! ## The engine (R256, R259) -/

/-- Slice `j` of `c` elements among `n` members: first element and length (R259). -/
def sliceOf (c n j : Nat) : Nat × Nat :=
  let q := ceilDiv c n
  (min (j * q) c, min ((j + 1) * q) c - min (j * q) c)

/-- Elements of `b` bits from packed bytes (06_accumulation_and_numerics.md R146). -/
def unpackBits (b n : Nat) (l : Bytes) : List Nat := let v := leNat l; (List.range n).map fun i => v / 2 ^ (b * i) % 2 ^ b

/-- The first addend of an element, as an FP32 or an INT32 word, with SAT and NAN (R256). -/
def collFirst (fm : Fmt) (e : Nat) : Nat × Bool × Bool :=
  match fm with
  | .int w => (wrapInt 32 (sext w e), false, false)
  | .sgn2 => (match e % 4 with | 1 => 1 | 3 => 2 ^ 32 - 1 | _ => 0, false, false)
  | _ => let (v, st, nn) := fm.read e; (f32Bits v, st, nn)

/-- One addition (R256). -/
def collAdd (fm : Fmt) (acc e : Nat) : Nat × Bool × Bool :=
  let (x, st, nn) := collFirst fm e
  if fm.isFloat then
    let (v, o) := roundF32 ((f32Val acc).add (f32Val x))
    (f32Bits v, st || o, nn)
  else
    let v := sext 32 acc + sext 32 x
    let v' := max (-(2 ^ 31)) (min (2 ^ 31 - 1) v)
    (wrapInt 32 v', v' ≠ v, false)

/-- The result of an element, in the result format (R256). -/
def Coll.result (c : Coll) (w : Nat) : Nat × Bool × Bool :=
  if c.fmt.isFloat then c.fmt.conv .rne 0 (f32Val w) else c.outFmt.conv .rne 0 (ExNum.ofInt (sext 32 w))

/-- ARG0 of a COLL_DATA of this member (R259). -/
def Coll.arg0 (c : Coll) (rank phase : Nat) : Nat :=
  c.k % 2 ^ 32 + rank * 2 ^ 32 + c.op * 2 ^ 40 + phase * 2 ^ 43 + (if c.vote then 2 ^ 44 else 0) + c.fmtCode * 2 ^ 45 +
    (if c.op = 3 then c.root else 0) * 2 ^ 53

/-- Send data to a member as messages of at most 4,194,304 B; data of no bytes goes as one message without payload (log
42). `per` is the number of units of OFFSET in a whole message. -/
def State.sendColl (s : State) (c : Coll) (g : Group) (peer phase off per : Nat) (b : Bytes) : State :=
  (parts4M b).zipIdx.foldl (fun s x =>
    s.sendMsg peer 0x01 c.gtag (c.arg0 g.rank phase) (c.count + (off + per * x.2) * 2 ^ 32) x.1.2) s

/-- Send the first phase of a collective whose input is whole, and enter its own input (R259). -/
def State.beginColl (s : State) (c : Coll) (g : Group) : State :=
  let n := g.members.length
  let b := c.fmt.bits
  if c.op = 2 || c.op = 3 then
    let mine := c.op = 2 || c.root = g.rank
    let s := if mine then g.others.foldl (fun s m => s.sendColl c g m.1 1 0 65536 c.input) s else s
    s.updColl c.tile fun d => { d with
      loaded := true, raw := if mine then smapWrite 0 d.raw (g.rank * 2 ^ 40) c.input else d.raw }
  else
    let els := unpackBits b c.count c.input
    let s := g.others.foldl (fun s m =>
      let (o, l) := sliceOf c.count n m.2
      s.sendColl c g m.1 0 o (4194304 * 8 / b) (packBits b (slice els o l))) s
    let (o, l) := sliceOf c.count n g.rank
    let own := (slice els o l).map (collFirst c.fmt)
    s.updColl c.tile fun d => { d with
      loaded := true, slice := own.map (·.1), sat := d.sat || own.any (·.2.1), nan := d.nan || own.any (·.2.2) }
where
  /-- Elements of a list from an index. -/
  slice (l : List Nat) (o n : Nat) : List Nat := (l.drop o).take n

/-- The bytes of the output (06_accumulation_and_numerics.md R146; 07_vector_engine.md R172), with free bits after its last
element (log 1). -/
def State.collOut (s : State) (c : Coll) (g : Group) : Bytes :=
  let n := g.members.length
  let b := c.outFmt.bits
  let total := c.outCount n
  let inBytes := vBytes c.fmt c.count
  let part (r : Nat) : Bytes := smapRead 0 c.raw (r * 2 ^ 40) inBytes
  let ranks := if c.op = 2 then List.range n else [c.root]
  let pad (x : Bytes) : Bytes :=
    if total * b % 8 = 0 || x.isEmpty then x
    else x.dropLast ++ [BitVec.ofNat 8 ((x.getLast?.getD 0).toNat + s.free 256 / 2 ^ (total * b % 8) * 2 ^ (total * b % 8))]
  if c.op = 2 || c.op = 3 then
    if c.fmt.isMx then
      let els := packBits b (ranks.flatMap fun r => unpackBits b c.count (part r))
      let sc := ranks.flatMap fun r => slice (part r) (ceilDiv (c.count * b) 512 * 64) (ceilDiv c.count 32)
      fit (roundUp els.length 64) els ++ fit (roundUp sc.length 64) sc
    else pad (packBits b (ranks.flatMap fun r => unpackBits b c.count (part r)))
  else
    let o := if c.op = 1 then (sliceOf c.count n g.rank).1 else 0
    pad (packBits b ((List.range total).map fun i => smapGet 0 c.els (o + i)))

/-- Elements or bytes received from a rank, if anything has come. -/
def gotFrom (l : List (Nat × Nat)) (r : Nat) : Option Nat := (l.find? fun x => x.1 = r).map (·.2)

/-- Has this member received all that it needs of a phase from every rank? -/
def Coll.whole0 (c : Coll) (g : Group) : Bool :=
  g.others.all fun m => match gotFrom c.got0 m.2 with
    | some x => (sliceOf c.count g.members.length g.rank).2 ≤ x
    | none => false

/-- Has this member all of phase 1? -/
def Coll.whole1 (c : Coll) (g : Group) : Bool :=
  match c.op with
  | 1 => true
  | 3 => c.root = g.rank || (gotFrom c.got1 c.root).any fun x => vBytes c.fmt c.count ≤ x
  | 2 => g.others.all fun m => (gotFrom c.got1 m.2).any fun x => vBytes c.fmt c.count ≤ x
  | _ => g.others.all fun m => (gotFrom c.got1 m.2).any fun x => (sliceOf c.count g.members.length m.2).2 ≤ x

/-- A slice that has every input is reduced, and goes to the other members in phase 1 (R259). -/
def State.reduceColl (s : State) (c : Coll) (g : Group) : State :=
  if c.reduced || c.op = 2 || c.op = 3 || !c.whole0 g then s
  else
    let b := c.outFmt.bits
    let res := c.slice.map c.result
    let (o, _) := sliceOf c.count g.members.length g.rank
    let s := if c.op = 1 then s else g.others.foldl (fun s m =>
      s.sendColl c g m.1 1 o (4194304 * 8 / b) (packBits b (res.map (·.1)))) s
    s.updColl c.tile fun d => { d with
      reduced := true, els := smapWrite 0 d.els o (res.map (·.1)), sat := d.sat || res.any (·.2.1),
      nan := d.nan || res.any (·.2.2) }

/-- A collective whose output is whole gives it to memory or to its stream, and completes (R254, R255). LAST of the last
flit of a stream is free (log 1). -/
def State.finishColl (s : State) (c : Coll) (g : Group) : State :=
  if !((c.reduced || c.op = 2 || c.op = 3) && c.whole1 g) then s
  else
    let b := s.collOut c g
    let last := s.free 2 = 1
    let s := s.tick
    if bit (c.words.getD 0 0) 16 then
      (s.updStream c.part c.dst fun st => { st with src := st.src ++ toFlits b last }).dropColl c 0
    else match s.writeMem c.part 0 (s.part c.part).uses (c.words.getD 3 0) b with
      | (s, some e) => s.failColl c e
      | (s, none) => s.dropColl c 0

/-- A tile's collective that runs with its input whole, and its group. -/
def State.onColl (s : State) (t : Nat) (f : Coll → Group → State → State) : State :=
  match s.collOf t with
  | none => s
  | some c => match s.groupTag c.gtag with
    | none => s
    | some g => if c.running && c.loaded then f c g s else s

/-- Go on with a tile's collective as far as its data allow. -/
def State.settleColl (s : State) (t : Nat) : State :=
  (s.onColl t fun c g s => s.reduceColl c g).onColl t fun c g s => s.finishColl c g

/-- The COLL_DATA that agree with this member's own request (R255, R259)? -/
def Coll.agrees (c : Coll) (m : LinkMsg) : Bool :=
  bitsOf m.arg0 42 40 = c.op && bitsOf m.arg0 52 45 = c.fmtCode && m.arg1 % 2 ^ 32 = c.count &&
    bitsOf m.arg0 60 53 = (if c.op = 3 then c.root else 0) && bit m.arg0 44 = c.vote

/-- Count what has come from a rank. -/
def addGot (l : List (Nat × Nat)) (r n : Nat) : List (Nat × Nat) :=
  match gotFrom l r with
  | none => l ++ [(r, n)]
  | some x => l.map fun y => if y.1 = r then (r, x + n) else y

/-- Enter a COLL_DATA into a collective with its input whole (R256, R259). -/
def Coll.enter (c : Coll) (g : Group) (m : LinkMsg) : Coll :=
  let rank := bitsOf m.arg0 39 32
  let n := g.members.length
  let off := m.arg1 / 2 ^ 32
  let len := m.payload.length
  if !bit m.arg0 43 then
    if c.op = 2 || c.op = 3 then c
    else
      let (o, l) := sliceOf c.count n g.rank
      let k := min (len * 8 / c.fmt.bits) (o + l - off)
      let els := unpackBits c.fmt.bits k m.payload
      els.zipIdx.foldl (fun c e =>
        if off + e.2 < o then c
        else
          let (v, st, nn) := collAdd c.fmt (c.slice.getD (off + e.2 - o) 0) e.1
          { c with slice := c.slice.set (off + e.2 - o) v, sat := c.sat || st, nan := c.nan || nn })
        { c with got0 := addGot c.got0 rank k }
  else match c.op with
    | 1 => c
    | 2 => { c with raw := smapWrite 0 c.raw (rank * 2 ^ 40 + 64 * off) m.payload, got1 := addGot c.got1 rank len }
    | 3 => { c with raw := smapWrite 0 c.raw (rank * 2 ^ 40 + 64 * off) m.payload, got1 := addGot c.got1 rank len }
    | _ =>
      let (o, l) := sliceOf c.count n rank
      let k := min (len * 8 / c.outFmt.bits) (o + l - off)
      { c with els := smapWrite 0 c.els off (unpackBits c.outFmt.bits k m.payload), got1 := addGot c.got1 rank k }

/-- A COLL_DATA meets the request it belongs to: a mismatch errors it with 0x0406 (R255). -/
def State.takeColl (s : State) (t : Nat) (m : LinkMsg) : State :=
  match s.collOf t with
  | none => s
  | some c => match s.groupTag c.gtag with
    | none => s
    | some g =>
      if c.k % 2 ^ 32 ≠ m.arg0 % 2 ^ 32 || c.gtag ≠ m.tag then s
      else if !c.agrees m then s.failColl c 0x0406
      else (s.updColl t fun c => c.enter g m).settleColl t

/-- A collective whose input is whole sends its first phase, and takes the data that came before. -/
def State.loadColl (s : State) (t : Nat) (b : Bytes) : State :=
  match s.collOf t with
  | none => s
  | some c => match s.groupTag c.gtag with
    | none => s
    | some g =>
      let c := { c with input := b }
      let s := (s.updColl t fun d => { d with input := b }).beginColl c g
      let mine (w : Nat × LinkMsg) : Bool := w.2.tag = c.gtag && w.2.arg0 % 2 ^ 32 = c.k % 2 ^ 32
      let early := s.link.waiting.filter mine
      let s := { s with link := { s.link with waiting := s.link.waiting.filter fun w => !mine w } }
      early.foldl (fun s w => s.takeColl t w.2) (s.settleColl t)

/-- A collective that takes its input from a stream consumes the flits that have reached the hub (02_fabric.md R42;
R254). -/
def State.feedColl (s : State) (t : Nat) : State :=
  match s.collOf t with
  | none => s
  | some c =>
    if !c.running || c.loaded || !bit (c.words.getD 0 0) 15 then s
    else
      let want := vBytes c.fmt c.count
      let st := s.stream c.part c.src.1
      let mine := st.hubOut.filter fun f => f.1 = c.src.2
      let n := min mine.length (ceilDiv (want - c.input.length) 64)
      let got := c.input ++ (mine.take n).flatMap (·.2)
      let s := s.updStream c.part c.src.1 fun st => { st with
        hubOut := (st.hubOut.filter fun f => f.1 ≠ c.src.2) ++ mine.drop n }
      if want ≤ got.length then s.loadColl t (got.take want) else s.updColl t fun d => { d with input := got }

/-- COLLECTIVE_START (R257): the collective that waits longest takes a free place and reads its input. -/
def execCollectiveStart (s : State) : Res :=
  .next (match s.link.colls.find? fun c => !c.running with
    | none => s
    | some c =>
      if 64 ≤ (s.link.colls.filter (·.running)).length then s
      else
        let s := (s.updColl c.tile fun d => { d with running := true }).showColl
        if bit (c.words.getD 0 0) 15 then s.feedColl c.tile
        else match s.readMem c.part 0 (s.part c.part).uses (c.words.getD 2 0) (vBytes c.fmt c.count) with
          | (s, .error e) => s.failColl c e
          | (s, .ok b) => s.loadColl c.tile b)

/-- COLL_DATA (R255, R257, R259): the data of a request that has started enter it; those of a request not made or not
started yet wait while the 64 MiB of the receive buffers last, and stay in the port's buffer otherwise; those of a request
that is over are discarded. -/
def execCollData (port : PortIx) (s : State) : Res :=
  let taken : State := s.onMsg port.val 0x01 fun n m s =>
    let rank := bitsOf m.arg0 39 32
    match s.groupTag m.tag with
    | none => s
    | some g =>
      let k := m.arg0 % 2 ^ 32
      if g.members[rank]? ≠ some (some n) || g.broken then s
      else match s.link.colls.find? fun c => c.gtag = g.gtag && c.k % 2 ^ 32 = k with
        | some c =>
          if c.running && c.loaded then s.takeColl c.tile m
          else { s with link := { s.link with waiting := s.link.waiting ++ [(n, m)] } }
        | none =>
          if (k + 2 ^ 32 - g.k % 2 ^ 32) % 2 ^ 32 < 2 ^ 31 then
            { s with link := { s.link with waiting := s.link.waiting ++ [(n, m)] } }
          else s
  let room := (taken.link.waiting.map fun w => w.2.payload.length).sum ≤ 67108864 ||
    taken.link.waiting.length ≤ s.link.waiting.length
  .next (if room then taken else s)

/-! ## Timeouts and deletions (R253, R255, R258) -/

/-- Has a member's request for this collective been seen: data of it have come? -/
def State.collSeen (s : State) (c : Coll) (r : Nat) : Bool :=
  (gotFrom c.got0 r).isSome || (gotFrom c.got1 r).isSome || s.link.waiting.any fun w =>
    w.2.tag = c.gtag && w.2.arg0 % 2 ^ 32 = c.k % 2 ^ 32 && bitsOf w.2.arg0 39 32 = r

/-- COLL_TIMEOUT (R253, R255): of the COLL_GROUP of a queue, whose group is not ready; or of the collective of a tile, whose
partners have not all made their request. A broadcast waits for no member but ROOT. -/
def execCollTimeout (who : QueueIx ⊕ TileIx) (s : State) : Res :=
  .next (match who with
    | .inl q =>
      match s.qHead q.val with
      | some c => if c.op = 0x14 && c.stage = .running then s.endCmd q.val 0x0407 else s
      | none => s
    | .inr t =>
      match s.collOf t.val with
      | none => s
      | some c => match s.groupTag c.gtag with
        | none => s
        | some g =>
          let awaited := g.others.filter fun m => c.op ≠ 3 || (m.2 = c.root && g.rank ≠ c.root)
          if awaited.all fun m => s.collSeen c m.2 then s else s.failColl c 0x0407)

/-- Delete a group: the other members are told, and what came for it is dropped (R253, R258). -/
def State.deleteGroup (s : State) (g : Group) : State :=
  let s := { s with link := { s.link with
    groups := s.link.groups.filter (fun x => !(x.ctx = g.ctx && x.num = g.num)),
    waiting := s.link.waiting.filter fun w => w.2.tag ≠ g.gtag } }
  g.others.foldl (fun s m => s.sendMsg m.1 0x03 g.gtag (0x0405 + g.rank * 2 ^ 16) 0 []) s

/-- COLL_GROUP_FREE (R253, R258). A group that does not exist, and any field set beside FREE and GROUP, is refused with
0x0408. -/
def execCollGroupFree (q : QueueIx) (s : State) : Res :=
  let k : Nat := q.val
  .next (if !s.groupCmd k true then s
    else s.tryStart k 0x14 fun c s =>
      if (s.boundPart (s.qCtx k)).isNone then s.endCmd k 0x0103
      else match s.groupOf (s.qCtx k) (c.o 0 % 16) with
        | none => s.endCmd k 0x0408
        | some g =>
          if c.o 0 / 16 ≠ 2 ^ 9 || c.o 1 ≠ 0 || c.o 2 ≠ 0 then s.endCmd k 0x0408
          else if !g.broken && s.link.colls.any fun x => x.gtag = g.gtag then s.endCmd k 0x040A
          else ((s.beginCmd k).deleteGroup g).endCmd k 0)

/-- Every collective of a group fails with a code. -/
def State.failGroup (s : State) (tag code : Nat) : State :=
  (s.link.colls.filter fun c => c.gtag = tag).foldl (fun s c => s.failColl c code) s

/-- PEER_NOTE (R258). -/
def execPeerNote (port : PortIx) (s : State) : Res :=
  .next (s.onMsg port.val 0x03 fun n m s =>
    match s.groupTag m.tag with
    | none => s
    | some g =>
      if g.members[bitsOf m.arg0 23 16]? ≠ some (some n) then s
      else (s.updGroup g.gtag fun g => { g with broken := true }).failGroup g.gtag 0x0405)

/-- A member has departed: the collectives of its groups and their set-up fail with a code, and its entry number names no
member any more (R251; log 43). -/
def State.departGroups (s : State) (n code : Nat) : State :=
  (s.link.groups.filter fun g => g.members.contains (some n)).foldl (fun s g =>
    ((s.endGroupCmd g code).failGroup g.gtag code).updGroup g.gtag fun g => { g with
      members := g.members.map fun m => if m = some n then some 256 else m }) s

end Sys2Proof.Machine
end

