-- ==== Sys2Proof/Machine/Fabric.lean ====
section
/-!
DEFINITION. The movement of stream flits, credits and packets over the fabric, and the die edges and hub bridges
(02_fabric.md R33 to R43, R46 to R48; 04_tile_core.md R95, R96, R107).

A stream slot's key is branch × 128 + hop: hop h + 1 of a branch stands for the slot of the output port or crossing that
the branch takes at its hop h. Hop 0 of branch 0 stands for the injection into the mesh: by a tile out of what its units have
produced, by a hub crossing out of its slot from the hub, which hop 0 of branch 1 fills (R34, R42).
-/

namespace Sys2Proof.Machine

/-! ## Routes in place (02_fabric.md R33 to R37) -/

/-- Where a flit goes from a router: a slot, a ring of a tile, or a hub crossing (with its branch). -/
inductive Dest where
  | slot (key : Nat)
  | ring (rx ry ep : Nat)
  | hub (branch : Nat)
  deriving DecidableEq, Repr

/-- Where a flit on branch `b` at its position `j` goes along the branch itself. -/
def Route.along (r : Route) (b j : Nat) : List Dest :=
  match r.branches[b]?, (r.paths[b]?).bind (·[j]?) with
  | some x, some q =>
    if j < x.dirs.length then [.slot (128 * b + j + 1)]
    else if x.sinkHub then [.hub b] else [.ring q.1 q.2 x.sinkEp]
  | _, _ => []

/-- The positions a flit reaches with position `j` of branch `b`: its own, and the first of every branch that leaves there. A
branch leaves an earlier one, so one pass in order finds them all (03_configuration_images.md R66). -/
def Route.forks (r : Route) (b j : Nat) : List (Nat × Nat) :=
  r.branches.zipIdx.foldl (fun acc x =>
    if x.2 ≠ 0 && acc.contains (x.1.parent, x.1.forkHop) then acc ++ [(x.2, 0)] else acc) [(b, j)]

/-- Everything a flit that reaches position `j` of branch `b` is sent on to, together (02_fabric.md R37). -/
def Route.dests (r : Route) (b j : Nat) : List Dest := (r.forks b j).flatMap fun x => r.along x.1 x.2

/-- The edge direction that hop `h` of branch `b` crosses, if it crosses a die edge. -/
def Route.crossing (r : Route) (x0 y0 b h : Nat) : Option Nat :=
  match (r.paths[b]?).bind (·[h]?), (r.paths[b]?).bind (·[h + 1]?) with
  | some p, some q => (routeEdges (x0 + p.1) (y0 + p.2) (x0 + q.1) (y0 + q.2)).head?
  | _, _ => none

/-- The flits that a slot's buffer holds: 32 at a die-edge crossing and at a hub crossing, else 8 (02_fabric.md R34; log 56). -/
def Route.depth (r : Route) (x0 y0 key : Nat) : Nat :=
  if key = 0 then 32
  else if key % 128 ≠ 0 && (r.crossing x0 y0 (key / 128) (key % 128 - 1)).isSome then 32 else 8

/-- Flits that a hub crossing holds for the collective engine (log 56). -/
def hubDepth : Nat := 32

/-- Is there a credit for a destination (02_fabric.md R35, R44)? -/
def State.hasCredit (s : State) (p : Nat) (r : Route) (x0 y0 : Nat) (d : Dest) : Bool :=
  let st := s.stream p r.stream
  match d with
  | .slot k => let x := smapGet Slot.empty st.slots k; x.flits.length + x.owed < r.depth x0 y0 k
  | .ring rx ry ep => let e := (s.tile (s.tileRel p rx ry)).ep ep; e.ready + 64 ≤ e.ringSize
  | .hub b => (st.hubOut.filter fun f => f.1 = b).length < hubDepth

/-- A flit arrives at a destination: a ring takes its 64 bytes, and a LAST counts (04_tile_core.md R96, R107). -/
def State.place (s : State) (p stream : Nat) (f : Flit) (d : Dest) : State :=
  match d with
  | .slot k => s.updStream p stream fun st => { st with
      slots := smapUpd Slot.empty st.slots k fun x => { x with flits := x.flits ++ [f] } }
  | .ring rx ry ep => s.updTile (s.tileRel p rx ry) fun x =>
      let e := x.ep ep
      let a := e.ringBase + (e.head + e.ready) % (max 1 e.ringSize)
      let x := ((x.writeSp a f.data).updEp ep fun e => { e with ready := e.ready + 64 }).drain
      if f.last then x.bump 2 ep 1 else x
  | .hub b => s.updStream p stream fun st => { st with hubOut := st.hubOut ++ [(b, f.data)] }

/-- The bridge direction that a stream from the hub crosses into its partition (02_fabric.md R42). -/
def Route.hubEdge (r : Route) (x0 y0 : Nat) : Nat := 8 + 2 * tileDie (tileAt (x0 + r.srcRx) (y0 + r.srcRy)) + 1

/-- The die edge that a flit crosses out of the slot at hop `h` of branch `b`, and the bridges to hub sinks among its
destinations (02_fabric.md R42). -/
def Route.hopEdges (r : Route) (x0 y0 b h : Nat) (ds : List Dest) : List Nat :=
  let die (q : Nat × Nat) : Nat := tileDie (tileAt (x0 + q.1) (y0 + q.2))
  (if h = 0 then [] else (r.crossing x0 y0 b (h - 1)).toList) ++
    ds.filterMap fun d => match d with
      | .hub c => ((r.branches[c]?).bind fun x => (r.paths[c]?).bind fun q => x.endOf q).map fun q => 8 + 2 * die q
      | _ => none

/-- An error of the fabric stops the context of a partition (R46, R48; 15_shared_objects_and_submission.md R371). -/
def State.fabricError (s : State) (p : Nat) (f : Fld) (code : Nat) : State := (s.set f 1).stopReport p code none

/-- A discard at the boundary of a partition (R46). R46 says nothing of what a stream does after the flit is gone: its credit
goes back and the stream goes on, since R48 stalls a stream only for a parity error (log 116). -/
def State.boundaryError (s : State) (p : Nat) : State :=
  let s := if s.getF Reg.PART_FAB_CTRL_CNT_EN p 0 = 1 then s.addF Reg.PART_BND_VIOL p 0 1 else s
  s.fabricError p Reg.FAB_ERR_STAT_BND_VIOL 0x0301

/-- Take the flit at the front of a slot, or of what its tile or the collective engine has produced when `src`. A slot's flit
that leaves puts a credit on its way back (R35). -/
def StreamSt.take (st : StreamSt) (src : Bool) (key : Nat) : Option (Flit × StreamSt) :=
  if src then match st.src with
    | [] => none
    | f :: rest => some (f, { st with src := rest, taken := st.taken + 1 })
  else
    let x := smapGet Slot.empty st.slots key
    match x.flits with
    | [] => none
    | f :: rest => some (f, { st with slots := smapSet Slot.empty st.slots key { x with flits := rest, owed := x.owed + 1 } })

/-- Mark the slot where a flit was lost: nothing passes it any more, and it returns no credit (R48). -/
def StreamSt.jam (st : StreamSt) (key : Nat) : StreamSt :=
  { st with slots := smapUpd Slot.empty st.slots key fun x => { x with stuck := true } }

/-- The collectives of a partition take what has reached the hub. -/
def State.feedAll (s : State) (p : Nat) : State :=
  (s.link.colls.filter fun c => c.part = p).foldl (fun s c => s.feedColl c.tile) s

/-- Does a slot of a stream hold a flit and no credit (R49)? -/
def State.stalled (s : State) (p : Nat) (r : Route) (x0 y0 : Nat) : Bool :=
  (s.stream p r.stream).slots.any fun e => !e.2.flits.isEmpty &&
    !((r.dests (e.1 / 128) (e.1 % 128)).all fun d => s.hasCredit p r x0 y0 d)

/-- Count the cycles that slots of a partition have stalled since the last count; how many they are is free (R49, R51;
logs 1 and 10). -/
def State.countStalls (s : State) (p : Nat) : State :=
  match s.rect p with
  | none => s
  | some q =>
    let rs := (s.part p).image.routes.filter fun r => s.stalled p r (4 * q.cx0) (4 * q.cy0)
    if rs.isEmpty || s.getF Reg.PART_FAB_CTRL_CNT_EN p 0 = 0 then s
    else
      let s := (s.addF Reg.PART_STREAM_STALL p 0 (s.free (2 ^ 32))).tick
      if s.getF Reg.PART_FAB_CTRL_WATCH_EN p 0 = 1 && rs.any fun r => r.stream = s.getF Reg.PART_FAB_CTRL_WATCH_STREAM p 0 then
        (s.addF Reg.PART_WATCH_STALL p 0 (s.free (2 ^ 32))).tick
      else s

/-- Flits cross the edges and bridges of a hop, one unit on each (R41, R43, R51). -/
def State.crossFlit (s : State) (p : Nat) (eds : List Nat) (f : Flit) : State :=
  eds.foldl (fun s e =>
    let s := s.carry e 1 f.data
    if e < 8 && s.getF Reg.PART_FAB_CTRL_CNT_EN p 0 = 1 then s.addF Reg.PART_EDGE_FLITS p 0 1 else s) s

/-- STREAM_FLIT_SEND (R35 to R38, R42, R46, R48). -/
def execStreamFlitSend (p : PartIx) (stream : Fin 4096) (branch : Fin 16) (hop : Fin 128) (fault : NetFault) (s : State) :
    Res :=
  let k : Nat := p.val
  let b : Nat := branch.val
  let h : Nat := hop.val
  let key := 128 * b + h
  let j := (s.part k).image
  .next (match s.rect k, j.routes.find? fun r => r.stream = stream.val with
    | some q, some r =>
      let x0 := 4 * q.cx0
      let y0 := 4 * q.cy0
      let st := s.stream k r.stream
      let fromHub := j.hubSourced x0 y0 r
      let inject : Bool := fromHub && h = 0 && b = 1
      let ds := if inject then [.slot 0] else r.dests b h
      let eds := if inject then [r.hubEdge x0 y0] else r.hopEdges x0 y0 b h ds
      if !(s.part k).loaded || (h = 0 && b ≠ 0 && !inject) || ds.isEmpty || (smapGet Slot.empty st.slots key).stuck ||
          !(ds.all fun d => s.hasCredit k r x0 y0 d) || s.pathDown eds then s
      else match st.take (inject || (h = 0 && !fromHub)) key with
        | none => s
        | some (f, st') =>
          let sent := (s.countStalls k).updStream k r.stream fun _ => st'
          let sent := if h = 0 && !fromHub && s.getF Reg.PART_FAB_CTRL_CNT_EN k 0 = 1 then sent.addF Reg.PART_STREAM_FLITS k 0 1
            else sent
          match fault with
          | .parity => (sent.updStream k r.stream fun st => st.jam key).fabricError k Reg.FAB_ERR_STAT_STREAM_PAR 0x0303
          | .boundary => sent.boundaryError k
          | .none =>
            let s := sent.crossFlit k eds f
            let s := ds.foldl (fun s d => s.place k r.stream f d) s
            if ds.any fun d => match d with
              | .hub _ => true
              | _ => false then s.feedAll k else s
    | _, _ => s)

/-- CREDIT_RETURN (R35): a slot that lost a flit gets none back (R48). -/
def execCreditReturn (p : PartIx) (stream : Fin 4096) (branch : Fin 16) (hop : Fin 128) (s : State) : Res :=
  .next (s.updStream p.val stream.val fun st => { st with
    slots := smapUpd Slot.empty st.slots (128 * branch.val + hop.val) fun x =>
      if x.stuck then x else { x with owed := x.owed - 1 } })

/-! ## Packets (R40, R46, R48; 04_tile_core.md R95, R107) -/

/-- Do two packets travel on one channel: they have the same source and the same destination (R40)? -/
def NetMsg.sameChannel (a b : NetMsg) : Bool :=
  a.kind = b.kind && a.srcTile = b.srcTile && a.srcEp = b.srcEp && a.dstTile = b.dstTile && a.dstEp = b.dstEp

/-- The tile whose partition a packet belongs to. -/
def NetMsg.owner (m : NetMsg) : Nat := match m.kind with
  | .data => m.srcTile
  | .report => m.srcTile
  | .request _ => m.srcTile
  | _ => m.dstTile

/-- Packet `i` in flight leaves the network, if no earlier one of its channel is in flight and its way is whole: it is lost to
a fault, or it arrives. -/
def State.arrive (s : State) (i : Nat) (fault : NetFault) (ok : NetMsg → Bool) (f : NetMsg → State → State) : State :=
  match s.fab.net[i]? with
  | none => s
  | some m =>
    if (s.fab.net.take i).any m.sameChannel || s.pathDown m.edges then s
    else
      let gone := { s with fab := { s.fab with net := s.fab.net.eraseIdx i } }
      match fault, s.partOf m.owner with
      | .parity, some p => gone.fabricError p Reg.FAB_ERR_STAT_MSG_PAR 0x0303
      | .boundary, some p => gone.boundaryError p
      | .none, _ => if ok m then f m (gone.countEdges m.edges) else s
      | _, none => gone

/-- MSG_PACKET_ARRIVE (R40; 04_tile_core.md R95): channel data enter the receive queue of their endpoint, a reply of the hub
the reply buffer. Reports, requests and stops have rows of their own, unless they are lost. -/
def execMsgPacketArrive (i : Nat) (fault : NetFault) (s : State) : Res :=
  .next (s.arrive i fault (fun m => m.kind = .data || m.kind = .reply) fun m s =>
    s.updTile m.dstTile fun x =>
      if m.kind = .data then
        (x.updEp m.dstEp fun e => { e with queue := e.queue ++ [⟨m.srcTile, m.srcEp, m.words⟩] }).bump 3 m.dstEp 1
      else { x with replyBuf := some m.words }.bump 3 m.dstEp 1)

/-- MSG_CREDIT_RETURN (R40; 04_tile_core.md R95). -/
def execMsgCreditReturn (i : Nat) (fault : NetFault) (s : State) : Res :=
  .next (s.arrive i fault (fun m => m.kind = .credit) fun m s =>
    s.updTile m.dstTile fun x => x.updEp m.dstEp fun e => { e with credits := min 4 (e.credits + 1) })

/-! ## Die edges and hub bridges (R41, R43, R48, R469; 11_memory_tiers_and_weights.md R270) -/

/-- EDGE_REPLAY (R41, R43): a transfer unit of an edge (0 to 3) or a bridge (4 to 7) fails its CRC or its tag. -/
def execEdgeReplay (e : Fin 8) (dir : Fin 2) (s : State) : Res :=
  let k : Nat := e.val
  .next (
    if s.edgeDown k then s
    else
      let s := { s.set Reg.FAB_ERR_STAT_EDGE_REPLAY 1 with
        fab := { s.fab with replays := smapUpd 0 s.fab.replays (2 * k + dir.val) (· + 1) } }
      if k < 4 && s.get Reg.FAB_CTRL_CNT_EN = 1 && s.get Reg.FAB_CTRL_CNT_FREEZE = 0 then s.addF Reg.FAB_EDGE_REPLAY k 0 1 else s)

/-- The controllers that hold a sector of a plan (11_memory_tiers_and_weights.md R266): sector q of a region lies on
controller q mod |L| of its list. -/
def State.planCtrls (s : State) (p : Nat) : List Nat :=
  (((s.part p).image.plan).flatMap fun r => (s.regionCtrls p r).take r.sectorCount).dedup

/-- The edges and bridges that a partition's routes, channels, memory traffic and running pass need (R48, R469;
09_parameter_update.md R228). R48 names routes and memory
traffic; a MSG channel or a HUB endpoint whose way crosses the edge or bridge counts as a route of the context (log 117). -/
def State.contextNeeds (s : State) (p : Nat) : List Nat :=
  let j := (s.part p).image
  match s.rect p with
  | none => []
  | some q =>
    let x0 := 4 * q.cx0
    let y0 := 4 * q.cy0
    let routes := j.routes.flatMap fun r => (r.branches.zipIdx.flatMap fun b =>
      (List.range (b.1.dirs.length + 1)).flatMap fun h => (r.hopEdges x0 y0 b.2 h (r.dests b.2 h)).map (· / 2)) ++
      if j.hubSourced x0 y0 r then [r.hubEdge x0 y0 / 2] else []
    let chans := j.bindings.flatMap fun c =>
      let t := s.tileRel p c.rx c.ry
      if c.kind = 0 then
        let u := s.tileRel p c.prx c.pry
        (routeEdges (tileX t) (tileY t) (tileX u) (tileY u)).map (· / 2)
      else if c.kind = 3 then [4 + tileDie t] else []
    let mem := (s.codedTiles p).flatMap fun t => (s.planCtrls p).flatMap fun n => (memEdges t n).map (· / 2)
    routes ++ chans ++ mem ++ s.passNeeds p

/-- A MIGRATE whose path has failed ends; its region stays (11_memory_tiers_and_weights.md R270). -/
def State.dropMigrates (s : State) (p e : Nat) : State :=
  (s.ctxQueues (s.part p).ctx).foldl (fun s q =>
    match s.qHead q with
    | some c =>
      if c.op = 0x12 && c.stage = .running && (s.migrateNeeds p c).contains e then
        (s.settleRegion p (migOp c).1).endCmd q 0x0304
      else s
    | none => s) s

/-- EDGE_FAIL (R41, R48): after 8 consecutive failed replays. -/
def execEdgeFail (e : Fin 8) (s : State) : Res :=
  let k : Nat := e.val
  .next (
    if s.edgeDown k || !((List.range 2).any fun d => 8 ≤ smapGet 0 s.fab.replays (2 * k + d)) then s
    else
      let s := if k < 4 then s.set Reg.FAB_ERR_STAT_EDGE_FAIL (setBit (s.get Reg.FAB_ERR_STAT_EDGE_FAIL) k)
        else s.set Reg.FAB_ERR_STAT_BRIDGE_FAIL (setBit (s.get Reg.FAB_ERR_STAT_BRIDGE_FAIL) (k - 4))
      let s := { s with fab := { s.fab with down := s.fab.down ++ [k] } }
      let loaded := (List.range 32).filter fun p => (s.part p).loaded
      loaded.foldl (fun s p =>
        let s := s.dropMigrates p k
        if (s.contextNeeds p).contains k then s.stopReport p 0x0304 none else s) s)

/-- EDGE_REKEY (R43): the hub draws a new key for a direction, whose numbers begin at 0 again. -/
def execEdgeRekey (e : Fin 8) (dir : Fin 2) (s : State) : Res :=
  let k : Nat := 2 * e.val + dir.val
  .next (
    if smapGet 0 s.fab.seqs k < 2 ^ 63 then s
    else s.drawEdgeKey k)

end Sys2Proof.Machine
end

