-- ==== Sys2Proof/Machine/Gates.lean ====
section
/-!
DEFINITION. Eclipse and the Penumbra gates (13_tenants_and_joint_training.md R312 to R314, R322 to R330).
-/

namespace Sys2Proof.Machine

/-! ## Eclipse (R313, R314) -/

/-- Is a packet one of a list of tiles: theirs when a tile sent it, to them when the hub did? -/
def NetMsg.within (m : NetMsg) (l : List Nat) : Bool :=
  match m.kind with
  | .data | .report | .request _ => l.contains m.srcTile
  | .credit => l.contains m.dstTile
  | .reply | .stop => l.contains m.dstTile

/-- Eclipse of a partition begins: its clusters in IDLE or NAP wake, and its on-die state is cleared; the key caches
lose the key IDs of the departing plan. -/
def State.beginEclipse (s : State) (p : Nat) (keys : List Nat) : State :=
  let l := s.partTiles p
  let s := s.powerClusters ((s.partClusters p).filter fun c => s.cluster c = 1 || s.cluster c = 2) 0
  let s := { s with
    tiles := s.tiles.filter (fun e => !l.contains e.1),
    fab := { s.fab with
      net := s.fab.net.filter (fun m => !m.within l),
      streams := s.fab.streams.filter (fun e => e.1 / 4096 ≠ p) },
    link := { s.link with colls := s.link.colls.filter (fun c => c.part ≠ p) } }
  (s.showColl.flushKeys keys).updPart p fun x => { x with eclipse := true }

/-- The words of the active gate program: what follows the header of its image (19_lifecycle_firmware_debug.md R456). -/
def State.gateProgram (s : State) : List (BitVec 32) :=
  let b := s.pilot.flash.image 3
  ((chunks 4 (slice b 192 (rd b 16 4))).take 32768).map fun w => BitVec.ofNat 32 (leNat w)

/-- The module loads the gate program into the tiles of a gate partition (03_configuration_images.md R61;
18_power_clocks_and_reset.md R441). What they then do are the steps of R326, so they execute no other command (log 118). -/
def State.loadGateProgram (s : State) (p : Nat) : State :=
  if s.isGate p then
    (s.partTiles p).foldl (fun s t => s.updTile t fun x => { x with coded := true, imem := smapWrite 0 [] 0 s.gateProgram }) s
  else s

/-! ## Manifests (R75, R76, R322) -/

/-- The partition of a gate in the frame in force. -/
def State.gatePart (s : State) (g : Nat) : Option Nat := (s.frame.gates.find? fun e => e.1 = g).map (·.2)

/-- A gate's entry. -/
def Manifest.entryOf (m : Manifest) (g : Nat) : Option GateEntry := m.gates.find? fun e => e.gate = g

/-- The owner entries in a gate's OWNER_MASK, by number. -/
def Manifest.participants (m : Manifest) (e : GateEntry) : List (Nat × OwnerEntry) :=
  (m.owners.zipIdx.filter fun o => bit e.ownerMask o.2).map fun o => (o.2, o.1)

/-- Does a partition hold its image of a manifest? -/
def State.holds (s : State) (p : Nat) (m : Manifest) : Bool :=
  (s.part p).loaded && match (s.part p).image.manifest with
    | some n => n.raw = m.raw
    | none => false

/-- The manifest whose images name a gate. -/
def State.gateManifest (s : State) (g : Nat) : Option Manifest :=
  (List.range 32).findSome? fun p =>
    if (s.part p).loaded then (s.part p).image.manifest.filter fun m => (m.entryOf g).isSome else none

/-- STATE of a gate. -/
def State.gateState (s : State) (g : Nat) : Nat := s.getF Reg.GATE_g_STAT_STATE g 0

/-- The step a gate works on. -/
def State.gateRun (s : State) (g : Nat) : Option GateRun := (s.ten.gates.find? fun e => e.1 = g).map (·.2)

/-- Set what a gate works on. -/
def State.setGateRun (s : State) (g : Nat) (r : Option GateRun) : State :=
  let l := s.ten.gates.filter fun e => e.1 ≠ g
  { s with ten := { s.ten with gates := match r with
    | some r => l ++ [(g, r)]
    | none => l } }

/-- A gate is armed once every partition of its manifest holds its image: the hub writes its rights entry (R326). -/
def State.armGate (s : State) (m : Manifest) (e : GateEntry) : State :=
  match s.gatePart e.gate with
  | none => s
  | some gp =>
    if s.gateState e.gate = 0 && m.owners.all fun o => s.holds o.part m then
      (s.setF Reg.GATE_g_STAT_STATE e.gate 0 1).setRights gp
        { read := keyMap ((m.participants e).map fun o => o.2.keyId), write := keyMap [e.modelKey], stewardOnly := false,
          rawRead := false }
    else s

/-! ## Abandonment (R328, R329) -/

/-- A gate leaves the step it works on for ARMED with L := n. -/
def State.endGateStep (s : State) (g : Nat) : State :=
  let s := match s.gateRun g with
    | some r => s.setF Reg.GATE_g_STEP_L g 0 r.step
    | none => s
  ((s.setGateRun g none).setF Reg.GATE_g_STAT_HAVE g 0 0).setF Reg.GATE_g_STAT_STATE g 0 1

/-- A gate abandons its step with a code, and an owner entry when one is at fault (R328, R329). -/
def State.abandonGate (s : State) (m : Manifest) (g code : Nat) (at? : Option Nat) : State :=
  let s := ((((s.endGateStep g).setF Reg.GATE_g_STAT_LAST_ERR g 0 code).setF Reg.GATE_g_STAT_FAIL_ENTRY g 0 (at?.getD 0)).setF
    Reg.GATE_g_STAT_FAIL_VALID g 0 (if at?.isSome then 1 else 0)).addF Reg.GATE_g_STAT_ABANDONED g 0 1
  match m.entryOf g with
  | none => s
  | some e => ((m.participants e).filter fun o => s.holds o.2.part m).foldl (fun s o => s.stopReport o.2.part code none) s

/-- A manifest partition no longer holds its image: a gate that works on a step abandons it, the gate goes to IDLE, its rights
are emptied and its partition is eclipsed (R326, R328, R329). -/
def State.idleGate (s : State) (m : Manifest) (g : Nat) : State :=
  if s.gateState g = 0 then s
  else
    let s := if 2 ≤ s.gateState g then s.abandonGate m g 0x060A none else s
    let s := (s.setF Reg.GATE_g_STAT_STATE g 0 0).setF Reg.GATE_g_STEP_L g 0 0
    match s.gatePart g with
    | some gp => (s.setRights gp Rights.none).beginEclipse gp []
    | none => s

/-! ## Accesses of a gate (R326) -/

/-- Is a code one whose refusal Prism records with its master (12_prism_memory_protection.md R304, R307)? -/
def recorded (code : Nat) : Bool := [0x0601, 0x0602, 0x0603, 0x0604, 0x0607, 0x0202, 0x0204].contains code

/-- An access by a gate as the master of its own partition that resolves through a participant's plan. A refusal that Prism
records names the gate's master; `failed` gives the code of one. -/
def State.asGate {α : Type} (s : State) (gp p : Nat) (f : State → State × α) (failed : α → Option Nat) : State × α :=
  let own := s.rightsOf p
  let (s, x) := f (s.setRights p (s.rightsOf gp))
  let s := s.setRights p own
  (if (failed x).any recorded then s.set Reg.PRISM_STAT_LAST_MASTER gp else s, x)

/-- The edges and bridges between a gate, whose partition is one cluster, and a controller (02_fabric.md R41, R42). -/
def State.gateVia (s : State) (gp n : Nat) : List Nat := memEdges (s.tileRel gp 0 0) n

/-- A read by a gate. -/
def State.gateRead (s : State) (gp p a n : Nat) : State × Except Nat Bytes :=
  s.asGate gp p (fun s => s.readVia (s.gateVia gp) p 0 [] a n) fun
    | .error e => some e
    | .ok _ => none

/-- A write by a gate. -/
def State.gateWrite (s : State) (gp p a : Nat) (b : Bytes) : State × Option Nat :=
  s.asGate gp p (fun s => s.writeVia (s.gateVia gp) p 0 [] a b) id

/-- The region of a partition's plan by its number, with the address it begins at. -/
def State.regionAt (s : State) (p n : Nat) : Option (Region × Nat) :=
  ((s.part p).image.plan.find? fun r => r.region = n).map fun r => (r, r.keyId * 2 ^ 52 + r.base)

/-! ## Headers (R324 to R328) -/

/-- Bytes of a payload of packed elements (R324; 06_accumulation_and_numerics.md R146). -/
def payloadBytes (fmt count : Nat) : Nat := ceilDiv (count * (fmtD fmt).bits) 8

/-- Are the reserved bits of a contribution's header zero (R324)? -/
def headClean (b : Bytes) : Bool := rd b 8 8 / 2 ^ 40 = 0 && rd b 16 8 / 4 = 0 && allZero (slice b 24 40)

/-- May an input have a FMT under a COMBINE (R327)? -/
def combineFmt (combine fmt : Nat) : Bool := if combine = 2 then fmt = 0x14 else fmt = 1 || fmt = 2

/-- GATE_HEADER_READ (R326, R328): the gate reads the contribution header of an owner entry. A header with STEP 0 is none. -/
def execGateHeaderRead (g entry : Fin 16) (s : State) : Res :=
  let k : Nat := g.val
  let i : Nat := entry.val
  .next (match s.gatePart k, s.gateManifest k with
    | some gp, some m =>
      match m.entryOf k, m.owners[i]? with
      | some e, some o =>
        match s.regionAt o.part (0xF00 + k) with
        | some (r, a) =>
          if !(s.gateState k = 1 || s.gateState k = 2) || !bit e.ownerMask i then s
          else match s.gateRead gp o.part a 64 with
            | (s, .error _) => s.abandonGate m k 0x060B (some i)
            | (s, .ok b) =>
              let n := rd b 0 8
              let run := (s.gateRun k).getD { step := n, heads := [], combined := none }
              let fmt := rd b 12 1
              let count := rd b 8 4
              if n = 0 then s
              else if n ≤ s.getF Reg.GATE_g_STEP_L k 0 || run.step < n then s.addF Reg.GATE_g_STAT_IGNORED k 0 1
              else if n ≠ run.step || run.heads.any fun h => h.1 = i then s
              else
                let s := s.setGateRun k (some run)
                if headClean b && combineFmt e.combine fmt && 4096 + payloadBytes fmt count ≤ r.size &&
                    run.heads.all fun h => h.2 = (count, fmt) then
                  let heads := run.heads ++ [(i, count, fmt)]
                  let all : Bool := (m.participants e).all fun o => heads.any fun h => h.1 = o.1
                  (((s.setGateRun k (some { run with heads := heads })).setF Reg.GATE_g_STAT_HAVE k 0
                    (setBit (s.getF Reg.GATE_g_STAT_HAVE k 0) i)).setF Reg.GATE_g_STAT_STATE k 0 (if all then 3 else 2))
                else s.abandonGate m k 0x060B (some i)
        | none => s
      | _, _ => s
    | _, _ => s)

/-- GATE_TIMEOUT (R326, R328, R329): an owner at fault is named when only one has not contributed. -/
def execGateTimeout (g : Fin 16) (s : State) : Res :=
  let k : Nat := g.val
  .next (match s.gateManifest k, s.gateRun k with
    | some m, some run =>
      if s.gateState k ≠ 2 then s
      else match (m.entryOf k).map fun e => (m.participants e).filter fun o => run.heads.all fun h => h.1 ≠ o.1 with
        | some [o] => s.abandonGate m k 0x060A (some o.1)
        | _ => s.abandonGate m k 0x060A none
    | _, _ => s)

/-! ## Combining (R327) -/

/-- The value of an SGN2 element: 0b01 is 1, 0b11 is −1, and 0b00 and 0b10 are 0 (06_accumulation_and_numerics.md R148). -/
def sgn2 (x : Nat) : Int := if x % 4 = 1 then 1 else if x % 4 = 3 then -1 else 0

/-- One element of a release: the inputs' bits give bits, SAT and NAN. The order of a sum is unspecified, so where it
matters the sum is free within its bound (06_accumulation_and_numerics.md R155; log 1). -/
def combineElem (combine fmt w : Nat) (xs : List Nat) : Nat × Bool × Bool :=
  if combine = 2 then
    let v := (xs.map sgn2).sum
    (if 0 < v then 1 else if v < 0 then 3 else 0, false, false)
  else
    let fm := fmtD fmt
    let ins := xs.map fm.read
    let terms := ins.map (·.1)
    let (v, _, sat, nan) := floatSum false w none (terms.map fun v => ((v, ExNum.zero), false)) terms terms.length
    let v := if combine = 1 then divSticky v xs.length else v
    let (b, cs, cn) := fm.conv .rne 0 v
    (b, sat || cs || ins.any (fun x => x.2.1), nan || cn || ins.any fun x => x.2.2)

/-- Read every owner's payload, in owner-entry order: the payloads, or the entry whose read fails. -/
def State.payloads (s : State) (gp g : Nat) (l : List (Nat × OwnerEntry)) (n : Nat) : State × Except Nat (List Bytes) :=
  l.foldl (fun acc o => match acc with
    | (s, .error e) => (s, .error e)
    | (s, .ok bs) => match s.regionAt o.2.part (0xF00 + g) with
      | none => (s, .error o.1)
      | some (_, a) => match s.gateRead gp o.2.part (a + 4096) n with
        | (s, .error _) => (s, .error o.1)
        | (s, .ok b) => (s, .ok (bs ++ [b]))) (s, .ok [])

/-- GATE_COMBINE_DONE (R327, R328). -/
def execGateCombineDone (g : Fin 16) (s : State) : Res :=
  let k : Nat := g.val
  .next (match s.gatePart k, s.gateManifest k, s.gateRun k with
    | some gp, some m, some run =>
      match m.entryOf k, run.heads.head? with
      | some e, some (_, count, fmt) =>
        if s.gateState k ≠ 3 then s
        else match s.payloads gp k (m.participants e) (payloadBytes fmt count) with
          | (s, .error i) => s.abandonGate m k 0x060B (some i)
          | (s, .ok bs) =>
            let bits := (fmtD fmt).bits
            let ins := bs.map (unpackBits bits count)
            let els := (List.range count).map fun i => combineElem e.combine fmt (Config.freeElem s.fresh i)
              (ins.map fun l : List Nat => l.getD i 0)
            let sat : Bool := els.any fun x => x.2.1
            let nan : Bool := els.any fun x => x.2.2
            (s.tick.setGateRun k (some { run with combined := some (packBits bits (els.map (·.1)), fmt, sat, nan) })).setF
              Reg.GATE_g_STAT_STATE k 0 4
      | _, _ => s
    | _, _, _ => s)

/-- The header of a release (R324). -/
def releaseHead (step count fmt : Nat) (sat nan : Bool) : Bytes :=
  leBytes 8 step ++ leBytes 8 (count + fmt * 2 ^ 32) ++ leBytes 8 ((if sat then 1 else 0) + (if nan then 2 else 0)) ++ zeros 40

/-- Write to the release region of every participant in owner-entry order, at an offset: the entry whose write fails, if
any. -/
def State.releaseAll (s : State) (gp g off : Nat) (l : List (Nat × OwnerEntry)) (b : Bytes) : State × Option Nat :=
  l.foldl (fun acc o => match acc with
    | (s, some e) => (s, some e)
    | (s, none) => match s.regionAt o.2.part (0xF10 + g) with
      | none => (s, some o.1)
      | some (_, a) => match s.gateWrite gp o.2.part (a + off) b with
        | (s, some _) => (s, some o.1)
        | (s, none) => (s, none)) (s, none)

/-- GATE_RELEASE_DONE (R326 to R328): every payload, then every header. -/
def execGateReleaseDone (g : Fin 16) (s : State) : Res :=
  let k : Nat := g.val
  .next (match s.gatePart k, s.gateManifest k, s.gateRun k with
    | some gp, some m, some run =>
      match m.entryOf k, run.combined, run.heads.head? with
      | some e, some (b, fmt, sat, nan), some (_, count, _) =>
        if s.gateState k ≠ 4 then s
        else match s.releaseAll gp k 4096 (m.participants e) b with
          | (s, some i) => s.abandonGate m k 0x060B (some i)
          | (s, none) => match s.releaseAll gp k 0 (m.participants e) (releaseHead run.step count fmt sat nan) with
            | (s, some i) => s.abandonGate m k 0x060B (some i)
            | (s, none) => s.endGateStep k
      | _, _, _ => s
    | _, _, _ => s)

end Sys2Proof.Machine
end

