-- ==== Sys2Proof/Machine/Pilot.lean ====
section
/-!
DEFINITION. The Pilot island's messages and its flash: the mailbox, the vendor commands and how they are answered
(14_host_attach.md R347; 18_power_clocks_and_reset.md R442, R445, R446; 19_lifecycle_firmware_debug.md R461), the
flash areas and their wear, the firmware and loader images and their application at a start (R449, R456 to R462).
-/

namespace Sys2Proof.Machine

/-! ## The mailbox (14_host_attach.md R347) -/

/-- Change the mailbox. -/
def State.updMbox (s : State) (f : Mailbox → Mailbox) : State := s.updPilot fun p => { p with mbox := f p.mbox }

/-- MBOX_GO (R347): the request of REQ_LEN bytes goes to the Pilot island. -/
def execMboxGo (len : BitVec 13) (s : State) : Res :=
  .next (s.cxlIo fun s =>
    let n : Nat := len.toNat
    let s := s.set Reg.MBOX_CTRL_REQ_LEN n
    if s.get Reg.MBOX_STAT_BUSY = 1 then s.set Reg.MBOX_STAT_OVERRUN 1
    else
      let b := smapRead 0 s.pilot.mbox.reqBuf 0 n
      let ty := rd b 0 1
      if n = 0 || 4096 < n || !(ty = 0x00 || ty = 0x05 || ty = 0x7E) then
        (s.set Reg.MBOX_STAT_ERR 1).set Reg.MBOX_STAT_RSP_LEN 0
      else
        ((s.set Reg.MBOX_STAT_ERR 0).set Reg.MBOX_STAT_BUSY 1).updMbox fun m => { m with reqs := m.reqs ++ [(b, false)] })

/-- The Pilot island writes a response, sets DONE and RSP_LEN and raises vector 0 (R347 step 3). -/
def State.deliver (s : State) : State :=
  match s.pilot.mbox.rsp with
  | none => s
  | some r =>
    let s := s.updMbox fun m => { m with rsp := none, rspBuf := smapWrite 0 m.rspBuf 0 r }
    (((s.set Reg.MBOX_STAT_BUSY 0).set Reg.MBOX_STAT_DONE 1).set Reg.MBOX_STAT_RSP_LEN r.length).raise 0

/-- MBOX_RESPONSE (R347). -/
def execMboxResponse (s : State) : Res := .next (if s.hubUp then s.deliver else s)

/-- The bytes of a request: those that came over I3C, or the oldest that waits in the mailbox. -/
def State.request (s : State) (req : Option Bytes) : Option Bytes :=
  match req with
  | some b => some b
  | none => s.pilot.mbox.reqs.head?.map (·.1)

/-- A response goes back the way its request came; a discarded one goes nowhere (R347). -/
def State.respond (s : State) (req : Option Bytes) (rsp : Bytes) : State :=
  match req with
  | some _ => s.emit (.mctp rsp)
  | none => match s.pilot.mbox.reqs with
    | [] => s
    | (_, lost) :: rest => s.updMbox fun m => { m with reqs := rest, rsp := if lost then m.rsp else some rsp }

/-! ## Vendor commands (18_power_clocks_and_reset.md R442; 19_lifecycle_firmware_debug.md R461) -/

/-- The vendor header: message type 0x7E and the vendor's number, most significant byte first (log 52). -/
def State.vendorHead (s : State) : Bytes := 0x7E :: beBytes 2 (s.get Reg.CAP_VENDOR_VENDOR_ID)

/-- The body of a vendor request with a command byte. -/
def State.vendorBody (s : State) (cmd : Nat) (b : Bytes) : Option Bytes :=
  if b.take 3 = s.vendorHead && 4 ≤ b.length && rd b 3 1 = cmd then some (b.drop 4) else none

/-- The response to a vendor command: its completion code and its body (log 52). -/
def State.vendorRsp (s : State) (cmd code : Nat) (body : Bytes) : Bytes :=
  s.vendorHead ++ [BitVec.ofNat 8 cmd, BitVec.ofNat 8 code] ++ body

/-- How the Pilot island meets a request. -/
inductive Meet where
  /-- it serves it -/
  | serve
  /-- it answers 0x02 -/
  | refuse
  /-- it NACKs the transfer -/
  | nack
  /-- it does not answer -/
  | silent
  deriving DecidableEq, Repr

/-- How the Pilot island meets a vendor command (18_power_clocks_and_reset.md R445, R446; 19_lifecycle_firmware_debug.md R451,
R458, R461): `i3c` when it comes over I3C, else over the mailbox. -/
def State.meet (s : State) (i3c : Bool) (cmd : Nat) : Meet :=
  match s.pilot.boot with
  | .ready => .serve
  | .noRef => if i3c then .serve else .silent
  | .failed => if i3c && 1 ≤ cmd && cmd ≤ 4 then .serve else .silent
  | .parked => if !i3c then .silent else if cmd = 0x10 then .serve else .refuse
  | .recovery => if i3c && (cmd = 0x10 || (0x14 ≤ cmd && cmd ≤ 0x17)) then .serve else .silent
  | .off => .silent
  | _ => if i3c then .nack else .silent

/-- A vendor command: what it does gives its completion code and its response body, and what an accepted one does after its
response has been sent. -/
def State.vendor (s : State) (cmd : Nat) (req : Option Bytes) (f : Bytes → State → State × Nat × Bytes)
    (after : Bytes → State → State) : State :=
  match (s.request req).bind fun b => s.vendorBody cmd b with
  | none => s
  | some body =>
    match s.meet req.isSome cmd with
    | .silent => s
    | .nack => s.emit .nack
    | .refuse => s.respond req (s.vendorRsp cmd 0x02 [])
    | .serve =>
      let r := f body s
      let s := r.1.respond req (r.1.vendorRsp cmd r.2.1 r.2.2)
      if r.2.1 = 0 then after body s else s

/-- A vendor command with nothing to do after its response. -/
def State.vendorCmd (s : State) (cmd : Nat) (req : Option Bytes) (f : Bytes → State → State × Nat × Bytes) : State :=
  s.vendor cmd req f fun _ s => s

/-- MCTP_CONTROL (R347; 18_power_clocks_and_reset.md R446; log 25). -/
def execMctpControl (req : Option (List Byte)) (s : State) : Res :=
  .next (match s.request req with
    | none => s
    | some b =>
      if rd b 0 1 ≠ 0 || b.isEmpty then s
      else match s.pilot.boot, req.isSome with
        | .ready, _ | .noRef, true | .failed, true | .parked, true | .recovery, true => s.respond req (Config.mctpAnswer b)
        | .waitRef, true | .running, true | .held, true | .tripped, true => s.emit .nack
        | _, _ => s)

/-! ## Flash areas (19_lifecycle_firmware_debug.md R449, R462) -/

/-- The sub-areas whose erase counts the model keeps: record copies 0, certificate chain 2, settings copies 3, active and
staging slots of KIND k 2 + 2k and 3 + 2k, start frame 12. -/
def activeArea (k : Nat) : Nat := 2 + 2 * k

/-- The staging slot of a KIND. -/
def stageArea (k : Nat) : Nat := 3 + 2 * k

/-- The units of 4 KiB in a slot of a KIND (R449). -/
def slotUnits : Nat → Nat
  | 1 => 256
  | 2 => 4096
  | 3 => 128
  | _ => 2304

/-- Has a sub-area reached its rated erase count (R462)? -/
def State.worn (s : State) (a : Nat) : Bool := 100000 ≤ smapGet 0 s.pilot.flash.wear a

/-- Change the flash. -/
def State.updFlash (s : State) (f : Flash → Flash) : State := s.updPilot fun p => { p with flash := f p.flash }

/-- Erase units of a sub-area from its first (R462). -/
def State.eraseArea (s : State) (a units : Nat) : State :=
  s.updFlash fun f => { f with wear := smapUpd 0 f.wear a (· + 1), erases := f.erases + units }

/-- Set WEAR_LIMIT (R462). -/
def State.atWearLimit (s : State) : State := s.updPilot fun p => { p with wearLimit := true }

/-- Put an active image. -/
def Flash.setActive (f : Flash) (k : Nat) (b : Bytes) : Flash :=
  { f with active := (f.active.filter fun e => e.1 ≠ k) ++ [(k, b)] }

/-- The complete staged image of a KIND. -/
def Flash.stagedOf (f : Flash) (k : Nat) : Bytes := smapGet [] f.staged k

/-- Put a complete staged image; none is the empty string. -/
def Flash.setStaged (f : Flash) (k : Nat) (b : Bytes) : Flash := { f with staged := smapSet [] f.staged k b }

/-! ## Images (19_lifecycle_firmware_debug.md R456; 14_host_attach.md R345) -/

/-- The fields of a firmware header are in range (R456). -/
def fwFieldsOk (k : Nat) (b : Bytes) : Bool :=
  rd b 0 4 = 0x57463445 && rd b 4 2 = 1 && rd b 6 1 = k && rd b 7 1 = 0 && 1 ≤ rd b 10 2 && rd b 14 2 = 0 &&
    rd b 16 4 % 64 = 0 && rd b 16 4 + 192 ≤ 4096 * slotUnits k && allZero (slice b 20 12)

/-- SIGNER_KEY and SIG of a firmware header (R456). -/
def fwSigned (b : Bytes) : Bool :=
  Config.sha512 (slice b 96 32) = Config.fwKeyHash &&
    Config.ed25519Verify (slice b 96 32) (Config.sha512 (b.take 128)) (slice b 128 64)

/-- The fields of a loader are in range (14_host_attach.md R345). -/
def loaderFieldsOk (b : Bytes) : Bool :=
  rd b 0 4 = 0x4C533445 && rd b 4 2 = 1 && rd b 6 2 = 0 && rd b 8 4 % 64 = 0 && 64 ≤ rd b 8 4 && rd b 8 4 ≤ 8388608 &&
    rd b 12 4 % 4 = 0 && rd b 12 4 < rd b 8 4 && allZero (slice b 24 40)

/-- The SHA-512 of a loader that its signature covers and that measurement 5 shows (14_host_attach.md R345). -/
def loaderHash (b : Bytes) : Bytes := Config.sha512 (b.take (64 + rd b 8 4))

/-- A loader's key and signature (14_host_attach.md R345). -/
def loaderSigned (operator : Option Bytes) (b : Bytes) : Bool :=
  let n := 64 + rd b 8 4
  match operator with
  | none => false
  | some k => slice b n 32 = k && Config.ed25519Verify k (loaderHash b) (slice b (n + 32) 64)

/-- The length of an image that its header implies. -/
def imageLen (k : Nat) (b : Bytes) : Nat := if k = 4 then 160 + rd b 8 4 else 192 + rd b 16 4

/-- The security-version counter in force. -/
def Flash.secVersion (f : Flash) : Nat := match f.record with
  | some r => r.secVersion
  | none => 0

/-- The key that signs frames and loaders: OPERATOR, where the state accepts any (R452). -/
def Flash.operator (f : Flash) : Option Bytes := match f.record with
  | some r => if 1 ≤ r.state && r.state ≤ 4 then some r.operator else none
  | none => none

/-- The first completion code that the header of a staged image earns under HEADER_FIRST (R457); 0 for none. -/
def Flash.headerCode (f : Flash) (k total : Nat) (b : Bytes) : Nat :=
  if k = 4 then (if loaderFieldsOk b && imageLen 4 b = total then 0 else 0x0B)
  else if !(fwFieldsOk k b && imageLen k b = total) then 0x0B
  else if !fwSigned b then 0x03
  else if rd b 10 2 < f.secVersion then 0x08
  else 0

/-- The check of the rest at STAGE_FINISH under HEADER_FIRST (R457). -/
def Flash.bodyCode (f : Flash) (k : Nat) (b : Bytes) : Nat :=
  if k = 4 then (if loaderSigned f.operator b then 0 else 0x03)
  else if Config.sha512 (b.drop 192) = slice b 32 64 then 0 else 0x0C

/-- An image is valid (R456; 14_host_attach.md R345). -/
def Flash.imageOk (f : Flash) (k : Nat) (b : Bytes) : Bool := f.headerCode k b.length b = 0 && f.bodyCode k b = 0

/-! ## A start (19_lifecycle_firmware_debug.md R451, R458 to R460) -/

/-- Apply the staged image of a KIND (R458, R462). -/
def State.applyStaged (s : State) (k : Nat) : State :=
  let b := s.pilot.flash.stagedOf k
  if b = [] then s
  else if !s.feedsOk then s.updPilot fun p => { p with deferred := true }
  else if s.worn (activeArea k) || s.worn (stageArea k) then s.atWearLimit
  else if bit s.pilot.fwCheck 1 && !s.pilot.flash.imageOk k b then
    (((s.updPilot fun p => { p with rejected := true }).eraseArea (stageArea k) 1).updFlash fun f => f.setStaged k [])
  else
    ((s.eraseArea (activeArea k) (slotUnits k)).eraseArea (stageArea k) 1).updFlash fun f =>
      (f.setActive k b).setStaged k []

/-- The security-version counter follows the lowest of the three firmware images (R459). -/
def State.raiseCounter (s : State) : State :=
  let f := s.pilot.flash
  let v := min (rd (f.image 1) 10 2) (min (rd (f.image 2) 10 2) (rd (f.image 3) 10 2))
  match f.record with
  | none => s
  | some r =>
    if v ≤ r.secVersion then s
    else if s.worn 0 then s.atWearLimit
    else if !s.feedsOk then s
    else (s.eraseArea 0 2).updFlash fun f => { f with record := some { r with secVersion := v } }

/-- Write the settings block, both copies (R460). -/
def State.storeSettings (s : State) (check : Nat) : State :=
  let fmt := rd (s.pilot.flash.image 1) 12 2
  let n := match s.pilot.flash.settings with
    | some x => x.serial + 1
    | none => 1
  (s.eraseArea 3 2).updFlash fun f => { f with settings := some { format := fmt, serial := n % 2 ^ 32, fwCheck := check } }

/-- The settings at a start (R460): a block with another FORMAT, or none that verifies, is replaced by the defaults. -/
def State.checkSettings (s : State) : State :=
  let keep : Bool := match s.pilot.flash.settings with
    | some x => x.format = rd (s.pilot.flash.image 1) 12 2
    | none => false
  if keep then s.updPilot fun p => { p with settingsReset := false }
  else
    let s := s.updPilot fun p => { p with fwCheck := 3, settingsReset := true }
    if s.worn 3 then s.atWearLimit else s.storeSettings 3

/-- Bring-up stands at a row of R444. -/
def State.bootAt (s : State) (stage : Nat) (b : Boot) : State :=
  (s.set Reg.GLOBAL_STAT_STAGE stage).updPilot fun p => { p with boot := b }

/-- Rows 1 to 3 of R444 as far as REFCLK: the staged images are applied, the counter raised, the settings read, and the start
stops in END and LOST, and in recovery when the active Pilot firmware fails its check (R451, R452, R458). -/
def State.startPilot (s : State) : State :=
  let chk := match s.pilot.flash.settings with
    | some x => x.fwCheck
    | none => 3
  let s := s.updPilot fun p => { p with fwCheck := chk, deferred := false, rejected := false }
  let s := ([1, 2, 3, 4].foldl (fun s k => s.applyStaged k) s).raiseCounter.checkSettings
  let s := s.set Reg.GLOBAL_STAT_FAILED 0
  let f := s.pilot.flash
  if f.active.any fun e => e.1 = 1 && !f.imageOk 1 e.2 then s.bootAt 2 .recovery
  else if f.lcState = 5 || f.lcState = 0xFF then s.bootAt 2 .parked
  else if s.get Reg.CLK_STAT_REFCLK_OK = 1 then (s.bootAt 3 .running).set Reg.CLK_STAT_HCLK_LOCK 1
  else s.bootAt 3 .waitRef

/-- Does the active hub firmware fail its check in row 3 of R444 (R446, R456)? A hub warm reset starts at row 4, from the copy
that was verified before (18_power_clocks_and_reset.md R440). -/
def State.hubFwBad (s : State) : Bool :=
  s.get Reg.GLOBAL_STAT_STAGE = 3 && s.pilot.flash.active.any fun e => e.1 = 2 && !s.pilot.flash.imageOk 2 e.2

/-! ## Measurements -/

/-- The measurement blocks that are present, each its index and its 64 bytes (13_tenants_and_joint_training.md R317). -/
def State.measurements (s : State) : Bytes :=
  let f := s.pilot.flash
  let block (i : Nat) (v : Bytes) : Bytes := leBytes 1 i ++ fit 64 v
  block 1 (Config.sha512 (f.image 1)) ++ block 2 (Config.sha512 (f.image 2)) ++ block 3 (Config.sha512 (f.image 3)) ++
    block 4 s.frame.digest ++ block 5 s.pilot.loaderDigest ++
    block 6 (Config.sha512 (leBytes 1 f.lcState ++ leBytes 8 f.secVersion)) ++
    block 7 ((s.pilot.token.map (·.digest)).getD (zeros 64)) ++
    (List.range 32).flatMap fun p => if (s.part p).loaded then block (16 + p) (s.part p).image.digest else []

end Sys2Proof.Machine
end

