-- ==== Sys2Proof/Machine/Peers.lean ====
section
/-!
DEFINITION. Link training, sessions with peers, and their end (10_links_and_collectives.md R231, R232, R240, R242, R245 to
R252).
-/

namespace Sys2Proof.Machine

/-! ## Departure (R251) -/

/-- The contexts that hold a mirror on a peer or hold one for it (R251; 15_shared_objects_and_submission.md R379). -/
def State.mirrorCtxs (s : State) (n : Nat) : List Nat :=
  ((mirrorSlots.filter fun x => 2 ≤ s.holderState x.1 x.2 && s.holderState x.1 x.2 ≤ 3 && s.holderPeer x.1 x.2 = n).map
    (fun x => (s.part x.1).ctx) ++ (s.link.mirrors.filter fun m => m.peer = n).map fun m => (s.part m.part).ctx).dedup

/-- The queues whose SNAPSHOT runs and goes on to a peer (08_training_dataflow.md R207, R210). -/
def State.snapQueues (s : State) (n : Nat) : List Nat :=
  (List.range 4096).filter fun q => match s.qHead q with
    | some c => c.op = 0x11 && c.stage = .running && (snapOp c).dest = 2 && (snapOp c).peer = n
    | none => false

/-- The restores from a peer end with a code (17_reflection_and_recovery.md R420). -/
def State.endRestores (s : State) (n code : Nat) : State :=
  ((List.range 32).filter fun p => match (s.part p).restore with
    | some r => r.peer = n
    | none => false).foldl (fun s p => s.endRestore p code) s

/-- The mirrors of a peer lose their holder; those that ask it ask the next one (17_reflection_and_recovery.md R417, R418). -/
def State.loseHolders (s : State) (n code : Nat) : State :=
  mirrorSlots.foldl (fun s x =>
    if (s.holdOf x).asks n then s.seekHolder x.1 x.2 (s.holdOf x).tried
    else if 2 ≤ s.holderState x.1 x.2 && s.holderState x.1 x.2 ≤ 3 && s.holderPeer x.1 x.2 = n then s.loseHolder x.1 x.2 code
    else s) s

/-- What a port keeps while its session drains: the keys' entry, SEQ and epochs of both directions, the groups held for retry, the
flits of messages still coming, and the credits of every flit that has come (R251). -/
def PortSt.drained (x : PortSt) (n : Nat) : PortSt :=
  { PortSt.empty with
    setup := x.setup, seq := x.seq, txEpoch := x.txEpoch, expect := x.expect, rxEpoch := x.rxEpoch, retry := x.retry, again := x.again,
    resent := x.resent, nak := x.nak, drain := some n,
    rx := (List.range 4).map fun vc => (splitWhole (x.rx.getD vc [])).2,
    owe := (List.range 4).map fun vc => x.owe.getD vc 0 + ((x.rx.getD vc []).length - x.debt.getD vc 0),
    debt := (List.range 4).map fun vc => (splitWhole (x.rx.getD vc [])).2.length }

/-- A port carries no session any more: what was on it is gone, and the session drains there while the port is up. -/
def State.leavePort (s : State) (n p : Nat) : State :=
  let x := s.port p
  if s.portState p = 4 then ((s.dropPort p).updPort p fun _ => x.drained n).setPortState p 2 else (s.dropPort p).setPortState p 1

/-- A peer departs (R251): its entry drains, its ports leave the session, and every operation with it errors with 0x0405. -/
def State.depart (s : State) (n : Nat) : State :=
  if s.peerState n ≠ 2 then s
  else
    let told := s.mirrorCtxs n
    let s := (s.setPeerState n 3).updSession n fun x => { x with rekey := false, rekeyNext := none }
    let s := (s.peerPorts n).foldl (fun s p => s.leavePort n p) s
    let s := s.departGroups n 0x0405
    let s := (s.snapQueues n).foldl (fun s q => s.endCmd q 0x0405) s
    let s := ((s.endRestores n 0x0405).loseHolders n 0x0405).skipPeer n
    let s := { s with link := { s.link with
      snaps := s.link.snaps.filter (fun x => x.peer ≠ n),
      mirrors := s.link.mirrors.map fun m => if m.peer = n then { m with peer := 256 } else m } }
    told.foldl (fun s c => s.notice 3 0x0405 c 0x1FFF 0 n) s

/-- A session ends under R240, R242 or R244 with a code of its port. -/
def State.endSession (s : State) (p n code : Nat) : State := (s.portErr p code).depart n

/-- A port in nothing but its set-up. -/
def State.clearPort (s : State) (p : Nat) : State :=
  s.updPort p fun x => { PortSt.empty with setup := x.setup, setupTx := x.setupTx, setupRx := x.setupRx, setupBuf := x.setupBuf }

/-- DRAIN_END (R251): after 100 ms the entry is FREE. -/
def execDrainEnd (n : Fin 256) (s : State) : Res :=
  .next (if s.peerState n.val ≠ 3 then s
    else
      let s := ((List.range 16).filter fun p => (s.port p).drain = some n.val).foldl State.clearPort s
      ((s.setPeerState n.val 0).updSession n.val fun _ => Session.empty).setF Reg.PEER_ENTRY_EPOCH n.val 0 0)

/-! ## Link loss (R246) -/

/-- A transfer that had flits among lost groups errors with 0x0403 (R246), as its owning chapter states: a collective; a
mirror or a restore (17_reflection_and_recovery.md R412, R420); a shard request, whose next holder is asked
(11_memory_tiers_and_weights.md R277); a SNAPSHOT (08_training_dataflow.md R210). -/
def State.loseTransfer (s : State) (n : Nat) (m : Nat × Nat × Nat) : State :=
  match m.1 with
  | 0x01 =>
    match s.link.colls.find? fun c => c.gtag = m.2.1 && c.k % 2 ^ 32 = m.2.2 % 2 ^ 32 with
    | some c => s.failColl c 0x0403
    | none => s
  | 0x10 =>
    match s.heldAs n m.2.1 with
    | some x => s.loseHolder x.1 x.2 0x0403
    | none => s
  | 0x11 =>
    match s.heldAs n m.2.1 with
    | some x => s.loseHolder x.1 x.2 0x0403
    | none => if m.2.2 % 256 = 8 then s.endRestores n 0x0403 else s
  | 0x20 =>
    match s.loadOfReq m.2.1 with
    | some (l, _, r) => (s.failReq l r).goOn l
    | none => s
  | 0x22 =>
    match s.snapOf n m.2.1 with
    | some q => s.endCmd q 0x0403
    | none => s
  | _ => s

/-- What a lost port still holds goes to another port of its session: messages received whole, and messages not begun. -/
def State.moveTraffic (s : State) (old : PortSt) (q : Nat) : State :=
  s.updPort q fun x => { x with
    rx := (List.range 4).map fun vc =>
      let (w, r) := splitWhole (x.rx.getD vc [])
      w ++ (splitWhole (old.rx.getD vc [])).1 ++ r,
    debt := (List.range 4).map fun vc => x.debt.getD vc 0 + (splitWhole (old.rx.getD vc [])).1.length,
    tx := (List.range 4).map fun vc => x.tx.getD vc [] ++ (old.tx.getD vc []).dropWhile fun f => !f.first,
    ctlTx := x.ctlTx ++ old.ctlTx, ctlRx := x.ctlRx ++ old.ctlRx }

/-- A port loses its traffic (R246): with another live port its session goes on there, and without one its peer departs. Lost with
flits in flight, it meets 0x0403 (R260, R261). -/
def State.losePort (s : State) (p : Nat) : State :=
  match s.portPeer p with
  | none => s
  | some n =>
    let old := s.port p
    let live := (s.peerPorts n).filter fun q => q ≠ p && s.portState q = 4
    let begun := (List.range 4).filterMap fun vc => match old.tx.getD vc [] with
      | f :: _ => if f.first then none else some (f.ty, f.tag, f.arg)
      | [] => none
    let s := (s.dropPort p).setPortState p 1
    let lost := ((old.retry.flatMap (·.msgs)) ++ begun).dedup
    let s := if lost.isEmpty then s else s.portErr p 0x0403
    let s := lost.foldl (fun s m => s.loseTransfer n m) s
    match live[s.free live.length]? with
    | some q => s.tick.moveTraffic old q
    | none => (s.endRestores n 0x0403).depart n

/-- LINK_LOSS (R242, R246): the link of a port has been down for 100 ms. -/
def execLinkLoss (port : PortIx) (s : State) : Res :=
  let p : Nat := port.val
  .next (if s.portState p = 7 then s.losePort p else s)

/-! ## Training (R231, R232, R242) -/

/-- Is a port a Ramom link? -/
def State.ramom (s : State) (p : Nat) : Bool := s.portMode p = 1

/-- The set-up of a port ends; a session that drains there goes on doing so. -/
def State.endSetup (s : State) (p : Nat) : State :=
  (s.freeSetup p).updPort p fun x => { (match x.drain with
    | some n => x.drained n
    | none => PortSt.empty) with setup := { SetupSt.empty with nonce := x.setup.nonce } }

/-- A Ramom port that is up starts set-up. -/
def State.startSetup (s : State) (p restarts : Nat) : State := ((s.endSetup p).setPortState p 3).sendHello p restarts

/-- LINK_UP (R232, R242, R247): a port has trained, its lanes reversed or not. A Ramom port begins set-up; one that has
retrained goes on where its peer last acknowledged. -/
def execLinkUp (port : PortIx) (reversed : Bool) (s : State) : Res :=
  let p : Nat := port.val
  .next (
    let t := (s.setF Reg.PORT_STAT_LOS p 0 0).setF Reg.PORT_STAT_LANE_REV p 0 (if reversed then 1 else 0)
    if s.portMode p = 0 || s.getF Reg.PORT_CTRL_LOOPBACK p 0 = 1 then s
    else if s.portState p = 7 then (t.setPortState p 4).updPort p fun x => { x with again := x.retry.length, resent := (0, 0) }
    else if s.portState p ≠ 1 then s
    else if s.ramom p then t.startSetup p 0
    else t.setPortState p 2)

/-- A port whose link goes down: a session waits for it, and set-up ends. -/
def State.linkDown (s : State) (p : Nat) : State :=
  if s.portState p = 4 then s.setPortState p 7
  else if s.portState p = 7 then s
  else ((s.endSetup p).clearPort p).setPortState p 1

/-- LOSS_OF_SIGNAL (R232, R246). -/
def execLossOfSignal (port : PortIx) (s : State) : Res :=
  let p : Nat := port.val
  .next (if s.portMode p = 0 || s.portState p = 0 || s.portState p = 6 then s else (s.linkDown p).setF Reg.PORT_STAT_LOS p 0 1)

/-- LOS_RETRY (R232): a port in training that sees no signal reports it and stays in training. -/
def execLosRetry (port : PortIx) (s : State) : Res :=
  .next (if s.portState port.val = 1 then s.setF Reg.PORT_STAT_LOS port.val 0 1 else s)

/-- TRAIN_TIMEOUT (R232): FAILED, and 0x0402 as an event: a notice and LAST_ERR (log 47). -/
def execTrainTimeout (port : PortIx) (s : State) : Res :=
  let p : Nat := port.val
  .next (if s.ramom p && s.portState p = 1 then
    (((s.setPortState p 6).setF Reg.PORT_STAT_LOS p 0 0).portErr p 0x0402).noteError 0x0402 0 0x1FFF 0 0
  else s)

/-- PORT_RETRAIN (R232, R242, R261). -/
def execPortRetrain (port : PortIx) (s : State) : Res :=
  .next (s.cxlIo fun s => if s.portMode port.val = 0 then s else s.linkDown port.val)

/-- RESEND_RETRAIN (R242). -/
def execResendRetrain (port : PortIx) (s : State) : Res :=
  let p : Nat := port.val
  .next (if s.portState p = 4 && 8 ≤ (s.port p).resent.2 then s.linkDown p else s)

/-- PORT_CNT_CLEAR (R261; 02_fabric.md R49). -/
def execPortCntClear (port : PortIx) (s : State) : Res := .next (s.cxlIo fun s => s.cntClear Reg.PORT_CTRL_CNT_CLEAR port.val)

/-- A frame gives a port a new MODE (R231): its session traffic is lost, and it trains in the new mode unless that is
off. Outside Ethernet mode every field of the rings has its reset value (R261). -/
def State.setPortMode (s : State) (p mode : Nat) : State :=
  if s.portMode p = mode then s
  else
    let s := ((s.losePort p).endSetup p).clearPort p
    let s := s.clearCopy p ethFields
    (((s.setF Reg.PORT_STAT_MODE p 0 mode).setPortState p (if mode = 0 then 0 else 1)).setF Reg.PORT_STAT_LOS p 0 0).setF
      Reg.PORT_STAT_LANE_REV p 0 0

/-! ## Set-up (R247 to R249) -/

/-- Is this end the initiator towards an identity? -/
def isInitiator (peer : Bytes) : Bool := leNat unitKey < leNat peer

/-- The entry of an identity in a STATE. -/
def State.entryOf (s : State) (ident : Bytes) (st : Nat) : Option Nat :=
  (List.range 256).find? fun n => s.peerState n = st && (s.session n).ident = ident

/-- The body of a JOIN or a JOIN_ACK for a port (R245, R250). -/
def State.joinBody (s : State) (n p : Nat) : Bytes :=
  fit 32 (s.session n).sid ++ leBytes 1 p ++ zeros 7 ++ fit 16 (s.port p).setup.nonce

/-- A carrying port of a session: which one is the module's choice (log 1). -/
def State.carrier (s : State) (n : Nat) : Option Nat :=
  let l := (s.peerPorts n).filter fun q => !(s.port q).joining
  l[s.free l.length]?

/-- The SPDM messages that set-up carries, by their code: GET_DIGESTS, GET_CERTIFICATE, CHALLENGE, GET_VERSION, GET_MEASUREMENTS,
GET_CAPABILITIES and NEGOTIATE_ALGORITHMS, their responses, and ERROR (R248). -/
def setupSpdm (b : Bytes) : Bool :=
  [0x81, 0x82, 0x83, 0x84, 0xE0, 0xE1, 0xE3, 0x01, 0x02, 0x03, 0x04, 0x60, 0x61, 0x63, 0x7F].contains (rd b 1 1)

/-- This end's turn in the SPDM exchange of a port, from its chain, its measurements, a fresh nonce and the exchange so far: what it
sends, and what it has decided (R248; log 25). -/
def State.spdmTurn (s : State) (p : Nat) : Bytes × Nat :=
  Config.spdmSetup s.pilot.flash.certs s.measurements (s.freeBytes 32) (s.port p).setup.transcript

/-- Send a message of the SPDM exchange, if there is one. -/
def State.sendSpdm (s : State) (p : Nat) (b : Bytes) : State := if b.isEmpty then s.tick else s.tick.queueSetup p 0x02 b

/-- A HELLO (R247, R250, R251): a draining identity is refused, an OPEN one is joined, and for any other one set-up begins. -/
def State.takeHello (s : State) (p : Nat) (own : Bytes) (key nonce : Bytes) : State :=
  let s := s.updPort p fun x => { x with setup := { x.setup with hello := some (key, nonce) } }
  let other := setupMsg 0x01 (key ++ nonce ++ leBytes 2 1)
  if (s.entryOf key 3).isSome then s.refusePort p 0x0401 true
  else match s.entryOf key 2 with
    | some n =>
      if !(s.session n).initiator then s
      else match s.carrier n with
        | some q => s.tick.queueCtl q 0x03 (s.joinBody n p)
        | none => s
    | none =>
      let s := s.updPort p fun x => { x with setup := { x.setup with
        stage := 1, transcript := if isInitiator key then own ++ other else other ++ own } }
      if isInitiator key then s.tick.queueSetup p 0x02 (s.spdmTurn p).1 else s

/-- HELLO (R247). One that comes while no HELLO of this end is unanswered makes it send a fresh one first; a FORMAT other
than 1 is refused with 0x0409. -/
def execLinkHello (port : PortIx) (s : State) : Res :=
  let p : Nat := port.val
  .next (match s.takeSetup p 0x01 with
    | none => s
    | some (b, s) =>
      if !(s.portState p = 2 || s.portState p = 3 || s.portState p = 5) then s
      else
        let rest := (s.port p).setupRx
        let s := if s.portState p = 3 && (s.port p).setup.hello.isNone then s
          else (s.startSetup p (s.port p).setup.restarts).updPort p fun x => { x with setupRx := rest }
        if b.length ≠ 66 || rd b 64 2 ≠ 1 then s.refusePort p 0x0409 false
        else s.takeHello p (setupMsg 0x01 (unitKey ++ (s.port p).setup.nonce ++ leBytes 2 1)) (slice b 0 32) (slice b 32 32))

/-- Does a frame's PEER_POLICY accept an identity (R248; 03_configuration_images.md R62)? -/
def FrameImage.admits (f : FrameImage) (key : Bytes) : Bool :=
  match f.peerMode with
  | 0 => false
  | 1 => f.peers.contains key
  | _ => true

/-- The KX message of this end (R247 step 3): its ephemeral public key, and its signature over the transcript hash of the
messages before KX (log 48). -/
def ownKx (u : SetupSt) : Bytes :=
  let pub := Config.x25519 u.priv (leBytes 32 9)
  pub ++ Config.ed25519Sign Config.unitSeed (Config.sha512 u.transcript)

/-- Admission (R248, R249): the lowest FREE entry is reserved, and KX is sent. -/
def State.admitPeer (s : State) (p : Nat) (key : Bytes) : State :=
  if !s.frame.admits key then s.refusePort p 0x0409 true
  else match (List.range 256).find? fun n => s.peerState n = 0 with
    | none => s.refusePort p 0x0401 true
    | some n =>
      let priv := s.freeBytes 32
      let s := ((s.tick.setPeerState n 1).updSession n fun _ => { Session.empty with ident := key }).updPort p fun x => { x with setup := { x.setup with
        stage := 2, entry := some n, priv := priv } }
      s.updPort p fun x => { x with setupTx := x.setupTx ++ [setupMsg 0x03 (ownKx x.setup)] }

/-- SPDM (R247 step 1, R248): the exchange goes on; once it has decided, the peer is admitted or refused (log 25). A message that is
not one that set-up carries ends it with 0x0409 (log 136). -/
def execLinkSpdm (port : PortIx) (s : State) : Res :=
  let p : Nat := port.val
  .next (match s.takeSetup p 0x02, (s.port p).setup.hello with
    | some (b, s), some (key, _) =>
      if s.portState p ≠ 3 || (s.port p).setup.stage ≠ 1 then s
      else
        let s := s.updPort p fun x => { x with setup := { x.setup with transcript := x.setup.transcript ++ setupMsg 0x02 b } }
        let (ans, verdict) := s.spdmTurn p
        let s := s.sendSpdm p ans
        if !setupSpdm b || verdict = 2 then s.refusePort p 0x0409 true
        else if verdict = 1 then s.admitPeer p key
        else s
    | some (_, s), none => s
    | none, _ => s)

/-- KX (R247 steps 3 to 5): the signature is checked, the keys are derived, and NOP goes out under them. -/
def execLinkKx (port : PortIx) (s : State) : Res :=
  let p : Nat := port.val
  let u := (s.port p).setup
  .next (if s.portState p ≠ 3 || u.stage ≠ 2 then s
    else match s.takeSetup p 0x03, u.hello with
      | some (b, s), some (key, _) =>
        if b.length ≠ 96 || !Config.ed25519Verify key (Config.sha512 u.transcript) (b.drop 32) then s.refusePort p 0x0409 false
        else
          let mine := setupMsg 0x03 (ownKx u)
          let theirs := setupMsg 0x03 b
          let salt := Config.sha512 (u.transcript ++ if isInitiator key then mine ++ theirs else theirs ++ mine)
          let z := Config.x25519 u.priv (b.take 32)
          let derive (info : String) : Bytes := Config.hkdf512 salt z (ascii info) 32
          (s.updPort p fun x => { x with setup := { x.setup with
            stage := 3, keys := some (derive "E4 link i", derive "E4 link r", derive "E4 session") } }).queueCtl p 0x00 []
      | some (_, s), none => s
      | none, _ => s)

/-- A session opens on a port (R247 step 5, R249). Another port in set-up with the same identity ends it and joins (R252). -/
def State.openSession (s : State) (p n : Nat) (key : Bytes) (ks : Bytes × Bytes × Bytes) : State :=
  let ini := isInitiator key
  let own := if ini then ks.1 else ks.2.1
  let their := if ini then ks.2.1 else ks.1
  let s := s.updSession n fun _ =>
    { ident := key, sid := ks.2.2, initiator := ini, txKeys := [(0, own)], rxKeys := [(0, their)], rekey := false, rekeyNext := none,
      tagFails := 0 }
  let s := (s.setPeerState n 2).updPort p fun x => { x with setup := SetupSt.empty, drain := none }
  let s := s.joinPort p n
  let s := { s with link := { s.link with
    mirrors := s.link.mirrors.map fun m => if m.ident = key then { m with peer := n } else m } }
  ((List.range 16).filter fun q => q ≠ p && s.portState q = 3 && match (s.port q).setup.hello with
    | some h => h.1 = key
    | none => false).foldl (fun s q => s.startSetup q 0) s

/-- NOP (R245, R247 step 5): the first one under the new keys opens the session, or joins the one that another port has
opened meanwhile (R252). -/
def execControlNop (port : PortIx) (s : State) : Res :=
  let p : Nat := port.val
  .next (match s.takeCtl p 0x00 with
    | none => s
    | some (_, s) =>
      let u := (s.port p).setup
      match u.hello, u.entry, u.keys with
      | some (key, _), some n, some ks =>
        if s.portState p ≠ 3 || u.stage ≠ 3 then s
        else if (s.entryOf key 2).isSome then s.startSetup p 0
        else s.openSession p n key ks
      | _, _, _ => s)

/-- REFUSE (R247): set-up ends with its code. -/
def execLinkRefuse (port : PortIx) (s : State) : Res :=
  let p : Nat := port.val
  .next (match s.takeSetup p 0x04 with
    | none => s
    | some (b, s) => if s.portState p = 3 then ((s.endSetup p).portErr p (rd b 0 2)).setPortState p 5 else s)

/-- Does a port in set-up wait for a join: the identity it has heard has an OPEN session? -/
def State.joins (s : State) (p : Nat) : Bool :=
  match (s.port p).setup.hello with
  | some h => (s.entryOf h.1 2).isSome
  | none => false

/-- SETUP_TIMEOUT (R247): set-up starts again, and after 3 restarts ends with REFUSE 0x0409. -/
def execSetupTimeout (port : PortIx) (s : State) : Res :=
  let p : Nat := port.val
  .next (if s.portState p ≠ 3 || s.joins p then s
    else if (s.port p).setup.restarts < 3 then s.startSetup p ((s.port p).setup.restarts + 1)
    else s.refusePort p 0x0409 false)

/-- JOIN_TIMEOUT (R250). -/
def execJoinTimeout (port : PortIx) (s : State) : Res :=
  .next (if s.portState port.val = 3 && s.joins port.val then s.refusePort port.val 0x0409 false else s)

/-- REFUSED_HELLO_RETRY (R248). -/
def execRefusedHelloRetry (port : PortIx) (s : State) : Res :=
  .next (if s.portState port.val = 5 then s.startSetup port.val 0 else s)

/-! ## Joins (R250) -/

/-- A port joins a session: it carries nothing until a new epoch begins, and each end starts a rekey at once; while an earlier one
is unanswered, it starts as soon as that is (log 135). -/
def State.join (s : State) (carrier n p : Nat) : State :=
  let x := s.session n
  let s := s.updPort p fun y => { PortSt.empty with
    joining := true, joinEpoch := topEpoch x.txKeys + (if x.rekey then 2 else 1), rxEpoch := topEpoch x.rxKeys, expect := 2 ^ 32,
    setupTx := y.setupTx }
  let s := s.joinPort p n
  if x.rekey then s.updSession n fun y => { y with rekeyNext := some carrier } else s.startRekey n carrier

/-- The port in set-up that has heard an identity's HELLO with these first 16 bytes of its nonce. -/
def State.heard (s : State) (ident nonce : Bytes) : Option Nat :=
  (List.range 16).find? fun q => s.portState q = 3 && match (s.port q).setup.hello with
    | some h => h.1 = ident && h.2.take 16 = nonce
    | none => false

/-- JOIN (R250 steps 2 and 3). One that matches no HELLO is discarded. -/
def execLinkJoin (port : PortIx) (s : State) : Res :=
  let p : Nat := port.val
  .next (match s.portPeer p, s.takeCtl p 0x03 with
    | some n, some (b, s) =>
      match s.heard (s.session n).ident (slice b 48 16) with
      | some q => if slice b 8 32 = fit 32 (s.session n).sid then (s.queueCtl p 0x04 (s.joinBody n q)).join p n q else s
      | none => s
    | _, _ => s)

/-- JOIN_ACK (R250 step 3). -/
def execLinkJoinAck (port : PortIx) (s : State) : Res :=
  let p : Nat := port.val
  .next (match s.portPeer p, s.takeCtl p 0x04 with
    | some n, some (b, s) =>
      match s.heard (s.session n).ident (slice b 48 16) with
      | some q => if slice b 8 32 = fit 32 (s.session n).sid then s.join p n q else s
      | none => s
    | _, _ => s)

/-! ## Rekeys (R240) -/

/-- REKEY_START (R240). -/
def execRekeyStart (port : PortIx) (s : State) : Res :=
  let p : Nat := port.val
  .next (match s.portPeer p with
    | some n => if 2 ^ 31 ≤ (s.port p).seq then s.startRekey n p else s
    | none => s)

/-- REKEY (R240 steps 2 and 3): the next key of the receiving direction, and REKEY_ACK. One with another EPOCH than the
next is discarded. -/
def execLinkRekey (port : PortIx) (s : State) : Res :=
  let p : Nat := port.val
  .next (match s.portPeer p, s.takeCtl p 0x01 with
    | some n, some (b, s) =>
      match (s.session n).rxKeys with
      | [] => s
      | (e, k) :: old =>
        if rd b 8 4 ≠ e + 1 then s
        else (s.updSession n fun x => { x with
          rxKeys := (e + 1, nextKey k (e + 1)) :: (e, k) :: old.take 1, tagFails := 0 }).queueCtl p 0x02 (leBytes 4 (e + 1))
    | _, _ => s)

/-- REKEY_ACK (R240 step 4, R250 step 4): from now on every port of the session sends under the new key, from SEQ 0. -/
def execLinkRekeyAck (port : PortIx) (s : State) : Res :=
  let p : Nat := port.val
  .next (match s.portPeer p, s.takeCtl p 0x02 with
    | some n, some (b, s) =>
      match (s.session n).txKeys with
      | [] => s
      | (e, k) :: old =>
        if !(s.session n).rekey || rd b 8 4 ≠ e + 1 then s
        else
          let s := s.updSession n fun x => { x with txKeys := (e + 1, nextKey k (e + 1)) :: (e, k) :: old.take 1, rekey := false }
          let s := ((s.peerPorts n).foldl (fun s q => s.updPort q fun x => { x with
            txEpoch := e + 1, seq := 0, joining := x.joining && e + 1 < x.joinEpoch }) s).showEpoch n
          match (s.session n).rekeyNext with
          | some c => (s.updSession n fun x => { x with rekeyNext := none }).startRekey n
              (if (s.peerPorts n).contains c then c else p)
          | none => s
    | _, _ => s)

/-- SEQ_EXHAUSTED (R240). -/
def execSeqExhausted (port : PortIx) (s : State) : Res :=
  let p : Nat := port.val
  .next (match s.portPeer p with
    | some n => if 2 ^ 32 - 1 ≤ (s.port p).seq then s.endSession p n 0x040B else s
    | none => s)

/-- TAG_FAIL_LIMIT (R242). -/
def execTagFailLimit (port : PortIx) (s : State) : Res :=
  let p : Nat := port.val
  .next (match s.portPeer p with
    | some n => if 16 ≤ (s.session n).tagFails then s.endSession p n 0x0404 else s
    | none => s)

/-- LEAVE (R251). -/
def execLinkLeave (port : PortIx) (s : State) : Res :=
  .next (match s.portPeer port.val, s.takeCtl port.val 0x05 with
    | some n, some (_, s) => s.depart n
    | _, _ => s)

end Sys2Proof.Machine
end

