-- ==== Sys2Proof/Machine/Groups.lean ====
section
/-!
DEFINITION. Group slots of the Ramom link: sending, receiving and retry (10_links_and_collectives.md R237 to R245), and the
Ethernet rings (R233 to R235).
-/

namespace Sys2Proof.Machine

/-! ## Sealing (R237, R239) -/

/-- The peer entry under whose keys a port sends and receives: that of its session, or of one that drains there (R251). -/
def State.keyPeer (s : State) (p : Nat) : Option Nat :=
  match s.portPeer p with
  | some n => some n
  | none => (s.port p).drain

/-- The key a port sends KIND 0 and 1 groups under now, its epoch, and whether this end is the session's initiator. -/
def State.sendKey (s : State) (p : Nat) : Option (Bytes × Nat × Bool) :=
  let x := s.port p
  match s.keyPeer p with
  | some n =>
    if x.joining then none
    else (keyAt (s.session n).txKeys x.txEpoch).map fun k => (k, x.txEpoch, (s.session n).initiator)
  | none => match x.setup.keys, x.setup.hello with
    | some ks, some h => some (if isInitiator h.1 then (ks.1, 0, true) else (ks.2.1, 0, false))
    | _, _ => none

/-- The keys a port receives under, by epoch, and whether this end is the session's initiator. -/
def State.recvKeys (s : State) (p : Nat) : Option (List (Nat × Bytes) × Bool) :=
  match s.keyPeer p with
  | some n => some ((s.session n).rxKeys, (s.session n).initiator)
  | none => match (s.port p).setup.keys, (s.port p).setup.hello with
    | some ks, some h => some (if isInitiator h.1 then ([(0, ks.2.1)], true) else ([(0, ks.1)], false))
    | _, _ => none

/-- The virtual channel whose credits the next group returns: the lowest that owes any. -/
def PortSt.cvc (x : PortSt) : Nat := ((List.range 4).find? fun v => x.owe.getD v 0 ≠ 0).getD 0

/-- The credits it returns. -/
def PortSt.cred (x : PortSt) : Nat := min 511 (x.owe.getD x.cvc 0)

/-- HDR of the next group. -/
def PortSt.hdr (x : PortSt) (kind : Nat) : Nat :=
  x.seq % 2 ^ 32 + x.expect % 2 ^ 16 * 2 ^ 32 + (if x.nak then 2 ^ 48 else 0) + x.cvc * 2 ^ 49 + x.cred * 2 ^ 51 +
    x.txEpoch % 2 * 2 ^ 60 + kind * 2 ^ 61

/-- The 1,064 bytes of a group slot: sealed under a key with its nonce, or in the clear. -/
def groupBytes (hdr map : Nat) (flits : Bytes) (sealed : Option (Bytes × Bytes)) : Bytes :=
  let head := leBytes 8 hdr ++ leBytes 8 map
  let body := match sealed with
    | some (key, nonce) => Config.gcmSeal key nonce head flits
    | none => flits ++ zeros 16
  let b := head ++ fit 1040 body
  b ++ leBytes 4 (crc32 b) ++ zeros 4

/-- A group that a port has sent: NAK and its credits are sent with it. -/
def State.sentGroup (s : State) (p : Nat) (b : Bytes) (kind : Nat) : State :=
  (s.emit (.group p b)).updPort p fun x => { x with
    nak := false, owe := setAt x.owe x.cvc (x.owe.getD x.cvc 0 - x.cred), run := if kind = 0 then x.run + 1 else 0 }

/-- Send a new KIND 0 or 1 group: it takes a SEQ and is held for retry (R238, R239, R241). -/
def State.sendSealed (s : State) (p kind map : Nat) (flits : Bytes) (msgs : List (Nat × Nat × Nat)) : State :=
  match s.sendKey p with
  | none => s
  | some (key, epoch, ini) =>
    let x := s.port p
    let b := groupBytes (x.hdr kind) map flits (some (key, groupNonce x.seq epoch p ini))
    let s := (s.sentGroup p b kind).portCount Reg.PORT_TX_GROUPS p 1
    s.updPort p fun y => { y with
      seq := y.seq + 1, retry := y.retry ++ [{ epoch := epoch, seq := x.seq, bytes := b, kind := kind, msgs := msgs }] }

/-- Send a KIND 2 or 3 group. -/
def State.sendPlain (s : State) (p kind : Nat) (flits : Bytes) : State :=
  s.sentGroup p (groupBytes ((s.port p).hdr kind) 0 (fit 1024 flits) none) kind

/-- LEAVE goes to a peer at once, on one of its session's ports (R245, R251). -/
def State.sendLeave (s : State) (n : Nat) : State :=
  match s.carrier n with
  | some p => s.tick.sendSealed p 1 0 (fit 1024 (ctlMsg 0x05 [])) []
  | none => s

/-- Send the next of the groups to be sent again (R241): the same bytes. -/
def State.sendAgain (s : State) (p : Nat) : State :=
  let x := s.port p
  match x.retry[x.retry.length - x.again]? with
  | none => s
  | some g =>
    if g.kind = 0 && 63 ≤ x.run then s
    else
      let id := g.epoch * 2 ^ 32 + g.seq + 1
      let s := (((s.emit (.group p g.bytes)).portCount Reg.PORT_TX_GROUPS p 1).portCount Reg.PORT_RETRY p 1)
      s.updPort p fun y => { y with
        again := y.again - 1, run := if g.kind = 0 then y.run + 1 else 0,
        resent := if y.again = y.retry.length then (id, if y.resent.1 = id then y.resent.2 + 1 else 1) else y.resent }

/-! ## Sending (R238, R241, R243, R244) -/

/-- Take a flit of each virtual channel that is picked and has both a flit and a credit, at most 16. -/
def PortSt.pick (x : PortSt) (picks : List (Fin 4)) : PortSt × List (Nat × LFlit) :=
  picks.foldl (fun acc v =>
    let y := acc.1
    match y.tx.getD v.val [] with
    | [] => acc
    | f :: r =>
      if 16 ≤ acc.2.length || y.credit.getD v.val 0 = 0 then acc
      else ({ y with tx := setAt y.tx v.val r, credit := setAt y.credit v.val (y.credit.getD v.val 0 - 1) },
        acc.2 ++ [(v.val, f)])) (x, [])

/-- The virtual channel of the flits that fill up a group: one with no message begun, for a receiver ignores a flit without
START there (log 49). -/
def PortSt.padVc (x : PortSt) : Option Nat :=
  (List.range 4).find? fun v => match x.tx.getD v [] with
    | f :: _ => f.first
    | [] => true

/-- MAP of the flits of a group. -/
def mapOf (l : List (Nat × LFlit)) (pad : Nat) : Nat :=
  ((List.range 16).map fun i => (match l[i]? with
    | some (v, f) => v + (if f.first then 4 else 0) + (if f.last then 8 else 0)
    | none => pad) * 2 ^ (4 * i)).sum

/-- Send a new group of data flits. -/
def State.sendData (s : State) (p : Nat) (picks : List (Fin 4)) : State :=
  let (x, l) := (s.port p).pick picks
  if l.isEmpty || (l.length < 16 && x.padVc.isNone) || 63 ≤ x.run then s
  else
    let map := mapOf l (x.padVc.getD 0)
    (s.updPort p fun _ => x).sendSealed p 0 map (fit 1024 (l.flatMap fun f => f.2.data))
      (l.map fun f => (f.2.ty, f.2.tag, f.2.arg)).dedup

/-- May a port send a new KIND 0 or 1 group? A full retry buffer, SEQ 2^32 − 1 and groups of an earlier epoch not acknowledged yet
(log 44) hold new ones back. -/
def PortSt.mayNew (x : PortSt) : Bool :=
  x.again = 0 && x.retry.length < 1024 && x.seq < 2 ^ 32 - 1 && x.retry.all fun g => g.epoch = x.txEpoch

/-- Is the next slot the one that 63 slots of KIND 0 leave to a control group that waits (R238)? One that may not be sent now leaves it
to an idle group (log 137). -/
def State.ctlSlot (s : State) (p : Nat) : Bool :=
  let x := s.port p
  63 ≤ x.run && !x.ctlTx.isEmpty && (s.sendKey p).isSome && x.mayNew

/-- GROUP_SEND (R238, R240, R241): one slot of a port. Groups to be sent again go before new ones. -/
def execGroupSend (port : PortIx) (kind : Fin 4) (picks : List (Fin 4)) (s : State) : Res :=
  let p : Nat := port.val
  let x := s.port p
  let st := s.portState p
  .next (
    if !s.ramom p || st < 2 || 5 < st || s.getF Reg.PORT_CTRL_LOOPBACK p 0 = 1 then s
    else if kind.val < 2 then
      if (s.sendKey p).isNone then s
      else if 0 < x.again then s.sendAgain p
      else if !x.mayNew then s
      else if kind.val = 0 then (if st = 4 then s.sendData p picks else s)
      else if x.ctlTx.isEmpty then s
      else (s.updPort p fun y => { y with ctlTx := y.ctlTx.drop 16 }).sendSealed p 1 0
        (fit 1024 ((x.ctlTx.take 16).flatMap id)) []
    else if s.ctlSlot p then s
    else if kind.val = 2 then
      let b := x.setupTx.flatMap id
      if b.isEmpty then s
      else (s.updPort p fun y => { y with setupTx := if b.length ≤ 1024 then [] else [b.drop 1024] }).sendPlain p 2 b
    else s.sendPlain p 3 [])

/-- RETRY_TIMEOUT (R241). -/
def execRetryTimeout (port : PortIx) (s : State) : Res :=
  .next (s.updPort port.val fun x => { x with again := x.retry.length })

/-! ## Receiving (R241, R243 to R245) -/

/-- ACK, NAK and credits of a group that has passed its checks (R237, R241, R243). -/
def State.takeAck (s : State) (p hdr : Nat) : State :=
  s.updPort p fun x =>
    let ack := bitsOf hdr 47 32
    let k := match x.retry with
      | [] => 0
      | g :: _ => (ack + 2 ^ 16 - g.seq % 2 ^ 16) % 2 ^ 16
    let retry := if k ≤ x.retry.length then x.retry.drop k else x.retry
    let v := bitsOf hdr 50 49
    { x with
      retry := retry, again := if bit hdr 48 then retry.length else min x.again retry.length,
      resent := if retry.length = x.retry.length then x.resent else (0, 0),
      credit := setAt x.credit v (x.credit.getD v 0 + bitsOf hdr 59 51) }

/-- The flits of a data group enter their buffers: the buffers, and whether a message breaks a rule of R244. -/
def takeFlits (rx : List (List LFlit)) (map : Nat) (b : Bytes) : List (List LFlit) × Bool :=
  (List.range 16).foldl (fun acc i =>
    let w := map / 2 ^ (4 * i) % 16
    let v := w % 4
    let l := acc.1.getD v []
    let begun := match l.getLast? with
      | some f => !f.last
      | none => false
    let first := bit w 2
    if !first && !begun then acc
    else
      let l := l ++ [{ data := slice b (64 * i) 64, first := first, last := bit w 3, ty := 0, tag := 0, arg := 0 }]
      let whole := (l.reverse.takeWhile fun f => !f.first).reverse
      let msg := (l.drop (l.length - whole.length - 1))
      (setAt acc.1 v l, acc.2 || (first && begun) || (bit w 3 && !flitsOk v msg))) (rx, false)

/-- Is a control message in order: a listed CTYPE and no reserved byte set (R245)? -/
def ctlOk (b : Bytes) : Bool :=
  allZero (slice b 1 7) && match rd b 0 1 with
    | 0 => allZero (b.drop 8)
    | 1 => allZero (b.drop 12)
    | 2 => allZero (b.drop 12)
    | 3 => allZero (slice b 41 7)
    | 4 => allZero (slice b 41 7)
    | 5 => allZero (b.drop 8)
    | _ => false

/-- The control messages of a group: NOPs beside another message are left out, and messages not in order are discarded (log
50). -/
def ctlsOf (b : Bytes) : List Bytes :=
  let l := (chunks 64 b).filter ctlOk
  let m := l.filter fun x => rd x 0 1 ≠ 0
  if m.isEmpty then l.take 1 else m

/-- The whole setup messages at the front of the bytes received, and what is left (R247). -/
def setupsOf : Nat → Bytes → List Bytes × Bytes
  | 0, b => ([], b)
  | n + 1, b =>
    if b.length < 64 then ([], b)
    else if rd b 0 1 = 0 then setupsOf n (b.drop 64)
    else
      let size := roundUp (4 + rd b 2 2) 64
      if b.length < size then ([], b)
      else
        let (l, r) := setupsOf n (b.drop size)
        (b.take size :: l, r)

/-- A group fails its CRC, its reserved bits or its tag: it is discarded, and the next group carries NAK (R241). -/
def State.failGroupRx (s : State) (p : Nat) : State := s.updPort p fun x => { x with nak := true }

/-- A sealed group is accepted: its SEQ is taken, and its epoch becomes the port's current one. -/
def State.acceptSeq (s : State) (p epoch hdr : Nat) : State :=
  ((s.updPort p fun x => { x with expect := hdr % 2 ^ 32 + 1, rxEpoch := epoch }).portCount Reg.PORT_RX_GROUPS p 1).takeAck p
    hdr

/-- The epochs of a port's keys that PHASE and SEQ of a group fit: the port's current one, where SEQ is the expected one, and any
later one of the session, which begins at SEQ 0 (R239 to R241). -/
def State.epochsOf (s : State) (p hdr : Nat) : List Nat :=
  let x := s.port p
  let held := match s.recvKeys p with
    | some (keys, _) => keys.map Prod.fst
    | none => [x.rxEpoch]
  held.filter fun e => e % 2 = (if bit hdr 60 then 1 else 0) &&
    ((e = x.rxEpoch && hdr % 2 ^ 32 = x.expect) || (x.rxEpoch < e && hdr % 2 ^ 32 = 0))

/-- A sealed group opened under the key of an epoch, whichever port of the peer sent it (R239). -/
def openGroup (keys : List (Nat × Bytes)) (ini : Bool) (b : Bytes) (epoch : Nat) : Option Bytes :=
  match keyAt keys epoch with
  | none => none
  | some key => (List.range 16).findSome? fun q =>
      Config.gcmOpen key (groupNonce (rd b 0 8 % 2 ^ 32) epoch q (!ini)) (b.take 16) (slice b 16 1040)

/-- What comes while a session drains is discarded and its credits are owed; the start of a message is kept to tell its flits
(R251). -/
def PortSt.discard (x : PortSt) (rx : List (List LFlit)) : PortSt :=
  let tails := (List.range 4).map fun vc => (splitWhole (rx.getD vc [])).2
  { x with
    rx := tails, debt := tails.map (·.length),
    owe := (List.range 4).map fun vc => x.owe.getD vc 0 + ((rx.getD vc []).length - x.debt.getD vc 0) }

/-- The plaintext of a KIND 0 or 1 group that has been accepted (R243 to R245, R251). -/
def State.takePlain (s : State) (p hdr map : Nat) (pt : Bytes) : State :=
  if bitsOf hdr 62 61 = 1 then
    if (s.port p).drain.isSome then s else s.updPort p fun x => { x with ctlRx := x.ctlRx ++ ctlsOf pt }
  else
    let (rx, bad) := takeFlits (s.port p).rx map pt
    match s.portPeer p with
    | none => if (s.port p).drain.isSome then s.updPort p fun x => x.discard rx else s
    | some n =>
      let s := s.updPort p fun x => ({ x with rx := rx } : PortSt).streams
      if bad then s.endSession p n 0x040C else s

/-- A KIND 0 or 1 group whose PHASE and SEQ fit an epoch (R239 to R241). -/
def State.takeSealed (s : State) (p : Nat) (epochs : List Nat) (b : Bytes) : State :=
  let hdr := rd b 0 8
  match s.recvKeys p with
  | none => s
  | some (keys, ini) =>
    match epochs.findSome? fun e => (openGroup keys ini b e).map fun pt => (e, pt) with
    | none =>
      let s := (s.failGroupRx p).portCount Reg.PORT_TAG_FAIL p 1
      match s.portPeer p with
      | some n => s.updSession n fun x => { x with tagFails := x.tagFails + 1 }
      | none => s
    | some (epoch, pt) => (s.acceptSeq p epoch hdr).takePlain p hdr (rd b 8 8) pt

/-- A group of any KIND with its CRC good (R241 checks 2 to 4). -/
def State.takeGroup (s : State) (p : Nat) (b : Bytes) : State :=
  let hdr := rd b 0 8
  let kind := bitsOf hdr 62 61
  let epochs := s.epochsOf p hdr
  if epochs.isEmpty then s
  else if bit hdr 63 || rd b 1060 4 ≠ 0 then s.failGroupRx p
  else if kind < 2 then s.takeSealed p epochs b
  else
    let s := s.takeAck p hdr
    if kind = 2 then
      let (l, r) := setupsOf 1024 ((s.port p).setupBuf ++ slice b 16 1024)
      s.updPort p fun x => { x with setupRx := x.setupRx ++ l, setupBuf := r }
    else s

/-- GROUP_RECEIVE (R236, R241): a group as the decoder gives it, with the codewords it corrected and could not correct. One that a
codeword not corrected touches fails its CRC. -/
def execGroupReceive (port : PortIx) (data : List Byte) (corrected uncorrectable : Nat) (s : State) : Res :=
  let p : Nat := port.val
  let st := s.portState p
  .next (
    if !s.ramom p || st < 2 || 5 < st || s.getF Reg.PORT_CTRL_LOOPBACK p 0 = 1 then s
    else
      let s := (s.portCount Reg.PORT_FEC_CORR p corrected).portCount Reg.PORT_FEC_UNCORR p uncorrectable
      if 0 < uncorrectable || data.length ≠ 1064 || crc32 (data.take 1056) ≠ rd data 1056 4 then s.failGroupRx p
      else s.takeGroup p data)

/-! ## Ethernet (R233 to R235) -/

/-- The fields of a port's ring: size, enable, address, HEAD, TAIL. -/
def ringFields (rx : Bool) : Fld × Fld × Fld × Fld × Fld :=
  if rx then (Reg.ETH_RX_RING_SIZE_LOG2, Reg.ETH_RX_RING_EN, Reg.ETH_RX_RING_ADDR, Reg.ETH_RX_IDX_HEAD, Reg.ETH_RX_IDX_TAIL)
  else (Reg.ETH_TX_RING_SIZE_LOG2, Reg.ETH_TX_RING_EN, Reg.ETH_TX_RING_ADDR, Reg.ETH_TX_IDX_HEAD, Reg.ETH_TX_IDX_TAIL)

/-- ETH_TAIL_WRITE (R235): outside Ethernet mode the field keeps its reset value. -/
def execEthTailWrite (port : PortIx) (rx : Bool) (tail : BitVec 16) (s : State) : Res :=
  .next (if s.portMode port.val = 2 then s.setF (ringFields rx).2.2.2.2 port.val 0 tail.toNat else s)

/-- The next descriptor of a ring in use that is not empty: its address. -/
def State.ringNext (s : State) (p : Nat) (rx : Bool) : Option Nat :=
  let (sz, en, ad, hd, tl) := ringFields rx
  let lg := s.getF sz p 0
  let n := 2 ^ lg
  if s.getF en p 0 = 0 || lg < 4 || 16 < lg || s.getF hd p 0 % n = s.getF tl p 0 % n then none
  else some (s.getF ad p 0 * 64 + 16 * (s.getF hd p 0 % n))

/-- The module has finished with a descriptor: DONE, ERR, the frame's length, HEAD and the port's vector (R235; 14_host_attach.md
R344). -/
def State.ringDone (s : State) (p : Nat) (rx : Bool) (a w1 : Nat) (err : Bool) : State :=
  let (sz, _, _, hd, _) := ringFields rx
  let n := 2 ^ s.getF sz p 0
  let w := w1 % 2 ^ 16 + 2 ^ 16 + (if err then 2 ^ 17 else 0) + w1 / 2 ^ 18 * 2 ^ 18
  let s := (s.hubWrite (a + 8) (leBytes 8 w)).1
  (s.setF hd p 0 ((s.getF hd p 0 + 1) % n)).raise (2 + p)

/-- Is a descriptor in order, with LEN between two limits (R235)? -/
def State.descOk (s : State) (w0 w1 lo hi n : Nat) : Bool :=
  w0 < 2 ^ 63 && w1 / 2 ^ 18 = 0 && lo ≤ w1 % 2 ^ 16 && w1 % 2 ^ 16 ≤ hi && s.inSteward w0 n

/-- ETH_FRAME_TRANSMIT (R234, R235): the frame of the next descriptor goes out with its FCS, or the descriptor is refused. -/
def execEthFrameTransmit (port : PortIx) (s : State) : Res :=
  let p : Nat := port.val
  .next (if s.portMode p ≠ 2 || s.portState p ≠ 2 || s.getF Reg.PORT_CTRL_LOOPBACK p 0 = 1 then s
    else match s.ringNext p false with
      | none => s
      | some a =>
        match s.hubRead a 16 with
        | (s, .error _) => s.ringDone p false a 0 true
        | (s, .ok d) =>
          let w0 := rd d 0 8
          let w1 := rd d 8 8
          if !s.descOk w0 w1 60 9212 (w1 % 2 ^ 16) then s.ringDone p false a w1 true
          else match s.hubRead w0 (w1 % 2 ^ 16) with
            | (s, .error _) => s.ringDone p false a w1 true
            | (s, .ok b) => (s.emit (.frame p (b ++ leBytes 4 (crc32 b)))).ringDone p false a w1 false)

/-- Put a frame into the first posted buffer that is in order; descriptors refused before it are passed (R235). -/
def State.fillFrame (s : State) (p : Nat) (b : Bytes) : Nat → State
  | 0 => s.portCount Reg.PORT_RX_DROP p 1
  | k + 1 =>
    match s.ringNext p true with
    | none => s.portCount Reg.PORT_RX_DROP p 1
    | some a =>
      match s.hubRead a 16 with
      | (s, .error _) => (s.ringDone p true a 0 true).fillFrame p b k
      | (s, .ok d) =>
        let w0 := rd d 0 8
        let w1 := rd d 8 8
        if !s.descOk w0 w1 9212 65535 (w1 % 2 ^ 16) then (s.ringDone p true a w1 true).fillFrame p b k
        else match s.hubWrite w0 b with
          | (s, some _) => (s.ringDone p true a w1 true).fillFrame p b k
          | (s, none) => s.ringDone p true a b.length false

/-- ETH_FRAME_RECEIVE (R234, R235): a frame with its FCS. One shorter than 64 B is no Ethernet frame and goes nowhere (log
51). -/
def execEthFrameReceive (port : PortIx) (frame : List Byte) (s : State) : Res :=
  let p : Nat := port.val
  let n := frame.length - 4
  .next (if s.portMode p ≠ 2 || s.portState p ≠ 2 || s.getF Reg.PORT_CTRL_LOOPBACK p 0 = 1 || frame.length < 64 then s
    else if 9216 < frame.length || crc32 (frame.take n) ≠ rd frame n 4 then s.portCount Reg.PORT_RX_DROP p 1
    else s.fillFrame p (frame.take n) 65536)

end Sys2Proof.Machine
end

