-- ==== Sys2Proof/Machine/Resets.lean ====
section
/-!
DEFINITION. The resets that restart the hub, what starts them, the loss of supply and of REFCLK
(01_module_overview.md R25; 18_power_clocks_and_reset.md R426, R430, R440, R442, R443).
-/

namespace Sys2Proof.Machine

/-- What a reset that restarts the hub leaves (R440, R443): registers that it does not list return to their reset values;
memory, keys, owners, sessions, images and tiles are lost; so are a debug token (19_lifecycle_firmware_debug.md R465) and a
calibration pass. A failed edge or bridge comes back with a module reset only, though a hub warm reset clears the bit that
shows it (02_fabric.md R48, R50). The Pilot island keeps its flash and, but for a cold reset, its registers and calibration table. -/
def State.stopHub (s : State) (k : ResetKind) : State :=
  { s.resetRegs k with
    tiles := [], fab := { Fabric.reset with down := if k = ResetKind.hubWarm then s.fab.down else [] }, mem := Mem.reset, prism := Prism.reset, frame := FrameImage.builtin, parts := [],
    hub := Hub.reset, link := Link.reset, ten := Tenants.reset,
    pilot := { s.pilot with token := none, mbox := Mailbox.reset, loaderDigest := zeros 64, passing := [] } }.set
    Reg.CALIB_STAT_PASS_BUSY 0

/-- RESET_CAUSE after a module or hub warm reset (R440, R447). -/
def State.noteCause (s : State) (c : Nat) : State := (s.set Reg.RESET_CAUSE_CAUSE c).addF Reg.RESET_CAUSE_COUNT 0 0 1

/-- May a module reset act: the module has its supplies (R440; 01_module_overview.md R25)? -/
def State.resettable (s : State) : Bool := s.pilot.boot ≠ .off && s.pilot.boot ≠ .tripped

/-- A module reset (R440, R442): while RESET_IN_N is low the module stays in it. -/
def State.moduleReset (s : State) (cause : Nat) : State :=
  if !s.resettable then s
  else
    let s := ((s.stopHub .modul).showCalib).noteCause cause
    if s.pilot.resetLow then s.updPilot fun p => { p with boot := .held } else s.startPilot

/-- A hub warm reset (R440, R444): bring-up runs again from row 4. -/
def State.hubReset (s : State) (cause : Nat) : State :=
  if s.pilot.boot ≠ .ready then s
  else
    let s := ((s.stopHub .hubWarm).showCalib).noteCause cause
    ((s.set Reg.GLOBAL_STAT_STAGE 4).set Reg.CLK_STAT_HCLK_LOCK 1).updPilot fun p => { p with boot := .running }

/-! ## Supplies (R426, R440; 01_module_overview.md R25) -/

/-- POWER_LOSS (R426): every supply falls. -/
def execPowerLoss (s : State) : Res :=
  .next (
    if s.pilot.bulk then (s.stopHub .cold).updPilot fun p => { Pilot.cold p.flash with boot := .off } else s)

/-- COLD_RESET (R440, R444): a feed rises while the Pilot island is unpowered. -/
def execColdReset (feed : Fin 2) (dv : BitVec 10) (s : State) : Res :=
  .next (
    if s.pilot.powered then s
    else
      let s := (s.stopHub .cold).updPilot fun p => Pilot.cold p.flash
      (((s.set (feedOk feed) 1).set (feedDv feed) dv.toNat).set Reg.PWR_STAT_ON_B feed.val).startPilot)

/-- The trip (R25, R428): THERMTRIP_OUT_N goes low and every supply but the Pilot island's falls. -/
def State.trip (s : State) : State :=
  if s.resettable then ((s.stopHub .modul).showCalib).updPilot fun p => { p with boot := .tripped, tripOut := true } else s

/-- THERMTRIP (R25, R428): a die's junction is at 115 °C or more. -/
def execThermtrip (die : Fin 6) (celsius : Byte) (s : State) : Res :=
  .next (if s.resettable && 115 ≤ celsius.toNat then (s.setDieC die celsius).trip else s)

/-- THERMAL_STRETCH (R24, R25, R428): the hottest junction of a die; from 105 °C the module stretches FCLK in the affected clusters
by at least one step and THERM is set, below it that die's stretch ends. From 115 °C the module trips. -/
def execThermalStretch (die : Fin 6) (celsius : Byte) (step : Fin 64) (s : State) : Res :=
  .next (
    if !s.pilot.powered then s
    else
      let s := s.setDieC die celsius
      let hot : Bool := 105 ≤ celsius.toNat
      let s := if hot then s.set Reg.PWR_EVENT_THERM 1 else s
      let s := (s.updPilot fun p => { p with
        thermStep := p.thermStep.set die.val (if hot then max 1 step.val else 0) }).showStretch
      if 115 ≤ celsius.toNat then s.trip else s)

/-! ## RESET_IN_N (R442) -/

/-- RESET_IN_N: a low of 500 ns or longer. -/
def execResetInN (s : State) : Res :=
  .next ((s.updPilot fun p => { p with resetLow := p.boot ≠ .off }).moduleReset 1)

/-- RESET_IN_N_RELEASE: the rising edge starts bring-up. -/
def execResetInNRelease (s : State) : Res :=
  let held : Bool := s.pilot.boot = .held
  let s := s.updPilot fun p => { p with resetLow := false }
  .next (if held then s.startPilot else s)

/-! ## REFCLK (R430) -/

/-- REFCLK_LOSS: every PLL fed from REFCLK stops. A bring-up waits at row 3 again. -/
def execRefclkLoss (s : State) : Res :=
  .next (
    if s.pilot.boot = .ready || s.pilot.boot = .running then
      ((((s.set Reg.CLK_STAT_REFCLK_OK 0).set Reg.CLK_STAT_HCLK_LOCK 0).set Reg.PWR_EVENT_REFCLK_LOSS 1).updPilot fun p =>
        { p with boot := if p.boot = .ready then .noRef else .waitRef })
    else s.set Reg.CLK_STAT_REFCLK_OK 0)

/-- REFCLK_RETURN: after 10 ms of REFCLK the Pilot island performs a module reset. -/
def execRefclkReturn (s : State) : Res :=
  .next (if s.pilot.boot = .noRef then (s.set Reg.CLK_STAT_REFCLK_OK 1).moduleReset 3 else s)

/-- REFCLK_ARRIVAL: bring-up goes on from row 3. -/
def execRefclkArrival (s : State) : Res :=
  .next (
    if s.pilot.boot = .waitRef then
      (((s.set Reg.CLK_STAT_REFCLK_OK 1).set Reg.CLK_STAT_HCLK_LOCK 1).set Reg.GLOBAL_STAT_STAGE 3).updPilot fun p =>
        { p with boot := .running }
    else s)

/-! ## Requests for a reset (R440, R442) -/

/-- HUB_WATCHDOG: no heartbeat of hub firmware for 1 s. -/
def execHubWatchdog (s : State) : Res :=
  .next (if s.pilot.boot = .ready then (s.hubReset 7).set Reg.PWR_EVENT_HUB_WDOG 1 else s)

/-- A request with no body: 0x01 when it has one. -/
def noBody (b : Bytes) : Nat := if b.isEmpty then 0 else 0x01

/-- MODULE_RESET (R442): the response goes first. -/
def execModuleReset (req : Option (List Byte)) (s : State) : Res :=
  .next (s.vendor 0x01 req (fun b s => (s, noBody b, [])) fun _ s => s.deliver.moduleReset 2)

/-- HUB_WARM_RESET (R442): the response goes first. -/
def execHubWarmReset (req : Option (List Byte)) (s : State) : Res :=
  .next (s.vendor 0x02 req (fun b s => (s, noBody b, [])) fun _ s => s.deliver.hubReset 4)

/-! ## The Steward console (14_host_attach.md R348; 19_lifecycle_firmware_debug.md R452, R466) -/

/-- Are UART_TX and UART_RX live: in BLANK, and in other states while a token with UART is in force? -/
def State.uartLive (s : State) : Bool :=
  s.pilot.powered && (s.pilot.flash.lcState = 0 || match s.pilot.token with
    | some k => bit k.rights 1
    | none => false)

/-- The level of UART_TX when the Steward drives `level`: high while the pin is not live (log 129). -/
def State.uartTx (s : State) (level : Bool) : Bool := !s.uartLive || level

/-- What the Steward receives when UART_RX carries `level`: nothing while the pin is not live. -/
def State.uartRx (s : State) (level : Bool) : Option Bool := if s.uartLive then some level else none

/-- One register as the little-endian 8 bytes of its word. -/
def State.regBytes (s : State) (base : Nat) : Bytes :=
  leBytes 8 ((regTable.filter fun f => f.base = base && f.access ≠ .wo).foldl (fun w f => w + s.get f * 2 ^ f.lo) 0)

/-- POWER_STATUS (R442): PWR_STAT, PWR_EVENT, THERM_STAT, CALIB_STAT and GLOBAL_STAT. -/
def execPowerStatus (req : Option (List Byte)) (s : State) : Res :=
  .next (s.vendorCmd 0x04 req fun b s =>
    (s, noBody b, if b.isEmpty then [0x20000, 0x20008, 0x20020, 0x20300, 0x20420].flatMap s.regBytes else []))

/-- RESET_CTRL_MODULE (R442): KEY 0x5A, MODULE 1 and HUB_WARM 0. -/
def execResetCtrlModule (s : State) : Res := .next (s.cxlIo fun s => s.moduleReset 2)

/-- RESET_CTRL_HUB_WARM (R442): KEY 0x5A, HUB_WARM 1 and MODULE 0. -/
def execResetCtrlHubWarm (s : State) : Res := .next (s.cxlIo fun s => s.hubReset 4)

end Sys2Proof.Machine
end

