-- ==== Sys2Proof/Machine/LifeCycle.lean ====
section
/-!
DEFINITION. The life cycle, staging, settings, debug tokens and JTAG (19_lifecycle_firmware_debug.md R450 to R466).
-/

namespace Sys2Proof.Machine

/-! ## Status (R461, R463) -/

/-- FLAGS of LC_STATUS (R461). -/
def State.lcFlags (s : State) : Nat :=
  let p := s.pilot
  ofBits 8 fun i => [p.token.isSome, p.settingsReset, p.wearLimit, !p.flash.staged.isEmpty, p.deferred, p.rejected,
    decide (p.boot = .recovery), !p.flash.certs.isEmpty].getD i false

/-- Seconds left of the token in force. -/
def State.tokenLeft (s : State) : Nat := match s.pilot.token with
  | some t => (t.ends - s.get Reg.TIME_SCLK_COUNT) / 32768
  | none => 0

/-- COUNT of the record; 0 in BLANK and LOST. -/
def Flash.count (f : Flash) : Nat := match f.record with
  | some r => r.count
  | none => 0

/-- LC_STATUS (R461). -/
def execLcStatus (req : Option (List Byte)) (s : State) : Res :=
  .next (s.vendorCmd 0x10 req fun b s =>
    let f := s.pilot.flash
    (s, noBody b, if b.isEmpty then
      leBytes 1 f.lcState ++ leBytes 4 f.count ++ leBytes 8 f.secVersion ++ leBytes 16 Config.unitId ++
        leBytes 4 s.lcFlags ++ leBytes 1 s.pilot.fwCheck ++ leBytes 4 s.tokenLeft
      else []))

/-- LC_NONCE (R461, R463): 32 free bytes (log 1). -/
def execLcNonce (req : Option (List Byte)) (s : State) : Res :=
  .next (s.vendorCmd 0x11 req fun b s =>
    if !b.isEmpty then (s, 0x01, [])
    else
      let n := s.freeBytes 32
      ((s.tick.updPilot fun p => { p with nonce := some n }), 0, n))

/-- NONCE_EXPIRY (R463). -/
def execNonceExpiry (s : State) : Res := .next (s.updPilot fun p => { p with nonce := none })

/-- WEAR_STATUS (R461, R449): the highest erase count of each area, in table order. -/
def execWearStatus (req : Option (List Byte)) (s : State) : Res :=
  .next (s.vendorCmd 0x1B req fun b s =>
    let w := smapGet 0 s.pilot.flash.wear
    (s, noBody b, if b.isEmpty then
      [w 0, s.pilot.flash.erases / 4096, w 2, w 3, max (w 4) (w 5), max (w 6) (w 7), max (w 8) (w 9), max (w 10) (w 11),
        w 12].flatMap (leBytes 4)
      else []))

/-- CERT_STORE (R461). -/
def execCertStore (req : Option (List Byte)) (s : State) : Res :=
  .next (s.vendorCmd 0x13 req fun b s =>
    if s.pilot.flash.lcState ≠ 2 then (s, 0x02, [])
    else if b.isEmpty || 3968 < b.length then (s, 0x01, [])
    else if s.worn 2 then (s.atWearLimit, 0x09, [])
    else (((s.eraseArea 2 4).updFlash fun f => { f with certs := b }), 0, []))

/-! ## Transitions (R453 to R455) -/

/-- Who may sign a transition. -/
inductive Signer where
  | authority | operator | either
  deriving DecidableEq, Repr

/-- A permitted transition (R453): its signer, and whether it needs NEW_OPERATOR. -/
def transitionRow (src dst : Nat) : Option (Signer × Bool) :=
  match src, dst with
  | 0, 1 => some (.authority, false)
  | 1, 2 => some (.authority, false)
  | 2, 3 => some (.authority, true)
  | 3, 3 => some (.operator, true)
  | 3, 4 => some (.operator, false)
  | 4, 3 => some (.authority, true)
  | 1, 5 => some (.authority, false)
  | 2, 5 => some (.authority, false)
  | 4, 5 => some (.authority, false)
  | 3, 5 => some (.either, false)
  | _, _ => none

/-- Is a key Nymane's life-cycle authority key (R453)? -/
def isAuthority (k : Bytes) : Bool := Config.sha512 k = Config.authHash

/-- SIGNER_KEY as a row of R453 requires. -/
def Flash.signerOk (f : Flash) (w : Signer) (k : Bytes) : Bool :=
  let op : Bool := match f.record with
    | some r => r.operator = k
    | none => false
  match w with
  | .authority => isAuthority k
  | .operator => op
  | .either => isAuthority k || op

/-- Does a transition keep what else R453 asks: NEW_OPERATOR, and a chain before FIELD (log 53)? -/
def Flash.transitionOk (f : Flash) (b : Bytes) : Bool :=
  let new := slice b 64 32
  match transitionRow (rd b 6 1) (rd b 7 1) with
  | none => false
  | some (_, needs) =>
    (if needs then !allZero new else allZero new) && (!(rd b 6 1 = 2 && rd b 7 1 = 3) || !f.certs.isEmpty) &&
      (!(rd b 6 1 = 3 && rd b 7 1 = 3) || match f.record with
        | some r => r.operator ≠ new
        | none => false)

/-- The first completion code that applies to an LC_TRANSITION (R454). -/
def State.transitionCode (s : State) (b : Bytes) : Nat :=
  let f := s.pilot.flash
  if !(b.length = 192 && rd b 0 4 = 0x544C3445 && rd b 4 2 = 1 && rd b 60 4 = 0) then 0x01
  else if !(rd b 6 1 = f.lcState && f.transitionOk b) then 0x02
  else if !(rd b 8 16 = Config.unitId % 2 ^ 128 && rd b 56 4 = f.count) then 0x05
  else if s.pilot.nonce ≠ some (slice b 24 32) then 0x04
  else if !(match transitionRow (rd b 6 1) (rd b 7 1) with
      | some (w, _) => f.signerOk w (slice b 96 32)
      | none => false) || !Config.ed25519Verify (slice b 96 32) (Config.sha512 (b.take 128)) (slice b 128 64) then 0x03
  else if !s.feedsOk then 0x06
  else if s.pilot.staging.isSome then 0x07
  else if s.worn 0 then 0x09
  else 0

/-- The record that an accepted transition commits (R453). -/
def Flash.nextRecord (f : Flash) (b : Bytes) : LcRecord :=
  let dst := rd b 7 1
  let old := f.record.getD { state := 0, count := 0, secVersion := 1, operator := [] }
  { state := dst, count := old.count + 1, secVersion := old.secVersion,
    operator := if dst = 5 then zeros 32 else if dst = 3 then slice b 64 32 else if dst = 2 then old.operator
      else slice b 96 32 }

/-- Erase the first unit of an area, unless it is at its limit (R453, R462). -/
def State.wipeUnit (s : State) (a : Nat) (f : Flash → Flash) : State :=
  if s.worn a then s.atWearLimit else (s.eraseArea a 1).updFlash f

/-- What follows an accepted LC_TRANSITION (R454, R455): `feedDrop` says that a feed is not OK at the second check, and
`flashFail` that the commit's program fails twice. OPERATOR
after FIELD to RETURN is the authority's key, which that request does not hold: it is the one that signed the unit's first
transition (log 54). -/
def State.transition (s : State) (b : Bytes) (feedDrop flashFail : Bool) : State :=
  let s := s.updPilot fun p => { p with token := none }
  if feedDrop then s.moduleReset 2
  else
    let dst := rd b 7 1
    let f := s.pilot.flash
    let r := f.nextRecord b
    let r := if rd b 6 1 = 3 && dst = 4 then { r with operator := f.authority } else r
    let s := (s.eraseArea 0 2).updFlash fun f => { f with
      record := if flashFail then none else some r, lcInit := true,
      authority := if rd b 6 1 = 0 then slice b 96 32 else f.authority }
    let s := if dst = 2 then s
      else ((s.wipeUnit 12 fun f => { f with startFrame := none }).wipeUnit (activeArea 4) fun f => f.setActive 4 []).wipeUnit
        (stageArea 4) fun f => f.setStaged 4 []
    s.moduleReset 2

/-- LC_TRANSITION (R453 to R455). -/
def execLcTransition (req : Option (List Byte)) (feedDrop flashFail : Bool) (s : State) : Res :=
  .next (s.vendor 0x12 req
    (fun b s =>
      let c := s.transitionCode b
      (if c = 0 then s.updPilot fun p => { p with nonce := none } else if c = 0x09 then s.atWearLimit else s, c, []))
    fun b s => s.deliver.transition b feedDrop flashFail)

/-! ## Staging (R457) -/

/-- In recovery the staging commands serve KIND 1 only (R458). -/
def State.stageRefused (s : State) (k : Nat) : Bool := s.pilot.boot = .recovery && k ≠ 1

/-- STAGE_BEGIN (R457; log 52). -/
def execStageBegin (req : Option (List Byte)) (s : State) : Res :=
  .next (s.vendorCmd 0x14 req fun b s =>
    let k := rd b 0 1
    let n := rd b 1 4
    if b.length ≠ 5 || k = 0 || 4 < k then (s, 0x01, [])
    else if s.stageRefused k then (s, 0x02, [])
    else if s.pilot.staging.isSome then (s, 0x07, [])
    else if n = 0 || 4096 * slotUnits k < n then (s, 0x0A, [])
    else if s.worn (stageArea k) then (s.atWearLimit, 0x09, [])
    else
      let s := (s.eraseArea (stageArea k) (slotUnits k)).updFlash fun f => f.setStaged k []
      let chk := match s.pilot.flash.settings with
        | some x => x.fwCheck
        | none => s.pilot.fwCheck
      (s.updPilot fun p => { p with staging := some { kind := k, total := n, check := chk, data := [] } }, 0, []))

/-- Bytes of the header of an image of a KIND. -/
def headerLen (k : Nat) : Nat := if k = 4 then 64 else 192

/-- End the session with the slot empty. -/
def State.endStaging (s : State) : State := s.updPilot fun p => { p with staging := none }

/-- STAGE_DATA (R457): OFFSET, 4 bytes, and the data (log 52). -/
def execStageData (req : Option (List Byte)) (s : State) : Res :=
  .next (s.vendorCmd 0x15 req fun b s =>
    match s.pilot.staging with
    | none => (s, 0x0A, [])
    | some g =>
      let d := b.drop 4
      if d.isEmpty || 3968 < d.length then (s, 0x01, [])
      else if rd b 0 4 ≠ g.data.length || g.total < g.data.length + d.length then (s, 0x0A, [])
      else
        let data := g.data ++ d
        let h := headerLen g.kind
        let c := if bit g.check 0 && g.data.length < h && h ≤ data.length then s.pilot.flash.headerCode g.kind g.total data
          else 0
        if c ≠ 0 then (s.endStaging, c, [])
        else (s.updPilot fun p => { p with staging := some { g with data := data } }, 0, []))

/-- STAGE_FINISH (R457). An image shorter than its header fails the header check. -/
def execStageFinish (req : Option (List Byte)) (s : State) : Res :=
  .next (s.vendorCmd 0x16 req fun b s =>
    match s.pilot.staging with
    | none => (s, 0x0A, [])
    | some g =>
      if !b.isEmpty then (s, 0x01, [])
      else if g.data.length ≠ g.total then (s, 0x0A, [])
      else
        let c := if !bit g.check 0 then 0 else if g.total < headerLen g.kind then 0x0B
          else s.pilot.flash.bodyCode g.kind g.data
        if c ≠ 0 then (s.endStaging, c, [])
        else (s.endStaging.updFlash fun f => f.setStaged g.kind g.data, 0, []))

/-- STAGE_ABORT (R457). -/
def execStageAbort (req : Option (List Byte)) (s : State) : Res :=
  .next (s.vendorCmd 0x17 req fun b s => if b.isEmpty then (s.endStaging, 0, []) else (s, 0x01, []))

/-- STAGE_TIMEOUT (R457). -/
def execStageTimeout (s : State) : Res := .next s.endStaging

/-- SET_SETTINGS (R460). -/
def execSetSettings (req : Option (List Byte)) (s : State) : Res :=
  .next (s.vendorCmd 0x18 req fun b s =>
    let v := rd b 0 1
    if b.length ≠ 1 || v = 0 || 3 < v then (s, 0x01, [])
    else if s.worn 3 then (s.atWearLimit, 0x09, [])
    else ((s.storeSettings v).updPilot fun p => { p with fwCheck := v }, 0, []))

/-! ## Debug tokens (R464, R465) -/

/-- The first completion code that applies to a debug token (R464; log 55). -/
def State.tokenCode (s : State) (b : Bytes) : Nat :=
  let own := rd b 64 2
  let rights := rd b 60 4
  let digest := Config.sha512 (b.take 128)
  let form : Bool := b.length = (if own = 0 then 224 else 288) && rd b 0 4 = 0x54443445 && rd b 4 2 = 1 && rd b 7 1 = 0 &&
    1 ≤ rd b 56 4 && rd b 56 4 ≤ 86400 && rights < 128 && allZero (slice b 66 30) && allZero (slice b 192 32) &&
    ((own ≠ 0) = (bit rights 5 || bit rights 6))
  if !form then 0x01
  else if s.pilot.flash.operator.isNone then 0x02
  else if !(rd b 8 16 = Config.unitId % 2 ^ 128 && rd b 6 1 = s.pilot.flash.lcState) then 0x05
  else if s.pilot.nonce ≠ some (slice b 24 32) then 0x04
  else if s.pilot.flash.operator ≠ some (slice b 96 32) || !Config.ed25519Verify (slice b 96 32) digest (slice b 128 64) then
    0x03
  else if own ≠ 0 && !((s.owner own).kind = 1 && Config.ed25519Verify (s.owner own).data digest (slice b 224 64)) then 0x03
  else 0

/-- DEBUG_TOKEN (R464, R465). -/
def execDebugToken (req : Option (List Byte)) (s : State) : Res :=
  .next (s.vendorCmd 0x19 req fun b s =>
    let c := s.tokenCode b
    if c ≠ 0 then (s, c, [])
    else
      let t : Token := { rights := rd b 60 4, owner := rd b 64 2, digest := Config.sha512 b,
                         ends := s.get Reg.TIME_SCLK_COUNT + rd b 56 4 * 32768 }
      ((s.updPilot fun p => { p with nonce := none, token := some t }).syncRights, 0, []))

/-- The token ends: the debug rights return to their default (R465). -/
def State.endToken (s : State) : State := (s.updPilot fun p => { p with token := none }).syncRights

/-- DEBUG_REVOKE (R461, R465). -/
def execDebugRevoke (req : Option (List Byte)) (s : State) : Res :=
  .next (s.vendorCmd 0x1A req fun b s => if b.isEmpty then (s.endToken, 0, []) else (s, 0x01, []))

/-- DEBUG_TOKEN_EXPIRY (R465). -/
def execDebugTokenExpiry (s : State) : Res := .next s.endToken

/-! ## JTAG (R466) -/

/-- JTAG works: the module has a supply and RESET_IN_N is high. -/
def State.jtagOn (s : State) : Bool := s.pilot.powered && !s.pilot.resetLow

/-- BYPASS: the bypass register captures 0. Every other instruction acts so unless the state is BLANK or a token with JTAG is
in force. -/
def execJtagBypass (s : State) : Res := .next (if s.jtagOn then s.emit (.jtag 0) else s)

/-- IDCODE: [31:28] 0xB, [27:12] 0xE438, [11:1] JTAG_MFR, [0] 1. -/
def execJtagIdcode (s : State) : Res :=
  .next (if s.jtagOn then s.emit (.jtag (0xB * 2 ^ 28 + 0xE438 * 2 ^ 12 + Config.jtagMfr % 2 ^ 11 * 2 + 1)) else s)

/-- SAMPLE_PRELOAD: what the pins hold is captured, a free value (log 1), and the boundary register takes new data. -/
def execJtagSample (preload : Nat) (s : State) : Res :=
  .next (
    if s.jtagOn then
      ((s.emit (.jtag (Config.boundary s.fresh))).tick).updPilot fun p => { p with boundary := preload }
    else s)

/-- EXTEST: the pins are driven from the boundary register. -/
def execJtagExtest (s : State) : Res := .next (if s.jtagOn then s.emit (.pins s.pilot.boundary) else s)

end Sys2Proof.Machine
end

