-- ==== Sys2Proof/Machine/Loader.lean ====
section
/-!
DEFINITION. Loading and unloading: job images, frame images, the release of a partition, and the partition and tile resets
(03_configuration_images.md R76 to R83; 04_tile_core.md R87, R98; 13_tenants_and_joint_training.md R311, R314, R315,
R322, R323; 15_shared_objects_and_submission.md R354, R355, R371, R376; 18_power_clocks_and_reset.md R441).
-/

namespace Sys2Proof.Machine

/-! ## The target of a job load (R56, R76 to R80) -/

/-- An image at a load address (R77, R78): nothing where the address is not under key ID 0 or the image does not lie in the
Steward region. -/
def State.readImage (s : State) (a : Nat) : State × Except Nat Bytes :=
  let off := a % 2 ^ 52
  if s.keyOf a ≠ 0 || !s.inSteward off 128 then (s, .ok [])
  else match s.hubRead off 128 with
    | (s, .error e) => (s, .error e)
    | (s, .ok h) =>
      let n := rd h 8 4
      if n < 256 || 2 ^ 28 < n || !s.inSteward off n then (s, .ok []) else s.hubRead off n

/-- Has a load of a partition passed every check and not finished? -/
def Part.accepted (x : Part) : Bool := match x.busy with
  | .loading _ _ _ => true
  | _ => false

/-- The images that a partition holds or that have passed every check for it, each with its context. -/
def Part.images (x : Part) : List (JobImage × Nat) :=
  (if x.loaded then [(x.image, x.ctx)] else []) ++ match x.busy with
    | .loading j c _ => [(j, c)]
    | _ => []

/-- The joint images that count for the comparison of R76, by partition (R83). -/
def State.jointImages (s : State) (p : Nat) : List (Nat × JobImage) :=
  (List.range 32).flatMap fun q => if q = p then [] else
    (((s.part q).images.map (·.1)).filter (·.joint)).map fun j => (q, j)

/-- Do two manifests name a partition or a gate in common (R83)? -/
def Manifest.meets (m n : Manifest) : Bool :=
  (m.owners.any fun o => n.owners.any fun q => q.part = o.part) || m.gates.any fun e => n.gates.any fun f => f.gate = e.gate

/-- Does the plan of a joint image give an owner entry its regions, and no other from 0xF00 to 0xF1F (R323)? -/
def JobImage.gateRegionsOk (j : JobImage) (m : Manifest) (i : Nat) (key : Nat) : Bool :=
  let mine := m.gates.filter fun e => bit e.ownerMask i
  (mine.all fun e =>
    (j.plan.any fun r => r.region = 0xF00 + e.gate && r.keyId = key) &&
      j.plan.any fun r => r.region = 0xF10 + e.gate && r.keyId = e.modelKey) &&
    j.plan.all fun r => !(0xF00 ≤ r.region && r.region ≤ 0xF1F) || mine.any fun e => e.gate = r.region % 16

/-- Have two images of one joint job the same size for each region of R323 that both hold? -/
def JobImage.sameGateSizes (j k : JobImage) : Bool :=
  j.plan.all fun r => !(0xF00 ≤ r.region && r.region ≤ 0xF1F) || k.plan.all fun q => q.region ≠ r.region || q.size = r.size

/-- Check 0x0932 of an image (R76, R83; 13_tenants_and_joint_training.md R322, R323). -/
def State.checkManifest (s : State) (b : Bytes) (p : Nat) : Option LoadErr :=
  match imgSec b 0x010A with
  | none => none
  | some x =>
    let m := Machine.manifestOf x
    let n := x.count
    let g := x.count2
    let others := s.jointImages p
    firstErr [
      chk (2 ≤ n && n ≤ 16 && 1 ≤ g && g ≤ 16 && s.profileK) 0x0932 x.idx 0,
      scanErr 0x0932 x.idx 0 m.owners fun before o =>
        (s.rect o.part).isSome && !s.isGate o.part && (before.all fun q => q.part ≠ o.part) &&
          (s.keyEntry o.keyId).state = .valid && s.ownerOfKey o.key = some (s.keyEntry o.keyId).owner,
      scanErr 0x0932 x.idx n m.gates fun _ e =>
        (s.gatePart e.gate).isSome && e.combine ≤ 2 && 2 ≤ popCount 16 e.ownerMask && e.ownerMask < 2 ^ n &&
          (let k := s.keyEntry e.modelKey
           (k.state = .reserved || k.state = .valid) && (s.owner k.owner).kind = 2 &&
             (s.owner k.owner).data = Config.sha512 x.data),
      scanErr 0x0932 x.idx (n + g) (m.owners.zip m.sigs) fun _ o =>
        Config.ed25519Verify o.1.key (Config.sha512 (x.data.take (8 + 48 * n + 16 * g))) o.2,
      chk (others.all fun q => match q.2.manifest with
        | some k => !m.meets k || k.raw = m.raw
        | none => true) 0x0932 x.idx 0,
      chk (match m.owners.zipIdx.find? fun o => o.1.part = p with
        | none => false
        | some o => (jobOf b).gateRegionsOk m o.2 o.1.keyId && others.all fun q => match q.2.manifest with
          | some k => k.raw ≠ m.raw || (jobOf b).sameGateSizes q.2
          | none => true) 0x0932 x.idx 0]

/-- The key IDs that a context holds, read and write, under an image (13_tenants_and_joint_training.md R311). -/
def State.holdsKey (s : State) (j : JobImage) (p owner k : Nat) : Bool :=
  if !s.profileK then k = 0
  else match j.joint, j.manifest with
    | true, some m => m.owners.zipIdx.any fun o => o.1.part = p &&
        (o.1.keyId = k || m.gates.any fun e => bit e.ownerMask o.2 && e.modelKey = k)
    | _, _ => (s.keyEntry k).state = .valid && (s.keyEntry k).owner = owner

/-- Is a context bound, or about to be (R78)? -/
def State.ctxTaken (s : State) (c : Nat) : Bool :=
  (List.range 32).any fun p => (s.part p).images.any fun x => x.2 = c

/-- Does an image's signer count as the owner key of the target context (R56; 13_tenants_and_joint_training.md R311;
19_lifecycle_firmware_debug.md R452)? In BLANK none does. -/
def State.signerOk (s : State) (b : Bytes) (p owner : Nat) (k : Bytes) : Bool :=
  s.pilot.flash.operator.isSome && (s.owner owner).kind = 1 && (s.owner owner).data = k && (!imgJoint b || match imgSec b 0x010A with
    | some x => (Machine.manifestOf x).owners.any fun o => o.part = p && o.key = k
    | none => false)

/-- Every check of a job image for a partition and a context, in the order of R78. Before CTX_TABLE.LOCK every load that
reaches the signer is refused with 0x0923 (15_shared_objects_and_submission.md R354). -/
def State.checkLoad (s : State) (b : Bytes) (p c : Nat) : State × Nat × Option LoadErr :=
  let (s, owner, valid) := s.ctxRecord c
  let locked : Bool := s.get Reg.CTX_TABLE_LOCK = 1
  let x := s.part p
  let pend := ((List.range 32).map fun q => match (s.part q).busy with
    | .loading j _ _ => j.queues
    | _ => 0).sum
  let shape : Bool := match s.rect p with
    | some r => rd b 0x0E 1 = r.cx1 + 1 - r.cx0 && rd b 0x0F 1 = r.cy1 + 1 - r.cy0
    | none => false
  (s, owner, match s.checkContainer b 2 (s.signerOk b p owner) with
    | some e => some (if e.code = 0x0905 && !locked then ⟨0x0923, 0xFF, 0⟩ else e)
    | none => firstErr [
        chk ((s.rect p).isSome && !s.isGate p && (s.partClusters p).all fun k => !s.clusterFailed k) 0x0920 0xFF 0,
        chk (!x.loaded && s.get Reg.FRAME_LOAD_STAT_BUSY = 0) 0x0921 0xFF 0,
        chk shape 0x0922 0xFF 0,
        chk (locked && valid && !s.ctxTaken c) 0x0923 0xFF 0,
        s.checkJob b p (s.holdsKey (jobOf b) p owner) (s.freeQueues - pend) (s.checkManifest b p)])

/-! ## Job loads (R79) -/

/-- The end of a load or unload: BUSY 0, DONE 1 and its result. -/
def State.loadEnd (s : State) (p code sect entry : Nat) : State :=
  ((((s.setF Reg.JOB_LOAD_STAT_BUSY p 0 0).setF Reg.JOB_LOAD_STAT_DONE p 0 1).setF Reg.JOB_LOAD_STAT_CODE p 0 code).setF
    Reg.JOB_LOAD_STAT_SECTION p 0 sect).setF Reg.JOB_LOAD_STAT_ENTRY p 0 entry

/-- JOB_LOAD (R77, R79, R85): GO reads the image and checks it; the result stands until the load finishes. -/
def execJobLoad (p : PartIx) (s : State) : Res :=
  let k : Nat := p.val
  .next (s.cxlIo fun s =>
    if (s.part k).busy ≠ .idle then s.setF Reg.JOB_LOAD_STAT_OVERRUN k 0 1
    else
      let c := s.getF Reg.JOB_LOAD_CTX_CTX k 0
      let s := s.setF Reg.JOB_LOAD_STAT_BUSY k 0 1
      match s.readImage (64 * s.getF Reg.JOB_LOAD_ADDR_ADDR k 0) with
      | (s, .error e) => s.updPart k fun x => { x with busy := .load e 0xFF 0 }
      | (s, .ok b) => match s.checkLoad b k c with
        | (s, _, some e) => s.updPart k fun x => { x with busy := .load e.code e.sect e.entry }
        | (s, owner, none) => s.updPart k fun x => { x with busy := .loading (jobOf b) c owner })

/-- An endpoint as a binding makes it (02_fabric.md R40, R44; 04_tile_core.md R95, R96). -/
def State.bindEp (s : State) (p : Nat) (b : Binding) : Endpoint :=
  { Endpoint.unbound with
    kind := match b.kind with
      | 0 => .msg
      | 1 => .sout
      | 2 => .sin
      | _ => .hub
    peerTile := if b.kind = 0 then s.tileRel p b.prx b.pry else 0, peerEp := b.pep, stream := b.stream,
    ringBase := b.ringBase, ringSize := b.ringSize, service := b.service, credits := if b.kind = 0 || b.kind = 3 then 4 else 0 }

/-- A coded tile at its ENTRY (04_tile_core.md R87): what a tile reset leaves, with its code and its endpoints. -/
def State.startTile (s : State) (p c : Nat) (j : JobImage) (e : TileEntry) : State :=
  let t := s.tileRel p e.rx e.ry
  let old := s.tile t
  s.setTile t { Tile.reset with
    scratch := old.scratch, acc := old.acc, imem := smapWrite 0 old.imem 0 (j.blobs.getD e.blob []), eps := old.eps, rx := e.rx,
    ry := e.ry, ctx := c, entry := e.entry, pc := e.entry, coded := true, halted := false,
    accKib := match j.needs.find? fun n => n.rx = e.rx && n.ry = e.ry with
      | some n => n.accKib
      | none => 256 }

/-- The endpoints of a tile as the bindings of an image make them, whether the tile is coded or not (02_fabric.md R44; R65). -/
def State.boundEps (s : State) (p : Nat) (j : JobImage) (rx ry : Nat) : List (Nat × Endpoint) :=
  (j.bindings.filter fun b => b.rx = rx && b.ry = ry).foldl
    (fun l b => smapSet Endpoint.unbound l b.ep (s.bindEp p b)) []

/-- The tiles of a partition take their place, their context and their endpoints (04_tile_core.md R115; 02_fabric.md R44). -/
def State.placeTiles (s : State) (p c : Nat) (j : JobImage) : State :=
  match s.rect p with
  | none => s
  | some r => r.tiles.foldl (fun s t =>
      let rx := tileX t - 4 * r.cx0
      let ry := tileY t - 4 * r.cy0
      s.updTile t fun x => { x with rx := rx, ry := ry, ctx := c, eps := s.boundEps p j rx ry }) s

/-- A load into a carve that holds earlier data: where the sectors of the new plan lie is the module's choice, so a sector that
memory lists is found again at its place, or is one of those whose slots hold what nothing in the model names (log 8). -/
def State.resettle (s : State) (p : Nat) : State :=
  let secs := s.listed fun sec => sec / 2 ^ 52 = p + 1
  let old := s.mem.stale.find? fun r => r.space = p + 1
  if secs.isEmpty && old.isNone then s
  else
    let mask := ofBits 12 fun c => (old.any fun r => bit r.ctrls c) || secs.any fun sec => s.home sec = c
    let lost := (secs.zipIdx.filter fun x =>
      s.home x.1 ≠ s.placeCtrl (4096 * x.1) || Config.freeElem s.fresh x.2 % 2 = 1).map (·.1)
    let s := s.forget lost.contains
    let left := s.mem.stale.filter fun r : Residue => r.space ≠ p + 1
    let t : State := { s with mem := { s.mem with stale := left ++ [⟨p + 1, s.fresh, mask⟩] } }
    t.tick

/-- The key IDs that a plan names, each once. -/
def JobImage.planKeys (j : JobImage) : List Nat := (j.plan.map (·.keyId)).dedup

/-- Model keys of a manifest that are still RESERVED are drawn (13_tenants_and_joint_training.md R322; log 1). -/
def State.drawModelKeys (s : State) (j : JobImage) : State :=
  match j.manifest with
  | none => s
  | some m => m.gates.foldl (fun s e =>
      if (s.keyEntry e.modelKey).state = .reserved then
        (s.updKey e.modelKey fun k =>
          { k with state := .valid, gen := (k.gen + 1) % 2 ^ 32, material := s.free (2 ^ 768) }).tick
      else s) s

/-- The key IDs that the context of a partition holds, which Eclipse flushes (13_tenants_and_joint_training.md R311, R313), and
those that its plan names (12_prism_memory_protection.md R301). -/
def State.departing (s : State) (p : Nat) : List Nat :=
  let x := s.part p
  ((List.range 2048).filter fun k => s.holdsKey x.image p x.owner k) ++ x.image.planKeys

/-- Word 2 of a context's record (15_shared_objects_and_submission.md R355). -/
def State.ctxWord2 (s : State) (c part : Nat) (bound : Bool) : Nat :=
  part + (if bound then 32 else 0) + (s.slotOf c).getD 63 * 64

/-- A load that has passed its checks takes effect (R77, R79, R87; 04_tile_core.md R98; 08_training_dataflow.md R201;
13_tenants_and_joint_training.md R311, R322, R326; 15_shared_objects_and_submission.md R355, R356). -/
def State.install (s : State) (p : Nat) (j : JobImage) (c owner : Nat) : State :=
  let l := s.partClusters p
  let s := (((s.leavePass l).wake l).drawModelKeys j)
  let map := keyMap ((List.range 2048).filter fun k => s.holdsKey j p owner k)
  let s := s.setRights p { read := map, write := map, stewardOnly := false, rawRead := false }
  let s := j.planKeys.foldl (fun s k => s.updKey k fun e => { e with users := e.users + 1 }) s
  let (s, w6) := s.ctxWord c 6
  let s := s.updPart p fun x => { Part.empty with
    eclipse := x.eclipse, handles := x.handles, loaded := true, image := j, ctx := c, owner := owner,
    lineage := s.getF Reg.REFL_LINEAGE_VALUE p 0, traceHead := bitsOf w6 47 32, scheds := j.scheds }
  let s := s.resettle p
  let s := s.saveCtx c (s.ctxWord2 c p true) 0 0 none
  let s := (s.writeSet p 0 []).1
  let s := j.tiles.foldl (fun s e => s.startTile p c j e) (s.placeTiles p c j)
  let s := (s.setF Reg.JOB_LOAD_STAT_LOADED p 0 1).setF Reg.JOB_SERIAL_SERIAL p 0 j.serial
  let s := match s.slotOf c with
    | some i => if s.getF Reg.SLOT_STAT_STATE i 0 = 3 then s.setF Reg.SLOT_STAT_STATE i 0 1 else s
    | none => s
  let s := ((s.showSlot p).countQueues).syncRights
  match j.manifest with
  | some m => m.gates.foldl (fun s e => s.armGate m e) s
  | none => s

/-- A job load ends refused: nothing but the load status changes (R77). -/
def State.refuseLoad (s : State) (k code sect entry : Nat) : State :=
  (s.loadEnd k code sect entry).updPart k fun x => { x with busy := .idle }

/-- JOB_LOAD_COMPLETE (R79, R87; 16_reliability_and_integrity.md R400): the load finishes. A cluster that failed its
self-test on the wake for this load refuses it with 0x0920. -/
def execJobLoadComplete (p : PartIx) (s : State) : Res :=
  let k : Nat := p.val
  .next (match (s.part k).busy with
    | .loading j c owner =>
      if (s.partClusters k).any s.clusterFailed then s.refuseLoad k 0x0920 0xFF 0 else (s.install k j c owner).loadEnd k 0 0 0
    | .load code sect entry => s.refuseLoad k code sect entry
    | _ => s)

/-! ## Release (R80; 13_tenants_and_joint_training.md R313, R315, R329) -/

/-- After an UNLOAD or a partition reset in profile S, Floodlight initialises the partition's whole carve, and the partition waits
for it; in profile K the carve keeps the departing image's data (13_tenants_and_joint_training.md R314, R315). -/
def State.floodCarve (s : State) (p : Nat) : State :=
  let l := s.carveCtrls p
  if s.profileK || l.isEmpty then s else (s.initSpace (p + 1)).startFlood p l

/-- The image of a partition is released: its resources, its queue reservation and its binding; PEND_ERR goes to the log
(15_shared_objects_and_submission.md R371), the context's groups and the mirrors in its host region go
(10_links_and_collectives.md R253; 17_reflection_and_recovery.md R412, R418), a restore is abandoned with a free CODE (log 57), and
the gates of its manifest go to IDLE. -/
def State.release (s : State) (p : Nat) : State :=
  let x := s.part p
  if !x.loaded then s
  else
    let c := x.ctx
    let keys := s.departing p
    let s := if x.pendErr ≠ 0 then s.noteError x.pendErr c 0x1FFF 0 0 else s
    let s := (s.link.groups.filter fun g => g.ctx = c).foldl State.deleteGroup s
    let s := (s.dropHost p).abandonCapture p
    let s := if x.restore.isSome then (((s.setF Reg.REFL_STAT_BUSY p 0 0).setF Reg.REFL_STAT_DONE p 0 1).setF
        Reg.REFL_STAT_CODE p 0 (s.free (2 ^ 16))).tick else s
    let s := x.image.planKeys.foldl (fun s k => s.updKey k fun e => { e with users := e.users - 1 }) s
    let s := (s.setRights p Rights.none).saveCtx c (s.ctxWord2 c 0 false) x.stepNo x.gen (some x.traceHead)
    let s := { s with link := { s.link with
      shards := s.link.shards.filter (fun g => g.part ≠ p), refetch := s.link.refetch.filter (fun g => g.part ≠ p) } }
    let s := s.updPart p fun y => { Part.empty with
      busy := y.busy, eclipse := y.eclipse, handles := y.handles, ctx := c, stepNo := x.stepNo }
    let s := (s.showSlot p).updPart p fun y => { y with ctx := 0, stepNo := 0 }
    let s := (s.setF Reg.JOB_LOAD_STAT_LOADED p 0 0).setF Reg.JOB_SERIAL_SERIAL p 0 0
    let s := (s.countQueues.syncRights).beginEclipse p keys
    match x.image.manifest with
    | some m => m.gates.foldl (fun s e => s.idleGate m e.gate) s
    | none => s

/-- UNLOAD (R80): refused while a command of the context is queued or running. -/
def execUnload (p : PartIx) (s : State) : Res :=
  let k : Nat := p.val
  .next (s.cxlIo fun s =>
    if (s.part k).busy ≠ .idle then s.setF Reg.JOB_LOAD_STAT_OVERRUN k 0 1
    else if !(s.part k).loaded then s.loadEnd k 0 0 0
    else if s.ctxBusy (s.part k).ctx then s.loadEnd k 0x0921 0xFF 0
    else ((((s.release k).endSends k 0x0603).floodCarve k).setF Reg.JOB_LOAD_STAT_BUSY k 0 1).updPart k fun x => { x with busy := .unload })

/-- The clusters of a partition with no image go DARK while DARK_UNBOUND is 1; those of a gate partition do not
(18_power_clocks_and_reset.md R433). -/
def State.darkUnbound (s : State) (p : Nat) : State :=
  if s.get Reg.CLUSTER_CTRL_DARK_UNBOUND = 1 && !(s.part p).loaded && !(s.part p).eclipse && (s.part p).busy = .idle &&
      !s.isGate p && s.get Reg.FRAME_LOAD_STAT_BUSY = 0 then
    s.darken ((s.partClusters p).filter fun c => s.cluster c ≠ 3 && !s.pilot.passing.contains c)
  else s

/-- An UNLOAD or a partition reset ends once its Eclipse has ended and Floodlight has initialised its carve (R80;
13_tenants_and_joint_training.md R315; 18_power_clocks_and_reset.md R441). -/
def State.finishPart (s : State) (k : Nat) : State :=
  if (s.part k).eclipse || s.flooding k then s
  else match (s.part k).busy with
    | .unload => ((s.loadEnd k 0 0 0).updPart k fun x => { x with busy := .idle }).darkUnbound k
    | .reset => ((s.setF Reg.JOB_LOAD_STAT_BUSY k 0 0).updPart k fun x => { x with busy := .idle }).darkUnbound k
    | _ => s.darkUnbound k

/-- ECLIPSE_COMPLETE (R314): every tile and Prism instance has confirmed. -/
def execEclipseComplete (p : PartIx) (cycles : BitVec 16) (s : State) : Res :=
  let k : Nat := p.val
  .next (
    if !(s.part k).eclipse then s
    else
      let s := (((s.updPart k fun x => { x with eclipse := false }).addF Reg.ECLIPSE_COUNT_COUNT 0 0 1).set
        Reg.ECLIPSE_LAST_CYCLES cycles.toNat).set Reg.ECLIPSE_LAST_PART k
      (s.loadGateProgram k).finishPart k)

/-! ## Partition and tile resets (18_power_clocks_and_reset.md R441; 15_shared_objects_and_submission.md R376) -/

/-- The reset of one partition. A gate partition abandons its gate's step. -/
def State.resetPart (s : State) (p : Nat) : State :=
  match s.rect p with
  | none => s
  | some _ =>
    let s := match s.frame.gates.find? fun g => g.2 = p with
      | some (g, _) => match s.gateManifest g with
        | some m => if 2 ≤ s.gateState g then s.abandonGate m g 0x060A none else s
        | none => s
      | none => s
    let s := if (s.part p).loaded then ((s.stopWork p 0x0801 none).release p).endSends p 0x0801 else s.beginEclipse p []
    let s := s.updPart p fun x => { Part.empty with eclipse := x.eclipse, busy := if s.isGate p then .idle else .reset }
    let s := s.resetPartRegs p
    if s.isGate p then s else (s.floodCarve p).setF Reg.JOB_LOAD_STAT_BUSY p 0 1

/-- PART_RESET (R441): every partition of the mask that the frame defines; ignored during a frame load. -/
def execPartReset (mask : BitVec 32) (s : State) : Res :=
  .next (s.cxlIo fun s =>
    if s.get Reg.FRAME_LOAD_STAT_BUSY = 1 then s else (bitList 32 mask.toNat).foldl State.resetPart s)

/-- TILE_RESET (R441): a tile that debug access may reach, halted with CAUSE 1, 3, 4 or 5, begins again at its ENTRY. The unit
commands that a debug halt left running end with it, and what they have written stays. -/
def execTileReset (index : BitVec 11) (s : State) : Res :=
  let t : Nat := index.toNat
  .next (s.cxlIo fun s =>
    let s := s.set Reg.TILE_RESET_INDEX t
    if 1536 ≤ t then s
    else
      let x := s.tile t
      if s.pilot.debugTile && x.halted && (x.cause = 1 || x.cause = 3 || x.cause = 4 || x.cause = 5) then
        let s := if x.anyRunning then s.stopUnits t else s
        let x := s.tile t
        s.setTile t { Tile.reset with
          scratch := x.scratch, acc := x.acc, imem := x.imem, latch := x.latch, rx := x.rx, ry := x.ry, ctx := x.ctx, entry := x.entry,
          pc := x.entry, coded := x.coded, halted := !x.coded, accKib := x.accKib, tileStep := x.tileStep,
          eps := x.eps.map fun e => (e.1, { e.2 with
            queue := [], credits := if e.2.kind = .msg || e.2.kind = .hub then 4 else e.2.credits }) }
      else s.updTile t fun x => { x with dbgDenied := true })

/-! ## Frame loads (R81, R82) -/

/-- A controller's share of a partition's carve: HBM_GIB, or LPDDR_GIB for each of its four quarters. -/
def FrameImage.shareOf (f : FrameImage) (p c : Nat) : Nat :=
  match f.carve.find? fun x => x.part = p with
  | some v => if c < 8 then v.hbm.getD c 0 else v.lpddr
  | none => 0

/-- The registers that show a frame (R84, R85; 13_tenants_and_joint_training.md R333; 16_reliability_and_integrity.md R405),
and the modes of the ports (R58). -/
def State.showFrame (s : State) (f : FrameImage) (start : Bool) : State :=
  let s := (List.range 32).foldl (fun s p =>
    let r := (f.parts.find? fun r => r.part = p).getD ⟨p, 0, 0, 0, 0⟩
    let g := f.gates.find? fun g => g.2 = p
    ((((((s.setF Reg.PART_CFG_DEFINED p 0 (if f.parts.any fun r => r.part = p then 1 else 0)).setF Reg.PART_CFG_GATE p 0
      (if g.isSome then 1 else 0)).setF Reg.PART_CFG_CX0 p 0 r.cx0).setF Reg.PART_CFG_CX1 p 0 r.cx1).setF
      Reg.PART_CFG_CY0 p 0 r.cy0).setF Reg.PART_CFG_CY1 p 0 r.cy1).setF Reg.PART_CFG_GATE_ID p 0 ((g.map (·.1)).getD 0)) s
  let s := (List.range 16).foldl (fun s g =>
    s.setF Reg.GATE_g_STAT_PLACED g 0 (if f.gates.any fun e => e.1 = g then 1 else 0)) s
  let s := (List.range 16).foldl (fun s q => s.setPortMode q (f.portModes.getD q 0)) s
  (((((s.set Reg.FRAME_SERIAL_SERIAL f.serial).set Reg.FRAME_LOAD_STAT_START_DEFAULT (if start then 1 else 0)).set
    Reg.PRISM_CFG_PROFILE (if f.profileK then 1 else 0)).set Reg.SCRUB_CTRL_GLIMMER_EN (if f.glimmerEn then 1 else 0)).set
    Reg.SCRUB_CTRL_FLOOD_RATE f.floodRate)

/-- Peers that a new policy does not accept are drained (R81; 10_links_and_collectives.md R250, R251). -/
def State.drainPeers (s : State) (f : FrameImage) : State :=
  ((List.range 256).filter fun n => s.peerState n = 2 && !f.admits (s.session n).ident).foldl
    (fun s n => (s.sendLeave n).depart n) s

/-- The set-ups that are past admission and whose identity the frame no longer admits end, and their peers drain (R251, R252). LEAVE goes
out where the keys of one have been derived (log 138). -/
def State.drainSetups (s : State) (f : FrameImage) : State :=
  (List.range 16).foldl (fun s p =>
    let u := (s.port p).setup
    match u.hello, u.entry with
    | some (key, _), some n =>
      if f.admits key then s
      else
        let s := if u.keys.isSome then s.sendSealed p 1 0 (fit 1024 (ctlMsg 0x05 [])) [] else s
        let s := (s.setPeerState n 3).updSession n fun _ => { Session.empty with ident := key }
        (s.endSetup p).setPortState p 2
    | _, _ => s) s

/-- A frame comes into force in place of another (R81 steps 1 to 4): Floodlight initialises every share of a carve that changes,
and the others keep their contents. Clusters that it uses and that were DARK stay so until they have woken. -/
def State.changeFrame (s : State) (f : FrameImage) : State :=
  let old := s.frame
  let changed (p : Nat) : List Nat := (List.range 12).filter fun c => old.shareOf p c ≠ f.shareOf p c
  let s := (List.range 32).foldl (fun s p => s.initShares (p + 1) (changed p)) s
  let s := old.parts.foldl (fun s r => if (s.part r.part).loaded then s.release r.part else s.beginEclipse r.part []) s
  let s := { s with frame := f }
  let s := s.showFrame f false
  let s := s.startFlood 32 ((List.range 12).filter fun c => (List.range 32).any fun p => (changed p).contains c)
  let s := s.darken ((List.range 96).filter fun c => s.cluster c ≠ 3 && (s.partOfCluster c).isNone && !s.pilot.passing.contains c)
  (s.drainPeers f).drainSetups f

/-- The end of a frame load: BUSY 0, DONE 1 and its result (R81, R84). -/
def State.frameEnd (s : State) (code sect entry : Nat) : State :=
  ((((s.set Reg.FRAME_LOAD_STAT_BUSY 0).set Reg.FRAME_LOAD_STAT_DONE 1).set Reg.FRAME_LOAD_STAT_CODE code).set
    Reg.FRAME_LOAD_STAT_SECTION sect).set Reg.FRAME_LOAD_STAT_ENTRY entry

/-- Is a key the one that signs frames (R56; 19_lifecycle_firmware_debug.md R452)? -/
def State.isOperator (s : State) (k : Bytes) : Bool := s.pilot.flash.operator = some k

/-- The start frame is stored, unless its area has reached its wear limit (R82; 19_lifecycle_firmware_debug.md R462). -/
def State.storeFrame (s : State) (b : Bytes) (pending : Bool) : State :=
  if s.worn 12 then s.atWearLimit
  else (((s.eraseArea 12 (ceilDiv b.length 4096)).updFlash fun f => { f with startFrame := some b }).set
    Reg.FRAME_LOAD_STAT_START_PENDING (if pending then 1 else 0))

/-- FRAME_LOAD (R77, R81, R82): a frame that is refused ends the load; an accepted one is applied, or only stored when it
changes STEWARD_GIB or PROFILE. -/
def execFrameLoad (persist : Bool) (s : State) : Res :=
  .next (s.cxlIo fun s =>
    let s := s.set Reg.FRAME_LOAD_CTRL_PERSIST (if persist then 1 else 0)
    if s.get Reg.FRAME_LOAD_STAT_BUSY = 1 then s.set Reg.FRAME_LOAD_STAT_OVERRUN 1
    else match s.readImage (64 * s.get Reg.FRAME_LOAD_ADDR_ADDR) with
      | (s, .error e) => s.frameEnd e 0xFF 0
      | (s, .ok b) =>
        let idle : Bool := (List.range 32).all fun p =>
          (s.part p).busy = .idle && !((s.part p).loaded && s.ctxBusy (s.part p).ctx)
        let err := match s.checkContainer b 1 s.isOperator with
          | some e => some e
          | none => s.checkFrame b { boot := false, persist := persist, idle := idle, worn := s.worn 12 }
        match err with
        | some e => s.frameEnd e.code e.sect e.entry
        | none =>
          let f := frameOf b
          let late : Bool := (s.frameChanges f).1 || (s.frameChanges f).2
          let s := s.set Reg.FRAME_LOAD_STAT_BUSY 1
          let s := if persist then s.storeFrame b late else s
          if late then s else s.changeFrame f)

/-- FRAME_LOAD_COMPLETE (R81): Eclipses, wakes, initialisation and the store have ended. -/
def execFrameLoadComplete (s : State) : Res :=
  .next (
    if s.get Reg.FRAME_LOAD_STAT_BUSY = 0 || s.flooding 32 || (List.range 32).any fun p => (s.part p).eclipse then s
    else
      let s := s.wake ((s.frame.parts.flatMap PartRect.clusters).filter fun c => s.cluster c = 3)
      let s := s.frame.gates.foldl (fun s g => s.loadGateProgram g.2) s
      (List.range 32).foldl (fun s p => s.darkUnbound p) (s.frameEnd 0 0 0))

end Sys2Proof.Machine
end

