-- ==== Sys2Proof/Machine/Vector.lean ====
section
/-!
DEFINITION. The start and the completion of vector commands (07_vector_engine.md R170; 04_tile_core.md R99 to R101). What a
command computes stands in VecCalc.
-/

namespace Sys2Proof.Machine

/-- VECTOR_COMMAND_START (07_vector_engine.md R170; 04_tile_core.md R101; 06_accumulation_and_numerics.md R169): the
oldest VXI starts when none runs and no MXI issued before it and not done overlaps an accumulator range it reads. When
it may not start, nothing changes (log 12). -/
def execVectorCommandStart (t : TileIx) (s : State) : Res :=
  let x := s.tile t
  .next (match x.vecQ.head? with
    | none => s
    | some c =>
      let d := c.desc
      let before (q : UCmd) : Bool := match c.after with
        | some a => (a - q.seq).toNat < 2 ^ 31
        | none => false
      let held := x.cubeQ.any fun q => before q &&
        (vAccRanges d).any fun r => !disjoint r.1 r.2 (accRange q.desc).1 (accRange q.desc).2
      let draws := dw d 0 25 24 = 2 || (match vOp (dw d 0 7 0) with
        | some (_, _, _, .n) => true
        | _ => false)
      if s.active t && c.phase = .queued && !held then
        s.startUnit t .vector c (dw d 0 27 26) (if draws then ceilDiv (dw d 0 21 8) 4 else 0)
      else s)

/-- VECTOR_COMMAND_DONE (04_tile_core.md R100; 06_accumulation_and_numerics.md R164, R165): the running VXI has its outputs
and flags complete. With `ue` it meets an uncorrectable error of a tile array (16_reliability_and_integrity.md R395).
Before its inputs have arrived, or its stream has taken its output, it cannot complete, and nothing changes
(logs 12, 16). -/
def execVectorCommandDone (t : TileIx) (ue : Bool) (s : State) : Res :=
  let x := s.tile t
  .next (match x.vecQ.head? with
    | none => s
    | some c =>
      let d := c.desc
      if c.phase = .sending then s.closeSent t .vector c
      else if c.phase ≠ .running || !x.inputsReady .vector c then s
      else if ue then s.tileUe t (if (vAccRanges d).isEmpty then 0 else 3) 0
      else
        let (y, strm, sat, nan) := vecFinish x c
        (s.setTile t y).endUnit t .vector c strm (db d 0 30) sat nan)

end Sys2Proof.Machine
end

