-- ==== Sys2Proof/Machine/Mover.lean ====
section
/-!
DEFINITION. The mover (04_tile_core.md R100, R105, R106). A command's transfers are performed when it is done (log 15), line
by line over the memory network (02_fabric.md R46, R48, R469).
-/

namespace Sys2Proof.Machine

/-- MOVER_COMMAND_START (04_tile_core.md R106): the oldest queued MVI starts when fewer than 4 are in progress and, with
ORD, when every earlier one is done. When it may not start, nothing changes (log 12). -/
def execMoverCommandStart (t : TileIx) (s : State) : Res :=
  let x := s.tile t
  .next (match x.movQ.find? fun c => c.phase = .queued with
    | none => s
    | some c =>
      let running := (x.movQ.filter fun e => e.phase.live).length
      let earlierDone := (x.movQ.takeWhile fun e => e.seq ≠ c.seq).all fun e => e.phase = .finished
      if s.active t && running < 4 && (!db c.desc 0 3 || earlierDone) then s.startUnit t .mover c 0 0 else s)

/-- Does a mover command read or write memory (04_tile_core.md R105)? -/
def mviMem (d : List Word) : Bool := dw d 0 2 0 = 0 || dw d 0 2 0 = 1 || dw d 0 2 0 = 5

/-- Do two mover commands touch one line of memory, one of them writing it (04_tile_core.md R106)? -/
def mviConflict (a b : List Word) : Bool :=
  mviMem a && mviMem b && (dw a 0 2 0 = 1 || dw b 0 2 0 = 1) &&
    (mviLines a).any fun x => (mviLines b).any fun y => x.1 = y.1

/-- Does a migration hold a line the command names, at the region the step's weight set redirects it to
(08_training_dataflow.md R202; 11_memory_tiers_and_weights.md R268)? -/
def State.mviHeld (s : State) (p : Nat) (d : List Word) : Bool :=
  !(s.part p).migrating.isEmpty && mviMem d && (mviLines d).any fun q =>
    match findRegion (s.part p).image.plan (s.keyOf q.1) (q.1 % 2 ^ 52) with
    | some x =>
      (s.part p).migrating.contains (match (s.part p).uses.find? fun u => u.1 = x.region with
        | some u => u.2
        | none => x.region)
    | none => false

/-- What befalls the requests of a mover command on the memory network: a parity error or a discard at the boundary meets its
`line`-th line (02_fabric.md R46, R48). -/
structure MviFault where
  line : Nat
  fault : NetFault
  deriving DecidableEq, Repr

/-- The code with which a line of a mover command fails on its way (02_fabric.md R46, R48). -/
def MviFault.code (f : MviFault) (i : Nat) : Option Nat :=
  if f.line ≠ i then none
  else match f.fault with
    | .none => none
    | .parity => some 0x0303
    | .boundary => some 0x0301

/-- The progress of a mover command along its lines: what it has read in order, what it has read past a line that failed, how many
lines it has moved, and the code of the first failure. -/
structure MviRun where
  s : State
  got : List (Nat × Bytes)
  late : List (Nat × Bytes)
  moved : Nat
  err : Option Nat

/-- One line is read, or written from the scratchpad. -/
def State.mviLine (s : State) (t p : Nat) (c : UCmd) (q : Nat × Nat) : State × Except Nat (List (Nat × Bytes)) :=
  if dw c.desc 0 2 0 = 1 then
    match s.tileWrite t p q.1 ((s.tile t).inBytes c q.2 64) with
    | (s, some e) => (s, .error e)
    | (s, none) => (s, .ok [])
  else
    match s.tileRead t p q.1 with
    | (s, .error e) => (s, .error e)
    | (s, .ok b) => (s, .ok [(q.2, b)])

/-- The lines before one that fails complete. Whether a later one, which may be in the network already, completes is free
(04_tile_core.md R106; 11_memory_tiers_and_weights.md R265; log 1). -/
def MviRun.line (r : MviRun) (t p : Nat) (c : UCmd) (f : MviFault) (q : (Nat × Nat) × Nat) : MviRun :=
  match r.err with
  | none =>
    match f.code q.2 with
    | some e => { r with err := some e }
    | none =>
      match r.s.mviLine t p c q.1 with
      | (s, .error e) => { r with s := s, err := some e }
      | (s, .ok l) => { r with s := s, got := r.got ++ l, moved := r.moved + 1 }
  | some _ =>
    if r.s.free 2 = 0 then { r with s := r.s.tick }
    else match r.s.tick.mviLine t p c q.1 with
      | (s, .error _) => { r with s := s }
      | (s, .ok l) => { r with s := s, late := r.late ++ l, moved := r.moved + 1 }

/-- The memory transfers of a mover command, counted as lines moved over the memory network (02_fabric.md R51). -/
def State.mviTransfer (s : State) (t p : Nat) (c : UCmd) (f : MviFault) : MviRun :=
  let r0 : MviRun := { s := s, got := [], late := [], moved := 0, err := none }
  let r := (mviLines c.desc).zipIdx.foldl (fun (r : MviRun) q => r.line t p c f q) r0
  { r with s := r.s.countPart t Reg.PART_MEM_LINES r.moved }

/-- A mover command fails. It never completes: a line refused by the hub or by memory raises a tile exception with its code
(04_tile_core.md R105), a failed path, a parity error or a discard stops the context (02_fabric.md R46, R48). -/
def State.mviFail (s : State) (t p : Nat) (c : UCmd) (code : Nat) : State :=
  let s := s.updTile t fun x => { x with movQ := setPhase x.movQ c.seq .lost }
  if code = 0x0301 then s.boundaryError p
  else if code = 0x0303 then s.fabricError p Reg.FAB_ERR_STAT_MEM_PAR 0x0303
  else if code = 0x0304 then s.stopReport p 0x0304 none
  else s.tileExc t code

/-- Write what a mover command gives to the scratchpad. -/
def State.mviOut (s : State) (t : Nat) (c : UCmd) (l : List (Nat × Bytes)) : State :=
  s.updTile t fun x => l.foldl (fun x q => x.outBytes .mover c q.1 q.2) x

/-- The transfers of a mover command that is not a no-op (04_tile_core.md R105). -/
def State.mviRun (s : State) (t p : Nat) (c : UCmd) (f : MviFault) : State :=
  let d := c.desc
  let last := db d 0 4
  match dw d 0 2 0 with
  | 0 =>
    let r := s.mviTransfer t p c f
    let s := r.s.mviOut t c (r.got ++ r.late)
    match r.err with
    | some e => s.mviFail t p c e
    | none => s.closeUnit t .mover c false false
  | 1 =>
    let r := s.mviTransfer t p c f
    match r.err with
    | some e => r.s.mviFail t p c e
    | none => r.s.closeUnit t .mover c false false
  | 3 =>
    s.endUnit t .mover c ((mviRows d).flatMap fun r => (s.tile t).inBytes c r.1 r.2) last false false
  | 5 =>
    let r := s.mviTransfer t p c f
    let b := r.got.flatMap (·.2)
    match r.err with
    | some e => (r.s.present t p (dw d 2 47 42) .mover c (toFlits b false) false false).mviFail t p c e
    | none => r.s.endUnit t .mover c b last false false
  | _ =>
    ((s.mviOut t c (s.mviWrites t c)).updTile t fun x => x.freeRings .mover c).closeUnit t .mover c false false

/-- MOVER_COMMAND_DONE (04_tile_core.md R100, R105, R106): the `slot`-th of the MVIs in progress, oldest first, has its
transfers and acknowledgements complete, unless a fault of the memory network meets one of its lines. With `ue` it
meets an uncorrectable error of the scratchpad (16_reliability_and_integrity.md R395). While its bytes have not arrived, a
migration holds it, an earlier command must reach a line first, or its stream has not taken its output, it cannot
complete, and nothing changes (logs 12, 16). -/
def execMoverCommandDone (t : TileIx) (slot : Fin 4) (event : MoverEvent) (s : State) : Res :=
  let x := s.tile t
  let live := x.movQ.filter fun c => c.phase.live
  .next (match live[slot.val]?, s.partOf t with
    | some c, some p =>
      let d := c.desc
      let ordered := (live.take slot.val).all fun e => e.phase ≠ .running || !mviConflict e.desc d
      if c.phase = .sending then s.closeSent t .mover c
      else if c.phase ≠ .running then s
      else if isNoop .mover d then s.closeUnit t .mover c false false
      else if !x.inputsReady .mover c || !ordered || s.mviHeld p d then s
      else if event.ue then s.tileUe t 0 (dw d 2 20 0)
      else s.mviRun t p c { line := event.line, fault := event.fault }
    | _, _ => s)

end Sys2Proof.Machine
end

