-- ==== Sys2Proof/Machine/Prism.lean ====
section
/-!
DEFINITION. Accesses to single lines by any master, the debug access port, the Steward's CXL.mem requests, the scrubbers
and the counters of Prism and of the memory controllers (12_prism_memory_protection.md R286, R292, R293, R304, R305, R307;
14_host_attach.md R337, R340; 16_reliability_and_integrity.md R388 to R406).
-/

namespace Sys2Proof.Machine

/-! ## One access (12_prism_memory_protection.md R304; 16_reliability_and_integrity.md R393, R398) -/

/-- An uncorrectable error in a key-table entry of a tenant key erases its keys (16_reliability_and_integrity.md R398). -/
def State.loseKey (s : State) (k : Nat) : State :=
  let s := s.countSram 6
  if (s.keyEntry k).state = .valid then
    ((s.updKey k fun e => { e with state := .reserved, material := 0 }).flushKeys [k]).syncRights
  else s

/-- Is an address one of the system structures under key ID 0 (16_reliability_and_integrity.md R393)? -/
def State.isSystem (s : State) (m space a : Nat) : Bool :=
  32 ≤ m && space = 0 && s.keyOf a = 0 && s.stewardBytes ≤ a % 2 ^ 52

/-- One access of a master to the line at an address: the checks of R304, what befalls it, and what it does once it has
passed; the second component is the outcome, and none when the access made the Pilot island restart the hub. -/
def State.access (s : State) (m space : Nat) (wr : Bool) (a : Nat) (fault : LineFault)
    (f : Gate → State → State × Except Nat Bytes) : State × Option (Except Nat Bytes) :=
  let k := s.keyOf a
  if fault = .keyTable && k = 0 then (s.hubReset 6, none)
  else if fault = .system true && s.isSystem m space a then (s.hubReset 5, none)
  else
    let s := if fault = .keyTable then s.loseKey k else s
    match s.gate m space (s.part m).uses wr a with
    | .error e => (s.noteGate m e a, some (.error e))
    | .ok g =>
      let s := if fault = .keyTable then s else s.strike g.ctrl g.place fault
      let r := f g (s.touchKey g.ctrl g.keyId)
      (r.1, some r.2)

/-- The code of a write's refusal as an outcome. -/
def writeOutcome (r : State × Option Nat) : State × Except Nat Bytes :=
  match r with
  | (s, some e) => (s, .error e)
  | (s, none) => (s, .ok [])

/-- The line's plaintext. -/
def State.readAccess (s : State) (m space a : Nat) (fault : LineFault) : State × Option (Except Nat Bytes) :=
  s.access m space false a fault fun g s => s.readLine m g.ctrl a (g.place / 64) g.key

/-- A whole line is written. -/
def State.writeAccess (s : State) (m space a : Nat) (b : Bytes) (fault : LineFault) : State × Option (Except Nat Bytes) :=
  s.access m space true a fault fun g s => writeOutcome (s.writeLine m g.ctrl a (g.place / 64) g.keyId g.key b)

/-- The bytes of a line that a mask names are written, as one read-modify-write (12_prism_memory_protection.md R293). -/
def State.mergeAccess (s : State) (m space a : Nat) (mask : Nat) (b : Bytes) (fault : LineFault) :
    State × Option (Except Nat Bytes) :=
  s.access m space true a fault fun g s =>
    match (s.prismCount Reg.PRISM_n_PARTIAL_COUNT g.ctrl 1).readLine m g.ctrl a (g.place / 64) g.key with
    | (s, .error e) => (s, .error e)
    | (s, .ok old) =>
      let new := (List.range 64).map fun i => if bit mask i then b.getD i 0 else old.getD i 0
      writeOutcome (s.writeLine m g.ctrl a (g.place / 64) g.keyId g.key new)

/-- What the requester gets. -/
def readerGets (r : State × Option (Except Nat Bytes)) : State :=
  match r with
  | (s, none) => s
  | (s, some (.error e)) => s.emit (.refused e)
  | (s, some (.ok b)) => s.emit (.line b)

/-- What a writer gets. -/
def writerGets (r : State × Option (Except Nat Bytes)) : State :=
  match r with
  | (s, some (.error e)) => s.emit (.refused e)
  | (s, _) => s

/-- Does RAW_READ decide a read: the master has it and its read map does not cover the key ID
(12_prism_memory_protection.md R303, R305)? -/
def State.rawReads (s : State) (m a : Nat) : Bool := (s.rightsOf m).rawRead && !bit (s.rightsOf m).read (s.keyOf a)

/-- Does an event end a read with 0x0201: an uncorrectable error in the line or in its tags (16_reliability_and_integrity.md
R389)? -/
def eccFault : LineFault → Bool
  | .ue _ => true
  | .tagUe => true
  | _ => false

/-- Does a raw read meet an event: one of the stored line and its tag, for it uses no counter (12_prism_memory_protection.md R305)? -/
def rawFault : LineFault → Bool
  | .ce _ _ => true
  | .ceMeta area _ _ _ => area = 0
  | .ue _ => true
  | .tagUe => true
  | .altered => true
  | _ => false

/-- A raw read: the stored ciphertext and tag, past ECC but with no tag checked (12_prism_memory_protection.md R305). An uncorrectable
error ends it with 0x0201 (16_reliability_and_integrity.md R389). -/
def State.rawAccess (s : State) (m space a : Nat) (fault : LineFault) : State :=
  match s.gate m space [] false a with
  | .error e => (s.noteGate m e a).emit (.refused e)
  | .ok g =>
    let s := s.strike g.ctrl g.place (if rawFault fault then fault else .none)
    if eccFault fault then s.emit (.refused 0x0201)
    else
      let l := s.line (g.place / 64)
      let s := if l.ce = 0 then s else s.countCe g.ctrl (g.place / 64) ((l.ce - 1) / 72) ((l.ce - 1) % 72)
      let d := s.storedLine (g.place / 64)
      s.tick.emit (.raw d.1 d.2)

/-- PRISM_LINE_READ (12_prism_memory_protection.md R286, R304, R305). -/
def execPrismLineRead (m : Fin 36) (space : Fin 33) (addr : Word) (fault : LineFault) (s : State) : Res :=
  let a : Nat := addr.toNat / 64 * 64
  .next (if s.rawReads m.val a then s.rawAccess m.val space.val a fault
    else readerGets (s.readAccess m.val space.val a fault))

/-- PRISM_LINE_WRITE (12_prism_memory_protection.md R292, R304). -/
def execPrismLineWrite (m : Fin 36) (space : Fin 33) (addr : Word) (data : List Byte) (fault : LineFault) (s : State) : Res :=
  .next (writerGets (s.writeAccess m.val space.val (addr.toNat / 64 * 64) (fit 64 data) fault))

/-- The mask of bytes `off` to `off + n - 1` of a line. -/
def maskOf (off n : Nat) : Nat := ofBits 64 fun i => off ≤ i && i < off + n

/-- A write of bytes within one line. -/
def State.partAccess (s : State) (m space a : Nat) (b : Bytes) (fault : LineFault) : State × Option (Except Nat Bytes) :=
  s.mergeAccess m space a (maskOf (a % 64) b.length) (zeros (a % 64) ++ b) fault

/-- PRISM_PARTIAL_WRITE (12_prism_memory_protection.md R293): only the hub DMA, the Steward die and the debug access port
issue such writes; bytes past the line's end are another line's write. -/
def execPrismPartialWrite (m : Fin 36) (space : Fin 33) (addr : Word) (data : List Byte) (fault : LineFault) (s : State) : Res :=
  let a : Nat := addr.toNat
  .next (
    if m.val = 32 || m.val = 34 || m.val = 35 then
      writerGets (s.partAccess m.val space.val a (data.take (64 - a % 64)) fault)
    else s)

/-- DEBUG_ACCESS_PORT_ACCESS (12_prism_memory_protection.md R302, R305; 19_lifecycle_firmware_debug.md R465). -/
def execDebugAccessPortAccess (write : Bool) (space : Fin 33) (addr : Word) (data : DebugData) (s : State) : Res :=
  let a : Nat := addr.toNat
  .next (
    if write then
      if data.bytes.length = 64 && a % 64 = 0 then writerGets (s.writeAccess 35 space.val a data.bytes data.fault)
      else writerGets (s.partAccess 35 space.val a (data.bytes.take (64 - a % 64)) data.fault)
    else if s.rawReads 35 a then s.rawAccess 35 space.val (a / 64 * 64) data.fault
    else readerGets (s.readAccess 35 space.val (a / 64 * 64) data.fault))

/-! ## CXL.mem (14_host_attach.md R337, R340) -/

/-- The device logical address of a host physical address, if it lies in the window (14_host_attach.md R337). -/
def State.hdm (s : State) (hpa : Nat) : Option Nat :=
  if 2 ^ 38 ≤ hpa && hpa < 2 ^ 38 + s.stewardBytes then some (hpa - 2 ^ 38) else none

/-- Does the hub serve CXL.mem: the Steward's cores run (14_host_attach.md R345, R346; 18_power_clocks_and_reset.md R445)? -/
def State.memServed (s : State) : Bool := s.get Reg.STEWARD_STAT_STATE = 2 && s.get Reg.CLK_STAT_HCLK_LOCK = 1

/-- The completion of a Steward access (14_host_attach.md R340). -/
def stewardGets (r : State × Option (Except Nat Bytes)) (wr : Bool) : State :=
  match r with
  | (s, none) => s
  | (s, some (.error e)) =>
    let s := s.set Reg.STEWARD_STAT_LAST_ERR e
    s.emit (if wr then .memDone else .memData true (zeros 64))
  | (s, some (.ok b)) => s.emit (if wr then .memDone else .memData false b)

/-- MEMRD (14_host_attach.md R337, R338, R340): the Steward's system cache holds the line from then on, until the hub writes it or
the Steward is reset (log 131). -/
def execMemrd (hpa : Word) (fault : LineFault) (s : State) : Res :=
  .next (match s.memServed, s.hdm (hpa.toNat / 64 * 64) with
    | true, some a =>
      let r := s.readAccess 34 0 a fault
      match r.2 with
      | some (.ok _) => (stewardGets r false).cacheLine (a / 64)
      | _ => stewardGets r false
    | _, _ => s)

/-- MEMWR (14_host_attach.md R337, R340). -/
def execMemwr (hpa : Word) (data : List Byte) (fault : LineFault) (s : State) : Res :=
  .next (match s.memServed, s.hdm (hpa.toNat / 64 * 64) with
    | true, some a => stewardGets (s.writeAccess 34 0 a (fit 64 data) fault) true
    | _, _ => s)

/-- MEMWRPTL (14_host_attach.md R337, R340; 12_prism_memory_protection.md R293): the bytes that the mask names. -/
def execMemwrptl (hpa : Word) (mask : BitVec 64) (data : List Byte) (fault : LineFault) (s : State) : Res :=
  .next (match s.memServed, s.hdm (hpa.toNat / 64 * 64) with
    | true, some a => stewardGets (s.mergeAccess 34 0 a mask.toNat (fit 64 data) fault) true
    | _, _ => s)

/-! ## Scrubbers (16_reliability_and_integrity.md R389, R392, R394, R401 to R403) -/

/-- The lines that are poisoned after an event and were not before. -/
def newPoison (old new : State) : List (Nat × Nat) :=
  (new.mem.lines.filter fun e => e.2.poison ≠ 0 && (smapGet Line.fresh old.mem.lines e.1).poison = 0).map fun e =>
    (e.1, e.2.poison)

/-- A scrubber has poisoned lines: each code goes to the bound context of the carve and to a notice (R392). -/
def State.reportPoison (s : State) (l : List (Nat × Nat)) : State :=
  l.foldl (fun s x =>
    let p := x.1 / 2 ^ 58
    if p ≠ 0 && (s.part (p - 1)).loaded then
      (if (s.part (p - 1)).pendErr = 0 then s.pend (p - 1) x.2 else s).noteError x.2 (s.part (p - 1)).ctx 0x1FFF 0 0
    else s.noteError x.2 0 0x1FFF 0 0) s

/-- A scrub of the code words of a line: a correctable error is counted and written back, an uncorrectable one handled by its
area (R388, R389, R394, R401). -/
def State.scrub (s : State) (c place : Nat) (fault : LineFault) : State :=
  let ln := place / 64
  let s' := s.strike c place fault
  let l := s'.line ln
  let s' := if l.ce = 0 then s'
    else (s'.countCe c ln ((l.ce - 1) / 72) ((l.ce - 1) % 72)).updLine ln fun l => { l with ce := 0 }
  s'.reportPoison (newPoison s s')

/-- GLIMMER_SCRUB (R401): Glimmer runs while GLIMMER_EN is 1 and Floodlight does not work on the controller. The time of a lap
and the position in it are free (log 1). -/
def execGlimmerScrub (c : CtrlIx) (place : Nat) (fault : LineFault) (lapEnd : Bool) (s : State) : Res :=
  let k : Nat := c.val
  .next (
    if s.get Reg.SCRUB_CTRL_GLIMMER_EN = 0 || s.getF Reg.FLOOD_STAT_BUSY k 0 = 1 || s.placeCtrl place ≠ k || !storedFault fault then s
    else
      let s := ((s.scrub k place fault).setF Reg.MC_STAT_GLIMMER_ACTIVE k 0 1).setF Reg.GLIMMER_STAT_PROGRESS k 0
        (if lapEnd then 0 else s.free (2 ^ 10))
      (if lapEnd then s.setF Reg.GLIMMER_STAT_LAP_MS k 0 (s.free (2 ^ 32)) else s).tick)

/-- FLOOD_VERIFY (R402, R406): GO on the controllers of the mask. -/
def execFloodVerify (mask : BitVec 12) (s : State) : Res :=
  let l := bitList 12 mask.toNat
  .next (s.cxlIo fun s =>
    let s := s.set Reg.FLOOD_CMD_CTRL_MASK mask.toNat
    if mask = 0 || l.any fun c => s.getF Reg.FLOOD_STAT_BUSY c 0 = 1 || s.getF Reg.MC_STAT_FAILED c 0 = 1 then
      s.set Reg.FLOOD_CMD_OVERRUN 1
    else s.startFlood 34 l)

/-- The lines of a controller that hold a correctable error. -/
def State.erredLines (s : State) (c : Nat) : List Nat :=
  (s.mem.lines.filter fun e => e.2.ce ≠ 0 && s.home (e.1 / 64) = c).map (·.1)

/-- The INIT passes of a controller end, and what waited for the last of them goes on: an UNLOAD or a partition reset
(13_tenants_and_joint_training.md R315), or the ROTATE (12_prism_memory_protection.md R301). -/
def State.endInit (s : State) (c : Nat) : State :=
  let held := s.flooding 33
  let s := (s.updFloods fun l => l.filter fun x => x.1 ≠ c || x.2 = 34).showFlood c
  let s := (List.range 32).foldl (fun s p =>
    if (s.part p).busy = .unload || (s.part p).busy = .reset then s.finishPart p else s) s
  if held && !s.flooding 33 then (s.set Reg.KEY_STAT_BUSY 0).keyEnd 0 else s

/-- FLOODLIGHT_COMPLETE (R402): a pass has visited every code word of a controller; a VERIFY met what the command lists. INIT passes
end before a VERIFY (log 120). -/
def execFloodlightComplete (c : CtrlIx) (met : List (Nat × LineFault)) (s : State) : Res :=
  let k : Nat := c.val
  .next (
    if s.mem.floods.any fun x => x.1 = k && x.2 ≠ 34 then s.endInit k
    else if s.mem.floods.any fun x => x.1 = k then
      let s := (met.filter fun x => s.placeCtrl x.1 = k && storedFault x.2).foldl (fun s x => s.scrub k x.1 x.2) s
      let s := (s.erredLines k).foldl (fun s ln => s.scrub k (64 * ln) .none) s
      (s.updFloods fun l => l.filter fun x => x.1 ≠ k).showFlood k
    else s)

/-! ## Clearing counters (02_fabric.md R49; R307; R405; 09_parameter_update.md R230) -/

/-- PRISM_CNT_CLEAR (R307). -/
def execPrismCntClear (s : State) : Res := .next (s.cxlIo fun s => s.cntClear Reg.PRISM_CFG_CNT_CLEAR 0)

/-- SCRUB_CNT_CLEAR (R405, R406). -/
def execScrubCntClear (s : State) : Res := .next (s.cxlIo fun s => s.cntClear Reg.SCRUB_CTRL_CNT_CLEAR 0)

/-- GLINT_CNT_CLEAR (09_parameter_update.md R230). -/
def execGlintCntClear (c : CtrlIx) (s : State) : Res := .next (s.cxlIo fun s => s.cntClear Reg.GLINT_CTRL_CNT_CLEAR c.val)

/-- FAB_CNT_CLEAR (02_fabric.md R49, R50). -/
def execFabCntClear (s : State) : Res := .next (s.cxlIo fun s => s.cntClear Reg.FAB_CTRL_CNT_CLEAR 0)

/-- PART_CNT_CLEAR (02_fabric.md R49, R51). -/
def execPartCntClear (p : PartIx) (s : State) : Res := .next (s.cxlIo fun s => s.cntClear Reg.PART_FAB_CTRL_CNT_CLEAR p.val)

end Sys2Proof.Machine
end

