-- ==== Sys2Proof/Machine/Steward.lean ====
section
/-!
DEFINITION. The Steward die and its link as the hub sees them, the function-level reset, and the end of bring-up
(14_host_attach.md R335, R344 to R347; 18_power_clocks_and_reset.md R440 to R446).
-/

namespace Sys2Proof.Machine

/-! ## The Steward (14_host_attach.md R335, R345, R346) -/

/-- Hub firmware reads and checks the loader, writes its CODE at Steward region offset 0 and records measurement 5; the
cores start, or stay in reset with LOADER_BAD (R345). -/
def State.loadSteward (s : State) : State :=
  let f := s.pilot.flash
  let b := f.image 4
  if loaderFieldsOk b && loaderSigned f.operator b then
    ((s.hubWrite 0 (slice b 64 (rd b 8 4))).1.set Reg.STEWARD_STAT_STATE 2).updPilot fun p => { p with loaderDigest := loaderHash b }
  else (s.set Reg.STEWARD_STAT_STATE 4).updPilot fun p => { p with loaderDigest := zeros 64 }

/-- A Steward reset begins (R346): the cores and the system cache reset, its modified lines are discarded, and the link retrains.
One in progress goes on. -/
def State.resetSteward (s : State) : State :=
  if !s.hubUp || s.get Reg.STEWARD_STAT_STATE = 3 then s
  else (((({ s with hub := { s.hub with cached := [] } } : State).set Reg.STEWARD_STAT_STATE 3).addF Reg.STEWARD_STAT_RESETS 0 0 1).set Reg.UCIE_STAT_UP 0).addF
    Reg.UCIE_STAT_RETRAINS 0 0 1

/-- STEWARD_CTRL_RESET (R346). -/
def execStewardCtrlReset (s : State) : Res := .next (s.cxlIo State.resetSteward)

/-- STEWARD_RESET (18_power_clocks_and_reset.md R442): the response goes first. -/
def execStewardReset (req : Option (List Byte)) (s : State) : Res :=
  .next (s.vendor 0x03 req (fun b s => (s, noBody b, [])) fun _ s => s.resetSteward)

/-- STEWARD_RESTART (R346 steps 3 and 4): the link is active again on the modules that trained, some lanes repaired. -/
def execStewardRestart (modules : BitVec 4) (repaired : Byte) (s : State) : Res :=
  .next (
    if !s.hubUp || s.get Reg.STEWARD_STAT_STATE ≠ 3 || modules = 0 then s
    else (((s.set Reg.UCIE_STAT_MODULES modules.toNat).set Reg.UCIE_STAT_UP 1).addF Reg.UCIE_STAT_REPAIRS 0 0
      repaired.toNat).loadSteward)

/-- UCIE_MODULE_FAIL (R335): the module is disabled at a retrain; with no active module the hub resets the Steward. -/
def execUcieModuleFail (m : Fin 4) (s : State) : Res :=
  .next (
    let w := s.get Reg.UCIE_STAT_MODULES
    if !s.hubUp || !bit w m.val then s
    else
      let s := s.set Reg.UCIE_STAT_MODULES (clearBit w m.val)
      if clearBit w m.val = 0 then s.resetSteward else s.addF Reg.UCIE_STAT_RETRAINS 0 0 1)

/-! ## Function-level reset (R344, R347; 18_power_clocks_and_reset.md R440, R443) -/

/-- A configuration request: before READY_OUT it gets Configuration Request Retry Status (18_power_clocks_and_reset.md
R445). -/
def State.config (s : State) (f : State → State) : State :=
  if !s.readyOut then s.emit .retry else if s.hubUp then f s else s

/-- FUNCTION_LEVEL_RESET: a request that the Pilot island serves is finished there, and its response discarded (R347). -/
def execFunctionLevelReset (s : State) : Res :=
  .next (s.config fun s =>
    let s := s.resetRegs .func
    { s with hub := { s.hub with msix := [], pba := 0, msixOn := false, funcMask := false },
             pilot := { s.pilot with mbox := { Mailbox.reset with reqs := s.pilot.mbox.reqs.map fun r => (r.1, true) } } })

/-! ## The end of bring-up (18_power_clocks_and_reset.md R444, R446; 16_reliability_and_integrity.md R399, R400) -/

/-- The start key, the tree keys and the keys of the edge cipher are drawn (12_prism_memory_protection.md R288, R300;
02_fabric.md R43; log 1). -/
def State.drawStartKeys (s : State) : State :=
  let s := (s.updKey 0 fun e => { e with material := s.free (2 ^ 768) }).tick
  let s := (List.range 12).foldl (fun s c => { s with prism := { s.prism with
    treeKeys := smapSet 0 s.prism.treeKeys c (s.free (2 ^ 256)) } }.tick) s
  (List.range 16).foldl (fun s ed => s.drawEdgeKey ed) s

/-- The start frame (03_configuration_images.md R82): the stored one, or the built-in default with the code of the refusal. -/
def State.startFrame (s : State) : FrameImage × Bool × LoadErr :=
  match s.pilot.flash.startFrame with
  | none => (FrameImage.builtin, true, ⟨0, 0, 0⟩)
  | some b =>
    let err := match s.checkContainer b 1 s.isOperator with
      | some e => some e
      | none => s.checkFrame b { boot := true, persist := true, idle := true, worn := false }
    match err with
    | some e => (FrameImage.builtin, true, e)
    | none => (frameOf b, false, ⟨0, 0, 0⟩)

/-- BRING_UP_COMPLETE: bring-up stops at row 3 when hub firmware fails its check, or at another row that failed; else it ends with
what the self-tests of the HBM3E controllers and the clusters and the training of the UCIe modules have found. -/
def execBringUpComplete (failed : Fin 12) (hbm : BitVec 8) (clusters : BitVec 96) (modules : BitVec 4) (s : State) : Res :=
  .next (
    if s.pilot.boot ≠ .running then s
    else if s.hubFwBad || failed ≠ 0 then
      ((s.set Reg.GLOBAL_STAT_FAILED 1).set Reg.GLOBAL_STAT_STAGE (if s.hubFwBad then 3 else failed.val)).updPilot fun p => { p with boot := .failed }
    else
      let s := s.drawStartKeys
      let s := (List.range 8).foldl (fun s c => s.setF Reg.MC_STAT_FAILED c 0 (if hbm.getLsbD c then 1 else 0)) s
      let s := (List.range 4).foldl (fun s d =>
        s.setF Reg.CLUSTER_FAIL_d_FAILED d 0 (clusters.toNat / 2 ^ (24 * d) % 2 ^ 24)) s
      let (f, start, e) := s.startFrame
      let s := ({ s with frame := f }.showFrame f start).frameEnd e.code e.sect e.entry
      let s := s.wake ((f.parts.filter fun r => f.gates.any fun g => g.2 = r.part).flatMap PartRect.clusters)
      let s := f.gates.foldl (fun s g => s.loadGateProgram g.2) s
      let s := ((s.set Reg.UCIE_STAT_MODULES modules.toNat).set Reg.UCIE_STAT_UP (if modules = 0 then 0 else 1)).loadSteward
      let i := s.pilot.flash.image
      let s := ((s.set Reg.CAP_VERSION_PILOT_FW (rd (i 1) 8 2)).set Reg.CAP_VERSION_HUB_FW (rd (i 2) 8 2)).set
        Reg.CAP_VERSION_SEC_VERSION s.pilot.flash.secVersion
      let s := ((s.set Reg.GLOBAL_STAT_READY 1).set Reg.GLOBAL_STAT_STAGE 11).updPilot fun p => { p with boot := .ready }
      if modules = 0 then s.resetSteward else s)

end Sys2Proof.Machine
end

