-- ==== Sys2Proof/Machine/Registers.lean ====
section
/-!
DEFINITION. Registers as software reads and writes them: the access codes (00_scope.md R7 to R9, R12), the ranges that the
field tables name, the request buffer of the mailbox and the MSI-X table (14_host_attach.md R343, R344, R347).
-/

namespace Sys2Proof.Machine

/-- Writes of OP values that no command has (12_prism_memory_protection.md R307, 13_tenants_and_joint_training.md R333,
15_shared_objects_and_submission.md R382), of GO and UNLOAD together (03_configuration_images.md R85), of several controls of a
queue together (15_shared_objects_and_submission.md R384), and of DARK_UNBOUND
(18_power_clocks_and_reset.md R433). -/
def State.writeEffect (s : State) (off w : Nat) : State :=
  if off = Reg.KEY_CMD_OP.base then (if 5 ≤ bitsOf w 30 28 then s.keyIdle fun s => s.keyRefuse 0x0606 else s)
  else if off = Reg.OWNER_CMD_OP.base then (if 5 ≤ bitsOf w 13 11 then s.ownerRefuse 5 else s)
  else if off = Reg.OBJ_CMD_OP.base then (if 4 ≤ bitsOf w 2 0 then s.objEnd 0x0101 else s)
  else if off = Reg.CLUSTER_CTRL_DARK_UNBOUND.base then (List.range 32).foldl (fun s p => s.darkUnbound p) s
  else match Reg.JOB_LOAD_CTRL_GO.copyAt off with
    | some (p, _) => if w % 4 = 3 then s.setF Reg.JOB_LOAD_STAT_OVERRUN p 0 1 else s
    | none => match Reg.Q_CTRL_STOP.copyAt off with
      | some (q, _) => if popCount 3 w < 2 then s else s.qOverrun q
      | none => s

/-- A write of the MSI-X table (14_host_attach.md R343): 8 bytes of an entry, its address or its data and mask. -/
def State.writeMsix (s : State) (i : Nat) (high : Bool) (v : Word) : State :=
  let e := smapGet MsixEntry.reset s.hub.msix i
  let e := if high then { e with data := v.setWidth 32, masked := v.getLsbD 32 } else { e with addr := v }
  { s with hub := { s.hub with msix := smapSet MsixEntry.reset s.hub.msix i e } }.flushMsix

/-- REGISTER_WRITE (00_scope.md R7): every field of the register that has no row of its own acts under its access code, and so does a
CNT_CLEAR bit, which a write may set together with other fields (02_fabric.md R49; log 106); reserved offsets and bits are
ignored (R12). -/
def execRegisterWrite (target : RegTarget) (value : Word) (s : State) : Res :=
  let w : Nat := value.toNat
  .next (match target with
    | .msixControl => s.config fun s =>
      { s with hub := { s.hub with msixOn := bit w 15, funcMask := bit w 14 } }.flushMsix
    | .bar0 k =>
      let off : Nat := 8 * k.val
      s.cxlIo fun s =>
        if 0x30000 ≤ off && off < 0x38000 then s.writeMsix ((off - 0x30000) / 16) (off % 16 = 8) value
        else if 0x11000 ≤ off && off < 0x12000 then
          s.updMbox fun m => { m with reqBuf := smapWrite 0 m.reqBuf (off - 0x11000) (leBytes 8 w) }
        else match windowOf off with
          | some (t, o) => s.windowWrite t o value
          | none => ((s.clearWord off w).writeWord off w).writeEffect off w)

/-- What a read of 8 bytes of BAR0 returns, but for TILE_MEM_DATA, whose reads have a row: WO fields and reserved bits read as zero; the rights words
follow RIGHTS_SEL (12_prism_memory_protection.md R303, R307); the pending bits and the mailbox's buffers follow what they
show. -/
def State.readReg (s : State) (off : Nat) : Nat :=
  let m := s.get Reg.RIGHTS_SEL_MASTER
  let r := if m < 36 then s.rightsOf m else Rights.none
  let word := 2 ^ (64 * s.get Reg.RIGHTS_SEL_WORD)
  if off = Reg.RIGHTS_READ_MAP.base then r.read / word % 2 ^ 64
  else if off = Reg.RIGHTS_WRITE_MAP.base then r.write / word % 2 ^ 64
  else if off = Reg.RIGHTS_FLAGS_STEWARD_ONLY.base then (if r.stewardOnly then 1 else 0) + (if r.rawRead then 2 else 0)
  else if 0x30000 ≤ off && off < 0x38000 then
    let e := smapGet MsixEntry.reset s.hub.msix ((off - 0x30000) / 16)
    if off % 16 = 8 then e.data.toNat + (if e.masked then 2 ^ 32 else 0) else e.addr.toNat
  else if 0x38000 ≤ off && off < 0x38100 then s.hub.pba / 2 ^ (8 * (off - 0x38000)) % 2 ^ 64
  else if 0x11000 ≤ off && off < 0x12000 then leNat (smapRead 0 s.pilot.mbox.reqBuf (off - 0x11000) 8)
  else if 0x12000 ≤ off && off < 0x13000 then leNat (smapRead 0 s.pilot.mbox.rspBuf (off - 0x12000) 8)
  else if 0x28000 ≤ off && off < 0x2C000 && 8 ≤ off % 64 && off % 64 < 40 then
    let n := (off - 0x28000) / 64
    if s.peerState n = 0 then 0 else leNat (slice (fit 32 (s.session n).ident) (off % 64 - 8) 8)
  else if 0x1000000 ≤ off then
    match windowOf off with
    | some (t, o) => s.windowRead t o
    | none => 0
  else (regAt off).foldl (fun w x => if x.1.access = .wo then w else w + s.getF x.1 x.2.1 x.2.2 * 2 ^ x.1.lo) 0

/-- What a read of 8 bytes of BAR0 changes: a read of a tile window that R117 denies sets DBG_DENIED (04_tile_core.md R117). The
table has no row for the read of a register, so no command takes this step (log 128). -/
def State.noteRead (s : State) (off : Nat) : State :=
  match windowOf off with
  | some (t, o) =>
    if s.pilot.debugTile && windowGuarded o && !s.windowOpen t then s.updTile t fun x => { x with dbgDenied := true } else s
  | none => s

end Sys2Proof.Machine
end

