-- ==== Sys2Proof/Machine/Spdm.lean ====
section
/-!
DEFINITION. Attestation and the provisioning of owner keys (13_tenants_and_joint_training.md R316 to R320). A request over
MCTP on I3C is an operand; none stands for the oldest request in the mailbox. The contents of SPDM messages are those of
SPDM 1.3 (log 25).
-/

namespace Sys2Proof.Machine

/-! ## Connections (R318) -/

/-- An SPDM connection by its transport: 0 MCTP over I3C, 1 the mailbox. -/
def State.conn (s : State) (c : Nat) : SpdmConn := smapGet SpdmConn.empty s.ten.conns c

/-- Change a connection. -/
def State.updConn (s : State) (c : Nat) (f : SpdmConn → SpdmConn) : State :=
  { s with ten := { s.ten with conns := smapUpd SpdmConn.empty s.ten.conns c f } }

/-- The connection of a request. -/
def connOf (req : Option Bytes) : Nat := if req.isSome then 0 else 1

/-- How the Pilot island meets an SPDM request (R318; 18_power_clocks_and_reset.md R445, R446; 19_lifecycle_firmware_debug.md
R451, R452). -/
def State.meetSpdm (s : State) (i3c : Bool) : Meet :=
  match s.pilot.boot with
  | .ready => .serve
  | .noRef => if i3c then .serve else .silent
  | .failed | .parked | .recovery | .off => .silent
  | _ => if i3c then .nack else .silent

/-- Has the unit an identity: PROVISIONED, FIELD or RETURN (19_lifecycle_firmware_debug.md R452)? -/
def Flash.identity (f : Flash) : Bool := 2 ≤ f.lcState && f.lcState ≤ 4

/-- An SPDM request with a code: `f` answers it; without an identity every one gets ERROR (19_lifecycle_firmware_debug.md
R452). -/
def State.spdm (s : State) (req : Option Bytes) (code : Nat) (f : Bytes → State → State) : State :=
  match s.request req with
  | none => s
  | some b =>
    if rd b 0 1 ≠ 5 || rd b 2 1 ≠ code then s
    else match s.meetSpdm req.isSome with
      | .silent | .refuse => s
      | .nack => s.emit .nack
      | .serve => if s.pilot.flash.identity then f (b.drop 1) s else s.respond req (5 :: Config.spdmError (b.drop 1))

/-- The answer to an SPDM request from the connection's messages, the chain, the measurements and a fresh nonce; both join
the transcript (R318; logs 1, 25). -/
def State.answerSpdm (s : State) (req : Option Bytes) (m : Bytes) : State × Bytes :=
  let c := connOf req
  let r := Config.spdmAnswer (s.conn c).transcript s.pilot.flash.certs s.measurements (s.freeBytes 32) m
  let s := s.tick.updConn c fun x => { x with transcript := x.transcript ++ m ++ r }
  (s.respond req (5 :: r), r)

/-- GET_VERSION (R318): a new connection begins, and a provisioning session of the one before ends (R320). -/
def execGetVersion (req : Option (List Byte)) (s : State) : Res :=
  .next (s.spdm req 0x84 fun m s => ((s.updConn (connOf req) fun _ => SpdmConn.empty).answerSpdm req m).1)

/-- GET_CAPABILITIES (R318). -/
def execGetCapabilities (req : Option (List Byte)) (s : State) : Res :=
  .next (s.spdm req 0xE1 fun m s => (s.answerSpdm req m).1)

/-- NEGOTIATE_ALGORITHMS (R318). -/
def execNegotiateAlgorithms (req : Option (List Byte)) (s : State) : Res :=
  .next (s.spdm req 0xE3 fun m s => (s.answerSpdm req m).1)

/-- GET_DIGESTS (R318). -/
def execGetDigests (req : Option (List Byte)) (s : State) : Res :=
  .next (s.spdm req 0x81 fun m s => (s.answerSpdm req m).1)

/-- GET_CERTIFICATE (R318). -/
def execGetCertificate (req : Option (List Byte)) (s : State) : Res :=
  .next (s.spdm req 0x82 fun m s => (s.answerSpdm req m).1)

/-- CHALLENGE (R318). -/
def execSpdmChallenge (req : Option (List Byte)) (s : State) : Res :=
  .next (s.spdm req 0x83 fun m s => (s.answerSpdm req m).1)

/-- GET_MEASUREMENTS (R317, R318): a signed MEASUREMENTS response lets the connection provision (R320). -/
def execGetMeasurements (req : Option (List Byte)) (s : State) : Res :=
  .next (s.spdm req 0xE0 fun m s =>
    let (s, r) := s.answerSpdm req m
    if bit (rd m 2 1) 0 && rd r 1 1 = 0x60 then s.updConn (connOf req) fun x => { x with measured := true } else s)

/-! ## Provisioning (R319, R320) -/

/-- The head of a VENDOR_DEFINED message from its code to its payload's length, under the vendor identity of the capability
table. -/
def State.vendorDefined (s : State) (version code : Nat) (b : Bytes) : Bytes :=
  leBytes 1 version ++ leBytes 1 code ++ zeros 2 ++ leBytes 2 (s.get Reg.CAP_VENDOR_STANDARD_ID) ++ leBytes 1 2 ++
    leBytes 2 (s.get Reg.CAP_VENDOR_VENDOR_ID) ++ leBytes 2 b.length ++ b

/-- The payload of a VENDOR_DEFINED_REQUEST. -/
def vendorPayload (m : Bytes) : Bytes := slice m 11 (rd m 9 2)

/-- VENDOR_DEFINED_REQUEST (R319): the message waits for its provisioning command; one of another vendor gets ERROR. -/
def execVendorDefinedRequest (req : Option (List Byte)) (s : State) : Res :=
  let c : Nat := connOf req
  .next (s.spdm req 0xFE fun m s =>
    if slice m 4 5 ≠ slice (s.vendorDefined 0 0 []) 4 5 then s.respond req (5 :: Config.spdmError m)
    else if c = 1 && !(s.conn c).inbox.isEmpty then s
    else s.updConn c fun x => { x with inbox := x.inbox ++ [m] })

/-- The module's answer in a connection to the oldest provisioning request; both join the transcript. -/
def State.provRsp (s : State) (c : Nat) (m b : Bytes) : State :=
  let r := s.vendorDefined (rd m 0 1) 0x7E b
  (s.updConn c fun x => { x with transcript := x.transcript ++ m ++ r, inbox := x.inbox.drop 1 }).respond
    (if c = 0 then some [] else none) (5 :: r)

/-- The 96-bit nonce of a sealed message (R319). -/
def provNonce (seq : Bytes) : Bytes := seq ++ zeros 8

/-- PROV_ACK (R319, R320). Outside a session nothing seals it, so its tag is free; GEN is free but for an accepted PROV_KEY
(logs 1, 58). -/
def State.provAck (s : State) (c : Nat) (m seq : Bytes) (code : Nat) (gen : Option Nat) : State :=
  let head := seq ++ leBytes 2 code ++ (match gen with
    | some g => leBytes 4 g
    | none => s.freeBytes 4)
  let s := s.tick
  let tag := match (s.conn c).prov with
    | some p => Config.gcmSeal p.keyOut (provNonce seq) head []
    | none => s.freeBytes 16
  s.tick.provRsp c m (head ++ tag)

/-- PROV_OPEN (R319, R320): the owner's key is registered as SINGLE, and the connection has carried a signed MEASUREMENTS
response. T′ covers the messages before it, the whole of it and the module's ephemeral key (log 58). -/
def State.provOpen (s : State) (c : Nat) (m b : Bytes) : State :=
  let x := s.conn c
  let t := Config.sha512 (x.transcript ++ m.take (11 + 96))
  match s.ownerOfKey (b.take 32) with
  | none => (s.tick.provAck c m (s.freeBytes 4) 0x060C none)
  | some owner =>
    if !x.measured || !Config.ed25519Verify (b.take 32) t (slice b 96 64) then
      s.tick.provAck c m (s.freeBytes 4) 0x060C none
    else
      let priv := s.freeBytes 32
      let pub := Config.x25519 priv (leBytes 32 9)
      let t' := Config.sha512 (x.transcript ++ m ++ pub)
      let z := Config.x25519 priv (slice b 32 32)
      let s := s.tick.updConn c fun x => { x with prov := some {
        owner := owner, keyIn := Config.hkdf512 t' z (ascii "E4 provision in") 32,
        keyOut := Config.hkdf512 t' z (ascii "E4 provision out") 32, seq := 0 } }
      s.provRsp c m (pub ++ Config.ed25519Sign Config.unitSeed t')

/-- Is SEQ in order: above every one accepted, and 1 at first (R320)? -/
def ProvSession.seqOk (p : ProvSession) (n : Nat) : Bool := if p.seq = 0 then n = 1 else p.seq < n

/-- The session of a connection after it has accepted a SEQ. -/
def State.provSeq (s : State) (c n : Nat) : State :=
  s.updConn c fun x => { x with prov := x.prov.map fun p => { p with seq := n } }

/-- PROV_KEY (R319, R320): wrapped keys for a RESERVED entry of the owner. -/
def State.provKey (s : State) (c : Nat) (m b : Bytes) : State :=
  let n := rd b 0 4
  let k := rd b 4 2
  let ok : Option Bytes := match (s.conn c).prov with
    | none => none
    | some p =>
      if b.length = 120 && p.seqOk n && rd b 6 2 = 0 && k < 2048 && (s.keyEntry k).state = .reserved && (s.keyEntry k).owner = p.owner then
        (Config.gcmOpen p.keyIn (provNonce (b.take 4)) (b.take 8) (b.drop 8)).filter fun w =>
          w.length = 96 && w.take 32 ≠ slice w 32 32
      else none
  match ok with
  | none => s.provAck c m (b.take 4) 0x060C none
  | some w =>
    let s := (s.updKey k fun e =>
      { e with state := .valid, gen := (e.gen + 1) % 2 ^ 32, material := leNat w }).provSeq c n
    s.syncRights.provAck c m (b.take 4) 0 (some (s.keyEntry k).gen)

/-- PROV_POLICY (R319, R320): the owner's INGRESS. -/
def State.provPolicy (s : State) (c : Nat) (m b : Bytes) : State :=
  let n := rd b 0 4
  let ok : Option Nat := match (s.conn c).prov with
    | none => none
    | some p =>
      if p.seqOk n && rd b 4 4 ≤ 1 && (Config.gcmOpen p.keyIn (provNonce (b.take 4)) (b.take 8) (b.drop 8)).isSome then
        some p.owner
      else none
  match ok with
  | none => s.provAck c m (b.take 4) 0x060C none
  | some o =>
    let s := (s.updOwner o fun x => { x with ingress := rd b 4 4 = 1 }).provSeq c n
    s.syncRights.provAck c m (b.take 4) 0 none

/-- The oldest provisioning request of a connection, when its payload has a length of the message. -/
def State.onProv (s : State) (c : Nat) (len : Nat → Bool) (f : Bytes → Bytes → State) : State :=
  match (s.conn c).inbox.head? with
  | none => s
  | some m => if len (vendorPayload m).length then f m (vendorPayload m) else s

/-- PROV_OPEN (R319, R320). -/
def execProvOpen (conn : Fin 2) (s : State) : Res := .next (s.onProv conn.val (fun n => n = 160) (s.provOpen conn.val))

/-- PROV_KEY (R319, R320). A payload of no message's length fails as one. -/
def execProvKey (conn : Fin 2) (s : State) : Res :=
  .next (s.onProv conn.val (fun n => n ≠ 160 && n ≠ 24) (s.provKey conn.val))

/-- PROV_POLICY (R319, R320). -/
def execProvPolicy (conn : Fin 2) (s : State) : Res := .next (s.onProv conn.val (fun n => n = 24) (s.provPolicy conn.val))

/-- PROV_SESSION_TIMEOUT (R320): 60 s without an accepted message. -/
def execProvSessionTimeout (conn : Fin 2) (s : State) : Res :=
  .next (s.updConn conn.val fun x => { x with prov := none })

end Sys2Proof.Machine
end

