-- ==== Sys2Proof/Machine/TileDecode.lean ====
section
/-!
DEFINITION. The 32-bit instruction words of the tile core (04_tile_core.md R89 to R91), and the single step that fetches
one (R114).
-/

namespace Sys2Proof.Machine

/-- A field of an instruction word. -/
def fld (w : BitVec 32) (hi lo : Nat) : Nat := bitsOf w.toNat hi lo

/-- A register field. -/
def regF (w : BitVec 32) (lo : Nat) : GReg := Fin.ofNat 32 (fld w (lo + 4) lo)

/-- A predicate field. -/
def predF (w : BitVec 32) (lo : Nat) : Fin 8 := Fin.ofNat 8 (fld w (lo + 2) lo)

/-- The guard of every format but U (04_tile_core.md R89). -/
def guardF (w : BitVec 32) : Guard := ⟨predF w 23, bit w.toNat 22⟩

/-- The instruction when its reserved bits are zero, else the illegal instruction (04_tile_core.md R90). -/
def ok (t : TileIx) (w : BitVec 32) (c : Bool) (i : Instr) : Instr := if c then i else .illegalInstruction t (some w)

/-- Format R, by FN (04_tile_core.md R91). -/
def decodeR (t : TileIx) (w : BitVec 32) : Instr :=
  let gd := guardF w; let rd := regF w 17; let a := regF w 12; let b := regF w 7
  match fld w 6 0 with
  | 0x00 => .add t gd rd a b
  | 0x01 => .sub t gd rd a b
  | 0x02 => .and t gd rd a b
  | 0x03 => .or t gd rd a b
  | 0x04 => .xor t gd rd a b
  | 0x05 => .sll t gd rd a b
  | 0x06 => .srl t gd rd a b
  | 0x07 => .sra t gd rd a b
  | 0x08 => .mul t gd rd a b
  | 0x09 => .mulhu t gd rd a b
  | 0x0A => .divu t gd rd a b
  | 0x0B => .remu t gd rd a b
  | 0x0C => .smin t gd rd a b
  | 0x0D => .smax t gd rd a b
  | 0x0E => .minu t gd rd a b
  | 0x0F => .maxu t gd rd a b
  | 0x10 => ok t w (b = 0) (.popc t gd rd a)
  | 0x11 => ok t w (b = 0) (.clz t gd rd a)
  | _ => .illegalInstruction t (some w)

/-- Format C, by OP (04_tile_core.md R89 to R91). A word whose N or register range is illegal is refused here. -/
def decodeC (t : TileIx) (w : BitVec 32) : Instr :=
  let gd := guardF w; let reg := regF w 17; let ch : Fin 64 := Fin.ofNat 64 (fld w 16 11)
  let n : Fin 16 := Fin.ofNat 16 (fld w 10 7); let pd := predF w 4; let nb := bit w.toNat 3
  match fld w 31 26 with
  | 0x1C => ok t w (fld w 2 0 = 0 && !badRange reg n) (.send t gd reg ch n pd nb)
  | 0x1D => ok t w (fld w 2 0 = 0 && !badRange reg n) (.recv t gd reg ch n pd nb false)
  | 0x1E => ok t w (fld w 10 0 = 0) (.ravail t gd reg ch)
  | 0x1F => ok t w (fld w 10 0 = 0) (.rrel t gd reg ch)
  | _ => .illegalInstruction t (some w)

/-- Format E, by OP (04_tile_core.md R89, R91). -/
def decodeE (t : TileIx) (w : BitVec 32) : Instr :=
  let gd := guardF w; let rd := regF w 17; let a := regF w 12
  let ek : Fin 16 := Fin.ofNat 16 (fld w 11 8); let pd := predF w 5
  match fld w 31 26 with
  | 0x24 => ok t w (rd = 0 && fld w 11 0 = 0) (.waitt t gd a)
  | 0x25 => ok t w (rd = 0 && fld w 11 8 = 0 && fld w 4 0 = 0) (.testt t gd a pd)
  | 0x26 => ok t w (rd = 0 && fld w 7 0 = 0) (.waite t gd a ek)
  | 0x27 => ok t w (rd = 0 && fld w 7 0 = 0) (.evadd t gd a ek)
  | 0x28 => ok t w (a = 0 && fld w 7 0 = 0) (.evrd t gd rd ek)
  | _ => .illegalInstruction t (some w)

/-- Format I, by OP (04_tile_core.md R89, R91). -/
def decodeI (t : TileIx) (w : BitVec 32) : Instr :=
  let gd := guardF w; let rd := regF w 17; let a := regF w 12
  let imm : BitVec 12 := BitVec.ofNat 12 (fld w 11 0)
  match fld w 31 26 with
  | 0x02 => .addi t gd rd a imm
  | 0x03 => .andi t gd rd a imm
  | 0x04 => .ori t gd rd a imm
  | 0x05 => .xori t gd rd a imm
  | 0x06 => ok t w (fld w 11 6 = 0) (.slli t gd rd a (BitVec.ofNat 6 (fld w 5 0)))
  | 0x07 => ok t w (fld w 11 6 = 0) (.srli t gd rd a (BitVec.ofNat 6 (fld w 5 0)))
  | 0x08 => ok t w (fld w 11 6 = 0) (.srai t gd rd a (BitVec.ofNat 6 (fld w 5 0)))
  | 0x10 => .ldb t gd rd a imm false
  | 0x11 => .ldh t gd rd a imm false
  | 0x12 => .ldw t gd rd a imm false
  | 0x13 => .ldd t gd rd a imm false
  | 0x14 => .stb t gd rd a imm false
  | 0x15 => .sth t gd rd a imm false
  | 0x16 => .stw t gd rd a imm false
  | 0x17 => .std t gd rd a imm false
  | 0x1A => ok t w (rd = 0) (.jr t gd a imm)
  | 0x20 => .mxi t gd rd a imm false
  | 0x21 => .vxi t gd rd a imm false
  | 0x22 => .mvi t gd rd a imm false
  | 0x29 => ok t w (rd = 0 && a = 0 && fld w 11 3 = 0) (.waitu t gd (BitVec.ofNat 3 (fld w 2 0)))
  | 0x2C => ok t w (a = 0) (.csrr t gd rd imm)
  | 0x2D => ok t w (rd = 0) (.csrw t gd a imm)
  | 0x30 => ok t w (fld w 21 0 = 0) (.nop t gd)
  | 0x31 => ok t w (rd = 0 && a = 0) (.trap t gd imm)
  | 0x32 => ok t w (fld w 21 0 = 0) (.halt t gd)
  | _ => .illegalInstruction t (some w)

/-- The instruction a word holds (04_tile_core.md R89 to R91). -/
def tileDecode (t : TileIx) (w : BitVec 32) : Instr :=
  let gd := guardF w
  let op := fld w 31 26
  if op = 0x01 then decodeR t w
  else if op = 0x09 then
    ok t w (fld w 2 0 = 0) (.movz t (regF w 21) (Fin.ofNat 4 (fld w 20 19)) (BitVec.ofNat 16 (fld w 18 3)))
  else if op = 0x0A then
    ok t w (fld w 2 0 = 0) (.movk t (regF w 21) (Fin.ofNat 4 (fld w 20 19)) (BitVec.ofNat 16 (fld w 18 3)))
  else if op = 0x0B then ok t w (fld w 5 0 = 0) (.cmp t gd (predF w 19) (predF w 16) (regF w 11) (regF w 6))
  else if op = 0x0C then .cmpi t gd (predF w 19) (predF w 16) (regF w 11) (BitVec.ofNat 11 (fld w 10 0))
  else if op = 0x0D then
    ok t w (fld w 10 0 = 0) (.plog t gd (predF w 19) (predF w 16) (predF w 13) (Fin.ofNat 4 (fld w 12 11)))
  else if op = 0x18 then ok t w (fld w 21 15 = 0) (.br t gd (Fin.ofNat 32768 (fld w 14 0)))
  else if op = 0x19 then ok t w (fld w 21 15 = 0) (.call t gd (Fin.ofNat 32768 (fld w 14 0)))
  else if 0x1C ≤ op && op ≤ 0x1F then decodeC t w
  else if 0x24 ≤ op && op ≤ 0x28 then decodeE t w
  else decodeI t w

/-! ## The words of the instructions (04_tile_core.md R89, R91) -/

/-- A word from OP, the 26 bits below it but for the guard, and the guard. -/
def tileWord (op : Nat) (gd : Guard) (low : Nat) : BitVec 32 :=
  BitVec.ofNat 32 (op * 2 ^ 26 + gd.pg.val * 2 ^ 23 + (if gd.pn then 2 ^ 22 else 0) + low)

/-- Format R. -/
def wordR (fn : Nat) (gd : Guard) (rd a b : GReg) : BitVec 32 :=
  tileWord 0x01 gd (rd.val * 2 ^ 17 + a.val * 2 ^ 12 + b.val * 2 ^ 7 + fn)

/-- Format I. -/
def wordI (op : Nat) (gd : Guard) (rd a : GReg) (imm : Nat) : BitVec 32 :=
  tileWord op gd (rd.val * 2 ^ 17 + a.val * 2 ^ 12 + imm)

/-- Format U, which has no guard. -/
def wordU (op : Nat) (rd : GReg) (hw : Fin 4) (imm : BitVec 16) : BitVec 32 :=
  BitVec.ofNat 32 (op * 2 ^ 26 + rd.val * 2 ^ 21 + hw.val * 2 ^ 19 + imm.toNat * 2 ^ 3)

/-- Format C. -/
def wordC (op : Nat) (gd : Guard) (reg : GReg) (ch : Fin 64) (n : Nat) (pd : Nat) (nb : Bool) : BitVec 32 :=
  tileWord op gd (reg.val * 2 ^ 17 + ch.val * 2 ^ 11 + n * 2 ^ 7 + pd * 2 ^ 4 + if nb then 2 ^ 3 else 0)

/-- Format E. -/
def wordE (op : Nat) (gd : Guard) (rd a : GReg) (ek pd : Nat) : BitVec 32 :=
  tileWord op gd (rd.val * 2 ^ 17 + a.val * 2 ^ 12 + ek * 2 ^ 8 + pd * 2 ^ 5)

/-- The word of an instruction of the tile core; none for the other commands, for a load, store or issue that meets a memory
error (an event, not a word), and for a register range that R90 refuses. -/
def tileEncode (i : Instr) : Option (BitVec 32) :=
  match i with
  | .add _ gd rd a b => some (wordR 0x00 gd rd a b)
  | .sub _ gd rd a b => some (wordR 0x01 gd rd a b)
  | .and _ gd rd a b => some (wordR 0x02 gd rd a b)
  | .or _ gd rd a b => some (wordR 0x03 gd rd a b)
  | .xor _ gd rd a b => some (wordR 0x04 gd rd a b)
  | .sll _ gd rd a b => some (wordR 0x05 gd rd a b)
  | .srl _ gd rd a b => some (wordR 0x06 gd rd a b)
  | .sra _ gd rd a b => some (wordR 0x07 gd rd a b)
  | .mul _ gd rd a b => some (wordR 0x08 gd rd a b)
  | .mulhu _ gd rd a b => some (wordR 0x09 gd rd a b)
  | .divu _ gd rd a b => some (wordR 0x0A gd rd a b)
  | .remu _ gd rd a b => some (wordR 0x0B gd rd a b)
  | .smin _ gd rd a b => some (wordR 0x0C gd rd a b)
  | .smax _ gd rd a b => some (wordR 0x0D gd rd a b)
  | .minu _ gd rd a b => some (wordR 0x0E gd rd a b)
  | .maxu _ gd rd a b => some (wordR 0x0F gd rd a b)
  | .popc _ gd rd a => some (wordR 0x10 gd rd a 0)
  | .clz _ gd rd a => some (wordR 0x11 gd rd a 0)
  | .addi _ gd rd a imm => some (wordI 0x02 gd rd a imm.toNat)
  | .andi _ gd rd a imm => some (wordI 0x03 gd rd a imm.toNat)
  | .ori _ gd rd a imm => some (wordI 0x04 gd rd a imm.toNat)
  | .xori _ gd rd a imm => some (wordI 0x05 gd rd a imm.toNat)
  | .slli _ gd rd a sh => some (wordI 0x06 gd rd a sh.toNat)
  | .srli _ gd rd a sh => some (wordI 0x07 gd rd a sh.toNat)
  | .srai _ gd rd a sh => some (wordI 0x08 gd rd a sh.toNat)
  | .movz _ rd hw imm => some (wordU 0x09 rd hw imm)
  | .movk _ rd hw imm => some (wordU 0x0A rd hw imm)
  | .cmp _ gd pd cond a b => some (tileWord 0x0B gd (pd.val * 2 ^ 19 + cond.val * 2 ^ 16 + a.val * 2 ^ 11 + b.val * 2 ^ 6))
  | .cmpi _ gd pd cond a imm => some (tileWord 0x0C gd (pd.val * 2 ^ 19 + cond.val * 2 ^ 16 + a.val * 2 ^ 11 + imm.toNat))
  | .plog _ gd pd pa pb fn => some (tileWord 0x0D gd (pd.val * 2 ^ 19 + pa.val * 2 ^ 16 + pb.val * 2 ^ 13 + fn.val * 2 ^ 11))
  | .ldb _ gd rd a imm false => some (wordI 0x10 gd rd a imm.toNat)
  | .ldh _ gd rd a imm false => some (wordI 0x11 gd rd a imm.toNat)
  | .ldw _ gd rd a imm false => some (wordI 0x12 gd rd a imm.toNat)
  | .ldd _ gd rd a imm false => some (wordI 0x13 gd rd a imm.toNat)
  | .stb _ gd rd a imm false => some (wordI 0x14 gd rd a imm.toNat)
  | .sth _ gd rd a imm false => some (wordI 0x15 gd rd a imm.toNat)
  | .stw _ gd rd a imm false => some (wordI 0x16 gd rd a imm.toNat)
  | .std _ gd rd a imm false => some (wordI 0x17 gd rd a imm.toNat)
  | .mxi _ gd rd a imm false => some (wordI 0x20 gd rd a imm.toNat)
  | .vxi _ gd rd a imm false => some (wordI 0x21 gd rd a imm.toNat)
  | .mvi _ gd rd a imm false => some (wordI 0x22 gd rd a imm.toNat)
  | .br _ gd tgt => some (tileWord 0x18 gd tgt.val)
  | .call _ gd tgt => some (tileWord 0x19 gd tgt.val)
  | .jr _ gd a imm => some (wordI 0x1A gd 0 a imm.toNat)
  | .send _ gd reg ch n pd nb => if badRange reg n then none else some (wordC 0x1C gd reg ch n.val pd.val nb)
  | .recv _ gd reg ch n pd nb false => if badRange reg n then none else some (wordC 0x1D gd reg ch n.val pd.val nb)
  | .ravail _ gd reg ch => some (wordC 0x1E gd reg ch 0 0 false)
  | .rrel _ gd reg ch => some (wordC 0x1F gd reg ch 0 0 false)
  | .waitt _ gd a => some (wordE 0x24 gd 0 a 0 0)
  | .testt _ gd a pd => some (wordE 0x25 gd 0 a 0 pd.val)
  | .waite _ gd a ek => some (wordE 0x26 gd 0 a ek.val 0)
  | .evadd _ gd a ek => some (wordE 0x27 gd 0 a ek.val 0)
  | .evrd _ gd rd ek => some (wordE 0x28 gd rd 0 ek.val 0)
  | .waitu _ gd units => some (wordI 0x29 gd 0 0 units.toNat)
  | .csrr _ gd rd num => some (wordI 0x2C gd rd 0 num.toNat)
  | .csrw _ gd a num => some (wordI 0x2D gd 0 a num.toNat)
  | .nop _ gd => some (tileWord 0x30 gd 0)
  | .trap _ gd imm => some (wordI 0x31 gd 0 0 imm.toNat)
  | .halt _ gd => some (tileWord 0x32 gd 0)
  | _ => none

/-- The tile of an instruction of the tile core, and its guard; none for MOVZ and MOVK, which carry none (04_tile_core.md
R88), and for the other commands. -/
def guardOf (i : Instr) : Option (TileIx × Guard) :=
  match i with
  | .add t gd _ _ _ => some (t, gd)
  | .sub t gd _ _ _ => some (t, gd)
  | .and t gd _ _ _ => some (t, gd)
  | .or t gd _ _ _ => some (t, gd)
  | .xor t gd _ _ _ => some (t, gd)
  | .sll t gd _ _ _ => some (t, gd)
  | .srl t gd _ _ _ => some (t, gd)
  | .sra t gd _ _ _ => some (t, gd)
  | .mul t gd _ _ _ => some (t, gd)
  | .mulhu t gd _ _ _ => some (t, gd)
  | .divu t gd _ _ _ => some (t, gd)
  | .remu t gd _ _ _ => some (t, gd)
  | .smin t gd _ _ _ => some (t, gd)
  | .smax t gd _ _ _ => some (t, gd)
  | .minu t gd _ _ _ => some (t, gd)
  | .maxu t gd _ _ _ => some (t, gd)
  | .popc t gd _ _ => some (t, gd)
  | .clz t gd _ _ => some (t, gd)
  | .addi t gd _ _ _ => some (t, gd)
  | .andi t gd _ _ _ => some (t, gd)
  | .ori t gd _ _ _ => some (t, gd)
  | .xori t gd _ _ _ => some (t, gd)
  | .slli t gd _ _ _ => some (t, gd)
  | .srli t gd _ _ _ => some (t, gd)
  | .srai t gd _ _ _ => some (t, gd)
  | .cmp t gd _ _ _ _ => some (t, gd)
  | .cmpi t gd _ _ _ _ => some (t, gd)
  | .plog t gd _ _ _ _ => some (t, gd)
  | .ldb t gd _ _ _ _ => some (t, gd)
  | .ldh t gd _ _ _ _ => some (t, gd)
  | .ldw t gd _ _ _ _ => some (t, gd)
  | .ldd t gd _ _ _ _ => some (t, gd)
  | .stb t gd _ _ _ _ => some (t, gd)
  | .sth t gd _ _ _ _ => some (t, gd)
  | .stw t gd _ _ _ _ => some (t, gd)
  | .std t gd _ _ _ _ => some (t, gd)
  | .mxi t gd _ _ _ _ => some (t, gd)
  | .vxi t gd _ _ _ _ => some (t, gd)
  | .mvi t gd _ _ _ _ => some (t, gd)
  | .br t gd _ => some (t, gd)
  | .call t gd _ => some (t, gd)
  | .jr t gd _ _ => some (t, gd)
  | .send t gd _ _ _ _ _ => some (t, gd)
  | .recv t gd _ _ _ _ _ _ => some (t, gd)
  | .ravail t gd _ _ => some (t, gd)
  | .rrel t gd _ _ => some (t, gd)
  | .waitt t gd _ => some (t, gd)
  | .testt t gd _ _ => some (t, gd)
  | .waite t gd _ _ => some (t, gd)
  | .evadd t gd _ _ => some (t, gd)
  | .evrd t gd _ _ => some (t, gd)
  | .waitu t gd _ => some (t, gd)
  | .csrr t gd _ _ => some (t, gd)
  | .csrw t gd _ _ => some (t, gd)
  | .nop t gd => some (t, gd)
  | .trap t gd _ => some (t, gd)
  | .halt t gd => some (t, gd)
  | _ => none

/-- ILLEGAL_INSTRUCTION (04_tile_core.md R90): a word that is no instruction raises 0x0307, whether or not its guard
passes. A word that is an instruction does not raise it, and nothing changes (log 12). Without a word the fetch meets an
uncorrectable error of the instruction memory, so there is no instruction at all, and 0x0201 is raised (R109; log 127). -/
def execIllegalInstruction (t : TileIx) (word : Option (BitVec 32)) (s : State) : Res :=
  .next (if !s.runs t then s
    else match word with
      | none => s.tileUe t 1 (4 * (s.tile t).pc)
      | some w => match tileDecode t w with
        | .illegalInstruction _ _ => s.tileExc t 0x0307
        | _ => s)

/-- The tile-core instructions, as a function of the instruction: what SSTEP runs. -/
def tileExec (i : Instr) (s : State) : Res :=
  match i with
  | .illegalInstruction t w => execIllegalInstruction t w s
  | .add t gd rd rs1 rs2 => execAdd t gd rd rs1 rs2 s
  | .sub t gd rd rs1 rs2 => execSub t gd rd rs1 rs2 s
  | .and t gd rd rs1 rs2 => execAnd t gd rd rs1 rs2 s
  | .or t gd rd rs1 rs2 => execOr t gd rd rs1 rs2 s
  | .xor t gd rd rs1 rs2 => execXor t gd rd rs1 rs2 s
  | .sll t gd rd rs1 rs2 => execSll t gd rd rs1 rs2 s
  | .srl t gd rd rs1 rs2 => execSrl t gd rd rs1 rs2 s
  | .sra t gd rd rs1 rs2 => execSra t gd rd rs1 rs2 s
  | .mul t gd rd rs1 rs2 => execMul t gd rd rs1 rs2 s
  | .mulhu t gd rd rs1 rs2 => execMulhu t gd rd rs1 rs2 s
  | .divu t gd rd rs1 rs2 => execDivu t gd rd rs1 rs2 s
  | .remu t gd rd rs1 rs2 => execRemu t gd rd rs1 rs2 s
  | .smin t gd rd rs1 rs2 => execSmin t gd rd rs1 rs2 s
  | .smax t gd rd rs1 rs2 => execSmax t gd rd rs1 rs2 s
  | .minu t gd rd rs1 rs2 => execMinu t gd rd rs1 rs2 s
  | .maxu t gd rd rs1 rs2 => execMaxu t gd rd rs1 rs2 s
  | .popc t gd rd rs1 => execPopc t gd rd rs1 s
  | .clz t gd rd rs1 => execClz t gd rd rs1 s
  | .addi t gd rd rs1 imm => execAddi t gd rd rs1 imm s
  | .andi t gd rd rs1 imm => execAndi t gd rd rs1 imm s
  | .ori t gd rd rs1 imm => execOri t gd rd rs1 imm s
  | .xori t gd rd rs1 imm => execXori t gd rd rs1 imm s
  | .slli t gd rd rs1 sh => execSlli t gd rd rs1 sh s
  | .srli t gd rd rs1 sh => execSrli t gd rd rs1 sh s
  | .srai t gd rd rs1 sh => execSrai t gd rd rs1 sh s
  | .movz t rd hw imm => execMovz t rd hw imm s
  | .movk t rd hw imm => execMovk t rd hw imm s
  | .cmp t gd pd cond rs1 rs2 => execCmp t gd pd cond rs1 rs2 s
  | .cmpi t gd pd cond rs1 imm => execCmpi t gd pd cond rs1 imm s
  | .plog t gd pd pa pb fn => execPlog t gd pd pa pb fn s
  | .ldb t gd rd rs1 imm ue => execLdb t gd rd rs1 imm ue s
  | .ldh t gd rd rs1 imm ue => execLdh t gd rd rs1 imm ue s
  | .ldw t gd rd rs1 imm ue => execLdw t gd rd rs1 imm ue s
  | .ldd t gd rd rs1 imm ue => execLdd t gd rd rs1 imm ue s
  | .stb t gd rd rs1 imm ue => execStb t gd rd rs1 imm ue s
  | .sth t gd rd rs1 imm ue => execSth t gd rd rs1 imm ue s
  | .stw t gd rd rs1 imm ue => execStw t gd rd rs1 imm ue s
  | .std t gd rd rs1 imm ue => execStd t gd rd rs1 imm ue s
  | .br t gd tgt => execBr t gd tgt s
  | .call t gd tgt => execCall t gd tgt s
  | .jr t gd rs1 imm => execJr t gd rs1 imm s
  | .send t gd reg ch n pd nb => execSend t gd reg ch n pd nb s
  | .recv t gd reg ch n pd nb ue => execRecv t gd reg ch n pd nb ue s
  | .ravail t gd reg ch => execRavail t gd reg ch s
  | .rrel t gd reg ch => execRrel t gd reg ch s
  | .mxi t gd rd rs1 imm ue => execMxi t gd rd rs1 imm ue s
  | .vxi t gd rd rs1 imm ue => execVxi t gd rd rs1 imm ue s
  | .mvi t gd rd rs1 imm ue => execMvi t gd rd rs1 imm ue s
  | .waitt t gd rs1 => execWaitt t gd rs1 s
  | .testt t gd rs1 pd => execTestt t gd rs1 pd s
  | .waite t gd rs1 ek => execWaite t gd rs1 ek s
  | .evadd t gd rs1 ek => execEvadd t gd rs1 ek s
  | .evrd t gd rd ek => execEvrd t gd rd ek s
  | .waitu t gd units => execWaitu t gd units s
  | .csrr t gd rd num => execCsrr t gd rd num s
  | .csrw t gd rs1 num => execCsrw t gd rs1 num s
  | .nop t gd => execNop t gd s
  | .trap t gd imm => execTrap t gd imm s
  | .halt t gd => execHalt t gd s
  | _ => .next s

/-- SSTEP (04_tile_core.md R114, R117): one instruction of a debug-halted tile runs, fetched from its instruction
memory, and the tile halts with CAUSE 4 at its end; a fetch that meets an uncorrectable error raises 0x0201 (R109). A
tile halted in a wait goes on in it. The order wakes an idle cluster (18_power_clocks_and_reset.md R434). -/
def execSstep (t : TileIx) (ue : Bool) (s : State) : Res :=
  let x := s.tile t
  let w := s.tileCtrl t fun s => s
  if s.hubUp && s.pilot.debugTile && x.debugHalted then
    let s := w.updTile t fun x => { x with halted := false, stepping := true, cause := 0 }
    if x.wait.isSome then .next (if (s.tile t).waitOver then s.endWait t else s)
    else if ue then .next (s.tileUe t 1 (4 * x.pc))
    else tileExec (tileDecode t (smapGet 0 x.imem x.pc)) s
  else .next w

end Sys2Proof.Machine
end

