-- ==== Sys2Proof/Machine/Dispatch.lean ====
section
/-!
DEFINITION. One arm per command: each is one direct call of its meaning.
-/

namespace Sys2Proof.Machine

/-- The effect of a command on everything but the queue. -/
def exec (i : Instr) (s : State) : Host.Outcome State Fault Refusal :=
  match i with
  | .thermalStretch die celsius step => Sys2Proof.Machine.execThermalStretch die celsius step s
  | .thermtrip die celsius => Sys2Proof.Machine.execThermtrip die celsius s
  | .powerLimit step draw => Sys2Proof.Machine.execPowerLimit step draw s
  | .feedWarn feed dv => Sys2Proof.Machine.execFeedWarn feed dv s
  | .feedFail feed dv => Sys2Proof.Machine.execFeedFail feed dv s
  | .feedReturn feed dv => Sys2Proof.Machine.execFeedReturn feed dv s
  | .feedRestoreTimer feed => Sys2Proof.Machine.execFeedRestoreTimer feed s
  | .coldReset feed dv => Sys2Proof.Machine.execColdReset feed dv s
  | .bringUpComplete failed hbm clusters modules => Sys2Proof.Machine.execBringUpComplete failed hbm clusters modules s
  | .moduleReset req => Sys2Proof.Machine.execModuleReset req s
  | .hubWarmReset req => Sys2Proof.Machine.execHubWarmReset req s
  | .stewardReset req => Sys2Proof.Machine.execStewardReset req s
  | .powerStatus req => Sys2Proof.Machine.execPowerStatus req s
  | .partReset mask => Sys2Proof.Machine.execPartReset mask s
  | .tileReset index => Sys2Proof.Machine.execTileReset index s
  | .clusterIdleEntry c => Sys2Proof.Machine.execClusterIdleEntry c s
  | .clusterNapEntry c => Sys2Proof.Machine.execClusterNapEntry c s
  | .clusterWakeComplete c bad => Sys2Proof.Machine.execClusterWakeComplete c bad s
  | .calibBinFill c bin millivolts => Sys2Proof.Machine.execCalibBinFill c bin millivolts s
  | .frameLoad persist => Sys2Proof.Machine.execFrameLoad persist s
  | .jobLoad p => Sys2Proof.Machine.execJobLoad p s
  | .jobLoadComplete p => Sys2Proof.Machine.execJobLoadComplete p s
  | .unload p => Sys2Proof.Machine.execUnload p s
  | .eclipseComplete p cycles => Sys2Proof.Machine.execEclipseComplete p cycles s
  | .partCntClear p => Sys2Proof.Machine.execPartCntClear p s
  | .streamFlitSend p stream branch hop fault => Sys2Proof.Machine.execStreamFlitSend p stream branch hop fault s
  | .creditReturn p stream branch hop => Sys2Proof.Machine.execCreditReturn p stream branch hop s
  | .msgPacketArrive n fault => Sys2Proof.Machine.execMsgPacketArrive n fault s
  | .msgCreditReturn n fault => Sys2Proof.Machine.execMsgCreditReturn n fault s
  | .edgeReplay e dir => Sys2Proof.Machine.execEdgeReplay e dir s
  | .edgeFail e => Sys2Proof.Machine.execEdgeFail e s
  | .edgeRekey e dir => Sys2Proof.Machine.execEdgeRekey e dir s
  | .illegalInstruction t word => Sys2Proof.Machine.execIllegalInstruction t word s
  | .add t gd rd rs1 rs2 => Sys2Proof.Machine.execAdd t gd rd rs1 rs2 s
  | .sub t gd rd rs1 rs2 => Sys2Proof.Machine.execSub t gd rd rs1 rs2 s
  | .and t gd rd rs1 rs2 => Sys2Proof.Machine.execAnd t gd rd rs1 rs2 s
  | .or t gd rd rs1 rs2 => Sys2Proof.Machine.execOr t gd rd rs1 rs2 s
  | .xor t gd rd rs1 rs2 => Sys2Proof.Machine.execXor t gd rd rs1 rs2 s
  | .sll t gd rd rs1 rs2 => Sys2Proof.Machine.execSll t gd rd rs1 rs2 s
  | .srl t gd rd rs1 rs2 => Sys2Proof.Machine.execSrl t gd rd rs1 rs2 s
  | .sra t gd rd rs1 rs2 => Sys2Proof.Machine.execSra t gd rd rs1 rs2 s
  | .mul t gd rd rs1 rs2 => Sys2Proof.Machine.execMul t gd rd rs1 rs2 s
  | .mulhu t gd rd rs1 rs2 => Sys2Proof.Machine.execMulhu t gd rd rs1 rs2 s
  | .divu t gd rd rs1 rs2 => Sys2Proof.Machine.execDivu t gd rd rs1 rs2 s
  | .remu t gd rd rs1 rs2 => Sys2Proof.Machine.execRemu t gd rd rs1 rs2 s
  | .smin t gd rd rs1 rs2 => Sys2Proof.Machine.execSmin t gd rd rs1 rs2 s
  | .smax t gd rd rs1 rs2 => Sys2Proof.Machine.execSmax t gd rd rs1 rs2 s
  | .minu t gd rd rs1 rs2 => Sys2Proof.Machine.execMinu t gd rd rs1 rs2 s
  | .maxu t gd rd rs1 rs2 => Sys2Proof.Machine.execMaxu t gd rd rs1 rs2 s
  | .popc t gd rd rs1 => Sys2Proof.Machine.execPopc t gd rd rs1 s
  | .clz t gd rd rs1 => Sys2Proof.Machine.execClz t gd rd rs1 s
  | .addi t gd rd rs1 imm => Sys2Proof.Machine.execAddi t gd rd rs1 imm s
  | .andi t gd rd rs1 imm => Sys2Proof.Machine.execAndi t gd rd rs1 imm s
  | .ori t gd rd rs1 imm => Sys2Proof.Machine.execOri t gd rd rs1 imm s
  | .xori t gd rd rs1 imm => Sys2Proof.Machine.execXori t gd rd rs1 imm s
  | .slli t gd rd rs1 sh => Sys2Proof.Machine.execSlli t gd rd rs1 sh s
  | .srli t gd rd rs1 sh => Sys2Proof.Machine.execSrli t gd rd rs1 sh s
  | .srai t gd rd rs1 sh => Sys2Proof.Machine.execSrai t gd rd rs1 sh s
  | .movz t rd hw imm => Sys2Proof.Machine.execMovz t rd hw imm s
  | .movk t rd hw imm => Sys2Proof.Machine.execMovk t rd hw imm s
  | .cmp t gd pd cond rs1 rs2 => Sys2Proof.Machine.execCmp t gd pd cond rs1 rs2 s
  | .cmpi t gd pd cond rs1 imm => Sys2Proof.Machine.execCmpi t gd pd cond rs1 imm s
  | .plog t gd pd pa pb fn => Sys2Proof.Machine.execPlog t gd pd pa pb fn s
  | .ldb t gd rd rs1 imm ue => Sys2Proof.Machine.execLdb t gd rd rs1 imm ue s
  | .ldh t gd rd rs1 imm ue => Sys2Proof.Machine.execLdh t gd rd rs1 imm ue s
  | .ldw t gd rd rs1 imm ue => Sys2Proof.Machine.execLdw t gd rd rs1 imm ue s
  | .ldd t gd rd rs1 imm ue => Sys2Proof.Machine.execLdd t gd rd rs1 imm ue s
  | .stb t gd rd rs1 imm ue => Sys2Proof.Machine.execStb t gd rd rs1 imm ue s
  | .sth t gd rd rs1 imm ue => Sys2Proof.Machine.execSth t gd rd rs1 imm ue s
  | .stw t gd rd rs1 imm ue => Sys2Proof.Machine.execStw t gd rd rs1 imm ue s
  | .std t gd rd rs1 imm ue => Sys2Proof.Machine.execStd t gd rd rs1 imm ue s
  | .br t gd tgt => Sys2Proof.Machine.execBr t gd tgt s
  | .call t gd tgt => Sys2Proof.Machine.execCall t gd tgt s
  | .jr t gd rs1 imm => Sys2Proof.Machine.execJr t gd rs1 imm s
  | .send t gd reg ch n pd nb => Sys2Proof.Machine.execSend t gd reg ch n pd nb s
  | .recv t gd reg ch n pd nb ue => Sys2Proof.Machine.execRecv t gd reg ch n pd nb ue s
  | .ravail t gd reg ch => Sys2Proof.Machine.execRavail t gd reg ch s
  | .rrel t gd reg ch => Sys2Proof.Machine.execRrel t gd reg ch s
  | .mxi t gd rd rs1 imm ue => Sys2Proof.Machine.execMxi t gd rd rs1 imm ue s
  | .vxi t gd rd rs1 imm ue => Sys2Proof.Machine.execVxi t gd rd rs1 imm ue s
  | .mvi t gd rd rs1 imm ue => Sys2Proof.Machine.execMvi t gd rd rs1 imm ue s
  | .waitt t gd rs1 => Sys2Proof.Machine.execWaitt t gd rs1 s
  | .testt t gd rs1 pd => Sys2Proof.Machine.execTestt t gd rs1 pd s
  | .waite t gd rs1 ek => Sys2Proof.Machine.execWaite t gd rs1 ek s
  | .evadd t gd rs1 ek => Sys2Proof.Machine.execEvadd t gd rs1 ek s
  | .evrd t gd rd ek => Sys2Proof.Machine.execEvrd t gd rd ek s
  | .waitu t gd units => Sys2Proof.Machine.execWaitu t gd units s
  | .csrr t gd rd num => Sys2Proof.Machine.execCsrr t gd rd num s
  | .csrw t gd rs1 num => Sys2Proof.Machine.execCsrw t gd rs1 num s
  | .nop t gd => Sys2Proof.Machine.execNop t gd s
  | .trap t gd imm => Sys2Proof.Machine.execTrap t gd imm s
  | .halt t gd => Sys2Proof.Machine.execHalt t gd s
  | .waitResume t => Sys2Proof.Machine.execWaitResume t s
  | .waitLimitExpiry t => Sys2Proof.Machine.execWaitLimitExpiry t s
  | .cubeCommandStart t => Sys2Proof.Machine.execCubeCommandStart t s
  | .cubeCommandDone t ue => Sys2Proof.Machine.execCubeCommandDone t ue s
  | .vectorCommandStart t => Sys2Proof.Machine.execVectorCommandStart t s
  | .vectorCommandDone t ue => Sys2Proof.Machine.execVectorCommandDone t ue s
  | .moverCommandStart t => Sys2Proof.Machine.execMoverCommandStart t s
  | .moverCommandDone t slot event => Sys2Proof.Machine.execMoverCommandDone t slot event s
  | .tileReport t => Sys2Proof.Machine.execTileReport t s
  | .tileStop t => Sys2Proof.Machine.execTileStop t s
  | .haltReq t => Sys2Proof.Machine.execHaltReq t s
  | .tileResume t => Sys2Proof.Machine.execTileResume t s
  | .sstep t ue => Sys2Proof.Machine.execSstep t ue s
  | .tileMemData t write value => Sys2Proof.Machine.execTileMemData t write value s
  | .stepDone t => Sys2Proof.Machine.execStepDone t s
  | .traceReq t => Sys2Proof.Machine.execTraceReq t s
  | .stepInfo t => Sys2Proof.Machine.execStepInfo t s
  | .collectiveReq t => Sys2Proof.Machine.execCollectiveReq t s
  | .collTimeout who => Sys2Proof.Machine.execCollTimeout who s
  | .doorbell q wide value => Sys2Proof.Machine.execDoorbell q wide value s
  | .commandFetch q => Sys2Proof.Machine.execCommandFetch q s
  | .nopCommand q => Sys2Proof.Machine.execNopCommand q s
  | .stepCmd q => Sys2Proof.Machine.execStepCmd q s
  | .copyCmd q => Sys2Proof.Machine.execCopyCmd q s
  | .switchSet q => Sys2Proof.Machine.execSwitchSet q s
  | .snapshotCmd q => Sys2Proof.Machine.execSnapshotCmd q s
  | .snapshotReadDone q => Sys2Proof.Machine.execSnapshotReadDone q s
  | .snapData port => Sys2Proof.Machine.execSnapData port s
  | .snapDataReply port => Sys2Proof.Machine.execSnapDataReply port s
  | .snapDataTimeout q => Sys2Proof.Machine.execSnapDataTimeout q s
  | .migrateCmd q => Sys2Proof.Machine.execMigrateCmd q s
  | .migrateComplete q met => Sys2Proof.Machine.execMigrateComplete q met s
  | .beaconLoad q => Sys2Proof.Machine.execBeaconLoad q s
  | .collGroup q => Sys2Proof.Machine.execCollGroup q s
  | .collGroupFree q => Sys2Proof.Machine.execCollGroupFree q s
  | .commandComplete q => Sys2Proof.Machine.execCommandComplete q s
  | .contextEvict slot => Sys2Proof.Machine.execContextEvict slot s
  | .queueStop q => Sys2Proof.Machine.execQueueStop q s
  | .queueResume q => Sys2Proof.Machine.execQueueResume q s
  | .queueCancel q keep code => Sys2Proof.Machine.execQueueCancel q keep code s
  | .glintPassStart c => Sys2Proof.Machine.execGlintPassStart c s
  | .glintPassComplete p => Sys2Proof.Machine.execGlintPassComplete p s
  | .glintCntClear c => Sys2Proof.Machine.execGlintCntClear c s
  | .linkUp port reversed => Sys2Proof.Machine.execLinkUp port reversed s
  | .losRetry port => Sys2Proof.Machine.execLosRetry port s
  | .trainTimeout port => Sys2Proof.Machine.execTrainTimeout port s
  | .portRetrain port => Sys2Proof.Machine.execPortRetrain port s
  | .portCntClear port => Sys2Proof.Machine.execPortCntClear port s
  | .ethTailWrite port rx tail => Sys2Proof.Machine.execEthTailWrite port rx tail s
  | .ethFrameTransmit port => Sys2Proof.Machine.execEthFrameTransmit port s
  | .ethFrameReceive port frame => Sys2Proof.Machine.execEthFrameReceive port frame s
  | .groupSend port kind picks => Sys2Proof.Machine.execGroupSend port kind picks s
  | .groupReceive port data corrected uncorrectable => Sys2Proof.Machine.execGroupReceive port data corrected uncorrectable s
  | .retryTimeout port => Sys2Proof.Machine.execRetryTimeout port s
  | .resendRetrain port => Sys2Proof.Machine.execResendRetrain port s
  | .tagFailLimit port => Sys2Proof.Machine.execTagFailLimit port s
  | .rekeyStart port => Sys2Proof.Machine.execRekeyStart port s
  | .seqExhausted port => Sys2Proof.Machine.execSeqExhausted port s
  | .controlNop port => Sys2Proof.Machine.execControlNop port s
  | .linkRekey port => Sys2Proof.Machine.execLinkRekey port s
  | .linkRekeyAck port => Sys2Proof.Machine.execLinkRekeyAck port s
  | .linkJoin port => Sys2Proof.Machine.execLinkJoin port s
  | .linkJoinAck port => Sys2Proof.Machine.execLinkJoinAck port s
  | .joinTimeout port => Sys2Proof.Machine.execJoinTimeout port s
  | .linkLeave port => Sys2Proof.Machine.execLinkLeave port s
  | .linkLoss port => Sys2Proof.Machine.execLinkLoss port s
  | .drainEnd n => Sys2Proof.Machine.execDrainEnd n s
  | .linkHello port => Sys2Proof.Machine.execLinkHello port s
  | .linkSpdm port => Sys2Proof.Machine.execLinkSpdm port s
  | .linkKx port => Sys2Proof.Machine.execLinkKx port s
  | .linkRefuse port => Sys2Proof.Machine.execLinkRefuse port s
  | .setupTimeout port => Sys2Proof.Machine.execSetupTimeout port s
  | .refusedHelloRetry port => Sys2Proof.Machine.execRefusedHelloRetry port s
  | .collData port => Sys2Proof.Machine.execCollData port s
  | .groupHello port => Sys2Proof.Machine.execGroupHello port s
  | .peerNote port => Sys2Proof.Machine.execPeerNote port s
  | .shardReq port => Sys2Proof.Machine.execShardReq port s
  | .shardData port num => Sys2Proof.Machine.execShardData port num s
  | .shardTimeout num => Sys2Proof.Machine.execShardTimeout num s
  | .rehashShard visit => Sys2Proof.Machine.execRehashShard visit s
  | .shardRefetch p => Sys2Proof.Machine.execShardRefetch p s
  | .prismLineRead m space addr fault => Sys2Proof.Machine.execPrismLineRead m space addr fault s
  | .prismLineWrite m space addr data fault => Sys2Proof.Machine.execPrismLineWrite m space addr data fault s
  | .prismPartialWrite m space addr data fault => Sys2Proof.Machine.execPrismPartialWrite m space addr data fault s
  | .getVersion req => Sys2Proof.Machine.execGetVersion req s
  | .getCapabilities req => Sys2Proof.Machine.execGetCapabilities req s
  | .negotiateAlgorithms req => Sys2Proof.Machine.execNegotiateAlgorithms req s
  | .getDigests req => Sys2Proof.Machine.execGetDigests req s
  | .getCertificate req => Sys2Proof.Machine.execGetCertificate req s
  | .spdmChallenge req => Sys2Proof.Machine.execSpdmChallenge req s
  | .getMeasurements req => Sys2Proof.Machine.execGetMeasurements req s
  | .vendorDefinedRequest req => Sys2Proof.Machine.execVendorDefinedRequest req s
  | .provOpen conn => Sys2Proof.Machine.execProvOpen conn s
  | .provKey conn => Sys2Proof.Machine.execProvKey conn s
  | .provPolicy conn => Sys2Proof.Machine.execProvPolicy conn s
  | .provSessionTimeout conn => Sys2Proof.Machine.execProvSessionTimeout conn s
  | .gateHeaderRead g entry => Sys2Proof.Machine.execGateHeaderRead g entry s
  | .gateTimeout g => Sys2Proof.Machine.execGateTimeout g s
  | .gateCombineDone g => Sys2Proof.Machine.execGateCombineDone g s
  | .gateReleaseDone g => Sys2Proof.Machine.execGateReleaseDone g s
  | .memrd hpa fault => Sys2Proof.Machine.execMemrd hpa fault s
  | .memwr hpa data fault => Sys2Proof.Machine.execMemwr hpa data fault s
  | .memwrptl hpa mask data fault => Sys2Proof.Machine.execMemwrptl hpa mask data fault s
  | .ucieModuleFail m => Sys2Proof.Machine.execUcieModuleFail m s
  | .stewardRestart modules repaired => Sys2Proof.Machine.execStewardRestart modules repaired s
  | .mboxGo len => Sys2Proof.Machine.execMboxGo len s
  | .mctpControl req => Sys2Proof.Machine.execMctpControl req s
  | .glimmerScrub c place fault lapEnd => Sys2Proof.Machine.execGlimmerScrub c place fault lapEnd s
  | .floodVerify mask => Sys2Proof.Machine.execFloodVerify mask s
  | .floodlightComplete c met => Sys2Proof.Machine.execFloodlightComplete c met s
  | .captureStageComplete p => Sys2Proof.Machine.execCaptureStageComplete p s
  | .captureSendComplete p => Sys2Proof.Machine.execCaptureSendComplete p s
  | .reserveTimeout p mirror => Sys2Proof.Machine.execReserveTimeout p mirror s
  | .mirrorWrite port => Sys2Proof.Machine.execMirrorWrite port s
  | .reflReserve port => Sys2Proof.Machine.execReflReserve port s
  | .reflGrant port => Sys2Proof.Machine.execReflGrant port s
  | .reflDecline port => Sys2Proof.Machine.execReflDecline port s
  | .reflPrepare port => Sys2Proof.Machine.execReflPrepare port s
  | .reflPrepared port => Sys2Proof.Machine.execReflPrepared port s
  | .reflCommit port => Sys2Proof.Machine.execReflCommit port s
  | .reflCommitted port => Sys2Proof.Machine.execReflCommitted port s
  | .reflFetch port => Sys2Proof.Machine.execReflFetch port s
  | .reflRecord port => Sys2Proof.Machine.execReflRecord port s
  | .reflNone port => Sys2Proof.Machine.execReflNone port s
  | .reflDone port => Sys2Proof.Machine.execReflDone port s
  | .reflRelease port => Sys2Proof.Machine.execReflRelease port s
  | .reflLost port => Sys2Proof.Machine.execReflLost port s
  | .reflRestore p => Sys2Proof.Machine.execReflRestore p s
  | .restoreTimeout p => Sys2Proof.Machine.execRestoreTimeout p s
  | .restoreComplete p => Sys2Proof.Machine.execRestoreComplete p s
  | .reflCtrlRelease p => Sys2Proof.Machine.execReflCtrlRelease p s
  | .lcStatus req => Sys2Proof.Machine.execLcStatus req s
  | .lcNonce req => Sys2Proof.Machine.execLcNonce req s
  | .lcTransition req feedDrop flashFail => Sys2Proof.Machine.execLcTransition req feedDrop flashFail s
  | .certStore req => Sys2Proof.Machine.execCertStore req s
  | .stageBegin req => Sys2Proof.Machine.execStageBegin req s
  | .stageData req => Sys2Proof.Machine.execStageData req s
  | .stageFinish req => Sys2Proof.Machine.execStageFinish req s
  | .stageAbort req => Sys2Proof.Machine.execStageAbort req s
  | .setSettings req => Sys2Proof.Machine.execSetSettings req s
  | .debugToken req => Sys2Proof.Machine.execDebugToken req s
  | .debugRevoke req => Sys2Proof.Machine.execDebugRevoke req s
  | .wearStatus req => Sys2Proof.Machine.execWearStatus req s
  | .jtagSample preload => Sys2Proof.Machine.execJtagSample preload s
  | .registerWrite target value => Sys2Proof.Machine.execRegisterWrite target value s
  | .lossOfSignal port => Sys2Proof.Machine.execLossOfSignal port s
  | .debugAccessPortAccess write space addr data => Sys2Proof.Machine.execDebugAccessPortAccess write space addr data s
  | .paramRoot p rank root => Sys2Proof.Machine.execParamRoot p rank root s
  | .replicaComparisonTimeout p => Sys2Proof.Machine.execReplicaComparisonTimeout p s
  | .loadBinChange c bin => Sys2Proof.Machine.execLoadBinChange c bin s
  | .powerLoss => Sys2Proof.Machine.execPowerLoss s
  | .resetInN => Sys2Proof.Machine.execResetInN s
  | .resetInNRelease => Sys2Proof.Machine.execResetInNRelease s
  | .refclkLoss => Sys2Proof.Machine.execRefclkLoss s
  | .refclkReturn => Sys2Proof.Machine.execRefclkReturn s
  | .hubWatchdog => Sys2Proof.Machine.execHubWatchdog s
  | .resetCtrlModule => Sys2Proof.Machine.execResetCtrlModule s
  | .resetCtrlHubWarm => Sys2Proof.Machine.execResetCtrlHubWarm s
  | .calibPass => Sys2Proof.Machine.execCalibPass s
  | .calibPassComplete => Sys2Proof.Machine.execCalibPassComplete s
  | .frameLoadComplete => Sys2Proof.Machine.execFrameLoadComplete s
  | .fabCntClear => Sys2Proof.Machine.execFabCntClear s
  | .collectiveStart => Sys2Proof.Machine.execCollectiveStart s
  | .slotAssign => Sys2Proof.Machine.execSlotAssign s
  | .queueCreate => Sys2Proof.Machine.execQueueCreate s
  | .queueDestroy => Sys2Proof.Machine.execQueueDestroy s
  | .fenceErr => Sys2Proof.Machine.execFenceErr s
  | .ctxTableLock => Sys2Proof.Machine.execCtxTableLock s
  | .hashLapStart => Sys2Proof.Machine.execHashLapStart s
  | .beaconCntClear => Sys2Proof.Machine.execBeaconCntClear s
  | .prismCntClear => Sys2Proof.Machine.execPrismCntClear s
  | .keyAlloc => Sys2Proof.Machine.execKeyAlloc s
  | .keyRetire => Sys2Proof.Machine.execKeyRetire s
  | .keyRotate => Sys2Proof.Machine.execKeyRotate s
  | .keyRead => Sys2Proof.Machine.execKeyRead s
  | .ownerRegister => Sys2Proof.Machine.execOwnerRegister s
  | .ownerRegisterJoint => Sys2Proof.Machine.execOwnerRegisterJoint s
  | .ownerUnregister => Sys2Proof.Machine.execOwnerUnregister s
  | .ownerRead => Sys2Proof.Machine.execOwnerRead s
  | .functionLevelReset => Sys2Proof.Machine.execFunctionLevelReset s
  | .stewardCtrlReset => Sys2Proof.Machine.execStewardCtrlReset s
  | .mboxResponse => Sys2Proof.Machine.execMboxResponse s
  | .scrubCntClear => Sys2Proof.Machine.execScrubCntClear s
  | .stageTimeout => Sys2Proof.Machine.execStageTimeout s
  | .debugTokenExpiry => Sys2Proof.Machine.execDebugTokenExpiry s
  | .nonceExpiry => Sys2Proof.Machine.execNonceExpiry s
  | .jtagBypass => Sys2Proof.Machine.execJtagBypass s
  | .jtagIdcode => Sys2Proof.Machine.execJtagIdcode s
  | .jtagExtest => Sys2Proof.Machine.execJtagExtest s
  | .refclkArrival => Sys2Proof.Machine.execRefclkArrival s

end Sys2Proof.Machine
end

