-- ==== Sys2Proof/Machine/Idle.lean ====
section
/-!
DEFINITION. What the block does when no command waits.
-/

namespace Sys2Proof.Machine

/-- One SCLK period with no command waiting: TIME_SCLK counts while the Pilot island is powered
(18_power_clocks_and_reset.md R432; assumption log 9). -/
def State.idle (s : State) : State :=
  if s.pilot.powered then s.set Reg.TIME_SCLK_COUNT (s.get Reg.TIME_SCLK_COUNT + 1) else s

end Sys2Proof.Machine
end

