-- ==== Sys2Proof/Safety.lean ====
section
/-!
DEFINITION. What counts as a safe run: a step that answers a next state, and the canonical form of a state's tables, in
which equal contents are equal data.
-/

namespace Sys2Proof.Machine

/-- Does the step of a state answer a next state? -/
def State.stepsOn (s : State) : Prop := ∃ t, step s = .next t

/-- The canonical form of device memory: bytes, lines and counters by rising place, none listed that equals what an
unlisted one reads as. -/
def Memory.wf (m : Mem) : Bool := smapWf 0 m.bytes && smapWf Line.fresh m.lines && smapWf 0 m.majors

/-- The canonical form of a state: the register file, the tiles, the partitions and device memory. -/
def State.canon (s : State) : Prop :=
  smapSorted s.regs = true ∧ smapWf Tile.reset s.tiles = true ∧ smapWf Part.empty s.parts = true ∧ Memory.wf s.mem = true

/-! ## What a tile instruction needs to complete with its own effect (04_tile_core.md R88, R92, R114) -/

/-- The tile executes, does not single-step, and its PC is not the last instruction's. -/
def State.plain (s : State) (t : Nat) : Prop :=
  s.canon ∧ s.runs t = true ∧ (s.tile t).stepping = false ∧ (s.tile t).pc < 32767

/-- An instruction with a guard issues and its guard passes. -/
def State.issues (s : State) (t : Nat) (gd : Guard) : Prop := s.plain t ∧ (s.tile t).guard gd = true

/-- The tile once its instruction has ended: the PC moved on by one, the issue cycles counted. -/
def Tile.retired (x : Tile) (cycles : Nat) : Tile :=
  { x with pc := x.pc + 1, cycle := x.cycle + BitVec.ofNat 64 cycles }

/-- The tile once a taken branch has ended, which costs 3 cycles (04_tile_core.md R92). -/
def Tile.jumped (x : Tile) (tgt : Nat) : Tile := { x with pc := tgt, cycle := x.cycle + 3 }

/-- The next state in which only one tile has changed. -/
def State.withTile (s : State) (t : Nat) (x : Tile) : Res := .next (s.setTile t x)

end Sys2Proof.Machine
end

