-- ==== Sys2Proof/Certificates/Slice0/Obligations.lean ====
section
/-!
DEFINITION. The statements for the provers: one definition each, named by what it states. The rules R<n> are those of spec/,
and the numbers of the assumption log are named where a statement rests on a choice of the model's.
-/

open Sys2Proof Sys2Proof.Machine

/-- A step takes the command at the front of the queue and answers what the command does on the state with the rest of the queue; on an empty queue the block idles for one SCLK period (the model's choice: log 9). -/
def Obligations.CommandAtFrontRuns : Prop :=
  (∀ (c : Instr) (rest : List Instr) (s : State), s.pending = c :: rest → step s = exec c { s with pending := rest }) ∧
  ∀ s : State, s.pending = [] → step s = .next s.idle

/-- R91, R92: what every instruction of formats R, I and U that computes a register writes, and its issue cycles. `rd` may be g0, which discards the write (R86, setG). -/
def Obligations.AluRegisterResults : Prop :=
  ∀ (s : State) (t : TileIx) (gd : Guard) (rd a b : GReg) (i : BitVec 12) (sh : BitVec 6) (hw : Fin 4) (im : BitVec 16),
    s.canon →
    let x := s.tile t
    let u := x.getG a
    let v := x.getG b
    let put : Nat → Word → Res := fun n r => s.withTile t ((x.setG rd r).retired n)
    (s.issues t gd →
      exec (.add t gd rd a b) s = put 1 (u + v) ∧
      exec (.sub t gd rd a b) s = put 1 (u - v) ∧
      exec (.and t gd rd a b) s = put 1 (u &&& v) ∧
      exec (.or t gd rd a b) s = put 1 (u ||| v) ∧
      exec (.xor t gd rd a b) s = put 1 (u ^^^ v) ∧
      exec (.sll t gd rd a b) s = put 1 (u <<< (v.toNat % 64)) ∧
      exec (.srl t gd rd a b) s = put 1 (u >>> (v.toNat % 64)) ∧
      exec (.sra t gd rd a b) s = put 1 (u.sshiftRight (v.toNat % 64)) ∧
      exec (.mul t gd rd a b) s = put 1 (BitVec.ofNat 64 (u.toNat * v.toNat)) ∧
      exec (.mulhu t gd rd a b) s = put 1 (BitVec.ofNat 64 (u.toNat * v.toNat / 2 ^ 64)) ∧
      exec (.divu t gd rd a b) s =
        put 34 (if v = 0 then BitVec.ofNat 64 (2 ^ 64 - 1) else BitVec.ofNat 64 (u.toNat / v.toNat)) ∧
      exec (.remu t gd rd a b) s = put 34 (if v = 0 then u else BitVec.ofNat 64 (u.toNat % v.toNat)) ∧
      exec (.smin t gd rd a b) s = put 1 (if u.toInt < v.toInt then u else v) ∧
      exec (.smax t gd rd a b) s = put 1 (if u.toInt < v.toInt then v else u) ∧
      exec (.minu t gd rd a b) s = put 1 (if u.toNat < v.toNat then u else v) ∧
      exec (.maxu t gd rd a b) s = put 1 (if u.toNat < v.toNat then v else u) ∧
      exec (.popc t gd rd a) s =
        put 1 (BitVec.ofNat 64 ((List.range 64).filter fun k => u.toNat / 2 ^ k % 2 = 1).length) ∧
      (∀ z : Nat, z ≤ 64 → u.toNat < 2 ^ (64 - z) → (z = 64 ∨ 2 ^ (63 - z) ≤ u.toNat) →
        exec (.clz t gd rd a) s = put 1 (BitVec.ofNat 64 z)) ∧
      exec (.addi t gd rd a i) s = put 1 (u + i.signExtend 64) ∧
      exec (.andi t gd rd a i) s = put 1 (u &&& i.signExtend 64) ∧
      exec (.ori t gd rd a i) s = put 1 (u ||| i.signExtend 64) ∧
      exec (.xori t gd rd a i) s = put 1 (u ^^^ i.signExtend 64) ∧
      exec (.slli t gd rd a sh) s = put 1 (u <<< sh.toNat) ∧
      exec (.srli t gd rd a sh) s = put 1 (u >>> sh.toNat) ∧
      exec (.srai t gd rd a sh) s = put 1 (u.sshiftRight sh.toNat)) ∧
    (s.plain t →
      exec (.movz t rd hw im) s = put 1 (im.zeroExtend 64 <<< (16 * hw.val)) ∧
      exec (.movk t rd hw im) s =
        put 1 ((x.getG rd &&& ~~~((0xFFFF : Word) <<< (16 * hw.val))) ||| (im.zeroExtend 64 <<< (16 * hw.val))))

/-- R91, R92, R107: the predicates, the event counters and the PC. -/
def Obligations.PredicateAndCounterResults : Prop :=
  ∀ (s : State) (t : TileIx) (gd : Guard) (rd a b : GReg) (pd pa pb cond : Fin 8) (fn : Fin 4) (i : BitVec 12) (i11 : BitVec 11)
    (ek : Fin 16) (tgt : Fin 32768), s.canon → s.issues t gd →
    let x := s.tile t
    let cmp : Word → Word → Bool := fun u v =>
      match cond.val with
      | 0 => u = v
      | 1 => u ≠ v
      | 2 => u.toInt < v.toInt
      | 3 => v.toInt ≤ u.toInt
      | 4 => u.toNat < v.toNat
      | 5 => v.toNat ≤ u.toNat
      | 6 => u &&& v ≠ 0
      | _ => u &&& v = 0
    let go := (x.getG a + i.signExtend 64).toNat
    exec (.cmp t gd pd cond a b) s = s.withTile t ((x.setP pd (cmp (x.getG a) (x.getG b))).retired 1) ∧
    exec (.cmpi t gd pd cond a i11) s = s.withTile t ((x.setP pd (cmp (x.getG a) (i11.signExtend 64))).retired 1) ∧
    exec (.plog t gd pd pa pb fn) s = s.withTile t ((x.setP pd (match fn.val with
      | 0 => x.getP pa && x.getP pb
      | 1 => x.getP pa || x.getP pb
      | 2 => Bool.xor (x.getP pa) (x.getP pb)
      | _ => x.getP pa && !x.getP pb)).retired 1) ∧
    exec (.evadd t gd a ek) s =
      s.withTile t (({ x with e := x.e.set ek.val (x.e[ek.val] + (x.getG a).setWidth 32) } : Tile).retired 1) ∧
    exec (.evrd t gd rd ek) s = s.withTile t ((x.setG rd ((x.e[ek.val]).zeroExtend 64)).retired 1) ∧
    exec (.nop t gd) s = s.withTile t (x.retired 1) ∧
    exec (.br t gd tgt) s = s.withTile t (x.jumped tgt.val) ∧
    exec (.call t gd tgt) s = s.withTile t ((x.setG 31 (BitVec.ofNat 64 (x.pc + 1))).jumped tgt.val) ∧
    (go ≤ 32767 → exec (.jr t gd a i) s = s.withTile t (x.jumped go)) ∧
    (32767 < go → exec (.jr t gd a i) s = .next (s.tileExc t 0x0307))

/-- R88: every instruction but MOVZ and MOVK carries a guard; it executes when p[PG] differs from PN; when the guard fails it takes one cycle and has no effect. -/
def Obligations.GuardDecidesExecution : Prop :=
  (∀ (i : Instr) (s : State) (t : TileIx) (gd : Guard), guardOf i = some (t, gd) → s.canon → s.plain t →
    (s.tile t).guard gd = false →
    (match i with
     | .send _ _ reg _ n _ _ => badRange reg n = false
     | .recv _ _ reg _ n _ _ _ => badRange reg n = false
     | _ => True) →
    exec i s = s.withTile t ((s.tile t).retired 1)) ∧
  (∀ (x : Tile) (gd : Guard), x.guard gd = true ↔ x.getP gd.pg ≠ gd.pn) ∧
  (∀ x : Tile, x.guard ⟨0, false⟩ = true ∧ x.guard ⟨0, true⟩ = false) ∧
  ∀ (t : TileIx) (rd : GReg) (hw : Fin 4) (im : BitVec 16),
    guardOf (.movz t rd hw im) = none ∧ guardOf (.movk t rd hw im) = none

/-- R90, R109: the words that raise 0x0307 whether or not their guard passes. The command carries the word; a word that is an instruction changes nothing (the model's choice: log 12), and a fetch that meets an uncorrectable error raises 0x0201 (carried by this command: log 127). -/
def Obligations.IllegalWordsRaise : Prop :=
  (∀ (s : State) (t : TileIx) (w : BitVec 32), s.runs t = true → tileDecode t w = .illegalInstruction t (some w) →
    exec (.illegalInstruction t (some w)) s = .next (s.tileExc t 0x0307)) ∧
  (∀ (s : State) (t : TileIx), s.runs t = true →
    exec (.illegalInstruction t none) s = .next (s.tileUe t 1 (4 * (s.tile t).pc))) ∧
  ∀ (t : TileIx) (w : BitVec 32),
    let op := w.toNat / 2 ^ 26
    let n := w.toNat / 2 ^ 7 % 16
    let reg := w.toNat / 2 ^ 17 % 32
    (op = 0 → tileDecode t w = .illegalInstruction t (some w)) ∧
    (op = 1 → 0x11 < w.toNat % 128 → tileDecode t w = .illegalInstruction t (some w)) ∧
    ((op = 0x1C ∨ op = 0x1D) → (8 < n ∨ 32 < reg + n) → tileDecode t w = .illegalInstruction t (some w)) ∧
    (op = 0x30 → w.toNat % 2 ^ 22 ≠ 0 → tileDecode t w = .illegalInstruction t (some w))

/-- R89, R91: decode of encode, for all instructions of the tile core and every value of their operands. -/
def Obligations.TileWordRoundTrip : Prop :=
  ∀ (i : Instr) (w : BitVec 32), tileEncode i = some w → ∃ t : TileIx, tileDecode t w = i

/-- R89 to R91: the other direction, so no bit of a word is dropped and no two words are one instruction. -/
def Obligations.TileWordsAreDistinct : Prop :=
  ∀ (t : TileIx) (w : BitVec 32),
    tileDecode t w = .illegalInstruction t (some w) ∨ tileEncode (tileDecode t w) = some w

/-- 04_tile_core.md, worked example: seven words written out there. -/
def Obligations.WorkedExampleWordsDecode : Prop :=
  ∀ t : TileIx,
    tileDecode t 0x080A5001 = .addi t ⟨0, false⟩ 5 5 1 ∧
    tileDecode t 0x98005000 = .waite t ⟨0, false⟩ 5 0 ∧
    tileDecode t 0x880CA000 = .mvi t ⟨0, false⟩ 6 10 0 false ∧
    tileDecode t 0x90006000 = .waitt t ⟨0, false⟩ 6 ∧
    tileDecode t 0x800EA001 = .mxi t ⟨0, false⟩ 7 10 1 false ∧
    tileDecode t 0x700A1880 = .send t ⟨0, false⟩ 5 3 1 0 false ∧
    tileDecode t 0x60000040 = .br t ⟨0, false⟩ 0x40

/-- R93, R94. A word that a command in progress writes reads as what it holds or as what one of them writes there; which is free (log 1). -/
def Obligations.ScratchpadAccess : Prop :=
  ∀ (s : State) (t : TileIx) (gd : Guard) (rd rs1 : GReg) (i : BitVec 12) (n : Nat) (ld st : Instr), s.canon → s.issues t gd →
    (n, ld, st) ∈ [(1, Instr.ldb t gd rd rs1 i false, Instr.stb t gd rd rs1 i false),
      (2, Instr.ldh t gd rd rs1 i false, Instr.sth t gd rd rs1 i false),
      (4, Instr.ldw t gd rd rs1 i false, Instr.stw t gd rd rs1 i false),
      (8, Instr.ldd t gd rd rs1 i false, Instr.std t gd rd rs1 i false)] →
    let x := s.tile t
    let a := ((x.getG rs1).toNat + (i.signExtend 64 : Word).toNat * n) % 2 ^ 64
    if a < 0x200000 ∧ a % n = 0 then
      (x.wordInFlight (a / 8) = false →
        exec ld s = s.withTile t ((x.setG rd (BitVec.ofNat 64 (leNat (x.readSp a n)))).retired 1)) ∧
      (x.wordInFlight (a / 8) = true → ∃ v ∈ s.wordValues t (a / 8),
        exec ld s = s.tick.withTile t ((x.setG rd (BitVec.ofNat 64 (v.toNat / 256 ^ (a % 8) % 256 ^ n))).retired 1)) ∧
      (∃ y : Tile, exec st s = s.withTile t y ∧ y.readSp a n = leBytes n (x.getG rd).toNat ∧ y.g = x.g ∧ y.p = x.p ∧
        y.pc = x.pc + 1 ∧ (∀ k, k < a ∨ a + n ≤ k → y.readSp k 1 = x.readSp k 1))
    else exec ld s = .next (s.tileExc t 0x0306) ∧ exec st s = .next (s.tileExc t 0x0306)

/-- The frame of the instructions that compute a register, and of the predicate and counter instructions, under any guard. -/
def Obligations.TileInstructionFrame : Prop :=
  ∀ (s u : State) (t : TileIx) (gd : Guard) (rd a b : GReg) (pd pa pb cond : Fin 8) (fn : Fin 4) (i : BitVec 12)
    (i11 : BitVec 11) (sh : BitVec 6) (ek : Fin 16) (c : Instr), s.canon → s.plain t → exec c s = .next u →
    let reg := c ∈ [Instr.add t gd rd a b, .sub t gd rd a b, .and t gd rd a b, .or t gd rd a b, .xor t gd rd a b,
      .sll t gd rd a b, .srl t gd rd a b, .sra t gd rd a b, .mul t gd rd a b, .mulhu t gd rd a b, .divu t gd rd a b,
      .remu t gd rd a b, .smin t gd rd a b, .smax t gd rd a b, .minu t gd rd a b, .maxu t gd rd a b, .popc t gd rd a,
      .clz t gd rd a, .addi t gd rd a i, .andi t gd rd a i, .ori t gd rd a i, .xori t gd rd a i, .slli t gd rd a sh,
      .srli t gd rd a sh, .srai t gd rd a sh, .evrd t gd rd ek]
    let prd := c ∈ [Instr.cmp t gd pd cond a b, .cmpi t gd pd cond a i11, .plog t gd pd pa pb fn]
    let evt := c ∈ [Instr.evadd t gd a ek]
    reg ∨ prd ∨ evt ∨ c = .nop t gd →
    u = { s with tiles := u.tiles } ∧ (∀ k : Nat, k ≠ t.val → u.tile k = s.tile k) ∧
    (∀ r : Fin 32, (r = rd → ¬ reg) → (u.tile t).g[r.val] = (s.tile t).g[r.val]) ∧
    (∀ q : Fin 8, (q = pd → ¬ prd) → (u.tile t).p[q.val] = (s.tile t).p[q.val]) ∧
    (∀ k : Fin 16, (k = ek → ¬ evt) → (u.tile t).e[k.val] = (s.tile t).e[k.val]) ∧
    u.tile t = { s.tile t with g := (u.tile t).g, p := (u.tile t).p, e := (u.tile t).e, pc := (s.tile t).pc + 1,
                               cycle := (u.tile t).cycle }

/-- R90, R91, R92, R95, R96, R98: the four channel instructions on each kind of endpoint. A ready SEND or RECV also counts in the partition's MSG_PKTS (R49). -/
def Obligations.ChannelSendAndReceive : Prop :=
  ∀ (s : State) (t : TileIx) (gd : Guard) (reg : GReg) (ch : Fin 64) (n : Fin 16) (pd : Fin 8) (nb : Bool), s.canon →
    s.issues t gd → badRange reg n = false →
    let x := s.tile t
    let e := x.ep ch
    let cyc := 1 + n.val / 2
    let words := (List.range n).map fun i => if h : reg.val + i < 32 then x.getG ⟨reg.val + i, h⟩ else 0
    (e.kind = .msg → 0 < e.credits → ∃ u y, exec (.send t gd reg ch n pd nb) s = .next u ∧ u.tile t = y ∧
      u.fab.net = s.fab.net ++ [{ kind := .data, srcTile := t.val, srcEp := ch.val, dstTile := e.peerTile,
                                  dstEp := e.peerEp, words := words, flags := 0, code := 0 }] ∧
      y.ep ch = { e with credits := e.credits - 1 } ∧ y.g = x.g ∧ (nb = true → y.getP pd = true) ∧ y.scratch = x.scratch ∧
      y.pc = x.pc + 1 ∧ y.cycle = x.cycle + BitVec.ofNat 64 cyc) ∧
    (e.kind = .hub → e.service = 0 → 0 < e.credits → x.unitsIdle 7 = true →
      ∃ u y, exec (.send t gd reg ch n pd nb) s = .next u ∧ u.tile t = y ∧
      u.fab.net = s.fab.net ++ [{ kind := .request 0, srcTile := t.val, srcEp := ch.val, dstTile := e.peerTile,
                                  dstEp := e.peerEp, words := words, flags := x.unitFlags, code := 0 }] ∧
      y.ep ch = { e with credits := e.credits - 1 } ∧ y.unitFlags = 0 ∧ y.pc = x.pc + 1) ∧
    (e.kind = .msg → e.credits = 0 →
      exec (.send t gd reg ch n pd true) s = s.withTile t (({ x with wait := none }.setP pd false).retired cyc) ∧
      exec (.send t gd reg ch n pd false) s = s.withTile t { x with wait := some (.sendWait ch reg n pd false) }) ∧
    (∀ (q : Packet) (rest : List Packet), e.kind = .msg → e.queue = q :: rest →
      ∃ u y, exec (.recv t gd reg ch n pd nb false) s = .next u ∧ u.tile t = y ∧
      u.fab.net = s.fab.net ++ [{ kind := .credit, srcTile := t.val, srcEp := ch.val, dstTile := e.peerTile,
                                  dstEp := e.peerEp, words := [], flags := 0, code := 1 }] ∧
      y.ep ch = { e with queue := rest } ∧
      (∀ r : Fin 32, r ≠ 0 → y.g[r.val] =
        if reg.val ≤ r.val ∧ r.val < reg.val + n.val then q.words.getD (r.val - reg.val) 0 else x.g[r.val]) ∧
      y.recvInfo = recvInfo q.words.length q.srcEp (tileId q.srcTile) ∧ (nb = true → y.getP pd = true) ∧
      y.pc = x.pc + 1) ∧
    (e.kind = .msg → e.queue = [] →
      exec (.recv t gd reg ch n pd true false) s = s.withTile t ((x.setP pd false).retired cyc) ∧
      exec (.recv t gd reg ch n pd false false) s = s.withTile t { x with wait := some (.recvWait ch reg n pd false) }) ∧
    (e.kind ≠ .msg → e.kind ≠ .hub → exec (.send t gd reg ch n pd nb) s = .next (s.tileExc t 0x0302) ∧
      exec (.recv t gd reg ch n pd nb false) s = .next (s.tileExc t 0x0302)) ∧
    (e.kind = .sin →
      exec (.ravail t gd reg ch) s = s.withTile t ((x.setG reg (BitVec.ofNat 64 e.ready)).retired 1) ∧
      let k := (x.getG reg).toNat
      (k % 64 = 0 → k ≤ e.ready → ∃ y, exec (.rrel t gd reg ch) s = s.withTile t y ∧ y.g = x.g ∧ y.scratch = x.scratch ∧
        (y.ep ch).ready = e.ready - k ∧ (y.ep ch).ringBase = e.ringBase ∧
        (0 < e.ringSize → (y.ep ch).head = (e.head + k) % e.ringSize)) ∧
      (¬ (k % 64 = 0 ∧ k ≤ e.ready) → exec (.rrel t gd reg ch) s = .next (s.tileExc t 0x0306))) ∧
    (e.kind ≠ .sin → exec (.ravail t gd reg ch) s = .next (s.tileExc t 0x0302) ∧
      exec (.rrel t gd reg ch) s = .next (s.tileExc t 0x0302))

/-- R91, R92, R100, R108: the waits, and the two commands that end one. A WAIT_RESUME while the condition does not hold changes nothing (the model's choice: log 12). -/
def Obligations.TicketsEventsAndWaits : Prop :=
  ∀ (s : State) (t : TileIx), s.canon →
    let x := s.tile t
    let hold : Wait → Tile := fun w => { x with wait := some w }
    (∀ (gd : Guard) (rs1 : GReg) (pd : Fin 8) (ek : Fin 16) (m : BitVec 3), s.issues t gd →
      let v := x.getG rs1
      let dist := fun a b : Nat => (a + 2 ^ 32 - b) % 2 ^ 32
      (2 ^ 32 * 3 ≤ v.toNat → exec (.waitt t gd rs1) s = .next (s.tileExc t 0x030A) ∧
        exec (.testt t gd rs1 pd) s = .next (s.tileExc t 0x030A)) ∧
      (∀ c : BitVec 32, (v.toNat / 2 ^ 32, c) ∈ [(0, x.cubeDone), (1, x.vecDone), (2, x.movDone)] →
        let done : Bool := v = 0 || dist c.toNat (v.toNat % 2 ^ 32) < 2 ^ 31
        exec (.testt t gd rs1 pd) s = s.withTile t ((x.setP pd done).retired 1) ∧
        exec (.waitt t gd rs1) s = s.withTile t (if done then x.retired 1 else hold (.ticket v))) ∧
      exec (.waite t gd rs1 ek) s = s.withTile t
        (if dist (x.e[ek.val]).toNat (v.toNat % 2 ^ 32) < 2 ^ 31 then x.retired 1 else hold (.event ek (v.setWidth 32))) ∧
      exec (.waitu t gd m) s = s.withTile t
        (if (m.getLsbD 0 = true → x.cubeQ = []) ∧ (m.getLsbD 1 = true → x.vecQ = []) ∧ (m.getLsbD 2 = true → x.movQ = [])
         then x.retired 1 else hold (.units m))) ∧
    (∀ w : Wait, x.wait = some w → (∃ v, w = .ticket v) ∨ (∃ k v, w = .event k v) ∨ (∃ m, w = .units m) → x.halted = false →
      (s.active t = true → x.waitOver = true → x.stepping = false → x.pc < 32767 →
        exec (.waitResume t) s = s.withTile t ({ x with wait := none }.retired 1)) ∧
      (x.waitOver = false → exec (.waitResume t) s = .next s) ∧
      (x.waitLimit ≠ 0 → x.waitOver = false → exec (.waitLimitExpiry t) s = .next (s.tileExc t 0x0309)))

/-- R99, R100, R103 to R105. A word of the descriptor that a command in progress writes reads as one of its values (R94; log 1). A misaligned descriptor raises 0x0306 (log 13). -/
def Obligations.UnitCommandIssue : Prop :=
  ∀ (s : State) (t : TileIx) (gd : Guard) (rd rs1 : GReg) (i : BitVec 12) (u : UnitKind) (c : Instr), s.canon →
    s.issues t gd →
    (u, c) ∈ [(UnitKind.cube, Instr.mxi t gd rd rs1 i false), (.vector, .vxi t gd rd rs1 i false),
      (.mover, .mvi t gd rd rs1 i false)] →
    let x := s.tile t
    let a := ((x.getG rs1).toNat + (i.signExtend 64 : Word).toNat * 64) % 2 ^ 64
    let desc := (List.range 8).map fun k => s.seeWord t (a / 8 + k)
    let num := if u = .cube then 0 else if u = .vector then 1 else 2
    (¬ (a < 0x200000 ∧ a % 64 = 0) → exec c s = .next (s.tileExc t 0x0306)) ∧
    (a < 0x200000 → a % 64 = 0 → (∀ k < 8, x.wordInFlight (a / 8 + k) = false) → desc = x.readDesc a) ∧
    (a < 0x200000 → a % 64 = 0 →
      (∀ code, descCheck x u desc = some code → exec c s = .next (s.tick.tileExc t code)) ∧
      (descCheck x u desc = none → (x.queue u).length < (if u = .mover then 16 else 8) →
        ∃ y q, exec c s = s.tick.withTile t y ∧ y.queue u = x.queue u ++ [q] ∧ q.desc = desc ∧ q.phase = .queued ∧
          q.seq = x.unitIssued u + 1 ∧ y.unitIssued u = x.unitIssued u + 1 ∧ y.unitDone u = x.unitDone u ∧
          (rd ≠ 0 → y.getG rd = BitVec.ofNat 64 ((x.unitIssued u + 1).toNat + num * 2 ^ 32)) ∧
          (∀ r, r ≠ rd → y.getG r = x.getG r) ∧ (∀ v, v ≠ u → y.queue v = x.queue v) ∧ y.scratch = x.scratch ∧
          y.pc = x.pc + 1 ∧ y.cycle = x.cycle + 2) ∧
      (descCheck x u desc = none → (x.queue u).length = (if u = .mover then 16 else 8) →
        exec c s = s.tick.withTile t { x with wait := some (.issue u rd desc) }))

/-- R107, R115, R186. CSR 3 (CYCLE) reads the cycles the model counts and a free number of further ones (log 10), so its value is left out here. -/
def Obligations.CsrReadsAndWrites : Prop :=
  ∀ (s : State) (t : TileIx) (gd : Guard) (rd rs1 : GReg), s.canon → s.issues t gd →
    let x := s.tile t
    let v := x.getG rs1
    let got : BitVec 12 → Nat → Prop := fun k n =>
      exec (.csrr t gd rd k) s = s.withTile t ((x.setG rd (BitVec.ofNat 64 n)).retired 1)
    let put : BitVec 12 → Tile → Prop := fun k y => exec (.csrw t gd rs1 k) s = s.withTile t (y.retired 1)
    got 0 (t.val / 384 * 512 + t.val % 384 / 24 * 32 + t.val % 24) ∧
    got 4 (1 + (if x.p[1] then 2 else 0) + (if x.p[2] then 4 else 0) + (if x.p[3] then 8 else 0) +
      (if x.p[4] then 16 else 0) + (if x.p[5] then 32 else 0) + (if x.p[6] then 64 else 0) + (if x.p[7] then 128 else 0)) ∧
    got 5 ((if x.mxSat then 1 else 0) + (if x.mxNan then 2 else 0) + (if x.vxSat then 4 else 0) +
      (if x.vxNan then 8 else 0)) ∧
    got 6 x.waitLimit.toNat ∧ got 7 x.recvInfo.toNat ∧ got 8 x.cubeDone.toNat ∧ got 9 x.vecDone.toNat ∧
    got 0xA x.movDone.toNat ∧
    (∀ k : Fin 16, got (BitVec.ofNat 12 (0x10 + k.val)) (x.evSrc[k.val]).toNat) ∧
    (∀ k : Fin 4, got (BitVec.ofNat 12 (0x100 + 16 * k.val)) ((x.rng[k.val]).key.toNat % 2 ^ 64) ∧
      got (BitVec.ofNat 12 (0x101 + 16 * k.val)) ((x.rng[k.val]).key.toNat / 2 ^ 64) ∧
      got (BitVec.ofNat 12 (0x102 + 16 * k.val)) ((x.rng[k.val]).ctr.toNat % 2 ^ 64) ∧
      got (BitVec.ofNat 12 (0x103 + 16 * k.val)) ((x.rng[k.val]).ctr.toNat / 2 ^ 64)) ∧
    (∀ k : BitVec 12, k.toNat < 4 ∨ (6 < k.toNat ∧ k.toNat < 0xB) → put k x) ∧
    (∃ y, put 4 y ∧ (∀ j : Fin 8, y.getP j = if j = 0 then true else v.getLsbD j.val) ∧ y = { x with p := y.p }) ∧
    put 5 { x with mxSat := x.mxSat && !v.getLsbD 0, mxNan := x.mxNan && !v.getLsbD 1,
                   vxSat := x.vxSat && !v.getLsbD 2, vxNan := x.vxNan && !v.getLsbD 3 } ∧
    put 6 { x with waitLimit := v.setWidth 32 } ∧
    (∀ k : Fin 16, let c : BitVec 12 := BitVec.ofNat 12 (0x10 + k.val)
      if x.evSrcOk v.toNat then put c { x with evSrc := x.evSrc.set k.val (v.setWidth 9) }
      else exec (.csrw t gd rs1 c) s = .next (s.tileExc t 0x0305)) ∧
    (∀ k : Fin 4, put (BitVec.ofNat 12 (0x102 + 16 * k.val))
      { x with rng := x.rng.set k.val { x.rng[k.val] with ctr := setHalf (x.rng[k.val]).ctr false v } }) ∧
    (∀ k : BitVec 12, (0xA < k.toNat ∧ k.toNat < 0x10) ∨ (0x1F < k.toNat ∧ k.toNat < 0x100) ∨ 0x13F < k.toNat ∨
        (0xFF < k.toNat ∧ 3 < k.toNat % 16) →
      exec (.csrr t gd rd k) s = .next (s.tileExc t 0x0307) ∧ exec (.csrw t gd rs1 k) s = .next (s.tileExc t 0x0307))

/-- R109, R110, R113: what an exception leaves, shown on TRAP, the last word's PC and HALT. The report counts as a message packet (R51). What stopped unit commands leave in their outputs is free (log 1), so the clause on the whole state assumes that no unit runs; the cycles of a SEND in its wait are counted there too (R51; log 10), so it assumes none. -/
def Obligations.TileExceptionEntry : Prop :=
  ∀ (s : State) (t : TileIx) (gd : Guard), s.canon →
    let x := s.tile t
    (∀ code : Nat, x.anyRunning = false → (∀ ch reg n pd nb, x.wait ≠ some (.sendWait ch reg n pd nb)) →
      let y : Tile := { x with halted := true, stepping := false, wait := none, cause := 1, code := code, faultPc := x.pc,
                               cubeQ := [], vecQ := [], movQ := [] }
      s.tileExc t code = ({ s with
        tiles := (s.setTile t y).tiles
        fab := { s.fab with net := s.fab.net ++ [{ kind := .report, srcTile := t.val, srcEp := 0, dstTile := 0,
                                                   dstEp := 0, words := [], flags := 0, code := code }] } } : State).countPart
        t Reg.PART_MSG_PKTS 1) ∧
    (∀ imm : BitVec 12, s.issues t gd →
      exec (.trap t gd imm) s = .next ((s.setTile t { x with trapImm := imm }).tileExc t 0x0308)) ∧
    (s.runs t = true → x.guard gd = true → x.pc = 32767 →
      exec (.nop t gd) s = .next ((s.setTile t { x with cycle := x.cycle + 1 }).tileExc t 0x0307)) ∧
    (s.issues t gd →
      (x.cubeQ = [] → x.vecQ = [] → x.movQ = [] → s.partOf t = none → exec (.halt t gd) s = s.withTile t
        { x with halted := true, normalEnd := true, wait := none, cause := 5, faultPc := x.pc, cycle := x.cycle + 1 }) ∧
      (x.cubeQ ≠ [] ∨ x.vecQ ≠ [] ∨ x.movQ ≠ [] → exec (.halt t gd) s = s.withTile t { x with wait := some .halt }))

/-- R111, R114, R116, R117. The orders wake an IDLE or napping cluster (R434). HALT_REQ on a tile in a wait keeps the wait (the model's reading: log 14), and a word that a command in progress writes reads as one of its values (R94; log 1). -/
def Obligations.TileStopAndDebugControl : Prop :=
  ∀ (s : State) (t : TileIx), s.canon →
    let x := s.tile t
    let w := s.wakeTile t
    (s.cluster (tileCluster t) = 0 → w = s) ∧
    (s.hubUp = true → s.pilot.debugTile = true →
      (x.coded = true → x.halted = false → exec (.haltReq t) s =
        w.withTile t { x with halted := true, stepping := false, cause := 3, faultPc := x.pc }) ∧
      (x.halted = true → x.cause = 3 ∨ x.cause = 4 →
        exec (.tileResume t) s = w.withTile t { x with halted := false, cause := 0 } ∧
        (w.active t = true → x.coded = true → x.wait = none → x.pc < 32767 → smapGet 0 x.imem x.pc = 0xC0000000 →
          exec (.sstep t false) s = w.withTile t { x with halted := true, stepping := false, cause := 4, pc := x.pc + 1,
                                                          cycle := x.cycle + 1, faultPc := x.pc + 1 })) ∧
      (s.windowOpen t = true → x.memSpace = 0 → ∀ v : Word,
        let a := x.memAddr.toNat / 8 * 8
        (∃ y, exec (.tileMemData t true v) s = w.withTile t y ∧ y.readSp a 8 = leBytes 8 v.toNat ∧
          y.memAddr.toNat = (a + 8) % 0x200000 ∧ y.g = x.g ∧ y.imem = x.imem ∧ y.acc = x.acc) ∧
        (∃ d, exec (.tileMemData t false v) s =
            .next ((w.setTile t { x with memAddr := BitVec.ofNat 21 ((a + 8) % 0x200000) }).tick.emit (.readData d)) ∧
          (x.wordInFlight (a / 8) = false → d = BitVec.ofNat 64 (leNat (x.readSp a 8))) ∧
          (x.wordInFlight (a / 8) = true → d ∈ w.wordValues t (a / 8)))) ∧
      (s.windowOpen t = false → ∀ v : Word, exec (.tileMemData t true v) s = w.withTile t { x with dbgDenied := true } ∧
        exec (.tileMemData t false v) s = .next ((w.setTile t { x with dbgDenied := true }).emit (.readData 0)))) ∧
    (∀ (m : NetMsg) (rest : List NetMsg), s.fab.net = m :: rest → m.kind = .stop → m.dstTile = t.val →
      s.pathDown m.edges = false → x.coded = true → x.halted = false → x.anyRunning = false →
      ∃ u, exec (.tileStop t) s = .next u ∧ u.fab.net = rest ∧ (∀ k : Nat, k ≠ t.val → u.tile k = s.tile k) ∧
        u.tile t = { x with halted := true, stepping := false, wait := none, cause := 2, code := 0, faultPc := x.pc,
                            cubeQ := [], vecQ := [], movQ := [] })

/-- R99, R100, R101, R106, R141, R169. A command that may not start stays queued, and nothing changes (the model's choice: log 12). What a started command takes from its rings at once (log 59) is left out here. -/
def Obligations.UnitCommandsStart : Prop :=
  ∀ (s : State) (t : TileIx) (u : UnitKind) (i : Instr) (c : UCmd) (rest : List UCmd), s.canon →
    (u, i) ∈ [(UnitKind.cube, Instr.cubeCommandStart t), (.vector, .vectorCommandStart t), (.mover, .moverCommandStart t)] →
    let x := s.tile t
    (x.queue u = c :: rest → c.phase = .queued → s.active t = true → (∀ e ∈ rest, e.seq ≠ c.seq ∧ e.phase = .queued) →
      (u = .vector → x.cubeQ = []) →
      ∃ y, exec i s = .next (s.setTile t y).tick.tick.tick.tick ∧
        (y.queue u).map (fun e => (e.seq, e.desc, e.phase)) =
          (c.seq, c.desc, CmdPhase.running) :: rest.map (fun e => (e.seq, e.desc, CmdPhase.queued)) ∧
        (∀ v, v ≠ u → (y.queue v).map (fun e => (e.seq, e.desc, e.phase)) =
          (x.queue v).map (fun e => (e.seq, e.desc, e.phase))) ∧
        y.g = x.g ∧ y.p = x.p ∧ y.pc = x.pc ∧ y.scratch = x.scratch ∧ y.acc = x.acc ∧ y.unitFlags = x.unitFlags ∧
        y.unitDone u = x.unitDone u ∧ y.e = x.e) ∧
    (∀ (r : UCmd), u = .cube → x.cubeQ = [r, c] → r.phase = .running → c.phase = .queued → r.seq ≠ c.seq →
      disjoint (accRange r.desc).1 (accRange r.desc).2 (accRange c.desc).1 (accRange c.desc).2 = false → exec i s = .next s) ∧
    (u = .mover → 4 ≤ (x.movQ.filter fun e => e.phase.live).length → exec i s = .next s)

/-- R96, R100, R102, R105, R107, R144, R164. A command's transfers and results happen when it is done (the model's choice: log 15); what goes to a stream waits there until the first slot has accepted it, which completes the command at a further done event (log 16). The sums themselves are those of cubeFinish and vecFinish (R142, R164 to R168, R176). -/
def Obligations.UnitCommandsComplete : Prop :=
  ∀ (s : State) (t : TileIx) (c : UCmd), c.phase = .running →
    let x := s.tile t
    let d := c.desc
    let ended : UnitKind → Tile → Prop := fun u y =>
      y.queue u = [] ∧ y.unitDone u = x.unitDone u + 1 ∧ y.unitIssued u = x.unitIssued u ∧ y.g = x.g ∧ y.p = x.p ∧
      y.pc = x.pc ∧ y.halted = x.halted ∧
      ∀ k : Fin 16, y.e[k.val] = if (x.evSrc[k.val]).toNat = 4 + 8 * u.num then x.e[k.val] + 1 else x.e[k.val]
    let fl : UnitKind → Tile → Bool × Bool := fun u y => if u = .cube then (y.mxSat, y.mxNan) else (y.vxSat, y.vxNan)
    (x.cubeQ = [c] → x.inputsReady .cube c = true → db d 0 27 = false → db d 0 28 = false → soutOf .cube d = none →
      ∃ v, exec (.cubeCommandDone t false) s = .next v ∧ ended .cube (v.tile t) ∧
        (v.tile t).mxSat = (x.mxSat || (cubeFinish x c).2.2.1) ∧
        (v.tile t).mxNan = (x.mxNan || (cubeFinish x c).2.2.2) ∧
        (isNoop .cube d = true → (v.tile t).scratch = x.scratch ∧ (v.tile t).acc = x.acc ∧ (v.tile t).mxSat = x.mxSat)) ∧
    (x.cubeQ = [c] → x.inputsReady .cube c = true → (cubeFinish x c).2.2.2 = true → db d 0 28 = true → soutOf .cube d = none →
      ∃ v : State, exec (.cubeCommandDone t false) s = .next (v.tileExc t 0x0502) ∧ (v.tile t).mxNan = true) ∧
    (x.vecQ = [c] → x.inputsReady .vector c = true → db d 0 28 = false → db d 0 29 = false → soutOf .vector d = none →
      ∃ v, exec (.vectorCommandDone t false) s = .next v ∧ ended .vector (v.tile t) ∧
        (v.tile t).vxSat = (x.vxSat || (vecFinish x c).2.2.1) ∧
        (v.tile t).vxNan = (x.vxNan || (vecFinish x c).2.2.2) ∧
        (isNoop .vector d = true → (v.tile t).scratch = x.scratch)) ∧
    (x.vecQ = [c] → x.inputsReady .vector c = true → (vecFinish x c).2.2.2 = true → db d 0 29 = true →
      soutOf .vector d = none →
      ∃ v : State, exec (.vectorCommandDone t false) s = .next (v.tileExc t 0x0504) ∧ (v.tile t).vxNan = true) ∧
    (∀ (u : UnitKind) (i : Instr) (fin : Bytes × Bool × Bool) (last : Bool) (ch p : Nat),
      (u, i, fin, last) ∈ [(UnitKind.cube, Instr.cubeCommandDone t false, (cubeFinish x c).2, db d 5 15),
        (.vector, .vectorCommandDone t false, (vecFinish x c).2, db d 0 30)] →
      x.queue u = [c] → x.inputsReady u c = true → soutOf u d = some ch → s.partOf t = some p → fin.1 ≠ [] →
      let id := (x.ep ch).stream
      ∃ v e, exec i s = .next v ∧ (v.tile t).queue u = [e] ∧ e.phase = .sending ∧ e.seq = c.seq ∧
        (v.stream p id).src = (s.stream p id).src ++ toFlits fin.1 last ∧ (v.stream p id).taken = (s.stream p id).taken ∧
        e.out = some ⟨(v.stream p id).taken + (v.stream p id).src.length, fin.2.1, fin.2.2⟩ ∧
        (v.tile t).unitDone u = x.unitDone u ∧ fl u (v.tile t) = fl u x) ∧
    (∀ (u : UnitKind) (i : Instr) (o : UnitOut) (ch p : Nat) (e : UCmd),
      (u, i) ∈ [(UnitKind.cube, Instr.cubeCommandDone t false), (.vector, .vectorCommandDone t false)] →
      e.phase = .sending → e.out = some o → x.queue u = [e] → soutOf u e.desc = some ch → s.partOf t = some p →
      trapCode u e.desc o.sat o.nan = none →
      let n := (s.stream p (x.ep ch).stream).taken
      (n < o.upto → exec i s = .next s) ∧
      (o.upto ≤ n → ∃ v, exec i s = .next v ∧ ended u (v.tile t) ∧ (v.tile t).scratch = x.scratch ∧
        fl u (v.tile t) = ((fl u x).1 || o.sat, (fl u x).2 || o.nan))) ∧
    (∀ (line : Nat) (fault : NetFault), x.movQ = [c] → s.partOf t ≠ none → isNoop .mover d = true →
      ∃ v, exec (.moverCommandDone t 0 ⟨false, line, fault⟩) s = .next v ∧ ended .mover (v.tile t) ∧
        (v.tile t).scratch = x.scratch) ∧
    (∀ (line : Nat) (fault : NetFault), x.movQ = [c] → s.partOf t ≠ none → dw d 0 2 0 = 2 → dw d 3 39 24 = 1 → c.raced = [] →
      copyLaps d = false →
      ∃ v, exec (.moverCommandDone t 0 ⟨false, line, fault⟩) s = .next v ∧ ended .mover (v.tile t) ∧
        (v.tile t).readSp (dw d 2 41 21) (dw d 3 23 0) = x.readSp (dw d 2 20 0) (dw d 3 23 0) ∧
        ∀ a, a < dw d 2 41 21 ∨ dw d 2 41 21 + dw d 3 23 0 ≤ a → (v.tile t).readSp a 1 = x.readSp a 1)

/-- R145, R147, R148, R150, R166, R167. -/
def Obligations.NumberConversions : Prop :=
  (∀ (f : FloatFmt) (w r : Nat) (rnd : Rnd), f ∈ [fFP32, fBF16, fFP16, fE4M3, fE5M2, fE3M2, fE2M3, fE2M1] →
    w < 2 ^ f.bits → (f.decode w).2 = (false, false) → (f.decode w).1.isZero = false →
    f.conv rnd r (f.decode w).1 = (w, false, false)) ∧
  (∀ (f : FloatFmt) (neg : Bool), f.inf = true →
    f.decode ((2 ^ f.ebits - 1) * 2 ^ (f.p - 1) + if neg then 2 ^ (f.bits - 1) else 0) = (f.top neg, true, false)) ∧
  (∀ (f : FloatFmt) (rnd : Rnd) (r c : Nat), f.nanCode = some c → f.conv rnd r .nan = (c, false, true)) ∧
  (∀ (w r : Nat) (rnd : Rnd) (v : Int), 0 < w →
    convInt w rnd r (ExNum.ofInt v) =
      if v < -(2 ^ (w - 1) : Int) then (2 ^ (w - 1), true, false)
      else if (2 ^ (w - 1) : Int) - 1 < v then (2 ^ (w - 1) - 1, true, false)
      else (wrapInt w v, false, false)) ∧
  ∀ (rnd : Rnd) (r n d : Nat), roundShift rnd r (n * 2 ^ d) d = n

/-- R33 to R38, R42, R48. The clauses shown are those of one destination slot, and of a hub crossing that passes a flit from the hub on (R42); what more destinations and rings get is the same flit (R37; log 56). -/
def Obligations.StreamFlitsAndCredits : Prop :=
  ∀ (s : State) (p : PartIx) (id : Fin 4096) (b : Fin 16) (h : Fin 128),
    let key := 128 * b.val + h.val
    let slotOf : State → Nat → Slot := fun u k => smapGet Slot.empty (u.stream p id).slots k
    (∀ (q : PartRect) (r : Route) (d : Nat) (f : Flit) (rest : List Flit), s.rect p = some q →
      (s.part p).image.routes.find? (fun r => r.stream = id.val) = some r → (s.part p).loaded = true →
      (h.val = 0 → b.val = 0) → r.dests b h = [.slot d] → d ≠ key → (slotOf s key).stuck = false →
      (∀ e ∈ r.hopEdges (4 * q.cx0) (4 * q.cy0) b h [.slot d], s.edgeDown (e / 2) = false) →
      let tile := key = 0 ∧ (s.part p).image.hubSourced (4 * q.cx0) (4 * q.cy0) r = false
      (if tile then (s.stream p id).src else (slotOf s key).flits) = f :: rest →
      (s.hasCredit p r (4 * q.cx0) (4 * q.cy0) (.slot d) = true →
        ∃ u, exec (.streamFlitSend p id b h .none) s = .next u ∧
          (slotOf u d).flits = (slotOf s d).flits ++ [f] ∧ (slotOf u d).owed = (slotOf s d).owed ∧
          (if tile then (u.stream p id).src = rest ∧ (u.stream p id).taken = (s.stream p id).taken + 1
           else (slotOf u key).flits = rest ∧ (slotOf u key).owed = (slotOf s key).owed + 1) ∧
          u.tiles = s.tiles ∧ u.fab.net = s.fab.net ∧ u.mem = s.mem ∧ u.parts = s.parts) ∧
      (s.hasCredit p r (4 * q.cx0) (4 * q.cy0) (.slot d) = false →
        exec (.streamFlitSend p id b h .none) s = .next s)) ∧
    (∀ (q : PartRect) (r : Route) (f : Flit) (rest : List Flit), s.rect p = some q →
      (s.part p).image.routes.find? (fun r => r.stream = id.val) = some r → (s.part p).loaded = true →
      (s.part p).image.hubSourced (4 * q.cx0) (4 * q.cy0) r = true → b.val = 1 → h.val = 0 → (slotOf s key).stuck = false →
      s.edgeDown (r.hubEdge (4 * q.cx0) (4 * q.cy0) / 2) = false → s.hasCredit p r (4 * q.cx0) (4 * q.cy0) (.slot 0) = true →
      (s.stream p id).src = f :: rest →
      ∃ u, exec (.streamFlitSend p id b h .none) s = .next u ∧ (slotOf u 0).flits = (slotOf s 0).flits ++ [f] ∧
        (u.stream p id).src = rest ∧ u.tiles = s.tiles ∧ u.fab.net = s.fab.net ∧ u.mem = s.mem ∧ u.parts = s.parts) ∧
    ((slotOf s key).stuck = false → ∃ u, exec (.creditReturn p id b h) s = .next u ∧
      slotOf u key = { slotOf s key with owed := (slotOf s key).owed - 1 } ∧ u.tiles = s.tiles ∧ u.regs = s.regs ∧
      ∀ k, k ≠ key → slotOf u k = slotOf s k)

/-- R40, R95, R107. Packet i of the network is the i-th oldest in flight. -/
def Obligations.PacketsArrive : Prop :=
  ∀ (s : State) (i : Nat) (m : NetMsg), s.fab.net[i]? = some m →
    let x := s.tile m.dstTile
    let first := (s.fab.net.take i).any m.sameChannel = false ∧ ∀ e ∈ m.edges, s.edgeDown (e / 2) = false
    (first → m.kind = .data → ∃ u y, exec (.msgPacketArrive i .none) s = .next u ∧ u.tile m.dstTile = y ∧
      u.fab.net = s.fab.net.eraseIdx i ∧
      y.ep m.dstEp = { x.ep m.dstEp with queue := (x.ep m.dstEp).queue ++ [⟨m.srcTile, m.srcEp, m.words⟩] } ∧
      (∀ k : Fin 16, y.e[k.val] = if (x.evSrc[k.val]).toNat = 3 + 8 * m.dstEp then x.e[k.val] + 1 else x.e[k.val]) ∧
      y.g = x.g ∧ y.scratch = x.scratch ∧ y.pc = x.pc ∧ ∀ k, k ≠ m.dstTile → u.tile k = s.tile k) ∧
    (first → m.kind = .reply → ∃ u y, exec (.msgPacketArrive i .none) s = .next u ∧ u.tile m.dstTile = y ∧
      u.fab.net = s.fab.net.eraseIdx i ∧ y.replyBuf = some m.words ∧ y.eps = x.eps) ∧
    (first → m.kind = .credit → ∃ u y, exec (.msgCreditReturn i .none) s = .next u ∧ u.tile m.dstTile = y ∧
      u.fab.net = s.fab.net.eraseIdx i ∧
      y.ep m.dstEp = { x.ep m.dstEp with credits := min 4 ((x.ep m.dstEp).credits + 1) } ∧ y.e = x.e) ∧
    ((s.fab.net.take i).any m.sameChannel = true →
      exec (.msgPacketArrive i .none) s = .next s ∧ exec (.msgCreditReturn i .none) s = .next s)

/-- R41, R43, R48. Edges have the numbers 0 to 3, bridges 4 to 7; a direction is 2 x number + direction. -/
def Obligations.EdgesAndBridges : Prop :=
  ∀ (s : State) (e : Fin 8) (dir : Fin 2),
    let k := 2 * e.val + dir.val
    (s.edgeDown e = false →
      (∃ u, exec (.edgeReplay e dir) s = .next u ∧ u.get Reg.FAB_ERR_STAT_EDGE_REPLAY = 1 ∧
        smapGet 0 u.fab.replays k = smapGet 0 s.fab.replays k + 1 ∧ u.tiles = s.tiles ∧ u.fab.net = s.fab.net) ∧
      (8 ≤ smapGet 0 s.fab.replays k → (∀ p < 32, (s.part p).loaded = false) →
        exec (.edgeFail e) s = .next { (if e.val < 4
          then s.set Reg.FAB_ERR_STAT_EDGE_FAIL (setBit (s.get Reg.FAB_ERR_STAT_EDGE_FAIL) e)
          else s.set Reg.FAB_ERR_STAT_BRIDGE_FAIL (setBit (s.get Reg.FAB_ERR_STAT_BRIDGE_FAIL) (e - 4))) with
          fab := { s.fab with down := s.fab.down ++ [e.val] } } ∧
        ∃ u, exec (.edgeFail e) s = .next u ∧ u.edgeDown e = true)) ∧
    (2 ^ 63 ≤ smapGet 0 s.fab.seqs k → ∃ u, exec (.edgeRekey e dir) s = .next u ∧ smapGet 0 u.fab.seqs k = 0 ∧
      smapGet [] u.fab.keys k = s.freeBytes 32 ∧ u.regs = s.regs ∧ u.tiles = s.tiles ∧ u.fab.net = s.fab.net)

/-- R95, R97, R98, R355. A tile's requests of a service are served oldest first; one whose way has failed does not arrive (R48). A TRACE with TRACE_EN 0 is not stored (the model's reading: log 35). -/
def Obligations.HubServicesOfATile : Prop :=
  ∀ (s : State) (t : TileIx) (p : Nat) (m : NetMsg), s.partOf t = some p →
    let req : Nat → NetMsg → Bool := fun svc m => (decide (m.kind = .request svc) && decide (m.srcTile = t.val)) && !s.pathDown m.edges
    let credit : NetMsg := NetMsg.mk .credit 0 0 m.srcTile m.srcEp [] 0 0
    let x := s.part p
    (s.fab.net.find? (req 2) = some m → ∃ u, exec (.stepInfo t) s = .next u ∧
      u.fab.net = s.fab.net.eraseP (req 2) ++ [credit, NetMsg.mk .reply 0 m.srcEp t.val m.srcEp
        [BitVec.ofNat 64 x.stepNo, BitVec.ofNat 64 x.stepGen, BitVec.ofNat 64 x.stepNo] 0 0] ∧
      u.tiles = s.tiles ∧ u.parts = s.parts ∧ u.regs = s.regs) ∧
    (∀ (r : StepRun) (w : Word) (ws : List Word) (k : Nat), s.fab.net.find? (req 0) = some m → x.step = some r →
      x.failed = false → r.phase = .compute → m.words = w :: ws → w.toNat = r.n → (s.tile t).tileStep ≠ some r.n →
      k ∈ s.codedTiles p → k ≠ t.val → (s.tile k).normalEnd = false → (s.tile k).tileStep ≠ some r.n →
      ∃ u, exec (.stepDone t) s = .next u ∧ u.fab.net = s.fab.net.eraseP (req 0) ++ [credit] ∧
        u.tile t = { s.tile t with tileStep := some r.n } ∧ (∀ j, j ≠ t.val → u.tile j = s.tile j) ∧ u.parts = s.parts ∧
        (∀ c rest, s.qCmds r.queue = c :: rest → ∃ d, u.qCmds r.queue = d :: rest ∧
          d.sat = (c.sat || m.flags.getLsbD 0 || m.flags.getLsbD 2) ∧
          d.nan = (c.nan || m.flags.getLsbD 1 || m.flags.getLsbD 3))) ∧
    (∀ (r : StepRun) (w : Word) (ws : List Word), s.fab.net.find? (req 0) = some m → x.step = some r → x.failed = false →
      m.words = w :: ws → w.toNat ≠ r.n → ∃ v : State, exec (.stepDone t) s = .next (v.protocolFault p t)) ∧
    (∀ (v a b c d : State) (w5 w6 w7 j : Nat), s.takeRequest t 1 = some (m, v) →
      x.loaded = true → v.ctxWord x.ctx 5 = (a, w5) → a.ctxWord x.ctx 6 = (b, w6) → b.ctxWord x.ctx 7 = (c, w7) →
      (c.part p).traceHead < 2 ^ 16 → w5 % 2 = 1 → j < 16 → w6 % 2 ^ 17 = 2 ^ (j + 1) → (c.part p) = x →
      (x.traceHead + 1) % 2 ^ (j + 1) ≠ w7 % 2 ^ 16 % 2 ^ (j + 1) →
      c.hubWrite (w5 / 2 ^ 7 % 2 ^ 56 * 2 ^ 7 + 128 * x.traceHead)
        (leBytes 8 (tileId t + m.words.length * 2 ^ 11) ++ leBytes 8 x.stepNo ++
          fit 112 (m.words.flatMap fun w => leBytes 8 w.toNat)) = (d, none) →
      exec (.traceReq t) s = .next (d.updPart p fun y => { y with traceHead := (x.traceHead + 1) % 2 ^ (j + 1) }))

/-- R111, R371. The first error of a context sets its code; a report without a context in force changes nothing but its own packet. -/
def Obligations.ErrorReportsStopTheContext : Prop :=
  ∀ (s : State) (t : TileIx) (p : Nat) (m : NetMsg), s.partOf t = some p →
    let rep : NetMsg → Bool := fun m => (decide (m.kind = .report) && decide (m.srcTile = t.val)) && !s.pathDown m.edges
    s.fab.net.find? rep = some m →
    ((s.part p).loaded = true → (s.part p).failed = false →
      ∃ u net, exec (.tileReport t) s = .next u ∧ (u.part p).failed = true ∧ (u.tile t).reported = true ∧
        u.fab.net = net ++ (s.partTiles p).map fun k => NetMsg.mk .stop 0 0 k 0 [] 0 0) ∧
    ((s.part p).loaded = false →
      ∃ u, exec (.tileReport t) s = .next u ∧ u.fab.net = s.fab.net.eraseP rep ∧ u.tiles = s.tiles ∧ u.regs = s.regs ∧
        u.parts = s.parts ∧ u.hub = s.hub ∧ u.mem = s.mem ∧ u.out = s.out)

/-- R98, R216, R226, R364. lookStart is the look of R363 (StartConditions). A pass's results are those of runPass (R216 to R225). -/
def Obligations.StepStartsAndPasses : Prop :=
  (∀ (s v : State) (q : QueueIx) (c : HubCmd) (p k : Nat), s.lookStart q 0x02 = (v, .go c) → v.boundPart (v.qCtx q) = some p →
    let x := v.part p
    let n := (x.stepNo + 1) % 2 ^ 64
    x.step = none → x.staging = false → v.snapReads p = false → v.movesRun p = false → v.movesWait p c.arrived = false →
    (∀ cl ∈ v.partClusters p, v.cluster cl = 0) → k ∈ v.codedTiles p → (v.tile k).normalEnd = false →
    (v.tile k).tileStep ≠ some n →
    ∃ u, exec (.stepCmd q) s = .next u ∧ (u.part p).stepNo = n ∧ (u.part p).stepGen = x.gen ∧ (u.part p).uses = x.setOf x.gen ∧
      (u.part p).step = some { queue := q.val, n := n, gen := x.gen, phase := .compute, uses := x.setOf x.gen, units := [],
                               order := 0 } ∧
      (u.part p).gen = x.gen ∧ u.mem = v.mem ∧ u.fab = v.fab) ∧
  (∀ (s : State) (c : CtrlIx) (p : PartIx) (r : StepRun), (s.part p).step = some r → (c.val, false) ∈ r.units →
    (s.part p).reading = false → (∀ k < 32, k ≠ p.val → (s.part k).passUnits.contains (c.val, false) = false) →
    ((List.range 32).filter fun k => (s.part k).passUnits.contains (c.val, true)).length < 4 →
    ∃ u, exec (.glintPassStart c) s = .next u ∧
      (u.part p).step = some { r with units := r.units.map fun y => if y.1 = c.val then (c.val, true) else y } ∧
      (∀ k, k ≠ p.val → u.part k = s.part k) ∧ u.tiles = s.tiles ∧ u.mem = s.mem) ∧
  ∀ (s : State) (p : PartIx) (r : StepRun), (s.part p).step = some r → r.phase = .pass → (∀ y ∈ r.units, y.2 = true) →
    ∃ u, exec (.glintPassComplete p) s = .next u ∧ (u.part p).step = some { r with phase := .ended, units := [] } ∧
      ∀ d, u.qHead r.queue = some d → d.stage = .ended ∧ d.code = 0

/-- R363, R368, R378: the queue runs, the wait is satisfied, the context is resident; and NOP, which then completes at once. -/
def Obligations.StartConditions : Prop :=
  ∀ (s : State) (q : QueueIx) (op i : Nat) (c : HubCmd), s.qHead q = some c → c.op = op → c.stage = .waiting → c.code = 0 →
    (s.qState q ≠ 1 → s.lookStart q op = (s, .none)) ∧
    (s.qState q = 1 →
      (c.waitEn = false → s.slotOf (s.qCtx q) = some i → s.getF Reg.SLOT_STAT_STATE i 0 ≠ 3 →
        s.lookStart q op = (s, .go c)) ∧
      (c.waitEn = true → ∀ (v : State) (f : Fence), s.readFence (s.qCtx q) q c.seq (c.w 1) = (v, .ok f) →
        (f.erred = true → s.lookStart q op = (v, .fail f.err)) ∧
        (f.erred = false → f.value < c.w 2 → s.lookStart q op = (v.setF Reg.Q_STAT_WAITING q 0 1, .wait)) ∧
        (f.erred = false → c.w 2 ≤ f.value → v.qCtx q = s.qCtx q → v.slotOf (s.qCtx q) = some i →
          v.getF Reg.SLOT_STAT_STATE i 0 ≠ 3 → s.lookStart q op = (v, .go c))) ∧
      (c.waitEn = true → ∀ (v : State) (e : Nat), s.readFence (s.qCtx q) q c.seq (c.w 1) = (v, .error e) →
        s.lookStart q op = (v, .fail e))) ∧
    (∀ (v : State) (rest : List HubCmd), op = 0x01 → s.lookStart q 0x01 = (v, .go c) → v.qCmds q = c :: rest →
      ∃ u, exec (.nopCommand q) s = .next u ∧
        u.qCmds q = { c with stage := .ended, code := 0, load := none } :: rest ∧
        u.getF Reg.Q_STAT_WAITING q 0 = 0 ∧ u.mem = v.mem ∧ u.parts = v.parts)

/-- R356, R359, R362, R363, R472. What the save area of an evicted context holds is free (log 1). -/
def Obligations.CommandsAreFetchedAndComplete : Prop :=
  (∀ (s v w : State) (q : QueueIx) (c : HubCmd) (code : Nat), s.qState q = 1 → (s.qCmds q).length < 8 →
    s.getF Reg.Q_IDX_HEAD q 0 ≠ s.getF Reg.Q_IDX_TAIL q 0 →
    (s.readEntry q = (v, .ok c) → v.checkCmd (v.qCtx q) c = (w, code) →
      (∃ u, exec (.commandFetch q) s = .next u ∧ u.qCmds q = w.qCmds q ++ [{ c with code := if code = 0 then c.code else code }] ∧
        u.mem = w.mem ∧ u.regs = w.regs) ∧
      c.stage = .waiting ∧ c.code = 0 ∧ c.words.length = 16 ∧ c.entry = s.getF Reg.Q_RING_ADDR q 0 * 2 ^ 17 +
        128 * s.getF Reg.Q_IDX_HEAD q 0) ∧
    (∀ e, s.readEntry q = (v, .error e) → ∃ u, exec (.commandFetch q) s = .next u ∧ u.qState q = 4)) ∧
  (∀ (s : State) (q : QueueIx) (c : HubCmd) (rest : List HubCmd), s.qCmds q = c :: rest → c.stage = .ended →
    (∀ p < 32, ∀ r, (s.part p).step = some r → r.queue ≠ q.val) →
    ∃ u, exec (.commandComplete q) s = .next u ∧ u.qCmds q = rest ∧ u.parts = s.parts ∧ u.tiles = s.tiles) ∧
  (∀ (s : State) (i c : Nat) (rest : List Nat), s.hub.slotWait = c :: rest → s.ctxWaits c = true → c < 2 ^ 14 →
    s.freeSlot = some i →
    ∃ u, exec .slotAssign s = .next u ∧ u.hub.slotWait = rest ∧ u.getF Reg.SLOT_STAT_CTX i 0 = c ∧
      u.getF Reg.SLOT_STAT_STATE i 0 = 1) ∧
  ∀ (s : State) (i : Fin 48), s.getF Reg.SLOT_STAT_STATE i 0 = 3 → ∃ u, exec (.contextEvict i) s = .next u ∧
    u.getF Reg.SLOT_STAT_STATE i 0 = 0 ∧ u.getF Reg.SLOT_STAT_CTX i 0 = 0 ∧ u.getF Reg.SLOT_STAT_PINNED i 0 = 0 ∧
    u.getF Reg.SLOT_STAT_PEND_ERR i 0 = 0 ∧ u.getF Reg.SLOT_INFO_STEP i 0 = 0

/-- R354, R358, R374. The hub's registers answer (R445). -/
def Obligations.QueueControls : Prop :=
  ∀ (s : State) (q : QueueIx), s.hubUp = true →
    let st := s.qState q
    let frame : State → List Nat → Prop := fun u l => u = { s with regs := u.regs } ∧
      ∀ d k : Nat, k ∉ l → smapGet d u.regs k = smapGet d s.regs k
    (∀ (wide : Bool) (v : Word),
      let n := if wide then v.toNat else v.toNat % 2 ^ 32
      st ≠ 0 → n < s.getF Reg.Q_RING_SIZE q 0 → n < 2 ^ 16 → ∃ u, exec (.doorbell q wide v) s = .next u ∧
        u.getF Reg.Q_IDX_TAIL q 0 = n ∧ frame u [Reg.Q_IDX_TAIL.key q 0]) ∧
    (∀ (wide : Bool) (v : Word),
      let n := if wide then v.toNat else v.toNat % 2 ^ 32
      st ≠ 0 → s.getF Reg.Q_RING_SIZE q 0 ≤ n → n < 2 ^ 16 →
        exec (.doorbell q wide v) s = .next ((s.addF Reg.Q_STAT_DB_BAD q 0 1).notice 4 0 (s.qCtx q) q 0 n)) ∧
    (st = 1 ∨ st = 4 → ∃ u, exec (.queueStop q) s = .next u ∧ frame u [Reg.Q_STAT_STATE.key q 0, Reg.Q_STAT_WAITING.key q 0] ∧
      u.qState q = if (s.qCmds q).any fun c => c.stage ≠ .waiting then 2 else 3) ∧
    (st = 2 ∨ st = 3 → ∃ u, exec (.queueStop q) s = .next u ∧ frame u [Reg.Q_STAT_OVERRUN.key q 0] ∧
      u.getF Reg.Q_STAT_OVERRUN q 0 = 1) ∧
    (st = 3 ∨ st = 4 → ∃ u, exec (.queueResume q) s = .next u ∧ frame u [Reg.Q_STAT_STATE.key q 0] ∧ u.qState q = 1) ∧
    (st = 1 ∨ st = 2 → ∃ u, exec (.queueResume q) s = .next u ∧ frame u [Reg.Q_STAT_OVERRUN.key q 0] ∧
      u.getF Reg.Q_STAT_OVERRUN q 0 = 1) ∧
    (∀ (keep : Bool) (code : BitVec 16), st = 3 →
      exec (.queueCancel q keep code) s = .next (s.cancelQueue q (if code = 0 then 0x0702 else code.toNat) keep)) ∧
    (∀ (keep : Bool) (code : BitVec 16), st = 3 → s.qCmds q = [] → s.getF Reg.Q_RING_SIZE q 0 = 0 →
      ∃ u, exec (.queueCancel q keep code) s = .next u ∧ u.qCmds q = [] ∧ u.qState q = 3 ∧ u.mem = s.mem) ∧
    ∃ u, exec .ctxTableLock s = .next u ∧ u.get Reg.CTX_TABLE_LOCK = 1 ∧ frame u [Reg.CTX_TABLE_LOCK.key 0 0]

/-- R357, R370, R377, R382. OBJ_STAT.RESULT is written by a successful create only (the model's reading: log 61). -/
def Obligations.QueueCreationAndFences : Prop :=
  ∀ (s : State), s.hubUp = true →
    let a0 := s.get Reg.OBJ_ARG0_VALUE
    let a1 := s.get Reg.OBJ_ARG1_VALUE
    (∀ (v : State) (o j k q : Nat), 1 ≤ j → j ≤ 16 → a0 = 2 ^ j + k * 2 ^ 17 → k < 2 ^ 46 → a1 < 2 ^ 14 →
      s.ctxOwner a1 = (v, some o) → v.get Reg.CTX_TABLE_LOCK = 1 → v.inSteward (k * 2 ^ 17) (128 * 2 ^ j) = true →
      v.boundPart a1 = none → v.freeQueues ≠ 0 → q < 4096 → v.qState q = 0 → (∀ i < q, v.qState i ≠ 0) →
      ∃ u, exec .queueCreate s = .next u ∧ u.qState q = 1 ∧ u.qCtx q = a1 ∧ u.getF Reg.Q_RING_SIZE q 0 = 2 ^ j ∧
        u.getF Reg.Q_RING_ADDR q 0 = k ∧ u.getF Reg.Q_IDX_HEAD q 0 = 0 ∧ u.getF Reg.Q_IDX_TAIL q 0 = 0 ∧ u.qCmds q = [] ∧
        u.get Reg.OBJ_STAT_DONE = 1 ∧ u.get Reg.OBJ_STAT_CODE = 0 ∧ u.get Reg.OBJ_STAT_RESULT = q ∧
        ∀ i, i < 4096 → i ≠ q → u.qState i = v.qState i) ∧
    (let q := a0 % 4096
     (s.qState q = 3 ∨ s.qState q = 4 → s.qCmds q = [] → s.getF Reg.Q_IDX_HEAD q 0 = s.getF Reg.Q_IDX_TAIL q 0 →
      ∃ u, exec .queueDestroy s = .next u ∧ u.get Reg.OBJ_STAT_CODE = 0 ∧ u.get Reg.OBJ_STAT_DONE = 1 ∧
        (∀ f ∈ queueFields, u.getF f q 0 = 0) ∧ ∀ i, i < 4096 → i ≠ q → u.qState i = s.qState i) ∧
     (s.qState q = 1 ∨ s.qState q = 2 → ∃ u, exec .queueDestroy s = .next u ∧ u.get Reg.OBJ_STAT_CODE = 0x0112 ∧
        u.qState q = s.qState q)) ∧
    (∀ (v : State), s.recordOk 3 64 a0 = (v, true) → a0 % 64 = 0 →
      (0 < a1 % 2 ^ 16 → ∃ u, exec .fenceErr s = .next u ∧ u.get Reg.OBJ_STAT_DONE = 1 ∧ u.get Reg.OBJ_STAT_CODE = 0 ∧
        u.mem = (v.attach 0 0x1FFF 0 a0 (2 ^ 64 - 1) (a1 % 2 ^ 16)).mem) ∧
      (a1 % 2 ^ 16 = 0 → ∃ u, exec .fenceErr s = .next u ∧ u.get Reg.OBJ_STAT_CODE = 0x0102 ∧ u.mem = v.mem))

/-- R202 to R206, R365, R367. A COPY is made when it starts (the model's choice: log 15), and the page of a set is written as the partition's master (log 37). -/
def Obligations.CopyAndSwitch : Prop :=
  (∀ (s v a b : State) (q : QueueIx) (c : HubCmd) (p : Nat) (x y : MemObj), s.lookStart q 0x03 = (v, .go c) →
    v.boundPart (v.qCtx q) = some p → v.memObj (c.o 0) = (a, .ok (some x)) → a.memObj (c.o 2) = (b, .ok (some y)) →
    let n := c.o 4
    n < 2 ^ 48 → n % 64 = 0 → c.o 1 % 64 = 0 → c.o 3 % 64 = 0 → x.ctx = c.ctx → y.ctx = c.ctx →
    let r := (b.beginCmd q).copyLines p (x.base + c.o 1) (y.base + c.o 3) n
    (x.read = true → y.write = true → c.o 1 + n ≤ x.size → c.o 3 + n ≤ y.size →
      exec (.copyCmd q) s = .next (r.1.endCmd q r.2)) ∧
    (x.read = false ∨ y.write = false ∨ x.size < c.o 1 + n ∨ y.size < c.o 3 + n →
      exec (.copyCmd q) s = .next (b.endCmd q 0x0104))) ∧
  (∀ (s v w : State) (p src dst : Nat) (d : Bytes), s.readMem p 0 (s.part p).uses src 64 = (v, .ok d) →
    dst < src ∨ src + 64 ≤ dst → v.writeMem p 0 (s.part p).uses dst d = (w, none) →
    s.copyLines p src dst 64 = (w.tick, 0)) ∧
  ∀ (s v a d : State) (q : QueueIx) (c : HubCmd) (p : Nat) (b : Bytes), s.lookStart q 0x10 = (v, .go c) →
    v.boundPart (v.qCtx q) = some p →
    let x := v.part p
    let g := (x.gen + 1) % 2 ^ 64
    let src := c.o 0 / 64 * 64
    (x.image.region 0xFFF).isSome = true → c.o 0 < 2 ^ 63 → c.o 0 % 64 < 2 → v.inSteward src 2048 = true →
    v.hubRead src 2048 = (a, .ok b) → x.image.setOk b = true → x.switchPend = false → a.slotHeld p g = false →
    (∀ r, x.step = some r → r.phase ≠ .compute) → (a.beginCmd q).writeSet p g (setEntries b) = (d, 0) →
    ∃ u, exec (.switchSet q) s = .next u ∧ (if g % 2 = 0 then (u.part p).set0 else (u.part p).set1) = setEntries b ∧
      (c.o 0 % 2 = 1 → (u.part p).gen = g ∧ (u.part p).switchPend = false) ∧
      (c.o 0 % 2 = 0 → (u.part p).gen = x.gen ∧ (u.part p).switchPend = true) ∧
      ∀ e, u.qHead q = some e → e.stage = .ended ∧ e.code = 0

/-- R207 to R211, R321. -/
def Obligations.SnapshotAndTransfers : Prop :=
  (∀ (s v a : State) (q : QueueIx) (c : HubCmd) (p : Nat) (ts : List Tensor) (rest : List HubCmd),
    s.lookStart q 0x11 = (v, .go c) → v.boundPart (v.qCtx q) = some p → snapForm c = true →
    v.snapTensors p (snapOp c) = (a, .ok ts) → a.snapOk p (snapOp c) ts = true → (a.part p).step = none →
    (a.part p).staging = false → a.movesRun p = false → a.movesWait p c.arrived = false →
    (∀ y ∈ a.ctxCmds (a.part p).ctx, y.op = 0x11 → y.stage ≠ .waiting → (snapOp y).exRegion ≠ (snapOp c).exRegion) →
    a.qCmds q = c :: rest →
    ∃ u, exec (.snapshotCmd q) s = .next u ∧
      u.qCmds q = { c with stage := .running, gen := (a.part p).gen, phase := 1 } :: rest ∧ u.mem = a.mem ∧
      u.parts = a.parts) ∧
  (∀ (s a b : State) (q : QueueIx) (c : HubCmd) (p code : Nat) (ts : List Tensor), s.qHead q = some c →
    s.boundPart (s.qCtx q) = some p → c.op = 0x11 → c.stage = .running → c.phase = 1 →
    s.snapTensors p (snapOp c) = (a, .ok ts) → a.snapRead p c.gen (snapOp c) ts = (b, code) →
    ((snapOp c).dest = 0 ∨ code ≠ 0 → exec (.snapshotReadDone q) s = .next (b.endCmd q code)) ∧
    ((snapOp c).dest = 1 → code = 0 →
      exec (.snapshotReadDone q) s = .next (b.updHead q fun c => { c with phase := 3 }))) ∧
  (∀ (s v w : State) (port : PortIx) (n code : Nat) (m : LinkMsg), s.portPeer port = some n →
    s.takeMsg port 0x22 = some (m, v) → m.arg0 / 2 ^ 62 = 2 → m.payload.length = 4096 →
    (∀ x ∈ s.link.snaps, ¬ (x.peer = n ∧ x.tag = m.tag)) →
    v.ingressUnit (m.arg1 % 2048) (bitsOf m.arg1 51 12 * 4096 + m.arg0 % 2 ^ 52) m.payload = (w, code) →
    w.link.snaps = s.link.snaps →
    exec (.snapData port) s = .next (w.sendMsg n 0x22 m.tag (code + 2 ^ 62) 0 [])) ∧
  (∀ (s v : State) (port : PortIx) (n q : Nat) (m : LinkMsg), s.portPeer port = some n →
    s.takeMsg port 0x22 = some (m, v) → m.arg0 / 2 ^ 62 % 2 = 1 → v.snapOf n m.tag = some q →
    exec (.snapDataReply port) s = .next (v.endCmd q (m.arg0 % 2 ^ 16)) ∧
    ∃ u, exec (.snapDataReply port) s = .next u ∧ ∀ e, u.qHead q = some e → e.stage = .ended ∧ e.code = m.arg0 % 2 ^ 16) ∧
  ∀ (s : State) (q : QueueIx) (c : HubCmd) (rest : List HubCmd), s.qCmds q = c :: rest → c.op = 0x11 → c.stage = .running →
    c.phase = 2 → ∃ u, exec (.snapDataTimeout q) s = .next u ∧
      u.qCmds q = { c with stage := .ended, code := 0x040D, load := none } :: rest ∧ u.mem = s.mem

/-- R267 to R269. How placements are compared is the model's reading (log 39). -/
def Obligations.RegionMigration : Prop :=
  (∀ (s v : State) (q : QueueIx) (c : HubCmd) (p : Nat), s.lookStart q 0x12 = (v, .go c) → v.boundPart (v.qCtx q) = some p →
    (∀ e, c.phase ≠ 1 → v.migCheck p c = .error e → exec (.migrateCmd q) s = .next (v.endCmd q e)) ∧
    (∀ rest, (c.phase = 1 ∨ (v.migCheck p c).isOk = true) → v.moveHeld p = false → (migOp c).1 ∉ (v.part p).migrating →
      v.earlierLoad p c.arrived = false → v.qCmds q = c :: rest →
      ∃ u, exec (.migrateCmd q) s = .next u ∧ (u.part p).migrating = (v.part p).migrating ++ [(migOp c).1] ∧
        (u.part p).image = (v.part p).image ∧ u.qCmds q = { c with stage := .running, phase := 2 } :: rest ∧ u.mem = v.mem)) ∧
  (∀ (s : State) (q : QueueIx) (c : HubCmd) (rest : List HubCmd) (p : Nat) (r : Region), s.qCmds q = c :: rest →
    s.boundPart (s.qCtx q) = some p → c.op = 0x12 → c.stage = .running → (s.part p).image.region (migOp c).1 = some r →
    (s.migrateNeeds p c).any s.edgeDown = true → ∀ met : List (Word × LineFault),
    ∃ u, exec (.migrateComplete q met) s = .next u ∧ u.mem = s.mem ∧ u.prism = s.prism ∧
      (u.part p).image = (s.part p).image ∧ (u.part p).migrating = (s.part p).migrating.filter (fun n => n ≠ r.region) ∧
      u.qCmds q = { c with stage := .ended, code := 0x0304, load := none } :: rest) ∧
  ∀ (s : State) (q : QueueIx) (c : HubCmd) (rest : List HubCmd) (p : Nat) (r : Region), s.qCmds q = c :: rest →
    s.boundPart (s.qCtx q) = some p → c.op = 0x12 → c.stage = .running → (s.part p).image.region (migOp c).1 = some r →
    (s.migrateNeeds p c).any s.edgeDown = false →
    let x := s.part p
    ∃ u, exec (.migrateComplete q []) s = .next u ∧ u.mem = s.mem ∧ u.tiles = s.tiles ∧
      (u.part p).image.plan = x.image.plan.map (fun z => if z.region = r.region
        then { r with tier := bitsOf (c.o 0) 12 12, ctrlMask := bitsOf (c.o 0) 24 13 } else z) ∧
      (u.part p).migrating = x.migrating.filter (fun n => n ≠ r.region) ∧
      (∀ k, k ≠ p → u.part k = s.part k) ∧
      u.qCmds q = { c with stage := .ended, code := 0, load := none } :: rest

/-- R273 to R278, R280. The index is asked for in parts, the first of them one unit (the model's choice: log 40). -/
def Obligations.BeaconLoadsAndHolders : Prop :=
  (∀ (s v : State) (q : QueueIx) (c : HubCmd) (p a : Nat) (rest : List HubCmd), s.lookStart q 0x13 = (v, .go c) →
    v.boundPart (v.qCtx q) = some p → (c.phase = 1 ∨ v.loadOk p c = true) → v.loadHeld p c.arrived = false →
    (loadHolders c)[0]? = some (none, a) → v.qCmds q = c :: rest →
    ∃ u y, exec (.beaconLoad q) s = .next u ∧ u.loadAt (.cmd q) = some y ∧ y.holders = loadHolders c ∧
      y.pack = leBytes 8 (c.o 1) ++ leBytes 8 (c.o 2) ∧ y.index = false ∧ y.skip = [] ∧
      y.reqs = [{ num := v.link.nextTag, shard := none, off := 0, len := 4096, holder := 0 }] ∧ u.mem = v.mem) ∧
  (∀ (s v : State) (num a : Nat) (l : LoadAt) (x : BeaconLoad) (r : ShardReq) (b : Bytes), s.loadOfReq num = some (l, x, r) →
    x.holders.getD r.holder (none, 0) = (none, a) →
    (s.inSteward (a + r.off) r.len = true → s.hubRead (a + r.off) r.len = (v, .ok b) →
      exec (.shardData none num) s = .next (v.answer num 0 b)) ∧
    (s.inSteward (a + r.off) r.len = false → exec (.shardData none num) s = .next (s.answer num 0x0207 [])) ∧
    exec (.shardTimeout num) s = .next (((s.beaconCount Reg.BEACON_TIMEOUTS).updLoad l fun y =>
      { y with skip := y.skip ++ [r.holder] }).failReq l r)) ∧
  (∀ (s v x w : State) (port : PortIx) (n a len : Nat) (m : LinkMsg) (b : Bytes), s.portPeer port = some n →
    s.takeMsg port 0x20 = some (m, v) →
    (v.get Reg.BEACON_PACK_TABLE_EN = 1 → v.packEntry (fit 16 m.payload) = (x, some (a, len)) → m.arg0 + m.arg1 ≤ len →
      x.inSteward (a + m.arg0) m.arg1 = true → 0 < m.arg1 → m.arg1 ≤ 4194304 →
      x.hubRead (a + m.arg0) m.arg1 = (w, .ok b) → exec (.shardReq port) s =
        .next ((w.sendMsg n 0x21 m.tag m.arg0 0 b).beaconCount Reg.BEACON_SHARDS_SERVED)) ∧
    (v.get Reg.BEACON_PACK_TABLE_EN = 0 → exec (.shardReq port) s = .next (v.sendMsg n 0x21 m.tag m.arg0 0x0207 []))) ∧
  ∀ (s : State) (p : PartIx) (r : Refetch) (rest : List Refetch), s.link.refetch = r :: rest → r.part = p.val →
    r.started = false → s.loadHeld p r.arrived = false → (s.part p).loaded = true →
    exec (.shardRefetch p) s =
      .next ({ s with link := { s.link with refetch := { r with started := true } :: rest } }.goOn (.refetch p.val))

/-- R279, R280, R282. How long a lap took is free (log 1). -/
def Obligations.BeaconHasher : Prop :=
  (∀ s : State, s.get Reg.BEACON_CTRL_HASH_EN = 1 → s.link.lap = none → s.link.shards ≠ [] →
    ∃ u, exec .hashLapStart s = .next u ∧ u.link.lap = some (s.link.shards.map (·.id)) ∧
      u.get Reg.BEACON_STAT_HASHING = 1 ∧ u.link.shards = s.link.shards ∧ u.mem = s.mem) ∧
  (∀ (s v a b : State) (g : RegShard) (ids : List Nat) (t : Tensor) (r : Region) (d x : Bytes), s.link.lap = some (g.id :: ids) →
    g.id ∉ ids → ids ≠ [] → s.link.shards.find? (fun h => h.id = g.id) = some g → s.movesRun g.part = false →
    let j := (s.part g.part).image
    j.tensor g.shard.tensor = some t → j.region g.region = some r → v = { s with link := { s.link with lap := some ids } } →
    v.readMem g.part 0 (s.part g.part).uses (j.addrOf t + g.shard.off) g.shard.len = (a, .ok d) →
    a.readMem g.part 0 (s.part g.part).uses (r.keyId * 2 ^ 52 + r.base + g.dig) 64 = (b, .ok x) →
    (Config.sha512 d = x → exec (.rehashShard ⟨0, []⟩) s = .next b) ∧
    (Config.sha512 d ≠ x → ∃ u, exec (.rehashShard ⟨0, []⟩) s = .next u ∧ u.get Reg.BEACON_STAT_LAST_ERR = 0x0205 ∧
      (g.shard.idx < 2 ^ 32 → u.get Reg.BEACON_LAST_SHARD = g.shard.idx) ∧ u.link.lap = some ids ∧
      u.link.shards = s.link.shards ∧
      (u.get Reg.BEACON_CTRL_AUTO_REFETCH = 0 → u.link.refetch = s.link.refetch) ∧
      (u.get Reg.BEACON_CTRL_AUTO_REFETCH = 1 → ∃ y, u.link.refetch = s.link.refetch ++ [y] ∧ y.part = g.part ∧
        y.started = false ∧ y.load.shards = [g.shard] ∧ y.load.holders = g.holders))) ∧
  ∀ s : State, s.hubUp = true → ∃ u, exec .beaconCntClear s = .next u ∧
    (∀ f ∈ [Reg.BEACON_SHARDS_IN, Reg.BEACON_SHARDS_SERVED, Reg.BEACON_DIGEST_FAIL, Reg.BEACON_TIMEOUTS, Reg.BEACON_POISONED],
      u.get f = 0) ∧ u = { s with regs := u.regs }

/-- R304, with the codes of its checks 1 to 4. The requester learns the code as an output (log 2). -/
def Obligations.PrismChecksAnAccess : Prop :=
  ∀ (s : State) (m : Fin 36) (space : Fin 33) (addr : Word) (data : List Byte) (code : Nat) (wr : Bool), addr.toNat % 64 = 0 →
    (s.rightsOf m).rawRead = false →
    let a := addr.toNat
    let k := s.keyOf a
    let st := (s.keyEntry k).state
    (if 2 ^ 63 ≤ a then code = 0x0601
     else if st = .free ∨ st = .reserved then code = 0x0604
     else if wr = true ∧ bit (s.rightsOf m).write k = false then code = 0x0603
     else if wr = false ∧ bit (s.rightsOf m).read k = false then code = 0x0602
     else (s.rightsOf m).stewardOnly = true ∧ k = 0 ∧ s.stewardBytes ≤ a % 2 ^ 52 ∧ code = 0x0607) →
    ∃ u, exec (if wr then .prismLineWrite m space addr data .none else .prismLineRead m space addr .none) s = .next u ∧
      u.out = s.out ++ [.refused code] ∧ u.mem = s.mem ∧ u.tiles = s.tiles ∧ u.prism = s.prism ∧
      u.get Reg.PRISM_STAT_LAST_ERR = code ∧ u.get Reg.PRISM_STAT_LAST_MASTER = m.val

/-- R284 to R287, R292, R293. A write of minor counter 127 refreshes its sector (R294) and is left out of the frame clause. -/
def Obligations.LineWritesAndReads : Prop :=
  (∀ (s : State) (m : Fin 36) (space : Fin 33) (addr : Word) (data : List Byte) (g : Gate), addr.toNat % 64 = 0 →
    data.length = 64 →
    let a := addr.toNat
    let ln := g.place / 64
    s.gate m space (s.part m).uses true a = .ok g → (s.line ln).poison ≠ 0x0203 → (s.line ln).minor ≠ 127 →
    ∃ u, exec (.prismLineWrite m space addr data .none) s = .next u ∧ u.out = s.out ∧ u.tiles = s.tiles ∧
      u.lineData ln = data ∧
      (∀ k, k ≠ ln → u.lineData k = s.lineData k ∧ u.line k = s.line k) ∧
      (u.gate m space (u.part m).uses false a = .ok g → u.rawReads m a = false →
        ∃ v, exec (.prismLineRead m space addr .none) u = .next v ∧ v.out = u.out ++ [.line data] ∧ v.mem = u.mem)) ∧
  (∀ (s : State) (m : Fin 36) (space : Fin 33) (addr : Word) (g : Gate), addr.toNat % 64 = 0 →
    s.gate m space (s.part m).uses false addr.toNat = .ok g → s.rawReads m addr.toNat = false →
    s.line (g.place / 64) = Line.fresh → s.major (g.place / 4096) = 0 →
    ∃ v, exec (.prismLineRead m space addr .none) s = .next v ∧ v.out = s.out ++ [.line (zeros 64)] ∧ v.mem = s.mem) ∧
  ∀ (s v : State) (m : Fin 36) (space : Fin 33) (addr : Word) (data old : List Byte) (g : Gate),
    m.val = 32 ∨ m.val = 34 ∨ m.val = 35 → addr.toNat % 64 + data.length ≤ 64 →
    let a := addr.toNat
    let off := addr.toNat % 64
    let ln := g.place / 64
    s.gate m space (s.part m).uses true a = .ok g →
    (((s.strike g.ctrl g.place .none).touchKey g.ctrl g.keyId).prismCount Reg.PRISM_n_PARTIAL_COUNT g.ctrl 1).readLine m g.ctrl a ln g.key = (v, .ok old) →
    old.length = 64 → (v.line ln).poison ≠ 0x0203 → (v.line ln).minor ≠ 127 →
    ∃ u, exec (.prismPartialWrite m space addr data .none) s = .next u ∧ u.out = s.out ∧
      u.lineData ln = old.take off ++ data ++ old.drop (off + data.length) ∧
      ∀ k, k ≠ ln → u.lineData k = v.lineData k

/-- R305, R337, R340. The window begins at host physical address 2^38. -/
def Obligations.StewardMemoryRequests : Prop :=
  ∀ (s : State) (hpa : Word) (mask : BitVec 64) (data : List Byte) (fault : LineFault), data.length = 64 →
    let a := hpa.toNat / 64 * 64 - 2 ^ 38
    let rd := s.readAccess 34 0 a fault
    let wr := s.writeAccess 34 0 a data fault
    let mg := s.mergeAccess 34 0 a mask.toNat data fault
    (s.memServed = true → 2 ^ 38 ≤ hpa.toNat → hpa.toNat / 64 * 64 < 2 ^ 38 + s.stewardBytes →
      (∀ v b, rd = (v, some (.ok b)) →
        exec (.memrd hpa fault) s = .next ((v.emit (.memData false b)).cacheLine (a / 64))) ∧
      (∀ v e, rd = (v, some (.error e)) →
        exec (.memrd hpa fault) s = .next ((v.set Reg.STEWARD_STAT_LAST_ERR e).emit (.memData true (zeros 64)))) ∧
      (∀ v b, wr = (v, some (.ok b)) → exec (.memwr hpa data fault) s = .next (v.emit .memDone)) ∧
      (∀ v e, wr = (v, some (.error e)) →
        exec (.memwr hpa data fault) s = .next ((v.set Reg.STEWARD_STAT_LAST_ERR e).emit .memDone)) ∧
      (∀ v b, mg = (v, some (.ok b)) → exec (.memwrptl hpa mask data fault) s = .next (v.emit .memDone)) ∧
      (∀ v e, mg = (v, some (.error e)) →
        exec (.memwrptl hpa mask data fault) s = .next ((v.set Reg.STEWARD_STAT_LAST_ERR e).emit .memDone))) ∧
    (hpa.toNat / 64 * 64 < 2 ^ 38 ∨ 2 ^ 38 + s.stewardBytes ≤ hpa.toNat / 64 * 64 →
      exec (.memrd hpa fault) s = .next s ∧ exec (.memwr hpa data fault) s = .next s ∧
      exec (.memwrptl hpa mask data fault) s = .next s) ∧
    ∀ (space : Fin 33) (addr : Word), addr.toNat % 64 = 0 →
      (∀ v b, s.rawReads 35 addr.toNat = false → s.readAccess 35 space addr.toNat fault = (v, some (.ok b)) →
        exec (.debugAccessPortAccess false space addr ⟨[], fault⟩) s = .next (v.emit (.line b))) ∧
      (∀ g, s.rawReads 35 addr.toNat = true → s.gate 35 space [] false addr.toNat = .ok g →
        let w := s.strike g.ctrl g.place (if rawFault fault then fault else .none)
        (eccFault fault = true →
          exec (.debugAccessPortAccess false space addr ⟨[], fault⟩) s = .next (w.emit (.refused 0x0201))) ∧
        (eccFault fault = false → (w.line (g.place / 64)).ce = 0 →
          exec (.debugAccessPortAccess false space addr ⟨[], fault⟩) s =
            .next (w.tick.emit (.raw (w.storedLine (g.place / 64)).1 (w.storedLine (g.place / 64)).2)))) ∧
      (∀ v b, s.writeAccess 35 space addr.toNat data fault = (v, some (.ok b)) →
        exec (.debugAccessPortAccess true space addr ⟨data, fault⟩) s = .next v)

/-- R388 to R390, R401, R402. Progress and remaining MiB are free (log 1). The physical event is an operand (log 3). -/
def Obligations.UncorrectableErrorsPoison : Prop :=
  (∀ (s : State) (m : Fin 36) (space : Fin 33) (addr : Word) (g : Gate) (cw : Fin 2), addr.toNat % 64 = 0 →
    let ln := g.place / 64
    s.gate m space (s.part m).uses false addr.toNat = .ok g → s.rawReads m addr.toNat = false → g.ctrl < 12 →
    ∃ u, exec (.prismLineRead m space addr (.ue cw)) s = .next u ∧ u.out = s.out ++ [.refused 0x0201] ∧
      (u.line ln).poison = 0x0201 ∧ u.lineData ln = s.lineData ln ∧ u.getF Reg.MC_STAT_UE g.ctrl 0 = 1 ∧
      ∀ k, k ≠ ln → u.line k = s.line k ∧ u.lineData k = s.lineData k) ∧
  (∀ (s : State) (c : CtrlIx) (place : Nat) (lap : Bool), s.canon → s.get Reg.SCRUB_CTRL_GLIMMER_EN = 1 →
    s.getF Reg.FLOOD_STAT_BUSY c 0 = 0 → s.placeCtrl place = c.val → (s.line (place / 64)).ce = 0 →
    ∃ u, exec (.glimmerScrub c place .none lap) s = .next u ∧ u.mem = s.mem ∧ u.getF Reg.MC_STAT_GLIMMER_ACTIVE c 0 = 1) ∧
  (∀ (s : State) (mask : BitVec 12), s.hubUp = true → mask ≠ 0 →
    let busy (c : Nat) : Prop := s.getF Reg.FLOOD_STAT_BUSY c 0 = 1 ∨ s.getF Reg.MC_STAT_FAILED c 0 = 1
    ((∀ c : Fin 12, mask.getLsbD c = true → ¬ busy c) → (∀ x ∈ s.mem.floods, mask.getLsbD x.1 = false) →
      ∃ u, exec (.floodVerify mask) s = .next u ∧
      u.mem = { s.mem with floods := s.mem.floods ++ ((List.range 12).filter fun c => mask.getLsbD c).map fun c => (c, 34) } ∧
      ∀ c : Fin 12, mask.getLsbD c = true → u.getF Reg.FLOOD_STAT_BUSY c 0 = 1 ∧ u.getF Reg.FLOOD_STAT_MODE c 0 = 2 ∧
        u.getF Reg.MC_STAT_GLIMMER_ACTIVE c 0 = 0) ∧
    ((∃ c : Fin 12, mask.getLsbD c = true ∧ busy c) → ∃ u, exec (.floodVerify mask) s = .next u ∧
      u.get Reg.FLOOD_CMD_OVERRUN = 1 ∧ ∀ c : Fin 12, u.getF Reg.FLOOD_STAT_BUSY c 0 = s.getF Reg.FLOOD_STAT_BUSY c 0)) ∧
  ∀ (s : State) (c : CtrlIx) (met : List (Nat × LineFault)), (c.val, 34) ∈ s.mem.floods →
    (∀ x ∈ s.mem.floods, x.1 = c.val → x.2 = 34) →
    ∃ u, exec (.floodlightComplete c met) s = .next u ∧ u.getF Reg.FLOOD_STAT_BUSY c 0 = 0 ∧
      u.getF Reg.FLOOD_STAT_MODE c 0 = 0 ∧ u.getF Reg.FLOOD_STAT_REMAIN_MIB c 0 = 0

/-- R49, R230, R261, R307, R405. A row of the table writes CNT_CLEAR alone, and REGISTER_WRITE writes it with the fields beside it (log
106). -/
def Obligations.CounterClears : Prop :=
  ∀ (s : State) (c : CtrlIx) (p : PartIx) (port : PortIx) (w : Word), s.hubUp = true →
    let clears : Instr → Fld → Fld → Nat → (Fld → Nat → Nat → Prop) → Prop := fun i clr en k on =>
      (∃ u, exec i s = .next u ∧ u = { s with regs := u.regs } ∧ (∀ f i j, on f i j → u.getF f i j = 0) ∧
        u.getF en k 0 = s.getF en k 0) ∧
      ∀ x : Fin 8388608, 8 * x.val = clr.base + clr.s1 * k → bit w.toNat clr.lo = true →
        ∃ u, exec (.registerWrite (.bar0 x) w) s = .next u ∧ (∀ f i j, on f i j → u.getF f i j = 0) ∧
          u.getF en k 0 = bitsOf w.toNat en.hi en.lo
    clears .prismCntClear Reg.PRISM_CFG_CNT_CLEAR Reg.PRISM_CFG_CNT_EN 0 (fun f i j => j = 0 ∧ i < 12 ∧
      f ∈ [Reg.PRISM_n_TAG_FAIL_COUNT, Reg.PRISM_n_PARTIAL_COUNT, Reg.PRISM_n_REFRESH_COUNT, Reg.PRISM_n_CACHE_HIT_COUNT,
        Reg.PRISM_n_CACHE_MISS_COUNT]) ∧
    clears .scrubCntClear Reg.SCRUB_CTRL_CNT_CLEAR Reg.SCRUB_CTRL_CNT_EN 0 (fun f i j => j = 0 ∧ (i < 12 ∧
      f ∈ [Reg.ECC_CE_COUNT_COUNT, Reg.ECC_UE_COUNT_COUNT, Reg.POISON_COUNT_COUNT, Reg.TREE_STAT_UPPER_REPAIRS,
        Reg.TREE_STAT_LEAVES_LOST] ∨ i = 0 ∧ f ∈ [Reg.SRAM_ERR_CE, Reg.SRAM_ERR_UE])) ∧
    clears .fabCntClear Reg.FAB_CTRL_CNT_CLEAR Reg.FAB_CTRL_CNT_EN 0
      (fun f i j => j = 0 ∧ (i < 8 ∧ f = Reg.FAB_EDGE_FLITS ∨ i < 4 ∧ f = Reg.FAB_EDGE_REPLAY)) ∧
    clears (.glintCntClear c) Reg.GLINT_CTRL_CNT_CLEAR Reg.GLINT_CTRL_CNT_EN c
      (fun f i j => j = 0 ∧ i = c.val ∧ f ∈ [Reg.GLINT_ELEMS_COUNT, Reg.GLINT_BYTES_COUNT]) ∧
    clears (.partCntClear p) Reg.PART_FAB_CTRL_CNT_CLEAR Reg.PART_FAB_CTRL_CNT_EN p (fun f i j => j = 0 ∧ i = p.val ∧
      f ∈ [Reg.PART_STREAM_FLITS, Reg.PART_STREAM_STALL, Reg.PART_MSG_PKTS, Reg.PART_MSG_WAIT, Reg.PART_MEM_LINES,
        Reg.PART_EDGE_FLITS, Reg.PART_WATCH_STALL, Reg.PART_BND_VIOL]) ∧
    clears (.portCntClear port) Reg.PORT_CTRL_CNT_CLEAR Reg.PORT_CTRL_CNT_EN port
      (fun f i j => j = 0 ∧ i = port.val ∧ f ∈ portCounters)

/-- R309, R310. -/
def Obligations.OwnerTable : Prop :=
  ∀ (s : State), s.hubUp = true →
    let ok : State → Nat → Nat → Prop := fun u code reason =>
      u.get Reg.OWNER_STAT_DONE = 1 ∧ u.get Reg.OWNER_STAT_CODE = code ∧ u.get Reg.OWNER_STAT_REASON = reason
    (∀ (i k : Nat) (c : Instr) (d : Bytes), (c, k, d) ∈ [(Instr.ownerRegister, 1, s.ownerData.take 32),
        (.ownerRegisterJoint, 2, s.ownerData)] → 0 < i → i < 2048 → (s.owner i).kind = 0 →
      (∀ j, 0 < j → j < i → (s.owner j).kind ≠ 0) →
      ((∀ e ∈ s.ten.owners, ¬ (e.2.kind = k ∧ e.2.data = d)) → ∃ u, exec c s = .next u ∧
        u.owner i = { kind := k, data := d, ingress := false } ∧ (∀ j, j ≠ i → u.owner j = s.owner j) ∧
        u.get Reg.OWNER_STAT_RESULT = i ∧ ok u 0 0) ∧
      ((∃ e ∈ s.ten.owners, e.2.kind = k ∧ e.2.data = d) → ∃ u, exec c s = .next u ∧ u.ten = s.ten ∧ ok u 0x060D 2)) ∧
    (let i := s.get Reg.OWNER_CMD_INDEX
     (0 < i → (s.owner i).kind ≠ 0 → s.ownerKeys i = 0 → s.ownerContexts i = 0 → ∃ u, exec .ownerUnregister s = .next u ∧
        u.owner i = Owner.free ∧ (∀ j, j ≠ i → u.owner j = s.owner j) ∧ ok u 0 0) ∧
     (0 < i → (s.owner i).kind ≠ 0 → s.ownerKeys i ≠ 0 ∨ s.ownerContexts i ≠ 0 → ∃ u, exec .ownerUnregister s = .next u ∧
        u.ten = s.ten ∧ ok u 0x060D 3) ∧
     (i = 0 ∨ (s.owner i).kind = 0 → ∃ u, exec .ownerUnregister s = .next u ∧ u.ten = s.ten ∧ ok u 0x060D 4) ∧
     ((s.owner i).kind < 4 → ∃ u, exec .ownerRead s = .next u ∧ u.ten = s.ten ∧ u.get Reg.OWNER_INFO_KIND = (s.owner i).kind ∧
        u.get Reg.OWNER_INFO_INGRESS = (if (s.owner i).ingress then 1 else 0) ∧ ok u 0 0))

/-- R299, R301. What RETIRE and ROTATE do with the owner and a FREE entry is the model's reading (log 28). -/
def Obligations.KeyTable : Prop :=
  ∀ (s : State), s.hubUp = true → s.get Reg.KEY_STAT_BUSY = 0 →
    let k := s.get Reg.KEY_CMD_KEY
    let e := s.keyEntry k
    (∀ i, 0 < i → i < 2048 → (s.keyEntry i).state = .free → (∀ j, 0 < j → j < i → (s.keyEntry j).state ≠ .free) →
      ∃ u, exec .keyAlloc s = .next u ∧
        u.keyEntry i = { s.keyEntry i with state := .reserved, owner := s.get Reg.KEY_CMD_OWNER, material := 0 } ∧
        (∀ j, j ≠ i → u.keyEntry j = s.keyEntry j) ∧ u.get Reg.KEY_STAT_RESULT_KEY = i ∧ u.get Reg.KEY_STAT_DONE = 1 ∧
        u.get Reg.KEY_STAT_CODE = 0) ∧
    (0 < k → k < 2048 → e.users = 0 →
      (∃ u, exec .keyRetire s = .next u ∧ u.keyEntry k = { KeyEntry.free with gen := e.gen } ∧
        (∀ j, j ≠ k → u.keyEntry j = s.keyEntry j) ∧ (∀ c < 12, k ∉ smapGet [] u.prism.keyCache c) ∧
        u.get Reg.KEY_STAT_CODE = 0) ∧
      ∃ u, exec .keyRotate s = .next u ∧
        u.keyEntry k = { e with state := .reserved, material := 0 } ∧
        (∀ j, j ≠ k → u.keyEntry j = s.keyEntry j) ∧ (∀ c < 12, k ∉ smapGet [] u.prism.keyCache c) ∧
        (s.wearCtrls k = [] → u.mem = s.mem ∧ u.get Reg.KEY_STAT_DONE = 1 ∧ u.get Reg.KEY_STAT_CODE = 0) ∧
        (s.wearCtrls k ≠ [] → u.get Reg.KEY_STAT_BUSY = 1 ∧
          ∀ c ∈ s.wearCtrls k, u.getF Reg.FLOOD_STAT_BUSY c 0 = 1 ∧ u.getF Reg.FLOOD_STAT_MODE c 0 = 1)) ∧
    (∀ c, c = .keyRetire ∨ c = .keyRotate →
      (k = 0 → ∃ u, exec c s = .next u ∧ u.prism = s.prism ∧ u.get Reg.KEY_STAT_CODE = 0x0609) ∧
      (0 < k → k < 2048 → e.users ≠ 0 → ∃ u, exec c s = .next u ∧ u.prism = s.prism ∧ u.get Reg.KEY_STAT_CODE = 0x0608)) ∧
    (k < 2048 → ∃ u, exec .keyRead s = .next u ∧ u.prism = s.prism ∧
      u.get Reg.KEY_INFO_STATE = (match e.state with | .free => 0 | .reserved => 1 | .valid => 2 | .system => 3) ∧
      (e.owner < 2 ^ 11 → u.get Reg.KEY_INFO_OWNER = e.owner) ∧ u.get Reg.KEY_STAT_CODE = 0)

/-- R24, R424 to R428. That an OK feed's return clears its warning, and when LIMIT is set and the stretch ends, are readings (NOTES.md, Assumptions). -/
def Obligations.FeedsAndLimits : Prop :=
  ∀ (s : State) (feed : Fin 2) (dv : BitVec 10) (step : Fin 64) (watts : BitVec 12) (peak : Bool) (die : Fin 6)
      (celsius : Byte),
    let other : Fin 2 := 1 - feed
    let only : State → Prop := fun u => u = { s with regs := u.regs, pilot := u.pilot }
    let warn := exec (.feedWarn feed dv) s
    let fail := exec (.feedFail feed dv) s
    let ret := exec (.feedReturn feed dv) s
    let timer := exec (.feedRestoreTimer feed) s
    let power := exec (.powerLimit step ⟨watts, peak⟩) s
    let therm := exec (.thermalStretch die celsius step) s
    (s.pilot.powered = false → ∀ r ∈ [warn, fail, ret, timer, power, therm], r = .next s) ∧
    (s.pilot.powered = true →
      (s.get (feedOk feed) = 1 →
        (∃ u, warn = .next u ∧ only u ∧ u.get (feedWarnF feed) = 1 ∧ u.get Reg.PWR_EVENT_FEED_WARN = 1 ∧
          u.get (feedDv feed) = dv.toNat ∧ u.get Reg.PWR_STAT_ON_B = s.get Reg.PWR_STAT_ON_B) ∧
        (∃ u, fail = .next u ∧ only u ∧ u.get (feedOk feed) = 0 ∧ u.get (feedWarnF feed) = 0 ∧
          u.get Reg.PWR_EVENT_FEED_FAIL = 1 ∧ u.get (feedDv feed) = dv.toNat ∧
          (s.get (feedOk other) = 1 → u.get Reg.PWR_STAT_ON_B = other.val ∧ u.pilot.bulk = s.pilot.bulk ∧
            (s.get Reg.PWR_STAT_ON_B ≠ other.val → u.get Reg.PWR_EVENT_SWITCH = 1 ∧ u.get Reg.FEED_LOG_TO_B = other.val)) ∧
          (s.get (feedOk other) = 0 → u.get Reg.PWR_STAT_ON_B = s.get Reg.PWR_STAT_ON_B ∧ u.pilot.bulk = true)) ∧
        ∃ u, ret = .next u ∧ only u ∧ u.get (feedOk feed) = 1 ∧ u.get (feedWarnF feed) = 0 ∧ u.get (feedDv feed) = dv.toNat) ∧
      (s.get (feedOk feed) = 0 →
        (∃ u, warn = .next u ∧ only u ∧ u.get (feedOk feed) = 0 ∧ u.feedBack feed = false) ∧
        (∃ u, fail = .next u ∧ only u ∧ u.get (feedOk feed) = 0 ∧ u.feedBack feed = false) ∧
        (s.pilot.bulk = false → ∃ u, ret = .next u ∧ only u ∧ u.get (feedOk feed) = 0 ∧ u.feedBack feed = true) ∧
        (s.pilot.bulk = true → ∃ u, ret = .next u ∧ only u ∧ u.get (feedOk feed) = 1 ∧ u.pilot.bulk = false ∧
          u.get Reg.PWR_STAT_ON_B = feed.val ∧ u.get Reg.PWR_EVENT_BOTH_LOST = 1) ∧
        (s.feedBack feed = true → ∃ u, timer = .next u ∧ only u ∧ u.get (feedOk feed) = 1 ∧ u.feedBack feed = false ∧
          u.pilot.bulk = false ∧ (s.pilot.bulk = true → u.get Reg.PWR_EVENT_BOTH_LOST = 1) ∧
          u.get Reg.PWR_STAT_ON_B =
            (if feed = 0 ∨ s.get Reg.PWR_STAT_A_OK = 0 then feed.val else s.get Reg.PWR_STAT_ON_B))) ∧
      (s.feedBack feed = false → timer = .next s) ∧
      ((∀ n ∈ s.pilot.thermStep.toList, n < 64) → ∃ u, power = .next u ∧ only u ∧ u.get Reg.PWR_STAT_POWER_W = watts.toNat ∧
        u.pilot.powerStep = (if s.get Reg.PWR_LIMIT_SUST_W < watts.toNat ∨ peak = true
          then max step.val (min 63 (s.pilot.powerStep + 1)) else step.val) ∧
        u.pilot.thermStep = s.pilot.thermStep ∧
        u.get Reg.PWR_STAT_STRETCH = s.pilot.thermStep.toList.foldl max u.pilot.powerStep ∧
        u.get Reg.PWR_EVENT_LIMIT = (if s.pilot.powerStep = 0 ∧ u.pilot.powerStep ≠ 0 then 1 else s.get Reg.PWR_EVENT_LIMIT)) ∧
      (115 ≤ celsius.toNat → s.resettable = true → ∃ u, therm = .next u ∧ u.pilot.boot = .tripped ∧ u.pilot.tripOut = true) ∧
      (celsius.toNat < 115 → s.pilot.powerStep < 64 → (∀ n ∈ s.pilot.thermStep.toList, n < 64) → ∃ u, therm = .next u ∧ only u ∧
        (∀ d : Fin 6, u.get Reg.THERM_STAT_DIE_C / 256 ^ d.val % 256 =
          if d = die then celsius.toNat else s.get Reg.THERM_STAT_DIE_C / 256 ^ d.val % 256) ∧
        u.pilot.thermStep = s.pilot.thermStep.set die.val (if 105 ≤ celsius.toNat then max 1 step.val else 0) ∧
        u.get Reg.PWR_STAT_STRETCH = u.pilot.thermStep.toList.foldl max s.pilot.powerStep ∧
        u.get Reg.PWR_EVENT_THERM = (if 105 ≤ celsius.toNat then 1 else s.get Reg.PWR_EVENT_THERM)))

/-- R25, R426, R430, R440, R442 to R444. A start after row 2 stands in recovery, in END or LOST, before REFCLK or at row 3. -/
def Obligations.ModuleResets : Prop :=
  ∀ (s : State),
    let lost : State → Prop := fun u => u.tiles = [] ∧ u.fab = { Fabric.reset with down := u.fab.down } ∧ u.mem = Mem.reset ∧ u.prism = Prism.reset ∧
      u.frame = FrameImage.builtin ∧ u.parts = [] ∧ u.hub = Hub.reset ∧ u.link = Link.reset ∧ u.ten = Tenants.reset ∧
      u.pilot.token = none ∧ u.pilot.mbox = Mailbox.reset ∧ u.pending = s.pending ∧ s.out <+: u.out
    let started : State → Prop := fun u => u.pilot.boot ∈ [Boot.recovery, .parked, .running, .waitRef] ∧
      u.get Reg.GLOBAL_STAT_READY = 0 ∧ u.get Reg.GLOBAL_STAT_FAILED = 0
    let modul : Instr → Nat → Prop := fun c n => ∃ u, exec c s = .next u ∧ lost u ∧ u.fab.down = [] ∧ started u ∧ u.get Reg.RESET_CAUSE_CAUSE = n
    let warm : Instr → Nat → Prop := fun c n => ∃ u, exec c s = .next u ∧ lost u ∧ u.fab.down = s.fab.down ∧
      u.pilot.boot = .running ∧
      u.get Reg.GLOBAL_STAT_READY = 0 ∧ u.get Reg.GLOBAL_STAT_STAGE = 4 ∧ u.get Reg.RESET_CAUSE_CAUSE = n
    (s.pilot.boot ≠ .off → s.pilot.boot ≠ .tripped → ∃ u, exec .resetInN s = .next u ∧ lost u ∧ u.pilot.boot = .held ∧
      u.pilot.resetLow = true ∧ u.pilot.flash = s.pilot.flash ∧ u.get Reg.RESET_CAUSE_CAUSE = 1 ∧
      u.get Reg.GLOBAL_STAT_READY = 0) ∧
    (∃ u, exec .resetInNRelease s = .next u ∧ u.pilot.resetLow = false ∧ u.mem = s.mem ∧
      (if s.pilot.boot = .held then u.pilot.boot ∈ [Boot.recovery, .parked, .running, .waitRef]
       else u.regs = s.regs ∧ u.pilot.boot = s.pilot.boot)) ∧
    (s.pilot.boot = .waitRef → ∃ u, exec .refclkArrival s = .next u ∧ u.pilot.boot = .running ∧
      u.get Reg.GLOBAL_STAT_STAGE = 3 ∧ u.get Reg.CLK_STAT_REFCLK_OK = 1 ∧ u.get Reg.CLK_STAT_HCLK_LOCK = 1) ∧
    (s.pilot.boot ≠ .waitRef → exec .refclkArrival s = .next s) ∧
    (s.pilot.boot = .ready ∨ s.pilot.boot = .running → ∃ u, exec .refclkLoss s = .next u ∧ u.get Reg.CLK_STAT_REFCLK_OK = 0 ∧
      u.get Reg.CLK_STAT_HCLK_LOCK = 0 ∧ u.get Reg.PWR_EVENT_REFCLK_LOSS = 1 ∧
      u.pilot.boot = (if s.pilot.boot = .ready then .noRef else .waitRef) ∧ u.tiles = s.tiles ∧ u.mem = s.mem) ∧
    (s.pilot.boot ≠ .ready → s.pilot.boot ≠ .running → exec .refclkLoss s = .next (s.set Reg.CLK_STAT_REFCLK_OK 0)) ∧
    (s.pilot.boot = .noRef → s.pilot.resetLow = false → modul .refclkReturn 3) ∧
    (s.pilot.boot ≠ .noRef → exec .refclkReturn s = .next s) ∧
    (s.pilot.boot = .ready → warm .hubWatchdog 7 ∧ ∃ u, exec .hubWatchdog s = .next u ∧ u.get Reg.PWR_EVENT_HUB_WDOG = 1) ∧
    (s.pilot.boot ≠ .ready → exec .hubWatchdog s = .next s) ∧
    (s.hubUp = true → s.pilot.boot = .ready → s.pilot.resetLow = false →
      modul .resetCtrlModule 2 ∧ warm .resetCtrlHubWarm 4) ∧
    (∀ req, s.pilot.boot = .ready → s.pilot.resetLow = false →
      ((s.request req).bind (s.vendorBody 1) = some [] → modul (.moduleReset req) 2) ∧
      ((s.request req).bind (s.vendorBody 2) = some [] → warm (.hubWarmReset req) 4)) ∧
    (∀ (feed : Fin 2) (dv : BitVec 10), s.pilot.powered = false → ∃ u, exec (.coldReset feed dv) s = .next u ∧ lost u ∧
      started u ∧ u.get (feedOk feed) = 1 ∧ u.get (feedDv feed) = dv.toNat ∧ u.get Reg.PWR_STAT_ON_B = feed.val ∧
      u.get Reg.RESET_CAUSE_CAUSE = 0) ∧
    (∀ (feed : Fin 2) (dv : BitVec 10), s.pilot.powered = true → exec (.coldReset feed dv) s = .next s) ∧
    (s.pilot.bulk = true → ∃ u, exec .powerLoss s = .next u ∧ lost u ∧ u.pilot.boot = .off ∧ u.pilot.flash = s.pilot.flash) ∧
    (s.pilot.bulk = false → exec .powerLoss s = .next s) ∧
    ∀ (die : Fin 6) (celsius : Byte),
      (115 ≤ celsius.toNat → s.pilot.boot ≠ .off → s.pilot.boot ≠ .tripped → ∃ u,
        exec (.thermtrip die celsius) s = .next u ∧ lost u ∧ u.pilot.boot = .tripped ∧ u.pilot.tripOut = true ∧
        u.pilot.flash = s.pilot.flash) ∧
      (celsius.toNat < 115 ∨ s.pilot.boot = .off ∨ s.pilot.boot = .tripped → exec (.thermtrip die celsius) s = .next s)

/-- R433 to R438. A cluster's state is 0 ACTIVE, 1 IDLE, 2 NAP, 3 DARK. -/
def Obligations.ClustersAndCalibration : Prop :=
  ∀ (s : State) (c : ClusterIx) (bin : Fin 8) (mv : Fin 4096) (bad : Bool),
    let becomes : Instr → Nat → Prop := fun i v => ∃ u, exec i s = .next u ∧ u.cluster c.val = v ∧ u.tiles = s.tiles ∧
      ∀ d < 96, d ≠ c.val → u.cluster d = s.cluster d
    (s.cluster c.val = 0 → s.inactive c.val = true → c.val ∉ s.pilot.passing → becomes (.clusterIdleEntry c) 1) ∧
    (s.cluster c.val ≠ 0 ∨ s.inactive c.val = false → exec (.clusterIdleEntry c) s = .next s) ∧
    (∀ p, s.cluster c.val = 1 → s.partOfCluster c.val = some p → (s.part p).loaded = true → s.isGate p = false →
      s.get Reg.CLUSTER_CTRL_NAP_AFTER_US ≠ 0 → becomes (.clusterNapEntry c) 2) ∧
    (s.cluster c.val ≠ 1 ∨ s.get Reg.CLUSTER_CTRL_NAP_AFTER_US = 0 ∨ (∃ p, s.partOfCluster c.val = some p ∧ s.isGate p = true) →
      exec (.clusterNapEntry c) s = .next s) ∧
    (s.cluster c.val = 1 ∨ s.cluster c.val = 2 → becomes (.clusterWakeComplete c bad) 0) ∧
    (s.cluster c.val = 3 → s.clusterFailed c.val = false → (s.partOfCluster c.val).isSome = true →
      becomes (.clusterWakeComplete c false) 0 ∧ becomes (.clusterWakeComplete c true) 3 ∧
      ∃ u, exec (.clusterWakeComplete c true) s = .next u ∧ u.clusterFailed c.val = true) ∧
    (s.cluster c.val = 0 ∨ s.cluster c.val = 3 ∧ s.clusterFailed c.val = true → exec (.clusterWakeComplete c bad) s = .next s) ∧
    (s.cluster c.val = 0 → ∃ u, exec (.loadBinChange c bin) s = .next u ∧ u.regs = s.regs ∧ u.pilot.bins = s.pilot.bins ∧
      ∀ d, smapGet 0 u.pilot.loadBin d = if d = c.val then bin.val else smapGet 0 s.pilot.loadBin d) ∧
    (s.cluster c.val ≠ 0 → exec (.loadBinChange c bin) s = .next s) ∧
    (s.runsBin c.val bin.val = true → s.binFilled c.val bin.val = false → ∃ u, exec (.calibBinFill c bin mv) s = .next u ∧
      (∀ k, smapGet 0 u.pilot.bins k = if k = 8 * c.val + bin.val then mv.val + 15 else smapGet 0 s.pilot.bins k) ∧
      ∀ d < 96, u.cluster d = s.cluster d) ∧
    (s.runsBin c.val bin.val = false ∨ s.binFilled c.val bin.val = true → exec (.calibBinFill c bin mv) s = .next s) ∧
    (s.hubUp = true → s.get Reg.CALIB_STAT_PASS_BUSY = 0 → ∃ u, exec .calibPass s = .next u ∧
      u.get Reg.CALIB_STAT_PASS_BUSY = 1 ∧ u.tiles = s.tiles ∧ ∀ d < 96,
        let wakes : Prop := s.cluster d = 3 ∧ s.clusterFailed d = false ∧
          ∀ p, s.partOfCluster d = some p → (s.part p).loaded = false
        (wakes → u.cluster d = 0 ∧ d ∈ u.pilot.passing) ∧ (¬ wakes → u.cluster d = s.cluster d ∧ d ∉ u.pilot.passing)) ∧
    (s.hubUp = true → s.get Reg.CALIB_STAT_PASS_BUSY = 1 →
      exec .calibPass s = .next (s.set Reg.CALIB_STAT_OVERRUN 1)) ∧
    (s.get Reg.CALIB_STAT_PASS_BUSY = 1 → (∀ d ∈ s.pilot.passing, d < 96) → ∃ u, exec .calibPassComplete s = .next u ∧
      u.get Reg.CALIB_STAT_PASS_BUSY = 0 ∧ u.pilot.passing = [] ∧ ∀ d < 96,
        (d ∈ s.pilot.passing → u.cluster d = 3 ∧ ∀ t < 1536, tileCluster t = d → u.tile t = Tile.reset) ∧
        (d ∉ s.pilot.passing → u.cluster d = s.cluster d ∧ ∀ t, tileCluster t = d → u.tile t = s.tile t)) ∧
    (s.get Reg.CALIB_STAT_PASS_BUSY = 0 → exec .calibPassComplete s = .next s)

/-- R335, R344 to R346, R440, R442, R444 to R446. The layout of a vendor response is presumed (log 52). -/
def Obligations.StewardAndBringUp : Prop :=
  ∀ (s : State) (req : Option (List Byte)) (modules : BitVec 4) (repaired : Byte) (m : Fin 4) (failed : Fin 12)
      (hbm : BitVec 8) (clusters : BitVec 96),
    let stewardReset : State → Prop := fun u => u.get Reg.STEWARD_STAT_STATE = 3 ∧ u.get Reg.UCIE_STAT_UP = 0 ∧
      u.get Reg.STEWARD_STAT_RESETS = min 255 (s.get Reg.STEWARD_STAT_RESETS + 1) ∧ u.mem = s.mem ∧ u.tiles = s.tiles
    (s.hubUp = true →
      (s.get Reg.STEWARD_STAT_STATE = 3 → exec .stewardCtrlReset s = .next s) ∧
      (s.get Reg.STEWARD_STAT_STATE ≠ 3 →
        (∃ u, exec .stewardCtrlReset s = .next u ∧ stewardReset u ∧
          u = { s with regs := u.regs, hub := { s.hub with cached := [] } }) ∧
        (s.pilot.boot = .ready → (s.request req).bind (s.vendorBody 3) = some [] →
          ∃ u, exec (.stewardReset req) s = .next u ∧ stewardReset u) ∧
        exec (.stewardRestart modules repaired) s = .next s) ∧
      (s.get Reg.STEWARD_STAT_STATE = 3 → modules ≠ 0 →
        let b := s.pilot.flash.image 4
        let good : Bool := loaderFieldsOk b && loaderSigned s.pilot.flash.operator b
        ∃ u, exec (.stewardRestart modules repaired) s = .next u ∧
          u.get Reg.STEWARD_STAT_STATE = (if good then 2 else 4) ∧
          u.pilot.loaderDigest = (if good then loaderHash b else zeros 64) ∧
          (good = false → u.get Reg.UCIE_STAT_UP = 1 ∧ u.get Reg.UCIE_STAT_MODULES = modules.toNat ∧ u.mem = s.mem)) ∧
      (let w := s.get Reg.UCIE_STAT_MODULES
       (bit w m.val = false → exec (.ucieModuleFail m) s = .next s) ∧
       (bit w m.val = true → ∃ u, exec (.ucieModuleFail m) s = .next u ∧
         u = { s with regs := u.regs, hub := { s.hub with cached := u.hub.cached } } ∧
         (∀ k < 4, bit (u.get Reg.UCIE_STAT_MODULES) k = (bit w k && decide (k ≠ m.val))) ∧
         (w = 2 ^ m.val → u.get Reg.STEWARD_STAT_STATE = 3) ∧
         (w ≠ 2 ^ m.val → u.get Reg.STEWARD_STAT_STATE = s.get Reg.STEWARD_STAT_STATE))) ∧
      ∃ u, exec .functionLevelReset s = .next u ∧ u = { s with regs := u.regs, hub := u.hub, pilot := u.pilot } ∧
        u.hub.msix = [] ∧ u.hub.pba = 0 ∧ u.hub.msixOn = false ∧ u.pilot.mbox.reqBuf = [] ∧ u.pilot.mbox.rspBuf = [] ∧
        u.pilot.mbox.reqs = s.pilot.mbox.reqs.map (fun r => (r.1, true)) ∧ u.get Reg.MBOX_STAT_BUSY = 0 ∧
        u.get Reg.PWR_ALERT_EN_EN = s.get Reg.PWR_ALERT_EN_EN) ∧
    (s.readyOut = false → exec .functionLevelReset s = .next (s.emit .retry)) ∧
    (s.pilot.boot ≠ .running → exec (.bringUpComplete failed hbm clusters modules) s = .next s) ∧
    (s.pilot.boot = .running →
      (s.hubFwBad = true ∨ failed ≠ 0 → ∃ u, exec (.bringUpComplete failed hbm clusters modules) s = .next u ∧
        u.pilot.boot = .failed ∧ u.get Reg.GLOBAL_STAT_FAILED = 1 ∧
        u.get Reg.GLOBAL_STAT_STAGE = (if s.hubFwBad = true then 3 else failed.val) ∧ u.mem = s.mem) ∧
      (s.hubFwBad = false → ∃ u, exec (.bringUpComplete 0 hbm clusters modules) s = .next u ∧ u.pilot.boot = .ready ∧
        u.get Reg.GLOBAL_STAT_READY = 1 ∧ u.get Reg.GLOBAL_STAT_STAGE = 11 ∧
        (s.pilot.flash.startFrame = none → u.frame = FrameImage.builtin))) ∧
    (s.pilot.boot = .ready → exec (.powerStatus (some (s.vendorHead ++ [4]))) s =
      .next (s.emit (.mctp (s.vendorHead ++ [4, 0] ++ [0x20000, 0x20008, 0x20020, 0x20300, 0x20420].flatMap s.regBytes))))

/-- R7, R343, R347, R445, R446, R466. Contents of MCTP messages are opaque (log 25); what the pins hold is free (log 1). -/
def Obligations.RegistersMailboxAndJtag : Prop :=
  ∀ (s : State) (v : Word),
    let wr := fun (off : Fin 8388608) => exec (.registerWrite (.bar0 off) v) s
    (s.readyOut = false → ∀ off, wr off = .next (s.emit .unsupported)) ∧
    (s.hubUp = true →
      (∃ u, wr (0x20008 / 8) = .next u ∧ u = { s with regs := u.regs } ∧
        ∀ f ∈ [Reg.PWR_EVENT_SWITCH, Reg.PWR_EVENT_FEED_WARN, Reg.PWR_EVENT_FEED_FAIL, Reg.PWR_EVENT_BOTH_LOST,
            Reg.PWR_EVENT_LIMIT, Reg.PWR_EVENT_THERM, Reg.PWR_EVENT_CALIB_STALE, Reg.PWR_EVENT_REFCLK_LOSS,
            Reg.PWR_EVENT_HUB_WDOG],
          u.get f = if v.getLsbD f.lo = true then 0 else s.get f % 2) ∧
      (∃ u, wr (0x20010 / 8) = .next u ∧ u = { s with regs := u.regs } ∧ u.get Reg.PWR_ALERT_EN_EN =
        bitsOf v.toNat Reg.PWR_ALERT_EN_EN.hi Reg.PWR_ALERT_EN_EN.lo) ∧
      (let x := bitsOf v.toNat Reg.PWR_LIMIT_SUST_W.hi Reg.PWR_LIMIT_SUST_W.lo
       ∃ u, exec (.registerWrite (.bar0 (Fin.ofNat 8388608 (Reg.PWR_LIMIT_SUST_W.base / 8))) v) s = .next u ∧
        (1000 ≤ x → x ≤ 2800 → u.get Reg.PWR_LIMIT_SUST_W = x) ∧
        (x < 1000 ∨ 2800 < x → s.get Reg.PWR_LIMIT_SUST_W < 2 ^ Reg.PWR_LIMIT_SUST_W.width →
          u.get Reg.PWR_LIMIT_SUST_W = s.get Reg.PWR_LIMIT_SUST_W)) ∧
      (s.get Reg.TIME_SCLK_COUNT < 2 ^ 64 → ∃ u, wr (0x20100 / 8) = .next u ∧
        u.get Reg.TIME_SCLK_COUNT = s.get Reg.TIME_SCLK_COUNT ∧ ∀ k, ∀ d, k ≠ Reg.TIME_SCLK_COUNT.key 0 0 → smapGet d u.regs k = smapGet d s.regs k) ∧
      (∀ i : Fin 2048, ∃ u w, wr (Fin.ofNat 8388608 ((0x30000 + 16 * i.val) / 8)) = .next u ∧
        exec (.registerWrite (.bar0 (Fin.ofNat 8388608 ((0x30008 + 16 * i.val) / 8))) v) s = .next w ∧
        let old := smapGet MsixEntry.reset s.hub.msix i.val
        smapGet MsixEntry.reset u.hub.msix i.val = { old with addr := v } ∧
        smapGet MsixEntry.reset w.hub.msix i.val = { old with data := v.setWidth 32, masked := v.getLsbD 32 }) ∧
      (∀ i : Fin 512, ∃ u, wr (Fin.ofNat 8388608 (0x11000 / 8 + i.val)) = .next u ∧
        u.pilot.mbox.reqBuf = smapWrite 0 s.pilot.mbox.reqBuf (8 * i.val) (leBytes 8 v.toNat) ∧ u.regs = s.regs) ∧
      (∀ n : BitVec 13,
        let b := smapRead 0 s.pilot.mbox.reqBuf 0 n.toNat
        let served : Prop := 0 < n.toNat ∧ n.toNat ≤ 4096 ∧ b.head? ∈ [some 0x00, some 0x05, some 0x7E]
        ∃ u, exec (.mboxGo n) s = .next u ∧ u.get Reg.MBOX_CTRL_REQ_LEN = n.toNat ∧
          (s.get Reg.MBOX_STAT_BUSY = 1 → u.pilot = s.pilot ∧ u.get Reg.MBOX_STAT_OVERRUN = 1) ∧
          (s.get Reg.MBOX_STAT_BUSY = 0 → served → u.pilot.mbox.reqs = s.pilot.mbox.reqs ++ [(b, false)] ∧
            u.get Reg.MBOX_STAT_BUSY = 1 ∧ u.get Reg.MBOX_STAT_ERR = 0) ∧
          (s.get Reg.MBOX_STAT_BUSY = 0 → ¬ served → u.pilot = s.pilot ∧ u.get Reg.MBOX_STAT_ERR = 1 ∧
            u.get Reg.MBOX_STAT_RSP_LEN = 0)) ∧
      (∀ r, s.pilot.mbox.rsp = some r → r.length < 2 ^ 13 → ∃ u, exec .mboxResponse s = .next u ∧
        u.get Reg.MBOX_STAT_BUSY = 0 ∧ u.get Reg.MBOX_STAT_DONE = 1 ∧ u.get Reg.MBOX_STAT_RSP_LEN = r.length ∧
        u.pilot.mbox.rsp = none ∧ smapRead 0 u.pilot.mbox.rspBuf 0 r.length = r)) ∧
    (s.pilot.mbox.rsp = none → exec .mboxResponse s = .next s) ∧
    (∀ b : List Byte, b.head? = some 0 →
      (s.pilot.boot ∈ [Boot.ready, .noRef, .failed, .parked, .recovery] →
        exec (.mctpControl (some b)) s = .next (s.emit (.mctp (Config.mctpAnswer b)))) ∧
      (s.pilot.boot ∈ [Boot.waitRef, .running, .held, .tripped] → exec (.mctpControl (some b)) s = .next (s.emit .nack)) ∧
      (∀ lost rest, s.pilot.boot = .ready → s.pilot.mbox.reqs = (b, lost) :: rest → ∃ u, exec (.mctpControl none) s = .next u ∧
        u.pilot.mbox.reqs = rest ∧ u.pilot.mbox.rsp = if lost then s.pilot.mbox.rsp else some (Config.mctpAnswer b))) ∧
    (s.jtagOn = true → ∀ preload : Nat,
      exec .jtagBypass s = .next (s.emit (.jtag 0)) ∧
      exec .jtagIdcode s = .next (s.emit (.jtag (0xBE438001 + Config.jtagMfr % 2 ^ 11 * 2))) ∧
      exec .jtagExtest s = .next (s.emit (.pins s.pilot.boundary)) ∧
      ∃ u x, exec (.jtagSample preload) s = .next u ∧ u.out = s.out ++ [.jtag x] ∧ u.pilot.boundary = preload ∧
        u.regs = s.regs ∧ u.tiles = s.tiles) ∧
    (s.jtagOn = false → ∀ preload : Nat, ∀ c ∈ [Instr.jtagBypass, .jtagIdcode, .jtagExtest, .jtagSample preload],
      exec c s = .next s)

/-- R453 to R455, R460 to R463. A request is served over I3C or the mailbox; layouts of vendor messages are presumed (log 52), and the nonce is free (log 1). -/
def Obligations.LifeCycleCommands : Prop :=
  ∀ (s : State) (req : Option (List Byte)) (body : Bytes) (feedDrop flashFail : Bool),
    let served : Nat → Prop := fun cmd => (s.request req).bind (s.vendorBody cmd) = some body ∧ s.meet req.isSome cmd = .serve
    let answers : Instr → Nat → Nat → Bytes → State → Prop := fun c cmd code rsp v =>
      exec c s = .next (v.respond req (s.vendorRsp cmd code rsp))
    let f := s.pilot.flash
    (served 0x10 → body = [] → answers (.lcStatus req) 0x10 0 (leBytes 1 f.lcState ++ leBytes 4 f.count ++
      leBytes 8 f.secVersion ++ leBytes 16 Config.unitId ++ leBytes 4 s.lcFlags ++ leBytes 1 s.pilot.fwCheck ++
      leBytes 4 s.tokenLeft) s) ∧
    (served 0x1B → body = [] → ∃ rsp, rsp.length = 36 ∧ answers (.wearStatus req) 0x1B 0 rsp s) ∧
    (served 0x11 → body = [] → ∃ n v, n.length = 32 ∧ v = { s with fresh := v.fresh, pilot := { s.pilot with nonce := some n } } ∧
      answers (.lcNonce req) 0x11 0 n v) ∧
    exec .nonceExpiry s = .next { s with pilot := { s.pilot with nonce := none } } ∧
    (served 0x13 → f.lcState ≠ 2 → answers (.certStore req) 0x13 0x02 [] s) ∧
    (served 0x13 → f.lcState = 2 → body ≠ [] → body.length ≤ 3968 → s.worn 2 = false → ∃ v,
      v.pilot.flash.certs = body ∧ v.regs = s.regs ∧ smapGet 0 v.pilot.flash.wear 2 = smapGet 0 f.wear 2 + 1 ∧
      answers (.certStore req) 0x13 0 [] v) ∧
    (served 0x18 → s.worn 3 = false →
      (∀ x : Byte, body = [x] → 1 ≤ x.toNat → x.toNat ≤ 3 → ∃ v, v.pilot.fwCheck = x.toNat ∧ v.regs = s.regs ∧
        (∃ b, v.pilot.flash.settings = some b ∧ b.fwCheck = x.toNat ∧
          ∀ a, f.settings = some a → b.serial = (a.serial + 1) % 2 ^ 32) ∧ answers (.setSettings req) 0x18 0 [] v) ∧
      (∀ x : Byte, body = [x] → x.toNat = 0 ∨ 3 < x.toNat → answers (.setSettings req) 0x18 0x01 [] s)) ∧
    (served 0x12 → s.transitionCode body ≠ 0 → ∃ v, v.pilot.flash = s.pilot.flash ∧ v.regs = s.regs ∧ v.tiles = s.tiles ∧
      answers (.lcTransition req feedDrop flashFail) 0x12 (s.transitionCode body) [] v) ∧
    (s.transitionCode body = 0 → s.pilot.nonce = some (slice body 24 32) ∧ rd body 6 1 = f.lcState ∧
      rd body 8 16 = Config.unitId % 2 ^ 128 ∧ rd body 56 4 = f.count ∧ s.feedsOk = true ∧ s.pilot.staging = none ∧
      Config.ed25519Verify (slice body 96 32) (Config.sha512 (body.take 128)) (slice body 128 64) = true) ∧
    (served 0x12 → s.transitionCode body = 0 → ∃ u, exec (.lcTransition req feedDrop flashFail) s = .next u ∧
      u.pilot.token = none ∧ u.pilot.nonce = none ∧ u.tiles = [] ∧ u.parts = [] ∧ u.get Reg.RESET_CAUSE_CAUSE = 2 ∧
      u.pilot.flash.lcState = if feedDrop then f.lcState else if flashFail then 0xFF else rd body 7 1)

/-- R457, R464, R465. A session that has ended answers 0x0A, and layouts are presumed (NOTES.md, Assumptions; log 52). -/
def Obligations.StagingAndTokens : Prop :=
  ∀ (s : State) (req : Option (List Byte)) (body : Bytes),
    let served : Nat → Prop := fun cmd => (s.request req).bind (s.vendorBody cmd) = some body ∧ s.meet req.isSome cmd = .serve
    let answers : Instr → Nat → Nat → Bytes → State → Prop := fun c cmd code rsp v =>
      exec c s = .next (v.respond req (s.vendorRsp cmd code rsp))
    let k := rd body 0 1
    let n := rd body 1 4
    let token : Token := ⟨rd body 60 4, rd body 64 2, Config.sha512 body, s.get Reg.TIME_SCLK_COUNT + rd body 56 4 * 32768⟩
    let ended : State := { s with pilot := { s.pilot with staging := none } }
    (served 0x14 → s.pilot.boot = .ready → body.length = 5 → 1 ≤ k → k ≤ 4 →
      (s.pilot.staging ≠ none → answers (.stageBegin req) 0x14 0x07 [] s) ∧
      (s.pilot.staging = none → n = 0 ∨ 4096 * slotUnits k < n → answers (.stageBegin req) 0x14 0x0A [] s) ∧
      (s.pilot.staging = none → 0 < n → n ≤ 4096 * slotUnits k → s.worn (stageArea k) = false → ∃ v g,
        v = { s with pilot := { s.pilot with staging := some g, flash := v.pilot.flash } } ∧ g.kind = k ∧ g.total = n ∧
        g.data = [] ∧ v.pilot.flash.stagedOf k = [] ∧ v.pilot.flash.active = s.pilot.flash.active ∧
        answers (.stageBegin req) 0x14 0 [] v)) ∧
    (∀ g, served 0x15 → s.pilot.staging = some g → 4 < body.length → body.length ≤ 3972 →
      (rd body 0 4 ≠ g.data.length ∨ g.total < g.data.length + (body.length - 4) →
        answers (.stageData req) 0x15 0x0A [] s) ∧
      (rd body 0 4 = g.data.length → g.data.length + (body.length - 4) ≤ g.total →
        bit g.check 0 = false ∨ headerLen g.kind ≤ g.data.length ∨ g.data.length + (body.length - 4) < headerLen g.kind →
        answers (.stageData req) 0x15 0 []
          { s with pilot := { s.pilot with staging := some { g with data := g.data ++ body.drop 4 } } })) ∧
    (served 0x15 → s.pilot.staging = none → answers (.stageData req) 0x15 0x0A [] s) ∧
    (∀ g, served 0x16 → body = [] → s.pilot.staging = some g →
      (g.data.length ≠ g.total → answers (.stageFinish req) 0x16 0x0A [] s) ∧
      (g.data.length = g.total → bit g.check 0 = false → ∃ v,
        v = { s with pilot := { s.pilot with staging := none, flash := v.pilot.flash } } ∧
        v.pilot.flash.stagedOf g.kind = g.data ∧ v.pilot.flash.active = s.pilot.flash.active ∧
        answers (.stageFinish req) 0x16 0 [] v)) ∧
    (served 0x17 → body = [] → answers (.stageAbort req) 0x17 0 [] ended) ∧
    exec .stageTimeout s = .next ended ∧
    (s.tokenCode body = 0 → s.pilot.nonce = some (slice body 24 32) ∧ rd body 6 1 = s.pilot.flash.lcState ∧
      rd body 8 16 = Config.unitId % 2 ^ 128 ∧ s.pilot.flash.operator = some (slice body 96 32) ∧
      Config.ed25519Verify (slice body 96 32) (Config.sha512 (body.take 128)) (slice body 128 64) = true) ∧
    (served 0x19 → s.tokenCode body = 0 → ∃ v, v.pilot = { s.pilot with nonce := none, token := some token } ∧
      v = { s with pilot := v.pilot, prism := { s.prism with rights := v.prism.rights } } ∧
      answers (.debugToken req) 0x19 0 [] v) ∧
    (served 0x19 → s.tokenCode body ≠ 0 → answers (.debugToken req) 0x19 (s.tokenCode body) [] s) ∧
    (served 0x1A → body = [] → ∃ v, v.pilot = { s.pilot with token := none } ∧
      v = { s with pilot := v.pilot, prism := { s.prism with rights := v.prism.rights } } ∧
      answers (.debugRevoke req) 0x1A 0 [] v) ∧
    ∃ v, exec .debugTokenExpiry s = .next v ∧ v.pilot = { s.pilot with token := none } ∧
      v = { s with pilot := v.pilot, prism := { s.prism with rights := v.prism.rights } }

/-- R316 to R320, R452. Contents of SPDM messages and the cryptography are opaque (logs 11, 25); details of provisioning messages are logged (52, 58). -/
def Obligations.SpdmAndProvisioning : Prop :=
  (∀ (s : State) (req : Option (List Byte)) (b : Bytes) (code : Nat) (c : Instr), s.request req = some b → rd b 0 1 = 5 →
    rd b 2 1 = code →
    (c, code) ∈ [(Instr.getVersion req, 0x84), (.getCapabilities req, 0xE1), (.negotiateAlgorithms req, 0xE3),
      (.getDigests req, 0x81), (.getCertificate req, 0x82), (.spdmChallenge req, 0x83), (.getMeasurements req, 0xE0),
      (.vendorDefinedRequest req, 0xFE)] →
    let k := connOf req
    let m := b.drop 1
    (s.meetSpdm req.isSome = .nack → exec c s = .next (s.emit .nack)) ∧
    (s.meetSpdm req.isSome = .silent → exec c s = .next s) ∧
    (s.meetSpdm req.isSome = .serve →
      (s.pilot.flash.identity = false → exec c s = .next (s.respond req (5 :: Config.spdmError m))) ∧
      (s.pilot.flash.identity = true → code ≠ 0xFE → ∃ n r, ∃ v : State, n.length = 32 ∧
        r = Config.spdmAnswer (if code = 0x84 then [] else (s.conn k).transcript) s.pilot.flash.certs s.measurements n m ∧
        v = { s with fresh := v.fresh, ten := { s.ten with conns := v.ten.conns } } ∧
        (v.conn k).transcript = (if code = 0x84 then [] else (s.conn k).transcript) ++ m ++ r ∧
        (code = 0xE0 → bit (rd m 2 1) 0 = true → rd r 1 1 = 0x60 → (v.conn k).measured = true) ∧
        (∀ j, j ≠ k → v.conn j = s.conn j) ∧ exec c s = .next (v.respond req (5 :: r))) ∧
      (s.pilot.flash.identity = true → code = 0xFE →
        (slice m 4 5 = slice (s.vendorDefined 0 0 []) 4 5 → k = 0 ∨ (s.conn k).inbox = [] →
          ∃ u, exec c s = .next u ∧ (u.conn k).inbox = (s.conn k).inbox ++ [m] ∧ (∀ j, j ≠ k → u.conn j = s.conn j) ∧
            u.out = s.out) ∧
        (slice m 4 5 ≠ slice (s.vendorDefined 0 0 []) 4 5 → exec c s = .next (s.respond req (5 :: Config.spdmError m)))))) ∧
  ∀ (s : State) (c : Fin 2),
    (∃ u, exec (.provSessionTimeout c) s = .next u ∧ (u.conn c.val).prov = none ∧ ∀ j, j ≠ c.val → u.conn j = s.conn j) ∧
    ∀ m, (s.conn c.val).inbox.head? = some m →
      let x := s.conn c.val
      let b := vendorPayload m
      let n := rd b 0 4
      let k := rd b 4 2
      (b.length = 160 →
        (∀ o, s.ownerOfKey (b.take 32) = some o → x.measured = true →
          Config.ed25519Verify (b.take 32) (Config.sha512 (x.transcript ++ m.take (11 + 96))) (slice b 96 64) = true →
          ∃ u p, exec (.provOpen c) s = .next u ∧ (u.conn c.val).prov = some p ∧ p.owner = o ∧ p.seq = 0 ∧
            (u.conn c.val).inbox = x.inbox.drop 1 ∧ u.prism = s.prism) ∧
        (s.ownerOfKey (b.take 32) = none ∨ x.measured = false → ∃ u, exec (.provOpen c) s = .next u ∧
          (u.conn c.val).prov = x.prov ∧ (u.conn c.val).inbox = x.inbox.drop 1 ∧ u.prism = s.prism)) ∧
      (b.length = 120 →
        (∀ p w, x.prov = some p → p.seqOk n = true → rd b 6 2 = 0 → k < 2048 → (s.keyEntry k).state = .reserved →
          (s.keyEntry k).owner = p.owner → Config.gcmOpen p.keyIn (provNonce (b.take 4)) (b.take 8) (b.drop 8) = some w →
          w.length = 96 → w.take 32 ≠ slice w 32 32 → ∃ u, exec (.provKey c) s = .next u ∧
            u.keyEntry k = { s.keyEntry k with
                             state := .valid, gen := ((s.keyEntry k).gen + 1) % 2 ^ 32, material := leNat w } ∧
            (∀ j, j ≠ k → u.keyEntry j = s.keyEntry j) ∧ (u.conn c.val).prov = some { p with seq := n } ∧
            (u.conn c.val).inbox = x.inbox.drop 1) ∧
        (x.prov = none → ∃ u, exec (.provKey c) s = .next u ∧ u.prism = s.prism ∧ (u.conn c.val).inbox = x.inbox.drop 1)) ∧
      (b.length = 24 →
        (∀ p, x.prov = some p → p.seqOk n = true → rd b 4 4 ≤ 1 →
          (Config.gcmOpen p.keyIn (provNonce (b.take 4)) (b.take 8) (b.drop 8)).isSome = true →
          ∃ u, exec (.provPolicy c) s = .next u ∧
            u.owner p.owner = { s.owner p.owner with ingress := decide (rd b 4 4 = 1) } ∧
            (∀ j, j ≠ p.owner → u.owner j = s.owner j) ∧ (u.conn c.val).prov = some { p with seq := n }) ∧
        (x.prov = none → ∃ u, exec (.provPolicy c) s = .next u ∧ u.ten.owners = s.ten.owners ∧ u.prism = s.prism))

/-- R231 to R235, R238 to R243, R246, R247. Port states: 1 TRAINING, 2 UP, 3 SETUP, 4 OPEN, 5 REFUSED, 6 FAILED, 7 RETRAINING. Logs 44, 47, 49, 51. -/
def Obligations.PortsTrainAndCarryGroups : Prop :=
  ∀ (s : State) (port : PortIx),
    let p := port.val
    let x := s.port p
    let st := s.portState p
    let hello : State → Nat → Prop := fun u n => u.portState p = 3 ∧ (u.port p).setup.nonce.length = 32 ∧
      (u.port p).setup.restarts = n ∧ (u.port p).setupTx = [setupMsg 0x01 (unitKey ++ (u.port p).setup.nonce ++ leBytes 2 1)]
    let down : State → Prop := fun u => u.portState p = (if st = 4 ∨ st = 7 then 7 else 1) ∧
      (st ≠ 4 → st ≠ 7 → (u.port p).setup.entry = none ∧ (u.port p).setupTx = [])
    (∀ n, x.setup.entry = some n → n < 256) →
    let linkOn : Prop := s.portMode p = 1 ∧ 2 ≤ st ∧ st ≤ 5 ∧ s.getF Reg.PORT_CTRL_LOOPBACK p 0 ≠ 1
    (∀ rev : Bool,
      (s.portMode p = 0 ∨ s.getF Reg.PORT_CTRL_LOOPBACK p 0 = 1 → exec (.linkUp port rev) s = .next s) ∧
      (s.portMode p ≠ 0 → s.getF Reg.PORT_CTRL_LOOPBACK p 0 ≠ 1 → ∃ u, exec (.linkUp port rev) s = .next u ∧
        (st = 7 → u.portState p = 4 ∧ (u.port p).again = x.retry.length ∧ (u.port p).retry = x.retry) ∧
        (st = 1 → s.portMode p = 1 → hello u 0) ∧
        (st = 1 → s.portMode p ≠ 1 → u.portState p = 2 ∧ u.link = s.link) ∧
        (st = 1 ∨ st = 7 → u.getF Reg.PORT_STAT_LOS p 0 = 0 ∧
          u.getF Reg.PORT_STAT_LANE_REV p 0 = (if rev then 1 else 0)) ∧
        (st ≠ 1 → st ≠ 7 → u = s))) ∧
    exec (.losRetry port) s = .next (if st = 1 then s.setF Reg.PORT_STAT_LOS p 0 1 else s) ∧
    (s.portMode p = 1 → st = 1 → ∃ v : State, v = { s with regs := v.regs } ∧ v.portState p = 6 ∧
      v.getF Reg.PORT_STAT_LAST_ERR p 0 = 0x0402 ∧ exec (.trainTimeout port) s = .next (v.noteError 0x0402 0 0x1FFF 0 0)) ∧
    (s.portMode p ≠ 1 ∨ st ≠ 1 → exec (.trainTimeout port) s = .next s) ∧
    (s.hubUp = true → s.portMode p ≠ 0 → ∃ u, exec (.portRetrain port) s = .next u ∧ down u) ∧
    (s.portMode p ≠ 0 → st ≠ 0 → st ≠ 6 → ∃ u, exec (.lossOfSignal port) s = .next u ∧ down u ∧
      u.getF Reg.PORT_STAT_LOS p 0 = 1) ∧
    (s.portMode p = 0 ∨ st = 0 ∨ st = 6 → exec (.lossOfSignal port) s = .next s) ∧
    exec (.resendRetrain port) s = .next (if st = 4 ∧ 8 ≤ x.resent.2 then s.setPortState p 7 else s) ∧
    (∃ u, exec (.retryTimeout port) s = .next u ∧ u.port p = { x with again := x.retry.length } ∧
      ∀ q, q ≠ p → u.port q = s.port q) ∧
    (¬ linkOn → ∀ k picks d c n, exec (.groupSend port k picks) s = .next s ∧ exec (.groupReceive port d c n) s = .next s) ∧
    (linkOn → ∀ (kind : Fin 4) (picks : List (Fin 4)), ∃ u, exec (.groupSend port kind picks) s = .next u ∧
      (kind = 3 → s.ctlSlot p = false → ∃ b, b.length = 1064 ∧ u.out = s.out ++ [.group p b] ∧ (u.port p).nak = false ∧ (u.port p).retry = x.retry) ∧
      (2 ≤ kind.val → s.ctlSlot p = true → u = s) ∧
      (kind = 2 → s.ctlSlot p = false → x.setupTx.flatMap id ≠ [] → ∃ b, b.length = 1064 ∧ u.out = s.out ++ [.group p b] ∧
        slice b 16 1024 = fit 1024 (x.setupTx.flatMap id) ∧
        ((x.setupTx.flatMap id).length ≤ 1024 → (u.port p).setupTx = [])) ∧
      (kind.val < 2 → (s.sendKey p).isSome = true → 0 < x.again → x.again ≤ x.retry.length → x.run < 63 →
        ∃ g, x.retry[x.retry.length - x.again]? = some g ∧ u.out = s.out ++ [.group p g.bytes] ∧
          (u.port p).again = x.again - 1 ∧ (u.port p).retry = x.retry ∧ (u.port p).seq = x.seq) ∧
      (kind.val < 2 → (s.sendKey p).isSome = true → x.again = 0 → x.retry.length < 1024 → x.seq < 2 ^ 32 - 1 →
        (∀ g ∈ x.retry, g.epoch = x.txEpoch) →
        (kind = 1 → x.ctlTx ≠ []) → (kind = 0 → st = 4 ∧ x.run < 63 ∧ (x.pick picks).2 ≠ [] ∧
          ((x.pick picks).2.length = 16 ∨ (x.pick picks).1.padVc ≠ none)) →
        ∃ g, u.out = s.out ++ [.group p g.bytes] ∧ g.bytes.length = 1064 ∧ g.seq = x.seq ∧ g.kind = kind.val ∧
          (u.port p).seq = x.seq + 1 ∧ (u.port p).retry = x.retry ++ [g] ∧
          (kind = 1 → (u.port p).ctlTx = x.ctlTx.drop 16) ∧ (kind = 0 → (u.port p).tx = (x.pick picks).1.tx))) ∧
    (linkOn → ∀ (d : List Byte) (c n : Nat), ∃ u, exec (.groupReceive port d c n) s = .next u ∧
      (0 < n ∨ d.length ≠ 1064 ∨ crc32 (d.take 1056) ≠ rd d 1056 4 → u.port p = { x with nak := true } ∧ u.out = s.out) ∧
      (n = 0 → d.length = 1064 → crc32 (d.take 1056) = rd d 1056 4 →
        (∀ e, ((∃ keys ini, s.recvKeys p = some (keys, ini) ∧ e ∈ keys.map Prod.fst) ∨ (s.recvKeys p = none ∧ e = x.rxEpoch)) →
          e % 2 = (if bit (rd d 0 8) 60 then 1 else 0) →
          (e = x.rxEpoch → rd d 0 4 ≠ x.expect) ∧ (x.rxEpoch < e → rd d 0 4 ≠ 0)) → u.link = s.link)) ∧
    (∀ (rx : Bool) (tail : BitVec 16), exec (.ethTailWrite port rx tail) s = .next (if s.portMode p = 2 then
      s.setF (if rx then Reg.ETH_RX_IDX_TAIL else Reg.ETH_TX_IDX_TAIL) p 0 tail.toNat else s)) ∧
    (s.portMode p = 2 → st = 2 → s.getF Reg.PORT_CTRL_LOOPBACK p 0 ≠ 1 →
      (s.ringNext p false = none → exec (.ethFrameTransmit port) s = .next s) ∧
      (∀ a v w d b, s.ringNext p false = some a → s.hubRead a 16 = (v, .ok d) →
        (v.descOk (rd d 0 8) (rd d 8 8) 60 9212 (rd d 8 8 % 2 ^ 16) = false →
          exec (.ethFrameTransmit port) s = .next (v.ringDone p false a (rd d 8 8) true)) ∧
        (v.descOk (rd d 0 8) (rd d 8 8) 60 9212 (rd d 8 8 % 2 ^ 16) = true →
          v.hubRead (rd d 0 8) (rd d 8 8 % 2 ^ 16) = (w, .ok b) → exec (.ethFrameTransmit port) s =
            .next ((w.emit (.frame p (b ++ leBytes 4 (crc32 b)))).ringDone p false a (rd d 8 8) false))) ∧
      ∀ f : List Byte, 64 ≤ f.length →
        let b := f.take (f.length - 4)
        (9216 < f.length ∨ crc32 b ≠ rd f (f.length - 4) 4 ∨ s.ringNext p true = none →
          exec (.ethFrameReceive port f) s = .next (s.portCount Reg.PORT_RX_DROP p 1)) ∧
        (f.length ≤ 9216 → crc32 b = rd f (f.length - 4) 4 → ∀ a v w d, s.ringNext p true = some a →
          s.hubRead a 16 = (v, .ok d) → v.descOk (rd d 0 8) (rd d 8 8) 9212 65535 (rd d 8 8 % 2 ^ 16) = true →
          v.hubWrite (rd d 0 8) b = (w, none) →
          exec (.ethFrameReceive port f) s = .next (w.ringDone p true a b.length false)))

/-- R247 to R250. The SPDM exchange's contents and verdict are opaque (log 25); the transcript under KX's signature is read in log 48. -/
def Obligations.SetupOfALink : Prop :=
  ∀ (s : State) (port : PortIx),
    let p := port.val
    let st := s.portState p
    (∀ n, (s.port p).setup.entry = some n → n < 256) →
    let refused : State → State → Nat → Prop := fun v u code => u.portState p = 5 ∧
      u.getF Reg.PORT_STAT_LAST_ERR p 0 = code ∧ (u.port p).setupTx = (v.port p).setupTx ++ [setupMsg 0x04 (leBytes 2 code)] ∧
      (u.port p).setup.entry = none
    let hello : State → Nat → Prop := fun u n => u.portState p = 3 ∧ (u.port p).setup.nonce.length = 32 ∧
      (u.port p).setup.restarts = n ∧ (u.port p).setupTx = [setupMsg 0x01 (unitKey ++ (u.port p).setup.nonce ++ leBytes 2 1)]
    (∀ b v, s.takeSetup p 0x01 = some (b, v) → st = 3 → (v.port p).setup.hello = none →
      let key := slice b 0 32
      (b.length ≠ 66 ∨ rd b 64 2 ≠ 1 → ∃ u, exec (.linkHello port) s = .next u ∧ refused v u 0x0409) ∧
      (b.length = 66 → rd b 64 2 = 1 → s.entryOf key 3 ≠ none → ∃ u, exec (.linkHello port) s = .next u ∧ refused v u 0x0401 ∧
        u.get Reg.PEER_REFUSED_COUNT = min (2 ^ Reg.PEER_REFUSED_COUNT.width - 1) (s.get Reg.PEER_REFUSED_COUNT + 1)) ∧
      (b.length = 66 → rd b 64 2 = 1 → s.entryOf key 3 = none → s.entryOf key 2 = none →
        ∃ u, exec (.linkHello port) s = .next u ∧ (u.port p).setup.stage = 1 ∧
          (u.port p).setup.hello = some (key, slice b 32 32) ∧ u.portState p = 3 ∧
          (isInitiator key = false → (u.port p).setupTx = (v.port p).setupTx) ∧
          (isInitiator key = true → ∃ m, (u.port p).setupTx = (v.port p).setupTx ++ [setupMsg 0x02 m]))) ∧
    (s.takeSetup p 0x01 = none → exec (.linkHello port) s = .next s) ∧
    (∀ b v key nonce, s.takeSetup p 0x02 = some (b, v) → (s.port p).setup.hello = some (key, nonce) →
      (st ≠ 3 ∨ (s.port p).setup.stage ≠ 1 → exec (.linkSpdm port) s = .next v) ∧
      (st = 3 → (s.port p).setup.stage = 1 →
        let r := (v.updPort p fun x => { x with setup := { x.setup with
          transcript := x.setup.transcript ++ setupMsg 0x02 b } }).spdmTurn p
        let sent := (v.port p).setupTx ++ (if r.1.isEmpty then [] else [setupMsg 0x02 r.1])
        ∃ u, exec (.linkSpdm port) s = .next u ∧
          (setupSpdm b = false ∨ r.2 = 2 ∨ (r.2 = 1 ∧ s.frame.admits key = false) → u.portState p = 5 ∧ u.getF Reg.PORT_STAT_LAST_ERR p 0 = 0x0409 ∧
            (u.port p).setupTx = sent ++ [setupMsg 0x04 (leBytes 2 0x0409)]) ∧
          (setupSpdm b = true → r.2 ≠ 1 → r.2 ≠ 2 → u.portState p = 3 ∧ (u.port p).setupTx = sent ∧ (u.port p).setup.stage = 1) ∧
          (∀ n < 256, setupSpdm b = true → r.2 = 1 → s.frame.admits key = true → s.peerState n = 0 → (∀ m < n, s.peerState m ≠ 0) →
            u.peerState n = 1 ∧ (u.port p).setup.stage = 2 ∧ (u.port p).setup.entry = some n ∧
            (u.port p).setup.priv.length = 32 ∧ (u.port p).setupTx = sent ++ [setupMsg 0x03 (ownKx (u.port p).setup)]))) ∧
    (let u0 := (s.port p).setup
     (st ≠ 3 ∨ u0.stage ≠ 2 → exec (.linkKx port) s = .next s) ∧
     (∀ b v key nonce, st = 3 → u0.stage = 2 → s.takeSetup p 0x03 = some (b, v) → u0.hello = some (key, nonce) →
      let good : Bool := b.length = 96 && Config.ed25519Verify key (Config.sha512 u0.transcript) (b.drop 32)
      ∃ u, exec (.linkKx port) s = .next u ∧ (good = false → refused v u 0x0409) ∧
        (good = true → (u.port p).setup.stage = 3 ∧ (u.port p).setup.keys.isSome = true ∧
          (u.port p).ctlTx = (v.port p).ctlTx ++ [ctlMsg 0x00 []] ∧ u.portState p = 3))) ∧
    (∀ b v, s.takeSetup p 0x04 = some (b, v) → (st ≠ 3 → exec (.linkRefuse port) s = .next v) ∧
      (st = 3 → ∃ u, exec (.linkRefuse port) s = .next u ∧ u.portState p = 5 ∧ u.getF Reg.PORT_STAT_LAST_ERR p 0 = rd b 0 2 ∧
        (u.port p).setup.entry = none)) ∧
    (st ≠ 3 ∨ s.joins p = true → exec (.setupTimeout port) s = .next s) ∧
    (st = 3 → s.joins p = false → ∃ u, exec (.setupTimeout port) s = .next u ∧
      ((s.port p).setup.restarts < 3 → hello u ((s.port p).setup.restarts + 1)) ∧
      (3 ≤ (s.port p).setup.restarts → refused s u 0x0409)) ∧
    (st = 3 → s.joins p = true → ∃ u, exec (.joinTimeout port) s = .next u ∧ refused s u 0x0409) ∧
    (st ≠ 3 ∨ s.joins p = false → exec (.joinTimeout port) s = .next s) ∧
    (st = 5 → ∃ u, exec (.refusedHelloRetry port) s = .next u ∧ hello u 0) ∧
    (st ≠ 5 → exec (.refusedHelloRetry port) s = .next s)

/-- R239, R240, R242, R245, R246, R249 to R252. depart is the end of a session of R251. -/
def Obligations.SessionsOpenRekeyAndEnd : Prop :=
  ∀ (s : State) (port : PortIx),
    let p := port.val
    (∀ q n, (s.port q).setup.entry = some n → n < 256) →
    (∀ b v key nonce ks, ∀ n < 256, s.takeCtl p 0x00 = some (b, v) → (s.port p).setup.hello = some (key, nonce) →
      (s.port p).setup.entry = some n → (s.port p).setup.keys = some ks → s.portState p = 3 → (s.port p).setup.stage = 3 →
      s.entryOf key 2 = none → ∃ u, exec (.controlNop port) s = .next u ∧ u.peerState n = 2 ∧ u.portState p = 4 ∧
        u.portPeer p = some n ∧ (u.session n).ident = key ∧ (u.session n).sid = ks.2.2 ∧
        (u.session n).initiator = isInitiator key ∧
        (u.session n).txKeys = [(0, if isInitiator key then ks.1 else ks.2.1)] ∧
        (u.session n).rxKeys = [(0, if isInitiator key then ks.2.1 else ks.1)]) ∧
    (s.takeCtl p 0x00 = none → exec (.controlNop port) s = .next s) ∧
    (∀ n : Fin 256, (s.peerState n = 3 → ∃ u, exec (.drainEnd n) s = .next u ∧ u.peerState n = 0 ∧
        u.session n = Session.empty ∧ u.mem = s.mem) ∧ (s.peerState n ≠ 3 → exec (.drainEnd n) s = .next s)) ∧
    (s.portState p ≠ 7 → exec (.linkLoss port) s = .next s) ∧
    ∀ n < 256, s.portPeer p = some n →
      (s.portState p = 7 → (s.port p).retry = [] → (∀ l ∈ (s.port p).tx, ∀ f ∈ l.head?, f.first = true) →
        (∃ q ∈ s.peerPorts n, q ≠ p ∧ s.portState q = 4) → ∃ u, exec (.linkLoss port) s = .next u ∧ u.portState p = 1 ∧
          u.portPeer p = none ∧ (u.port p).tx = [[], [], [], []] ∧ u.peerState n = s.peerState n ∧ u.session n = s.session n) ∧
      ((s.port p).seq < 2 ^ 31 ∨ (s.session n).rekey = true → exec (.rekeyStart port) s = .next s) ∧
      (2 ^ 31 ≤ (s.port p).seq → (s.session n).rekey = false → ∃ u, exec (.rekeyStart port) s = .next u ∧
        u.session n = { s.session n with rekey := true } ∧ u.regs = s.regs ∧
        (u.port p).ctlTx = (s.port p).ctlTx ++ [ctlMsg 0x01 (leBytes 4 (topEpoch (s.session n).txKeys + 1))]) ∧
      (∀ b v e k old, s.takeCtl p 0x01 = some (b, v) → (s.session n).rxKeys = (e, k) :: old →
        (rd b 8 4 ≠ e + 1 → exec (.linkRekey port) s = .next v) ∧
        (rd b 8 4 = e + 1 → ∃ u, exec (.linkRekey port) s = .next u ∧ u.session n = { s.session n with
                                                                                      rxKeys := (e + 1, nextKey k (e + 1)) :: (e, k) :: old.take 1, tagFails := 0 } ∧
          (u.port p).ctlTx = (v.port p).ctlTx ++ [ctlMsg 0x02 (leBytes 4 (e + 1))])) ∧
      (∀ b v e k old, s.takeCtl p 0x02 = some (b, v) → (s.session n).txKeys = (e, k) :: old →
        ((s.session n).rekey = false ∨ rd b 8 4 ≠ e + 1 → exec (.linkRekeyAck port) s = .next v) ∧
        ((s.session n).rekey = true → rd b 8 4 = e + 1 → ∃ u, exec (.linkRekeyAck port) s = .next u ∧
          u.session n = { s.session n with txKeys := (e + 1, nextKey k (e + 1)) :: (e, k) :: old.take 1,
                                           rekey := (s.session n).rekeyNext.isSome, rekeyNext := none } ∧
          ∀ q ∈ s.peerPorts n, (u.port q).txEpoch = e + 1 ∧ (u.port q).seq = 0 ∧
            (u.port q).joining = ((s.port q).joining && decide (e + 1 < (s.port q).joinEpoch)))) ∧
      (∀ b v q, (s.takeCtl p 0x03 = some (b, v) ∨ s.takeCtl p 0x04 = some (b, v)) →
        v.heard (s.session n).ident (slice b 48 16) = some q →
        let c : Instr := if s.takeCtl p 0x03 = some (b, v) then .linkJoin port else .linkJoinAck port
        (slice b 8 32 ≠ fit 32 (s.session n).sid → exec c s = .next v) ∧
        (slice b 8 32 = fit 32 (s.session n).sid → ∃ u, exec c s = .next u ∧ u.portState q = 4 ∧ u.portPeer q = some n ∧
          (u.port q).joining = true ∧ (u.session n).rekey = true ∧
          ((s.session n).rekey = true → (u.session n).rekeyNext = some p))) ∧
      (2 ^ 32 - 1 ≤ (s.port p).seq →
        exec (.seqExhausted port) s = .next ((s.setF Reg.PORT_STAT_LAST_ERR p 0 0x040B).depart n)) ∧
      ((s.port p).seq < 2 ^ 32 - 1 → exec (.seqExhausted port) s = .next s) ∧
      (16 ≤ (s.session n).tagFails →
        exec (.tagFailLimit port) s = .next ((s.setF Reg.PORT_STAT_LAST_ERR p 0 0x0404).depart n)) ∧
      ((s.session n).tagFails < 16 → exec (.tagFailLimit port) s = .next s) ∧
      (∀ b v, s.takeCtl p 0x05 = some (b, v) → exec (.linkLeave port) s = .next (v.depart n))

/-- R253 to R259. lookStart is the look of R363. What is refused with which code at COLL_GROUP and its FREE is read in NOTES.md (Assumptions). -/
def Obligations.CollectiveGroupsAndRequests : Prop :=
  (∀ (s v : State) (q : QueueIx) (c : HubCmd), s.lookStart q 0x14 = (v, .go c) → v.boundPart (v.qCtx q) ≠ none →
    let ctx := v.qCtx q
    let num := c.o 0 % 16
    let n := bitsOf (c.o 0) 12 4
    (s.groupCmd q false = true →
      (v.groupOf ctx num ≠ none ∨ n < 2 ∨ 256 < n → exec (.collGroup q) s = .next (v.endCmd q 0x0408)) ∧
      (v.groupOf ctx num = none → c.o 0 < 2 ^ 14 → 2 ≤ n → n ≤ 256 → c.o 2 < 2 ^ 63 → aligned (c.o 2) 64 = true →
        (∀ w e, v.hubRead (c.o 2) (2 * n) = (w, .error e) → exec (.collGroup q) s = .next (w.endCmd q e)) ∧
        ∀ w b, v.hubRead (c.o 2) (2 * n) = (w, .ok b) →
          let l := (List.range n).map fun i => rd b (2 * i) 2
          (w.listOk l = false → exec (.collGroup q) s = .next (w.endCmd q 0x0408)) ∧
          (w.listOk l = true → ∃ u, exec (.collGroup q) s = .next u ∧ ∃ g ∈ u.link.groups, g.ctx = ctx ∧ g.num = num ∧
            g.gtag = c.o 1 ∧ g.k = 0 ∧ g.broken = false ∧
            g.members = l.map fun e => if bit e 15 then none else some (e % 256)))) ∧
    (s.groupCmd q true = true →
      (v.groupOf ctx num = none → exec (.collGroupFree q) s = .next (v.endCmd q 0x0408)) ∧
      (∀ g, v.groupOf ctx num = some g → c.o 0 / 16 = 2 ^ 9 → c.o 1 = 0 → c.o 2 = 0 →
        (g.broken = false → (∃ x ∈ v.link.colls, x.gtag = g.gtag) → exec (.collGroupFree q) s = .next (v.endCmd q 0x040A)) ∧
        (g.broken = true ∨ (∀ x ∈ v.link.colls, x.gtag ≠ g.gtag) → ∃ u, exec (.collGroupFree q) s = .next u ∧
          u.groupOf ctx num = none ∧ u.link.colls = v.link.colls)))) ∧
  (∀ (s v : State) (port : PortIx) (n : Nat) (m : LinkMsg), s.portPeer port = some n →
    (s.takeMsg port 0x02 = some (m, v) →
      (v.groupTag m.tag = none → exec (.groupHello port) s = .next { v with link := { v.link with
                                                                                      early := v.link.early ++ [{ peer := n, gtag := m.tag, digest := m.arg0 }] } }) ∧
      (∀ g, v.groupTag m.tag = some g →
        (g.ranksOf n = [] → exec (.groupHello port) s = .next v) ∧
        (g.ranksOf n ≠ [] → m.arg0 ≠ rd g.digest 0 8 → exec (.groupHello port) s = .next (v.endGroupCmd g 0x0408)) ∧
        (g.ranksOf n ≠ [] → m.arg0 = rd g.digest 0 8 → ∃ u h, exec (.groupHello port) s = .next u ∧
          u.groupTag m.tag = some h ∧ h.hellos = g.hellos ++ g.ranksOf n ∧ h.members = g.members))) ∧
    (s.takeMsg port 0x03 = some (m, v) → ∀ g, v.groupTag m.tag = some g →
      let r := bitsOf m.arg0 23 16
      (g.members[r]? ≠ some (some n) → exec (.peerNote port) s = .next v) ∧
      (g.members[r]? = some (some n) →
        exec (.peerNote port) s = .next ((v.updGroup g.gtag fun g => { g with broken := true }).failGroup g.gtag 0x0405) ∧
        ((∀ x ∈ v.link.colls, x.gtag ≠ g.gtag) → ∃ u, exec (.peerNote port) s = .next u ∧
          u.groupTag m.tag = some { g with broken := true }))) ∧
    (s.takeMsg port 0x01 = some (m, v) → ∀ g, v.groupTag m.tag = some g → g.broken = false →
      g.members[bitsOf m.arg0 39 32]? = some (some n) →
      let k := m.arg0 % 2 ^ 32
      let wait : State := { v with link := { v.link with waiting := v.link.waiting ++ [(n, m)] } }
      let room : Prop := ((v.link.waiting.map fun w => w.2.payload.length).sum + m.payload.length) ≤ 67108864
      ((∀ x ∈ v.link.colls, x.gtag = g.gtag → x.k % 2 ^ 32 ≠ k) →
        ((k + 2 ^ 32 - g.k % 2 ^ 32) % 2 ^ 32 < 2 ^ 31 →
          (room → exec (.collData port) s = .next wait) ∧ (¬ room → exec (.collData port) s = .next s)) ∧
        (2 ^ 31 ≤ (k + 2 ^ 32 - g.k % 2 ^ 32) % 2 ^ 32 → v.link.waiting.length ≤ s.link.waiting.length →
          exec (.collData port) s = .next v)) ∧
      ∀ x ∈ v.link.colls, v.link.colls.find? (fun c => c.gtag = g.gtag && c.k % 2 ^ 32 = k) = some x →
        (x.running = false ∨ x.loaded = false →
          (room → exec (.collData port) s = .next wait) ∧ (¬ room → exec (.collData port) s = .next s)) ∧
        (x.running = true → x.loaded = true → (v.takeColl x.tile m).link.waiting.length ≤ s.link.waiting.length →
          exec (.collData port) s = .next (v.takeColl x.tile m)))) ∧
  (∀ (s v : State) (t : TileIx) (m : NetMsg) (p : Nat), s.takeRequest t 3 = some (m, v) → s.partOf t = some p →
    let w := (List.range 4).map fun j => (m.words.getD j 0).toNat
    let w0 := w.getD 0 0
    let group := v.groupOf (v.part p).ctx (bitsOf w0 14 11)
    let ins := v.crossStreams p (bitsOf w0 22 17) false
    let outs := v.crossStreams p (bitsOf w0 28 23) true
    let refused : Nat → Nat → Prop := fun code k => exec (.collectiveReq t) s = .next (v.refuseColl t m.srcEp code k)
    (group = none → refused 0x040A 0) ∧
    ∀ g, group = some g →
      (g.broken = true → refused 0x0405 g.k) ∧
      (g.broken = false → g.ready = false ∨ collForm w g.members.length = false → refused 0x040A g.k) ∧
      (g.broken = false → g.ready = true → collForm w g.members.length = true → ∀ c : Coll, c.words = w →
        let r := if bit w0 15 then 0 else v.rangeCode p false (w.getD 2 0) (vBytes c.fmt c.count)
        let o := if bit w0 16 then 0 else v.rangeCode p true (w.getD 3 0) (vBytes c.outFmt (c.outCount g.members.length))
        (r ≠ 0 → refused r g.k) ∧ (r = 0 → o ≠ 0 → refused o g.k) ∧
        (r = 0 → o = 0 → (bit w0 15 = true ∧ ins = []) ∨ (bit w0 16 = true ∧ outs = []) → refused 0x0302 g.k) ∧
        (r = 0 → o = 0 → (bit w0 15 = true → ins ≠ []) → (bit w0 16 = true → outs ≠ []) → ∃ u d,
          exec (.collectiveReq t) s = .next u ∧ u.link.colls = v.link.colls ++ [d] ∧ d.tile = t.val ∧ d.ep = m.srcEp ∧
          d.part = p ∧ d.gtag = g.gtag ∧ d.k = g.k ∧ d.words = w ∧ d.running = false ∧
          u.link.groups = v.link.groups.map fun x => if x.gtag = g.gtag then { x with k := x.k + 1 } else x))) ∧
  ∀ (s : State),
    ((∀ c ∈ s.link.colls, c.running = true) → exec .collectiveStart s = .next s) ∧
    (64 ≤ (s.link.colls.filter (·.running)).length → exec .collectiveStart s = .next s) ∧
    (∀ c, (s.link.colls.filter (·.running)).length < 64 → s.link.colls.find? (fun c => !c.running) = some c → ∃ w : State,
      w.link.colls = s.link.colls.map (fun d => if d.tile = c.tile then { d with running := true } else d) ∧
      w.mem = s.mem ∧ w.parts = s.parts ∧
      (bit (c.words.getD 0 0) 15 = true → exec .collectiveStart s = .next (w.feedColl c.tile)) ∧
      (bit (c.words.getD 0 0) 15 = false →
        let read := w.readMem c.part 0 (w.part c.part).uses (c.words.getD 2 0) (vBytes c.fmt c.count)
        (∀ x e, read = (x, .error e) → exec .collectiveStart s = .next (x.failColl c e)) ∧
        (∀ x b, read = (x, .ok b) → exec .collectiveStart s = .next (x.loadColl c.tile b)))) ∧
    (∀ (q : QueueIx) (c : HubCmd), s.qHead q = some c → exec (.collTimeout (.inl q)) s =
      .next (if c.op = 0x14 ∧ c.stage = .running then s.endCmd q 0x0407 else s)) ∧
    ∀ (t : TileIx) (c : Coll) (g : Group), s.collOf t = some c → s.groupTag c.gtag = some g →
      let seen : Prop := ∀ m ∈ g.others, (c.op = 3 → m.2 = c.root ∧ g.rank ≠ c.root) → s.collSeen c m.2 = true
      (seen → exec (.collTimeout (.inr t)) s = .next s) ∧
      (¬ seen → exec (.collTimeout (.inr t)) s = .next (s.failColl c 0x0407))

/-- R324 to R329, R410 to R412, R421. Gate states: 1 ARMED, 2 COLLECTING, 3 COMBINING, 4 RELEASING. PARAM_ROOT has no wire format (log 29); free sums are log 1. -/
def Obligations.GatesAndCaptures : Prop :=
  (∀ (s : State) (g : Fin 16) (gp : Nat) (m : Manifest) (e : GateEntry), s.gatePart g = some gp → s.gateManifest g = some m →
    m.entryOf g = some e →
    (∀ (i : Fin 16) (o : OwnerEntry) (r : Region) (a : Nat), m.owners[i.val]? = some o →
      s.regionAt o.part (0xF00 + g) = some (r, a) →
      ((s.gateState g ≠ 1 ∧ s.gateState g ≠ 2) ∨ bit e.ownerMask i = false → exec (.gateHeaderRead g i) s = .next s) ∧
      (s.gateState g = 1 ∨ s.gateState g = 2 → bit e.ownerMask i = true →
        (∀ v c, s.gateRead gp o.part a 64 = (v, .error c) →
          exec (.gateHeaderRead g i) s = .next (v.abandonGate m g 0x060B (some i.val))) ∧
        ∀ v b, s.gateRead gp o.part a 64 = (v, .ok b) →
          let n := rd b 0 8
          let count := rd b 8 4
          let fmt := rd b 12 1
          let run := (v.gateRun g).getD { step := n, heads := [], combined := none }
          let good : Prop := headClean b = true ∧ combineFmt e.combine fmt = true ∧ 4096 + payloadBytes fmt count ≤ r.size ∧
            ∀ h ∈ run.heads, h.2 = (count, fmt)
          (n = 0 → exec (.gateHeaderRead g i) s = .next v) ∧
          (n ≠ 0 → n ≤ v.getF Reg.GATE_g_STEP_L g 0 ∨ run.step < n →
            exec (.gateHeaderRead g i) s = .next (v.addF Reg.GATE_g_STAT_IGNORED g 0 1)) ∧
          (n ≠ 0 → v.getF Reg.GATE_g_STEP_L g 0 < n → n = run.step → (∀ h ∈ run.heads, h.1 ≠ i.val) →
            (¬ good → exec (.gateHeaderRead g i) s =
              .next ((v.setGateRun g (some run)).abandonGate m g 0x060B (some i.val))) ∧
            (good → ∃ u, exec (.gateHeaderRead g i) s = .next u ∧
              u.gateRun g = some { run with heads := run.heads ++ [(i.val, count, fmt)] } ∧
              bit (u.getF Reg.GATE_g_STAT_HAVE g 0) i = true ∧ u.mem = v.mem ∧
              u.gateState g = if ∀ o ∈ m.participants e, ∃ h ∈ run.heads ++ [(i.val, count, fmt)], h.1 = o.1 then 3 else 2)))) ∧
    (s.gateState g ≠ 2 → exec (.gateTimeout g) s = .next s) ∧
    (∀ run, s.gateRun g = some run → s.gateState g = 2 →
      let missing := (m.participants e).filter fun o => run.heads.all fun h => h.1 ≠ o.1
      (∀ o, missing = [o] → exec (.gateTimeout g) s = .next (s.abandonGate m g 0x060A (some o.1))) ∧
      (missing.length ≠ 1 → exec (.gateTimeout g) s = .next (s.abandonGate m g 0x060A none))) ∧
    (∀ run i count fmt l, s.gateRun g = some run → run.heads = (i, count, fmt) :: l → s.gateState g = 3 →
      (∀ v j, s.payloads gp g (m.participants e) (payloadBytes fmt count) = (v, .error j) →
        exec (.gateCombineDone g) s = .next (v.abandonGate m g 0x060B (some j))) ∧
      (∀ v bs, s.payloads gp g (m.participants e) (payloadBytes fmt count) = (v, .ok bs) → ∃ u, ∃ els : List (Nat × Bool × Bool),
        exec (.gateCombineDone g) s = .next u ∧ u.gateState g = 4 ∧ els.length = count ∧
        (∀ k < count, ∃ w, els[k]? = some (combineElem e.combine fmt w
          (bs.map fun b => (unpackBits (fmtD fmt).bits count b).getD k 0))) ∧
        u.gateRun g = some { run with combined := some (packBits (fmtD fmt).bits (els.map (·.1)), fmt,
                                      els.any (fun x => x.2.1), els.any fun x => x.2.2) })) ∧
    (∀ run i count f l b fmt sat nan, s.gateRun g = some run → run.step < 2 ^ 64 → run.heads = (i, count, f) :: l →
      run.combined = some (b, fmt, sat, nan) → s.gateState g = 4 →
      (∀ v j, s.releaseAll gp g 4096 (m.participants e) b = (v, some j) →
        exec (.gateReleaseDone g) s = .next (v.abandonGate m g 0x060B (some j))) ∧
      (∀ v w, s.releaseAll gp g 4096 (m.participants e) b = (v, none) →
        v.releaseAll gp g 0 (m.participants e) (releaseHead run.step count fmt sat nan) = (w, none) → w.gateRun g = some run →
        ∃ u, exec (.gateReleaseDone g) s = .next u ∧ u.gateState g = 1 ∧ u.getF Reg.GATE_g_STEP_L g 0 = run.step ∧
          u.gateRun g = none ∧ u.getF Reg.GATE_g_STAT_HAVE g 0 = 0 ∧ u.mem = w.mem))) ∧
  (∀ fmt w xs,
    let vote : Nat → Int := fun x => if x % 4 = 1 then 1 else if x % 4 = 3 then -1 else 0
    combineElem 2 fmt w xs = (if 0 < (xs.map vote).sum then 1 else if (xs.map vote).sum < 0 then 3 else 0, false, false)) ∧
  ∀ (s : State) (p : PartIx) (c : Capture), (s.part p).capture = some c →
    (c.phase ≠ 0 → exec (.captureStageComplete p) s = .next s) ∧
    (c.phase = 0 → ∃ u, exec (.captureStageComplete p) s = .next u ∧
      ((∃ d, (u.part p).capture = some d ∧ d.phase = 1 ∧ d.sectors = c.sectors ∧ d.step = c.step ∧
          d.rng = ((s.codedTiles p).flatMap fun t => (s.tile t).rngRecord) ∧ d.stored = ((c.sectors.drop c.params).map fun x =>
            s.storedSector (capSector p x))) ∨
        c.sectors.drop c.params ≠ [] ∧ (u.part p).capture = none)) ∧
    (c.phase ≠ 1 → exec (.captureSendComplete p) s = .next s) ∧
    (c.phase = 1 → (∀ h ∈ c.holders, ∀ l, h ≠ .seeking l) → (∃ h ∈ c.holders, h ≠ .lost) →
      ∃ u, exec (.captureSendComplete p) s = .next u ∧ ((u.part p).capture = none ∨ ∃ d, (u.part p).capture = some d ∧
        (d.phase = 2 ∨ d.phase = 3) ∧ d.sectors = c.sectors ∧ d.step = c.step)) ∧
    (c.phase = 1 → (∀ h ∈ c.holders, h = .lost) → exec (.captureSendComplete p) s = .next (s.endCapture p)) ∧
    (∀ (g : Group) (rank : Fin 256) (root : List Byte), s.groupZero p = some g → c.phase = 2 → rank.val ∉ c.answered →
      rank.val < g.members.length →
      let agree := c.agree + (if root = c.root then 1 else 0)
      ∃ u, exec (.paramRoot p rank root) s = .next u ∧
        (c.answered.length + 1 ≠ g.members.length → (u.part p).capture =
          some { c with agree := agree, answered := c.answered ++ [rank.val] }) ∧
        (c.answered.length + 1 = g.members.length → 2 * agree ≤ g.members.length → (u.part p).capture = none) ∧
        (c.answered.length + 1 = g.members.length → g.members.length < 2 * agree →
          ∀ d, (u.part p).capture = some d → d.phase = 3 ∧ d.root = c.root)) ∧
    (c.phase = 2 →
      exec (.replicaComparisonTimeout p) s = .next ((s.setF Reg.REFL_COUNT_AGREE p 0 0).prepare p)) ∧
    (c.phase ≠ 2 → exec (.replicaComparisonTimeout p) s = .next s)

/-- R411, R412, R416 to R420, R423. Codes in MIRROR_COMMIT (log 30), the mirror an answer is for (log 31) and what a restore clears (log 32) are readings. -/
def Obligations.ReflectionMessages : Prop :=
  (∀ (s v : State) (port : PortIx) (n : Nat) (m : LinkMsg), n < 256 → (s.skimRefl port 4096).portPeer port = some n →
    (s.skimRefl port 4096).takeMsg port 0x11 = some (m, v) →
    let op := m.arg0 % 256
    let reply : Instr → State → Nat → Nat → Nat → Nat → Prop := fun i w k h code arg =>
      exec i s = .next (w.sendReflection n k h code arg false [])
    (op = 1 → v.link.mirrors.find? (fun x => x.id = fit 16 m.payload) = none →
      (∀ w, v.reserveSlots m.arg1 = (w, none) → reply (.reflReserve port) w 3 0 0 0) ∧
      (∀ w p o0 o1, v.reserveSlots m.arg1 = (w, some (p, o0, o1)) → ∃ (t : State) (x : Mirror),
        t.link.mirrors = w.link.mirrors ++ [x] ∧ x.handle = w.link.nextHandle ∧ t.link.nextHandle = x.handle + 1 ∧ x.peer = n ∧
        x.id = fit 16 m.payload ∧ x.part = p ∧ x.size = m.arg1 ∧ x.slot0 = o0 ∧ x.slot1 = o1 ∧ x.committed = none ∧
        reply (.reflReserve port) t 2 x.handle 0 0)) ∧
    (∀ x, op = 1 → v.link.mirrors.find? (fun x => x.id = fit 16 m.payload) = some x →
      (roundUp x.size 2097152 < roundUp m.arg1 2097152 → reply (.reflReserve port) v 3 0 0 0) ∧
      (roundUp m.arg1 2097152 ≤ roundUp x.size 2097152 → ∃ t : State, t.link.mirrors = (v.link.mirrors.map fun y =>
        if y.handle = x.handle then { y with peer := n, ident := (v.session n).ident, ready := false, code := 0 } else y) ∧
        reply (.reflReserve port) t 2 x.handle 0 0)) ∧
    (∀ x, v.asker n = some x →
      (op = 2 → ∃ u, exec (.reflGrant port) s = .next u ∧ u.holdOf x = .sending ∧ u.holderState x.1 x.2 = 2 ∧
        u.holderPeer x.1 x.2 = n ∧ (x.2 < (v.part x.1).handles.length → (u.part x.1).handles.getD x.2 0 = m.tag)) ∧
      (op = 3 → exec (.reflDecline port) s = .next (v.seekHolder x.1 x.2 (v.holdOf x).tried))) ∧
    (v.asker n = none → (op = 2 → exec (.reflGrant port) s = .next v) ∧ (op = 3 → exec (.reflDecline port) s = .next v)) ∧
    (∀ x, v.mirrorOf n m.tag = some x →
      let slot := if x.progress = 0 then x.rec0 else x.rec1
      let body := fit m.arg1 slot ++ m.payload
      let last := bit m.arg0 8
      let y : Mirror := { x with ready := last && decide (x.code = 0) }
      let y : Mirror := if x.progress = 0 then { y with rec0 := body } else { y with rec1 := body }
      (op = 4 → ∃ t : State, t.link.mirrors = (v.link.mirrors.map fun z => if z.handle = x.handle then y else z) ∧
        (last = true → reply (.reflPrepare port) t 5 x.handle x.code (recStep body)) ∧
        (last = false → exec (.reflPrepare port) s = .next t)) ∧
      (op = 6 → x.ready = true → recStep slot = m.arg1 → ∃ t : State, t.link.mirrors = (v.link.mirrors.map fun z =>
        if z.handle = x.handle then { z with committed := some x.progress, ready := false } else z) ∧
        reply (.reflCommit port) t 7 x.handle 0 m.arg1) ∧
      (op = 6 → x.ready = false ∨ recStep slot ≠ m.arg1 → exec (.reflCommit port) s = .next v) ∧
      (op = 12 → ∃ u, exec (.reflRelease port) s = .next u ∧ u.link.mirrors = v.link.mirrors.filter (fun z => z.handle ≠ x.handle) ∧
        u.mem = v.mem)) ∧
    (op = 8 → (∀ x ∈ v.link.mirrors, x.id = fit 16 m.payload → x.committed = none) → reply (.reflFetch port) v 10 0 0 0) ∧
    (∀ x, op = 8 → v.link.mirrors.find? (fun x => x.id = fit 16 m.payload && x.committed.isSome) = some x →
      exec (.reflFetch port) s = .next (v.serveFetch n x)) ∧
    (∀ x c, v.heldAs n m.tag = some x → (v.part x.1).capture = some c → c.step = m.arg1 →
      let code := bitsOf m.arg0 47 32
      (op = 5 → v.holdOf x = .preparing → code ≠ 0 → exec (.reflPrepared port) s = .next (v.loseHolder x.1 x.2 code)) ∧
      (op = 5 → v.holdOf x = .preparing → code = 0 → exec (.reflPrepared port) s =
        .next ((v.sendReflection n 6 m.tag 0 c.step false []).setHold x.1 x.2 .committing)) ∧
      (op = 5 → v.holdOf x ≠ .preparing → exec (.reflPrepared port) s = .next v) ∧
      (op = 7 → v.holdOf x ≠ .committing → exec (.reflCommitted port) s = .next v) ∧
      (op = 7 → v.holdOf x = .committing → c.step < 2 ^ 64 → ∃ u, exec (.reflCommitted port) s = .next u ∧
        u.getF Reg.REFL_STEP_STEP x.1 0 = c.step ∧ u.holderState x.1 x.2 = 3 ∧ u.holderPeer x.1 x.2 = n ∧
        u.getF Reg.REFL_COUNT_COMMITS x.1 0 = (let k := v.getF Reg.REFL_COUNT_COMMITS x.1 0
          if c.done then k else min (2 ^ 32 - 1) (k + 1)))) ∧
    (∀ x, op = 13 → v.heldAs n m.tag = some x → exec (.reflLost port) s = .next (v.loseHolder x.1 x.2 0)) ∧
    (∀ p r, op = 9 → v.restorer n [0, 1] = some (p, r) →
      let b := fit m.arg1 r.record ++ m.payload
      let last := bit m.arg0 8
      let w : State := v.updPart p fun x => { x with
                                              restore := some { r with record := b, stage := if last then 2 else 1, handle := m.tag } }
      (last = false ∨ w.recordGood p b = true → exec (.reflRecord port) s = .next w) ∧
      (last = true → w.recordGood p b = false → exec (.reflRecord port) s = .next (w.endRestore p 0x0205))) ∧
    (∀ p r, op = 10 → v.restorer n [0] = some (p, r) → exec (.reflNone port) s = .next (v.endRestore p 0x0207)) ∧
    (∀ p r, op = 11 → v.restorer n [2] = some (p, r) →
      (bitsOf m.arg0 47 32 ≠ 0 → exec (.reflDone port) s = .next (v.endRestore p (bitsOf m.arg0 47 32))) ∧
      (bitsOf m.arg0 47 32 = 0 → ∃ u, exec (.reflDone port) s = .next u ∧
        (u.part p).restore = some { r with stage := 3 } ∧ u.regs = v.regs))) ∧
  (∀ (s v : State) (port : PortIx) (n : Nat) (m : LinkMsg) (x : Mirror), s.portPeer port = some n →
    s.takeMsg port 0x10 = some (m, v) → v.mirrorOf n m.tag = some x →
    (roundUp x.size 2097152 < m.arg0 + m.payload.length → exec (.mirrorWrite port) s = .next v) ∧
    (m.arg0 + m.payload.length ≤ roundUp x.size 2097152 → ∃ t : State, t.mem = v.mem ∧ t.link.mirrors = (v.link.mirrors.map fun y =>
        if y.handle = x.handle then { y with ready := false, code := if m.arg0 = 0 then 0 else y.code } else y) ∧
      ∀ w, t.writeMem 33 (x.part + 1) [] (t.mirrorAddr x x.progress m.arg0) m.payload = (w, none) →
        exec (.mirrorWrite port) s = .next w)) ∧
  ∀ (s : State) (p : PartIx) (i : Fin 2),
    let ended : State → Nat → Prop := fun u code => (u.part p).restore = none ∧ u.getF Reg.REFL_STAT_BUSY p 0 = 0 ∧
      u.getF Reg.REFL_STAT_DONE p 0 = 1 ∧ u.getF Reg.REFL_STAT_CODE p 0 = code
    (∀ tried, s.holdOf (p.val, i.val) = .seeking tried → exec (.reserveTimeout p i) s = .next (s.seekHolder p i tried)) ∧
    ((∀ tried, s.holdOf (p.val, i.val) ≠ .seeking tried) → exec (.reserveTimeout p i) s = .next s) ∧
    (s.hubUp = true → s.getF Reg.REFL_STAT_BUSY p 0 = 1 →
      exec (.reflCtrlRelease p) s = .next (s.setF Reg.REFL_STAT_OVERRUN p 0 1) ∧
      exec (.reflRestore p) s = .next (s.setF Reg.REFL_STAT_OVERRUN p 0 1)) ∧
    (s.hubUp = true → s.getF Reg.REFL_STAT_BUSY p 0 = 0 → ∃ u, exec (.reflCtrlRelease p) s = .next u ∧
      ∀ k < 2, (u.part p).handles.getD k 0 = 0 ∧ ((s.part p).handles.getD k 0 ≠ 0 → u.holderState p k = 0)) ∧
    (s.hubUp = true → s.getF Reg.REFL_STAT_BUSY p 0 = 0 →
      let x := s.part p
      let busy : Bool := x.loaded && s.ctxBusy x.ctx
      (busy = true → exec (.reflRestore p) s = .next (s.refuseRestore p 0x0921)) ∧
      (busy = false → x.loaded = false ∨ x.image.refl.mirrors = 0 →
        exec (.reflRestore p) s = .next (s.refuseRestore p 0x0931)) ∧
      (busy = false → x.loaded = true → x.image.refl.mirrors ≠ 0 → ∃ u, exec (.reflRestore p) s = .next u ∧
        (let n := s.getF Reg.REFL_CTRL_PEER p 0
         (s.peerState n ≠ 2 → ended u 0x0207) ∧
         (s.peerState n = 2 → u.getF Reg.REFL_STAT_BUSY p 0 = 1 ∧
           (u.part p).restore = some { peer := n, handle := 0, stage := 0, record := [], data := [] })))) ∧
    (∀ r, (s.part p).restore = some r →
      (r.stage = 0 → ∃ u, exec (.restoreTimeout p) s = .next u ∧ ended u 0x0207) ∧
      (r.stage ≠ 0 → exec (.restoreTimeout p) s = .next s) ∧
      (r.stage ≠ 3 → exec (.restoreComplete p) s = .next s) ∧
      (r.stage = 3 → ∃ u, exec (.restoreComplete p) s = .next u ∧ ∃ code, ended u code))

/-- R77 to R83, R314, R400, R441. When a load shows what it did is a reading (NOTES.md, Assumptions); rectangles lie on the grid of 96 clusters. -/
def Obligations.LoadsUnloadsAndResets : Prop :=
  ∀ (s : State), (∀ r ∈ s.frame.parts, ∀ c ∈ r.clusters, c < 96) →
    (∀ p : PartIx,
      let x := s.part p
      let ended : State → Nat → Nat → Nat → Prop := fun u code sect entry => u.getF Reg.JOB_LOAD_STAT_BUSY p 0 = 0 ∧
        u.getF Reg.JOB_LOAD_STAT_DONE p 0 = 1 ∧ u.getF Reg.JOB_LOAD_STAT_CODE p 0 = code % 2 ^ 16 ∧
        u.getF Reg.JOB_LOAD_STAT_SECTION p 0 = sect % 2 ^ 8 ∧ u.getF Reg.JOB_LOAD_STAT_ENTRY p 0 = entry % 2 ^ 24
      (s.hubUp = true → x.busy ≠ .idle → exec (.jobLoad p) s = .next (s.setF Reg.JOB_LOAD_STAT_OVERRUN p 0 1) ∧
        exec (.unload p) s = .next (s.setF Reg.JOB_LOAD_STAT_OVERRUN p 0 1)) ∧
      (s.hubUp = true → x.busy = .idle →
        let c := s.getF Reg.JOB_LOAD_CTX_CTX p 0
        let image := (s.setF Reg.JOB_LOAD_STAT_BUSY p 0 1).readImage (64 * s.getF Reg.JOB_LOAD_ADDR_ADDR p 0)
        (∀ v e, image = (v, .error e) →
          exec (.jobLoad p) s = .next (v.updPart p fun y => { y with busy := .load e 0xFF 0 })) ∧
        ∀ v w b o err, image = (v, .ok b) → v.checkLoad b p c = (w, o, err) →
          exec (.jobLoad p) s = .next (w.updPart p fun y => { y with busy := match err with
            | some e => .load e.code e.sect e.entry
            | none => .loading (jobOf b) c o })) ∧
      (∀ code sect entry, x.busy = .load code sect entry → ∃ u, exec (.jobLoadComplete p) s = .next u ∧
        ended u code sect entry ∧ u.part p = { x with busy := .idle } ∧ u = { s with regs := u.regs, parts := u.parts }) ∧
      (∀ j c o, x.busy = .loading j c o →
        let failed := (s.partClusters p).any s.clusterFailed
        (failed = true → ∃ u, exec (.jobLoadComplete p) s = .next u ∧ ended u 0x0920 0xFF 0 ∧
          u.part p = { x with busy := .idle } ∧ u = { s with regs := u.regs, parts := u.parts }) ∧
        (failed = false → ∃ u, exec (.jobLoadComplete p) s = .next u ∧ ended u 0 0 0 ∧
          (u.part p).loaded = true ∧ (u.part p).image = j ∧ (u.part p).ctx = c ∧ (u.part p).owner = o ∧
          (u.part p).scheds = j.scheds ∧ (u.part p).busy = .idle ∧ u.getF Reg.JOB_LOAD_STAT_LOADED p 0 = 1 ∧
          u.getF Reg.JOB_SERIAL_SERIAL p 0 = j.serial % 2 ^ 64)) ∧
      ((∀ code sect entry, x.busy ≠ .load code sect entry) → (∀ j c o, x.busy ≠ .loading j c o) →
        exec (.jobLoadComplete p) s = .next s) ∧
      (s.hubUp = true → x.busy = .idle →
        (x.loaded = false → ∃ u, exec (.unload p) s = .next u ∧ ended u 0 0 0 ∧ u.parts = s.parts) ∧
        (x.loaded = true → s.ctxBusy x.ctx = true → ∃ u, exec (.unload p) s = .next u ∧ ended u 0x0921 0xFF 0 ∧
          u.parts = s.parts ∧ u.mem = s.mem) ∧
        (x.loaded = true → s.ctxBusy x.ctx = false → ∃ u, exec (.unload p) s = .next u ∧ (u.part p).busy = .unload ∧
          (u.part p).loaded = false ∧ u.getF Reg.JOB_LOAD_STAT_BUSY p 0 = 1 ∧
          (s.profileK = false → s.carveCtrls p ≠ [] → u.flooding p = true))) ∧
      (∀ cycles, (x.eclipse = false → exec (.eclipseComplete p cycles) s = .next s) ∧
        (x.eclipse = true → ∃ u, exec (.eclipseComplete p cycles) s = .next u ∧ (u.part p).eclipse = false ∧
          u.get Reg.ECLIPSE_COUNT_COUNT = min (2 ^ 64 - 1) (s.get Reg.ECLIPSE_COUNT_COUNT + 1) ∧
          u.get Reg.ECLIPSE_LAST_CYCLES = cycles.toNat ∧ u.get Reg.ECLIPSE_LAST_PART = p.val ∧
          (s.flooding p = true → (u.part p).busy = x.busy) ∧
          (x.busy = .unload → s.flooding p = false → ended u 0 0 0 ∧ (u.part p).busy = .idle) ∧
          (x.busy = .reset → s.flooding p = false → u.getF Reg.JOB_LOAD_STAT_BUSY p 0 = 0 ∧ (u.part p).busy = .idle))) ∧
      (∀ c : CtrlIx, s.mem.floods = [(c.val, p.val)] → x.eclipse = false → ∃ u, exec (.floodlightComplete c []) s = .next u ∧
        u.mem.floods = [] ∧ u.getF Reg.FLOOD_STAT_BUSY c 0 = 0 ∧ (x.busy = .unload → ended u 0 0 0 ∧ (u.part p).busy = .idle) ∧
        (x.busy = .reset → u.getF Reg.JOB_LOAD_STAT_BUSY p 0 = 0 ∧ (u.part p).busy = .idle)) ∧
      (s.hubUp = true → s.get Reg.FRAME_LOAD_STAT_BUSY = 0 → s.rect p ≠ none → ∃ u,
        exec (.partReset (BitVec.ofNat 32 (2 ^ p.val))) s = .next u ∧ (u.part p).loaded = false ∧ (u.part p).step = none ∧
        (u.isGate p = true → (u.part p).busy = .idle) ∧
        (u.isGate p = false → (u.part p).busy = .reset ∧ u.getF Reg.JOB_LOAD_STAT_BUSY p 0 = 1))) ∧
    (∀ mask, s.hubUp = true → s.get Reg.FRAME_LOAD_STAT_BUSY = 1 → exec (.partReset mask) s = .next s) ∧
    (∀ t : BitVec 11, s.hubUp = true →
      let x := s.tile t.toNat
      let allowed : Bool := s.pilot.debugTile && x.halted && (x.cause = 1 || x.cause = 3 || x.cause = 4 || x.cause = 5)
      ∃ u, exec (.tileReset t) s = .next u ∧ u.get Reg.TILE_RESET_INDEX = t.toNat ∧ (∀ k, k ≠ t.toNat → u.tile k = s.tile k) ∧
        (1536 ≤ t.toNat → u.tiles = s.tiles) ∧
        (t.toNat < 1536 → allowed = false → u.tile t.toNat = { x with dbgDenied := true }) ∧
        (t.toNat < 1536 → allowed = true →
          let y := u.tile t.toNat
          y.pc = x.entry ∧ y.entry = x.entry ∧ y.halted = !x.coded ∧ y.cause = Tile.reset.cause ∧ y.g = Tile.reset.g ∧
          y.p = Tile.reset.p ∧ y.dbgDenied = false ∧ y.imem = x.imem ∧ y.cubeQ = [] ∧ y.vecQ = [] ∧ y.movQ = [] ∧
          (x.anyRunning = false → y.scratch = x.scratch ∧ y.acc = x.acc ∧ y.latch = x.latch))) ∧
    (s.hubUp = true → ∀ persist : Bool,
      let v0 := s.set Reg.FRAME_LOAD_CTRL_PERSIST (if persist then 1 else 0)
      let image := v0.readImage (64 * s.get Reg.FRAME_LOAD_ADDR_ADDR)
      (s.get Reg.FRAME_LOAD_STAT_BUSY = 1 → exec (.frameLoad persist) s = .next (v0.set Reg.FRAME_LOAD_STAT_OVERRUN 1)) ∧
      (s.get Reg.FRAME_LOAD_STAT_BUSY = 0 →
        (∀ v e, image = (v, .error e) → exec (.frameLoad persist) s = .next (v.frameEnd e 0xFF 0)) ∧
        ∀ v b, image = (v, .ok b) →
          let idle : Bool := (List.range 32).all fun p =>
            (v.part p).busy = .idle && !((v.part p).loaded && v.ctxBusy (v.part p).ctx)
          let check := v.checkFrame b { boot := false, persist := persist, idle := idle, worn := v.worn 12 }
          let late : Bool := (v.frameChanges (frameOf b)).1 || (v.frameChanges (frameOf b)).2
          (∀ e, v.checkContainer b 1 v.isOperator = some e →
            exec (.frameLoad persist) s = .next (v.frameEnd e.code e.sect e.entry)) ∧
          (∀ e, v.checkContainer b 1 v.isOperator = none → check = some e →
            exec (.frameLoad persist) s = .next (v.frameEnd e.code e.sect e.entry)) ∧
          (v.checkContainer b 1 v.isOperator = none → check = none → ∃ w : State, w.get Reg.FRAME_LOAD_STAT_BUSY = 1 ∧
            w.frame = v.frame ∧ w.parts = v.parts ∧ w.mem = v.mem ∧
            (persist = true → v.worn 12 = false → w.pilot.flash.startFrame = some b) ∧
            (persist = false → w.pilot = v.pilot) ∧
            exec (.frameLoad persist) s = .next (if late then w else w.changeFrame (frameOf b))))) ∧
    (∀ f : FrameImage, s.frame.parts = [] → (∀ n < 256, s.peerState n ≠ 2) →
      (∀ q < 16, s.portMode q = f.portModes.getD q 0) → (s.changeFrame f).frame = f) ∧
    (s.get Reg.FRAME_LOAD_STAT_BUSY = 0 ∨ s.flooding 32 = true ∨ (∃ p < 32, (s.part p).eclipse = true) →
      exec .frameLoadComplete s = .next s) ∧
    (s.get Reg.FRAME_LOAD_STAT_BUSY = 1 → s.flooding 32 = false → (∀ p < 32, (s.part p).eclipse = false) → ∃ u,
      exec .frameLoadComplete s = .next u ∧ u.get Reg.FRAME_LOAD_STAT_BUSY = 0 ∧ u.get Reg.FRAME_LOAD_STAT_DONE = 1 ∧
      u.get Reg.FRAME_LOAD_STAT_CODE = 0 ∧ u.parts = s.parts ∧ u.mem = s.mem)

/-- R440, R443, R444. Which reset values the model names itself is logs 4 to 7. -/
def Obligations.ResetStateIsRowOne : Prop :=
  State.reset.canon ∧ State.reset.pending = [] ∧ State.reset.out = [] ∧ State.reset.mem.bytes = [] ∧
  State.reset.mem.lines = [] ∧ State.reset.mem.majors = [] ∧ State.reset.tiles = [] ∧ State.reset.parts = [] ∧
  State.reset.frame = FrameImage.builtin ∧ State.reset.pilot.boot = .waitRef ∧ State.reset.readyOut = false ∧
  State.reset.hubUp = false ∧ (∀ (f : Fld) (i j : Nat), State.reset.getF f i j = f.resetVal i j) ∧
  State.reset.get Reg.PWR_LIMIT_SUST_W = 2800 ∧ State.reset.get Reg.CLUSTER_CTRL_NAP_AFTER_US = 1000 ∧
  ∀ c < 96, State.reset.cluster c = 3

/-- The invariant of the model's own data: each table is sorted by key, and tiles, partitions and memory list nothing that reads as unlisted. -/
def Obligations.EveryStepKeepsTheForm : Prop :=
  ∀ s t : State, s.canon → step s = .next t → t.canon

/-- Every error that the spec names is an effect on the state, so the block goes on; free values are taken at a counter that never falls (log 1), outputs are only appended (log 2). -/
def Obligations.CommandsGoOnAndKeepTheQueue : Prop :=
  (∀ (c : Instr) (s : State), ∃ t, exec c s = .next t ∧ t.pending = s.pending ∧ s.out <+: t.out ∧ s.fresh ≤ t.fresh) ∧
  ∀ s : State, ∃ t, step s = .next t ∧ t.pending = s.pending.tail ∧ s.out <+: t.out

/-- R113 (04_tile_core.md), R98; R111, R371; R241, R243 to R245, R247 (10_links_and_collectives.md): HALT, a report of a tile and a received group answer a next state, and what it holds. The next state of a group that opens is that of the keys held; whether one opens is an opaque cipher's (log 25). -/
def Obligations.HaltsReportsAndGroupsComplete : Prop :=
  (∀ (s : State) (t : TileIx) (gd : Guard), s.canon →
    let x := s.tile t
    let idle : Prop := x.cubeQ = [] ∧ x.vecQ = [] ∧ x.movQ = []
    let halts : Res → Prop := fun r => ∃ u, r = .next u ∧
      u.tile t = { x with halted := true, normalEnd := true, wait := none, cause := 5, faultPc := x.pc, cycle := x.cycle + 1 } ∧
      (∀ k, k ≠ t.val → u.tile k = s.tile k) ∧ u.fab = s.fab ∧ u.mem = s.mem ∧ u.frame = s.frame ∧
      (∀ p step, s.partOf t = some p → (s.part p).step = some step → step.phase = .compute → s.fab.net = [] → s.link.colls = [] →
        ((∀ k ∈ s.codedTiles p, k ≠ t.val → (s.tile k).normalEnd = true) → ∃ y, (u.part p).step = some y ∧ y.phase ≠ .compute) ∧
        ((∃ k ∈ s.codedTiles p, k ≠ t.val ∧ (s.tile k).normalEnd = false ∧ (s.tile k).tileStep ≠ some step.n) → u.parts = s.parts))
    (s.issues t gd → idle → halts (exec (.halt t gd) s)) ∧
    (s.issues t gd → ¬ idle → exec (.halt t gd) s = s.withTile t { x with wait := some .halt }) ∧
    (s.active t = true → x.halted = false → x.wait = some .halt → idle → halts (exec (.waitResume t) s))) ∧
  (∀ (s : State) (t : TileIx),
    let rep : NetMsg → Bool := fun m => (decide (m.kind = .report) && decide (m.srcTile = t.val)) && !s.pathDown m.edges
    (s.fab.net.find? rep = none → exec (.tileReport t) s = .next s) ∧
    ∀ m, s.fab.net.find? rep = some m → ∃ u, exec (.tileReport t) s = .next u ∧
      (∀ p, s.partOf t = some p → (s.part p).loaded = true →
        ((s.part p).failed = false ∨ (∃ r, (s.part p).step = some r ∧ r.phase ≠ .ended) →
          (u.part p).failed = true ∧ (∀ r, (u.part p).step = some r → r.phase = .ended) ∧
          ∀ k ∈ s.partTiles p, NetMsg.mk .stop 0 0 k 0 [] 0 0 ∈ u.fab.net) ∧
        ((s.part p).failed = false → (u.tile t).reported = true) ∧
        ((s.part p).failed = true → (∀ r, (s.part p).step = some r → r.phase = .ended) →
          u.fab.net = s.fab.net.eraseP rep ∧ u.tiles = s.tiles ∧ u.parts = s.parts ∧ u.hub = s.hub ∧ u.mem = s.mem ∧
          u.out = s.out))) ∧
  ∀ (s : State) (port : PortIx) (d : List Byte) (c : Nat),
    let p := port.val
    let x := s.port p
    let hdr := rd d 0 8
    let kind := hdr / 2 ^ 61 % 4
    s.portMode p = 1 → 2 ≤ s.portState p → s.portState p ≤ 5 → s.getF Reg.PORT_CTRL_LOOPBACK p 0 ≠ 1 → d.length = 1064 →
    crc32 (d.take 1056) = rd d 1056 4 → s.epochsOf p hdr ≠ [] →
    let freed : PortSt → Prop := fun y => ∀ g rest, x.retry = g :: rest →
      let k := (hdr / 2 ^ 32 % 2 ^ 16 + 2 ^ 16 - g.seq % 2 ^ 16) % 2 ^ 16
      (k ≤ x.retry.length → y.retry = x.retry.drop k) ∧ (x.retry.length < k → y.retry = x.retry)
    ∃ u, exec (.groupReceive port d c 0) s = .next u ∧ (∀ q, q ≠ p → kind ≠ 0 → u.port q = s.port q) ∧
      (2 ^ 63 ≤ hdr ∨ rd d 1060 4 ≠ 0 → u.port p = { x with nak := true } ∧ u.out = s.out) ∧
      (hdr < 2 ^ 63 → rd d 1060 4 = 0 →
        (kind = 3 → freed (u.port p) ∧ (u.port p).expect = x.expect ∧ (u.port p).rx = x.rx ∧ (u.port p).ctlRx = x.ctlRx ∧
          (u.port p).setupRx = x.setupRx) ∧
        (kind = 2 → freed (u.port p) ∧ (u.port p).expect = x.expect ∧
          (u.port p).setupRx = x.setupRx ++ (setupsOf 1024 (x.setupBuf ++ slice d 16 1024)).1 ∧
          (u.port p).setupBuf = (setupsOf 1024 (x.setupBuf ++ slice d 16 1024)).2) ∧
        (kind < 2 → ∀ keys ini e, s.recvKeys p = some (keys, ini) → s.epochsOf p hdr = [e] →
          (openGroup keys ini d e = none → u.port p = { x with nak := true }) ∧
          ∀ pt, openGroup keys ini d e = some pt →
            (kind = 1 → freed (u.port p) ∧ (u.port p).expect = hdr % 2 ^ 32 + 1 ∧ (u.port p).rxEpoch = e ∧
              (u.port p).ctlRx = (if x.drain = none then x.ctlRx ++ ctlsOf pt else x.ctlRx)) ∧
            (kind = 0 → ∀ n, s.portPeer p = some n → (takeFlits x.rx (rd d 8 8) pt).2 = false → freed (u.port p) ∧
              (u.port p).expect = hdr % 2 ^ 32 + 1 ∧ (u.port p).rxEpoch = e ∧
              (u.port p).rx = (takeFlits x.rx (rd d 8 8) pt).1 ∧ ∀ q, q ≠ p → u.port q = s.port q)))
end

