-- ==== Sys2Proof/Laws/SMap.lean ====
section
/-!
SUPPORT. Sparse tables: a read after a write gives the value written, other keys keep theirs, and every
write keeps the canonical form.
-/

namespace Sys2Proof.Machine

variable {α : Type}

/-- Every key of a sorted table with head key `a` is above `a`. -/
theorem smapSorted_cons (a : Nat) (x : α) (m : List (Nat × α)) :
    smapSorted ((a, x) :: m) = true ↔ (∀ p ∈ m, a < p.1) ∧ smapSorted m = true := by
  induction m generalizing a x with
  | nil => simp [smapSorted]
  | cons q m ih =>
    obtain ⟨b, y⟩ := q
    simp only [smapSorted, Bool.and_eq_true, decide_eq_true_eq, List.mem_cons, forall_eq_or_imp]
    rw [ih]
    constructor
    · rintro ⟨h, h1, h2⟩
      exact ⟨⟨h, fun p hp => lt_trans h (h1 p hp)⟩, h1, h2⟩
    · rintro ⟨⟨h, _⟩, h1, h2⟩
      exact ⟨h, h1, h2⟩

theorem smapGet_of_lt (d : α) (m : List (Nat × α)) (k : Nat) (h : ∀ p ∈ m, k < p.1) :
    smapGet d m k = d := by
  induction m with
  | nil => rfl
  | cons q m ih =>
    obtain ⟨b, y⟩ := q
    have hb : k < b := h (b, y) (by simp)
    simp only [smapGet, if_neg (Nat.ne_of_lt hb)]
    exact ih fun p hp => h p (by simp [hp])

theorem smapGet_insert_same (d : α) (m : List (Nat × α)) (k : Nat) (v : α) :
    smapGet d (smapInsert m k v) k = v := by
  induction m with
  | nil => simp [smapInsert, smapGet]
  | cons q m ih =>
    obtain ⟨b, y⟩ := q
    simp only [smapInsert]
    split
    · simp [smapGet]
    · split
      · simp [smapGet]
      · simp [smapGet, *]

theorem smapGet_insert_other (d : α) (m : List (Nat × α)) (k j : Nat) (v : α) (h : j ≠ k) :
    smapGet d (smapInsert m k v) j = smapGet d m j := by
  induction m with
  | nil => simp [smapInsert, smapGet, h]
  | cons q m ih =>
    obtain ⟨b, y⟩ := q
    simp only [smapInsert]
    split
    · subst_vars; simp [smapGet, h]
    · split
      · simp [smapGet, h]
      · simp [smapGet, ih]

theorem smapGet_erase_other (d : α) (m : List (Nat × α)) (k j : Nat) (h : j ≠ k) :
    smapGet d (smapErase m k) j = smapGet d m j := by
  induction m with
  | nil => rfl
  | cons q m ih =>
    obtain ⟨b, y⟩ := q
    simp only [smapErase]
    split
    · subst_vars; simp [smapGet, h, ih]
    · simp [smapGet, ih]

theorem smapGet_erase_same (d : α) (m : List (Nat × α)) (k : Nat) : smapGet d (smapErase m k) k = d := by
  induction m with
  | nil => rfl
  | cons q m ih =>
    obtain ⟨b, y⟩ := q
    simp only [smapErase]
    split
    · exact ih
    · rename_i h
      simp [smapGet, h, ih]

theorem smapInsert_mem (m : List (Nat × α)) (k : Nat) (v : α) (p : Nat × α)
    (h : p ∈ smapInsert m k v) : p = (k, v) ∨ p ∈ m := by
  induction m with
  | nil => simpa [smapInsert] using h
  | cons q m ih =>
    obtain ⟨b, y⟩ := q
    simp only [smapInsert] at h
    split at h
    · rcases List.mem_cons.1 h with h | h
      · exact .inl h
      · exact .inr (List.mem_cons_of_mem _ h)
    · split at h
      · rcases List.mem_cons.1 h with h | h
        · exact .inl h
        · exact .inr h
      · rcases List.mem_cons.1 h with h | h
        · exact .inr (h ▸ List.mem_cons_self)
        · exact (ih h).imp id (List.mem_cons_of_mem _)

theorem smapErase_mem (m : List (Nat × α)) (k : Nat) (p : Nat × α)
    (h : p ∈ smapErase m k) : p ∈ m := by
  induction m with
  | nil => exact h
  | cons q m ih =>
    obtain ⟨b, y⟩ := q
    simp only [smapErase] at h
    split at h
    · exact List.mem_cons_of_mem _ (ih h)
    · rcases List.mem_cons.1 h with h | h
      · exact h ▸ List.mem_cons_self
      · exact List.mem_cons_of_mem _ (ih h)

/-- A key below or outside every entry is not erased. -/
theorem smapErase_of_lt (m : List (Nat × α)) (k : Nat) (h : ∀ p ∈ m, k < p.1) : smapErase m k = m := by
  induction m with
  | nil => rfl
  | cons q m ih =>
    obtain ⟨b, y⟩ := q
    have hb : k < b := h (b, y) List.mem_cons_self
    rw [smapErase, if_neg (Nat.ne_of_lt hb), ih fun p hp => h p (List.mem_cons_of_mem _ hp)]

theorem smapSorted_insert (m : List (Nat × α)) (k : Nat) (v : α) (hs : smapSorted m = true) :
    smapSorted (smapInsert m k v) = true := by
  induction m with
  | nil => rfl
  | cons q m ih =>
    obtain ⟨b, y⟩ := q
    have hs' := (smapSorted_cons b y m).1 hs
    simp only [smapInsert]
    split
    · subst_vars; exact (smapSorted_cons _ _ _).2 hs'
    · split
      · rename_i h1 h2
        refine (smapSorted_cons _ _ _).2 ⟨fun p hp => ?_, hs⟩
        rcases List.mem_cons.1 hp with hp | hp
        · exact hp ▸ h2
        · exact lt_trans h2 (hs'.1 p hp)
      · rename_i h1 h2
        refine (smapSorted_cons _ _ _).2 ⟨fun p hp => ?_, ih hs'.2⟩
        rcases smapInsert_mem m k v p hp with hp | hp
        · subst hp; show b < k; omega
        · exact hs'.1 p hp

theorem smapSorted_filter (m : List (Nat × α)) (q : Nat × α → Bool) (hs : smapSorted m = true) :
    smapSorted (m.filter q) = true := by
  induction m with
  | nil => rfl
  | cons p m ih =>
    have h := (smapSorted_cons p.1 p.2 m).1 hs
    simp only [List.filter_cons]
    split
    · exact (smapSorted_cons p.1 p.2 _).2 ⟨fun r hr => h.1 r (List.mem_of_mem_filter hr), ih h.2⟩
    · exact ih h.2

theorem smapSorted_erase (m : List (Nat × α)) (k : Nat) (hs : smapSorted m = true) :
    smapSorted (smapErase m k) = true := by
  induction m with
  | nil => rfl
  | cons q m ih =>
    obtain ⟨b, y⟩ := q
    have hs' := (smapSorted_cons b y m).1 hs
    simp only [smapErase]
    split
    · exact ih hs'.2
    · exact (smapSorted_cons _ _ _).2 ⟨fun p hp => hs'.1 p (smapErase_mem m k p hp), ih hs'.2⟩

variable [DecidableEq α]

theorem smapWf_iff (d : α) (m : List (Nat × α)) :
    smapWf d m = true ↔ smapSorted m = true ∧ ∀ p ∈ m, p.2 ≠ d := by
  simp [smapWf]

/-- A read after a write to the same key gives the value written. -/
theorem smapGet_set_same (d : α) (m : List (Nat × α)) (k : Nat) (v : α) :
    smapGet d (smapSet d m k v) k = v := by
  unfold smapSet
  split
  · subst_vars; exact smapGet_erase_same _ m k
  · exact smapGet_insert_same d m k v

/-- A write leaves every other key alone, whatever defaults the two sides use. -/
theorem smapGet_set_other (d d' : α) (m : List (Nat × α)) (k j : Nat) (v : α) (h : j ≠ k) :
    smapGet d' (smapSet d m k v) j = smapGet d' m j := by
  unfold smapSet
  split
  · exact smapGet_erase_other d' m k j h
  · exact smapGet_insert_other d' m k j v h

/-- A write keeps the keys rising. -/
theorem smapSorted_set (d : α) (m : List (Nat × α)) (k : Nat) (v : α) (hs : smapSorted m = true) :
    smapSorted (smapSet d m k v) = true := by
  unfold smapSet
  split
  · exact smapSorted_erase m k hs
  · exact smapSorted_insert m k v hs

/-- A write keeps the canonical form. -/
theorem smapWf_set (d : α) (m : List (Nat × α)) (k : Nat) (v : α) (h : smapWf d m = true) :
    smapWf d (smapSet d m k v) = true := by
  rw [smapWf_iff] at h ⊢
  refine ⟨smapSorted_set d m k v h.1, fun p hp => ?_⟩
  unfold smapSet at hp
  split at hp
  · exact h.2 p (smapErase_mem m k p hp)
  · rcases smapInsert_mem m k v p hp with hp | hp
    · subst hp; assumption
    · exact h.2 p hp

theorem smapWf_upd (d : α) (m : List (Nat × α)) (k : Nat) (f : α → α) (h : smapWf d m = true) :
    smapWf d (smapUpd d m k f) = true := smapWf_set d m k _ h

theorem smapSorted_write (d : α) (vs : List α) (m : List (Nat × α)) (k : Nat)
    (hs : smapSorted m = true) : smapSorted (smapWrite d m k vs) = true := by
  induction vs generalizing m k with
  | nil => exact hs
  | cons v vs ih => exact ih _ _ (smapSorted_set d m k v hs)

theorem smapWf_write (d : α) (vs : List α) (m : List (Nat × α)) (k : Nat)
    (h : smapWf d m = true) : smapWf d (smapWrite d m k vs) = true := by
  induction vs generalizing m k with
  | nil => exact h
  | cons v vs ih => exact ih _ _ (smapWf_set d m k v h)

/-- A write of a list leaves every key outside it alone. -/
theorem smapGet_write_other (d d' : α) (vs : List α) (m : List (Nat × α)) (k j : Nat)
    (h : j < k ∨ k + vs.length ≤ j) : smapGet d' (smapWrite d m k vs) j = smapGet d' m j := by
  induction vs generalizing m k with
  | nil => rfl
  | cons v vs ih =>
    simp only [smapWrite]
    rw [ih _ _ (by simp at h; omega), smapGet_set_other d d' m k j v (by simp at h; omega)]

omit [DecidableEq α] in
theorem smapInsert_insert (m : List (Nat × α)) (k : Nat) (v w : α) :
    smapInsert (smapInsert m k v) k w = smapInsert m k w := by
  induction m with
  | nil => simp [smapInsert]
  | cons q m ih =>
    obtain ⟨a, x⟩ := q
    simp only [smapInsert]
    split
    · simp [smapInsert]
    · split
      · simp [smapInsert]
      · simp_all [smapInsert]

omit [DecidableEq α] in
theorem smapErase_insert (m : List (Nat × α)) (k : Nat) (v : α) :
    smapErase (smapInsert m k v) k = smapErase m k := by
  induction m with
  | nil => simp [smapInsert, smapErase]
  | cons q m ih =>
    obtain ⟨a, x⟩ := q
    simp only [smapInsert]
    split
    · simp_all [smapErase]
    · split
      · simp_all [smapErase]
      · simp_all [smapErase]

omit [DecidableEq α] in
theorem smapInsert_erase (m : List (Nat × α)) (k : Nat) (v : α) (hs : smapSorted m = true) :
    smapInsert (smapErase m k) k v = smapInsert m k v := by
  induction m with
  | nil => simp [smapInsert, smapErase]
  | cons q m ih =>
    obtain ⟨a, x⟩ := q
    have h := (smapSorted_cons a x m).1 hs
    simp only [smapErase]
    split
    · subst_vars
      rw [smapErase_of_lt m _ h.1]
      simp only [smapInsert, ↓reduceIte]
      cases m with
      | nil => simp [smapInsert]
      | cons r m =>
        have := h.1 r (by simp)
        obtain ⟨b, y⟩ := r
        simp only at this
        simp [smapInsert, this, Nat.ne_of_lt this]
    · rename_i h1
      simp only [smapInsert, if_neg h1]
      split
      · rename_i h2
        rw [smapErase_of_lt m k fun p hp => lt_trans h2 (h.1 p hp)]
      · rw [ih h.2]

omit [DecidableEq α] in
theorem smapErase_erase (m : List (Nat × α)) (k : Nat) : smapErase (smapErase m k) k = smapErase m k := by
  induction m with
  | nil => simp [smapErase]
  | cons q m ih =>
    obtain ⟨a, x⟩ := q
    simp only [smapErase]
    split
    · exact ih
    · simp_all [smapErase]

/-- Two writes of one key are the second. -/
theorem smapSet_set (d : α) (m : List (Nat × α)) (k : Nat) (v w : α) (hs : smapSorted m = true) :
    smapSet d (smapSet d m k v) k w = smapSet d m k w := by
  unfold smapSet
  split <;> split
  · exact smapErase_erase m k
  · exact smapErase_insert m k v
  · exact smapInsert_erase m k w hs
  · exact smapInsert_insert m k v w

theorem smapWf_filter (d : α) (m : List (Nat × α)) (q : Nat × α → Bool) (h : smapWf d m = true) :
    smapWf d (m.filter q) = true := by
  rw [smapWf_iff] at h ⊢
  exact ⟨smapSorted_filter m q h.1, fun p hp => h.2 p (List.mem_of_mem_filter hp)⟩

end Sys2Proof.Machine
end

