-- ==== Sys2Proof/Laws/Keep.lean ====
section
/-!
SUPPORT. What every operation of the machine keeps: Keep s t says that t has the queue of s, that its free values are taken
at s's counter or later, that no output of s is retracted, and that t is canonical when s is. The lemmas of the files
Laws/Keep*.lean say so of each operation, of a state that already keeps an earlier one.
-/

namespace Sys2Proof.Machine

/-- What an operation keeps. -/
structure Keep (s t : State) : Prop where
  pending : t.pending = s.pending
  fresh : s.fresh ≤ t.fresh
  out : s.out <+: t.out
  canon : s.canon → t.canon

/-- What the outcome of a command keeps. -/
structure ResKeep (s : State) (r : Host.Outcome State Fault Refusal) : Prop where
  next : ∀ t, r = .next t → Keep s t

namespace Keep

theorem refl (s : State) : Keep s s := ⟨rfl, le_refl _, List.prefix_refl _, id⟩

theorem trans {s t u : State} (h : Keep s t) (k : Keep t u) : Keep s u :=
  ⟨k.pending.trans h.pending, h.fresh.trans k.fresh, h.out.trans k.out, fun c => k.canon (h.canon c)⟩

theorem next {s t : State} (h : Keep s t) : ResKeep s (.next t) := ⟨fun _ e => by cases e; exact h⟩

theorem cut {P : Prop} {s t : State} (h : Keep s t) (k : Keep s t → P) : P := k h

theorem of_fst {α : Type} {s t : State} {p : State × α} {a : α} (e : p = (t, a)) (h : Keep s p.1) : Keep s t := by
  subst e; exact h

/-- An update of fields that Keep does not speak of. -/
theorem upd {s0 s : State} {fab : Fabric} {prism : Prism} {frame : FrameImage} {hub : Hub} {link : Link} {ten : Tenants}
    {pilot : Pilot} (h : Keep s0 s) :
    Keep s0 ⟨s.pending, s.fresh, s.out, s.regs, s.tiles, fab, s.mem, prism, frame, s.parts, hub, link, ten, pilot⟩ :=
  h.trans ⟨rfl, le_refl _, List.prefix_refl _, id⟩

theorem regs {s0 s : State} {r : List (Nat × Nat)} (h : Keep s0 s) (k : smapSorted s.regs = true → smapSorted r = true) :
    Keep s0 ⟨s.pending, s.fresh, s.out, r, s.tiles, s.fab, s.mem, s.prism, s.frame, s.parts, s.hub, s.link, s.ten,
      s.pilot⟩ := by
  refine h.trans ⟨rfl, le_refl _, List.prefix_refl _, fun c => ?_⟩
  unfold State.canon at c ⊢
  exact ⟨k c.1, c.2⟩

theorem tiles {s0 s : State} {r : List (Nat × Tile)} (h : Keep s0 s)
    (k : smapWf Tile.reset s.tiles = true → smapWf Tile.reset r = true) :
    Keep s0 ⟨s.pending, s.fresh, s.out, s.regs, r, s.fab, s.mem, s.prism, s.frame, s.parts, s.hub, s.link, s.ten,
      s.pilot⟩ := by
  refine h.trans ⟨rfl, le_refl _, List.prefix_refl _, fun c => ?_⟩
  unfold State.canon at c ⊢
  exact ⟨c.1, k c.2.1, c.2.2⟩

theorem parts {s0 s : State} {r : List (Nat × Part)} (h : Keep s0 s)
    (k : smapWf Part.empty s.parts = true → smapWf Part.empty r = true) :
    Keep s0 ⟨s.pending, s.fresh, s.out, s.regs, s.tiles, s.fab, s.mem, s.prism, s.frame, r, s.hub, s.link, s.ten,
      s.pilot⟩ := by
  refine h.trans ⟨rfl, le_refl _, List.prefix_refl _, fun c => ?_⟩
  unfold State.canon at c ⊢
  exact ⟨c.1, c.2.1, k c.2.2.1, c.2.2.2⟩

theorem mem {s0 s : State} {r : Mem} (h : Keep s0 s) (k : Memory.wf s.mem = true → Memory.wf r = true) :
    Keep s0 ⟨s.pending, s.fresh, s.out, s.regs, s.tiles, s.fab, r, s.prism, s.frame, s.parts, s.hub, s.link, s.ten,
      s.pilot⟩ := by
  refine h.trans ⟨rfl, le_refl _, List.prefix_refl _, fun c => ?_⟩
  unfold State.canon at c ⊢
  exact ⟨c.1, c.2.1, c.2.2.1, k c.2.2.2⟩

/-- The residues and the Floodlight passes of memory stand beside its tables. -/
theorem memTail {s0 s : State} {stale : List Residue} {floods : List (Nat × Nat)} (h : Keep s0 s) :
    Keep s0 ⟨s.pending, s.fresh, s.out, s.regs, s.tiles, s.fab, ⟨s.mem.bytes, s.mem.lines, s.mem.majors, stale, floods⟩,
      s.prism, s.frame, s.parts, s.hub, s.link, s.ten, s.pilot⟩ :=
  mem h id

theorem foldl {α : Type} {s0 s : State} {f : State → α → State} {l : List α} (h : Keep s0 s)
    (hf : ∀ t a, Keep s0 t → Keep s0 (f t a)) : Keep s0 (l.foldl f s) := by
  induction l generalizing s with
  | nil => exact h
  | cons a l ih => exact ih (hf s a h)

theorem foldl_fst {α β : Type} {s0 : State} {p : State × β} {f : State × β → α → State × β} {l : List α}
    (h : Keep s0 p.1) (hf : ∀ q a, Keep s0 q.1 → Keep s0 (f q a).1) : Keep s0 (l.foldl f p).1 := by
  induction l generalizing p with
  | nil => exact h
  | cons a l ih => exact ih (hf p a h)

end Keep

end Sys2Proof.Machine
end

