-- ==== Sys2Proof/Laws/KeepOps.lean ====
section
/-!
SUPPORT. What the operations of Machine/Ops.lean keep (Laws/Keep.lean).
-/

set_option linter.unusedTactic false
set_option linter.unreachableTactic false

namespace Sys2Proof.Machine

theorem Keep.setF {s0 s : State} {f : Fld} {i j v : Nat} (h : Keep s0 s) : Keep s0 (s.setF f i j v) := by
  unfold State.setF
  exact Keep.regs h (smapSorted_set _ _ _ _)

theorem Keep.set {s0 : State} {s : State} {f : Fld} {v : Nat} (h0 : Keep s0 s) : Keep s0 (State.set s f v) := by
  unfold State.set
  repeat' first
    | with_reducible assumption
    | with_reducible apply Keep.setF

theorem Keep.addF {s0 : State} {s : State} {f : Fld} {i j n : Nat} (h0 : Keep s0 s) : Keep s0 (State.addF s f i j n) := by
  unfold State.addF
  repeat' first
    | with_reducible assumption
    | with_reducible apply Keep.setF

theorem Keep.resetF {s0 : State} {s : State} {f : Fld} {i j : Nat} (h0 : Keep s0 s) : Keep s0 (State.resetF s f i j) := by
  unfold State.resetF
  repeat' first
    | with_reducible assumption
    | with_reducible apply Keep.setF

theorem Keep.setAllF {s0 : State} {s : State} {f : Fld} {v : Nat} (h0 : Keep s0 s) : Keep s0 (State.setAllF s f v) := by
  unfold State.setAllF
  repeat' first
    | with_reducible assumption
    | intro _
    | with_reducible apply Keep.foldl
    | with_reducible apply Keep.setF

theorem Keep.resetRegs {s0 s : State} {k : ResetKind} (h : Keep s0 s) : Keep s0 (s.resetRegs k) := by
  unfold State.resetRegs
  exact Keep.regs h (smapSorted_filter _ _)

theorem Keep.resetPartRegs {s0 : State} {s : State} {i : Nat} (h0 : Keep s0 s) : Keep s0 (State.resetPartRegs s i) := by
  unfold State.resetPartRegs
  repeat' first
    | with_reducible assumption
    | intro _
    | with_reducible apply Keep.foldl
    | with_reducible apply Keep.resetF

theorem Keep.ticks {s0 s : State} {n : Nat} (h : Keep s0 s) :
    Keep s0 ⟨s.pending, s.fresh + n, s.out, s.regs, s.tiles, s.fab, s.mem, s.prism, s.frame, s.parts, s.hub, s.link, s.ten,
      s.pilot⟩ :=
  h.trans ⟨rfl, Nat.le_add_right _ _, List.prefix_refl _, id⟩

theorem Keep.tick {s0 s : State} (h : Keep s0 s) : Keep s0 s.tick := by
  unfold State.tick
  exact Keep.ticks h

theorem Keep.emit {s0 s : State} {o : Out} (h : Keep s0 s) : Keep s0 (s.emit o) := by
  unfold State.emit
  exact h.trans ⟨rfl, le_refl _, List.prefix_append _ _, id⟩

theorem Keep.cxlIo {s0 : State} {s : State} {f : State → State} (h0 : Keep s0 s) (hf : ∀ t, Keep s0 t → Keep s0 (f t)) : Keep s0 (State.cxlIo s f) := by
  unfold State.cxlIo
  repeat' first
    | with_reducible assumption
    | intro _
    | with_reducible apply Keep.emit
    | with_reducible apply hf
    | split

theorem Keep.updPart {s0 s : State} {p : Nat} {f : Part → Part} (h : Keep s0 s) : Keep s0 (s.updPart p f) := by
  unfold State.updPart
  exact Keep.parts h (smapWf_upd _ _ _ _)

theorem Keep.setCluster {s0 : State} {s : State} {c v : Nat} (h0 : Keep s0 s) : Keep s0 (State.setCluster s c v) := by
  unfold State.setCluster
  repeat' first
    | with_reducible assumption
    | ((try lift_lets -underBinder); intro x; first | (refine Keep.cut (s := s0) (t := x) ?_ ?_; (on_goal 1 => (unfold x; clear x)); (on_goal 2 => (clear_value x; intro k))) | (refine Keep.cut (s := s0) (t := x.1) ?_ ?_; (on_goal 1 => (unfold x; clear x)); (on_goal 2 => (clear_value x; intro k))) | clear_value x | skip)
    | with_reducible apply Keep.setF

theorem Keep.setTile {s0 s : State} {t : Nat} {x : Tile} (h : Keep s0 s) : Keep s0 (s.setTile t x) := by
  unfold State.setTile
  exact Keep.tiles h (smapWf_set _ _ _ _)

theorem Keep.updTile {s0 : State} {s : State} {t : Nat} {f : Tile → Tile} (h0 : Keep s0 s) : Keep s0 (State.updTile s t f) := by
  unfold State.updTile
  repeat' first
    | with_reducible assumption
    | with_reducible apply Keep.setTile

theorem Keep.inject {s0 : State} {s : State} {m : NetMsg} (h0 : Keep s0 s) : Keep s0 (State.inject s m) := by
  unfold State.inject
  repeat' first
    | with_reducible assumption
    | ((try lift_lets -underBinder); intro x; first | (refine Keep.cut (s := s0) (t := x) ?_ ?_; (on_goal 1 => (unfold x; clear x)); (on_goal 2 => (clear_value x; intro k))) | (refine Keep.cut (s := s0) (t := x.1) ?_ ?_; (on_goal 1 => (unfold x; clear x)); (on_goal 2 => (clear_value x; intro k))) | clear_value x | skip)
    | with_reducible exact Keep.upd (by with_reducible assumption)

end Sys2Proof.Machine
end

