-- ==== Sys2Proof/Laws/KeepPaths.lean ====
section
/-!
SUPPORT. What the operations of Machine/Paths.lean keep (Laws/Keep.lean).
-/

set_option linter.unusedTactic false
set_option linter.unreachableTactic false

namespace Sys2Proof.Machine

theorem Keep.carry {s0 : State} {s : State} {ed n : Nat} {unit : Bytes} (h0 : Keep s0 s) : Keep s0 (State.carry s ed n unit) := by
  unfold State.carry
  repeat' first
    | with_reducible assumption
    | ((try lift_lets -underBinder); intro x; first | (refine Keep.cut (s := s0) (t := x) ?_ ?_; (on_goal 1 => (unfold x; clear x)); (on_goal 2 => (clear_value x; intro k))) | (refine Keep.cut (s := s0) (t := x.1) ?_ ?_; (on_goal 1 => (unfold x; clear x)); (on_goal 2 => (clear_value x; intro k))) | clear_value x | skip)
    | with_reducible exact Keep.upd (by with_reducible assumption)
    | with_reducible apply Keep.addF
    | split

theorem Keep.countEdges {s0 : State} {s : State} {eds : List Nat} (h0 : Keep s0 s) : Keep s0 (State.countEdges s eds) := by
  unfold State.countEdges
  repeat' first
    | with_reducible assumption
    | intro _
    | with_reducible apply Keep.foldl
    | with_reducible apply Keep.foldl_fst
    | with_reducible apply Keep.tick
    | with_reducible apply Keep.carry

theorem Keep.drawEdgeKey {s0 : State} {s : State} {ed : Nat} (h0 : Keep s0 s) : Keep s0 (State.drawEdgeKey s ed) := by
  unfold State.drawEdgeKey
  repeat' first
    | with_reducible assumption
    | ((try lift_lets -underBinder); intro x; first | (refine Keep.cut (s := s0) (t := x) ?_ ?_; (on_goal 1 => (unfold x; clear x)); (on_goal 2 => (clear_value x; intro k))) | (refine Keep.cut (s := s0) (t := x.1) ?_ ?_; (on_goal 1 => (unfold x; clear x)); (on_goal 2 => (clear_value x; intro k))) | clear_value x | skip)
    | with_reducible exact Keep.upd (by with_reducible assumption)
    | with_reducible apply Keep.tick

end Sys2Proof.Machine
end

