-- ==== Sys2Proof/Laws/KeepMemOps.lean ====
section
/-!
SUPPORT. What the operations of Machine/MemOps.lean keep (Laws/Keep.lean).
-/

set_option linter.unusedTactic false
set_option linter.unreachableTactic false

namespace Sys2Proof.Machine

theorem Keep.updKey {s0 : State} {s : State} {k : Nat} {f : KeyEntry → KeyEntry} (h0 : Keep s0 s) : Keep s0 (State.updKey s k f) := by
  unfold State.updKey
  repeat' first
    | with_reducible assumption
    | ((try lift_lets -underBinder); intro x; first | (refine Keep.cut (s := s0) (t := x) ?_ ?_; (on_goal 1 => (unfold x; clear x)); (on_goal 2 => (clear_value x; intro k))) | (refine Keep.cut (s := s0) (t := x.1) ?_ ?_; (on_goal 1 => (unfold x; clear x)); (on_goal 2 => (clear_value x; intro k))) | clear_value x | skip)
    | with_reducible exact Keep.upd (by with_reducible assumption)

theorem Keep.setRights {s0 : State} {s : State} {m : Nat} {r : Rights} (h0 : Keep s0 s) : Keep s0 (State.setRights s m r) := by
  unfold State.setRights
  repeat' first
    | with_reducible assumption
    | ((try lift_lets -underBinder); intro x; first | (refine Keep.cut (s := s0) (t := x) ?_ ?_; (on_goal 1 => (unfold x; clear x)); (on_goal 2 => (clear_value x; intro k))) | (refine Keep.cut (s := s0) (t := x.1) ?_ ?_; (on_goal 1 => (unfold x; clear x)); (on_goal 2 => (clear_value x; intro k))) | clear_value x | skip)
    | with_reducible exact Keep.upd (by with_reducible assumption)

theorem Keep.setMajor {s0 s : State} {sec v : Nat} (h : Keep s0 s) : Keep s0 (s.setMajor sec v) := by
  unfold State.setMajor
  refine Keep.mem h fun w => ?_
  simp only [Memory.wf, Bool.and_eq_true] at w ⊢
  exact ⟨w.1, smapWf_set _ _ _ _ w.2⟩

theorem Keep.setLine {s0 s : State} {ln : Nat} {l : Line} {b : Bytes} (h : Keep s0 s) : Keep s0 (s.setLine ln l b) := by
  unfold State.setLine
  refine Keep.mem h fun w => ?_
  simp only [Memory.wf, Bool.and_eq_true] at w ⊢
  exact ⟨⟨smapWf_write _ _ _ _ w.1.1, smapWf_set _ _ _ _ w.1.2⟩, w.2⟩

theorem Keep.updLine {s0 : State} {s : State} {ln : Nat} {f : Line → Line} (h0 : Keep s0 s) : Keep s0 (State.updLine s ln f) := by
  unfold State.updLine
  repeat' first
    | with_reducible assumption
    | with_reducible apply Keep.setLine

theorem Keep.prismCount {s0 : State} {s : State} {f : Fld} {c n : Nat} (h0 : Keep s0 s) : Keep s0 (State.prismCount s f c n) := by
  unfold State.prismCount
  repeat' first
    | with_reducible assumption
    | with_reducible apply Keep.addF
    | split

theorem Keep.eccCount {s0 : State} {s : State} {f : Fld} {c n : Nat} (h0 : Keep s0 s) : Keep s0 (State.eccCount s f c n) := by
  unfold State.eccCount
  repeat' first
    | with_reducible assumption
    | with_reducible apply Keep.addF
    | split

theorem Keep.noteRefusal {s0 : State} {s : State} {m code c a : Nat} (h0 : Keep s0 s) : Keep s0 (State.noteRefusal s m code c a) := by
  unfold State.noteRefusal
  repeat' first
    | with_reducible assumption
    | ((try lift_lets -underBinder); intro x; first | (refine Keep.cut (s := s0) (t := x) ?_ ?_; (on_goal 1 => (unfold x; clear x)); (on_goal 2 => (clear_value x; intro k))) | (refine Keep.cut (s := s0) (t := x.1) ?_ ?_; (on_goal 1 => (unfold x; clear x)); (on_goal 2 => (clear_value x; intro k))) | clear_value x | skip)
    | with_reducible apply Keep.set
    | split

theorem Keep.settle {s0 : State} {s : State} {c sec : Nat} (h0 : Keep s0 s) : Keep s0 (State.settle s c sec) := by
  unfold State.settle
  repeat' first
    | with_reducible assumption
    | ((try lift_lets -underBinder); intro x; first | (refine Keep.cut (s := s0) (t := x) ?_ ?_; (on_goal 1 => (unfold x; clear x)); (on_goal 2 => (clear_value x; intro k))) | (refine Keep.cut (s := s0) (t := x.1) ?_ ?_; (on_goal 1 => (unfold x; clear x)); (on_goal 2 => (clear_value x; intro k))) | clear_value x | skip)
    | with_reducible exact Keep.upd (by with_reducible assumption)
    | split

theorem Keep.eccLast {s0 : State} {s : State} {c sec line area cw sym : Nat} {ue : Bool} (h0 : Keep s0 s) : Keep s0 (State.eccLast s c sec line area cw sym ue) := by
  unfold State.eccLast
  repeat' first
    | with_reducible assumption
    | ((try lift_lets -underBinder); intro x; first | (refine Keep.cut (s := s0) (t := x) ?_ ?_; (on_goal 1 => (unfold x; clear x)); (on_goal 2 => (clear_value x; intro k))) | (refine Keep.cut (s := s0) (t := x.1) ?_ ?_; (on_goal 1 => (unfold x; clear x)); (on_goal 2 => (clear_value x; intro k))) | clear_value x | skip)
    | with_reducible apply Keep.setF
    | split

theorem Keep.countUe {s0 : State} {s : State} {c sec line area cw : Nat} (h0 : Keep s0 s) : Keep s0 (State.countUe s c sec line area cw) := by
  unfold State.countUe
  repeat' first
    | with_reducible assumption
    | ((try lift_lets -underBinder); intro x; first | (refine Keep.cut (s := s0) (t := x) ?_ ?_; (on_goal 1 => (unfold x; clear x)); (on_goal 2 => (clear_value x; intro k))) | (refine Keep.cut (s := s0) (t := x.1) ?_ ?_; (on_goal 1 => (unfold x; clear x)); (on_goal 2 => (clear_value x; intro k))) | clear_value x | skip)
    | with_reducible apply Keep.eccCount
    | with_reducible apply Keep.eccLast
    | with_reducible apply Keep.setF
    | split

theorem Keep.countCeIn {s0 : State} {s : State} {c sec line area cw sym : Nat} (h0 : Keep s0 s) : Keep s0 (State.countCeIn s c sec line area cw sym) := by
  unfold State.countCeIn
  repeat' first
    | with_reducible assumption
    | ((try lift_lets -underBinder); intro x; first | (refine Keep.cut (s := s0) (t := x) ?_ ?_; (on_goal 1 => (unfold x; clear x)); (on_goal 2 => (clear_value x; intro k))) | (refine Keep.cut (s := s0) (t := x.1) ?_ ?_; (on_goal 1 => (unfold x; clear x)); (on_goal 2 => (clear_value x; intro k))) | clear_value x | skip)
    | with_reducible apply Keep.eccCount
    | with_reducible apply Keep.eccLast
    | with_reducible apply Keep.setF
    | split

theorem Keep.countCe {s0 : State} {s : State} {c ln cw sym : Nat} (h0 : Keep s0 s) : Keep s0 (State.countCe s c ln cw sym) := by
  unfold State.countCe
  repeat' first
    | with_reducible assumption
    | with_reducible apply Keep.countCeIn

theorem Keep.countSramCe {s0 : State} {s : State} (h0 : Keep s0 s) : Keep s0 (State.countSramCe s) := by
  unfold State.countSramCe
  repeat' first
    | with_reducible assumption
    | with_reducible apply Keep.addF
    | split

theorem Keep.countSram {s0 : State} {s : State} {arr : Nat} (h0 : Keep s0 s) : Keep s0 (State.countSram s arr) := by
  unfold State.countSram
  repeat' first
    | with_reducible assumption
    | ((try lift_lets -underBinder); intro x; first | (refine Keep.cut (s := s0) (t := x) ?_ ?_; (on_goal 1 => (unfold x; clear x)); (on_goal 2 => (clear_value x; intro k))) | (refine Keep.cut (s := s0) (t := x.1) ?_ ?_; (on_goal 1 => (unfold x; clear x)); (on_goal 2 => (clear_value x; intro k))) | clear_value x | skip)
    | with_reducible apply Keep.addF
    | with_reducible apply Keep.set
    | with_reducible apply Keep.tick
    | split

theorem Keep.poison {s0 : State} {s : State} {c ln code : Nat} (h0 : Keep s0 s) : Keep s0 (State.poison s c ln code) := by
  unfold State.poison
  repeat' first
    | with_reducible assumption
    | ((try lift_lets -underBinder); intro x; first | (refine Keep.cut (s := s0) (t := x) ?_ ?_; (on_goal 1 => (unfold x; clear x)); (on_goal 2 => (clear_value x; intro k))) | (refine Keep.cut (s := s0) (t := x.1) ?_ ?_; (on_goal 1 => (unfold x; clear x)); (on_goal 2 => (clear_value x; intro k))) | clear_value x | skip)
    | intro _
    | with_reducible exact Keep.upd (by with_reducible assumption)
    | with_reducible apply Keep.updLine
    | with_reducible apply Keep.eccCount

theorem Keep.noteLeaf {s0 : State} {s : State} {c sec : Nat} (h0 : Keep s0 s) : Keep s0 (State.noteLeaf s c sec) := by
  unfold State.noteLeaf
  repeat' first
    | with_reducible assumption
    | ((try lift_lets -underBinder); intro x; first | (refine Keep.cut (s := s0) (t := x) ?_ ?_; (on_goal 1 => (unfold x; clear x)); (on_goal 2 => (clear_value x; intro k))) | (refine Keep.cut (s := s0) (t := x.1) ?_ ?_; (on_goal 1 => (unfold x; clear x)); (on_goal 2 => (clear_value x; intro k))) | clear_value x | skip)
    | with_reducible exact Keep.upd (by with_reducible assumption)
    | split

theorem Keep.enterLeaf {s0 : State} {s : State} {c sec : Nat} (h0 : Keep s0 s) : Keep s0 (State.enterLeaf s c sec) := by
  unfold State.enterLeaf
  repeat' first
    | with_reducible assumption
    | ((try lift_lets -underBinder); intro x; first | (refine Keep.cut (s := s0) (t := x) ?_ ?_; (on_goal 1 => (unfold x; clear x)); (on_goal 2 => (clear_value x; intro k))) | (refine Keep.cut (s := s0) (t := x.1) ?_ ?_; (on_goal 1 => (unfold x; clear x)); (on_goal 2 => (clear_value x; intro k))) | clear_value x | skip)
    | with_reducible exact Keep.upd (by with_reducible assumption)
    | with_reducible apply Keep.settle
    | split

theorem Keep.clearLeaf {s0 : State} {s : State} {c sec : Nat} (h0 : Keep s0 s) : Keep s0 (State.clearLeaf s c sec) := by
  unfold State.clearLeaf
  repeat' first
    | with_reducible assumption
    | ((try lift_lets -underBinder); intro x; first | (refine Keep.cut (s := s0) (t := x) ?_ ?_; (on_goal 1 => (unfold x; clear x)); (on_goal 2 => (clear_value x; intro k))) | (refine Keep.cut (s := s0) (t := x.1) ?_ ?_; (on_goal 1 => (unfold x; clear x)); (on_goal 2 => (clear_value x; intro k))) | clear_value x | skip)
    | with_reducible exact Keep.upd (by with_reducible assumption)
    | split

theorem Keep.loseLeaf {s0 : State} {s : State} {c sec : Nat} (h0 : Keep s0 s) : Keep s0 (State.loseLeaf s c sec) := by
  unfold State.loseLeaf
  repeat' first
    | with_reducible assumption
    | intro _
    | with_reducible exact Keep.upd (by with_reducible assumption)
    | with_reducible apply Keep.foldl
    | with_reducible apply Keep.foldl_fst
    | with_reducible apply Keep.setMajor
    | with_reducible apply Keep.updLine
    | with_reducible apply Keep.poison
    | with_reducible apply Keep.clearLeaf

theorem Keep.countLost {s0 : State} {s : State} {c n : Nat} (h0 : Keep s0 s) : Keep s0 (State.countLost s c n) := by
  unfold State.countLost
  repeat' first
    | with_reducible assumption
    | ((try lift_lets -underBinder); intro x; first | (refine Keep.cut (s := s0) (t := x) ?_ ?_; (on_goal 1 => (unfold x; clear x)); (on_goal 2 => (clear_value x; intro k))) | (refine Keep.cut (s := s0) (t := x.1) ?_ ?_; (on_goal 1 => (unfold x; clear x)); (on_goal 2 => (clear_value x; intro k))) | clear_value x | skip)
    | with_reducible apply Keep.eccCount
    | with_reducible apply Keep.setF
    | split

theorem Keep.noteTree {s0 : State} {s : State} {digest : Bool} (h0 : Keep s0 s) : Keep s0 (State.noteTree s digest) := by
  unfold State.noteTree
  repeat' first
    | with_reducible assumption
    | with_reducible apply Keep.set
    | split

theorem Keep.touchKey {s0 : State} {s : State} {c k : Nat} (h0 : Keep s0 s) : Keep s0 (State.touchKey s c k) := by
  unfold State.touchKey
  repeat' first
    | with_reducible assumption
    | ((try lift_lets -underBinder); intro x; first | (refine Keep.cut (s := s0) (t := x) ?_ ?_; (on_goal 1 => (unfold x; clear x)); (on_goal 2 => (clear_value x; intro k))) | (refine Keep.cut (s := s0) (t := x.1) ?_ ?_; (on_goal 1 => (unfold x; clear x)); (on_goal 2 => (clear_value x; intro k))) | clear_value x | skip)
    | with_reducible exact Keep.upd (by with_reducible assumption)
    | with_reducible apply Keep.tick
    | split

theorem Keep.flushKeys {s0 : State} {s : State} {ks : List Nat} (h0 : Keep s0 s) : Keep s0 (State.flushKeys s ks) := by
  unfold State.flushKeys
  repeat' first
    | with_reducible assumption
    | ((try lift_lets -underBinder); intro x; first | (refine Keep.cut (s := s0) (t := x) ?_ ?_; (on_goal 1 => (unfold x; clear x)); (on_goal 2 => (clear_value x; intro k))) | (refine Keep.cut (s := s0) (t := x.1) ?_ ?_; (on_goal 1 => (unfold x; clear x)); (on_goal 2 => (clear_value x; intro k))) | clear_value x | skip)
    | with_reducible exact Keep.upd (by with_reducible assumption)
    | with_reducible apply Keep.foldl

theorem Keep.strike {s0 : State} {s : State} {c place : Nat} {f : LineFault} (h0 : Keep s0 s) : Keep s0 (State.strike s c place f) := by
  unfold State.strike
  repeat' first
    | with_reducible assumption
    | ((try lift_lets -underBinder); intro x; first | (refine Keep.cut (s := s0) (t := x) ?_ ?_; (on_goal 1 => (unfold x; clear x)); (on_goal 2 => (clear_value x; intro k))) | (refine Keep.cut (s := s0) (t := x.1) ?_ ?_; (on_goal 1 => (unfold x; clear x)); (on_goal 2 => (clear_value x; intro k))) | clear_value x | skip)
    | intro _
    | with_reducible exact Keep.upd (by with_reducible assumption)
    | with_reducible apply Keep.foldl
    | with_reducible apply Keep.foldl_fst
    | with_reducible apply Keep.updLine
    | with_reducible apply Keep.eccCount
    | with_reducible apply Keep.settle
    | with_reducible apply Keep.countUe
    | with_reducible apply Keep.countCeIn
    | with_reducible apply Keep.countSramCe
    | with_reducible apply Keep.countSram
    | with_reducible apply Keep.poison
    | with_reducible apply Keep.loseLeaf
    | with_reducible apply Keep.countLost
    | with_reducible apply Keep.noteTree
    | with_reducible apply Keep.flushKeys
    | with_reducible apply Keep.setF
    | split

theorem Keep.lookup {s0 : State} {s : State} {c sec : Nat} (h0 : Keep s0 s) : Keep s0 (State.lookup s c sec) := by
  unfold State.lookup
  repeat' first
    | with_reducible assumption
    | ((try lift_lets -underBinder); intro x; first | (refine Keep.cut (s := s0) (t := x) ?_ ?_; (on_goal 1 => (unfold x; clear x)); (on_goal 2 => (clear_value x; intro k))) | (refine Keep.cut (s := s0) (t := x.1) ?_ ?_; (on_goal 1 => (unfold x; clear x)); (on_goal 2 => (clear_value x; intro k))) | clear_value x | skip)
    | with_reducible exact Keep.upd (by with_reducible assumption)
    | with_reducible apply Keep.prismCount
    | with_reducible apply Keep.settle
    | with_reducible apply Keep.tick
    | split

theorem Keep.readEcc {s0 : State} {s : State} {c ln : Nat} (h0 : Keep s0 s) : Keep s0 (State.readEcc s c ln) := by
  unfold State.readEcc
  repeat' first
    | with_reducible assumption
    | ((try lift_lets -underBinder); intro x; first | (refine Keep.cut (s := s0) (t := x) ?_ ?_; (on_goal 1 => (unfold x; clear x)); (on_goal 2 => (clear_value x; intro k))) | (refine Keep.cut (s := s0) (t := x.1) ?_ ?_; (on_goal 1 => (unfold x; clear x)); (on_goal 2 => (clear_value x; intro k))) | clear_value x | skip)
    | with_reducible apply Keep.countCe
    | split

theorem Keep.readLine {s0 : State} {s : State} {m c a ln key : Nat} (h0 : Keep s0 s) : Keep s0 (State.readLine s m c a ln key).1 := by
  unfold State.readLine
  repeat' first
    | with_reducible assumption
    | ((try lift_lets -underBinder); intro x; first | (refine Keep.cut (s := s0) (t := x) ?_ ?_; (on_goal 1 => (unfold x; clear x)); (on_goal 2 => (clear_value x; intro k))) | (refine Keep.cut (s := s0) (t := x.1) ?_ ?_; (on_goal 1 => (unfold x; clear x)); (on_goal 2 => (clear_value x; intro k))) | clear_value x | skip)
    | with_reducible apply Keep.prismCount
    | with_reducible apply Keep.noteRefusal
    | with_reducible apply Keep.poison
    | with_reducible apply Keep.lookup
    | with_reducible apply Keep.readEcc
    | split

theorem Keep.wear {s0 : State} {s : State} {c lbn keyId : Nat} {exh : Bool} (h0 : Keep s0 s) : Keep s0 (State.wear s c lbn keyId exh) := by
  unfold State.wear
  repeat' first
    | with_reducible assumption
    | ((try lift_lets -underBinder); intro x; first | (refine Keep.cut (s := s0) (t := x) ?_ ?_; (on_goal 1 => (unfold x; clear x)); (on_goal 2 => (clear_value x; intro k))) | (refine Keep.cut (s := s0) (t := x.1) ?_ ?_; (on_goal 1 => (unfold x; clear x)); (on_goal 2 => (clear_value x; intro k))) | clear_value x | skip)
    | with_reducible exact Keep.upd (by with_reducible assumption)
    | with_reducible apply Keep.setF
    | split

theorem Keep.refreshCheck {s0 : State} {s : State} {c ln key : Nat} (h0 : Keep s0 s) : Keep s0 (State.refreshCheck s c ln key) := by
  unfold State.refreshCheck
  repeat' first
    | with_reducible assumption
    | ((try lift_lets -underBinder); intro x; first | (refine Keep.cut (s := s0) (t := x) ?_ ?_; (on_goal 1 => (unfold x; clear x)); (on_goal 2 => (clear_value x; intro k))) | (refine Keep.cut (s := s0) (t := x.1) ?_ ?_; (on_goal 1 => (unfold x; clear x)); (on_goal 2 => (clear_value x; intro k))) | clear_value x | skip)
    | with_reducible apply Keep.prismCount
    | with_reducible apply Keep.poison
    | with_reducible apply Keep.readEcc
    | with_reducible apply Keep.set
    | split

theorem Keep.refresh {s0 : State} {s : State} {c sec keyId key : Nat} (h0 : Keep s0 s) : Keep s0 (State.refresh s c sec keyId key) := by
  unfold State.refresh
  repeat' first
    | with_reducible assumption
    | ((try lift_lets -underBinder); intro x; first | (refine Keep.cut (s := s0) (t := x) ?_ ?_; (on_goal 1 => (unfold x; clear x)); (on_goal 2 => (clear_value x; intro k))) | (refine Keep.cut (s := s0) (t := x.1) ?_ ?_; (on_goal 1 => (unfold x; clear x)); (on_goal 2 => (clear_value x; intro k))) | clear_value x | skip)
    | intro _
    | with_reducible exact Keep.upd (by with_reducible assumption)
    | with_reducible apply Keep.foldl
    | with_reducible apply Keep.foldl_fst
    | with_reducible apply Keep.setMajor
    | with_reducible apply Keep.setLine
    | with_reducible apply Keep.prismCount
    | with_reducible apply Keep.poison
    | with_reducible apply Keep.wear
    | with_reducible apply Keep.refreshCheck
    | with_reducible apply Keep.set
    | split

theorem Keep.writeLine {s0 : State} {s : State} {m c a ln keyId key : Nat} {b : Bytes} (h0 : Keep s0 s) : Keep s0 (State.writeLine s m c a ln keyId key b).1 := by
  unfold State.writeLine
  repeat' first
    | with_reducible assumption
    | ((try lift_lets -underBinder); intro x; first | (refine Keep.cut (s := s0) (t := x) ?_ ?_; (on_goal 1 => (unfold x; clear x)); (on_goal 2 => (clear_value x; intro k))) | (refine Keep.cut (s := s0) (t := x.1) ?_ ?_; (on_goal 1 => (unfold x; clear x)); (on_goal 2 => (clear_value x; intro k))) | clear_value x | skip)
    | with_reducible apply Keep.setLine
    | with_reducible apply Keep.noteRefusal
    | with_reducible apply Keep.poison
    | with_reducible apply Keep.noteLeaf
    | with_reducible apply Keep.lookup
    | with_reducible apply Keep.wear
    | with_reducible apply Keep.refresh
    | with_reducible apply Keep.set
    | split

theorem Keep.writePart {s0 : State} {s : State} {m c a ln off keyId key : Nat} {b : Bytes} (h0 : Keep s0 s) : Keep s0 (State.writePart s m c a ln off keyId key b).1 := by
  unfold State.writePart
  repeat' first
    | with_reducible assumption
    | ((try lift_lets -underBinder); intro x; first | (refine Keep.cut (s := s0) (t := x) ?_ ?_; (on_goal 1 => (unfold x; clear x)); (on_goal 2 => (clear_value x; intro k))) | (refine Keep.cut (s := s0) (t := x.1) ?_ ?_; (on_goal 1 => (unfold x; clear x)); (on_goal 2 => (clear_value x; intro k))) | clear_value x | skip)
    | with_reducible exact Keep.upd (by with_reducible assumption)
    | with_reducible apply Keep.prismCount
    | with_reducible apply Keep.readLine
    | with_reducible apply Keep.writeLine
    | with_reducible apply Keep.of_fst (by with_reducible assumption)
    | with_reducible refine Keep.upd (Keep.of_fst (by with_reducible assumption) ?_)
    | split

theorem Keep.noteGate {s0 : State} {s : State} {m code a : Nat} (h0 : Keep s0 s) : Keep s0 (State.noteGate s m code a) := by
  unfold State.noteGate
  repeat' first
    | with_reducible assumption
    | with_reducible apply Keep.noteRefusal
    | split

theorem Keep.readVia {s0 : State} {s : State} {via : Nat → List Nat} {m space : Nat} {uses : List (Nat × Nat)} {a n : Nat} (h0 : Keep s0 s) : Keep s0 (State.readVia s via m space uses a n).1 := by
  unfold State.readVia
  repeat' first
    | with_reducible assumption
    | intro _
    | with_reducible exact Keep.upd (by with_reducible assumption)
    | with_reducible apply Keep.foldl
    | with_reducible apply Keep.foldl_fst
    | with_reducible apply Keep.place
    | with_reducible apply Keep.touchKey
    | with_reducible apply Keep.readLine
    | with_reducible apply Keep.noteGate
    | with_reducible apply Keep.countEdges
    | with_reducible apply Keep.of_fst (by with_reducible assumption)
    | with_reducible refine Keep.upd (Keep.of_fst (by with_reducible assumption) ?_)
    | split

theorem Keep.writeVia {s0 : State} {s : State} {via : Nat → List Nat} {m space : Nat} {uses : List (Nat × Nat)} {a : Nat} {b : Bytes} (h0 : Keep s0 s) : Keep s0 (State.writeVia s via m space uses a b).1 := by
  unfold State.writeVia
  repeat' first
    | with_reducible assumption
    | ((try lift_lets -underBinder); intro x; first | (refine Keep.cut (s := s0) (t := x) ?_ ?_; (on_goal 1 => (unfold x; clear x)); (on_goal 2 => (clear_value x; intro k))) | (refine Keep.cut (s := s0) (t := x.1) ?_ ?_; (on_goal 1 => (unfold x; clear x)); (on_goal 2 => (clear_value x; intro k))) | clear_value x | skip)
    | intro _
    | with_reducible exact Keep.upd (by with_reducible assumption)
    | with_reducible apply Keep.foldl
    | with_reducible apply Keep.foldl_fst
    | with_reducible apply Keep.place
    | with_reducible apply Keep.touchKey
    | with_reducible apply Keep.writeLine
    | with_reducible apply Keep.writePart
    | with_reducible apply Keep.noteGate
    | with_reducible apply Keep.countEdges
    | with_reducible apply Keep.of_fst (by with_reducible assumption)
    | with_reducible refine Keep.upd (Keep.of_fst (by with_reducible assumption) ?_)
    | split

theorem Keep.readMem {s0 : State} {s : State} {m space : Nat} {uses : List (Nat × Nat)} {a n : Nat} (h0 : Keep s0 s) : Keep s0 (State.readMem s m space uses a n).1 := by
  unfold State.readMem
  repeat' first
    | with_reducible assumption
    | with_reducible apply Keep.readVia
    | with_reducible apply Keep.of_fst (by with_reducible assumption)
    | with_reducible refine Keep.upd (Keep.of_fst (by with_reducible assumption) ?_)

theorem Keep.writeMem {s0 : State} {s : State} {m space : Nat} {uses : List (Nat × Nat)} {a : Nat} {b : Bytes} (h0 : Keep s0 s) : Keep s0 (State.writeMem s m space uses a b).1 := by
  unfold State.writeMem
  repeat' first
    | with_reducible assumption
    | with_reducible apply Keep.writeVia
    | with_reducible apply Keep.of_fst (by with_reducible assumption)
    | with_reducible refine Keep.upd (Keep.of_fst (by with_reducible assumption) ?_)

theorem Keep.snoop {s0 : State} {s : State} {write : Bool} {a n : Nat} (h0 : Keep s0 s) : Keep s0 (State.snoop s write a n) := by
  unfold State.snoop
  repeat' first
    | with_reducible assumption
    | with_reducible apply Keep.emit
    | split

theorem Keep.hubRead {s0 : State} {s : State} {a n : Nat} (h0 : Keep s0 s) : Keep s0 (State.hubRead s a n).1 := by
  unfold State.hubRead
  repeat' first
    | with_reducible assumption
    | with_reducible exact Keep.upd (by with_reducible assumption)
    | with_reducible apply Keep.readMem
    | with_reducible apply Keep.snoop
    | with_reducible apply Keep.tick
    | with_reducible apply Keep.of_fst (by with_reducible assumption)
    | with_reducible refine Keep.upd (Keep.of_fst (by with_reducible assumption) ?_)
    | split

theorem Keep.invalidate {s0 : State} {s : State} {a n : Nat} (h0 : Keep s0 s) : Keep s0 (State.invalidate s a n) := by
  unfold State.invalidate
  repeat' first
    | with_reducible assumption
    | ((try lift_lets -underBinder); intro x; first | (refine Keep.cut (s := s0) (t := x) ?_ ?_; (on_goal 1 => (unfold x; clear x)); (on_goal 2 => (clear_value x; intro k))) | (refine Keep.cut (s := s0) (t := x.1) ?_ ?_; (on_goal 1 => (unfold x; clear x)); (on_goal 2 => (clear_value x; intro k))) | clear_value x | skip)
    | intro _
    | with_reducible exact Keep.upd (by with_reducible assumption)
    | with_reducible apply Keep.foldl
    | with_reducible apply Keep.foldl_fst
    | with_reducible apply Keep.writeMem
    | with_reducible apply Keep.tick
    | with_reducible apply Keep.of_fst (by with_reducible assumption)
    | with_reducible refine Keep.upd (Keep.of_fst (by with_reducible assumption) ?_)
    | split

theorem Keep.hubWrite {s0 : State} {s : State} {a : Nat} {b : Bytes} (h0 : Keep s0 s) : Keep s0 (State.hubWrite s a b).1 := by
  unfold State.hubWrite
  repeat' first
    | with_reducible assumption
    | with_reducible apply Keep.writeMem
    | with_reducible apply Keep.snoop
    | with_reducible apply Keep.invalidate
    | with_reducible apply Keep.of_fst (by with_reducible assumption)
    | with_reducible refine Keep.upd (Keep.of_fst (by with_reducible assumption) ?_)

theorem Keep.cacheLine {s0 : State} {s : State} {l : Nat} (h0 : Keep s0 s) : Keep s0 (State.cacheLine s l) := by
  unfold State.cacheLine
  repeat' first
    | with_reducible assumption
    | ((try lift_lets -underBinder); intro x; first | (refine Keep.cut (s := s0) (t := x) ?_ ?_; (on_goal 1 => (unfold x; clear x)); (on_goal 2 => (clear_value x; intro k))) | (refine Keep.cut (s := s0) (t := x.1) ?_ ?_; (on_goal 1 => (unfold x; clear x)); (on_goal 2 => (clear_value x; intro k))) | clear_value x | skip)
    | with_reducible exact Keep.upd (by with_reducible assumption)
    | split

theorem Keep.forget {s0 s : State} {f : Nat → Bool} (h : Keep s0 s) : Keep s0 (s.forget f) := by
  unfold State.forget
  refine Keep.upd (Keep.mem h (r := { s.mem with
    bytes := s.mem.bytes.filter fun e => !f (e.1 / 4096), lines := s.mem.lines.filter fun e => !f (e.1 / 64),
    majors := s.mem.majors.filter fun e => !f e.1 }) fun w => ?_)
  simp only [Memory.wf, Bool.and_eq_true] at w ⊢
  exact ⟨⟨smapWf_filter _ _ _ w.1.1, smapWf_filter _ _ _ w.1.2⟩, smapWf_filter _ _ _ w.2⟩

theorem Keep.initShares {s0 s : State} {space : Nat} {l : List Nat} (h : Keep s0 s) : Keep s0 (s.initShares space l) := by
  unfold State.initShares
  extract_lets f gone t left
  have k : Keep s0 t := Keep.forget (Keep.upd h)
  clear_value t
  exact Keep.mem k fun w => w

theorem Keep.initSpace {s0 : State} {s : State} {space : Nat} (h0 : Keep s0 s) : Keep s0 (State.initSpace s space) := by
  unfold State.initSpace
  repeat' first
    | with_reducible assumption
    | with_reducible apply Keep.initShares

theorem Keep.initSector {s0 : State} {s : State} {sec : Nat} (h0 : Keep s0 s) : Keep s0 (State.initSector s sec) := by
  unfold State.initSector
  repeat' first
    | with_reducible assumption
    | ((try lift_lets -underBinder); intro x; first | (refine Keep.cut (s := s0) (t := x) ?_ ?_; (on_goal 1 => (unfold x; clear x)); (on_goal 2 => (clear_value x; intro k))) | (refine Keep.cut (s := s0) (t := x.1) ?_ ?_; (on_goal 1 => (unfold x; clear x)); (on_goal 2 => (clear_value x; intro k))) | clear_value x | skip)
    | intro _
    | with_reducible exact Keep.upd (by with_reducible assumption)
    | with_reducible apply Keep.foldl
    | with_reducible apply Keep.foldl_fst
    | with_reducible apply Keep.setMajor
    | with_reducible apply Keep.setLine
    | with_reducible apply Keep.clearLeaf

theorem Keep.showFlood {s0 : State} {s : State} {c : Nat} (h0 : Keep s0 s) : Keep s0 (State.showFlood s c) := by
  unfold State.showFlood
  repeat' first
    | with_reducible assumption
    | ((try lift_lets -underBinder); intro x; first | (refine Keep.cut (s := s0) (t := x) ?_ ?_; (on_goal 1 => (unfold x; clear x)); (on_goal 2 => (clear_value x; intro k))) | (refine Keep.cut (s := s0) (t := x.1) ?_ ?_; (on_goal 1 => (unfold x; clear x)); (on_goal 2 => (clear_value x; intro k))) | clear_value x | skip)
    | intro _
    | with_reducible apply Keep.setF
    | with_reducible apply Keep.tick
    | split

theorem Keep.updFloods {s0 s : State} {f : List (Nat × Nat) → List (Nat × Nat)} (h : Keep s0 s) : Keep s0 (s.updFloods f) :=
  Keep.memTail h

theorem Keep.startFlood {s0 : State} {s : State} {what : Nat} {l : List Nat} (h0 : Keep s0 s) : Keep s0 (State.startFlood s what l) := by
  unfold State.startFlood
  repeat' first
    | with_reducible assumption
    | intro _
    | with_reducible apply Keep.foldl
    | with_reducible apply Keep.foldl_fst
    | with_reducible apply Keep.showFlood
    | with_reducible apply Keep.updFloods

end Sys2Proof.Machine
end

