-- ==== Sys2Proof/Laws/KeepRights.lean ====
section
/-!
SUPPORT. What the operations of Machine/Rights.lean keep (Laws/Keep.lean).
-/

set_option linter.unusedTactic false
set_option linter.unreachableTactic false

namespace Sys2Proof.Machine

theorem Keep.updOwner {s0 : State} {s : State} {i : Nat} {f : Owner → Owner} (h0 : Keep s0 s) : Keep s0 (State.updOwner s i f) := by
  unfold State.updOwner
  repeat' first
    | with_reducible assumption
    | ((try lift_lets -underBinder); intro x; first | (refine Keep.cut (s := s0) (t := x) ?_ ?_; (on_goal 1 => (unfold x; clear x)); (on_goal 2 => (clear_value x; intro k))) | (refine Keep.cut (s := s0) (t := x.1) ?_ ?_; (on_goal 1 => (unfold x; clear x)); (on_goal 2 => (clear_value x; intro k))) | clear_value x | skip)
    | with_reducible exact Keep.upd (by with_reducible assumption)

theorem Keep.syncRights {s0 : State} {s : State} (h0 : Keep s0 s) : Keep s0 (State.syncRights s) := by
  unfold State.syncRights
  repeat' first
    | with_reducible assumption
    | with_reducible apply Keep.setRights

end Sys2Proof.Machine
end

