-- ==== Sys2Proof/Laws/KeepObjects.lean ====
section
/-!
SUPPORT. What the operations of Machine/Objects.lean keep (Laws/Keep.lean).
-/

set_option linter.unusedTactic false
set_option linter.unreachableTactic false

namespace Sys2Proof.Machine

theorem Keep.sendMsix {s0 : State} {s : State} {v : Nat} (h0 : Keep s0 s) : Keep s0 (State.sendMsix s v) := by
  unfold State.sendMsix
  repeat' first
    | with_reducible assumption
    | ((try lift_lets -underBinder); intro x; first | (refine Keep.cut (s := s0) (t := x) ?_ ?_; (on_goal 1 => (unfold x; clear x)); (on_goal 2 => (clear_value x; intro k))) | (refine Keep.cut (s := s0) (t := x.1) ?_ ?_; (on_goal 1 => (unfold x; clear x)); (on_goal 2 => (clear_value x; intro k))) | clear_value x | skip)
    | with_reducible apply Keep.emit

theorem Keep.raise {s0 : State} {s : State} {v : Nat} (h0 : Keep s0 s) : Keep s0 (State.raise s v) := by
  unfold State.raise
  repeat' first
    | with_reducible assumption
    | ((try lift_lets -underBinder); intro x; first | (refine Keep.cut (s := s0) (t := x) ?_ ?_; (on_goal 1 => (unfold x; clear x)); (on_goal 2 => (clear_value x; intro k))) | (refine Keep.cut (s := s0) (t := x.1) ?_ ?_; (on_goal 1 => (unfold x; clear x)); (on_goal 2 => (clear_value x; intro k))) | clear_value x | skip)
    | with_reducible exact Keep.upd (by with_reducible assumption)
    | with_reducible apply Keep.sendMsix
    | split

theorem Keep.flushMsix {s0 : State} {s : State} (h0 : Keep s0 s) : Keep s0 (State.flushMsix s) := by
  unfold State.flushMsix
  repeat' first
    | with_reducible assumption
    | ((try lift_lets -underBinder); intro x; first | (refine Keep.cut (s := s0) (t := x) ?_ ?_; (on_goal 1 => (unfold x; clear x)); (on_goal 2 => (clear_value x; intro k))) | (refine Keep.cut (s := s0) (t := x.1) ?_ ?_; (on_goal 1 => (unfold x; clear x)); (on_goal 2 => (clear_value x; intro k))) | clear_value x | skip)
    | with_reducible exact Keep.upd (by with_reducible assumption)
    | with_reducible apply Keep.foldl
    | with_reducible apply Keep.sendMsix
    | split

theorem Keep.dropNotice {s0 : State} {s : State} (h0 : Keep s0 s) : Keep s0 (State.dropNotice s) := by
  unfold State.dropNotice
  repeat' first
    | with_reducible assumption
    | with_reducible apply Keep.addF

theorem Keep.notice {s0 : State} {s : State} {kind code ctx queue addr arg : Nat} (h0 : Keep s0 s) : Keep s0 (State.notice s kind code ctx queue addr arg) := by
  unfold State.notice
  repeat' first
    | with_reducible assumption
    | ((try lift_lets -underBinder); intro x; first | (refine Keep.cut (s := s0) (t := x) ?_ ?_; (on_goal 1 => (unfold x; clear x)); (on_goal 2 => (clear_value x; intro k))) | (refine Keep.cut (s := s0) (t := x.1) ?_ ?_; (on_goal 1 => (unfold x; clear x)); (on_goal 2 => (clear_value x; intro k))) | clear_value x | skip)
    | with_reducible exact Keep.upd (by with_reducible assumption)
    | with_reducible apply Keep.dropNotice
    | with_reducible apply Keep.hubWrite
    | with_reducible apply Keep.raise
    | with_reducible apply Keep.set
    | with_reducible apply Keep.of_fst (by with_reducible assumption)
    | with_reducible refine Keep.upd (Keep.of_fst (by with_reducible assumption) ?_)
    | split

theorem Keep.noteError {s0 : State} {s : State} {code ctx queue addr arg : Nat} (h0 : Keep s0 s) : Keep s0 (State.noteError s code ctx queue addr arg) := by
  unfold State.noteError
  repeat' first
    | with_reducible assumption
    | with_reducible apply Keep.notice

theorem Keep.kindAt {s0 : State} {s : State} {a : Nat} (h0 : Keep s0 s) : Keep s0 (State.kindAt s a).1 := by
  unfold State.kindAt
  repeat' first
    | with_reducible assumption
    | with_reducible exact Keep.upd (by with_reducible assumption)
    | with_reducible apply Keep.hubRead
    | with_reducible apply Keep.of_fst (by with_reducible assumption)
    | with_reducible refine Keep.upd (Keep.of_fst (by with_reducible assumption) ?_)
    | split

theorem Keep.dropRef {s0 : State} {s : State} {ctx queue seq a : Nat} (h0 : Keep s0 s) : Keep s0 (State.dropRef s ctx queue seq a) := by
  unfold State.dropRef
  repeat' first
    | with_reducible assumption
    | with_reducible exact Keep.upd (by with_reducible assumption)
    | with_reducible apply Keep.hubRead
    | with_reducible apply Keep.hubWrite
    | with_reducible apply Keep.noteError
    | with_reducible apply Keep.notice
    | with_reducible apply Keep.of_fst (by with_reducible assumption)
    | with_reducible refine Keep.upd (Keep.of_fst (by with_reducible assumption) ?_)
    | split

theorem Keep.dropNaming {s0 : State} {s : State} {ctx queue seq kind n a : Nat} (h0 : Keep s0 s) : Keep s0 (State.dropNaming s ctx queue seq kind n a) := by
  unfold State.dropNaming
  repeat' first
    | with_reducible assumption
    | with_reducible exact Keep.upd (by with_reducible assumption)
    | with_reducible apply Keep.dropRef
    | with_reducible apply Keep.kindAt
    | with_reducible apply Keep.noteError
    | with_reducible apply Keep.of_fst (by with_reducible assumption)
    | with_reducible refine Keep.upd (Keep.of_fst (by with_reducible assumption) ?_)
    | split

theorem Keep.ctxWord {s0 : State} {s : State} {c w : Nat} (h0 : Keep s0 s) : Keep s0 (State.ctxWord s c w).1 := by
  unfold State.ctxWord
  repeat' first
    | with_reducible assumption
    | with_reducible exact Keep.upd (by with_reducible assumption)
    | with_reducible apply Keep.hubRead
    | with_reducible apply Keep.of_fst (by with_reducible assumption)
    | with_reducible refine Keep.upd (Keep.of_fst (by with_reducible assumption) ?_)
    | split

theorem Keep.ctxRecord {s0 : State} {s : State} {c : Nat} (h0 : Keep s0 s) : Keep s0 (State.ctxRecord s c).1 := by
  unfold State.ctxRecord
  repeat' first
    | with_reducible assumption
    | with_reducible exact Keep.upd (by with_reducible assumption)
    | with_reducible apply Keep.hubRead
    | with_reducible apply Keep.of_fst (by with_reducible assumption)
    | with_reducible refine Keep.upd (Keep.of_fst (by with_reducible assumption) ?_)
    | split

theorem Keep.ctxOwner {s0 : State} {s : State} {c : Nat} (h0 : Keep s0 s) : Keep s0 (State.ctxOwner s c).1 := by
  unfold State.ctxOwner
  repeat' first
    | with_reducible assumption
    | with_reducible exact Keep.upd (by with_reducible assumption)
    | with_reducible apply Keep.ctxRecord
    | with_reducible apply Keep.of_fst (by with_reducible assumption)
    | with_reducible refine Keep.upd (Keep.of_fst (by with_reducible assumption) ?_)
    | split

theorem Keep.saveCtx {s0 : State} {s : State} {c : Nat} {w2 step gen : Nat} {head : Option Nat} (h0 : Keep s0 s) : Keep s0 (State.saveCtx s c w2 step gen head) := by
  unfold State.saveCtx
  repeat' first
    | with_reducible assumption
    | ((try lift_lets -underBinder); intro x; first | (refine Keep.cut (s := s0) (t := x) ?_ ?_; (on_goal 1 => (unfold x; clear x)); (on_goal 2 => (clear_value x; intro k))) | (refine Keep.cut (s := s0) (t := x.1) ?_ ?_; (on_goal 1 => (unfold x; clear x)); (on_goal 2 => (clear_value x; intro k))) | clear_value x | skip)
    | with_reducible exact Keep.upd (by with_reducible assumption)
    | with_reducible apply Keep.ctxWord
    | with_reducible apply Keep.hubWrite
    | with_reducible apply Keep.of_fst (by with_reducible assumption)
    | with_reducible refine Keep.upd (Keep.of_fst (by with_reducible assumption) ?_)
    | split

theorem Keep.showSlot {s0 : State} {s : State} {p : Nat} (h0 : Keep s0 s) : Keep s0 (State.showSlot s p) := by
  unfold State.showSlot
  repeat' first
    | with_reducible assumption
    | with_reducible exact Keep.upd (by with_reducible assumption)
    | with_reducible apply Keep.setF
    | split

theorem Keep.pend {s0 : State} {s : State} {p code : Nat} (h0 : Keep s0 s) : Keep s0 (State.pend s p code) := by
  unfold State.pend
  repeat' first
    | with_reducible assumption
    | intro _
    | with_reducible exact Keep.upd (by with_reducible assumption)
    | with_reducible apply Keep.noteError
    | with_reducible apply Keep.showSlot
    | with_reducible apply Keep.updPart
    | split

theorem Keep.readFence {s0 : State} {s : State} {ctx queue seq a : Nat} (h0 : Keep s0 s) : Keep s0 (State.readFence s ctx queue seq a).1 := by
  unfold State.readFence
  repeat' first
    | with_reducible assumption
    | with_reducible exact Keep.upd (by with_reducible assumption)
    | with_reducible apply Keep.hubRead
    | with_reducible apply Keep.noteError
    | with_reducible apply Keep.of_fst (by with_reducible assumption)
    | with_reducible refine Keep.upd (Keep.of_fst (by with_reducible assumption) ?_)
    | split

theorem Keep.writeFence {s0 : State} {s : State} {ctx queue seq a : Nat} {f : Fence} (h0 : Keep s0 s) : Keep s0 (State.writeFence s ctx queue seq a f).1 := by
  unfold State.writeFence
  repeat' first
    | with_reducible assumption
    | ((try lift_lets -underBinder); intro x; first | (refine Keep.cut (s := s0) (t := x) ?_ ?_; (on_goal 1 => (unfold x; clear x)); (on_goal 2 => (clear_value x; intro k))) | (refine Keep.cut (s := s0) (t := x.1) ?_ ?_; (on_goal 1 => (unfold x; clear x)); (on_goal 2 => (clear_value x; intro k))) | clear_value x | skip)
    | with_reducible exact Keep.upd (by with_reducible assumption)
    | with_reducible apply Keep.hubWrite
    | with_reducible apply Keep.noteError
    | with_reducible apply Keep.raise
    | with_reducible apply Keep.of_fst (by with_reducible assumption)
    | with_reducible refine Keep.upd (Keep.of_fst (by with_reducible assumption) ?_)
    | split

theorem Keep.signal {s0 : State} {s : State} {ctx queue seq a v : Nat} (h0 : Keep s0 s) : Keep s0 (State.signal s ctx queue seq a v).1 := by
  unfold State.signal
  repeat' first
    | with_reducible assumption
    | ((try lift_lets -underBinder); intro x; first | (refine Keep.cut (s := s0) (t := x) ?_ ?_; (on_goal 1 => (unfold x; clear x)); (on_goal 2 => (clear_value x; intro k))) | (refine Keep.cut (s := s0) (t := x.1) ?_ ?_; (on_goal 1 => (unfold x; clear x)); (on_goal 2 => (clear_value x; intro k))) | clear_value x | skip)
    | with_reducible exact Keep.upd (by with_reducible assumption)
    | with_reducible apply Keep.addF
    | with_reducible apply Keep.readFence
    | with_reducible apply Keep.writeFence
    | with_reducible apply Keep.of_fst (by with_reducible assumption)
    | with_reducible refine Keep.upd (Keep.of_fst (by with_reducible assumption) ?_)
    | split

theorem Keep.attach {s0 : State} {s : State} {ctx queue seq a v code : Nat} (h0 : Keep s0 s) : Keep s0 (State.attach s ctx queue seq a v code) := by
  unfold State.attach
  repeat' first
    | with_reducible assumption
    | ((try lift_lets -underBinder); intro x; first | (refine Keep.cut (s := s0) (t := x) ?_ ?_; (on_goal 1 => (unfold x; clear x)); (on_goal 2 => (clear_value x; intro k))) | (refine Keep.cut (s := s0) (t := x.1) ?_ ?_; (on_goal 1 => (unfold x; clear x)); (on_goal 2 => (clear_value x; intro k))) | clear_value x | skip)
    | with_reducible exact Keep.upd (by with_reducible assumption)
    | with_reducible apply Keep.noteError
    | with_reducible apply Keep.readFence
    | with_reducible apply Keep.writeFence
    | with_reducible apply Keep.of_fst (by with_reducible assumption)
    | with_reducible refine Keep.upd (Keep.of_fst (by with_reducible assumption) ?_)
    | split

end Sys2Proof.Machine
end

