-- ==== Sys2Proof/Laws/KeepQueues.lean ====
section
/-!
SUPPORT. What the operations of Machine/Queues.lean keep (Laws/Keep.lean).
-/

set_option linter.unusedTactic false
set_option linter.unreachableTactic false

namespace Sys2Proof.Machine

theorem Keep.setCmds {s0 : State} {s : State} {q : Nat} {l : List HubCmd} (h0 : Keep s0 s) : Keep s0 (State.setCmds s q l) := by
  unfold State.setCmds
  repeat' first
    | with_reducible assumption
    | ((try lift_lets -underBinder); intro x; first | (refine Keep.cut (s := s0) (t := x) ?_ ?_; (on_goal 1 => (unfold x; clear x)); (on_goal 2 => (clear_value x; intro k))) | (refine Keep.cut (s := s0) (t := x.1) ?_ ?_; (on_goal 1 => (unfold x; clear x)); (on_goal 2 => (clear_value x; intro k))) | clear_value x | skip)
    | with_reducible exact Keep.upd (by with_reducible assumption)

theorem Keep.updHead {s0 : State} {s : State} {q : Nat} {f : HubCmd → HubCmd} (h0 : Keep s0 s) : Keep s0 (State.updHead s q f) := by
  unfold State.updHead
  repeat' first
    | with_reducible assumption
    | with_reducible exact Keep.upd (by with_reducible assumption)
    | with_reducible apply Keep.setCmds
    | split

theorem Keep.endCmd {s0 : State} {s : State} {q code : Nat} (h0 : Keep s0 s) : Keep s0 (State.endCmd s q code) := by
  unfold State.endCmd
  repeat' first
    | with_reducible assumption
    | ((try lift_lets -underBinder); intro x; first | (refine Keep.cut (s := s0) (t := x) ?_ ?_; (on_goal 1 => (unfold x; clear x)); (on_goal 2 => (clear_value x; intro k))) | (refine Keep.cut (s := s0) (t := x.1) ?_ ?_; (on_goal 1 => (unfold x; clear x)); (on_goal 2 => (clear_value x; intro k))) | clear_value x | skip)
    | with_reducible exact Keep.upd (by with_reducible assumption)
    | with_reducible apply Keep.load
    | with_reducible apply Keep.setF
    | with_reducible apply Keep.updHead

theorem Keep.countQueues {s0 : State} {s : State} (h0 : Keep s0 s) : Keep s0 (State.countQueues s) := by
  unfold State.countQueues
  repeat' first
    | with_reducible assumption
    | ((try lift_lets -underBinder); intro x; first | (refine Keep.cut (s := s0) (t := x) ?_ ?_; (on_goal 1 => (unfold x; clear x)); (on_goal 2 => (clear_value x; intro k))) | (refine Keep.cut (s := s0) (t := x.1) ?_ ?_; (on_goal 1 => (unfold x; clear x)); (on_goal 2 => (clear_value x; intro k))) | clear_value x | skip)
    | with_reducible apply Keep.set
    | split

theorem Keep.recordOk {s0 : State} {s : State} {kind n a : Nat} (h0 : Keep s0 s) : Keep s0 (State.recordOk s kind n a).1 := by
  unfold State.recordOk
  repeat' first
    | with_reducible assumption
    | with_reducible exact Keep.upd (by with_reducible assumption)
    | with_reducible apply Keep.hubRead
    | with_reducible apply Keep.of_fst (by with_reducible assumption)
    | with_reducible refine Keep.upd (Keep.of_fst (by with_reducible assumption) ?_)
    | split

theorem Keep.checkCmd {s0 : State} {s : State} {ctx : Nat} {c : HubCmd} (h0 : Keep s0 s) : Keep s0 (State.checkCmd s ctx c).1 := by
  unfold State.checkCmd
  repeat' first
    | with_reducible assumption
    | ((try lift_lets -underBinder); intro x; first | (refine Keep.cut (s := s0) (t := x) ?_ ?_; (on_goal 1 => (unfold x; clear x)); (on_goal 2 => (clear_value x; intro k))) | (refine Keep.cut (s := s0) (t := x.1) ?_ ?_; (on_goal 1 => (unfold x; clear x)); (on_goal 2 => (clear_value x; intro k))) | clear_value x | skip)
    | with_reducible apply Keep.foldl
    | with_reducible apply Keep.foldl_fst
    | with_reducible apply Keep.ctxOwner
    | with_reducible apply Keep.recordOk
    | with_reducible apply Keep.of_fst (by with_reducible assumption)
    | split

theorem Keep.advanceHead {s0 : State} {s : State} {q : Nat} (h0 : Keep s0 s) : Keep s0 (State.advanceHead s q) := by
  unfold State.advanceHead
  repeat' first
    | with_reducible assumption
    | with_reducible apply Keep.setF

theorem Keep.readEntry {s0 : State} {s : State} {q : Nat} (h0 : Keep s0 s) : Keep s0 (State.readEntry s q).1 := by
  unfold State.readEntry
  repeat' first
    | with_reducible assumption
    | ((try lift_lets -underBinder); intro x; first | (refine Keep.cut (s := s0) (t := x) ?_ ?_; (on_goal 1 => (unfold x; clear x)); (on_goal 2 => (clear_value x; intro k))) | (refine Keep.cut (s := s0) (t := x.1) ?_ ?_; (on_goal 1 => (unfold x; clear x)); (on_goal 2 => (clear_value x; intro k))) | clear_value x | skip)
    | with_reducible exact Keep.upd (by with_reducible assumption)
    | with_reducible apply Keep.advanceHead
    | with_reducible apply Keep.hubRead
    | with_reducible apply Keep.noteError
    | with_reducible apply Keep.setF
    | with_reducible apply Keep.of_fst (by with_reducible assumption)
    | with_reducible refine Keep.upd (Keep.of_fst (by with_reducible assumption) ?_)
    | split

theorem Keep.execCommandFetch {s0 : State} {q : QueueIx} {s : State} (h0 : Keep s0 s) : ResKeep s0 (Sys2Proof.Machine.execCommandFetch q s) := by
  unfold Sys2Proof.Machine.execCommandFetch
  repeat' first
    | with_reducible assumption
    | ((try lift_lets -underBinder); intro x; first | (refine Keep.cut (s := s0) (t := x) ?_ ?_; (on_goal 1 => (unfold x; clear x)); (on_goal 2 => (clear_value x; intro k))) | (refine Keep.cut (s := s0) (t := x.1) ?_ ?_; (on_goal 1 => (unfold x; clear x)); (on_goal 2 => (clear_value x; intro k))) | clear_value x | skip)
    | with_reducible apply Keep.next
    | with_reducible exact Keep.upd (by with_reducible assumption)
    | with_reducible apply Keep.checkCmd
    | with_reducible apply Keep.readEntry
    | with_reducible apply Keep.setCmds
    | with_reducible apply Keep.setF
    | with_reducible apply Keep.of_fst (by with_reducible assumption)
    | with_reducible refine Keep.upd (Keep.of_fst (by with_reducible assumption) ?_)
    | split

theorem Keep.showActive {s0 : State} {s : State} {i : Nat} (h0 : Keep s0 s) : Keep s0 (State.showActive s i) := by
  unfold State.showActive
  repeat' first
    | with_reducible assumption
    | ((try lift_lets -underBinder); intro x; first | (refine Keep.cut (s := s0) (t := x) ?_ ?_; (on_goal 1 => (unfold x; clear x)); (on_goal 2 => (clear_value x; intro k))) | (refine Keep.cut (s := s0) (t := x.1) ?_ ?_; (on_goal 1 => (unfold x; clear x)); (on_goal 2 => (clear_value x; intro k))) | clear_value x | skip)
    | with_reducible apply Keep.setF
    | split

theorem Keep.placeCtx {s0 : State} {s : State} {c i : Nat} (h0 : Keep s0 s) : Keep s0 (State.placeCtx s c i) := by
  unfold State.placeCtx
  repeat' first
    | with_reducible assumption
    | ((try lift_lets -underBinder); intro x; first | (refine Keep.cut (s := s0) (t := x) ?_ ?_; (on_goal 1 => (unfold x; clear x)); (on_goal 2 => (clear_value x; intro k))) | (refine Keep.cut (s := s0) (t := x.1) ?_ ?_; (on_goal 1 => (unfold x; clear x)); (on_goal 2 => (clear_value x; intro k))) | clear_value x | skip)
    | with_reducible exact Keep.upd (by with_reducible assumption)
    | with_reducible apply Keep.ctxWord
    | with_reducible apply Keep.pend
    | with_reducible apply Keep.setF
    | with_reducible apply Keep.of_fst (by with_reducible assumption)
    | with_reducible refine Keep.upd (Keep.of_fst (by with_reducible assumption) ?_)
    | split

theorem Keep.wantSlot {s0 : State} {s : State} {c : Nat} (h0 : Keep s0 s) : Keep s0 (State.wantSlot s c).1 := by
  unfold State.wantSlot
  repeat' first
    | with_reducible assumption
    | ((try lift_lets -underBinder); intro x; first | (refine Keep.cut (s := s0) (t := x) ?_ ?_; (on_goal 1 => (unfold x; clear x)); (on_goal 2 => (clear_value x; intro k))) | (refine Keep.cut (s := s0) (t := x.1) ?_ ?_; (on_goal 1 => (unfold x; clear x)); (on_goal 2 => (clear_value x; intro k))) | clear_value x | skip)
    | with_reducible exact Keep.upd (by with_reducible assumption)
    | with_reducible apply Keep.placeCtx
    | with_reducible apply Keep.setF
    | split

theorem Keep.execSlotAssign {s0 : State} {s : State} (h0 : Keep s0 s) : ResKeep s0 (Sys2Proof.Machine.execSlotAssign s) := by
  unfold Sys2Proof.Machine.execSlotAssign
  repeat' first
    | with_reducible assumption
    | ((try lift_lets -underBinder); intro x; first | (refine Keep.cut (s := s0) (t := x) ?_ ?_; (on_goal 1 => (unfold x; clear x)); (on_goal 2 => (clear_value x; intro k))) | (refine Keep.cut (s := s0) (t := x.1) ?_ ?_; (on_goal 1 => (unfold x; clear x)); (on_goal 2 => (clear_value x; intro k))) | clear_value x | skip)
    | with_reducible apply Keep.next
    | with_reducible exact Keep.upd (by with_reducible assumption)
    | with_reducible apply Keep.placeCtx
    | split

theorem Keep.clearSlot {s0 : State} {s : State} {i : Nat} (h0 : Keep s0 s) : Keep s0 (State.clearSlot s i) := by
  unfold State.clearSlot
  repeat' first
    | with_reducible assumption
    | ((try lift_lets -underBinder); intro x; first | (refine Keep.cut (s := s0) (t := x) ?_ ?_; (on_goal 1 => (unfold x; clear x)); (on_goal 2 => (clear_value x; intro k))) | (refine Keep.cut (s := s0) (t := x.1) ?_ ?_; (on_goal 1 => (unfold x; clear x)); (on_goal 2 => (clear_value x; intro k))) | clear_value x | skip)
    | with_reducible exact Keep.upd (by with_reducible assumption)
    | with_reducible apply Keep.setF

theorem Keep.execContextEvict {s0 : State} {slot : Fin 48} {s : State} (h0 : Keep s0 s) : ResKeep s0 (Sys2Proof.Machine.execContextEvict slot s) := by
  unfold Sys2Proof.Machine.execContextEvict
  repeat' first
    | with_reducible assumption
    | ((try lift_lets -underBinder); intro x; first | (refine Keep.cut (s := s0) (t := x) ?_ ?_; (on_goal 1 => (unfold x; clear x)); (on_goal 2 => (clear_value x; intro k))) | (refine Keep.cut (s := s0) (t := x.1) ?_ ?_; (on_goal 1 => (unfold x; clear x)); (on_goal 2 => (clear_value x; intro k))) | clear_value x | skip)
    | with_reducible apply Keep.next
    | with_reducible apply Keep.clearSlot
    | with_reducible apply Keep.ctxWord
    | with_reducible apply Keep.hubWrite
    | with_reducible apply Keep.saveCtx
    | with_reducible apply Keep.tick
    | with_reducible apply Keep.of_fst (by with_reducible assumption)
    | split

theorem Keep.lookStart {s0 : State} {s : State} {q op : Nat} (h0 : Keep s0 s) : Keep s0 (State.lookStart s q op).1 := by
  unfold State.lookStart
  repeat' first
    | with_reducible assumption
    | ((try lift_lets -underBinder); intro x; first | (refine Keep.cut (s := s0) (t := x) ?_ ?_; (on_goal 1 => (unfold x; clear x)); (on_goal 2 => (clear_value x; intro k))) | (refine Keep.cut (s := s0) (t := x.1) ?_ ?_; (on_goal 1 => (unfold x; clear x)); (on_goal 2 => (clear_value x; intro k))) | clear_value x | skip)
    | with_reducible exact Keep.upd (by with_reducible assumption)
    | with_reducible apply Keep.readFence
    | with_reducible apply Keep.setF
    | with_reducible apply Keep.wantSlot
    | with_reducible apply Keep.of_fst (by with_reducible assumption)
    | with_reducible refine Keep.upd (Keep.of_fst (by with_reducible assumption) ?_)
    | split

theorem Keep.beginCmd {s0 : State} {s : State} {q : Nat} (h0 : Keep s0 s) : Keep s0 (State.beginCmd s q) := by
  unfold State.beginCmd
  repeat' first
    | with_reducible assumption
    | ((try lift_lets -underBinder); intro x; first | (refine Keep.cut (s := s0) (t := x) ?_ ?_; (on_goal 1 => (unfold x; clear x)); (on_goal 2 => (clear_value x; intro k))) | (refine Keep.cut (s := s0) (t := x.1) ?_ ?_; (on_goal 1 => (unfold x; clear x)); (on_goal 2 => (clear_value x; intro k))) | clear_value x | skip)
    | with_reducible exact Keep.upd (by with_reducible assumption)
    | with_reducible apply Keep.setF
    | with_reducible apply Keep.showActive
    | with_reducible apply Keep.updHead
    | split

theorem Keep.tryStart {s0 : State} {s : State} {q op : Nat} {f : HubCmd → State → State} (h0 : Keep s0 s) (hf : ∀ x0 t, Keep s0 t → Keep s0 (f x0 t)) : Keep s0 (State.tryStart s q op f) := by
  unfold State.tryStart
  repeat' first
    | with_reducible assumption
    | intro _
    | with_reducible exact Keep.upd (by with_reducible assumption)
    | with_reducible apply Keep.endCmd
    | with_reducible apply Keep.lookStart
    | with_reducible apply hf
    | with_reducible apply Keep.of_fst (by with_reducible assumption)
    | with_reducible refine Keep.upd (Keep.of_fst (by with_reducible assumption) ?_)
    | split

theorem Keep.holdBack {s0 : State} {s : State} {q : Nat} (h0 : Keep s0 s) : Keep s0 (State.holdBack s q) := by
  unfold State.holdBack
  repeat' first
    | with_reducible assumption
    | with_reducible apply Keep.setF

theorem Keep.execNopCommand {s0 : State} {q : QueueIx} {s : State} (h0 : Keep s0 s) : ResKeep s0 (Sys2Proof.Machine.execNopCommand q s) := by
  unfold Sys2Proof.Machine.execNopCommand
  repeat' first
    | with_reducible assumption
    | intro _
    | with_reducible apply Keep.next
    | with_reducible apply Keep.beginCmd
    | with_reducible apply Keep.endCmd
    | with_reducible apply Keep.tryStart

theorem Keep.signalFence {s0 : State} {s : State} {c : HubCmd} (h0 : Keep s0 s) : Keep s0 (State.signalFence s c).1 := by
  unfold State.signalFence
  repeat' first
    | with_reducible assumption
    | with_reducible exact Keep.upd (by with_reducible assumption)
    | with_reducible apply Keep.kindAt
    | with_reducible apply Keep.of_fst (by with_reducible assumption)
    | with_reducible refine Keep.upd (Keep.of_fst (by with_reducible assumption) ?_)
    | split

theorem Keep.dropRefs {s0 : State} {s : State} {ctx q : Nat} {c : HubCmd} (h0 : Keep s0 s) : Keep s0 (State.dropRefs s ctx q c) := by
  unfold State.dropRefs
  repeat' first
    | with_reducible assumption
    | intro _
    | with_reducible apply Keep.foldl
    | with_reducible apply Keep.dropNaming

theorem Keep.complete {s0 : State} {s : State} {q : Nat} {c : HubCmd} {keep : Bool} (h0 : Keep s0 s) : Keep s0 (State.complete s q c keep).1 := by
  unfold State.complete
  repeat' first
    | with_reducible assumption
    | ((try lift_lets -underBinder); intro x; first | (refine Keep.cut (s := s0) (t := x) ?_ ?_; (on_goal 1 => (unfold x; clear x)); (on_goal 2 => (clear_value x; intro k))) | (refine Keep.cut (s := s0) (t := x.1) ?_ ?_; (on_goal 1 => (unfold x; clear x)); (on_goal 2 => (clear_value x; intro k))) | clear_value x | skip)
    | with_reducible exact Keep.upd (by with_reducible assumption)
    | with_reducible apply Keep.addF
    | with_reducible apply Keep.attach
    | with_reducible apply Keep.dropRefs
    | with_reducible apply Keep.hubWrite
    | with_reducible apply Keep.noteError
    | with_reducible apply Keep.signal
    | with_reducible apply Keep.signalFence
    | with_reducible apply Keep.of_fst (by with_reducible assumption)
    | with_reducible refine Keep.upd (Keep.of_fst (by with_reducible assumption) ?_)
    | split

theorem Keep.afterComplete {s0 : State} {s : State} {q code : Nat} (h0 : Keep s0 s) : Keep s0 (State.afterComplete s q code) := by
  unfold State.afterComplete
  repeat' first
    | with_reducible assumption
    | ((try lift_lets -underBinder); intro x; first | (refine Keep.cut (s := s0) (t := x) ?_ ?_; (on_goal 1 => (unfold x; clear x)); (on_goal 2 => (clear_value x; intro k))) | (refine Keep.cut (s := s0) (t := x.1) ?_ ?_; (on_goal 1 => (unfold x; clear x)); (on_goal 2 => (clear_value x; intro k))) | clear_value x | skip)
    | with_reducible apply Keep.setF
    | split

theorem Keep.cancelCmd {s0 : State} {s : State} {q code : Nat} {keep : Bool} {c : HubCmd} (h0 : Keep s0 s) : Keep s0 (State.cancelCmd s q code keep c) := by
  unfold State.cancelCmd
  repeat' first
    | with_reducible assumption
    | ((try lift_lets -underBinder); intro x; first | (refine Keep.cut (s := s0) (t := x) ?_ ?_; (on_goal 1 => (unfold x; clear x)); (on_goal 2 => (clear_value x; intro k))) | (refine Keep.cut (s := s0) (t := x.1) ?_ ?_; (on_goal 1 => (unfold x; clear x)); (on_goal 2 => (clear_value x; intro k))) | clear_value x | skip)
    | with_reducible exact Keep.upd (by with_reducible assumption)
    | with_reducible apply Keep.complete
    | with_reducible apply Keep.of_fst (by with_reducible assumption)
    | with_reducible refine Keep.upd (Keep.of_fst (by with_reducible assumption) ?_)

theorem Keep.cancelQueue {s0 : State} {s : State} {q code : Nat} {keep : Bool} (h0 : Keep s0 s) : Keep s0 (State.cancelQueue s q code keep) := by
  unfold State.cancelQueue
  repeat' first
    | with_reducible assumption
    | ((try lift_lets -underBinder); intro x; first | (refine Keep.cut (s := s0) (t := x) ?_ ?_; (on_goal 1 => (unfold x; clear x)); (on_goal 2 => (clear_value x; intro k))) | (refine Keep.cut (s := s0) (t := x.1) ?_ ?_; (on_goal 1 => (unfold x; clear x)); (on_goal 2 => (clear_value x; intro k))) | clear_value x | skip)
    | with_reducible exact Keep.upd (by with_reducible assumption)
    | with_reducible apply Keep.foldl
    | with_reducible apply Keep.foldl_fst
    | with_reducible apply Keep.cancelCmd
    | with_reducible apply Keep.readEntry
    | with_reducible apply Keep.setCmds
    | with_reducible apply Keep.setF
    | with_reducible apply Keep.of_fst (by with_reducible assumption)
    | with_reducible refine Keep.upd (Keep.of_fst (by with_reducible assumption) ?_)
    | split

theorem Keep.errCurrent {s0 : State} {s : State} {p code : Nat} (h0 : Keep s0 s) : Keep s0 (State.errCurrent s p code) := by
  unfold State.errCurrent
  repeat' first
    | with_reducible assumption
    | ((try lift_lets -underBinder); intro x; first | (refine Keep.cut (s := s0) (t := x) ?_ ?_; (on_goal 1 => (unfold x; clear x)); (on_goal 2 => (clear_value x; intro k))) | (refine Keep.cut (s := s0) (t := x.1) ?_ ?_; (on_goal 1 => (unfold x; clear x)); (on_goal 2 => (clear_value x; intro k))) | clear_value x | skip)
    | with_reducible exact Keep.upd (by with_reducible assumption)
    | with_reducible apply Keep.attach
    | with_reducible apply Keep.noteError
    | with_reducible apply Keep.pend
    | with_reducible apply Keep.signalFence
    | with_reducible apply Keep.updHead
    | with_reducible apply Keep.of_fst (by with_reducible assumption)
    | with_reducible refine Keep.upd (Keep.of_fst (by with_reducible assumption) ?_)
    | split

theorem Keep.showLoads {s0 : State} {s : State} (h0 : Keep s0 s) : Keep s0 (State.showLoads s) := by
  unfold State.showLoads
  repeat' first
    | with_reducible assumption
    | intro _
    | with_reducible exact Keep.upd (by with_reducible assumption)
    | with_reducible apply Keep.set
    | split

theorem Keep.stopCtx {s0 : State} {s : State} {c code : Nat} {tile : Option Nat} (h0 : Keep s0 s) : Keep s0 (State.stopCtx s c code tile) := by
  unfold State.stopCtx
  repeat' first
    | with_reducible assumption
    | ((try lift_lets -underBinder); intro x; first | (refine Keep.cut (s := s0) (t := x) ?_ ?_; (on_goal 1 => (unfold x; clear x)); (on_goal 2 => (clear_value x; intro k))) | (refine Keep.cut (s := s0) (t := x.1) ?_ ?_; (on_goal 1 => (unfold x; clear x)); (on_goal 2 => (clear_value x; intro k))) | clear_value x | skip)
    | intro _
    | with_reducible exact Keep.upd (by with_reducible assumption)
    | with_reducible apply Keep.foldl
    | with_reducible apply Keep.foldl_fst
    | with_reducible apply Keep.setF
    | with_reducible apply Keep.setCmds
    | with_reducible apply Keep.cancelQueue
    | with_reducible apply Keep.showLoads
    | with_reducible apply Keep.load
    | split

theorem Keep.execDoorbell {s0 : State} {q : QueueIx} {wide : Bool} {value : Word} {s : State} (h0 : Keep s0 s) : ResKeep s0 (Sys2Proof.Machine.execDoorbell q wide value s) := by
  unfold Sys2Proof.Machine.execDoorbell
  repeat' first
    | with_reducible assumption
    | ((try lift_lets -underBinder); intro x; first | (refine Keep.cut (s := s0) (t := x) ?_ ?_; (on_goal 1 => (unfold x; clear x)); (on_goal 2 => (clear_value x; intro k))) | (refine Keep.cut (s := s0) (t := x.1) ?_ ?_; (on_goal 1 => (unfold x; clear x)); (on_goal 2 => (clear_value x; intro k))) | clear_value x | skip)
    | with_reducible apply Keep.next
    | with_reducible apply Keep.addF
    | with_reducible apply Keep.cxlIo
    | with_reducible apply Keep.notice
    | with_reducible apply Keep.setF
    | split

theorem Keep.objEnd {s0 : State} {s : State} {code : Nat} (h0 : Keep s0 s) : Keep s0 (State.objEnd s code) := by
  unfold State.objEnd
  repeat' first
    | with_reducible assumption
    | with_reducible apply Keep.set

theorem Keep.clearQueue {s0 : State} {s : State} {q : Nat} (h0 : Keep s0 s) : Keep s0 (State.clearQueue s q) := by
  unfold State.clearQueue
  repeat' first
    | with_reducible assumption
    | intro _
    | with_reducible apply Keep.foldl
    | with_reducible apply Keep.setCmds
    | with_reducible apply Keep.setF

theorem Keep.execQueueCreate {s0 : State} {s : State} (h0 : Keep s0 s) : ResKeep s0 (Sys2Proof.Machine.execQueueCreate s) := by
  unfold Sys2Proof.Machine.execQueueCreate
  repeat' first
    | with_reducible assumption
    | ((try lift_lets -underBinder); intro x; first | (refine Keep.cut (s := s0) (t := x) ?_ ?_; (on_goal 1 => (unfold x; clear x)); (on_goal 2 => (clear_value x; intro k))) | (refine Keep.cut (s := s0) (t := x.1) ?_ ?_; (on_goal 1 => (unfold x; clear x)); (on_goal 2 => (clear_value x; intro k))) | clear_value x | skip)
    | with_reducible apply Keep.next
    | with_reducible exact Keep.upd (by with_reducible assumption)
    | with_reducible apply Keep.clearQueue
    | with_reducible apply Keep.countQueues
    | with_reducible apply Keep.ctxOwner
    | with_reducible apply Keep.cxlIo
    | with_reducible apply Keep.objEnd
    | with_reducible apply Keep.set
    | with_reducible apply Keep.setF
    | with_reducible apply Keep.of_fst (by with_reducible assumption)
    | with_reducible refine Keep.upd (Keep.of_fst (by with_reducible assumption) ?_)
    | split

theorem Keep.execQueueDestroy {s0 : State} {s : State} (h0 : Keep s0 s) : ResKeep s0 (Sys2Proof.Machine.execQueueDestroy s) := by
  unfold Sys2Proof.Machine.execQueueDestroy
  repeat' first
    | with_reducible assumption
    | ((try lift_lets -underBinder); intro x; first | (refine Keep.cut (s := s0) (t := x) ?_ ?_; (on_goal 1 => (unfold x; clear x)); (on_goal 2 => (clear_value x; intro k))) | (refine Keep.cut (s := s0) (t := x.1) ?_ ?_; (on_goal 1 => (unfold x; clear x)); (on_goal 2 => (clear_value x; intro k))) | clear_value x | skip)
    | with_reducible apply Keep.next
    | with_reducible apply Keep.clearQueue
    | with_reducible apply Keep.countQueues
    | with_reducible apply Keep.cxlIo
    | with_reducible apply Keep.objEnd
    | split

theorem Keep.execFenceErr {s0 : State} {s : State} (h0 : Keep s0 s) : ResKeep s0 (Sys2Proof.Machine.execFenceErr s) := by
  unfold Sys2Proof.Machine.execFenceErr
  repeat' first
    | with_reducible assumption
    | ((try lift_lets -underBinder); intro x; first | (refine Keep.cut (s := s0) (t := x) ?_ ?_; (on_goal 1 => (unfold x; clear x)); (on_goal 2 => (clear_value x; intro k))) | (refine Keep.cut (s := s0) (t := x.1) ?_ ?_; (on_goal 1 => (unfold x; clear x)); (on_goal 2 => (clear_value x; intro k))) | clear_value x | skip)
    | with_reducible apply Keep.next
    | with_reducible apply Keep.attach
    | with_reducible apply Keep.cxlIo
    | with_reducible apply Keep.objEnd
    | with_reducible apply Keep.recordOk
    | with_reducible apply Keep.of_fst (by with_reducible assumption)
    | split

theorem Keep.qOverrun {s0 : State} {s : State} {q : Nat} (h0 : Keep s0 s) : Keep s0 (State.qOverrun s q) := by
  unfold State.qOverrun
  repeat' first
    | with_reducible assumption
    | with_reducible apply Keep.setF
    | split

theorem Keep.execQueueStop {s0 : State} {q : QueueIx} {s : State} (h0 : Keep s0 s) : ResKeep s0 (Sys2Proof.Machine.execQueueStop q s) := by
  unfold Sys2Proof.Machine.execQueueStop
  repeat' first
    | with_reducible assumption
    | ((try lift_lets -underBinder); intro x; first | (refine Keep.cut (s := s0) (t := x) ?_ ?_; (on_goal 1 => (unfold x; clear x)); (on_goal 2 => (clear_value x; intro k))) | (refine Keep.cut (s := s0) (t := x.1) ?_ ?_; (on_goal 1 => (unfold x; clear x)); (on_goal 2 => (clear_value x; intro k))) | clear_value x | skip)
    | with_reducible apply Keep.next
    | with_reducible apply Keep.cxlIo
    | with_reducible apply Keep.qOverrun
    | with_reducible apply Keep.setF
    | split

theorem Keep.execQueueResume {s0 : State} {q : QueueIx} {s : State} (h0 : Keep s0 s) : ResKeep s0 (Sys2Proof.Machine.execQueueResume q s) := by
  unfold Sys2Proof.Machine.execQueueResume
  repeat' first
    | with_reducible assumption
    | intro _
    | with_reducible apply Keep.next
    | with_reducible apply Keep.cxlIo
    | with_reducible apply Keep.qOverrun
    | with_reducible apply Keep.setF
    | split

theorem Keep.execQueueCancel {s0 : State} {q : QueueIx} {keep : Bool} {code : BitVec 16} {s : State} (h0 : Keep s0 s) : ResKeep s0 (Sys2Proof.Machine.execQueueCancel q keep code s) := by
  unfold Sys2Proof.Machine.execQueueCancel
  repeat' first
    | with_reducible assumption
    | intro _
    | with_reducible apply Keep.next
    | with_reducible apply Keep.cancelQueue
    | with_reducible apply Keep.cxlIo
    | with_reducible apply Keep.qOverrun
    | split

theorem Keep.execCtxTableLock {s0 : State} {s : State} (h0 : Keep s0 s) : ResKeep s0 (Sys2Proof.Machine.execCtxTableLock s) := by
  unfold Sys2Proof.Machine.execCtxTableLock
  repeat' first
    | with_reducible assumption
    | intro _
    | with_reducible apply Keep.next
    | with_reducible apply Keep.cxlIo
    | with_reducible apply Keep.set

end Sys2Proof.Machine
end

