-- ==== Sys2Proof/Laws/KeepLinks.lean ====
section
/-!
SUPPORT. What the operations of Machine/Links.lean keep (Laws/Keep.lean).
-/

set_option linter.unusedTactic false
set_option linter.unreachableTactic false

namespace Sys2Proof.Machine

theorem Keep.updPort {s0 : State} {s : State} {p : Nat} {f : PortSt → PortSt} (h0 : Keep s0 s) : Keep s0 (State.updPort s p f) := by
  unfold State.updPort
  repeat' first
    | with_reducible assumption
    | ((try lift_lets -underBinder); intro x; first | (refine Keep.cut (s := s0) (t := x) ?_ ?_; (on_goal 1 => (unfold x; clear x)); (on_goal 2 => (clear_value x; intro k))) | (refine Keep.cut (s := s0) (t := x.1) ?_ ?_; (on_goal 1 => (unfold x; clear x)); (on_goal 2 => (clear_value x; intro k))) | clear_value x | skip)
    | with_reducible exact Keep.upd (by with_reducible assumption)

theorem Keep.updSession {s0 : State} {s : State} {n : Nat} {f : Session → Session} (h0 : Keep s0 s) : Keep s0 (State.updSession s n f) := by
  unfold State.updSession
  repeat' first
    | with_reducible assumption
    | ((try lift_lets -underBinder); intro x; first | (refine Keep.cut (s := s0) (t := x) ?_ ?_; (on_goal 1 => (unfold x; clear x)); (on_goal 2 => (clear_value x; intro k))) | (refine Keep.cut (s := s0) (t := x.1) ?_ ?_; (on_goal 1 => (unfold x; clear x)); (on_goal 2 => (clear_value x; intro k))) | clear_value x | skip)
    | with_reducible exact Keep.upd (by with_reducible assumption)

theorem Keep.setPortState {s0 : State} {s : State} {p v : Nat} (h0 : Keep s0 s) : Keep s0 (State.setPortState s p v) := by
  unfold State.setPortState
  repeat' first
    | with_reducible assumption
    | with_reducible apply Keep.setF

theorem Keep.setPeerState {s0 : State} {s : State} {n v : Nat} (h0 : Keep s0 s) : Keep s0 (State.setPeerState s n v) := by
  unfold State.setPeerState
  repeat' first
    | with_reducible assumption
    | ((try lift_lets -underBinder); intro x; first | (refine Keep.cut (s := s0) (t := x) ?_ ?_; (on_goal 1 => (unfold x; clear x)); (on_goal 2 => (clear_value x; intro k))) | (refine Keep.cut (s := s0) (t := x.1) ?_ ?_; (on_goal 1 => (unfold x; clear x)); (on_goal 2 => (clear_value x; intro k))) | clear_value x | skip)
    | with_reducible apply Keep.set
    | with_reducible apply Keep.setF

theorem Keep.portCount {s0 : State} {s : State} {f : Fld} {p n : Nat} (h0 : Keep s0 s) : Keep s0 (State.portCount s f p n) := by
  unfold State.portCount
  repeat' first
    | with_reducible assumption
    | with_reducible apply Keep.addF
    | split

theorem Keep.portErr {s0 : State} {s : State} {p code : Nat} (h0 : Keep s0 s) : Keep s0 (State.portErr s p code) := by
  unfold State.portErr
  repeat' first
    | with_reducible assumption
    | with_reducible apply Keep.setF

theorem Keep.queueMsg {s0 : State} {s : State} {p : Nat} {m : LinkMsg} (h0 : Keep s0 s) : Keep s0 (State.queueMsg s p m) := by
  unfold State.queueMsg
  repeat' first
    | with_reducible assumption
    | ((try lift_lets -underBinder); intro x; first | (refine Keep.cut (s := s0) (t := x) ?_ ?_; (on_goal 1 => (unfold x; clear x)); (on_goal 2 => (clear_value x; intro k))) | (refine Keep.cut (s := s0) (t := x.1) ?_ ?_; (on_goal 1 => (unfold x; clear x)); (on_goal 2 => (clear_value x; intro k))) | clear_value x | skip)
    | with_reducible exact Keep.upd (by with_reducible assumption)
    | with_reducible apply Keep.updPort
    | split

theorem Keep.sendMsg {s0 : State} {s : State} {peer ty tag arg0 arg1 : Nat} {payload : Bytes} (h0 : Keep s0 s) : Keep s0 (State.sendMsg s peer ty tag arg0 arg1 payload) := by
  unfold State.sendMsg
  repeat' first
    | with_reducible assumption
    | ((try lift_lets -underBinder); intro x; first | (refine Keep.cut (s := s0) (t := x) ?_ ?_; (on_goal 1 => (unfold x; clear x)); (on_goal 2 => (clear_value x; intro k))) | (refine Keep.cut (s := s0) (t := x.1) ?_ ?_; (on_goal 1 => (unfold x; clear x)); (on_goal 2 => (clear_value x; intro k))) | clear_value x | skip)
    | with_reducible exact Keep.upd (by with_reducible assumption)
    | with_reducible apply Keep.queueMsg
    | with_reducible apply Keep.tick
    | split

theorem Keep.takeMsg {s0 s t : State} {p ty : Nat} {m : LinkMsg} (e : s.takeMsg p ty = some (m, t)) (h : Keep s0 s) :
    Keep s0 t := by
  unfold State.takeMsg at e
  split at e
  · cases e
  split at e
  · cases e
  split at e
  · cases e
  · cases e; exact Keep.updPort h

theorem Keep.onMsg {s0 : State} {s : State} {p ty : Nat} {f : Nat → LinkMsg → State → State} (h0 : Keep s0 s) (hf : ∀ x0 x1 t, Keep s0 t → Keep s0 (f x0 x1 t)) : Keep s0 (State.onMsg s p ty f) := by
  unfold State.onMsg
  repeat' first
    | with_reducible assumption
    | intro _
    | with_reducible exact Keep.upd (by with_reducible assumption)
    | with_reducible apply hf
    | with_reducible apply Keep.takeMsg (by with_reducible assumption)
    | split

theorem Keep.queueCtl {s0 : State} {s : State} {p ctype : Nat} {body : Bytes} (h0 : Keep s0 s) : Keep s0 (State.queueCtl s p ctype body) := by
  unfold State.queueCtl
  repeat' first
    | with_reducible assumption
    | ((try lift_lets -underBinder); intro x; first | (refine Keep.cut (s := s0) (t := x) ?_ ?_; (on_goal 1 => (unfold x; clear x)); (on_goal 2 => (clear_value x; intro k))) | (refine Keep.cut (s := s0) (t := x.1) ?_ ?_; (on_goal 1 => (unfold x; clear x)); (on_goal 2 => (clear_value x; intro k))) | clear_value x | skip)
    | with_reducible exact Keep.upd (by with_reducible assumption)
    | with_reducible apply Keep.updPort

theorem Keep.takeCtl {s0 s t : State} {p ty : Nat} {m : Bytes} (e : s.takeCtl p ty = some (m, t)) (h : Keep s0 s) :
    Keep s0 t := by
  unfold State.takeCtl at e
  split at e
  · cases e
  split at e
  · cases e; exact Keep.updPort h
  · cases e

theorem Keep.queueSetup {s0 : State} {s : State} {p stype : Nat} {body : Bytes} (h0 : Keep s0 s) : Keep s0 (State.queueSetup s p stype body) := by
  unfold State.queueSetup
  repeat' first
    | with_reducible assumption
    | ((try lift_lets -underBinder); intro x; first | (refine Keep.cut (s := s0) (t := x) ?_ ?_; (on_goal 1 => (unfold x; clear x)); (on_goal 2 => (clear_value x; intro k))) | (refine Keep.cut (s := s0) (t := x.1) ?_ ?_; (on_goal 1 => (unfold x; clear x)); (on_goal 2 => (clear_value x; intro k))) | clear_value x | skip)
    | with_reducible exact Keep.upd (by with_reducible assumption)
    | with_reducible apply Keep.updPort

theorem Keep.takeSetup {s0 s t : State} {p ty : Nat} {m : Bytes} (e : s.takeSetup p ty = some (m, t)) (h : Keep s0 s) :
    Keep s0 t := by
  unfold State.takeSetup at e
  split at e
  · cases e
  split at e
  · cases e; exact Keep.updPort h
  · cases e

theorem Keep.sendHello {s0 : State} {s : State} {p restarts : Nat} (h0 : Keep s0 s) : Keep s0 (State.sendHello s p restarts) := by
  unfold State.sendHello
  repeat' first
    | with_reducible assumption
    | ((try lift_lets -underBinder); intro x; first | (refine Keep.cut (s := s0) (t := x) ?_ ?_; (on_goal 1 => (unfold x; clear x)); (on_goal 2 => (clear_value x; intro k))) | (refine Keep.cut (s := s0) (t := x.1) ?_ ?_; (on_goal 1 => (unfold x; clear x)); (on_goal 2 => (clear_value x; intro k))) | clear_value x | skip)
    | with_reducible exact Keep.upd (by with_reducible assumption)
    | with_reducible apply Keep.queueSetup
    | with_reducible apply Keep.tick
    | with_reducible apply Keep.updPort

theorem Keep.freeSetup {s0 : State} {s : State} {p : Nat} (h0 : Keep s0 s) : Keep s0 (State.freeSetup s p) := by
  unfold State.freeSetup
  repeat' first
    | with_reducible assumption
    | intro _
    | with_reducible exact Keep.upd (by with_reducible assumption)
    | with_reducible apply Keep.updPort
    | with_reducible apply Keep.updSession
    | with_reducible apply Keep.setPeerState
    | split

theorem Keep.refusePort {s0 : State} {s : State} {p code : Nat} {count : Bool} (h0 : Keep s0 s) : Keep s0 (State.refusePort s p code count) := by
  unfold State.refusePort
  repeat' first
    | with_reducible assumption
    | ((try lift_lets -underBinder); intro x; first | (refine Keep.cut (s := s0) (t := x) ?_ ?_; (on_goal 1 => (unfold x; clear x)); (on_goal 2 => (clear_value x; intro k))) | (refine Keep.cut (s := s0) (t := x.1) ?_ ?_; (on_goal 1 => (unfold x; clear x)); (on_goal 2 => (clear_value x; intro k))) | clear_value x | skip)
    | with_reducible apply Keep.addF
    | with_reducible apply Keep.freeSetup
    | with_reducible apply Keep.portErr
    | with_reducible apply Keep.queueSetup
    | with_reducible apply Keep.setPortState
    | split

theorem Keep.startRekey {s0 : State} {s : State} {n p : Nat} (h0 : Keep s0 s) : Keep s0 (State.startRekey s n p) := by
  unfold State.startRekey
  repeat' first
    | with_reducible assumption
    | ((try lift_lets -underBinder); intro x; first | (refine Keep.cut (s := s0) (t := x) ?_ ?_; (on_goal 1 => (unfold x; clear x)); (on_goal 2 => (clear_value x; intro k))) | (refine Keep.cut (s := s0) (t := x.1) ?_ ?_; (on_goal 1 => (unfold x; clear x)); (on_goal 2 => (clear_value x; intro k))) | clear_value x | skip)
    | with_reducible exact Keep.upd (by with_reducible assumption)
    | with_reducible apply Keep.queueCtl
    | with_reducible apply Keep.updSession
    | split

theorem Keep.showEpoch {s0 : State} {s : State} {n : Nat} (h0 : Keep s0 s) : Keep s0 (State.showEpoch s n) := by
  unfold State.showEpoch
  repeat' first
    | with_reducible assumption
    | ((try lift_lets -underBinder); intro x; first | (refine Keep.cut (s := s0) (t := x) ?_ ?_; (on_goal 1 => (unfold x; clear x)); (on_goal 2 => (clear_value x; intro k))) | (refine Keep.cut (s := s0) (t := x.1) ?_ ?_; (on_goal 1 => (unfold x; clear x)); (on_goal 2 => (clear_value x; intro k))) | clear_value x | skip)
    | with_reducible apply Keep.foldl
    | with_reducible apply Keep.setF

theorem Keep.joinPort {s0 : State} {s : State} {p n : Nat} (h0 : Keep s0 s) : Keep s0 (State.joinPort s p n) := by
  unfold State.joinPort
  repeat' first
    | with_reducible assumption
    | with_reducible apply Keep.setF
    | with_reducible apply Keep.setPortState
    | with_reducible apply Keep.showEpoch

theorem Keep.dropPort {s0 : State} {s : State} {p : Nat} (h0 : Keep s0 s) : Keep s0 (State.dropPort s p) := by
  unfold State.dropPort
  repeat' first
    | with_reducible assumption
    | ((try lift_lets -underBinder); intro x; first | (refine Keep.cut (s := s0) (t := x) ?_ ?_; (on_goal 1 => (unfold x; clear x)); (on_goal 2 => (clear_value x; intro k))) | (refine Keep.cut (s := s0) (t := x.1) ?_ ?_; (on_goal 1 => (unfold x; clear x)); (on_goal 2 => (clear_value x; intro k))) | clear_value x | skip)
    | with_reducible exact Keep.upd (by with_reducible assumption)
    | with_reducible apply Keep.setF
    | with_reducible apply Keep.updPort
    | split

theorem Keep.newTag {s0 : State} {s : State} (h0 : Keep s0 s) : Keep s0 (State.newTag s).1 := by
  unfold State.newTag
  repeat' first
    | with_reducible assumption
    | ((try lift_lets -underBinder); intro x; first | (refine Keep.cut (s := s0) (t := x) ?_ ?_; (on_goal 1 => (unfold x; clear x)); (on_goal 2 => (clear_value x; intro k))) | (refine Keep.cut (s := s0) (t := x.1) ?_ ?_; (on_goal 1 => (unfold x; clear x)); (on_goal 2 => (clear_value x; intro k))) | clear_value x | skip)
    | with_reducible exact Keep.upd (by with_reducible assumption)

end Sys2Proof.Machine
end

