-- ==== Sys2Proof/Laws/KeepOwners.lean ====
section
/-!
SUPPORT. What the operations of Machine/Owners.lean keep (Laws/Keep.lean).
-/

set_option linter.unusedTactic false
set_option linter.unreachableTactic false

namespace Sys2Proof.Machine

theorem Keep.ownerEnd {s0 : State} {s : State} {code reason : Nat} (h0 : Keep s0 s) : Keep s0 (State.ownerEnd s code reason) := by
  unfold State.ownerEnd
  repeat' first
    | with_reducible assumption
    | with_reducible apply Keep.set

theorem Keep.ownerRefuse {s0 : State} {s : State} {reason : Nat} (h0 : Keep s0 s) : Keep s0 (State.ownerRefuse s reason) := by
  unfold State.ownerRefuse
  repeat' first
    | with_reducible assumption
    | with_reducible apply Keep.ownerEnd

theorem Keep.ownerTake {s0 : State} {s : State} {kind : Nat} {data : Bytes} (h0 : Keep s0 s) : Keep s0 (State.ownerTake s kind data) := by
  unfold State.ownerTake
  repeat' first
    | with_reducible assumption
    | intro _
    | with_reducible exact Keep.upd (by with_reducible assumption)
    | with_reducible apply Keep.ownerEnd
    | with_reducible apply Keep.ownerRefuse
    | with_reducible apply Keep.set
    | with_reducible apply Keep.updOwner
    | split

theorem Keep.execOwnerRegister {s0 : State} {s : State} (h0 : Keep s0 s) : ResKeep s0 (Sys2Proof.Machine.execOwnerRegister s) := by
  unfold Sys2Proof.Machine.execOwnerRegister
  repeat' first
    | with_reducible assumption
    | intro _
    | with_reducible apply Keep.next
    | with_reducible apply Keep.cxlIo
    | with_reducible apply Keep.ownerTake

theorem Keep.execOwnerRegisterJoint {s0 : State} {s : State} (h0 : Keep s0 s) : ResKeep s0 (Sys2Proof.Machine.execOwnerRegisterJoint s) := by
  unfold Sys2Proof.Machine.execOwnerRegisterJoint
  repeat' first
    | with_reducible assumption
    | intro _
    | with_reducible apply Keep.next
    | with_reducible apply Keep.cxlIo
    | with_reducible apply Keep.ownerTake

theorem Keep.execOwnerUnregister {s0 : State} {s : State} (h0 : Keep s0 s) : ResKeep s0 (Sys2Proof.Machine.execOwnerUnregister s) := by
  unfold Sys2Proof.Machine.execOwnerUnregister
  repeat' first
    | with_reducible assumption
    | ((try lift_lets -underBinder); intro x; first | (refine Keep.cut (s := s0) (t := x) ?_ ?_; (on_goal 1 => (unfold x; clear x)); (on_goal 2 => (clear_value x; intro k))) | (refine Keep.cut (s := s0) (t := x.1) ?_ ?_; (on_goal 1 => (unfold x; clear x)); (on_goal 2 => (clear_value x; intro k))) | clear_value x | skip)
    | with_reducible apply Keep.next
    | with_reducible apply Keep.cxlIo
    | with_reducible apply Keep.ownerEnd
    | with_reducible apply Keep.ownerRefuse
    | with_reducible apply Keep.updOwner
    | split

theorem Keep.execOwnerRead {s0 : State} {s : State} (h0 : Keep s0 s) : ResKeep s0 (Sys2Proof.Machine.execOwnerRead s) := by
  unfold Sys2Proof.Machine.execOwnerRead
  repeat' first
    | with_reducible assumption
    | ((try lift_lets -underBinder); intro x; first | (refine Keep.cut (s := s0) (t := x) ?_ ?_; (on_goal 1 => (unfold x; clear x)); (on_goal 2 => (clear_value x; intro k))) | (refine Keep.cut (s := s0) (t := x.1) ?_ ?_; (on_goal 1 => (unfold x; clear x)); (on_goal 2 => (clear_value x; intro k))) | clear_value x | skip)
    | with_reducible apply Keep.next
    | with_reducible apply Keep.foldl
    | with_reducible apply Keep.cxlIo
    | with_reducible apply Keep.ownerEnd
    | with_reducible apply Keep.set
    | with_reducible apply Keep.setF
    | split

theorem Keep.keyEnd {s0 : State} {s : State} {code : Nat} (h0 : Keep s0 s) : Keep s0 (State.keyEnd s code) := by
  unfold State.keyEnd
  repeat' first
    | with_reducible assumption
    | with_reducible apply Keep.set

theorem Keep.keyRefuse {s0 : State} {s : State} {code : Nat} (h0 : Keep s0 s) : Keep s0 (State.keyRefuse s code) := by
  unfold State.keyRefuse
  repeat' first
    | with_reducible assumption
    | with_reducible apply Keep.set
    | with_reducible apply Keep.keyEnd

theorem Keep.keyIdle {s0 : State} {s : State} {f : State → State} (h0 : Keep s0 s) (hf : ∀ t, Keep s0 t → Keep s0 (f t)) : Keep s0 (State.keyIdle s f) := by
  unfold State.keyIdle
  repeat' first
    | with_reducible assumption
    | intro _
    | with_reducible apply Keep.set
    | with_reducible apply hf
    | split

theorem Keep.keyCmd {s0 : State} {s : State} {f : State → State} (h0 : Keep s0 s) (hf : ∀ t, Keep s0 t → Keep s0 (f t)) : Keep s0 (State.keyCmd s f) := by
  unfold State.keyCmd
  repeat' first
    | with_reducible assumption
    | intro _
    | with_reducible apply Keep.cxlIo
    | with_reducible apply Keep.keyIdle
    | with_reducible apply hf

theorem Keep.execKeyAlloc {s0 : State} {s : State} (h0 : Keep s0 s) : ResKeep s0 (Sys2Proof.Machine.execKeyAlloc s) := by
  unfold Sys2Proof.Machine.execKeyAlloc
  repeat' first
    | with_reducible assumption
    | intro _
    | with_reducible apply Keep.next
    | with_reducible exact Keep.upd (by with_reducible assumption)
    | with_reducible apply Keep.updKey
    | with_reducible apply Keep.set
    | with_reducible apply Keep.keyEnd
    | with_reducible apply Keep.keyRefuse
    | with_reducible apply Keep.keyCmd
    | split

theorem Keep.setWearList {s0 : State} {s : State} {c : Nat} {l : List (Nat × Nat × Nat)} (h0 : Keep s0 s) : Keep s0 (State.setWearList s c l) := by
  unfold State.setWearList
  repeat' first
    | with_reducible assumption
    | ((try lift_lets -underBinder); intro x; first | (refine Keep.cut (s := s0) (t := x) ?_ ?_; (on_goal 1 => (unfold x; clear x)); (on_goal 2 => (clear_value x; intro k))) | (refine Keep.cut (s := s0) (t := x.1) ?_ ?_; (on_goal 1 => (unfold x; clear x)); (on_goal 2 => (clear_value x; intro k))) | clear_value x | skip)
    | with_reducible apply Keep.foldl
    | with_reducible apply Keep.foldl_fst
    | with_reducible apply Keep.setF

theorem Keep.wearInit {s0 : State} {s : State} {k : Nat} (h0 : Keep s0 s) : Keep s0 (State.wearInit s k) := by
  unfold State.wearInit
  repeat' first
    | with_reducible assumption
    | ((try lift_lets -underBinder); intro x; first | (refine Keep.cut (s := s0) (t := x) ?_ ?_; (on_goal 1 => (unfold x; clear x)); (on_goal 2 => (clear_value x; intro k))) | (refine Keep.cut (s := s0) (t := x.1) ?_ ?_; (on_goal 1 => (unfold x; clear x)); (on_goal 2 => (clear_value x; intro k))) | clear_value x | skip)
    | intro _
    | with_reducible apply Keep.foldl
    | with_reducible apply Keep.foldl_fst
    | with_reducible apply Keep.initSector
    | with_reducible apply Keep.setWearList
    | split

theorem Keep.execKeyRetire {s0 : State} {s : State} (h0 : Keep s0 s) : ResKeep s0 (Sys2Proof.Machine.execKeyRetire s) := by
  unfold Sys2Proof.Machine.execKeyRetire
  repeat' first
    | with_reducible assumption
    | ((try lift_lets -underBinder); intro x; first | (refine Keep.cut (s := s0) (t := x) ?_ ?_; (on_goal 1 => (unfold x; clear x)); (on_goal 2 => (clear_value x; intro k))) | (refine Keep.cut (s := s0) (t := x.1) ?_ ?_; (on_goal 1 => (unfold x; clear x)); (on_goal 2 => (clear_value x; intro k))) | clear_value x | skip)
    | intro _
    | with_reducible apply Keep.next
    | with_reducible exact Keep.upd (by with_reducible assumption)
    | with_reducible apply Keep.updKey
    | with_reducible apply Keep.flushKeys
    | with_reducible apply Keep.keyEnd
    | with_reducible apply Keep.keyRefuse
    | with_reducible apply Keep.keyCmd
    | with_reducible apply Keep.syncRights
    | split

theorem Keep.execKeyRotate {s0 : State} {s : State} (h0 : Keep s0 s) : ResKeep s0 (Sys2Proof.Machine.execKeyRotate s) := by
  unfold Sys2Proof.Machine.execKeyRotate
  repeat' first
    | with_reducible assumption
    | ((try lift_lets -underBinder); intro x; first | (refine Keep.cut (s := s0) (t := x) ?_ ?_; (on_goal 1 => (unfold x; clear x)); (on_goal 2 => (clear_value x; intro k))) | (refine Keep.cut (s := s0) (t := x.1) ?_ ?_; (on_goal 1 => (unfold x; clear x)); (on_goal 2 => (clear_value x; intro k))) | clear_value x | skip)
    | intro _
    | with_reducible apply Keep.next
    | with_reducible exact Keep.upd (by with_reducible assumption)
    | with_reducible apply Keep.updKey
    | with_reducible apply Keep.flushKeys
    | with_reducible apply Keep.startFlood
    | with_reducible apply Keep.set
    | with_reducible apply Keep.keyEnd
    | with_reducible apply Keep.keyRefuse
    | with_reducible apply Keep.keyCmd
    | with_reducible apply Keep.wearInit
    | with_reducible apply Keep.syncRights
    | split

theorem Keep.execKeyRead {s0 : State} {s : State} (h0 : Keep s0 s) : ResKeep s0 (Sys2Proof.Machine.execKeyRead s) := by
  unfold Sys2Proof.Machine.execKeyRead
  repeat' first
    | with_reducible assumption
    | ((try lift_lets -underBinder); intro x; first | (refine Keep.cut (s := s0) (t := x) ?_ ?_; (on_goal 1 => (unfold x; clear x)); (on_goal 2 => (clear_value x; intro k))) | (refine Keep.cut (s := s0) (t := x.1) ?_ ?_; (on_goal 1 => (unfold x; clear x)); (on_goal 2 => (clear_value x; intro k))) | clear_value x | skip)
    | intro _
    | with_reducible apply Keep.next
    | with_reducible apply Keep.set
    | with_reducible apply Keep.keyEnd
    | with_reducible apply Keep.keyRefuse
    | with_reducible apply Keep.keyCmd
    | split

end Sys2Proof.Machine
end

