-- ==== Sys2Proof/Laws/KeepTensors.lean ====
section
/-!
SUPPORT. What the operations of Machine/Tensors.lean keep (Laws/Keep.lean).
-/

set_option linter.unusedTactic false
set_option linter.unreachableTactic false

namespace Sys2Proof.Machine

theorem Keep.readLines {s0 : State} {s : State} {via : Nat → Nat → List Nat} {want : Nat → Bool} {m space : Nat} {uses : List (Nat × Nat)} {a n : Nat} (h0 : Keep s0 s) : Keep s0 (State.readLines s via want m space uses a n).1 := by
  unfold State.readLines
  repeat' first
    | with_reducible assumption
    | ((try lift_lets -underBinder); intro x; first | (refine Keep.cut (s := s0) (t := x) ?_ ?_; (on_goal 1 => (unfold x; clear x)); (on_goal 2 => (clear_value x; intro k))) | (refine Keep.cut (s := s0) (t := x.1) ?_ ?_; (on_goal 1 => (unfold x; clear x)); (on_goal 2 => (clear_value x; intro k))) | clear_value x | skip)
    | intro _
    | with_reducible apply Keep.foldl
    | with_reducible apply Keep.foldl_fst
    | with_reducible apply Keep.readVia
    | with_reducible apply Keep.of_fst (by with_reducible assumption)
    | with_reducible refine Keep.upd (Keep.of_fst (by with_reducible assumption) ?_)
    | split

theorem Keep.writeLines {s0 : State} {s : State} {via : Nat → Nat → List Nat} {back : Nat → Bool} {m space : Nat} {uses : List (Nat × Nat)} {a : Nat} {ls : Lines} {x : Img} (h0 : Keep s0 s) : Keep s0 (State.writeLines s via back m space uses a ls x).1 := by
  unfold State.writeLines
  repeat' first
    | with_reducible assumption
    | intro _
    | with_reducible exact Keep.upd (by with_reducible assumption)
    | with_reducible apply Keep.foldl
    | with_reducible apply Keep.foldl_fst
    | with_reducible apply Keep.writeVia
    | with_reducible apply Keep.of_fst (by with_reducible assumption)
    | with_reducible refine Keep.upd (Keep.of_fst (by with_reducible assumption) ?_)
    | split

end Sys2Proof.Machine
end

