-- ==== Sys2Proof/Laws/KeepGlint.lean ====
section
/-!
SUPPORT. What the operations of Machine/Glint.lean keep (Laws/Keep.lean).
-/

set_option linter.unusedTactic false
set_option linter.unreachableTactic false

namespace Sys2Proof.Machine

theorem Keep.copyPass {s0 : State} {s : State} {p : Nat} {uses : List (Nat × Nat)} {j : JobImage} {t c : Tensor} {along : Bool} {wl : Lines} {wv : Nat} {o : PassOut} (h0 : Keep s0 s) : Keep s0 (State.copyPass s p uses j t c along wl wv o).1 := by
  unfold State.copyPass
  repeat' first
    | with_reducible assumption
    | ((try lift_lets -underBinder); intro x; first | (refine Keep.cut (s := s0) (t := x) ?_ ?_; (on_goal 1 => (unfold x; clear x)); (on_goal 2 => (clear_value x; intro k))) | (refine Keep.cut (s := s0) (t := x.1) ?_ ?_; (on_goal 1 => (unfold x; clear x)); (on_goal 2 => (clear_value x; intro k))) | clear_value x | skip)
    | intro _
    | with_reducible exact Keep.upd (by with_reducible assumption)
    | with_reducible apply Keep.foldl
    | with_reducible apply Keep.foldl_fst
    | with_reducible apply Keep.readLines
    | with_reducible apply Keep.writeLines
    | with_reducible apply Keep.of_fst (by with_reducible assumption)
    | with_reducible refine Keep.upd (Keep.of_fst (by with_reducible assumption) ?_)
    | split

theorem Keep.passTensor {s0 : State} {s : State} {p : Nat} {uses : List (Nat × Nat)} {j : JobImage} {n : Nat} {acc : PassOut} {t : Tensor} (h0 : Keep s0 s) : Keep s0 (State.passTensor s p uses j n acc t).1 := by
  unfold State.passTensor
  repeat' first
    | with_reducible assumption
    | ((try lift_lets -underBinder); intro x; first | (refine Keep.cut (s := s0) (t := x) ?_ ?_; (on_goal 1 => (unfold x; clear x)); (on_goal 2 => (clear_value x; intro k))) | (refine Keep.cut (s := s0) (t := x.1) ?_ ?_; (on_goal 1 => (unfold x; clear x)); (on_goal 2 => (clear_value x; intro k))) | clear_value x | skip)
    | intro _
    | with_reducible exact Keep.upd (by with_reducible assumption)
    | with_reducible apply Keep.foldl
    | with_reducible apply Keep.foldl_fst
    | with_reducible apply Keep.copyPass
    | with_reducible apply Keep.readLines
    | with_reducible apply Keep.writeLines
    | with_reducible apply Keep.of_fst (by with_reducible assumption)
    | with_reducible refine Keep.upd (Keep.of_fst (by with_reducible assumption) ?_)
    | split

theorem Keep.runPass {s0 : State} {s : State} {p : Nat} {uses : List (Nat × Nat)} {n : Nat} (h0 : Keep s0 s) : Keep s0 (State.runPass s p uses n).1 := by
  unfold State.runPass
  repeat' first
    | with_reducible assumption
    | ((try lift_lets -underBinder); intro x; first | (refine Keep.cut (s := s0) (t := x) ?_ ?_; (on_goal 1 => (unfold x; clear x)); (on_goal 2 => (clear_value x; intro k))) | (refine Keep.cut (s := s0) (t := x.1) ?_ ?_; (on_goal 1 => (unfold x; clear x)); (on_goal 2 => (clear_value x; intro k))) | clear_value x | skip)
    | with_reducible apply Keep.foldl
    | with_reducible apply Keep.foldl_fst
    | with_reducible apply Keep.passTensor
    | with_reducible apply Keep.of_fst (by with_reducible assumption)
    | split

theorem Keep.noteStopped {s0 : State} {s : State} {units : List Nat} {o : PassOut} {code : Nat} (h0 : Keep s0 s) : Keep s0 (State.noteStopped s units o code) := by
  unfold State.noteStopped
  repeat' first
    | with_reducible assumption
    | ((try lift_lets -underBinder); intro x; first | (refine Keep.cut (s := s0) (t := x) ?_ ?_; (on_goal 1 => (unfold x; clear x)); (on_goal 2 => (clear_value x; intro k))) | (refine Keep.cut (s := s0) (t := x.1) ?_ ?_; (on_goal 1 => (unfold x; clear x)); (on_goal 2 => (clear_value x; intro k))) | clear_value x | skip)
    | intro _
    | with_reducible apply Keep.foldl
    | with_reducible apply Keep.foldl_fst
    | with_reducible apply Keep.setF
    | with_reducible apply Keep.addF
    | with_reducible apply Keep.tick
    | split

theorem Keep.notePass {s0 : State} {s : State} {p : Nat} {units : List Nat} {o : PassOut} (h0 : Keep s0 s) : Keep s0 (State.notePass s p units o) := by
  unfold State.notePass
  repeat' first
    | with_reducible assumption
    | ((try lift_lets -underBinder); intro x; first | (refine Keep.cut (s := s0) (t := x) ?_ ?_; (on_goal 1 => (unfold x; clear x)); (on_goal 2 => (clear_value x; intro k))) | (refine Keep.cut (s := s0) (t := x.1) ?_ ?_; (on_goal 1 => (unfold x; clear x)); (on_goal 2 => (clear_value x; intro k))) | clear_value x | skip)
    | with_reducible exact Keep.upd (by with_reducible assumption)
    | with_reducible apply Keep.foldl
    | with_reducible apply Keep.addF
    | with_reducible apply Keep.setF
    | with_reducible apply Keep.tick
    | split

end Sys2Proof.Machine
end

