-- ==== Sys2Proof/Laws/KeepMoverCalc.lean ====
section
/-!
SUPPORT. What the operations of Machine/MoverCalc.lean keep (Laws/Keep.lean).
-/

set_option linter.unusedTactic false
set_option linter.unreachableTactic false

namespace Sys2Proof.Machine

theorem Keep.tileRead {s0 : State} {s : State} {t p a : Nat} (h0 : Keep s0 s) : Keep s0 (State.tileRead s t p a).1 := by
  unfold State.tileRead
  repeat' first
    | with_reducible assumption
    | with_reducible apply Keep.readVia
    | with_reducible apply Keep.of_fst (by with_reducible assumption)
    | with_reducible refine Keep.upd (Keep.of_fst (by with_reducible assumption) ?_)

theorem Keep.tileWrite {s0 : State} {s : State} {t p a : Nat} {b : Bytes} (h0 : Keep s0 s) : Keep s0 (State.tileWrite s t p a b).1 := by
  unfold State.tileWrite
  repeat' first
    | with_reducible assumption
    | with_reducible apply Keep.writeVia
    | with_reducible apply Keep.of_fst (by with_reducible assumption)
    | with_reducible refine Keep.upd (Keep.of_fst (by with_reducible assumption) ?_)

theorem Keep.mviRead {s0 : State} {s : State} {t p : Nat} {lines : List (Nat × Nat)} (h0 : Keep s0 s) : Keep s0 (State.mviRead s t p lines).1 := by
  unfold State.mviRead
  repeat' first
    | with_reducible assumption
    | intro _
    | with_reducible exact Keep.upd (by with_reducible assumption)
    | with_reducible apply Keep.foldl
    | with_reducible apply Keep.foldl_fst
    | with_reducible apply Keep.tileRead
    | with_reducible apply Keep.of_fst (by with_reducible assumption)
    | with_reducible refine Keep.upd (Keep.of_fst (by with_reducible assumption) ?_)
    | split

end Sys2Proof.Machine
end

