-- ==== Sys2Proof/Laws/KeepTileExc.lean ====
section
/-!
SUPPORT. What the operations of Machine/TileExc.lean keep (Laws/Keep.lean).
-/

set_option linter.unusedTactic false
set_option linter.unreachableTactic false

namespace Sys2Proof.Machine

theorem Keep.strayWrites {s0 : State} {s : State} {t : Nat} {c : UCmd} (h0 : Keep s0 s) : Keep s0 (State.strayWrites s t c) := by
  unfold State.strayWrites
  repeat' first
    | with_reducible assumption
    | intro _
    | with_reducible exact Keep.upd (by with_reducible assumption)
    | with_reducible apply Keep.foldl
    | with_reducible apply Keep.foldl_fst
    | with_reducible apply Keep.tileWrite
    | with_reducible apply Keep.tick
    | with_reducible apply Keep.of_fst (by with_reducible assumption)
    | with_reducible refine Keep.upd (Keep.of_fst (by with_reducible assumption) ?_)
    | split

theorem Keep.updStream {s0 : State} {s : State} {p id : Nat} {f : StreamSt → StreamSt} (h0 : Keep s0 s) : Keep s0 (State.updStream s p id f) := by
  unfold State.updStream
  repeat' first
    | with_reducible assumption
    | ((try lift_lets -underBinder); intro x; first | (refine Keep.cut (s := s0) (t := x) ?_ ?_; (on_goal 1 => (unfold x; clear x)); (on_goal 2 => (clear_value x; intro k))) | (refine Keep.cut (s := s0) (t := x.1) ?_ ?_; (on_goal 1 => (unfold x; clear x)); (on_goal 2 => (clear_value x; intro k))) | clear_value x | skip)
    | with_reducible exact Keep.upd (by with_reducible assumption)

theorem Keep.dropOutput {s0 : State} {s : State} {t : Nat} {u : UnitKind} {c : UCmd} (h0 : Keep s0 s) : Keep s0 (State.dropOutput s t u c) := by
  unfold State.dropOutput
  repeat' first
    | with_reducible assumption
    | intro _
    | with_reducible exact Keep.upd (by with_reducible assumption)
    | with_reducible apply Keep.tick
    | with_reducible apply Keep.updStream
    | split

theorem Keep.stopUnits {s0 : State} {s : State} {t : Nat} (h0 : Keep s0 s) : Keep s0 (State.stopUnits s t) := by
  unfold State.stopUnits
  repeat' first
    | with_reducible assumption
    | ((try lift_lets -underBinder); intro x; first | (refine Keep.cut (s := s0) (t := x) ?_ ?_; (on_goal 1 => (unfold x; clear x)); (on_goal 2 => (clear_value x; intro k))) | (refine Keep.cut (s := s0) (t := x.1) ?_ ?_; (on_goal 1 => (unfold x; clear x)); (on_goal 2 => (clear_value x; intro k))) | clear_value x | skip)
    | intro _
    | with_reducible apply Keep.foldl
    | with_reducible apply Keep.foldl_fst
    | with_reducible apply Keep.tick
    | with_reducible apply Keep.updTile
    | with_reducible apply Keep.strayWrites
    | with_reducible apply Keep.dropOutput

theorem Keep.countPart {s0 : State} {s : State} {t : Nat} {f : Fld} {n : Nat} (h0 : Keep s0 s) : Keep s0 (State.countPart s t f n) := by
  unfold State.countPart
  repeat' first
    | with_reducible assumption
    | with_reducible exact Keep.upd (by with_reducible assumption)
    | with_reducible apply Keep.addF
    | split

theorem Keep.countWait {s0 : State} {s : State} {t : Nat} (h0 : Keep s0 s) : Keep s0 (State.countWait s t) := by
  unfold State.countWait
  repeat' first
    | with_reducible assumption
    | with_reducible exact Keep.upd (by with_reducible assumption)
    | with_reducible apply Keep.tick
    | with_reducible apply Keep.countPart
    | split

theorem Keep.haltTile {s0 : State} {s : State} {t : Nat} {cause code : Nat} (h0 : Keep s0 s) : Keep s0 (State.haltTile s t cause code) := by
  unfold State.haltTile
  repeat' first
    | with_reducible assumption
    | intro _
    | with_reducible apply Keep.updTile
    | with_reducible apply Keep.stopUnits
    | with_reducible apply Keep.countWait
    | split

theorem Keep.tileExc {s0 : State} {s : State} {t : Nat} {code : Nat} (h0 : Keep s0 s) : Keep s0 (State.tileExc s t code) := by
  unfold State.tileExc
  repeat' first
    | with_reducible assumption
    | with_reducible apply Keep.inject
    | with_reducible apply Keep.countPart
    | with_reducible apply Keep.haltTile

end Sys2Proof.Machine
end

