-- ==== Sys2Proof/Laws/KeepTileAlu.lean ====
section
/-!
SUPPORT. What the operations of Machine/TileAlu.lean keep (Laws/Keep.lean).
-/

set_option linter.unusedTactic false
set_option linter.unreachableTactic false

namespace Sys2Proof.Machine

theorem Keep.advance {s0 : State} {s : State} {t : Nat} {cycles : Nat} (h0 : Keep s0 s) : Keep s0 (State.advance s t cycles) := by
  unfold State.advance
  repeat' first
    | with_reducible assumption
    | ((try lift_lets -underBinder); intro x; first | (refine Keep.cut (s := s0) (t := x) ?_ ?_; (on_goal 1 => (unfold x; clear x)); (on_goal 2 => (clear_value x; intro k))) | (refine Keep.cut (s := s0) (t := x.1) ?_ ?_; (on_goal 1 => (unfold x; clear x)); (on_goal 2 => (clear_value x; intro k))) | clear_value x | skip)
    | with_reducible exact Keep.upd (by with_reducible assumption)
    | with_reducible apply Keep.boundary
    | with_reducible apply Keep.tileExc
    | with_reducible apply Keep.updTile
    | split

theorem Keep.jump {s0 : State} {s : State} {t : Nat} {tgt : Nat} (h0 : Keep s0 s) : Keep s0 (State.jump s t tgt) := by
  unfold State.jump
  repeat' first
    | with_reducible assumption
    | ((try lift_lets -underBinder); intro x; first | (refine Keep.cut (s := s0) (t := x) ?_ ?_; (on_goal 1 => (unfold x; clear x)); (on_goal 2 => (clear_value x; intro k))) | (refine Keep.cut (s := s0) (t := x.1) ?_ ?_; (on_goal 1 => (unfold x; clear x)); (on_goal 2 => (clear_value x; intro k))) | clear_value x | skip)
    | with_reducible exact Keep.upd (by with_reducible assumption)
    | with_reducible apply Keep.boundary
    | with_reducible apply Keep.updTile

theorem Keep.issue {s0 : State} {s : State} {t : Nat} {gd : Guard} {body : State → State} (h0 : Keep s0 s) (hbody : ∀ t, Keep s0 t → Keep s0 (body t)) : Keep s0 (State.issue s t gd body) := by
  unfold State.issue
  repeat' first
    | with_reducible assumption
    | intro _
    | with_reducible apply Keep.advance
    | with_reducible apply hbody
    | split

theorem Keep.aluOp {s0 : State} {s : State} {t : Nat} {gd : Guard} {rd : GReg} {cycles : Nat} {v : Tile → Word} (h0 : Keep s0 s) : Keep s0 (State.aluOp s t gd rd cycles v) := by
  unfold State.aluOp
  repeat' first
    | with_reducible assumption
    | intro _
    | with_reducible apply Keep.advance
    | with_reducible apply Keep.issue
    | with_reducible apply Keep.updTile

theorem Keep.predOp {s0 : State} {s : State} {t : Nat} {gd : Guard} {pd : Fin 8} {v : Tile → Bool} (h0 : Keep s0 s) : Keep s0 (State.predOp s t gd pd v) := by
  unfold State.predOp
  repeat' first
    | with_reducible assumption
    | intro _
    | with_reducible apply Keep.advance
    | with_reducible apply Keep.issue
    | with_reducible apply Keep.updTile

theorem Keep.execAdd {s0 : State} {t : TileIx} {gd : Guard} {rd rs1 rs2 : GReg} {s : State} (h0 : Keep s0 s) : ResKeep s0 (Sys2Proof.Machine.execAdd t gd rd rs1 rs2 s) := by
  unfold Sys2Proof.Machine.execAdd
  repeat' first
    | with_reducible assumption
    | intro _
    | with_reducible apply Keep.next
    | with_reducible apply Keep.aluOp

theorem Keep.execSub {s0 : State} {t : TileIx} {gd : Guard} {rd rs1 rs2 : GReg} {s : State} (h0 : Keep s0 s) : ResKeep s0 (Sys2Proof.Machine.execSub t gd rd rs1 rs2 s) := by
  unfold Sys2Proof.Machine.execSub
  repeat' first
    | with_reducible assumption
    | intro _
    | with_reducible apply Keep.next
    | with_reducible apply Keep.aluOp

theorem Keep.execAnd {s0 : State} {t : TileIx} {gd : Guard} {rd rs1 rs2 : GReg} {s : State} (h0 : Keep s0 s) : ResKeep s0 (Sys2Proof.Machine.execAnd t gd rd rs1 rs2 s) := by
  unfold Sys2Proof.Machine.execAnd
  repeat' first
    | with_reducible assumption
    | intro _
    | with_reducible apply Keep.next
    | with_reducible apply Keep.aluOp

theorem Keep.execOr {s0 : State} {t : TileIx} {gd : Guard} {rd rs1 rs2 : GReg} {s : State} (h0 : Keep s0 s) : ResKeep s0 (Sys2Proof.Machine.execOr t gd rd rs1 rs2 s) := by
  unfold Sys2Proof.Machine.execOr
  repeat' first
    | with_reducible assumption
    | intro _
    | with_reducible apply Keep.next
    | with_reducible apply Keep.aluOp
    | split

theorem Keep.execXor {s0 : State} {t : TileIx} {gd : Guard} {rd rs1 rs2 : GReg} {s : State} (h0 : Keep s0 s) : ResKeep s0 (Sys2Proof.Machine.execXor t gd rd rs1 rs2 s) := by
  unfold Sys2Proof.Machine.execXor
  repeat' first
    | with_reducible assumption
    | intro _
    | with_reducible apply Keep.next
    | with_reducible apply Keep.aluOp

theorem Keep.execSll {s0 : State} {t : TileIx} {gd : Guard} {rd rs1 rs2 : GReg} {s : State} (h0 : Keep s0 s) : ResKeep s0 (Sys2Proof.Machine.execSll t gd rd rs1 rs2 s) := by
  unfold Sys2Proof.Machine.execSll
  repeat' first
    | with_reducible assumption
    | intro _
    | with_reducible apply Keep.next
    | with_reducible apply Keep.aluOp

theorem Keep.execSrl {s0 : State} {t : TileIx} {gd : Guard} {rd rs1 rs2 : GReg} {s : State} (h0 : Keep s0 s) : ResKeep s0 (Sys2Proof.Machine.execSrl t gd rd rs1 rs2 s) := by
  unfold Sys2Proof.Machine.execSrl
  repeat' first
    | with_reducible assumption
    | intro _
    | with_reducible apply Keep.next
    | with_reducible apply Keep.aluOp

theorem Keep.execSra {s0 : State} {t : TileIx} {gd : Guard} {rd rs1 rs2 : GReg} {s : State} (h0 : Keep s0 s) : ResKeep s0 (Sys2Proof.Machine.execSra t gd rd rs1 rs2 s) := by
  unfold Sys2Proof.Machine.execSra
  repeat' first
    | with_reducible assumption
    | intro _
    | with_reducible apply Keep.next
    | with_reducible apply Keep.aluOp

theorem Keep.execMul {s0 : State} {t : TileIx} {gd : Guard} {rd rs1 rs2 : GReg} {s : State} (h0 : Keep s0 s) : ResKeep s0 (Sys2Proof.Machine.execMul t gd rd rs1 rs2 s) := by
  unfold Sys2Proof.Machine.execMul
  repeat' first
    | with_reducible assumption
    | intro _
    | with_reducible apply Keep.next
    | with_reducible apply Keep.aluOp

theorem Keep.execMulhu {s0 : State} {t : TileIx} {gd : Guard} {rd rs1 rs2 : GReg} {s : State} (h0 : Keep s0 s) : ResKeep s0 (Sys2Proof.Machine.execMulhu t gd rd rs1 rs2 s) := by
  unfold Sys2Proof.Machine.execMulhu
  repeat' first
    | with_reducible assumption
    | intro _
    | with_reducible apply Keep.next
    | with_reducible apply Keep.aluOp

theorem Keep.execDivu {s0 : State} {t : TileIx} {gd : Guard} {rd rs1 rs2 : GReg} {s : State} (h0 : Keep s0 s) : ResKeep s0 (Sys2Proof.Machine.execDivu t gd rd rs1 rs2 s) := by
  unfold Sys2Proof.Machine.execDivu
  repeat' first
    | with_reducible assumption
    | intro _
    | with_reducible apply Keep.next
    | with_reducible apply Keep.aluOp

theorem Keep.execRemu {s0 : State} {t : TileIx} {gd : Guard} {rd rs1 rs2 : GReg} {s : State} (h0 : Keep s0 s) : ResKeep s0 (Sys2Proof.Machine.execRemu t gd rd rs1 rs2 s) := by
  unfold Sys2Proof.Machine.execRemu
  repeat' first
    | with_reducible assumption
    | intro _
    | with_reducible apply Keep.next
    | with_reducible apply Keep.aluOp

theorem Keep.execSmin {s0 : State} {t : TileIx} {gd : Guard} {rd rs1 rs2 : GReg} {s : State} (h0 : Keep s0 s) : ResKeep s0 (Sys2Proof.Machine.execSmin t gd rd rs1 rs2 s) := by
  unfold Sys2Proof.Machine.execSmin
  repeat' first
    | with_reducible assumption
    | intro _
    | with_reducible apply Keep.next
    | with_reducible apply Keep.aluOp

theorem Keep.execSmax {s0 : State} {t : TileIx} {gd : Guard} {rd rs1 rs2 : GReg} {s : State} (h0 : Keep s0 s) : ResKeep s0 (Sys2Proof.Machine.execSmax t gd rd rs1 rs2 s) := by
  unfold Sys2Proof.Machine.execSmax
  repeat' first
    | with_reducible assumption
    | intro _
    | with_reducible apply Keep.next
    | with_reducible apply Keep.aluOp

theorem Keep.execMinu {s0 : State} {t : TileIx} {gd : Guard} {rd rs1 rs2 : GReg} {s : State} (h0 : Keep s0 s) : ResKeep s0 (Sys2Proof.Machine.execMinu t gd rd rs1 rs2 s) := by
  unfold Sys2Proof.Machine.execMinu
  repeat' first
    | with_reducible assumption
    | intro _
    | with_reducible apply Keep.next
    | with_reducible apply Keep.aluOp

theorem Keep.execMaxu {s0 : State} {t : TileIx} {gd : Guard} {rd rs1 rs2 : GReg} {s : State} (h0 : Keep s0 s) : ResKeep s0 (Sys2Proof.Machine.execMaxu t gd rd rs1 rs2 s) := by
  unfold Sys2Proof.Machine.execMaxu
  repeat' first
    | with_reducible assumption
    | intro _
    | with_reducible apply Keep.next
    | with_reducible apply Keep.aluOp

theorem Keep.execPopc {s0 : State} {t : TileIx} {gd : Guard} {rd rs1 : GReg} {s : State} (h0 : Keep s0 s) : ResKeep s0 (Sys2Proof.Machine.execPopc t gd rd rs1 s) := by
  unfold Sys2Proof.Machine.execPopc
  repeat' first
    | with_reducible assumption
    | intro _
    | with_reducible apply Keep.next
    | with_reducible apply Keep.aluOp

theorem Keep.execClz {s0 : State} {t : TileIx} {gd : Guard} {rd rs1 : GReg} {s : State} (h0 : Keep s0 s) : ResKeep s0 (Sys2Proof.Machine.execClz t gd rd rs1 s) := by
  unfold Sys2Proof.Machine.execClz
  repeat' first
    | with_reducible assumption
    | intro _
    | with_reducible apply Keep.next
    | with_reducible apply Keep.aluOp

theorem Keep.execAddi {s0 : State} {t : TileIx} {gd : Guard} {rd rs1 : GReg} {imm : BitVec 12} {s : State} (h0 : Keep s0 s) : ResKeep s0 (Sys2Proof.Machine.execAddi t gd rd rs1 imm s) := by
  unfold Sys2Proof.Machine.execAddi
  repeat' first
    | with_reducible assumption
    | intro _
    | with_reducible apply Keep.next
    | with_reducible apply Keep.aluOp

theorem Keep.execAndi {s0 : State} {t : TileIx} {gd : Guard} {rd rs1 : GReg} {imm : BitVec 12} {s : State} (h0 : Keep s0 s) : ResKeep s0 (Sys2Proof.Machine.execAndi t gd rd rs1 imm s) := by
  unfold Sys2Proof.Machine.execAndi
  repeat' first
    | with_reducible assumption
    | intro _
    | with_reducible apply Keep.next
    | with_reducible apply Keep.aluOp

theorem Keep.execOri {s0 : State} {t : TileIx} {gd : Guard} {rd rs1 : GReg} {imm : BitVec 12} {s : State} (h0 : Keep s0 s) : ResKeep s0 (Sys2Proof.Machine.execOri t gd rd rs1 imm s) := by
  unfold Sys2Proof.Machine.execOri
  repeat' first
    | with_reducible assumption
    | intro _
    | with_reducible apply Keep.next
    | with_reducible apply Keep.aluOp
    | split

theorem Keep.execXori {s0 : State} {t : TileIx} {gd : Guard} {rd rs1 : GReg} {imm : BitVec 12} {s : State} (h0 : Keep s0 s) : ResKeep s0 (Sys2Proof.Machine.execXori t gd rd rs1 imm s) := by
  unfold Sys2Proof.Machine.execXori
  repeat' first
    | with_reducible assumption
    | intro _
    | with_reducible apply Keep.next
    | with_reducible apply Keep.aluOp

theorem Keep.execSlli {s0 : State} {t : TileIx} {gd : Guard} {rd rs1 : GReg} {sh : BitVec 6} {s : State} (h0 : Keep s0 s) : ResKeep s0 (Sys2Proof.Machine.execSlli t gd rd rs1 sh s) := by
  unfold Sys2Proof.Machine.execSlli
  repeat' first
    | with_reducible assumption
    | intro _
    | with_reducible apply Keep.next
    | with_reducible apply Keep.aluOp

theorem Keep.execSrli {s0 : State} {t : TileIx} {gd : Guard} {rd rs1 : GReg} {sh : BitVec 6} {s : State} (h0 : Keep s0 s) : ResKeep s0 (Sys2Proof.Machine.execSrli t gd rd rs1 sh s) := by
  unfold Sys2Proof.Machine.execSrli
  repeat' first
    | with_reducible assumption
    | intro _
    | with_reducible apply Keep.next
    | with_reducible apply Keep.aluOp

theorem Keep.execSrai {s0 : State} {t : TileIx} {gd : Guard} {rd rs1 : GReg} {sh : BitVec 6} {s : State} (h0 : Keep s0 s) : ResKeep s0 (Sys2Proof.Machine.execSrai t gd rd rs1 sh s) := by
  unfold Sys2Proof.Machine.execSrai
  repeat' first
    | with_reducible assumption
    | intro _
    | with_reducible apply Keep.next
    | with_reducible apply Keep.aluOp

theorem Keep.execMovz {s0 : State} {t : TileIx} {rd : GReg} {hw : Fin 4} {imm : BitVec 16} {s : State} (h0 : Keep s0 s) : ResKeep s0 (Sys2Proof.Machine.execMovz t rd hw imm s) := by
  unfold Sys2Proof.Machine.execMovz
  repeat' first
    | with_reducible assumption
    | intro _
    | with_reducible apply Keep.next
    | with_reducible apply Keep.aluOp

theorem Keep.execMovk {s0 : State} {t : TileIx} {rd : GReg} {hw : Fin 4} {imm : BitVec 16} {s : State} (h0 : Keep s0 s) : ResKeep s0 (Sys2Proof.Machine.execMovk t rd hw imm s) := by
  unfold Sys2Proof.Machine.execMovk
  repeat' first
    | with_reducible assumption
    | intro _
    | with_reducible apply Keep.next
    | with_reducible apply Keep.aluOp

theorem Keep.execCmp {s0 : State} {t : TileIx} {gd : Guard} {pd cond : Fin 8} {rs1 rs2 : GReg} {s : State} (h0 : Keep s0 s) : ResKeep s0 (Sys2Proof.Machine.execCmp t gd pd cond rs1 rs2 s) := by
  unfold Sys2Proof.Machine.execCmp
  repeat' first
    | with_reducible assumption
    | intro _
    | with_reducible apply Keep.next
    | with_reducible apply Keep.predOp

theorem Keep.execCmpi {s0 : State} {t : TileIx} {gd : Guard} {pd cond : Fin 8} {rs1 : GReg} {imm : BitVec 11} {s : State} (h0 : Keep s0 s) : ResKeep s0 (Sys2Proof.Machine.execCmpi t gd pd cond rs1 imm s) := by
  unfold Sys2Proof.Machine.execCmpi
  repeat' first
    | with_reducible assumption
    | intro _
    | with_reducible apply Keep.next
    | with_reducible apply Keep.predOp

theorem Keep.execPlog {s0 : State} {t : TileIx} {gd : Guard} {pd pa pb : Fin 8} {fn : Fin 4} {s : State} (h0 : Keep s0 s) : ResKeep s0 (Sys2Proof.Machine.execPlog t gd pd pa pb fn s) := by
  unfold Sys2Proof.Machine.execPlog
  repeat' first
    | with_reducible assumption
    | intro _
    | with_reducible apply Keep.next
    | with_reducible apply Keep.predOp

theorem Keep.execBr {s0 : State} {t : TileIx} {gd : Guard} {tgt : Fin 32768} {s : State} (h0 : Keep s0 s) : ResKeep s0 (Sys2Proof.Machine.execBr t gd tgt s) := by
  unfold Sys2Proof.Machine.execBr
  repeat' first
    | with_reducible assumption
    | intro _
    | with_reducible apply Keep.next
    | with_reducible apply Keep.issue
    | with_reducible apply Keep.jump

theorem Keep.execCall {s0 : State} {t : TileIx} {gd : Guard} {tgt : Fin 32768} {s : State} (h0 : Keep s0 s) : ResKeep s0 (Sys2Proof.Machine.execCall t gd tgt s) := by
  unfold Sys2Proof.Machine.execCall
  repeat' first
    | with_reducible assumption
    | intro _
    | with_reducible apply Keep.next
    | with_reducible apply Keep.issue
    | with_reducible apply Keep.jump
    | with_reducible apply Keep.updTile

theorem Keep.execJr {s0 : State} {t : TileIx} {gd : Guard} {rs1 : GReg} {imm : BitVec 12} {s : State} (h0 : Keep s0 s) : ResKeep s0 (Sys2Proof.Machine.execJr t gd rs1 imm s) := by
  unfold Sys2Proof.Machine.execJr
  repeat' first
    | with_reducible assumption
    | ((try lift_lets -underBinder); intro x; first | (refine Keep.cut (s := s0) (t := x) ?_ ?_; (on_goal 1 => (unfold x; clear x)); (on_goal 2 => (clear_value x; intro k))) | (refine Keep.cut (s := s0) (t := x.1) ?_ ?_; (on_goal 1 => (unfold x; clear x)); (on_goal 2 => (clear_value x; intro k))) | clear_value x | skip)
    | with_reducible apply Keep.next
    | with_reducible apply Keep.issue
    | with_reducible apply Keep.jump
    | with_reducible apply Keep.tileExc
    | split

theorem Keep.execEvadd {s0 : State} {t : TileIx} {gd : Guard} {rs1 : GReg} {ek : Fin 16} {s : State} (h0 : Keep s0 s) : ResKeep s0 (Sys2Proof.Machine.execEvadd t gd rs1 ek s) := by
  unfold Sys2Proof.Machine.execEvadd
  repeat' first
    | with_reducible assumption
    | ((try lift_lets -underBinder); intro x; first | (refine Keep.cut (s := s0) (t := x) ?_ ?_; (on_goal 1 => (unfold x; clear x)); (on_goal 2 => (clear_value x; intro k))) | (refine Keep.cut (s := s0) (t := x.1) ?_ ?_; (on_goal 1 => (unfold x; clear x)); (on_goal 2 => (clear_value x; intro k))) | clear_value x | skip)
    | with_reducible apply Keep.next
    | with_reducible exact Keep.upd (by with_reducible assumption)
    | with_reducible apply Keep.advance
    | with_reducible apply Keep.issue
    | with_reducible apply Keep.set
    | with_reducible apply Keep.updTile

theorem Keep.execEvrd {s0 : State} {t : TileIx} {gd : Guard} {rd : GReg} {ek : Fin 16} {s : State} (h0 : Keep s0 s) : ResKeep s0 (Sys2Proof.Machine.execEvrd t gd rd ek s) := by
  unfold Sys2Proof.Machine.execEvrd
  repeat' first
    | with_reducible assumption
    | intro _
    | with_reducible apply Keep.next
    | with_reducible apply Keep.aluOp

theorem Keep.execNop {s0 : State} {t : TileIx} {gd : Guard} {s : State} (h0 : Keep s0 s) : ResKeep s0 (Sys2Proof.Machine.execNop t gd s) := by
  unfold Sys2Proof.Machine.execNop
  repeat' first
    | with_reducible assumption
    | intro _
    | with_reducible apply Keep.next
    | with_reducible apply Keep.advance
    | with_reducible apply Keep.issue

theorem Keep.execTrap {s0 : State} {t : TileIx} {gd : Guard} {imm : BitVec 12} {s : State} (h0 : Keep s0 s) : ResKeep s0 (Sys2Proof.Machine.execTrap t gd imm s) := by
  unfold Sys2Proof.Machine.execTrap
  repeat' first
    | with_reducible assumption
    | ((try lift_lets -underBinder); intro x; first | (refine Keep.cut (s := s0) (t := x) ?_ ?_; (on_goal 1 => (unfold x; clear x)); (on_goal 2 => (clear_value x; intro k))) | (refine Keep.cut (s := s0) (t := x.1) ?_ ?_; (on_goal 1 => (unfold x; clear x)); (on_goal 2 => (clear_value x; intro k))) | clear_value x | skip)
    | with_reducible apply Keep.next
    | with_reducible exact Keep.upd (by with_reducible assumption)
    | with_reducible apply Keep.issue
    | with_reducible apply Keep.tileExc
    | with_reducible apply Keep.updTile

end Sys2Proof.Machine
end

