-- ==== Sys2Proof/Laws/KeepTileMem.lean ====
section
/-!
SUPPORT. What the operations of Machine/TileMem.lean keep (Laws/Keep.lean).
-/

set_option linter.unusedTactic false
set_option linter.unreachableTactic false

namespace Sys2Proof.Machine

theorem Keep.tileUe {s0 : State} {s : State} {t arrayNo addr : Nat} (h0 : Keep s0 s) : Keep s0 (State.tileUe s t arrayNo addr) := by
  unfold State.tileUe
  repeat' first
    | with_reducible assumption
    | ((try lift_lets -underBinder); intro x; first | (refine Keep.cut (s := s0) (t := x) ?_ ?_; (on_goal 1 => (unfold x; clear x)); (on_goal 2 => (clear_value x; intro k))) | (refine Keep.cut (s := s0) (t := x.1) ?_ ?_; (on_goal 1 => (unfold x; clear x)); (on_goal 2 => (clear_value x; intro k))) | clear_value x | skip)
    | with_reducible apply Keep.addF
    | with_reducible apply Keep.set
    | with_reducible apply Keep.tileExc
    | split

theorem Keep.load {s0 : State} {s : State} {t : Nat} {gd : Guard} {rd rs1 : GReg} {imm : BitVec 12} {n : Nat} {ue : Bool} (h0 : Keep s0 s) : Keep s0 (State.load s t gd rd rs1 imm n ue) := by
  unfold State.load
  repeat' first
    | with_reducible assumption
    | ((try lift_lets -underBinder); intro x; first | (refine Keep.cut (s := s0) (t := x) ?_ ?_; (on_goal 1 => (unfold x; clear x)); (on_goal 2 => (clear_value x; intro k))) | (refine Keep.cut (s := s0) (t := x.1) ?_ ?_; (on_goal 1 => (unfold x; clear x)); (on_goal 2 => (clear_value x; intro k))) | clear_value x | skip)
    | intro _
    | with_reducible apply Keep.tick
    | with_reducible apply Keep.updTile
    | with_reducible apply Keep.advance
    | with_reducible apply Keep.issue
    | with_reducible apply Keep.tileExc
    | with_reducible apply Keep.tileUe
    | split

theorem Keep.store {s0 : State} {s : State} {t : Nat} {gd : Guard} {rd rs1 : GReg} {imm : BitVec 12} {n : Nat} {ue : Bool} (h0 : Keep s0 s) : Keep s0 (State.store s t gd rd rs1 imm n ue) := by
  unfold State.store
  repeat' first
    | with_reducible assumption
    | ((try lift_lets -underBinder); intro x; first | (refine Keep.cut (s := s0) (t := x) ?_ ?_; (on_goal 1 => (unfold x; clear x)); (on_goal 2 => (clear_value x; intro k))) | (refine Keep.cut (s := s0) (t := x.1) ?_ ?_; (on_goal 1 => (unfold x; clear x)); (on_goal 2 => (clear_value x; intro k))) | clear_value x | skip)
    | intro _
    | with_reducible apply Keep.updTile
    | with_reducible apply Keep.advance
    | with_reducible apply Keep.issue
    | with_reducible apply Keep.tileExc
    | with_reducible apply Keep.tileUe
    | split

theorem Keep.execLdb {s0 : State} {t : TileIx} {gd : Guard} {rd rs1 : GReg} {imm : BitVec 12} {ue : Bool} {s : State} (h0 : Keep s0 s) : ResKeep s0 (Sys2Proof.Machine.execLdb t gd rd rs1 imm ue s) := by
  unfold Sys2Proof.Machine.execLdb
  repeat' first
    | with_reducible assumption
    | with_reducible apply Keep.next
    | with_reducible apply Keep.load

theorem Keep.execLdh {s0 : State} {t : TileIx} {gd : Guard} {rd rs1 : GReg} {imm : BitVec 12} {ue : Bool} {s : State} (h0 : Keep s0 s) : ResKeep s0 (Sys2Proof.Machine.execLdh t gd rd rs1 imm ue s) := by
  unfold Sys2Proof.Machine.execLdh
  repeat' first
    | with_reducible assumption
    | with_reducible apply Keep.next
    | with_reducible apply Keep.load

theorem Keep.execLdw {s0 : State} {t : TileIx} {gd : Guard} {rd rs1 : GReg} {imm : BitVec 12} {ue : Bool} {s : State} (h0 : Keep s0 s) : ResKeep s0 (Sys2Proof.Machine.execLdw t gd rd rs1 imm ue s) := by
  unfold Sys2Proof.Machine.execLdw
  repeat' first
    | with_reducible assumption
    | with_reducible apply Keep.next
    | with_reducible apply Keep.load

theorem Keep.execLdd {s0 : State} {t : TileIx} {gd : Guard} {rd rs1 : GReg} {imm : BitVec 12} {ue : Bool} {s : State} (h0 : Keep s0 s) : ResKeep s0 (Sys2Proof.Machine.execLdd t gd rd rs1 imm ue s) := by
  unfold Sys2Proof.Machine.execLdd
  repeat' first
    | with_reducible assumption
    | with_reducible apply Keep.next
    | with_reducible apply Keep.load

theorem Keep.execStb {s0 : State} {t : TileIx} {gd : Guard} {rd rs1 : GReg} {imm : BitVec 12} {ue : Bool} {s : State} (h0 : Keep s0 s) : ResKeep s0 (Sys2Proof.Machine.execStb t gd rd rs1 imm ue s) := by
  unfold Sys2Proof.Machine.execStb
  repeat' first
    | with_reducible assumption
    | with_reducible apply Keep.next
    | with_reducible apply Keep.store

theorem Keep.execSth {s0 : State} {t : TileIx} {gd : Guard} {rd rs1 : GReg} {imm : BitVec 12} {ue : Bool} {s : State} (h0 : Keep s0 s) : ResKeep s0 (Sys2Proof.Machine.execSth t gd rd rs1 imm ue s) := by
  unfold Sys2Proof.Machine.execSth
  repeat' first
    | with_reducible assumption
    | with_reducible apply Keep.next
    | with_reducible apply Keep.store

theorem Keep.execStw {s0 : State} {t : TileIx} {gd : Guard} {rd rs1 : GReg} {imm : BitVec 12} {ue : Bool} {s : State} (h0 : Keep s0 s) : ResKeep s0 (Sys2Proof.Machine.execStw t gd rd rs1 imm ue s) := by
  unfold Sys2Proof.Machine.execStw
  repeat' first
    | with_reducible assumption
    | with_reducible apply Keep.next
    | with_reducible apply Keep.store

theorem Keep.execStd {s0 : State} {t : TileIx} {gd : Guard} {rd rs1 : GReg} {imm : BitVec 12} {ue : Bool} {s : State} (h0 : Keep s0 s) : ResKeep s0 (Sys2Proof.Machine.execStd t gd rd rs1 imm ue s) := by
  unfold Sys2Proof.Machine.execStd
  repeat' first
    | with_reducible assumption
    | with_reducible apply Keep.next
    | with_reducible apply Keep.store

theorem Keep.issueUnit {s0 : State} {s : State} {t : Nat} {gd : Guard} {rd rs1 : GReg} {imm : BitVec 12} {u : UnitKind} {ue : Bool} (h0 : Keep s0 s) : Keep s0 (State.issueUnit s t gd rd rs1 imm u ue) := by
  unfold State.issueUnit
  repeat' first
    | with_reducible assumption
    | ((try lift_lets -underBinder); intro x; first | (refine Keep.cut (s := s0) (t := x) ?_ ?_; (on_goal 1 => (unfold x; clear x)); (on_goal 2 => (clear_value x; intro k))) | (refine Keep.cut (s := s0) (t := x.1) ?_ ?_; (on_goal 1 => (unfold x; clear x)); (on_goal 2 => (clear_value x; intro k))) | clear_value x | skip)
    | intro _
    | with_reducible exact Keep.upd (by with_reducible assumption)
    | with_reducible apply Keep.tick
    | with_reducible apply Keep.updTile
    | with_reducible apply Keep.advance
    | with_reducible apply Keep.issue
    | with_reducible apply Keep.tileExc
    | with_reducible apply Keep.tileUe
    | split

theorem Keep.execMxi {s0 : State} {t : TileIx} {gd : Guard} {rd rs1 : GReg} {imm : BitVec 12} {ue : Bool} {s : State} (h0 : Keep s0 s) : ResKeep s0 (Sys2Proof.Machine.execMxi t gd rd rs1 imm ue s) := by
  unfold Sys2Proof.Machine.execMxi
  repeat' first
    | with_reducible assumption
    | with_reducible apply Keep.next
    | with_reducible apply Keep.issueUnit

theorem Keep.execVxi {s0 : State} {t : TileIx} {gd : Guard} {rd rs1 : GReg} {imm : BitVec 12} {ue : Bool} {s : State} (h0 : Keep s0 s) : ResKeep s0 (Sys2Proof.Machine.execVxi t gd rd rs1 imm ue s) := by
  unfold Sys2Proof.Machine.execVxi
  repeat' first
    | with_reducible assumption
    | with_reducible apply Keep.next
    | with_reducible apply Keep.issueUnit

theorem Keep.execMvi {s0 : State} {t : TileIx} {gd : Guard} {rd rs1 : GReg} {imm : BitVec 12} {ue : Bool} {s : State} (h0 : Keep s0 s) : ResKeep s0 (Sys2Proof.Machine.execMvi t gd rd rs1 imm ue s) := by
  unfold Sys2Proof.Machine.execMvi
  repeat' first
    | with_reducible assumption
    | with_reducible apply Keep.next
    | with_reducible apply Keep.issueUnit

theorem Keep.execWaitt {s0 : State} {t : TileIx} {gd : Guard} {rs1 : GReg} {s : State} (h0 : Keep s0 s) : ResKeep s0 (Sys2Proof.Machine.execWaitt t gd rs1 s) := by
  unfold Sys2Proof.Machine.execWaitt
  repeat' first
    | with_reducible assumption
    | ((try lift_lets -underBinder); intro x; first | (refine Keep.cut (s := s0) (t := x) ?_ ?_; (on_goal 1 => (unfold x; clear x)); (on_goal 2 => (clear_value x; intro k))) | (refine Keep.cut (s := s0) (t := x.1) ?_ ?_; (on_goal 1 => (unfold x; clear x)); (on_goal 2 => (clear_value x; intro k))) | clear_value x | skip)
    | with_reducible apply Keep.next
    | with_reducible exact Keep.upd (by with_reducible assumption)
    | with_reducible apply Keep.advance
    | with_reducible apply Keep.issue
    | with_reducible apply Keep.tileExc
    | with_reducible apply Keep.updTile
    | split

theorem Keep.execTestt {s0 : State} {t : TileIx} {gd : Guard} {rs1 : GReg} {pd : Fin 8} {s : State} (h0 : Keep s0 s) : ResKeep s0 (Sys2Proof.Machine.execTestt t gd rs1 pd s) := by
  unfold Sys2Proof.Machine.execTestt
  repeat' first
    | with_reducible assumption
    | ((try lift_lets -underBinder); intro x; first | (refine Keep.cut (s := s0) (t := x) ?_ ?_; (on_goal 1 => (unfold x; clear x)); (on_goal 2 => (clear_value x; intro k))) | (refine Keep.cut (s := s0) (t := x.1) ?_ ?_; (on_goal 1 => (unfold x; clear x)); (on_goal 2 => (clear_value x; intro k))) | clear_value x | skip)
    | with_reducible apply Keep.next
    | with_reducible apply Keep.advance
    | with_reducible apply Keep.issue
    | with_reducible apply Keep.tileExc
    | with_reducible apply Keep.updTile
    | split

theorem Keep.execWaite {s0 : State} {t : TileIx} {gd : Guard} {rs1 : GReg} {ek : Fin 16} {s : State} (h0 : Keep s0 s) : ResKeep s0 (Sys2Proof.Machine.execWaite t gd rs1 ek s) := by
  unfold Sys2Proof.Machine.execWaite
  repeat' first
    | with_reducible assumption
    | ((try lift_lets -underBinder); intro x; first | (refine Keep.cut (s := s0) (t := x) ?_ ?_; (on_goal 1 => (unfold x; clear x)); (on_goal 2 => (clear_value x; intro k))) | (refine Keep.cut (s := s0) (t := x.1) ?_ ?_; (on_goal 1 => (unfold x; clear x)); (on_goal 2 => (clear_value x; intro k))) | clear_value x | skip)
    | with_reducible apply Keep.next
    | with_reducible exact Keep.upd (by with_reducible assumption)
    | with_reducible apply Keep.advance
    | with_reducible apply Keep.issue
    | with_reducible apply Keep.updTile
    | split

theorem Keep.execWaitu {s0 : State} {t : TileIx} {gd : Guard} {units : BitVec 3} {s : State} (h0 : Keep s0 s) : ResKeep s0 (Sys2Proof.Machine.execWaitu t gd units s) := by
  unfold Sys2Proof.Machine.execWaitu
  repeat' first
    | with_reducible assumption
    | ((try lift_lets -underBinder); intro x; first | (refine Keep.cut (s := s0) (t := x) ?_ ?_; (on_goal 1 => (unfold x; clear x)); (on_goal 2 => (clear_value x; intro k))) | (refine Keep.cut (s := s0) (t := x.1) ?_ ?_; (on_goal 1 => (unfold x; clear x)); (on_goal 2 => (clear_value x; intro k))) | clear_value x | skip)
    | with_reducible apply Keep.next
    | with_reducible exact Keep.upd (by with_reducible assumption)
    | with_reducible apply Keep.advance
    | with_reducible apply Keep.issue
    | with_reducible apply Keep.updTile
    | split

theorem Keep.execCsrr {s0 : State} {t : TileIx} {gd : Guard} {rd : GReg} {num : BitVec 12} {s : State} (h0 : Keep s0 s) : ResKeep s0 (Sys2Proof.Machine.execCsrr t gd rd num s) := by
  unfold Sys2Proof.Machine.execCsrr
  repeat' first
    | with_reducible assumption
    | ((try lift_lets -underBinder); intro x; first | (refine Keep.cut (s := s0) (t := x) ?_ ?_; (on_goal 1 => (unfold x; clear x)); (on_goal 2 => (clear_value x; intro k))) | (refine Keep.cut (s := s0) (t := x.1) ?_ ?_; (on_goal 1 => (unfold x; clear x)); (on_goal 2 => (clear_value x; intro k))) | clear_value x | skip)
    | with_reducible apply Keep.next
    | with_reducible exact Keep.upd (by with_reducible assumption)
    | with_reducible apply Keep.advance
    | with_reducible apply Keep.issue
    | with_reducible apply Keep.tick
    | with_reducible apply Keep.tileExc
    | with_reducible apply Keep.updTile
    | split

theorem Keep.execCsrw {s0 : State} {t : TileIx} {gd : Guard} {rs1 : GReg} {num : BitVec 12} {s : State} (h0 : Keep s0 s) : ResKeep s0 (Sys2Proof.Machine.execCsrw t gd rs1 num s) := by
  unfold Sys2Proof.Machine.execCsrw
  repeat' first
    | with_reducible assumption
    | ((try lift_lets -underBinder); intro x; first | (refine Keep.cut (s := s0) (t := x) ?_ ?_; (on_goal 1 => (unfold x; clear x)); (on_goal 2 => (clear_value x; intro k))) | (refine Keep.cut (s := s0) (t := x.1) ?_ ?_; (on_goal 1 => (unfold x; clear x)); (on_goal 2 => (clear_value x; intro k))) | clear_value x | skip)
    | with_reducible apply Keep.next
    | with_reducible exact Keep.upd (by with_reducible assumption)
    | with_reducible apply Keep.advance
    | with_reducible apply Keep.issue
    | with_reducible apply Keep.setTile
    | with_reducible apply Keep.tileExc
    | split

end Sys2Proof.Machine
end

