-- ==== Sys2Proof/Laws/KeepStepEnd.lean ====
section
/-!
SUPPORT. What the operations of Machine/StepEnd.lean keep (Laws/Keep.lean).
-/

set_option linter.unusedTactic false
set_option linter.unreachableTactic false

namespace Sys2Proof.Machine

theorem Keep.showGlint {s0 : State} {s : State} (h0 : Keep s0 s) : Keep s0 (State.showGlint s) := by
  unfold State.showGlint
  repeat' first
    | with_reducible assumption
    | ((try lift_lets -underBinder); intro x; first | (refine Keep.cut (s := s0) (t := x) ?_ ?_; (on_goal 1 => (unfold x; clear x)); (on_goal 2 => (clear_value x; intro k))) | (refine Keep.cut (s := s0) (t := x.1) ?_ ?_; (on_goal 1 => (unfold x; clear x)); (on_goal 2 => (clear_value x; intro k))) | clear_value x | skip)
    | with_reducible apply Keep.foldl
    | with_reducible apply Keep.foldl_fst
    | with_reducible apply Keep.setF
    | split

theorem Keep.finishStep {s0 : State} {s : State} {p : Nat} (h0 : Keep s0 s) : Keep s0 (State.finishStep s p) := by
  unfold State.finishStep
  repeat' first
    | with_reducible assumption
    | ((try lift_lets -underBinder); intro x; first | (refine Keep.cut (s := s0) (t := x) ?_ ?_; (on_goal 1 => (unfold x; clear x)); (on_goal 2 => (clear_value x; intro k))) | (refine Keep.cut (s := s0) (t := x.1) ?_ ?_; (on_goal 1 => (unfold x; clear x)); (on_goal 2 => (clear_value x; intro k))) | clear_value x | skip)
    | with_reducible exact Keep.upd (by with_reducible assumption)
    | with_reducible apply Keep.endCmd
    | with_reducible apply Keep.showGlint
    | with_reducible apply Keep.updPart
    | split

theorem Keep.haltDone {s0 : State} {s : State} {t : Nat} (h0 : Keep s0 s) : Keep s0 (State.haltDone s t) := by
  unfold State.haltDone
  repeat' first
    | with_reducible assumption
    | ((try lift_lets -underBinder); intro x; first | (refine Keep.cut (s := s0) (t := x) ?_ ?_; (on_goal 1 => (unfold x; clear x)); (on_goal 2 => (clear_value x; intro k))) | (refine Keep.cut (s := s0) (t := x.1) ?_ ?_; (on_goal 1 => (unfold x; clear x)); (on_goal 2 => (clear_value x; intro k))) | clear_value x | skip)
    | with_reducible exact Keep.upd (by with_reducible assumption)
    | with_reducible apply Keep.finishStep
    | with_reducible apply Keep.updTile
    | split

end Sys2Proof.Machine
end

