-- ==== Sys2Proof/Laws/KeepCapture.lean ====
section
/-!
SUPPORT. What the operations of Machine/Capture.lean keep (Laws/Keep.lean).
-/

set_option linter.unusedTactic false
set_option linter.unreachableTactic false

namespace Sys2Proof.Machine

theorem Keep.plainSector {s0 : State} {s : State} {p sec keyId : Nat} (h0 : Keep s0 s) : Keep s0 (State.plainSector s p sec keyId).1 := by
  unfold State.plainSector
  repeat' first
    | with_reducible assumption
    | ((try lift_lets -underBinder); intro x; first | (refine Keep.cut (s := s0) (t := x) ?_ ?_; (on_goal 1 => (unfold x; clear x)); (on_goal 2 => (clear_value x; intro k))) | (refine Keep.cut (s := s0) (t := x.1) ?_ ?_; (on_goal 1 => (unfold x; clear x)); (on_goal 2 => (clear_value x; intro k))) | clear_value x | skip)
    | with_reducible exact Keep.upd (by with_reducible assumption)
    | with_reducible apply Keep.foldl
    | with_reducible apply Keep.foldl_fst
    | with_reducible apply Keep.readLine
    | with_reducible apply Keep.of_fst (by with_reducible assumption)
    | with_reducible refine Keep.upd (Keep.of_fst (by with_reducible assumption) ?_)
    | split

theorem Keep.setHolder {s0 : State} {s : State} {p i st peer : Nat} (h0 : Keep s0 s) : Keep s0 (State.setHolder s p i st peer) := by
  unfold State.setHolder
  repeat' first
    | with_reducible assumption
    | with_reducible apply Keep.setF
    | split

theorem Keep.sendReflection {s0 : State} {s : State} {peer op handle code arg1 : Nat} {last : Bool} {b : Bytes} (h0 : Keep s0 s) : Keep s0 (State.sendReflection s peer op handle code arg1 last b) := by
  unfold State.sendReflection
  repeat' first
    | with_reducible assumption
    | with_reducible apply Keep.sendMsg
    | split

theorem Keep.setHold {s0 : State} {s : State} {p i : Nat} {h : HoldStage} (h0 : Keep s0 s) : Keep s0 (State.setHold s p i h) := by
  unfold State.setHold
  repeat' first
    | with_reducible assumption
    | ((try lift_lets -underBinder); intro x; first | (refine Keep.cut (s := s0) (t := x) ?_ ?_; (on_goal 1 => (unfold x; clear x)); (on_goal 2 => (clear_value x; intro k))) | (refine Keep.cut (s := s0) (t := x.1) ?_ ?_; (on_goal 1 => (unfold x; clear x)); (on_goal 2 => (clear_value x; intro k))) | clear_value x | skip)
    | with_reducible exact Keep.upd (by with_reducible assumption)
    | with_reducible apply Keep.updPart

theorem Keep.seekHolder {s0 : State} {s : State} {p i : Nat} {tried : List Nat} (h0 : Keep s0 s) : Keep s0 (State.seekHolder s p i tried) := by
  unfold State.seekHolder
  repeat' first
    | with_reducible assumption
    | ((try lift_lets -underBinder); intro x; first | (refine Keep.cut (s := s0) (t := x) ?_ ?_; (on_goal 1 => (unfold x; clear x)); (on_goal 2 => (clear_value x; intro k))) | (refine Keep.cut (s := s0) (t := x.1) ?_ ?_; (on_goal 1 => (unfold x; clear x)); (on_goal 2 => (clear_value x; intro k))) | clear_value x | skip)
    | with_reducible exact Keep.upd (by with_reducible assumption)
    | with_reducible apply Keep.sendReflection
    | with_reducible apply Keep.setHold
    | with_reducible apply Keep.setHolder
    | split

theorem Keep.startCapture {s0 : State} {s : State} {p n : Nat} (h0 : Keep s0 s) : Keep s0 (State.startCapture s p n) := by
  unfold State.startCapture
  repeat' first
    | with_reducible assumption
    | ((try lift_lets -underBinder); intro x; first | (refine Keep.cut (s := s0) (t := x) ?_ ?_; (on_goal 1 => (unfold x; clear x)); (on_goal 2 => (clear_value x; intro k))) | (refine Keep.cut (s := s0) (t := x.1) ?_ ?_; (on_goal 1 => (unfold x; clear x)); (on_goal 2 => (clear_value x; intro k))) | clear_value x | skip)
    | with_reducible exact Keep.upd (by with_reducible assumption)
    | with_reducible apply Keep.foldl
    | with_reducible apply Keep.foldl_fst
    | with_reducible apply Keep.seekHolder
    | with_reducible apply Keep.setHold
    | with_reducible apply Keep.setHolder
    | with_reducible apply Keep.updPart
    | split

theorem Keep.boundary {s0 : State} {s : State} {p n : Nat} (h0 : Keep s0 s) : Keep s0 (State.boundary s p n) := by
  unfold State.boundary
  repeat' first
    | with_reducible assumption
    | ((try lift_lets -underBinder); intro x; first | (refine Keep.cut (s := s0) (t := x) ?_ ?_; (on_goal 1 => (unfold x; clear x)); (on_goal 2 => (clear_value x; intro k))) | (refine Keep.cut (s := s0) (t := x.1) ?_ ?_; (on_goal 1 => (unfold x; clear x)); (on_goal 2 => (clear_value x; intro k))) | clear_value x | skip)
    | with_reducible apply Keep.addF
    | with_reducible apply Keep.startCapture
    | split

theorem Keep.endCapture {s0 : State} {s : State} {p : Nat} (h0 : Keep s0 s) : Keep s0 (State.endCapture s p) := by
  unfold State.endCapture
  repeat' first
    | with_reducible assumption
    | ((try lift_lets -underBinder); intro x; first | (refine Keep.cut (s := s0) (t := x) ?_ ?_; (on_goal 1 => (unfold x; clear x)); (on_goal 2 => (clear_value x; intro k))) | (refine Keep.cut (s := s0) (t := x.1) ?_ ?_; (on_goal 1 => (unfold x; clear x)); (on_goal 2 => (clear_value x; intro k))) | clear_value x | skip)
    | with_reducible exact Keep.upd (by with_reducible assumption)
    | with_reducible apply Keep.setF
    | with_reducible apply Keep.updPart
    | split

theorem Keep.captureCode {s0 : State} {s : State} {p code : Nat} (h0 : Keep s0 s) : Keep s0 (State.captureCode s p code) := by
  unfold State.captureCode
  repeat' first
    | with_reducible assumption
    | ((try lift_lets -underBinder); intro x; first | (refine Keep.cut (s := s0) (t := x) ?_ ?_; (on_goal 1 => (unfold x; clear x)); (on_goal 2 => (clear_value x; intro k))) | (refine Keep.cut (s := s0) (t := x.1) ?_ ?_; (on_goal 1 => (unfold x; clear x)); (on_goal 2 => (clear_value x; intro k))) | clear_value x | skip)
    | with_reducible exact Keep.upd (by with_reducible assumption)
    | with_reducible apply Keep.updPart
    | split

theorem Keep.abandonCapture {s0 : State} {s : State} {p : Nat} (h0 : Keep s0 s) : Keep s0 (State.abandonCapture s p) := by
  unfold State.abandonCapture
  repeat' first
    | with_reducible assumption
    | ((try lift_lets -underBinder); intro x; first | (refine Keep.cut (s := s0) (t := x) ?_ ?_; (on_goal 1 => (unfold x; clear x)); (on_goal 2 => (clear_value x; intro k))) | (refine Keep.cut (s := s0) (t := x.1) ?_ ?_; (on_goal 1 => (unfold x; clear x)); (on_goal 2 => (clear_value x; intro k))) | clear_value x | skip)
    | with_reducible exact Keep.upd (by with_reducible assumption)
    | with_reducible apply Keep.foldl
    | with_reducible apply Keep.endCapture
    | with_reducible apply Keep.setHolder
    | split

theorem Keep.failCapture {s0 : State} {s : State} {p code : Nat} (h0 : Keep s0 s) : Keep s0 (State.failCapture s p code) := by
  unfold State.failCapture
  repeat' first
    | with_reducible assumption
    | with_reducible apply Keep.abandonCapture
    | with_reducible apply Keep.captureCode
    | with_reducible apply Keep.pend

theorem Keep.checkCapture {s0 : State} {s : State} {p : Nat} (h0 : Keep s0 s) : Keep s0 (State.checkCapture s p) := by
  unfold State.checkCapture
  repeat' first
    | with_reducible assumption
    | intro _
    | with_reducible exact Keep.upd (by with_reducible assumption)
    | with_reducible apply Keep.endCapture
    | split

theorem Keep.loseHolder {s0 : State} {s : State} {p i code : Nat} (h0 : Keep s0 s) : Keep s0 (State.loseHolder s p i code) := by
  unfold State.loseHolder
  repeat' first
    | with_reducible assumption
    | ((try lift_lets -underBinder); intro x; first | (refine Keep.cut (s := s0) (t := x) ?_ ?_; (on_goal 1 => (unfold x; clear x)); (on_goal 2 => (clear_value x; intro k))) | (refine Keep.cut (s := s0) (t := x.1) ?_ ?_; (on_goal 1 => (unfold x; clear x)); (on_goal 2 => (clear_value x; intro k))) | clear_value x | skip)
    | with_reducible exact Keep.upd (by with_reducible assumption)
    | with_reducible apply Keep.captureCode
    | with_reducible apply Keep.checkCapture
    | with_reducible apply Keep.setHold
    | with_reducible apply Keep.setHolder
    | with_reducible apply Keep.updPart
    | split

theorem Keep.stageJoin {s0 : State} {l : List Bytes} {code : Nat} {r : State × Except Nat Bytes} (h0 : Keep s0 r.1) : Keep s0 (Sys2Proof.Machine.stageJoin l code r).1 := by
  unfold Sys2Proof.Machine.stageJoin
  repeat' first
    | with_reducible assumption
    | with_reducible exact Keep.upd (by with_reducible assumption)
    | split

theorem Keep.stageSector {s0 : State} {p : Nat} {acc : State × List Bytes × Nat} {x : Nat × Nat} (h0 : Keep s0 acc.1) : Keep s0 (State.stageSector p acc x).1 := by
  unfold State.stageSector
  repeat' first
    | with_reducible assumption
    | with_reducible apply Keep.plainSector
    | with_reducible apply Keep.stageJoin
    | with_reducible apply Keep.of_fst (by with_reducible assumption)
    | with_reducible refine Keep.upd (Keep.of_fst (by with_reducible assumption) ?_)

theorem Keep.execCaptureStageComplete {s0 : State} {p : PartIx} {s : State} (h0 : Keep s0 s) : ResKeep s0 (Sys2Proof.Machine.execCaptureStageComplete p s) := by
  unfold Sys2Proof.Machine.execCaptureStageComplete
  repeat' first
    | with_reducible assumption
    | ((try lift_lets -underBinder); intro x; first | (refine Keep.cut (s := s0) (t := x) ?_ ?_; (on_goal 1 => (unfold x; clear x)); (on_goal 2 => (clear_value x; intro k))) | (refine Keep.cut (s := s0) (t := x.1) ?_ ?_; (on_goal 1 => (unfold x; clear x)); (on_goal 2 => (clear_value x; intro k))) | clear_value x | skip)
    | intro _
    | with_reducible apply Keep.next
    | with_reducible exact Keep.upd (by with_reducible assumption)
    | with_reducible apply Keep.foldl
    | with_reducible apply Keep.foldl_fst
    | with_reducible apply Keep.failCapture
    | with_reducible apply Keep.stageSector
    | with_reducible apply Keep.updPart
    | with_reducible apply Keep.of_fst (by with_reducible assumption)
    | with_reducible refine Keep.upd (Keep.of_fst (by with_reducible assumption) ?_)
    | split

theorem Keep.sendMirror {s0 : State} {s : State} {p i : Nat} {data : Bytes} (h0 : Keep s0 s) : Keep s0 (State.sendMirror s p i data) := by
  unfold State.sendMirror
  repeat' first
    | with_reducible assumption
    | ((try lift_lets -underBinder); intro x; first | (refine Keep.cut (s := s0) (t := x) ?_ ?_; (on_goal 1 => (unfold x; clear x)); (on_goal 2 => (clear_value x; intro k))) | (refine Keep.cut (s := s0) (t := x.1) ?_ ?_; (on_goal 1 => (unfold x; clear x)); (on_goal 2 => (clear_value x; intro k))) | clear_value x | skip)
    | with_reducible apply Keep.foldl
    | with_reducible apply Keep.sendMsg

theorem Keep.prepare {s0 : State} {s : State} {p : Nat} (h0 : Keep s0 s) : Keep s0 (State.prepare s p) := by
  unfold State.prepare
  repeat' first
    | with_reducible assumption
    | ((try lift_lets -underBinder); intro x; first | (refine Keep.cut (s := s0) (t := x) ?_ ?_; (on_goal 1 => (unfold x; clear x)); (on_goal 2 => (clear_value x; intro k))) | (refine Keep.cut (s := s0) (t := x.1) ?_ ?_; (on_goal 1 => (unfold x; clear x)); (on_goal 2 => (clear_value x; intro k))) | clear_value x | skip)
    | with_reducible exact Keep.upd (by with_reducible assumption)
    | with_reducible apply Keep.foldl
    | with_reducible apply Keep.checkCapture
    | with_reducible apply Keep.sendReflection
    | with_reducible apply Keep.setHold
    | with_reducible apply Keep.updPart
    | split

theorem Keep.judgeRoots {s0 : State} {s : State} {p members agree : Nat} (h0 : Keep s0 s) : Keep s0 (State.judgeRoots s p members agree) := by
  unfold State.judgeRoots
  repeat' first
    | with_reducible assumption
    | ((try lift_lets -underBinder); intro x; first | (refine Keep.cut (s := s0) (t := x) ?_ ?_; (on_goal 1 => (unfold x; clear x)); (on_goal 2 => (clear_value x; intro k))) | (refine Keep.cut (s := s0) (t := x.1) ?_ ?_; (on_goal 1 => (unfold x; clear x)); (on_goal 2 => (clear_value x; intro k))) | clear_value x | skip)
    | with_reducible apply Keep.failCapture
    | with_reducible apply Keep.prepare
    | with_reducible apply Keep.setF
    | split

theorem Keep.execCaptureSendComplete {s0 : State} {p : PartIx} {s : State} (h0 : Keep s0 s) : ResKeep s0 (Sys2Proof.Machine.execCaptureSendComplete p s) := by
  unfold Sys2Proof.Machine.execCaptureSendComplete
  repeat' first
    | with_reducible assumption
    | ((try lift_lets -underBinder); intro x; first | (refine Keep.cut (s := s0) (t := x) ?_ ?_; (on_goal 1 => (unfold x; clear x)); (on_goal 2 => (clear_value x; intro k))) | (refine Keep.cut (s := s0) (t := x.1) ?_ ?_; (on_goal 1 => (unfold x; clear x)); (on_goal 2 => (clear_value x; intro k))) | clear_value x | skip)
    | intro _
    | with_reducible apply Keep.next
    | with_reducible exact Keep.upd (by with_reducible assumption)
    | with_reducible apply Keep.foldl
    | with_reducible apply Keep.foldl_fst
    | with_reducible apply Keep.plainSector
    | with_reducible apply Keep.endCapture
    | with_reducible apply Keep.failCapture
    | with_reducible apply Keep.sendMirror
    | with_reducible apply Keep.prepare
    | with_reducible apply Keep.judgeRoots
    | with_reducible apply Keep.setF
    | with_reducible apply Keep.updPart
    | with_reducible apply Keep.of_fst (by with_reducible assumption)
    | with_reducible refine Keep.upd (Keep.of_fst (by with_reducible assumption) ?_)
    | split

theorem Keep.execParamRoot {s0 : State} {p : PartIx} {rank : Fin 256} {root : List Byte} {s : State} (h0 : Keep s0 s) : ResKeep s0 (Sys2Proof.Machine.execParamRoot p rank root s) := by
  unfold Sys2Proof.Machine.execParamRoot
  repeat' first
    | with_reducible assumption
    | ((try lift_lets -underBinder); intro x; first | (refine Keep.cut (s := s0) (t := x) ?_ ?_; (on_goal 1 => (unfold x; clear x)); (on_goal 2 => (clear_value x; intro k))) | (refine Keep.cut (s := s0) (t := x.1) ?_ ?_; (on_goal 1 => (unfold x; clear x)); (on_goal 2 => (clear_value x; intro k))) | clear_value x | skip)
    | with_reducible apply Keep.next
    | with_reducible exact Keep.upd (by with_reducible assumption)
    | with_reducible apply Keep.judgeRoots
    | with_reducible apply Keep.updPart
    | split

theorem Keep.execReplicaComparisonTimeout {s0 : State} {p : PartIx} {s : State} (h0 : Keep s0 s) : ResKeep s0 (Sys2Proof.Machine.execReplicaComparisonTimeout p s) := by
  unfold Sys2Proof.Machine.execReplicaComparisonTimeout
  repeat' first
    | with_reducible assumption
    | ((try lift_lets -underBinder); intro x; first | (refine Keep.cut (s := s0) (t := x) ?_ ?_; (on_goal 1 => (unfold x; clear x)); (on_goal 2 => (clear_value x; intro k))) | (refine Keep.cut (s := s0) (t := x.1) ?_ ?_; (on_goal 1 => (unfold x; clear x)); (on_goal 2 => (clear_value x; intro k))) | clear_value x | skip)
    | with_reducible apply Keep.next
    | with_reducible exact Keep.upd (by with_reducible assumption)
    | with_reducible apply Keep.prepare
    | with_reducible apply Keep.setF
    | split

end Sys2Proof.Machine
end

