-- ==== Sys2Proof/Laws/KeepReflect.lean ====
section
/-!
SUPPORT. What the operations of Machine/Reflect.lean keep (Laws/Keep.lean).
-/

set_option linter.unusedTactic false
set_option linter.unreachableTactic false

namespace Sys2Proof.Machine

theorem Keep.skimRefl {s0 s : State} {p n : Nat} (h : Keep s0 s) : Keep s0 (s.skimRefl p n) := by
  induction n generalizing s with
  | zero => exact h
  | succ n ih =>
    unfold State.skimRefl
    split
    · split
      · exact h
      · exact ih (Keep.takeMsg (by with_reducible assumption) h)
    · exact h

theorem Keep.onRefl {s0 : State} {s : State} {port op : Nat} {f : Nat → LinkMsg → State → State} (h0 : Keep s0 s) (hf : ∀ x0 x1 t, Keep s0 t → Keep s0 (f x0 x1 t)) : Keep s0 (State.onRefl s port op f) := by
  unfold State.onRefl
  repeat' first
    | with_reducible assumption
    | ((try lift_lets -underBinder); intro x; first | (refine Keep.cut (s := s0) (t := x) ?_ ?_; (on_goal 1 => (unfold x; clear x)); (on_goal 2 => (clear_value x; intro k))) | (refine Keep.cut (s := s0) (t := x.1) ?_ ?_; (on_goal 1 => (unfold x; clear x)); (on_goal 2 => (clear_value x; intro k))) | clear_value x | skip)
    | with_reducible exact Keep.upd (by with_reducible assumption)
    | with_reducible apply Keep.skimRefl
    | with_reducible apply hf
    | with_reducible apply Keep.takeMsg (by with_reducible assumption)
    | split

theorem Keep.updMirror {s0 : State} {s : State} {h : Nat} {f : Mirror → Mirror} (h0 : Keep s0 s) : Keep s0 (State.updMirror s h f) := by
  unfold State.updMirror
  repeat' first
    | with_reducible assumption
    | ((try lift_lets -underBinder); intro x; first | (refine Keep.cut (s := s0) (t := x) ?_ ?_; (on_goal 1 => (unfold x; clear x)); (on_goal 2 => (clear_value x; intro k))) | (refine Keep.cut (s := s0) (t := x.1) ?_ ?_; (on_goal 1 => (unfold x; clear x)); (on_goal 2 => (clear_value x; intro k))) | clear_value x | skip)
    | with_reducible exact Keep.upd (by with_reducible assumption)
    | split

theorem Keep.reserveSlots {s0 : State} {s : State} {size : Nat} (h0 : Keep s0 s) : Keep s0 (State.reserveSlots s size).1 := by
  unfold State.reserveSlots
  repeat' first
    | with_reducible assumption
    | ((try lift_lets -underBinder); intro x; first | (refine Keep.cut (s := s0) (t := x) ?_ ?_; (on_goal 1 => (unfold x; clear x)); (on_goal 2 => (clear_value x; intro k))) | (refine Keep.cut (s := s0) (t := x.1) ?_ ?_; (on_goal 1 => (unfold x; clear x)); (on_goal 2 => (clear_value x; intro k))) | clear_value x | skip)
    | with_reducible exact Keep.upd (by with_reducible assumption)
    | with_reducible apply Keep.foldl
    | with_reducible apply Keep.foldl_fst
    | with_reducible apply Keep.tick
    | with_reducible apply Keep.of_fst (by with_reducible assumption)
    | split

theorem Keep.execReflReserve {s0 : State} {port : PortIx} {s : State} (h0 : Keep s0 s) : ResKeep s0 (Sys2Proof.Machine.execReflReserve port s) := by
  unfold Sys2Proof.Machine.execReflReserve
  repeat' first
    | with_reducible assumption
    | ((try lift_lets -underBinder); intro x; first | (refine Keep.cut (s := s0) (t := x) ?_ ?_; (on_goal 1 => (unfold x; clear x)); (on_goal 2 => (clear_value x; intro k))) | (refine Keep.cut (s := s0) (t := x.1) ?_ ?_; (on_goal 1 => (unfold x; clear x)); (on_goal 2 => (clear_value x; intro k))) | clear_value x | skip)
    | with_reducible apply Keep.next
    | with_reducible exact Keep.upd (by with_reducible assumption)
    | with_reducible apply Keep.onRefl
    | with_reducible apply Keep.reserveSlots
    | with_reducible apply Keep.sendReflection
    | with_reducible apply Keep.updMirror
    | with_reducible apply Keep.of_fst (by with_reducible assumption)
    | with_reducible refine Keep.upd (Keep.of_fst (by with_reducible assumption) ?_)
    | split

theorem Keep.execMirrorWrite {s0 : State} {port : PortIx} {s : State} (h0 : Keep s0 s) : ResKeep s0 (Sys2Proof.Machine.execMirrorWrite port s) := by
  unfold Sys2Proof.Machine.execMirrorWrite
  repeat' first
    | with_reducible assumption
    | ((try lift_lets -underBinder); intro x; first | (refine Keep.cut (s := s0) (t := x) ?_ ?_; (on_goal 1 => (unfold x; clear x)); (on_goal 2 => (clear_value x; intro k))) | (refine Keep.cut (s := s0) (t := x.1) ?_ ?_; (on_goal 1 => (unfold x; clear x)); (on_goal 2 => (clear_value x; intro k))) | clear_value x | skip)
    | with_reducible apply Keep.next
    | with_reducible exact Keep.upd (by with_reducible assumption)
    | with_reducible apply Keep.onMsg
    | with_reducible apply Keep.updMirror
    | with_reducible apply Keep.updPart
    | with_reducible apply Keep.writeMem
    | with_reducible apply Keep.of_fst (by with_reducible assumption)
    | with_reducible refine Keep.upd (Keep.of_fst (by with_reducible assumption) ?_)
    | split

theorem Keep.execReflPrepare {s0 : State} {port : PortIx} {s : State} (h0 : Keep s0 s) : ResKeep s0 (Sys2Proof.Machine.execReflPrepare port s) := by
  unfold Sys2Proof.Machine.execReflPrepare
  repeat' first
    | with_reducible assumption
    | ((try lift_lets -underBinder); intro x; first | (refine Keep.cut (s := s0) (t := x) ?_ ?_; (on_goal 1 => (unfold x; clear x)); (on_goal 2 => (clear_value x; intro k))) | (refine Keep.cut (s := s0) (t := x.1) ?_ ?_; (on_goal 1 => (unfold x; clear x)); (on_goal 2 => (clear_value x; intro k))) | clear_value x | skip)
    | with_reducible apply Keep.next
    | with_reducible exact Keep.upd (by with_reducible assumption)
    | with_reducible apply Keep.onRefl
    | with_reducible apply Keep.sendReflection
    | with_reducible apply Keep.updMirror
    | split

theorem Keep.execReflCommit {s0 : State} {port : PortIx} {s : State} (h0 : Keep s0 s) : ResKeep s0 (Sys2Proof.Machine.execReflCommit port s) := by
  unfold Sys2Proof.Machine.execReflCommit
  repeat' first
    | with_reducible assumption
    | ((try lift_lets -underBinder); intro x; first | (refine Keep.cut (s := s0) (t := x) ?_ ?_; (on_goal 1 => (unfold x; clear x)); (on_goal 2 => (clear_value x; intro k))) | (refine Keep.cut (s := s0) (t := x.1) ?_ ?_; (on_goal 1 => (unfold x; clear x)); (on_goal 2 => (clear_value x; intro k))) | clear_value x | skip)
    | with_reducible apply Keep.next
    | with_reducible exact Keep.upd (by with_reducible assumption)
    | with_reducible apply Keep.onRefl
    | with_reducible apply Keep.sendReflection
    | with_reducible apply Keep.updMirror
    | split

theorem Keep.sendPart {s0 : State} {s : State} {n : Nat} {x : Mirror} {i off len : Nat} (h0 : Keep s0 s) : Keep s0 (State.sendPart s n x i off len).1 := by
  unfold State.sendPart
  repeat' first
    | with_reducible assumption
    | with_reducible exact Keep.upd (by with_reducible assumption)
    | with_reducible apply Keep.readMem
    | with_reducible apply Keep.sendMsg
    | with_reducible apply Keep.of_fst (by with_reducible assumption)
    | with_reducible refine Keep.upd (Keep.of_fst (by with_reducible assumption) ?_)
    | split

theorem Keep.sendParts {s0 : State} {s : State} {n : Nat} {x : Mirror} {i size : Nat} {l : List Nat} (h0 : Keep s0 s) : Keep s0 (State.sendParts s n x i size l).1 := by
  unfold State.sendParts
  repeat' first
    | with_reducible assumption
    | intro _
    | with_reducible apply Keep.foldl
    | with_reducible apply Keep.foldl_fst
    | with_reducible apply Keep.sendPart
    | with_reducible apply Keep.of_fst (by with_reducible assumption)
    | split

theorem Keep.serveFetch {s0 s : State} {n : Nat} {x : Mirror} (h : Keep s0 s) : Keep s0 (s.serveFetch n x) :=
  Keep.sendReflection (Keep.sendParts (Keep.foldl (Keep.updMirror h) fun _ _ k => Keep.sendReflection k))

theorem Keep.execReflFetch {s0 : State} {port : PortIx} {s : State} (h0 : Keep s0 s) : ResKeep s0 (Sys2Proof.Machine.execReflFetch port s) := by
  unfold Sys2Proof.Machine.execReflFetch
  repeat' first
    | with_reducible assumption
    | ((try lift_lets -underBinder); intro x; first | (refine Keep.cut (s := s0) (t := x) ?_ ?_; (on_goal 1 => (unfold x; clear x)); (on_goal 2 => (clear_value x; intro k))) | (refine Keep.cut (s := s0) (t := x.1) ?_ ?_; (on_goal 1 => (unfold x; clear x)); (on_goal 2 => (clear_value x; intro k))) | clear_value x | skip)
    | with_reducible apply Keep.next
    | with_reducible exact Keep.upd (by with_reducible assumption)
    | with_reducible apply Keep.onRefl
    | with_reducible apply Keep.sendReflection
    | with_reducible apply Keep.serveFetch
    | split

theorem Keep.execReflRelease {s0 : State} {port : PortIx} {s : State} (h0 : Keep s0 s) : ResKeep s0 (Sys2Proof.Machine.execReflRelease port s) := by
  unfold Sys2Proof.Machine.execReflRelease
  repeat' first
    | with_reducible assumption
    | ((try lift_lets -underBinder); intro x; first | (refine Keep.cut (s := s0) (t := x) ?_ ?_; (on_goal 1 => (unfold x; clear x)); (on_goal 2 => (clear_value x; intro k))) | (refine Keep.cut (s := s0) (t := x.1) ?_ ?_; (on_goal 1 => (unfold x; clear x)); (on_goal 2 => (clear_value x; intro k))) | clear_value x | skip)
    | with_reducible apply Keep.next
    | with_reducible exact Keep.upd (by with_reducible assumption)
    | with_reducible apply Keep.onRefl
    | split

theorem Keep.dropHost {s0 : State} {s : State} {p : Nat} (h0 : Keep s0 s) : Keep s0 (State.dropHost s p) := by
  unfold State.dropHost
  repeat' first
    | with_reducible assumption
    | ((try lift_lets -underBinder); intro x; first | (refine Keep.cut (s := s0) (t := x) ?_ ?_; (on_goal 1 => (unfold x; clear x)); (on_goal 2 => (clear_value x; intro k))) | (refine Keep.cut (s := s0) (t := x.1) ?_ ?_; (on_goal 1 => (unfold x; clear x)); (on_goal 2 => (clear_value x; intro k))) | clear_value x | skip)
    | with_reducible exact Keep.upd (by with_reducible assumption)
    | with_reducible apply Keep.foldl
    | with_reducible apply Keep.sendReflection
    | split

theorem Keep.execReflGrant {s0 : State} {port : PortIx} {s : State} (h0 : Keep s0 s) : ResKeep s0 (Sys2Proof.Machine.execReflGrant port s) := by
  unfold Sys2Proof.Machine.execReflGrant
  repeat' first
    | with_reducible assumption
    | ((try lift_lets -underBinder); intro x; first | (refine Keep.cut (s := s0) (t := x) ?_ ?_; (on_goal 1 => (unfold x; clear x)); (on_goal 2 => (clear_value x; intro k))) | (refine Keep.cut (s := s0) (t := x.1) ?_ ?_; (on_goal 1 => (unfold x; clear x)); (on_goal 2 => (clear_value x; intro k))) | clear_value x | skip)
    | with_reducible apply Keep.next
    | with_reducible exact Keep.upd (by with_reducible assumption)
    | with_reducible apply Keep.onRefl
    | with_reducible apply Keep.setHold
    | with_reducible apply Keep.setHolder
    | with_reducible apply Keep.updPart
    | split

theorem Keep.execReflDecline {s0 : State} {port : PortIx} {s : State} (h0 : Keep s0 s) : ResKeep s0 (Sys2Proof.Machine.execReflDecline port s) := by
  unfold Sys2Proof.Machine.execReflDecline
  repeat' first
    | with_reducible assumption
    | intro _
    | with_reducible apply Keep.next
    | with_reducible exact Keep.upd (by with_reducible assumption)
    | with_reducible apply Keep.onRefl
    | with_reducible apply Keep.seekHolder
    | split

theorem Keep.execReserveTimeout {s0 : State} {p : PartIx} {mirror : Fin 2} {s : State} (h0 : Keep s0 s) : ResKeep s0 (Sys2Proof.Machine.execReserveTimeout p mirror s) := by
  unfold Sys2Proof.Machine.execReserveTimeout
  repeat' first
    | with_reducible assumption
    | with_reducible apply Keep.next
    | with_reducible exact Keep.upd (by with_reducible assumption)
    | with_reducible apply Keep.seekHolder
    | split

theorem Keep.execReflPrepared {s0 : State} {port : PortIx} {s : State} (h0 : Keep s0 s) : ResKeep s0 (Sys2Proof.Machine.execReflPrepared port s) := by
  unfold Sys2Proof.Machine.execReflPrepared
  repeat' first
    | with_reducible assumption
    | intro _
    | with_reducible apply Keep.next
    | with_reducible exact Keep.upd (by with_reducible assumption)
    | with_reducible apply Keep.loseHolder
    | with_reducible apply Keep.onRefl
    | with_reducible apply Keep.sendReflection
    | with_reducible apply Keep.setHold
    | split

theorem Keep.execReflCommitted {s0 : State} {port : PortIx} {s : State} (h0 : Keep s0 s) : ResKeep s0 (Sys2Proof.Machine.execReflCommitted port s) := by
  unfold Sys2Proof.Machine.execReflCommitted
  repeat' first
    | with_reducible assumption
    | ((try lift_lets -underBinder); intro x; first | (refine Keep.cut (s := s0) (t := x) ?_ ?_; (on_goal 1 => (unfold x; clear x)); (on_goal 2 => (clear_value x; intro k))) | (refine Keep.cut (s := s0) (t := x.1) ?_ ?_; (on_goal 1 => (unfold x; clear x)); (on_goal 2 => (clear_value x; intro k))) | clear_value x | skip)
    | with_reducible apply Keep.next
    | with_reducible exact Keep.upd (by with_reducible assumption)
    | with_reducible apply Keep.addF
    | with_reducible apply Keep.checkCapture
    | with_reducible apply Keep.onRefl
    | with_reducible apply Keep.setF
    | with_reducible apply Keep.setHold
    | with_reducible apply Keep.setHolder
    | with_reducible apply Keep.updPart
    | split

theorem Keep.execReflLost {s0 : State} {port : PortIx} {s : State} (h0 : Keep s0 s) : ResKeep s0 (Sys2Proof.Machine.execReflLost port s) := by
  unfold Sys2Proof.Machine.execReflLost
  repeat' first
    | with_reducible assumption
    | intro _
    | with_reducible apply Keep.next
    | with_reducible exact Keep.upd (by with_reducible assumption)
    | with_reducible apply Keep.loseHolder
    | with_reducible apply Keep.onRefl
    | split

theorem Keep.execReflCtrlRelease {s0 : State} {p : PartIx} {s : State} (h0 : Keep s0 s) : ResKeep s0 (Sys2Proof.Machine.execReflCtrlRelease p s) := by
  unfold Sys2Proof.Machine.execReflCtrlRelease
  repeat' first
    | with_reducible assumption
    | ((try lift_lets -underBinder); intro x; first | (refine Keep.cut (s := s0) (t := x) ?_ ?_; (on_goal 1 => (unfold x; clear x)); (on_goal 2 => (clear_value x; intro k))) | (refine Keep.cut (s := s0) (t := x.1) ?_ ?_; (on_goal 1 => (unfold x; clear x)); (on_goal 2 => (clear_value x; intro k))) | clear_value x | skip)
    | with_reducible apply Keep.next
    | with_reducible apply Keep.foldl
    | with_reducible apply Keep.foldl_fst
    | with_reducible apply Keep.cxlIo
    | with_reducible apply Keep.loseHolder
    | with_reducible apply Keep.sendReflection
    | with_reducible apply Keep.setF
    | with_reducible apply Keep.setHolder
    | split

theorem Keep.endRestore {s0 : State} {s : State} {p code : Nat} (h0 : Keep s0 s) : Keep s0 (State.endRestore s p code) := by
  unfold State.endRestore
  repeat' first
    | with_reducible assumption
    | ((try lift_lets -underBinder); intro x; first | (refine Keep.cut (s := s0) (t := x) ?_ ?_; (on_goal 1 => (unfold x; clear x)); (on_goal 2 => (clear_value x; intro k))) | (refine Keep.cut (s := s0) (t := x.1) ?_ ?_; (on_goal 1 => (unfold x; clear x)); (on_goal 2 => (clear_value x; intro k))) | clear_value x | skip)
    | with_reducible exact Keep.upd (by with_reducible assumption)
    | with_reducible apply Keep.pend
    | with_reducible apply Keep.setF
    | with_reducible apply Keep.updPart
    | split

theorem Keep.refuseRestore {s0 : State} {s : State} {k code : Nat} (h0 : Keep s0 s) : Keep s0 (State.refuseRestore s k code) := by
  unfold State.refuseRestore
  repeat' first
    | with_reducible assumption
    | with_reducible apply Keep.setF

theorem Keep.execReflRestore {s0 : State} {p : PartIx} {s : State} (h0 : Keep s0 s) : ResKeep s0 (Sys2Proof.Machine.execReflRestore p s) := by
  unfold Sys2Proof.Machine.execReflRestore
  repeat' first
    | with_reducible assumption
    | ((try lift_lets -underBinder); intro x; first | (refine Keep.cut (s := s0) (t := x) ?_ ?_; (on_goal 1 => (unfold x; clear x)); (on_goal 2 => (clear_value x; intro k))) | (refine Keep.cut (s := s0) (t := x.1) ?_ ?_; (on_goal 1 => (unfold x; clear x)); (on_goal 2 => (clear_value x; intro k))) | clear_value x | skip)
    | with_reducible apply Keep.next
    | with_reducible exact Keep.upd (by with_reducible assumption)
    | with_reducible apply Keep.cxlIo
    | with_reducible apply Keep.endRestore
    | with_reducible apply Keep.refuseRestore
    | with_reducible apply Keep.sendReflection
    | with_reducible apply Keep.setF
    | with_reducible apply Keep.updPart
    | split

theorem Keep.execReflRecord {s0 : State} {port : PortIx} {s : State} (h0 : Keep s0 s) : ResKeep s0 (Sys2Proof.Machine.execReflRecord port s) := by
  unfold Sys2Proof.Machine.execReflRecord
  repeat' first
    | with_reducible assumption
    | ((try lift_lets -underBinder); intro x; first | (refine Keep.cut (s := s0) (t := x) ?_ ?_; (on_goal 1 => (unfold x; clear x)); (on_goal 2 => (clear_value x; intro k))) | (refine Keep.cut (s := s0) (t := x.1) ?_ ?_; (on_goal 1 => (unfold x; clear x)); (on_goal 2 => (clear_value x; intro k))) | clear_value x | skip)
    | with_reducible apply Keep.next
    | with_reducible exact Keep.upd (by with_reducible assumption)
    | with_reducible apply Keep.endRestore
    | with_reducible apply Keep.onRefl
    | with_reducible apply Keep.updPart
    | split

theorem Keep.execReflNone {s0 : State} {port : PortIx} {s : State} (h0 : Keep s0 s) : ResKeep s0 (Sys2Proof.Machine.execReflNone port s) := by
  unfold Sys2Proof.Machine.execReflNone
  repeat' first
    | with_reducible assumption
    | intro _
    | with_reducible apply Keep.next
    | with_reducible exact Keep.upd (by with_reducible assumption)
    | with_reducible apply Keep.endRestore
    | with_reducible apply Keep.onRefl
    | split

theorem Keep.execReflDone {s0 : State} {port : PortIx} {s : State} (h0 : Keep s0 s) : ResKeep s0 (Sys2Proof.Machine.execReflDone port s) := by
  unfold Sys2Proof.Machine.execReflDone
  repeat' first
    | with_reducible assumption
    | ((try lift_lets -underBinder); intro x; first | (refine Keep.cut (s := s0) (t := x) ?_ ?_; (on_goal 1 => (unfold x; clear x)); (on_goal 2 => (clear_value x; intro k))) | (refine Keep.cut (s := s0) (t := x.1) ?_ ?_; (on_goal 1 => (unfold x; clear x)); (on_goal 2 => (clear_value x; intro k))) | clear_value x | skip)
    | with_reducible apply Keep.next
    | with_reducible exact Keep.upd (by with_reducible assumption)
    | with_reducible apply Keep.endRestore
    | with_reducible apply Keep.onRefl
    | with_reducible apply Keep.updPart
    | split

theorem Keep.execRestoreTimeout {s0 : State} {p : PartIx} {s : State} (h0 : Keep s0 s) : ResKeep s0 (Sys2Proof.Machine.execRestoreTimeout p s) := by
  unfold Sys2Proof.Machine.execRestoreTimeout
  repeat' first
    | with_reducible assumption
    | with_reducible apply Keep.next
    | with_reducible exact Keep.upd (by with_reducible assumption)
    | with_reducible apply Keep.endRestore
    | split

theorem Keep.restoreSector {s0 : State} {s : State} {p : Nat} {x : Nat × Nat} {b : Bytes} (h0 : Keep s0 s) : Keep s0 (State.restoreSector s p x b).1 := by
  unfold State.restoreSector
  repeat' first
    | with_reducible assumption
    | ((try lift_lets -underBinder); intro x; first | (refine Keep.cut (s := s0) (t := x) ?_ ?_; (on_goal 1 => (unfold x; clear x)); (on_goal 2 => (clear_value x; intro k))) | (refine Keep.cut (s := s0) (t := x.1) ?_ ?_; (on_goal 1 => (unfold x; clear x)); (on_goal 2 => (clear_value x; intro k))) | clear_value x | skip)
    | intro _
    | with_reducible apply Keep.foldl
    | with_reducible apply Keep.foldl_fst
    | with_reducible apply Keep.setMajor
    | with_reducible apply Keep.setLine
    | with_reducible apply Keep.poison
    | with_reducible apply Keep.enterLeaf
    | split

theorem Keep.conversion {s0 : State} {s : State} {p : Nat} (h0 : Keep s0 s) : Keep s0 (State.conversion s p).1 := by
  unfold State.conversion
  repeat' first
    | with_reducible assumption
    | ((try lift_lets -underBinder); intro x; first | (refine Keep.cut (s := s0) (t := x) ?_ ?_; (on_goal 1 => (unfold x; clear x)); (on_goal 2 => (clear_value x; intro k))) | (refine Keep.cut (s := s0) (t := x.1) ?_ ?_; (on_goal 1 => (unfold x; clear x)); (on_goal 2 => (clear_value x; intro k))) | clear_value x | skip)
    | intro _
    | with_reducible exact Keep.upd (by with_reducible assumption)
    | with_reducible apply Keep.foldl
    | with_reducible apply Keep.foldl_fst
    | with_reducible apply Keep.copyPass
    | with_reducible apply Keep.readLines
    | with_reducible apply Keep.writeLines
    | with_reducible apply Keep.of_fst (by with_reducible assumption)
    | with_reducible refine Keep.upd (Keep.of_fst (by with_reducible assumption) ?_)
    | split

theorem Keep.restoreRng {s0 : State} {s : State} {p : Nat} {b : Bytes} (h0 : Keep s0 s) : Keep s0 (State.restoreRng s p b) := by
  unfold State.restoreRng
  repeat' first
    | with_reducible assumption
    | ((try lift_lets -underBinder); intro x; first | (refine Keep.cut (s := s0) (t := x) ?_ ?_; (on_goal 1 => (unfold x; clear x)); (on_goal 2 => (clear_value x; intro k))) | (refine Keep.cut (s := s0) (t := x.1) ?_ ?_; (on_goal 1 => (unfold x; clear x)); (on_goal 2 => (clear_value x; intro k))) | clear_value x | skip)
    | with_reducible exact Keep.upd (by with_reducible assumption)
    | with_reducible apply Keep.foldl
    | with_reducible apply Keep.foldl_fst
    | with_reducible apply Keep.updTile

theorem Keep.execRestoreComplete {s0 : State} {p : PartIx} {s : State} (h0 : Keep s0 s) : ResKeep s0 (Sys2Proof.Machine.execRestoreComplete p s) := by
  unfold Sys2Proof.Machine.execRestoreComplete
  repeat' first
    | with_reducible assumption
    | ((try lift_lets -underBinder); intro x; first | (refine Keep.cut (s := s0) (t := x) ?_ ?_; (on_goal 1 => (unfold x; clear x)); (on_goal 2 => (clear_value x; intro k))) | (refine Keep.cut (s := s0) (t := x.1) ?_ ?_; (on_goal 1 => (unfold x; clear x)); (on_goal 2 => (clear_value x; intro k))) | clear_value x | skip)
    | with_reducible apply Keep.next
    | with_reducible exact Keep.upd (by with_reducible assumption)
    | with_reducible apply Keep.foldl
    | with_reducible apply Keep.foldl_fst
    | with_reducible apply Keep.conversion
    | with_reducible apply Keep.endRestore
    | with_reducible apply Keep.restoreRng
    | with_reducible apply Keep.restoreSector
    | with_reducible apply Keep.setHolder
    | with_reducible apply Keep.showSlot
    | with_reducible apply Keep.updPart
    | with_reducible apply Keep.of_fst (by with_reducible assumption)
    | with_reducible refine Keep.upd (Keep.of_fst (by with_reducible assumption) ?_)
    | split

end Sys2Proof.Machine
end

