-- ==== Sys2Proof/Laws/KeepPower.lean ====
section
/-!
SUPPORT. What the operations of Machine/Power.lean keep (Laws/Keep.lean).
-/

set_option linter.unusedTactic false
set_option linter.unreachableTactic false

namespace Sys2Proof.Machine

theorem Keep.updPilot {s0 : State} {s : State} {f : Pilot → Pilot} (h0 : Keep s0 s) : Keep s0 (State.updPilot s f) := by
  unfold State.updPilot
  repeat' first
    | with_reducible assumption
    | ((try lift_lets -underBinder); intro x; first | (refine Keep.cut (s := s0) (t := x) ?_ ?_; (on_goal 1 => (unfold x; clear x)); (on_goal 2 => (clear_value x; intro k))) | (refine Keep.cut (s := s0) (t := x.1) ?_ ?_; (on_goal 1 => (unfold x; clear x)); (on_goal 2 => (clear_value x; intro k))) | clear_value x | skip)
    | with_reducible exact Keep.upd (by with_reducible assumption)

theorem Keep.setFeedBack {s0 : State} {s : State} {i : Fin 2} {b : Bool} (h0 : Keep s0 s) : Keep s0 (State.setFeedBack s i b) := by
  unfold State.setFeedBack
  repeat' first
    | with_reducible assumption
    | ((try lift_lets -underBinder); intro x; first | (refine Keep.cut (s := s0) (t := x) ?_ ?_; (on_goal 1 => (unfold x; clear x)); (on_goal 2 => (clear_value x; intro k))) | (refine Keep.cut (s := s0) (t := x.1) ?_ ?_; (on_goal 1 => (unfold x; clear x)); (on_goal 2 => (clear_value x; intro k))) | clear_value x | skip)
    | with_reducible exact Keep.upd (by with_reducible assumption)
    | with_reducible apply Keep.updPilot
    | split

theorem Keep.drawFrom {s0 : State} {s : State} {i : Fin 2} (h0 : Keep s0 s) : Keep s0 (State.drawFrom s i) := by
  unfold State.drawFrom
  repeat' first
    | with_reducible assumption
    | with_reducible apply Keep.addF
    | with_reducible apply Keep.set
    | split

theorem Keep.execFeedWarn {s0 : State} {feed : Fin 2} {dv : BitVec 10} {s : State} (h0 : Keep s0 s) : ResKeep s0 (Sys2Proof.Machine.execFeedWarn feed dv s) := by
  unfold Sys2Proof.Machine.execFeedWarn
  repeat' first
    | with_reducible assumption
    | ((try lift_lets -underBinder); intro x; first | (refine Keep.cut (s := s0) (t := x) ?_ ?_; (on_goal 1 => (unfold x; clear x)); (on_goal 2 => (clear_value x; intro k))) | (refine Keep.cut (s := s0) (t := x.1) ?_ ?_; (on_goal 1 => (unfold x; clear x)); (on_goal 2 => (clear_value x; intro k))) | clear_value x | skip)
    | with_reducible apply Keep.next
    | with_reducible apply Keep.set
    | with_reducible apply Keep.setFeedBack
    | split

theorem Keep.execFeedFail {s0 : State} {feed : Fin 2} {dv : BitVec 10} {s : State} (h0 : Keep s0 s) : ResKeep s0 (Sys2Proof.Machine.execFeedFail feed dv s) := by
  unfold Sys2Proof.Machine.execFeedFail
  repeat' first
    | with_reducible assumption
    | ((try lift_lets -underBinder); intro x; first | (refine Keep.cut (s := s0) (t := x) ?_ ?_; (on_goal 1 => (unfold x; clear x)); (on_goal 2 => (clear_value x; intro k))) | (refine Keep.cut (s := s0) (t := x.1) ?_ ?_; (on_goal 1 => (unfold x; clear x)); (on_goal 2 => (clear_value x; intro k))) | clear_value x | skip)
    | with_reducible apply Keep.next
    | with_reducible exact Keep.upd (by with_reducible assumption)
    | with_reducible apply Keep.drawFrom
    | with_reducible apply Keep.set
    | with_reducible apply Keep.setFeedBack
    | with_reducible apply Keep.updPilot
    | split

theorem Keep.execFeedReturn {s0 : State} {feed : Fin 2} {dv : BitVec 10} {s : State} (h0 : Keep s0 s) : ResKeep s0 (Sys2Proof.Machine.execFeedReturn feed dv s) := by
  unfold Sys2Proof.Machine.execFeedReturn
  repeat' first
    | with_reducible assumption
    | ((try lift_lets -underBinder); intro x; first | (refine Keep.cut (s := s0) (t := x) ?_ ?_; (on_goal 1 => (unfold x; clear x)); (on_goal 2 => (clear_value x; intro k))) | (refine Keep.cut (s := s0) (t := x.1) ?_ ?_; (on_goal 1 => (unfold x; clear x)); (on_goal 2 => (clear_value x; intro k))) | clear_value x | skip)
    | with_reducible apply Keep.next
    | with_reducible exact Keep.upd (by with_reducible assumption)
    | with_reducible apply Keep.drawFrom
    | with_reducible apply Keep.set
    | with_reducible apply Keep.setFeedBack
    | with_reducible apply Keep.updPilot
    | split

theorem Keep.execFeedRestoreTimer {s0 : State} {feed : Fin 2} {s : State} (h0 : Keep s0 s) : ResKeep s0 (Sys2Proof.Machine.execFeedRestoreTimer feed s) := by
  unfold Sys2Proof.Machine.execFeedRestoreTimer
  repeat' first
    | with_reducible assumption
    | ((try lift_lets -underBinder); intro x; first | (refine Keep.cut (s := s0) (t := x) ?_ ?_; (on_goal 1 => (unfold x; clear x)); (on_goal 2 => (clear_value x; intro k))) | (refine Keep.cut (s := s0) (t := x.1) ?_ ?_; (on_goal 1 => (unfold x; clear x)); (on_goal 2 => (clear_value x; intro k))) | clear_value x | skip)
    | intro _
    | with_reducible apply Keep.next
    | with_reducible exact Keep.upd (by with_reducible assumption)
    | with_reducible apply Keep.set
    | with_reducible apply Keep.updPilot
    | with_reducible apply Keep.setFeedBack
    | with_reducible apply Keep.drawFrom
    | split

theorem Keep.showStretch {s0 : State} {s : State} (h0 : Keep s0 s) : Keep s0 (State.showStretch s) := by
  unfold State.showStretch
  repeat' first
    | with_reducible assumption
    | with_reducible apply Keep.foldl
    | with_reducible apply Keep.foldl_fst
    | with_reducible apply Keep.set

theorem Keep.execPowerLimit {s0 : State} {step : Fin 64} {draw : PowerDraw} {s : State} (h0 : Keep s0 s) : ResKeep s0 (Sys2Proof.Machine.execPowerLimit step draw s) := by
  unfold Sys2Proof.Machine.execPowerLimit
  repeat' first
    | with_reducible assumption
    | ((try lift_lets -underBinder); intro x; first | (refine Keep.cut (s := s0) (t := x) ?_ ?_; (on_goal 1 => (unfold x; clear x)); (on_goal 2 => (clear_value x; intro k))) | (refine Keep.cut (s := s0) (t := x.1) ?_ ?_; (on_goal 1 => (unfold x; clear x)); (on_goal 2 => (clear_value x; intro k))) | clear_value x | skip)
    | intro _
    | with_reducible apply Keep.next
    | with_reducible exact Keep.upd (by with_reducible assumption)
    | with_reducible apply Keep.set
    | with_reducible apply Keep.updPilot
    | with_reducible apply Keep.showStretch
    | split

theorem Keep.setDieC {s0 : State} {s : State} {die : Fin 6} {celsius : Byte} (h0 : Keep s0 s) : Keep s0 (State.setDieC s die celsius) := by
  unfold State.setDieC
  repeat' first
    | with_reducible assumption
    | ((try lift_lets -underBinder); intro x; first | (refine Keep.cut (s := s0) (t := x) ?_ ?_; (on_goal 1 => (unfold x; clear x)); (on_goal 2 => (clear_value x; intro k))) | (refine Keep.cut (s := s0) (t := x.1) ?_ ?_; (on_goal 1 => (unfold x; clear x)); (on_goal 2 => (clear_value x; intro k))) | clear_value x | skip)
    | with_reducible apply Keep.set

theorem Keep.showCalib {s0 : State} {s : State} (h0 : Keep s0 s) : Keep s0 (State.showCalib s) := by
  unfold State.showCalib
  repeat' first
    | with_reducible assumption
    | ((try lift_lets -underBinder); intro x; first | (refine Keep.cut (s := s0) (t := x) ?_ ?_; (on_goal 1 => (unfold x; clear x)); (on_goal 2 => (clear_value x; intro k))) | (refine Keep.cut (s := s0) (t := x.1) ?_ ?_; (on_goal 1 => (unfold x; clear x)); (on_goal 2 => (clear_value x; intro k))) | clear_value x | skip)
    | with_reducible apply Keep.set
    | split

theorem Keep.execLoadBinChange {s0 : State} {c : ClusterIx} {bin : Fin 8} {s : State} (h0 : Keep s0 s) : ResKeep s0 (Sys2Proof.Machine.execLoadBinChange c bin s) := by
  unfold Sys2Proof.Machine.execLoadBinChange
  repeat' first
    | with_reducible assumption
    | ((try lift_lets -underBinder); intro x; first | (refine Keep.cut (s := s0) (t := x) ?_ ?_; (on_goal 1 => (unfold x; clear x)); (on_goal 2 => (clear_value x; intro k))) | (refine Keep.cut (s := s0) (t := x.1) ?_ ?_; (on_goal 1 => (unfold x; clear x)); (on_goal 2 => (clear_value x; intro k))) | clear_value x | skip)
    | with_reducible apply Keep.next
    | with_reducible exact Keep.upd (by with_reducible assumption)
    | with_reducible apply Keep.updPilot
    | split

theorem Keep.execCalibBinFill {s0 : State} {c : ClusterIx} {bin : Fin 8} {millivolts : Fin 4096} {s : State} (h0 : Keep s0 s) : ResKeep s0 (Sys2Proof.Machine.execCalibBinFill c bin millivolts s) := by
  unfold Sys2Proof.Machine.execCalibBinFill
  repeat' first
    | with_reducible assumption
    | ((try lift_lets -underBinder); intro x; first | (refine Keep.cut (s := s0) (t := x) ?_ ?_; (on_goal 1 => (unfold x; clear x)); (on_goal 2 => (clear_value x; intro k))) | (refine Keep.cut (s := s0) (t := x.1) ?_ ?_; (on_goal 1 => (unfold x; clear x)); (on_goal 2 => (clear_value x; intro k))) | clear_value x | skip)
    | with_reducible apply Keep.next
    | with_reducible exact Keep.upd (by with_reducible assumption)
    | with_reducible apply Keep.showCalib
    | with_reducible apply Keep.updPilot
    | split

theorem Keep.powerClusters {s0 : State} {s : State} {l : List Nat} {v : Nat} (h0 : Keep s0 s) : Keep s0 (State.powerClusters s l v) := by
  unfold State.powerClusters
  repeat' first
    | with_reducible assumption
    | intro _
    | with_reducible apply Keep.foldl
    | with_reducible apply Keep.setCluster
    | with_reducible apply Keep.showCalib

theorem Keep.darken {s0 : State} {s : State} {l : List Nat} (h0 : Keep s0 s) : Keep s0 (State.darken s l) := by
  unfold State.darken
  repeat' first
    | with_reducible assumption
    | intro _
    | with_reducible apply Keep.foldl
    | with_reducible apply Keep.powerClusters
    | with_reducible apply Keep.setTile

theorem Keep.wake {s0 : State} {s : State} {l : List Nat} (h0 : Keep s0 s) : Keep s0 (State.wake s l) := by
  unfold State.wake
  repeat' first
    | with_reducible assumption
    | intro _
    | with_reducible apply Keep.powerClusters

theorem Keep.execClusterIdleEntry {s0 : State} {c : ClusterIx} {s : State} (h0 : Keep s0 s) : ResKeep s0 (Sys2Proof.Machine.execClusterIdleEntry c s) := by
  unfold Sys2Proof.Machine.execClusterIdleEntry
  repeat' first
    | with_reducible assumption
    | with_reducible apply Keep.next
    | with_reducible apply Keep.powerClusters
    | split

theorem Keep.execClusterNapEntry {s0 : State} {c : ClusterIx} {s : State} (h0 : Keep s0 s) : ResKeep s0 (Sys2Proof.Machine.execClusterNapEntry c s) := by
  unfold Sys2Proof.Machine.execClusterNapEntry
  repeat' first
    | with_reducible assumption
    | with_reducible apply Keep.next
    | with_reducible exact Keep.upd (by with_reducible assumption)
    | with_reducible apply Keep.powerClusters
    | split

theorem Keep.execClusterWakeComplete {s0 : State} {c : ClusterIx} {bad : Bool} {s : State} (h0 : Keep s0 s) : ResKeep s0 (Sys2Proof.Machine.execClusterWakeComplete c bad s) := by
  unfold Sys2Proof.Machine.execClusterWakeComplete
  repeat' first
    | with_reducible assumption
    | ((try lift_lets -underBinder); intro x; first | (refine Keep.cut (s := s0) (t := x) ?_ ?_; (on_goal 1 => (unfold x; clear x)); (on_goal 2 => (clear_value x; intro k))) | (refine Keep.cut (s := s0) (t := x.1) ?_ ?_; (on_goal 1 => (unfold x; clear x)); (on_goal 2 => (clear_value x; intro k))) | clear_value x | skip)
    | with_reducible apply Keep.next
    | with_reducible apply Keep.powerClusters
    | with_reducible apply Keep.setF
    | split

theorem Keep.execCalibPass {s0 : State} {s : State} (h0 : Keep s0 s) : ResKeep s0 (Sys2Proof.Machine.execCalibPass s) := by
  unfold Sys2Proof.Machine.execCalibPass
  repeat' first
    | with_reducible assumption
    | ((try lift_lets -underBinder); intro x; first | (refine Keep.cut (s := s0) (t := x) ?_ ?_; (on_goal 1 => (unfold x; clear x)); (on_goal 2 => (clear_value x; intro k))) | (refine Keep.cut (s := s0) (t := x.1) ?_ ?_; (on_goal 1 => (unfold x; clear x)); (on_goal 2 => (clear_value x; intro k))) | clear_value x | skip)
    | with_reducible apply Keep.next
    | with_reducible exact Keep.upd (by with_reducible assumption)
    | with_reducible apply Keep.cxlIo
    | with_reducible apply Keep.powerClusters
    | with_reducible apply Keep.set
    | with_reducible apply Keep.updPilot
    | split

theorem Keep.execCalibPassComplete {s0 : State} {s : State} (h0 : Keep s0 s) : ResKeep s0 (Sys2Proof.Machine.execCalibPassComplete s) := by
  unfold Sys2Proof.Machine.execCalibPassComplete
  repeat' first
    | with_reducible assumption
    | ((try lift_lets -underBinder); intro x; first | (refine Keep.cut (s := s0) (t := x) ?_ ?_; (on_goal 1 => (unfold x; clear x)); (on_goal 2 => (clear_value x; intro k))) | (refine Keep.cut (s := s0) (t := x.1) ?_ ?_; (on_goal 1 => (unfold x; clear x)); (on_goal 2 => (clear_value x; intro k))) | clear_value x | skip)
    | with_reducible apply Keep.next
    | with_reducible exact Keep.upd (by with_reducible assumption)
    | with_reducible apply Keep.darken
    | with_reducible apply Keep.set
    | with_reducible apply Keep.updPilot
    | split

theorem Keep.leavePass {s0 : State} {s : State} {l : List Nat} (h0 : Keep s0 s) : Keep s0 (State.leavePass s l) := by
  unfold State.leavePass
  repeat' first
    | with_reducible assumption
    | ((try lift_lets -underBinder); intro x; first | (refine Keep.cut (s := s0) (t := x) ?_ ?_; (on_goal 1 => (unfold x; clear x)); (on_goal 2 => (clear_value x; intro k))) | (refine Keep.cut (s := s0) (t := x.1) ?_ ?_; (on_goal 1 => (unfold x; clear x)); (on_goal 2 => (clear_value x; intro k))) | clear_value x | skip)
    | with_reducible exact Keep.upd (by with_reducible assumption)
    | with_reducible apply Keep.updPilot

end Sys2Proof.Machine
end

