-- ==== Sys2Proof/Laws/KeepTileNet.lean ====
section
/-!
SUPPORT. What the operations of Machine/TileNet.lean keep (Laws/Keep.lean).
-/

set_option linter.unusedTactic false
set_option linter.unreachableTactic false

namespace Sys2Proof.Machine

theorem Keep.sendPacket {s0 : State} {s : State} {t : Nat} {ch : Fin 64} {reg : GReg} {n : Nat} (h0 : Keep s0 s) : Keep s0 (State.sendPacket s t ch reg n) := by
  unfold State.sendPacket
  repeat' first
    | with_reducible assumption
    | ((try lift_lets -underBinder); intro x; first | (refine Keep.cut (s := s0) (t := x) ?_ ?_; (on_goal 1 => (unfold x; clear x)); (on_goal 2 => (clear_value x; intro k))) | (refine Keep.cut (s := s0) (t := x.1) ?_ ?_; (on_goal 1 => (unfold x; clear x)); (on_goal 2 => (clear_value x; intro k))) | clear_value x | skip)
    | with_reducible exact Keep.upd (by with_reducible assumption)
    | with_reducible apply Keep.countPart
    | with_reducible apply Keep.inject
    | with_reducible apply Keep.updTile
    | split

theorem Keep.doSend {s0 : State} {s : State} {t : Nat} {ch : Fin 64} {reg : GReg} {n : Nat} {pd : Fin 8} {nb : Bool} (h0 : Keep s0 s) : Keep s0 (State.doSend s t ch reg n pd nb) := by
  unfold State.doSend
  repeat' first
    | with_reducible assumption
    | ((try lift_lets -underBinder); intro x; first | (refine Keep.cut (s := s0) (t := x) ?_ ?_; (on_goal 1 => (unfold x; clear x)); (on_goal 2 => (clear_value x; intro k))) | (refine Keep.cut (s := s0) (t := x.1) ?_ ?_; (on_goal 1 => (unfold x; clear x)); (on_goal 2 => (clear_value x; intro k))) | clear_value x | skip)
    | with_reducible exact Keep.upd (by with_reducible assumption)
    | with_reducible apply Keep.advance
    | with_reducible apply Keep.sendPacket
    | with_reducible apply Keep.tileExc
    | with_reducible apply Keep.updTile
    | split

theorem Keep.execSend {s0 : State} {t : TileIx} {gd : Guard} {reg : GReg} {ch : Fin 64} {n : Fin 16} {pd : Fin 8} {nb : Bool} {s : State} (h0 : Keep s0 s) : ResKeep s0 (Sys2Proof.Machine.execSend t gd reg ch n pd nb s) := by
  unfold Sys2Proof.Machine.execSend
  repeat' first
    | with_reducible assumption
    | intro _
    | with_reducible apply Keep.next
    | with_reducible apply Keep.doSend
    | with_reducible apply Keep.issue
    | with_reducible apply Keep.tileExc
    | split

theorem Keep.takePacket {s0 : State} {s : State} {t : Nat} {ch : Fin 64} {reg : GReg} {n : Nat} (h0 : Keep s0 s) : Keep s0 (State.takePacket s t ch reg n) := by
  unfold State.takePacket
  repeat' first
    | with_reducible assumption
    | ((try lift_lets -underBinder); intro x; first | (refine Keep.cut (s := s0) (t := x) ?_ ?_; (on_goal 1 => (unfold x; clear x)); (on_goal 2 => (clear_value x; intro k))) | (refine Keep.cut (s := s0) (t := x.1) ?_ ?_; (on_goal 1 => (unfold x; clear x)); (on_goal 2 => (clear_value x; intro k))) | clear_value x | skip)
    | with_reducible exact Keep.upd (by with_reducible assumption)
    | with_reducible apply Keep.countPart
    | with_reducible apply Keep.inject
    | with_reducible apply Keep.updTile
    | split

theorem Keep.doRecv {s0 : State} {s : State} {t : Nat} {ch : Fin 64} {reg : GReg} {n : Nat} {pd : Fin 8} {nb : Bool} (h0 : Keep s0 s) : Keep s0 (State.doRecv s t ch reg n pd nb) := by
  unfold State.doRecv
  repeat' first
    | with_reducible assumption
    | ((try lift_lets -underBinder); intro x; first | (refine Keep.cut (s := s0) (t := x) ?_ ?_; (on_goal 1 => (unfold x; clear x)); (on_goal 2 => (clear_value x; intro k))) | (refine Keep.cut (s := s0) (t := x.1) ?_ ?_; (on_goal 1 => (unfold x; clear x)); (on_goal 2 => (clear_value x; intro k))) | clear_value x | skip)
    | with_reducible exact Keep.upd (by with_reducible assumption)
    | with_reducible apply Keep.advance
    | with_reducible apply Keep.takePacket
    | with_reducible apply Keep.tileExc
    | with_reducible apply Keep.updTile
    | split

theorem Keep.execRecv {s0 : State} {t : TileIx} {gd : Guard} {reg : GReg} {ch : Fin 64} {n : Fin 16} {pd : Fin 8} {nb ue : Bool} {s : State} (h0 : Keep s0 s) : ResKeep s0 (Sys2Proof.Machine.execRecv t gd reg ch n pd nb ue s) := by
  unfold Sys2Proof.Machine.execRecv
  repeat' first
    | with_reducible assumption
    | intro _
    | with_reducible apply Keep.next
    | with_reducible apply Keep.doRecv
    | with_reducible apply Keep.issue
    | with_reducible apply Keep.tileExc
    | with_reducible apply Keep.tileUe
    | split

theorem Keep.execRavail {s0 : State} {t : TileIx} {gd : Guard} {reg : GReg} {ch : Fin 64} {s : State} (h0 : Keep s0 s) : ResKeep s0 (Sys2Proof.Machine.execRavail t gd reg ch s) := by
  unfold Sys2Proof.Machine.execRavail
  repeat' first
    | with_reducible assumption
    | intro _
    | with_reducible apply Keep.next
    | with_reducible apply Keep.advance
    | with_reducible apply Keep.issue
    | with_reducible apply Keep.tileExc
    | with_reducible apply Keep.updTile
    | split

theorem Keep.execRrel {s0 : State} {t : TileIx} {gd : Guard} {reg : GReg} {ch : Fin 64} {s : State} (h0 : Keep s0 s) : ResKeep s0 (Sys2Proof.Machine.execRrel t gd reg ch s) := by
  unfold Sys2Proof.Machine.execRrel
  repeat' first
    | with_reducible assumption
    | ((try lift_lets -underBinder); intro x; first | (refine Keep.cut (s := s0) (t := x) ?_ ?_; (on_goal 1 => (unfold x; clear x)); (on_goal 2 => (clear_value x; intro k))) | (refine Keep.cut (s := s0) (t := x.1) ?_ ?_; (on_goal 1 => (unfold x; clear x)); (on_goal 2 => (clear_value x; intro k))) | clear_value x | skip)
    | with_reducible apply Keep.next
    | with_reducible apply Keep.advance
    | with_reducible apply Keep.issue
    | with_reducible apply Keep.tileExc
    | with_reducible apply Keep.updTile
    | split

theorem Keep.execHalt {s0 : State} {t : TileIx} {gd : Guard} {s : State} (h0 : Keep s0 s) : ResKeep s0 (Sys2Proof.Machine.execHalt t gd s) := by
  unfold Sys2Proof.Machine.execHalt
  repeat' first
    | with_reducible assumption
    | ((try lift_lets -underBinder); intro x; first | (refine Keep.cut (s := s0) (t := x) ?_ ?_; (on_goal 1 => (unfold x; clear x)); (on_goal 2 => (clear_value x; intro k))) | (refine Keep.cut (s := s0) (t := x.1) ?_ ?_; (on_goal 1 => (unfold x; clear x)); (on_goal 2 => (clear_value x; intro k))) | clear_value x | skip)
    | with_reducible apply Keep.next
    | with_reducible exact Keep.upd (by with_reducible assumption)
    | with_reducible apply Keep.haltDone
    | with_reducible apply Keep.issue
    | with_reducible apply Keep.updTile
    | split

theorem Keep.endWait {s0 : State} {s : State} {t : Nat} (h0 : Keep s0 s) : Keep s0 (State.endWait s t) := by
  unfold State.endWait
  repeat' first
    | with_reducible assumption
    | ((try lift_lets -underBinder); intro x; first | (refine Keep.cut (s := s0) (t := x) ?_ ?_; (on_goal 1 => (unfold x; clear x)); (on_goal 2 => (clear_value x; intro k))) | (refine Keep.cut (s := s0) (t := x.1) ?_ ?_; (on_goal 1 => (unfold x; clear x)); (on_goal 2 => (clear_value x; intro k))) | clear_value x | skip)
    | intro _
    | with_reducible exact Keep.upd (by with_reducible assumption)
    | with_reducible apply Keep.updTile
    | with_reducible apply Keep.haltDone
    | with_reducible apply Keep.advance
    | with_reducible apply Keep.issue
    | with_reducible apply Keep.countWait
    | with_reducible apply Keep.doSend
    | with_reducible apply Keep.doRecv
    | split

theorem Keep.execWaitResume {s0 : State} {t : TileIx} {s : State} (h0 : Keep s0 s) : ResKeep s0 (Sys2Proof.Machine.execWaitResume t s) := by
  unfold Sys2Proof.Machine.execWaitResume
  repeat' first
    | with_reducible assumption
    | with_reducible apply Keep.next
    | with_reducible apply Keep.endWait
    | split

theorem Keep.execWaitLimitExpiry {s0 : State} {t : TileIx} {s : State} (h0 : Keep s0 s) : ResKeep s0 (Sys2Proof.Machine.execWaitLimitExpiry t s) := by
  unfold Sys2Proof.Machine.execWaitLimitExpiry
  repeat' first
    | with_reducible assumption
    | ((try lift_lets -underBinder); intro x; first | (refine Keep.cut (s := s0) (t := x) ?_ ?_; (on_goal 1 => (unfold x; clear x)); (on_goal 2 => (clear_value x; intro k))) | (refine Keep.cut (s := s0) (t := x.1) ?_ ?_; (on_goal 1 => (unfold x; clear x)); (on_goal 2 => (clear_value x; intro k))) | clear_value x | skip)
    | with_reducible apply Keep.next
    | with_reducible exact Keep.upd (by with_reducible assumption)
    | with_reducible apply Keep.endWait
    | with_reducible apply Keep.tileExc
    | split

theorem Keep.takeNet {s0 s t : State} {p : NetMsg → Bool} {m : NetMsg} (e : s.takeNet p = some (m, t)) (h : Keep s0 s) :
    Keep s0 t := by
  unfold State.takeNet at e
  cases hf : s.fab.net.find? fun m => p m && !s.pathDown m.edges with
  | none => rw [hf] at e; simp at e
  | some x =>
    rw [hf] at e
    simp only [Option.map_some, Option.some.injEq, Prod.mk.injEq] at e
    rw [← e.2]; exact Keep.countEdges (Keep.upd h)

theorem Keep.execTileStop {s0 : State} {t : TileIx} {s : State} (h0 : Keep s0 s) : ResKeep s0 (Sys2Proof.Machine.execTileStop t s) := by
  unfold Sys2Proof.Machine.execTileStop
  repeat' first
    | with_reducible assumption
    | ((try lift_lets -underBinder); intro x; first | (refine Keep.cut (s := s0) (t := x) ?_ ?_; (on_goal 1 => (unfold x; clear x)); (on_goal 2 => (clear_value x; intro k))) | (refine Keep.cut (s := s0) (t := x.1) ?_ ?_; (on_goal 1 => (unfold x; clear x)); (on_goal 2 => (clear_value x; intro k))) | clear_value x | skip)
    | with_reducible apply Keep.next
    | with_reducible exact Keep.upd (by with_reducible assumption)
    | with_reducible apply Keep.haltTile
    | with_reducible apply Keep.takeNet (by with_reducible assumption)
    | split

theorem Keep.wakeTile {s0 : State} {s : State} {t : Nat} (h0 : Keep s0 s) : Keep s0 (State.wakeTile s t) := by
  unfold State.wakeTile
  repeat' first
    | with_reducible assumption
    | ((try lift_lets -underBinder); intro x; first | (refine Keep.cut (s := s0) (t := x) ?_ ?_; (on_goal 1 => (unfold x; clear x)); (on_goal 2 => (clear_value x; intro k))) | (refine Keep.cut (s := s0) (t := x.1) ?_ ?_; (on_goal 1 => (unfold x; clear x)); (on_goal 2 => (clear_value x; intro k))) | clear_value x | skip)
    | with_reducible apply Keep.powerClusters
    | split

theorem Keep.tileCtrl {s0 : State} {s : State} {t : Nat} {f : State → State} (h0 : Keep s0 s) (hf : ∀ t, Keep s0 t → Keep s0 (f t)) : Keep s0 (State.tileCtrl s t f) := by
  unfold State.tileCtrl
  repeat' first
    | with_reducible assumption
    | intro _
    | with_reducible apply Keep.cxlIo
    | with_reducible apply Keep.wakeTile
    | with_reducible apply hf
    | split

theorem Keep.execHaltReq {s0 : State} {t : TileIx} {s : State} (h0 : Keep s0 s) : ResKeep s0 (Sys2Proof.Machine.execHaltReq t s) := by
  unfold Sys2Proof.Machine.execHaltReq
  repeat' first
    | with_reducible assumption
    | intro _
    | with_reducible apply Keep.next
    | with_reducible exact Keep.upd (by with_reducible assumption)
    | with_reducible apply Keep.updTile
    | with_reducible apply Keep.tileCtrl
    | split

theorem Keep.execTileResume {s0 : State} {t : TileIx} {s : State} (h0 : Keep s0 s) : ResKeep s0 (Sys2Proof.Machine.execTileResume t s) := by
  unfold Sys2Proof.Machine.execTileResume
  repeat' first
    | with_reducible assumption
    | intro _
    | with_reducible apply Keep.next
    | with_reducible exact Keep.upd (by with_reducible assumption)
    | with_reducible apply Keep.updTile
    | with_reducible apply Keep.tileCtrl
    | split

theorem Keep.memData {s0 : State} {s : State} {t : Nat} {write : Bool} {value : Word} (h0 : Keep s0 s) : Keep s0 (State.memData s t write value).1 := by
  unfold State.memData
  repeat' first
    | with_reducible assumption
    | ((try lift_lets -underBinder); intro x; first | (refine Keep.cut (s := s0) (t := x) ?_ ?_; (on_goal 1 => (unfold x; clear x)); (on_goal 2 => (clear_value x; intro k))) | (refine Keep.cut (s := s0) (t := x.1) ?_ ?_; (on_goal 1 => (unfold x; clear x)); (on_goal 2 => (clear_value x; intro k))) | clear_value x | skip)
    | intro _
    | with_reducible exact Keep.upd (by with_reducible assumption)
    | with_reducible apply Keep.tick
    | with_reducible apply Keep.updTile
    | split

theorem Keep.giveRead {s0 : State} {s : State} {write : Bool} {v : Word} (h0 : Keep s0 s) : Keep s0 (State.giveRead s write v) := by
  unfold State.giveRead
  repeat' first
    | with_reducible assumption
    | with_reducible apply Keep.emit
    | split

theorem Keep.execTileMemData {s0 : State} {t : TileIx} {write : Bool} {value : Word} {s : State} (h0 : Keep s0 s) : ResKeep s0 (Sys2Proof.Machine.execTileMemData t write value s) := by
  unfold Sys2Proof.Machine.execTileMemData
  repeat' first
    | with_reducible assumption
    | ((try lift_lets -underBinder); intro x; first | (refine Keep.cut (s := s0) (t := x) ?_ ?_; (on_goal 1 => (unfold x; clear x)); (on_goal 2 => (clear_value x; intro k))) | (refine Keep.cut (s := s0) (t := x.1) ?_ ?_; (on_goal 1 => (unfold x; clear x)); (on_goal 2 => (clear_value x; intro k))) | clear_value x | skip)
    | intro _
    | with_reducible apply Keep.next
    | with_reducible exact Keep.upd (by with_reducible assumption)
    | with_reducible apply Keep.cxlIo
    | with_reducible apply Keep.updTile
    | with_reducible apply Keep.wakeTile
    | with_reducible apply Keep.memData
    | with_reducible apply Keep.giveRead
    | with_reducible apply Keep.of_fst (by with_reducible assumption)
    | with_reducible refine Keep.upd (Keep.of_fst (by with_reducible assumption) ?_)
    | split

theorem Keep.windowWrite {s0 : State} {s : State} {t o : Nat} {v : Word} (h0 : Keep s0 s) : Keep s0 (State.windowWrite s t o v) := by
  unfold State.windowWrite
  repeat' first
    | with_reducible assumption
    | ((try lift_lets -underBinder); intro x; first | (refine Keep.cut (s := s0) (t := x) ?_ ?_; (on_goal 1 => (unfold x; clear x)); (on_goal 2 => (clear_value x; intro k))) | (refine Keep.cut (s := s0) (t := x.1) ?_ ?_; (on_goal 1 => (unfold x; clear x)); (on_goal 2 => (clear_value x; intro k))) | clear_value x | skip)
    | intro _
    | with_reducible exact Keep.upd (by with_reducible assumption)
    | with_reducible apply Keep.set
    | with_reducible apply Keep.updTile
    | with_reducible apply Keep.wakeTile
    | split

end Sys2Proof.Machine
end

