-- ==== Sys2Proof/Laws/KeepSteps.lean ====
section
/-!
SUPPORT. What the operations of Machine/Steps.lean keep (Laws/Keep.lean).
-/

set_option linter.unusedTactic false
set_option linter.unreachableTactic false

namespace Sys2Proof.Machine

theorem Keep.mixLines {s0 : State} {old new : State} (h0old : Keep s0 old) (h0new : Keep s0 new) : Keep s0 (State.mixLines old new) := by
  unfold State.mixLines
  repeat' first
    | with_reducible assumption
    | ((try lift_lets -underBinder); intro x; first | (refine Keep.cut (s := s0) (t := x) ?_ ?_; (on_goal 1 => (unfold x; clear x)); (on_goal 2 => (clear_value x; intro k))) | (refine Keep.cut (s := s0) (t := x.1) ?_ ?_; (on_goal 1 => (unfold x; clear x)); (on_goal 2 => (clear_value x; intro k))) | clear_value x | skip)
    | with_reducible exact Keep.upd (by with_reducible assumption)
    | with_reducible apply Keep.foldl
    | with_reducible apply Keep.poison
    | with_reducible apply Keep.setLine
    | with_reducible apply Keep.tick
    | split

theorem Keep.stopPass {s0 : State} {s : State} {p code : Nat} (h0 : Keep s0 s) : Keep s0 (State.stopPass s p code) := by
  unfold State.stopPass
  repeat' first
    | with_reducible assumption
    | ((try lift_lets -underBinder); intro x; first | (refine Keep.cut (s := s0) (t := x) ?_ ?_; (on_goal 1 => (unfold x; clear x)); (on_goal 2 => (clear_value x; intro k))) | (refine Keep.cut (s := s0) (t := x.1) ?_ ?_; (on_goal 1 => (unfold x; clear x)); (on_goal 2 => (clear_value x; intro k))) | clear_value x | skip)
    | intro _
    | with_reducible exact Keep.upd (by with_reducible assumption)
    | with_reducible apply Keep.runPass
    | with_reducible apply Keep.noteStopped
    | with_reducible apply Keep.updPart
    | with_reducible apply Keep.showGlint
    | with_reducible apply Keep.mixLines
    | with_reducible apply Keep.of_fst (by with_reducible assumption)
    | with_reducible refine Keep.upd (Keep.of_fst (by with_reducible assumption) ?_)
    | split

theorem Keep.stopWork {s0 : State} {s : State} {p code : Nat} {tile : Option Nat} (h0 : Keep s0 s) : Keep s0 (State.stopWork s p code tile) := by
  unfold State.stopWork
  repeat' first
    | with_reducible assumption
    | ((try lift_lets -underBinder); intro x; first | (refine Keep.cut (s := s0) (t := x) ?_ ?_; (on_goal 1 => (unfold x; clear x)); (on_goal 2 => (clear_value x; intro k))) | (refine Keep.cut (s := s0) (t := x.1) ?_ ?_; (on_goal 1 => (unfold x; clear x)); (on_goal 2 => (clear_value x; intro k))) | clear_value x | skip)
    | intro _
    | with_reducible exact Keep.upd (by with_reducible assumption)
    | with_reducible apply Keep.updPart
    | with_reducible apply Keep.stopCtx
    | with_reducible apply Keep.stopPass

theorem Keep.stopReport {s0 : State} {s : State} {p code : Nat} {tile : Option Nat} (h0 : Keep s0 s) : Keep s0 (State.stopReport s p code tile) := by
  unfold State.stopReport
  repeat' first
    | with_reducible assumption
    | ((try lift_lets -underBinder); intro x; first | (refine Keep.cut (s := s0) (t := x) ?_ ?_; (on_goal 1 => (unfold x; clear x)); (on_goal 2 => (clear_value x; intro k))) | (refine Keep.cut (s := s0) (t := x.1) ?_ ?_; (on_goal 1 => (unfold x; clear x)); (on_goal 2 => (clear_value x; intro k))) | clear_value x | skip)
    | with_reducible exact Keep.upd (by with_reducible assumption)
    | with_reducible apply Keep.foldl
    | with_reducible apply Keep.foldl_fst
    | with_reducible apply Keep.errCurrent
    | with_reducible apply Keep.inject
    | with_reducible apply Keep.pend
    | with_reducible apply Keep.stopWork
    | with_reducible apply Keep.updPart
    | with_reducible apply Keep.updTile
    | split

theorem Keep.execTileReport {s0 : State} {t : TileIx} {s : State} (h0 : Keep s0 s) : ResKeep s0 (Sys2Proof.Machine.execTileReport t s) := by
  unfold Sys2Proof.Machine.execTileReport
  repeat' first
    | with_reducible assumption
    | intro _
    | with_reducible apply Keep.next
    | with_reducible exact Keep.upd (by with_reducible assumption)
    | with_reducible apply Keep.stopReport
    | with_reducible apply Keep.takeNet (by with_reducible assumption)
    | split

theorem Keep.execStepCmd {s0 : State} {q : QueueIx} {s : State} (h0 : Keep s0 s) : ResKeep s0 (Sys2Proof.Machine.execStepCmd q s) := by
  unfold Sys2Proof.Machine.execStepCmd
  repeat' first
    | with_reducible assumption
    | ((try lift_lets -underBinder); intro x; first | (refine Keep.cut (s := s0) (t := x) ?_ ?_; (on_goal 1 => (unfold x; clear x)); (on_goal 2 => (clear_value x; intro k))) | (refine Keep.cut (s := s0) (t := x.1) ?_ ?_; (on_goal 1 => (unfold x; clear x)); (on_goal 2 => (clear_value x; intro k))) | clear_value x | skip)
    | with_reducible apply Keep.next
    | with_reducible exact Keep.upd (by with_reducible assumption)
    | with_reducible apply Keep.foldl
    | with_reducible apply Keep.foldl_fst
    | with_reducible apply Keep.beginCmd
    | with_reducible apply Keep.endCmd
    | with_reducible apply Keep.finishStep
    | with_reducible apply Keep.holdBack
    | with_reducible apply Keep.showSlot
    | with_reducible apply Keep.tryStart
    | with_reducible apply Keep.updHead
    | with_reducible apply Keep.updPart
    | with_reducible apply Keep.updTile
    | split

theorem Keep.hubCredit {s0 : State} {s : State} {m : NetMsg} (h0 : Keep s0 s) : Keep s0 (State.hubCredit s m) := by
  unfold State.hubCredit
  repeat' first
    | with_reducible assumption
    | with_reducible apply Keep.inject

theorem Keep.takeRequest {s0 s t : State} {k svc : Nat} {m : NetMsg} (e : s.takeRequest k svc = some (m, t))
    (h : Keep s0 s) : Keep s0 t := by
  unfold State.takeRequest at e
  cases hf : s.takeNet (fun m => m.kind = .request svc && m.srcTile = k) with
  | none => simp [hf] at e
  | some x =>
    simp only [hf, Option.map_some, Option.some.injEq, Prod.mk.injEq] at e
    rw [← e.2]; exact Keep.hubCredit (Keep.takeNet (m := x.1) hf h)

theorem Keep.reply {s0 : State} {s : State} {t ep : Nat} {words : List Word} (h0 : Keep s0 s) : Keep s0 (State.reply s t ep words) := by
  unfold State.reply
  repeat' first
    | with_reducible assumption
    | with_reducible apply Keep.inject

theorem Keep.protocolFault {s0 : State} {s : State} {p t : Nat} (h0 : Keep s0 s) : Keep s0 (State.protocolFault s p t) := by
  unfold State.protocolFault
  repeat' first
    | with_reducible assumption
    | with_reducible apply Keep.haltTile
    | with_reducible apply Keep.stopReport
    | split

theorem Keep.execStepDone {s0 : State} {t : TileIx} {s : State} (h0 : Keep s0 s) : ResKeep s0 (Sys2Proof.Machine.execStepDone t s) := by
  unfold Sys2Proof.Machine.execStepDone
  repeat' first
    | with_reducible assumption
    | ((try lift_lets -underBinder); intro x; first | (refine Keep.cut (s := s0) (t := x) ?_ ?_; (on_goal 1 => (unfold x; clear x)); (on_goal 2 => (clear_value x; intro k))) | (refine Keep.cut (s := s0) (t := x.1) ?_ ?_; (on_goal 1 => (unfold x; clear x)); (on_goal 2 => (clear_value x; intro k))) | clear_value x | skip)
    | with_reducible apply Keep.next
    | with_reducible exact Keep.upd (by with_reducible assumption)
    | with_reducible apply Keep.finishStep
    | with_reducible apply Keep.protocolFault
    | with_reducible apply Keep.updHead
    | with_reducible apply Keep.updTile
    | with_reducible apply Keep.takeRequest (by with_reducible assumption)
    | split

theorem Keep.traceDrop {s0 : State} {s : State} {c : Nat} (h0 : Keep s0 s) : Keep s0 (State.traceDrop s c) := by
  unfold State.traceDrop
  repeat' first
    | with_reducible assumption
    | ((try lift_lets -underBinder); intro x; first | (refine Keep.cut (s := s0) (t := x) ?_ ?_; (on_goal 1 => (unfold x; clear x)); (on_goal 2 => (clear_value x; intro k))) | (refine Keep.cut (s := s0) (t := x.1) ?_ ?_; (on_goal 1 => (unfold x; clear x)); (on_goal 2 => (clear_value x; intro k))) | clear_value x | skip)
    | with_reducible apply Keep.ctxWord
    | with_reducible apply Keep.hubWrite
    | with_reducible apply Keep.of_fst (by with_reducible assumption)
    | split

theorem Keep.execTraceReq {s0 : State} {t : TileIx} {s : State} (h0 : Keep s0 s) : ResKeep s0 (Sys2Proof.Machine.execTraceReq t s) := by
  unfold Sys2Proof.Machine.execTraceReq
  repeat' first
    | with_reducible assumption
    | ((try lift_lets -underBinder); intro x; first | (refine Keep.cut (s := s0) (t := x) ?_ ?_; (on_goal 1 => (unfold x; clear x)); (on_goal 2 => (clear_value x; intro k))) | (refine Keep.cut (s := s0) (t := x.1) ?_ ?_; (on_goal 1 => (unfold x; clear x)); (on_goal 2 => (clear_value x; intro k))) | clear_value x | skip)
    | with_reducible apply Keep.next
    | with_reducible exact Keep.upd (by with_reducible assumption)
    | with_reducible apply Keep.ctxWord
    | with_reducible apply Keep.hubWrite
    | with_reducible apply Keep.traceDrop
    | with_reducible apply Keep.updPart
    | with_reducible apply Keep.of_fst (by with_reducible assumption)
    | with_reducible refine Keep.upd (Keep.of_fst (by with_reducible assumption) ?_)
    | with_reducible apply Keep.takeRequest (by with_reducible assumption)
    | split

theorem Keep.execStepInfo {s0 : State} {t : TileIx} {s : State} (h0 : Keep s0 s) : ResKeep s0 (Sys2Proof.Machine.execStepInfo t s) := by
  unfold Sys2Proof.Machine.execStepInfo
  repeat' first
    | with_reducible assumption
    | ((try lift_lets -underBinder); intro x; first | (refine Keep.cut (s := s0) (t := x) ?_ ?_; (on_goal 1 => (unfold x; clear x)); (on_goal 2 => (clear_value x; intro k))) | (refine Keep.cut (s := s0) (t := x.1) ?_ ?_; (on_goal 1 => (unfold x; clear x)); (on_goal 2 => (clear_value x; intro k))) | clear_value x | skip)
    | with_reducible apply Keep.next
    | with_reducible exact Keep.upd (by with_reducible assumption)
    | with_reducible apply Keep.reply
    | with_reducible apply Keep.takeRequest (by with_reducible assumption)
    | split

theorem Keep.execGlintPassStart {s0 : State} {c : CtrlIx} {s : State} (h0 : Keep s0 s) : ResKeep s0 (Sys2Proof.Machine.execGlintPassStart c s) := by
  unfold Sys2Proof.Machine.execGlintPassStart
  repeat' first
    | with_reducible assumption
    | ((try lift_lets -underBinder); intro x; first | (refine Keep.cut (s := s0) (t := x) ?_ ?_; (on_goal 1 => (unfold x; clear x)); (on_goal 2 => (clear_value x; intro k))) | (refine Keep.cut (s := s0) (t := x.1) ?_ ?_; (on_goal 1 => (unfold x; clear x)); (on_goal 2 => (clear_value x; intro k))) | clear_value x | skip)
    | with_reducible apply Keep.next
    | with_reducible exact Keep.upd (by with_reducible assumption)
    | with_reducible apply Keep.foldl
    | with_reducible apply Keep.foldl_fst
    | with_reducible apply Keep.showGlint
    | with_reducible apply Keep.updPart
    | split

theorem Keep.execGlintPassComplete {s0 : State} {p : PartIx} {s : State} (h0 : Keep s0 s) : ResKeep s0 (Sys2Proof.Machine.execGlintPassComplete p s) := by
  unfold Sys2Proof.Machine.execGlintPassComplete
  repeat' first
    | with_reducible assumption
    | ((try lift_lets -underBinder); intro x; first | (refine Keep.cut (s := s0) (t := x) ?_ ?_; (on_goal 1 => (unfold x; clear x)); (on_goal 2 => (clear_value x; intro k))) | (refine Keep.cut (s := s0) (t := x.1) ?_ ?_; (on_goal 1 => (unfold x; clear x)); (on_goal 2 => (clear_value x; intro k))) | clear_value x | skip)
    | with_reducible apply Keep.next
    | with_reducible exact Keep.upd (by with_reducible assumption)
    | with_reducible apply Keep.endCmd
    | with_reducible apply Keep.notePass
    | with_reducible apply Keep.pend
    | with_reducible apply Keep.runPass
    | with_reducible apply Keep.showGlint
    | with_reducible apply Keep.tick
    | with_reducible apply Keep.updHead
    | with_reducible apply Keep.updPart
    | with_reducible apply Keep.of_fst (by with_reducible assumption)
    | with_reducible refine Keep.upd (Keep.of_fst (by with_reducible assumption) ?_)
    | split

theorem Keep.completeStep {s0 : State} {s : State} {p q : Nat} {c : HubCmd} {n : Nat} (h0 : Keep s0 s) : Keep s0 (State.completeStep s p q c n).1 := by
  unfold State.completeStep
  repeat' first
    | with_reducible assumption
    | ((try lift_lets -underBinder); intro x; first | (refine Keep.cut (s := s0) (t := x) ?_ ?_; (on_goal 1 => (unfold x; clear x)); (on_goal 2 => (clear_value x; intro k))) | (refine Keep.cut (s := s0) (t := x.1) ?_ ?_; (on_goal 1 => (unfold x; clear x)); (on_goal 2 => (clear_value x; intro k))) | clear_value x | skip)
    | with_reducible exact Keep.upd (by with_reducible assumption)
    | with_reducible apply Keep.boundary
    | with_reducible apply Keep.complete
    | with_reducible apply Keep.showSlot
    | with_reducible apply Keep.updPart
    | with_reducible apply Keep.of_fst (by with_reducible assumption)
    | with_reducible refine Keep.upd (Keep.of_fst (by with_reducible assumption) ?_)
    | split

end Sys2Proof.Machine
end

