-- ==== Sys2Proof/Laws/KeepMigrate.lean ====
section
/-!
SUPPORT. What the operations of Machine/Migrate.lean keep (Laws/Keep.lean).
-/

set_option linter.unusedTactic false
set_option linter.unreachableTactic false

namespace Sys2Proof.Machine

theorem Keep.markWait {s0 : State} {s : State} {q : Nat} (h0 : Keep s0 s) : Keep s0 (State.markWait s q) := by
  unfold State.markWait
  repeat' first
    | with_reducible assumption
    | ((try lift_lets -underBinder); intro x; first | (refine Keep.cut (s := s0) (t := x) ?_ ?_; (on_goal 1 => (unfold x; clear x)); (on_goal 2 => (clear_value x; intro k))) | (refine Keep.cut (s := s0) (t := x.1) ?_ ?_; (on_goal 1 => (unfold x; clear x)); (on_goal 2 => (clear_value x; intro k))) | clear_value x | skip)
    | with_reducible exact Keep.upd (by with_reducible assumption)
    | with_reducible apply Keep.holdBack
    | with_reducible apply Keep.updHead

theorem Keep.execMigrateCmd {s0 : State} {q : QueueIx} {s : State} (h0 : Keep s0 s) : ResKeep s0 (Sys2Proof.Machine.execMigrateCmd q s) := by
  unfold Sys2Proof.Machine.execMigrateCmd
  repeat' first
    | with_reducible assumption
    | ((try lift_lets -underBinder); intro x; first | (refine Keep.cut (s := s0) (t := x) ?_ ?_; (on_goal 1 => (unfold x; clear x)); (on_goal 2 => (clear_value x; intro k))) | (refine Keep.cut (s := s0) (t := x.1) ?_ ?_; (on_goal 1 => (unfold x; clear x)); (on_goal 2 => (clear_value x; intro k))) | clear_value x | skip)
    | intro _
    | with_reducible apply Keep.next
    | with_reducible exact Keep.upd (by with_reducible assumption)
    | with_reducible apply Keep.markWait
    | with_reducible apply Keep.updPart
    | with_reducible apply Keep.updHead
    | with_reducible apply Keep.endCmd
    | with_reducible apply Keep.beginCmd
    | with_reducible apply Keep.tryStart
    | split

theorem Keep.meetSource {s0 : State} {s : State} {place : Nat} {f : LineFault} (h0 : Keep s0 s) : Keep s0 (State.meetSource s place f) := by
  unfold State.meetSource
  repeat' first
    | with_reducible assumption
    | ((try lift_lets -underBinder); intro x; first | (refine Keep.cut (s := s0) (t := x) ?_ ?_; (on_goal 1 => (unfold x; clear x)); (on_goal 2 => (clear_value x; intro k))) | (refine Keep.cut (s := s0) (t := x.1) ?_ ?_; (on_goal 1 => (unfold x; clear x)); (on_goal 2 => (clear_value x; intro k))) | clear_value x | skip)
    | with_reducible exact Keep.upd (by with_reducible assumption)
    | with_reducible apply Keep.countUe
    | with_reducible apply Keep.strike
    | split

theorem Keep.meetTarget {s0 : State} {s : State} {place : Nat} {f : LineFault} (h0 : Keep s0 s) : Keep s0 (State.meetTarget s place f) := by
  unfold State.meetTarget
  repeat' first
    | with_reducible assumption
    | ((try lift_lets -underBinder); intro x; first | (refine Keep.cut (s := s0) (t := x) ?_ ?_; (on_goal 1 => (unfold x; clear x)); (on_goal 2 => (clear_value x; intro k))) | (refine Keep.cut (s := s0) (t := x.1) ?_ ?_; (on_goal 1 => (unfold x; clear x)); (on_goal 2 => (clear_value x; intro k))) | clear_value x | skip)
    | intro _
    | with_reducible exact Keep.upd (by with_reducible assumption)
    | with_reducible apply Keep.foldl
    | with_reducible apply Keep.foldl_fst
    | with_reducible apply Keep.updLine
    | with_reducible apply Keep.poison
    | split

theorem Keep.moveLeaves {s0 : State} {s : State} {p : Nat} {r : Region} (h0 : Keep s0 s) : Keep s0 (State.moveLeaves s p r) := by
  unfold State.moveLeaves
  repeat' first
    | with_reducible assumption
    | ((try lift_lets -underBinder); intro x; first | (refine Keep.cut (s := s0) (t := x) ?_ ?_; (on_goal 1 => (unfold x; clear x)); (on_goal 2 => (clear_value x; intro k))) | (refine Keep.cut (s := s0) (t := x.1) ?_ ?_; (on_goal 1 => (unfold x; clear x)); (on_goal 2 => (clear_value x; intro k))) | clear_value x | skip)
    | intro _
    | with_reducible exact Keep.upd (by with_reducible assumption)
    | with_reducible apply Keep.foldl
    | with_reducible apply Keep.foldl_fst
    | with_reducible apply Keep.enterLeaf

theorem Keep.settleRegion {s0 : State} {s : State} {p n : Nat} (h0 : Keep s0 s) : Keep s0 (State.settleRegion s p n) := by
  unfold State.settleRegion
  repeat' first
    | with_reducible assumption
    | intro _
    | with_reducible exact Keep.upd (by with_reducible assumption)
    | with_reducible apply Keep.updPart

theorem Keep.execMigrateComplete {s0 : State} {q : QueueIx} {met : List (Word × LineFault)} {s : State} (h0 : Keep s0 s) : ResKeep s0 (Sys2Proof.Machine.execMigrateComplete q met s) := by
  unfold Sys2Proof.Machine.execMigrateComplete
  repeat' first
    | with_reducible assumption
    | ((try lift_lets -underBinder); intro x; first | (refine Keep.cut (s := s0) (t := x) ?_ ?_; (on_goal 1 => (unfold x; clear x)); (on_goal 2 => (clear_value x; intro k))) | (refine Keep.cut (s := s0) (t := x.1) ?_ ?_; (on_goal 1 => (unfold x; clear x)); (on_goal 2 => (clear_value x; intro k))) | clear_value x | skip)
    | intro _
    | with_reducible apply Keep.next
    | with_reducible exact Keep.upd (by with_reducible assumption)
    | with_reducible apply Keep.foldl
    | with_reducible apply Keep.foldl_fst
    | with_reducible apply Keep.poison
    | with_reducible apply Keep.meetSource
    | with_reducible apply Keep.meetTarget
    | with_reducible apply Keep.moveLeaves
    | with_reducible apply Keep.settleRegion
    | with_reducible apply Keep.updPart
    | with_reducible apply Keep.endCmd
    | split

end Sys2Proof.Machine
end

