-- ==== Sys2Proof/Laws/KeepRegWrite.lean ====
section
/-!
SUPPORT. What the operations of Machine/RegWrite.lean keep (Laws/Keep.lean).
-/

set_option linter.unusedTactic false
set_option linter.unreachableTactic false

namespace Sys2Proof.Machine

theorem Keep.writeFld {s0 : State} {s : State} {locked : Bool} {w : Nat} {x : Fld × Nat × Nat} (h0 : Keep s0 s) : Keep s0 (State.writeFld s locked w x) := by
  unfold State.writeFld
  repeat' first
    | with_reducible assumption
    | with_reducible apply Keep.setF
    | split

theorem Keep.writeWord {s0 : State} {s : State} {off w : Nat} (h0 : Keep s0 s) : Keep s0 (State.writeWord s off w) := by
  unfold State.writeWord
  repeat' first
    | with_reducible assumption
    | ((try lift_lets -underBinder); intro x; first | (refine Keep.cut (s := s0) (t := x) ?_ ?_; (on_goal 1 => (unfold x; clear x)); (on_goal 2 => (clear_value x; intro k))) | (refine Keep.cut (s := s0) (t := x.1) ?_ ?_; (on_goal 1 => (unfold x; clear x)); (on_goal 2 => (clear_value x; intro k))) | clear_value x | skip)
    | intro _
    | with_reducible apply Keep.foldl
    | with_reducible apply Keep.foldl_fst
    | with_reducible apply Keep.writeFld

theorem Keep.clearAll {s0 : State} {s : State} {l : List Fld} (h0 : Keep s0 s) : Keep s0 (State.clearAll s l) := by
  unfold State.clearAll
  repeat' first
    | with_reducible assumption
    | intro _
    | with_reducible apply Keep.foldl
    | with_reducible apply Keep.foldl_fst
    | with_reducible apply Keep.setAllF

theorem Keep.clearCopy {s0 : State} {s : State} {i : Nat} {l : List Fld} (h0 : Keep s0 s) : Keep s0 (State.clearCopy s i l) := by
  unfold State.clearCopy
  repeat' first
    | with_reducible assumption
    | intro _
    | with_reducible apply Keep.foldl
    | with_reducible apply Keep.foldl_fst
    | with_reducible apply Keep.setF

theorem Keep.cntClear {s0 : State} {s : State} {f : Fld} {i : Nat} (h0 : Keep s0 s) : Keep s0 (State.cntClear s f i) := by
  unfold State.cntClear
  repeat' first
    | with_reducible assumption
    | with_reducible apply Keep.clearAll
    | with_reducible apply Keep.clearCopy

theorem Keep.clearWord {s0 : State} {s : State} {off w : Nat} (h0 : Keep s0 s) : Keep s0 (State.clearWord s off w) := by
  unfold State.clearWord
  repeat' first
    | with_reducible assumption
    | intro _
    | with_reducible apply Keep.foldl
    | with_reducible apply Keep.foldl_fst
    | with_reducible apply Keep.cntClear
    | split

end Sys2Proof.Machine
end

