-- ==== Sys2Proof/Laws/KeepBeacon.lean ====
section
/-!
SUPPORT. What the operations of Machine/Beacon.lean keep (Laws/Keep.lean).
-/

set_option linter.unusedTactic false
set_option linter.unreachableTactic false

namespace Sys2Proof.Machine

theorem Keep.beaconCount {s0 : State} {s : State} {f : Fld} (h0 : Keep s0 s) : Keep s0 (State.beaconCount s f) := by
  unfold State.beaconCount
  repeat' first
    | with_reducible assumption
    | with_reducible apply Keep.addF
    | split

theorem Keep.beaconErr {s0 : State} {s : State} {ctx shard code : Nat} (h0 : Keep s0 s) : Keep s0 (State.beaconErr s ctx shard code) := by
  unfold State.beaconErr
  repeat' first
    | with_reducible assumption
    | with_reducible apply Keep.set

theorem Keep.updLoad {s0 : State} {s : State} {l : LoadAt} {f : BeaconLoad → BeaconLoad} (h0 : Keep s0 s) : Keep s0 (State.updLoad s l f) := by
  unfold State.updLoad
  repeat' first
    | with_reducible assumption
    | ((try lift_lets -underBinder); intro x; first | (refine Keep.cut (s := s0) (t := x) ?_ ?_; (on_goal 1 => (unfold x; clear x)); (on_goal 2 => (clear_value x; intro k))) | (refine Keep.cut (s := s0) (t := x.1) ?_ ?_; (on_goal 1 => (unfold x; clear x)); (on_goal 2 => (clear_value x; intro k))) | clear_value x | skip)
    | with_reducible exact Keep.upd (by with_reducible assumption)
    | with_reducible apply Keep.load
    | with_reducible apply Keep.updHead
    | split

theorem Keep.sendReq {s0 : State} {s : State} {l : LoadAt} {x : BeaconLoad} {shard : Option Nat} {off len h : Nat} (h0 : Keep s0 s) : Keep s0 (State.sendReq s l x shard off len h) := by
  unfold State.sendReq
  repeat' first
    | with_reducible assumption
    | ((try lift_lets -underBinder); intro x; first | (refine Keep.cut (s := s0) (t := x) ?_ ?_; (on_goal 1 => (unfold x; clear x)); (on_goal 2 => (clear_value x; intro k))) | (refine Keep.cut (s := s0) (t := x.1) ?_ ?_; (on_goal 1 => (unfold x; clear x)); (on_goal 2 => (clear_value x; intro k))) | clear_value x | skip)
    | with_reducible exact Keep.upd (by with_reducible assumption)
    | with_reducible apply Keep.newTag
    | with_reducible apply Keep.sendMsg
    | with_reducible apply Keep.updLoad
    | with_reducible apply Keep.of_fst (by with_reducible assumption)
    | with_reducible refine Keep.upd (Keep.of_fst (by with_reducible assumption) ?_)
    | split

theorem Keep.failLoad {s0 : State} {s : State} {l : LoadAt} {code shard : Nat} (h0 : Keep s0 s) : Keep s0 (State.failLoad s l code shard) := by
  unfold State.failLoad
  repeat' first
    | with_reducible assumption
    | ((try lift_lets -underBinder); intro x; first | (refine Keep.cut (s := s0) (t := x) ?_ ?_; (on_goal 1 => (unfold x; clear x)); (on_goal 2 => (clear_value x; intro k))) | (refine Keep.cut (s := s0) (t := x.1) ?_ ?_; (on_goal 1 => (unfold x; clear x)); (on_goal 2 => (clear_value x; intro k))) | clear_value x | skip)
    | with_reducible exact Keep.upd (by with_reducible assumption)
    | with_reducible apply Keep.beaconErr
    | with_reducible apply Keep.endCmd
    | with_reducible apply Keep.pend
    | with_reducible apply Keep.showLoads
    | with_reducible apply Keep.updHead
    | split

theorem Keep.register {s0 : State} {s : State} {p : Nat} {x : BeaconLoad} (h0 : Keep s0 s) : Keep s0 (State.register s p x).1 := by
  unfold State.register
  repeat' first
    | with_reducible assumption
    | ((try lift_lets -underBinder); intro x; first | (refine Keep.cut (s := s0) (t := x) ?_ ?_; (on_goal 1 => (unfold x; clear x)); (on_goal 2 => (clear_value x; intro k))) | (refine Keep.cut (s := s0) (t := x.1) ?_ ?_; (on_goal 1 => (unfold x; clear x)); (on_goal 2 => (clear_value x; intro k))) | clear_value x | skip)
    | with_reducible exact Keep.upd (by with_reducible assumption)
    | with_reducible apply Keep.writeMem
    | with_reducible apply Keep.of_fst (by with_reducible assumption)
    | with_reducible refine Keep.upd (Keep.of_fst (by with_reducible assumption) ?_)
    | split

theorem Keep.endLoad {s0 : State} {s : State} {l : LoadAt} {x : BeaconLoad} (h0 : Keep s0 s) : Keep s0 (State.endLoad s l x) := by
  unfold State.endLoad
  repeat' first
    | with_reducible assumption
    | ((try lift_lets -underBinder); intro x; first | (refine Keep.cut (s := s0) (t := x) ?_ ?_; (on_goal 1 => (unfold x; clear x)); (on_goal 2 => (clear_value x; intro k))) | (refine Keep.cut (s := s0) (t := x.1) ?_ ?_; (on_goal 1 => (unfold x; clear x)); (on_goal 2 => (clear_value x; intro k))) | clear_value x | skip)
    | with_reducible exact Keep.upd (by with_reducible assumption)
    | with_reducible apply Keep.endCmd
    | with_reducible apply Keep.failLoad
    | with_reducible apply Keep.register
    | with_reducible apply Keep.showLoads
    | with_reducible apply Keep.of_fst (by with_reducible assumption)
    | with_reducible refine Keep.upd (Keep.of_fst (by with_reducible assumption) ?_)
    | split

theorem Keep.pump {s0 s : State} {l : LoadAt} {n : Nat} (h : Keep s0 s) : Keep s0 (s.pump l n) := by
  induction n generalizing s with
  | zero => exact h
  | succ n ih =>
    unfold State.pump
    repeat' first
      | with_reducible assumption
      | with_reducible apply Keep.endLoad
      | with_reducible apply Keep.failLoad
      | with_reducible apply ih
      | with_reducible apply Keep.updLoad
      | with_reducible apply Keep.sendReq
      | split

theorem Keep.skipPeer {s0 : State} {s : State} {n : Nat} (h0 : Keep s0 s) : Keep s0 (State.skipPeer s n) := by
  unfold State.skipPeer
  repeat' first
    | with_reducible assumption
    | intro _
    | with_reducible exact Keep.upd (by with_reducible assumption)
    | with_reducible apply Keep.foldl
    | with_reducible apply Keep.foldl_fst
    | with_reducible apply Keep.updLoad

theorem Keep.goOn {s0 : State} {s : State} {l : LoadAt} (h0 : Keep s0 s) : Keep s0 (State.goOn s l) := by
  unfold State.goOn
  repeat' first
    | with_reducible assumption
    | with_reducible apply Keep.pump

theorem Keep.askIndex {s0 : State} {s : State} {l : LoadAt} {from' : Nat} (h0 : Keep s0 s) : Keep s0 (State.askIndex s l from') := by
  unfold State.askIndex
  repeat' first
    | with_reducible assumption
    | ((try lift_lets -underBinder); intro x; first | (refine Keep.cut (s := s0) (t := x) ?_ ?_; (on_goal 1 => (unfold x; clear x)); (on_goal 2 => (clear_value x; intro k))) | (refine Keep.cut (s := s0) (t := x.1) ?_ ?_; (on_goal 1 => (unfold x; clear x)); (on_goal 2 => (clear_value x; intro k))) | clear_value x | skip)
    | with_reducible exact Keep.upd (by with_reducible assumption)
    | with_reducible apply Keep.failLoad
    | with_reducible apply Keep.sendReq
    | with_reducible apply Keep.updLoad
    | split

theorem Keep.failReq {s0 : State} {s : State} {l : LoadAt} {r : ShardReq} (h0 : Keep s0 s) : Keep s0 (State.failReq s l r) := by
  unfold State.failReq
  repeat' first
    | with_reducible assumption
    | ((try lift_lets -underBinder); intro x; first | (refine Keep.cut (s := s0) (t := x) ?_ ?_; (on_goal 1 => (unfold x; clear x)); (on_goal 2 => (clear_value x; intro k))) | (refine Keep.cut (s := s0) (t := x.1) ?_ ?_; (on_goal 1 => (unfold x; clear x)); (on_goal 2 => (clear_value x; intro k))) | clear_value x | skip)
    | with_reducible exact Keep.upd (by with_reducible assumption)
    | with_reducible apply Keep.askIndex
    | with_reducible apply Keep.failLoad
    | with_reducible apply Keep.sendReq
    | with_reducible apply Keep.updLoad
    | split

theorem Keep.indexPart {s0 : State} {s : State} {l : LoadAt} {x : BeaconLoad} {r : ShardReq} {b : Bytes} (h0 : Keep s0 s) : Keep s0 (State.indexPart s l x r b) := by
  unfold State.indexPart
  repeat' first
    | with_reducible assumption
    | ((try lift_lets -underBinder); intro x; first | (refine Keep.cut (s := s0) (t := x) ?_ ?_; (on_goal 1 => (unfold x; clear x)); (on_goal 2 => (clear_value x; intro k))) | (refine Keep.cut (s := s0) (t := x.1) ?_ ?_; (on_goal 1 => (unfold x; clear x)); (on_goal 2 => (clear_value x; intro k))) | clear_value x | skip)
    | intro _
    | with_reducible exact Keep.upd (by with_reducible assumption)
    | with_reducible apply Keep.updLoad
    | with_reducible apply Keep.sendReq
    | with_reducible apply Keep.goOn
    | with_reducible apply Keep.failReq
    | split

theorem Keep.clearShard {s0 : State} {s : State} {p a n : Nat} (h0 : Keep s0 s) : Keep s0 (State.clearShard s p a n) := by
  unfold State.clearShard
  repeat' first
    | with_reducible assumption
    | ((try lift_lets -underBinder); intro x; first | (refine Keep.cut (s := s0) (t := x) ?_ ?_; (on_goal 1 => (unfold x; clear x)); (on_goal 2 => (clear_value x; intro k))) | (refine Keep.cut (s := s0) (t := x.1) ?_ ?_; (on_goal 1 => (unfold x; clear x)); (on_goal 2 => (clear_value x; intro k))) | clear_value x | skip)
    | intro _
    | with_reducible exact Keep.upd (by with_reducible assumption)
    | with_reducible apply Keep.foldl
    | with_reducible apply Keep.foldl_fst
    | with_reducible apply Keep.updLine
    | with_reducible apply Keep.poison
    | split

theorem Keep.shardPart {s0 : State} {s : State} {l : LoadAt} {x : BeaconLoad} {r : ShardReq} {k : Nat} {b : Bytes} (h0 : Keep s0 s) : Keep s0 (State.shardPart s l x r k b) := by
  unfold State.shardPart
  repeat' first
    | with_reducible assumption
    | ((try lift_lets -underBinder); intro x; first | (refine Keep.cut (s := s0) (t := x) ?_ ?_; (on_goal 1 => (unfold x; clear x)); (on_goal 2 => (clear_value x; intro k))) | (refine Keep.cut (s := s0) (t := x.1) ?_ ?_; (on_goal 1 => (unfold x; clear x)); (on_goal 2 => (clear_value x; intro k))) | clear_value x | skip)
    | with_reducible exact Keep.upd (by with_reducible assumption)
    | with_reducible apply Keep.beaconCount
    | with_reducible apply Keep.clearShard
    | with_reducible apply Keep.failLoad
    | with_reducible apply Keep.failReq
    | with_reducible apply Keep.goOn
    | with_reducible apply Keep.updLoad
    | with_reducible apply Keep.writeMem
    | with_reducible apply Keep.of_fst (by with_reducible assumption)
    | with_reducible refine Keep.upd (Keep.of_fst (by with_reducible assumption) ?_)
    | split

theorem Keep.answer {s0 : State} {s : State} {num status : Nat} {b : Bytes} (h0 : Keep s0 s) : Keep s0 (State.answer s num status b) := by
  unfold State.answer
  repeat' first
    | with_reducible assumption
    | with_reducible exact Keep.upd (by with_reducible assumption)
    | with_reducible apply Keep.failReq
    | with_reducible apply Keep.indexPart
    | with_reducible apply Keep.shardPart
    | split

theorem Keep.execShardData {s0 : State} {port : Option PortIx} {num : Nat} {s : State} (h0 : Keep s0 s) : ResKeep s0 (Sys2Proof.Machine.execShardData port num s) := by
  unfold Sys2Proof.Machine.execShardData
  repeat' first
    | with_reducible assumption
    | intro _
    | with_reducible apply Keep.next
    | with_reducible exact Keep.upd (by with_reducible assumption)
    | with_reducible apply Keep.answer
    | with_reducible apply Keep.hubRead
    | with_reducible apply Keep.onMsg
    | with_reducible apply Keep.of_fst (by with_reducible assumption)
    | with_reducible refine Keep.upd (Keep.of_fst (by with_reducible assumption) ?_)
    | split

theorem Keep.execShardTimeout {s0 : State} {num : Nat} {s : State} (h0 : Keep s0 s) : ResKeep s0 (Sys2Proof.Machine.execShardTimeout num s) := by
  unfold Sys2Proof.Machine.execShardTimeout
  repeat' first
    | with_reducible assumption
    | ((try lift_lets -underBinder); intro x; first | (refine Keep.cut (s := s0) (t := x) ?_ ?_; (on_goal 1 => (unfold x; clear x)); (on_goal 2 => (clear_value x; intro k))) | (refine Keep.cut (s := s0) (t := x.1) ?_ ?_; (on_goal 1 => (unfold x; clear x)); (on_goal 2 => (clear_value x; intro k))) | clear_value x | skip)
    | with_reducible apply Keep.next
    | with_reducible exact Keep.upd (by with_reducible assumption)
    | with_reducible apply Keep.beaconCount
    | with_reducible apply Keep.failReq
    | with_reducible apply Keep.updLoad
    | split

theorem Keep.execBeaconLoad {s0 : State} {q : QueueIx} {s : State} (h0 : Keep s0 s) : ResKeep s0 (Sys2Proof.Machine.execBeaconLoad q s) := by
  unfold Sys2Proof.Machine.execBeaconLoad
  repeat' first
    | with_reducible assumption
    | ((try lift_lets -underBinder); intro x; first | (refine Keep.cut (s := s0) (t := x) ?_ ?_; (on_goal 1 => (unfold x; clear x)); (on_goal 2 => (clear_value x; intro k))) | (refine Keep.cut (s := s0) (t := x.1) ?_ ?_; (on_goal 1 => (unfold x; clear x)); (on_goal 2 => (clear_value x; intro k))) | clear_value x | skip)
    | intro _
    | with_reducible apply Keep.next
    | with_reducible exact Keep.upd (by with_reducible assumption)
    | with_reducible apply Keep.askIndex
    | with_reducible apply Keep.markWait
    | with_reducible apply Keep.updHead
    | with_reducible apply Keep.endCmd
    | with_reducible apply Keep.beginCmd
    | with_reducible apply Keep.tryStart
    | with_reducible apply Keep.showLoads
    | with_reducible apply Keep.load
    | split

theorem Keep.packEntry {s0 : State} {s : State} {id : Bytes} (h0 : Keep s0 s) : Keep s0 (State.packEntry s id).1 := by
  unfold State.packEntry
  repeat' first
    | with_reducible assumption
    | ((try lift_lets -underBinder); intro x; first | (refine Keep.cut (s := s0) (t := x) ?_ ?_; (on_goal 1 => (unfold x; clear x)); (on_goal 2 => (clear_value x; intro k))) | (refine Keep.cut (s := s0) (t := x.1) ?_ ?_; (on_goal 1 => (unfold x; clear x)); (on_goal 2 => (clear_value x; intro k))) | clear_value x | skip)
    | intro _
    | with_reducible exact Keep.upd (by with_reducible assumption)
    | with_reducible apply Keep.foldl
    | with_reducible apply Keep.foldl_fst
    | with_reducible apply Keep.hubRead
    | with_reducible apply Keep.of_fst (by with_reducible assumption)
    | with_reducible refine Keep.upd (Keep.of_fst (by with_reducible assumption) ?_)
    | split

theorem Keep.noShard {s0 : State} {s : State} {n : Nat} {m : LinkMsg} (h0 : Keep s0 s) : Keep s0 (State.noShard s n m) := by
  unfold State.noShard
  repeat' first
    | with_reducible assumption
    | with_reducible apply Keep.sendMsg

theorem Keep.execShardReq {s0 : State} {port : PortIx} {s : State} (h0 : Keep s0 s) : ResKeep s0 (Sys2Proof.Machine.execShardReq port s) := by
  unfold Sys2Proof.Machine.execShardReq
  repeat' first
    | with_reducible assumption
    | intro _
    | with_reducible apply Keep.next
    | with_reducible exact Keep.upd (by with_reducible assumption)
    | with_reducible apply Keep.beaconCount
    | with_reducible apply Keep.packEntry
    | with_reducible apply Keep.noShard
    | with_reducible apply Keep.sendMsg
    | with_reducible apply Keep.onMsg
    | with_reducible apply Keep.hubRead
    | with_reducible apply Keep.of_fst (by with_reducible assumption)
    | with_reducible refine Keep.upd (Keep.of_fst (by with_reducible assumption) ?_)
    | split

theorem Keep.execHashLapStart {s0 : State} {s : State} (h0 : Keep s0 s) : ResKeep s0 (Sys2Proof.Machine.execHashLapStart s) := by
  unfold Sys2Proof.Machine.execHashLapStart
  repeat' first
    | with_reducible assumption
    | ((try lift_lets -underBinder); intro x; first | (refine Keep.cut (s := s0) (t := x) ?_ ?_; (on_goal 1 => (unfold x; clear x)); (on_goal 2 => (clear_value x; intro k))) | (refine Keep.cut (s := s0) (t := x.1) ?_ ?_; (on_goal 1 => (unfold x; clear x)); (on_goal 2 => (clear_value x; intro k))) | clear_value x | skip)
    | with_reducible apply Keep.next
    | with_reducible exact Keep.upd (by with_reducible assumption)
    | with_reducible apply Keep.set
    | split

theorem Keep.endLap {s0 : State} {s : State} (h0 : Keep s0 s) : Keep s0 (State.endLap s) := by
  unfold State.endLap
  repeat' first
    | with_reducible assumption
    | ((try lift_lets -underBinder); intro x; first | (refine Keep.cut (s := s0) (t := x) ?_ ?_; (on_goal 1 => (unfold x; clear x)); (on_goal 2 => (clear_value x; intro k))) | (refine Keep.cut (s := s0) (t := x.1) ?_ ?_; (on_goal 1 => (unfold x; clear x)); (on_goal 2 => (clear_value x; intro k))) | clear_value x | skip)
    | with_reducible exact Keep.upd (by with_reducible assumption)
    | with_reducible apply Keep.set
    | with_reducible apply Keep.tick
    | split

theorem Keep.poisonShard {s0 : State} {s : State} {g : RegShard} {a : Nat} (h0 : Keep s0 s) : Keep s0 (State.poisonShard s g a) := by
  unfold State.poisonShard
  repeat' first
    | with_reducible assumption
    | ((try lift_lets -underBinder); intro x; first | (refine Keep.cut (s := s0) (t := x) ?_ ?_; (on_goal 1 => (unfold x; clear x)); (on_goal 2 => (clear_value x; intro k))) | (refine Keep.cut (s := s0) (t := x.1) ?_ ?_; (on_goal 1 => (unfold x; clear x)); (on_goal 2 => (clear_value x; intro k))) | clear_value x | skip)
    | intro _
    | with_reducible exact Keep.upd (by with_reducible assumption)
    | with_reducible apply Keep.foldl
    | with_reducible apply Keep.foldl_fst
    | with_reducible apply Keep.beaconCount
    | with_reducible apply Keep.beaconErr
    | with_reducible apply Keep.poison
    | with_reducible apply Keep.pend
    | with_reducible apply Keep.load
    | split

theorem Keep.dropShard {s0 : State} {s : State} {ids : List Nat} {id : Nat} (h0 : Keep s0 s) : Keep s0 (State.dropShard s ids id) := by
  unfold State.dropShard
  repeat' first
    | with_reducible assumption
    | ((try lift_lets -underBinder); intro x; first | (refine Keep.cut (s := s0) (t := x) ?_ ?_; (on_goal 1 => (unfold x; clear x)); (on_goal 2 => (clear_value x; intro k))) | (refine Keep.cut (s := s0) (t := x.1) ?_ ?_; (on_goal 1 => (unfold x; clear x)); (on_goal 2 => (clear_value x; intro k))) | clear_value x | skip)
    | with_reducible exact Keep.upd (by with_reducible assumption)
    | with_reducible apply Keep.endLap
    | split

theorem Keep.meetRange {s0 : State} {s : State} {p : Nat} {uses : List (Nat × Nat)} {a n : Nat} {met : List (Word × LineFault)} (h0 : Keep s0 s) : Keep s0 (State.meetRange s p uses a n met) := by
  unfold State.meetRange
  repeat' first
    | with_reducible assumption
    | intro _
    | with_reducible exact Keep.upd (by with_reducible assumption)
    | with_reducible apply Keep.foldl
    | with_reducible apply Keep.foldl_fst
    | with_reducible apply Keep.strike
    | split

theorem Keep.rehash {s0 : State} {s : State} {g : RegShard} {a d : Nat} {met : List (Word × LineFault)} (h0 : Keep s0 s) : Keep s0 (State.rehash s g a d met) := by
  unfold State.rehash
  repeat' first
    | with_reducible assumption
    | ((try lift_lets -underBinder); intro x; first | (refine Keep.cut (s := s0) (t := x) ?_ ?_; (on_goal 1 => (unfold x; clear x)); (on_goal 2 => (clear_value x; intro k))) | (refine Keep.cut (s := s0) (t := x.1) ?_ ?_; (on_goal 1 => (unfold x; clear x)); (on_goal 2 => (clear_value x; intro k))) | clear_value x | skip)
    | with_reducible exact Keep.upd (by with_reducible assumption)
    | with_reducible apply Keep.beaconCount
    | with_reducible apply Keep.poisonShard
    | with_reducible apply Keep.meetRange
    | with_reducible apply Keep.readMem
    | with_reducible apply Keep.of_fst (by with_reducible assumption)
    | with_reducible refine Keep.upd (Keep.of_fst (by with_reducible assumption) ?_)
    | split

theorem Keep.execRehashShard {s0 : State} {visit : ShardVisit} {s : State} (h0 : Keep s0 s) : ResKeep s0 (Sys2Proof.Machine.execRehashShard visit s) := by
  unfold Sys2Proof.Machine.execRehashShard
  repeat' first
    | with_reducible assumption
    | ((try lift_lets -underBinder); intro x; first | (refine Keep.cut (s := s0) (t := x) ?_ ?_; (on_goal 1 => (unfold x; clear x)); (on_goal 2 => (clear_value x; intro k))) | (refine Keep.cut (s := s0) (t := x.1) ?_ ?_; (on_goal 1 => (unfold x; clear x)); (on_goal 2 => (clear_value x; intro k))) | clear_value x | skip)
    | intro _
    | with_reducible apply Keep.next
    | with_reducible exact Keep.upd (by with_reducible assumption)
    | with_reducible apply Keep.dropShard
    | with_reducible apply Keep.rehash
    | split

theorem Keep.execShardRefetch {s0 : State} {p : PartIx} {s : State} (h0 : Keep s0 s) : ResKeep s0 (Sys2Proof.Machine.execShardRefetch p s) := by
  unfold Sys2Proof.Machine.execShardRefetch
  repeat' first
    | with_reducible assumption
    | ((try lift_lets -underBinder); intro x; first | (refine Keep.cut (s := s0) (t := x) ?_ ?_; (on_goal 1 => (unfold x; clear x)); (on_goal 2 => (clear_value x; intro k))) | (refine Keep.cut (s := s0) (t := x.1) ?_ ?_; (on_goal 1 => (unfold x; clear x)); (on_goal 2 => (clear_value x; intro k))) | clear_value x | skip)
    | intro _
    | with_reducible apply Keep.next
    | with_reducible exact Keep.upd (by with_reducible assumption)
    | with_reducible apply Keep.goOn
    | split

theorem Keep.execBeaconCntClear {s0 : State} {s : State} (h0 : Keep s0 s) : ResKeep s0 (Sys2Proof.Machine.execBeaconCntClear s) := by
  unfold Sys2Proof.Machine.execBeaconCntClear
  repeat' first
    | with_reducible assumption
    | intro _
    | with_reducible apply Keep.next
    | with_reducible apply Keep.cxlIo
    | with_reducible apply Keep.cntClear

end Sys2Proof.Machine
end

