-- ==== Sys2Proof/Laws/KeepCube.lean ====
section
/-!
SUPPORT. What the operations of Machine/Cube.lean keep (Laws/Keep.lean).
-/

set_option linter.unusedTactic false
set_option linter.unreachableTactic false

namespace Sys2Proof.Machine

theorem Keep.startUnit {s0 : State} {s : State} {t : Nat} {u : UnitKind} {c : UCmd} {stream blocks : Nat} (h0 : Keep s0 s) : Keep s0 (State.startUnit s t u c stream blocks) := by
  unfold State.startUnit
  repeat' first
    | with_reducible assumption
    | ((try lift_lets -underBinder); intro x; first | (refine Keep.cut (s := s0) (t := x) ?_ ?_; (on_goal 1 => (unfold x; clear x)); (on_goal 2 => (clear_value x; intro k))) | (refine Keep.cut (s := s0) (t := x.1) ?_ ?_; (on_goal 1 => (unfold x; clear x)); (on_goal 2 => (clear_value x; intro k))) | clear_value x | skip)
    | intro _
    | with_reducible exact Keep.upd (by with_reducible assumption)
    | with_reducible apply Keep.tick
    | with_reducible apply Keep.updTile
    | split

theorem Keep.closeUnit {s0 : State} {s : State} {t : Nat} {u : UnitKind} {c : UCmd} {sat nan : Bool} (h0 : Keep s0 s) : Keep s0 (State.closeUnit s t u c sat nan) := by
  unfold State.closeUnit
  repeat' first
    | with_reducible assumption
    | ((try lift_lets -underBinder); intro x; first | (refine Keep.cut (s := s0) (t := x) ?_ ?_; (on_goal 1 => (unfold x; clear x)); (on_goal 2 => (clear_value x; intro k))) | (refine Keep.cut (s := s0) (t := x.1) ?_ ?_; (on_goal 1 => (unfold x; clear x)); (on_goal 2 => (clear_value x; intro k))) | clear_value x | skip)
    | intro _
    | with_reducible exact Keep.upd (by with_reducible assumption)
    | with_reducible apply Keep.updTile
    | with_reducible apply Keep.tileExc
    | split

theorem Keep.present {s0 : State} {s : State} {t p ch : Nat} {u : UnitKind} {c : UCmd} {flits : List Flit} {sat nan : Bool} (h0 : Keep s0 s) : Keep s0 (State.present s t p ch u c flits sat nan) := by
  unfold State.present
  repeat' first
    | with_reducible assumption
    | ((try lift_lets -underBinder); intro x; first | (refine Keep.cut (s := s0) (t := x) ?_ ?_; (on_goal 1 => (unfold x; clear x)); (on_goal 2 => (clear_value x; intro k))) | (refine Keep.cut (s := s0) (t := x.1) ?_ ?_; (on_goal 1 => (unfold x; clear x)); (on_goal 2 => (clear_value x; intro k))) | clear_value x | skip)
    | intro _
    | with_reducible exact Keep.upd (by with_reducible assumption)
    | with_reducible apply Keep.updTile
    | with_reducible apply Keep.updStream

theorem Keep.endUnit {s0 : State} {s : State} {t : Nat} {u : UnitKind} {c : UCmd} {strm : Bytes} {last sat nan : Bool} (h0 : Keep s0 s) : Keep s0 (State.endUnit s t u c strm last sat nan) := by
  unfold State.endUnit
  repeat' first
    | with_reducible assumption
    | with_reducible exact Keep.upd (by with_reducible assumption)
    | with_reducible apply Keep.closeUnit
    | with_reducible apply Keep.present
    | split

theorem Keep.closeSent {s0 : State} {s : State} {t : Nat} {u : UnitKind} {c : UCmd} (h0 : Keep s0 s) : Keep s0 (State.closeSent s t u c) := by
  unfold State.closeSent
  repeat' first
    | with_reducible assumption
    | with_reducible apply Keep.closeUnit
    | split

theorem Keep.execCubeCommandStart {s0 : State} {t : TileIx} {s : State} (h0 : Keep s0 s) : ResKeep s0 (Sys2Proof.Machine.execCubeCommandStart t s) := by
  unfold Sys2Proof.Machine.execCubeCommandStart
  repeat' first
    | with_reducible assumption
    | ((try lift_lets -underBinder); intro x; first | (refine Keep.cut (s := s0) (t := x) ?_ ?_; (on_goal 1 => (unfold x; clear x)); (on_goal 2 => (clear_value x; intro k))) | (refine Keep.cut (s := s0) (t := x.1) ?_ ?_; (on_goal 1 => (unfold x; clear x)); (on_goal 2 => (clear_value x; intro k))) | clear_value x | skip)
    | intro _
    | with_reducible apply Keep.next
    | with_reducible exact Keep.upd (by with_reducible assumption)
    | with_reducible apply Keep.startUnit
    | split

theorem Keep.execCubeCommandDone {s0 : State} {t : TileIx} {ue : Bool} {s : State} (h0 : Keep s0 s) : ResKeep s0 (Sys2Proof.Machine.execCubeCommandDone t ue s) := by
  unfold Sys2Proof.Machine.execCubeCommandDone
  repeat' first
    | with_reducible assumption
    | ((try lift_lets -underBinder); intro x; first | (refine Keep.cut (s := s0) (t := x) ?_ ?_; (on_goal 1 => (unfold x; clear x)); (on_goal 2 => (clear_value x; intro k))) | (refine Keep.cut (s := s0) (t := x.1) ?_ ?_; (on_goal 1 => (unfold x; clear x)); (on_goal 2 => (clear_value x; intro k))) | clear_value x | skip)
    | with_reducible apply Keep.next
    | with_reducible exact Keep.upd (by with_reducible assumption)
    | with_reducible apply Keep.endUnit
    | with_reducible apply Keep.closeSent
    | with_reducible apply Keep.setTile
    | with_reducible apply Keep.tileUe
    | split

end Sys2Proof.Machine
end

