-- ==== Sys2Proof/Laws/KeepSubmit.lean ====
section
/-!
SUPPORT. What the operations of Machine/Submit.lean keep (Laws/Keep.lean).
-/

set_option linter.unusedTactic false
set_option linter.unreachableTactic false

namespace Sys2Proof.Machine

theorem Keep.memObj {s0 : State} {s : State} {a : Nat} (h0 : Keep s0 s) : Keep s0 (State.memObj s a).1 := by
  unfold State.memObj
  repeat' first
    | with_reducible assumption
    | ((try lift_lets -underBinder); intro x; first | (refine Keep.cut (s := s0) (t := x) ?_ ?_; (on_goal 1 => (unfold x; clear x)); (on_goal 2 => (clear_value x; intro k))) | (refine Keep.cut (s := s0) (t := x.1) ?_ ?_; (on_goal 1 => (unfold x; clear x)); (on_goal 2 => (clear_value x; intro k))) | clear_value x | skip)
    | with_reducible exact Keep.upd (by with_reducible assumption)
    | with_reducible apply Keep.hubRead
    | with_reducible apply Keep.of_fst (by with_reducible assumption)
    | with_reducible refine Keep.upd (Keep.of_fst (by with_reducible assumption) ?_)
    | split

theorem Keep.copyLines {s0 : State} {s : State} {p src dst n : Nat} (h0 : Keep s0 s) : Keep s0 (State.copyLines s p src dst n).1 := by
  unfold State.copyLines
  repeat' first
    | with_reducible assumption
    | ((try lift_lets -underBinder); intro x; first | (refine Keep.cut (s := s0) (t := x) ?_ ?_; (on_goal 1 => (unfold x; clear x)); (on_goal 2 => (clear_value x; intro k))) | (refine Keep.cut (s := s0) (t := x.1) ?_ ?_; (on_goal 1 => (unfold x; clear x)); (on_goal 2 => (clear_value x; intro k))) | clear_value x | skip)
    | intro _
    | with_reducible exact Keep.upd (by with_reducible assumption)
    | with_reducible apply Keep.foldl
    | with_reducible apply Keep.foldl_fst
    | with_reducible apply Keep.readMem
    | with_reducible apply Keep.writeMem
    | with_reducible apply Keep.tick
    | with_reducible apply Keep.of_fst (by with_reducible assumption)
    | with_reducible refine Keep.upd (Keep.of_fst (by with_reducible assumption) ?_)
    | split

theorem Keep.execCopyCmd {s0 : State} {q : QueueIx} {s : State} (h0 : Keep s0 s) : ResKeep s0 (Sys2Proof.Machine.execCopyCmd q s) := by
  unfold Sys2Proof.Machine.execCopyCmd
  repeat' first
    | with_reducible assumption
    | ((try lift_lets -underBinder); intro x; first | (refine Keep.cut (s := s0) (t := x) ?_ ?_; (on_goal 1 => (unfold x; clear x)); (on_goal 2 => (clear_value x; intro k))) | (refine Keep.cut (s := s0) (t := x.1) ?_ ?_; (on_goal 1 => (unfold x; clear x)); (on_goal 2 => (clear_value x; intro k))) | clear_value x | skip)
    | with_reducible apply Keep.next
    | with_reducible exact Keep.upd (by with_reducible assumption)
    | with_reducible apply Keep.beginCmd
    | with_reducible apply Keep.copyLines
    | with_reducible apply Keep.endCmd
    | with_reducible apply Keep.memObj
    | with_reducible apply Keep.tryStart
    | with_reducible apply Keep.of_fst (by with_reducible assumption)
    | with_reducible refine Keep.upd (Keep.of_fst (by with_reducible assumption) ?_)
    | split

theorem Keep.putSet {s0 : State} {s : State} {p g a : Nat} {l : List (Nat × Nat)} {b : Bytes} (h0 : Keep s0 s) : Keep s0 (State.putSet s p g a l b).1 := by
  unfold State.putSet
  repeat' first
    | with_reducible assumption
    | ((try lift_lets -underBinder); intro x; first | (refine Keep.cut (s := s0) (t := x) ?_ ?_; (on_goal 1 => (unfold x; clear x)); (on_goal 2 => (clear_value x; intro k))) | (refine Keep.cut (s := s0) (t := x.1) ?_ ?_; (on_goal 1 => (unfold x; clear x)); (on_goal 2 => (clear_value x; intro k))) | clear_value x | skip)
    | with_reducible exact Keep.upd (by with_reducible assumption)
    | with_reducible apply Keep.updPart
    | with_reducible apply Keep.writeMem
    | with_reducible apply Keep.of_fst (by with_reducible assumption)
    | with_reducible refine Keep.upd (Keep.of_fst (by with_reducible assumption) ?_)
    | split

theorem Keep.writeSet {s0 : State} {s : State} {p g : Nat} {l : List (Nat × Nat)} (h0 : Keep s0 s) : Keep s0 (State.writeSet s p g l).1 := by
  unfold State.writeSet
  repeat' first
    | with_reducible assumption
    | ((try lift_lets -underBinder); intro x; first | (refine Keep.cut (s := s0) (t := x) ?_ ?_; (on_goal 1 => (unfold x; clear x)); (on_goal 2 => (clear_value x; intro k))) | (refine Keep.cut (s := s0) (t := x.1) ?_ ?_; (on_goal 1 => (unfold x; clear x)); (on_goal 2 => (clear_value x; intro k))) | clear_value x | skip)
    | with_reducible exact Keep.upd (by with_reducible assumption)
    | with_reducible apply Keep.putSet
    | with_reducible apply Keep.of_fst (by with_reducible assumption)
    | with_reducible refine Keep.upd (Keep.of_fst (by with_reducible assumption) ?_)
    | split

theorem Keep.execSwitchSet {s0 : State} {q : QueueIx} {s : State} (h0 : Keep s0 s) : ResKeep s0 (Sys2Proof.Machine.execSwitchSet q s) := by
  unfold Sys2Proof.Machine.execSwitchSet
  repeat' first
    | with_reducible assumption
    | ((try lift_lets -underBinder); intro x; first | (refine Keep.cut (s := s0) (t := x) ?_ ?_; (on_goal 1 => (unfold x; clear x)); (on_goal 2 => (clear_value x; intro k))) | (refine Keep.cut (s := s0) (t := x.1) ?_ ?_; (on_goal 1 => (unfold x; clear x)); (on_goal 2 => (clear_value x; intro k))) | clear_value x | skip)
    | with_reducible apply Keep.next
    | with_reducible exact Keep.upd (by with_reducible assumption)
    | with_reducible apply Keep.beginCmd
    | with_reducible apply Keep.endCmd
    | with_reducible apply Keep.holdBack
    | with_reducible apply Keep.hubRead
    | with_reducible apply Keep.tryStart
    | with_reducible apply Keep.updPart
    | with_reducible apply Keep.writeSet
    | with_reducible apply Keep.of_fst (by with_reducible assumption)
    | with_reducible refine Keep.upd (Keep.of_fst (by with_reducible assumption) ?_)
    | split

theorem Keep.snapTensors {s0 : State} {s : State} {p : Nat} {o : SnapOp} (h0 : Keep s0 s) : Keep s0 (State.snapTensors s p o).1 := by
  unfold State.snapTensors
  repeat' first
    | with_reducible assumption
    | ((try lift_lets -underBinder); intro x; first | (refine Keep.cut (s := s0) (t := x) ?_ ?_; (on_goal 1 => (unfold x; clear x)); (on_goal 2 => (clear_value x; intro k))) | (refine Keep.cut (s := s0) (t := x.1) ?_ ?_; (on_goal 1 => (unfold x; clear x)); (on_goal 2 => (clear_value x; intro k))) | clear_value x | skip)
    | with_reducible exact Keep.upd (by with_reducible assumption)
    | with_reducible apply Keep.hubRead
    | with_reducible apply Keep.of_fst (by with_reducible assumption)
    | with_reducible refine Keep.upd (Keep.of_fst (by with_reducible assumption) ?_)
    | split

theorem Keep.execSnapshotCmd {s0 : State} {q : QueueIx} {s : State} (h0 : Keep s0 s) : ResKeep s0 (Sys2Proof.Machine.execSnapshotCmd q s) := by
  unfold Sys2Proof.Machine.execSnapshotCmd
  repeat' first
    | with_reducible assumption
    | ((try lift_lets -underBinder); intro x; first | (refine Keep.cut (s := s0) (t := x) ?_ ?_; (on_goal 1 => (unfold x; clear x)); (on_goal 2 => (clear_value x; intro k))) | (refine Keep.cut (s := s0) (t := x.1) ?_ ?_; (on_goal 1 => (unfold x; clear x)); (on_goal 2 => (clear_value x; intro k))) | clear_value x | skip)
    | intro _
    | with_reducible apply Keep.next
    | with_reducible exact Keep.upd (by with_reducible assumption)
    | with_reducible apply Keep.updHead
    | with_reducible apply Keep.endCmd
    | with_reducible apply Keep.beginCmd
    | with_reducible apply Keep.tryStart
    | with_reducible apply Keep.holdBack
    | with_reducible apply Keep.snapTensors
    | with_reducible apply Keep.of_fst (by with_reducible assumption)
    | with_reducible refine Keep.upd (Keep.of_fst (by with_reducible assumption) ?_)
    | split

theorem Keep.writePieces {s0 : State} {s : State} {m space : Nat} {uses : List (Nat × Nat)} {l : List (Nat × Bytes)} (h0 : Keep s0 s) : Keep s0 (State.writePieces s m space uses l).1 := by
  unfold State.writePieces
  repeat' first
    | with_reducible assumption
    | intro _
    | with_reducible exact Keep.upd (by with_reducible assumption)
    | with_reducible apply Keep.foldl
    | with_reducible apply Keep.foldl_fst
    | with_reducible apply Keep.writeMem
    | with_reducible apply Keep.of_fst (by with_reducible assumption)
    | with_reducible refine Keep.upd (Keep.of_fst (by with_reducible assumption) ?_)
    | split

theorem Keep.snapRead {s0 : State} {s : State} {p gen : Nat} {o : SnapOp} {ts : List Tensor} (h0 : Keep s0 s) : Keep s0 (State.snapRead s p gen o ts).1 := by
  unfold State.snapRead
  repeat' first
    | with_reducible assumption
    | ((try lift_lets -underBinder); intro x; first | (refine Keep.cut (s := s0) (t := x) ?_ ?_; (on_goal 1 => (unfold x; clear x)); (on_goal 2 => (clear_value x; intro k))) | (refine Keep.cut (s := s0) (t := x.1) ?_ ?_; (on_goal 1 => (unfold x; clear x)); (on_goal 2 => (clear_value x; intro k))) | clear_value x | skip)
    | intro _
    | with_reducible exact Keep.upd (by with_reducible assumption)
    | with_reducible apply Keep.foldl
    | with_reducible apply Keep.foldl_fst
    | with_reducible apply Keep.readMem
    | with_reducible apply Keep.writePieces
    | with_reducible apply Keep.of_fst (by with_reducible assumption)
    | with_reducible refine Keep.upd (Keep.of_fst (by with_reducible assumption) ?_)
    | split

theorem Keep.exportUnits {s0 : State} {s : State} {p gen : Nat} {o : SnapOp} {fin : Nat} (h0 : Keep s0 s) : Keep s0 (State.exportUnits s p gen o fin).1 := by
  unfold State.exportUnits
  repeat' first
    | with_reducible assumption
    | ((try lift_lets -underBinder); intro x; first | (refine Keep.cut (s := s0) (t := x) ?_ ?_; (on_goal 1 => (unfold x; clear x)); (on_goal 2 => (clear_value x; intro k))) | (refine Keep.cut (s := s0) (t := x.1) ?_ ?_; (on_goal 1 => (unfold x; clear x)); (on_goal 2 => (clear_value x; intro k))) | clear_value x | skip)
    | intro _
    | with_reducible exact Keep.upd (by with_reducible assumption)
    | with_reducible apply Keep.foldl
    | with_reducible apply Keep.foldl_fst
    | with_reducible apply Keep.readMem
    | with_reducible apply Keep.of_fst (by with_reducible assumption)
    | with_reducible refine Keep.upd (Keep.of_fst (by with_reducible assumption) ?_)
    | split

theorem Keep.execSnapshotReadDone {s0 : State} {q : QueueIx} {s : State} (h0 : Keep s0 s) : ResKeep s0 (Sys2Proof.Machine.execSnapshotReadDone q s) := by
  unfold Sys2Proof.Machine.execSnapshotReadDone
  repeat' first
    | with_reducible assumption
    | ((try lift_lets -underBinder); intro x; first | (refine Keep.cut (s := s0) (t := x) ?_ ?_; (on_goal 1 => (unfold x; clear x)); (on_goal 2 => (clear_value x; intro k))) | (refine Keep.cut (s := s0) (t := x.1) ?_ ?_; (on_goal 1 => (unfold x; clear x)); (on_goal 2 => (clear_value x; intro k))) | clear_value x | skip)
    | intro _
    | with_reducible apply Keep.next
    | with_reducible exact Keep.upd (by with_reducible assumption)
    | with_reducible apply Keep.foldl
    | with_reducible apply Keep.foldl_fst
    | with_reducible apply Keep.sendMsg
    | with_reducible apply Keep.newTag
    | with_reducible apply Keep.updHead
    | with_reducible apply Keep.endCmd
    | with_reducible apply Keep.snapTensors
    | with_reducible apply Keep.snapRead
    | with_reducible apply Keep.exportUnits
    | with_reducible apply Keep.of_fst (by with_reducible assumption)
    | with_reducible refine Keep.upd (Keep.of_fst (by with_reducible assumption) ?_)
    | split

theorem Keep.sendExport {s0 : State} {s : State} {q : Nat} (h0 : Keep s0 s) : Keep s0 (State.sendExport s q) := by
  unfold State.sendExport
  repeat' first
    | with_reducible assumption
    | ((try lift_lets -underBinder); intro x; first | (refine Keep.cut (s := s0) (t := x) ?_ ?_; (on_goal 1 => (unfold x; clear x)); (on_goal 2 => (clear_value x; intro k))) | (refine Keep.cut (s := s0) (t := x.1) ?_ ?_; (on_goal 1 => (unfold x; clear x)); (on_goal 2 => (clear_value x; intro k))) | clear_value x | skip)
    | intro _
    | with_reducible exact Keep.upd (by with_reducible assumption)
    | with_reducible apply Keep.endCmd
    | with_reducible apply Keep.snapTensors
    | with_reducible apply Keep.writePieces
    | with_reducible apply Keep.exportUnits
    | with_reducible apply Keep.of_fst (by with_reducible assumption)
    | with_reducible refine Keep.upd (Keep.of_fst (by with_reducible assumption) ?_)
    | split

theorem Keep.endSends {s0 : State} {s : State} {p code : Nat} (h0 : Keep s0 s) : Keep s0 (State.endSends s p code) := by
  unfold State.endSends
  repeat' first
    | with_reducible assumption
    | intro _
    | with_reducible exact Keep.upd (by with_reducible assumption)
    | with_reducible apply Keep.foldl
    | with_reducible apply Keep.foldl_fst
    | with_reducible apply Keep.endCmd
    | split

theorem Keep.ingressUnit {s0 : State} {s : State} {key off : Nat} {b : Bytes} (h0 : Keep s0 s) : Keep s0 (State.ingressUnit s key off b).1 := by
  unfold State.ingressUnit
  repeat' first
    | with_reducible assumption
    | intro _
    | with_reducible exact Keep.upd (by with_reducible assumption)
    | with_reducible apply Keep.writeMem
    | with_reducible apply Keep.of_fst (by with_reducible assumption)
    | with_reducible refine Keep.upd (Keep.of_fst (by with_reducible assumption) ?_)
    | split

theorem Keep.onMsgIf {s0 : State} {s : State} {port ty : Nat} {ok : LinkMsg → Bool} {f : Nat → LinkMsg → State → State} (h0 : Keep s0 s) (hf : ∀ x0 x1 t, Keep s0 t → Keep s0 (f x0 x1 t)) : Keep s0 (State.onMsgIf s port ty ok f) := by
  unfold State.onMsgIf
  repeat' first
    | with_reducible assumption
    | intro _
    | with_reducible exact Keep.upd (by with_reducible assumption)
    | with_reducible apply Keep.onMsg
    | with_reducible apply hf
    | with_reducible apply Keep.takeMsg (by with_reducible assumption)
    | split

theorem Keep.execSnapData {s0 : State} {port : PortIx} {s : State} (h0 : Keep s0 s) : ResKeep s0 (Sys2Proof.Machine.execSnapData port s) := by
  unfold Sys2Proof.Machine.execSnapData
  repeat' first
    | with_reducible assumption
    | ((try lift_lets -underBinder); intro x; first | (refine Keep.cut (s := s0) (t := x) ?_ ?_; (on_goal 1 => (unfold x; clear x)); (on_goal 2 => (clear_value x; intro k))) | (refine Keep.cut (s := s0) (t := x.1) ?_ ?_; (on_goal 1 => (unfold x; clear x)); (on_goal 2 => (clear_value x; intro k))) | clear_value x | skip)
    | with_reducible apply Keep.next
    | with_reducible exact Keep.upd (by with_reducible assumption)
    | with_reducible apply Keep.foldl
    | with_reducible apply Keep.foldl_fst
    | with_reducible apply Keep.ingressUnit
    | with_reducible apply Keep.onMsgIf
    | with_reducible apply Keep.sendMsg
    | with_reducible apply Keep.of_fst (by with_reducible assumption)
    | with_reducible refine Keep.upd (Keep.of_fst (by with_reducible assumption) ?_)
    | split

theorem Keep.execSnapDataReply {s0 : State} {port : PortIx} {s : State} (h0 : Keep s0 s) : ResKeep s0 (Sys2Proof.Machine.execSnapDataReply port s) := by
  unfold Sys2Proof.Machine.execSnapDataReply
  repeat' first
    | with_reducible assumption
    | intro _
    | with_reducible apply Keep.next
    | with_reducible exact Keep.upd (by with_reducible assumption)
    | with_reducible apply Keep.endCmd
    | with_reducible apply Keep.onMsgIf
    | split

theorem Keep.execSnapDataTimeout {s0 : State} {q : QueueIx} {s : State} (h0 : Keep s0 s) : ResKeep s0 (Sys2Proof.Machine.execSnapDataTimeout q s) := by
  unfold Sys2Proof.Machine.execSnapDataTimeout
  repeat' first
    | with_reducible assumption
    | with_reducible apply Keep.next
    | with_reducible exact Keep.upd (by with_reducible assumption)
    | with_reducible apply Keep.endCmd
    | split

theorem Keep.execCommandComplete {s0 : State} {q : QueueIx} {s : State} (h0 : Keep s0 s) : ResKeep s0 (Sys2Proof.Machine.execCommandComplete q s) := by
  unfold Sys2Proof.Machine.execCommandComplete
  repeat' first
    | with_reducible assumption
    | ((try lift_lets -underBinder); intro x; first | (refine Keep.cut (s := s0) (t := x) ?_ ?_; (on_goal 1 => (unfold x; clear x)); (on_goal 2 => (clear_value x; intro k))) | (refine Keep.cut (s := s0) (t := x.1) ?_ ?_; (on_goal 1 => (unfold x; clear x)); (on_goal 2 => (clear_value x; intro k))) | clear_value x | skip)
    | intro _
    | with_reducible apply Keep.next
    | with_reducible exact Keep.upd (by with_reducible assumption)
    | with_reducible apply Keep.setF
    | with_reducible apply Keep.setCmds
    | with_reducible apply Keep.showActive
    | with_reducible apply Keep.complete
    | with_reducible apply Keep.afterComplete
    | with_reducible apply Keep.completeStep
    | with_reducible apply Keep.sendExport
    | with_reducible apply Keep.of_fst (by with_reducible assumption)
    | with_reducible refine Keep.upd (Keep.of_fst (by with_reducible assumption) ?_)
    | split

end Sys2Proof.Machine
end

