-- ==== Sys2Proof/Laws/KeepCollectives.lean ====
section
/-!
SUPPORT. What the operations of Machine/Collectives.lean keep (Laws/Keep.lean).
-/

set_option linter.unusedTactic false
set_option linter.unreachableTactic false

namespace Sys2Proof.Machine

theorem Keep.updGroup {s0 : State} {s : State} {tag : Nat} {f : Group → Group} (h0 : Keep s0 s) : Keep s0 (State.updGroup s tag f) := by
  unfold State.updGroup
  repeat' first
    | with_reducible assumption
    | ((try lift_lets -underBinder); intro x; first | (refine Keep.cut (s := s0) (t := x) ?_ ?_; (on_goal 1 => (unfold x; clear x)); (on_goal 2 => (clear_value x; intro k))) | (refine Keep.cut (s := s0) (t := x.1) ?_ ?_; (on_goal 1 => (unfold x; clear x)); (on_goal 2 => (clear_value x; intro k))) | clear_value x | skip)
    | with_reducible exact Keep.upd (by with_reducible assumption)
    | split

theorem Keep.endGroupCmd {s0 : State} {s : State} {g : Group} {code : Nat} (h0 : Keep s0 s) : Keep s0 (State.endGroupCmd s g code) := by
  unfold State.endGroupCmd
  repeat' first
    | with_reducible assumption
    | intro _
    | with_reducible exact Keep.upd (by with_reducible assumption)
    | with_reducible apply Keep.endCmd
    | split

theorem Keep.readyGroup {s0 : State} {s : State} {tag : Nat} (h0 : Keep s0 s) : Keep s0 (State.readyGroup s tag) := by
  unfold State.readyGroup
  repeat' first
    | with_reducible assumption
    | ((try lift_lets -underBinder); intro x; first | (refine Keep.cut (s := s0) (t := x) ?_ ?_; (on_goal 1 => (unfold x; clear x)); (on_goal 2 => (clear_value x; intro k))) | (refine Keep.cut (s := s0) (t := x.1) ?_ ?_; (on_goal 1 => (unfold x; clear x)); (on_goal 2 => (clear_value x; intro k))) | clear_value x | skip)
    | with_reducible exact Keep.upd (by with_reducible assumption)
    | with_reducible apply Keep.endGroupCmd
    | with_reducible apply Keep.updGroup
    | split

theorem Keep.greet {s0 : State} {s : State} {g : Group} {n digest : Nat} (h0 : Keep s0 s) : Keep s0 (State.greet s g n digest) := by
  unfold State.greet
  repeat' first
    | with_reducible assumption
    | ((try lift_lets -underBinder); intro x; first | (refine Keep.cut (s := s0) (t := x) ?_ ?_; (on_goal 1 => (unfold x; clear x)); (on_goal 2 => (clear_value x; intro k))) | (refine Keep.cut (s := s0) (t := x.1) ?_ ?_; (on_goal 1 => (unfold x; clear x)); (on_goal 2 => (clear_value x; intro k))) | clear_value x | skip)
    | with_reducible exact Keep.upd (by with_reducible assumption)
    | with_reducible apply Keep.endGroupCmd
    | with_reducible apply Keep.readyGroup
    | with_reducible apply Keep.updGroup
    | split

theorem Keep.execGroupHello {s0 : State} {port : PortIx} {s : State} (h0 : Keep s0 s) : ResKeep s0 (Sys2Proof.Machine.execGroupHello port s) := by
  unfold Sys2Proof.Machine.execGroupHello
  repeat' first
    | with_reducible assumption
    | ((try lift_lets -underBinder); intro x; first | (refine Keep.cut (s := s0) (t := x) ?_ ?_; (on_goal 1 => (unfold x; clear x)); (on_goal 2 => (clear_value x; intro k))) | (refine Keep.cut (s := s0) (t := x.1) ?_ ?_; (on_goal 1 => (unfold x; clear x)); (on_goal 2 => (clear_value x; intro k))) | clear_value x | skip)
    | with_reducible apply Keep.next
    | with_reducible exact Keep.upd (by with_reducible assumption)
    | with_reducible apply Keep.greet
    | with_reducible apply Keep.onMsg
    | split

theorem Keep.defineGroup {s0 : State} {s : State} {ctx num tag : Nat} {l : List Nat} (h0 : Keep s0 s) : Keep s0 (State.defineGroup s ctx num tag l) := by
  unfold State.defineGroup
  repeat' first
    | with_reducible assumption
    | ((try lift_lets -underBinder); intro x; first | (refine Keep.cut (s := s0) (t := x) ?_ ?_; (on_goal 1 => (unfold x; clear x)); (on_goal 2 => (clear_value x; intro k))) | (refine Keep.cut (s := s0) (t := x.1) ?_ ?_; (on_goal 1 => (unfold x; clear x)); (on_goal 2 => (clear_value x; intro k))) | clear_value x | skip)
    | with_reducible exact Keep.upd (by with_reducible assumption)
    | with_reducible apply Keep.foldl
    | with_reducible apply Keep.foldl_fst
    | with_reducible apply Keep.greet
    | with_reducible apply Keep.readyGroup
    | with_reducible apply Keep.sendMsg
    | split

theorem Keep.execCollGroup {s0 : State} {q : QueueIx} {s : State} (h0 : Keep s0 s) : ResKeep s0 (Sys2Proof.Machine.execCollGroup q s) := by
  unfold Sys2Proof.Machine.execCollGroup
  repeat' first
    | with_reducible assumption
    | ((try lift_lets -underBinder); intro x; first | (refine Keep.cut (s := s0) (t := x) ?_ ?_; (on_goal 1 => (unfold x; clear x)); (on_goal 2 => (clear_value x; intro k))) | (refine Keep.cut (s := s0) (t := x.1) ?_ ?_; (on_goal 1 => (unfold x; clear x)); (on_goal 2 => (clear_value x; intro k))) | clear_value x | skip)
    | with_reducible apply Keep.next
    | with_reducible exact Keep.upd (by with_reducible assumption)
    | with_reducible apply Keep.beginCmd
    | with_reducible apply Keep.defineGroup
    | with_reducible apply Keep.endCmd
    | with_reducible apply Keep.hubRead
    | with_reducible apply Keep.tryStart
    | with_reducible apply Keep.updHead
    | with_reducible apply Keep.of_fst (by with_reducible assumption)
    | with_reducible refine Keep.upd (Keep.of_fst (by with_reducible assumption) ?_)
    | split

theorem Keep.showColl {s0 : State} {s : State} (h0 : Keep s0 s) : Keep s0 (State.showColl s) := by
  unfold State.showColl
  repeat' first
    | with_reducible assumption
    | ((try lift_lets -underBinder); intro x; first | (refine Keep.cut (s := s0) (t := x) ?_ ?_; (on_goal 1 => (unfold x; clear x)); (on_goal 2 => (clear_value x; intro k))) | (refine Keep.cut (s := s0) (t := x.1) ?_ ?_; (on_goal 1 => (unfold x; clear x)); (on_goal 2 => (clear_value x; intro k))) | clear_value x | skip)
    | with_reducible apply Keep.set

theorem Keep.updColl {s0 : State} {s : State} {t : Nat} {f : Coll → Coll} (h0 : Keep s0 s) : Keep s0 (State.updColl s t f) := by
  unfold State.updColl
  repeat' first
    | with_reducible assumption
    | ((try lift_lets -underBinder); intro x; first | (refine Keep.cut (s := s0) (t := x) ?_ ?_; (on_goal 1 => (unfold x; clear x)); (on_goal 2 => (clear_value x; intro k))) | (refine Keep.cut (s := s0) (t := x.1) ?_ ?_; (on_goal 1 => (unfold x; clear x)); (on_goal 2 => (clear_value x; intro k))) | clear_value x | skip)
    | with_reducible exact Keep.upd (by with_reducible assumption)
    | split

theorem Keep.dropColl {s0 : State} {s : State} {c : Coll} {code : Nat} (h0 : Keep s0 s) : Keep s0 (State.dropColl s c code) := by
  unfold State.dropColl
  repeat' first
    | with_reducible assumption
    | ((try lift_lets -underBinder); intro x; first | (refine Keep.cut (s := s0) (t := x) ?_ ?_; (on_goal 1 => (unfold x; clear x)); (on_goal 2 => (clear_value x; intro k))) | (refine Keep.cut (s := s0) (t := x.1) ?_ ?_; (on_goal 1 => (unfold x; clear x)); (on_goal 2 => (clear_value x; intro k))) | clear_value x | skip)
    | with_reducible exact Keep.upd (by with_reducible assumption)
    | with_reducible apply Keep.finishStep
    | with_reducible apply Keep.reply
    | with_reducible apply Keep.showColl

theorem Keep.failColl {s0 : State} {s : State} {c : Coll} {code : Nat} (h0 : Keep s0 s) : Keep s0 (State.failColl s c code) := by
  unfold State.failColl
  repeat' first
    | with_reducible assumption
    | with_reducible apply Keep.dropColl
    | with_reducible apply Keep.errCurrent
    | with_reducible apply Keep.set

theorem Keep.refuseColl {s0 : State} {s : State} {t ep code k : Nat} (h0 : Keep s0 s) : Keep s0 (State.refuseColl s t ep code k) := by
  unfold State.refuseColl
  repeat' first
    | with_reducible assumption
    | with_reducible apply Keep.reply
    | with_reducible apply Keep.set

theorem Keep.execCollectiveReq {s0 : State} {t : TileIx} {s : State} (h0 : Keep s0 s) : ResKeep s0 (Sys2Proof.Machine.execCollectiveReq t s) := by
  unfold Sys2Proof.Machine.execCollectiveReq
  repeat' first
    | with_reducible assumption
    | ((try lift_lets -underBinder); intro x; first | (refine Keep.cut (s := s0) (t := x) ?_ ?_; (on_goal 1 => (unfold x; clear x)); (on_goal 2 => (clear_value x; intro k))) | (refine Keep.cut (s := s0) (t := x.1) ?_ ?_; (on_goal 1 => (unfold x; clear x)); (on_goal 2 => (clear_value x; intro k))) | clear_value x | skip)
    | with_reducible apply Keep.next
    | with_reducible exact Keep.upd (by with_reducible assumption)
    | with_reducible apply Keep.refuseColl
    | with_reducible apply Keep.showColl
    | with_reducible apply Keep.tick
    | with_reducible apply Keep.updGroup
    | with_reducible apply Keep.takeRequest (by with_reducible assumption)
    | split

theorem Keep.sendColl {s0 : State} {s : State} {c : Coll} {g : Group} {peer phase off per : Nat} {b : Bytes} (h0 : Keep s0 s) : Keep s0 (State.sendColl s c g peer phase off per b) := by
  unfold State.sendColl
  repeat' first
    | with_reducible assumption
    | intro _
    | with_reducible apply Keep.foldl
    | with_reducible apply Keep.sendMsg

theorem Keep.beginColl {s0 : State} {s : State} {c : Coll} {g : Group} (h0 : Keep s0 s) : Keep s0 (State.beginColl s c g) := by
  unfold State.beginColl
  repeat' first
    | with_reducible assumption
    | ((try lift_lets -underBinder); intro x; first | (refine Keep.cut (s := s0) (t := x) ?_ ?_; (on_goal 1 => (unfold x; clear x)); (on_goal 2 => (clear_value x; intro k))) | (refine Keep.cut (s := s0) (t := x.1) ?_ ?_; (on_goal 1 => (unfold x; clear x)); (on_goal 2 => (clear_value x; intro k))) | clear_value x | skip)
    | with_reducible exact Keep.upd (by with_reducible assumption)
    | with_reducible apply Keep.foldl
    | with_reducible apply Keep.foldl_fst
    | with_reducible apply Keep.sendColl
    | with_reducible apply Keep.updColl
    | split

theorem Keep.reduceColl {s0 : State} {s : State} {c : Coll} {g : Group} (h0 : Keep s0 s) : Keep s0 (State.reduceColl s c g) := by
  unfold State.reduceColl
  repeat' first
    | with_reducible assumption
    | ((try lift_lets -underBinder); intro x; first | (refine Keep.cut (s := s0) (t := x) ?_ ?_; (on_goal 1 => (unfold x; clear x)); (on_goal 2 => (clear_value x; intro k))) | (refine Keep.cut (s := s0) (t := x.1) ?_ ?_; (on_goal 1 => (unfold x; clear x)); (on_goal 2 => (clear_value x; intro k))) | clear_value x | skip)
    | with_reducible exact Keep.upd (by with_reducible assumption)
    | with_reducible apply Keep.foldl
    | with_reducible apply Keep.foldl_fst
    | with_reducible apply Keep.sendColl
    | with_reducible apply Keep.updColl
    | split

theorem Keep.finishColl {s0 : State} {s : State} {c : Coll} {g : Group} (h0 : Keep s0 s) : Keep s0 (State.finishColl s c g) := by
  unfold State.finishColl
  repeat' first
    | with_reducible assumption
    | ((try lift_lets -underBinder); intro x; first | (refine Keep.cut (s := s0) (t := x) ?_ ?_; (on_goal 1 => (unfold x; clear x)); (on_goal 2 => (clear_value x; intro k))) | (refine Keep.cut (s := s0) (t := x.1) ?_ ?_; (on_goal 1 => (unfold x; clear x)); (on_goal 2 => (clear_value x; intro k))) | clear_value x | skip)
    | with_reducible exact Keep.upd (by with_reducible assumption)
    | with_reducible apply Keep.dropColl
    | with_reducible apply Keep.failColl
    | with_reducible apply Keep.tick
    | with_reducible apply Keep.updStream
    | with_reducible apply Keep.writeMem
    | with_reducible apply Keep.of_fst (by with_reducible assumption)
    | with_reducible refine Keep.upd (Keep.of_fst (by with_reducible assumption) ?_)
    | split

theorem Keep.onColl {s0 : State} {s : State} {t : Nat} {f : Coll → Group → State → State} (h0 : Keep s0 s) (hf : ∀ x0 x1 t, Keep s0 t → Keep s0 (f x0 x1 t)) : Keep s0 (State.onColl s t f) := by
  unfold State.onColl
  repeat' first
    | with_reducible assumption
    | intro _
    | with_reducible exact Keep.upd (by with_reducible assumption)
    | with_reducible apply hf
    | split

theorem Keep.settleColl {s0 : State} {s : State} {t : Nat} (h0 : Keep s0 s) : Keep s0 (State.settleColl s t) := by
  unfold State.settleColl
  repeat' first
    | with_reducible assumption
    | intro _
    | with_reducible apply Keep.finishColl
    | with_reducible apply Keep.onColl
    | with_reducible apply Keep.reduceColl

theorem Keep.takeColl {s0 : State} {s : State} {t : Nat} {m : LinkMsg} (h0 : Keep s0 s) : Keep s0 (State.takeColl s t m) := by
  unfold State.takeColl
  repeat' first
    | with_reducible assumption
    | intro _
    | with_reducible exact Keep.upd (by with_reducible assumption)
    | with_reducible apply Keep.failColl
    | with_reducible apply Keep.settleColl
    | with_reducible apply Keep.updColl
    | split

theorem Keep.loadColl {s0 : State} {s : State} {t : Nat} {b : Bytes} (h0 : Keep s0 s) : Keep s0 (State.loadColl s t b) := by
  unfold State.loadColl
  repeat' first
    | with_reducible assumption
    | ((try lift_lets -underBinder); intro x; first | (refine Keep.cut (s := s0) (t := x) ?_ ?_; (on_goal 1 => (unfold x; clear x)); (on_goal 2 => (clear_value x; intro k))) | (refine Keep.cut (s := s0) (t := x.1) ?_ ?_; (on_goal 1 => (unfold x; clear x)); (on_goal 2 => (clear_value x; intro k))) | clear_value x | skip)
    | with_reducible exact Keep.upd (by with_reducible assumption)
    | with_reducible apply Keep.foldl
    | with_reducible apply Keep.foldl_fst
    | with_reducible apply Keep.beginColl
    | with_reducible apply Keep.settleColl
    | with_reducible apply Keep.takeColl
    | with_reducible apply Keep.updColl
    | with_reducible apply Keep.of_fst (by with_reducible assumption)
    | split

theorem Keep.feedColl {s0 : State} {s : State} {t : Nat} (h0 : Keep s0 s) : Keep s0 (State.feedColl s t) := by
  unfold State.feedColl
  repeat' first
    | with_reducible assumption
    | ((try lift_lets -underBinder); intro x; first | (refine Keep.cut (s := s0) (t := x) ?_ ?_; (on_goal 1 => (unfold x; clear x)); (on_goal 2 => (clear_value x; intro k))) | (refine Keep.cut (s := s0) (t := x.1) ?_ ?_; (on_goal 1 => (unfold x; clear x)); (on_goal 2 => (clear_value x; intro k))) | clear_value x | skip)
    | with_reducible exact Keep.upd (by with_reducible assumption)
    | with_reducible apply Keep.loadColl
    | with_reducible apply Keep.updColl
    | with_reducible apply Keep.updStream
    | split

theorem Keep.execCollectiveStart {s0 : State} {s : State} (h0 : Keep s0 s) : ResKeep s0 (Sys2Proof.Machine.execCollectiveStart s) := by
  unfold Sys2Proof.Machine.execCollectiveStart
  repeat' first
    | with_reducible assumption
    | ((try lift_lets -underBinder); intro x; first | (refine Keep.cut (s := s0) (t := x) ?_ ?_; (on_goal 1 => (unfold x; clear x)); (on_goal 2 => (clear_value x; intro k))) | (refine Keep.cut (s := s0) (t := x.1) ?_ ?_; (on_goal 1 => (unfold x; clear x)); (on_goal 2 => (clear_value x; intro k))) | clear_value x | skip)
    | with_reducible apply Keep.next
    | with_reducible exact Keep.upd (by with_reducible assumption)
    | with_reducible apply Keep.failColl
    | with_reducible apply Keep.feedColl
    | with_reducible apply Keep.loadColl
    | with_reducible apply Keep.readMem
    | with_reducible apply Keep.showColl
    | with_reducible apply Keep.updColl
    | with_reducible apply Keep.of_fst (by with_reducible assumption)
    | with_reducible refine Keep.upd (Keep.of_fst (by with_reducible assumption) ?_)
    | split

theorem Keep.execCollData {s0 : State} {port : PortIx} {s : State} (h0 : Keep s0 s) : ResKeep s0 (Sys2Proof.Machine.execCollData port s) := by
  unfold Sys2Proof.Machine.execCollData
  repeat' first
    | with_reducible assumption
    | ((try lift_lets -underBinder); intro x; first | (refine Keep.cut (s := s0) (t := x) ?_ ?_; (on_goal 1 => (unfold x; clear x)); (on_goal 2 => (clear_value x; intro k))) | (refine Keep.cut (s := s0) (t := x.1) ?_ ?_; (on_goal 1 => (unfold x; clear x)); (on_goal 2 => (clear_value x; intro k))) | clear_value x | skip)
    | with_reducible apply Keep.next
    | with_reducible exact Keep.upd (by with_reducible assumption)
    | with_reducible apply Keep.onMsg
    | with_reducible apply Keep.takeColl
    | split

theorem Keep.execCollTimeout {s0 : State} {who : QueueIx ⊕ TileIx} {s : State} (h0 : Keep s0 s) : ResKeep s0 (Sys2Proof.Machine.execCollTimeout who s) := by
  unfold Sys2Proof.Machine.execCollTimeout
  repeat' first
    | with_reducible assumption
    | ((try lift_lets -underBinder); intro x; first | (refine Keep.cut (s := s0) (t := x) ?_ ?_; (on_goal 1 => (unfold x; clear x)); (on_goal 2 => (clear_value x; intro k))) | (refine Keep.cut (s := s0) (t := x.1) ?_ ?_; (on_goal 1 => (unfold x; clear x)); (on_goal 2 => (clear_value x; intro k))) | clear_value x | skip)
    | with_reducible apply Keep.next
    | with_reducible exact Keep.upd (by with_reducible assumption)
    | with_reducible apply Keep.endCmd
    | with_reducible apply Keep.failColl
    | split

theorem Keep.deleteGroup {s0 : State} {s : State} {g : Group} (h0 : Keep s0 s) : Keep s0 (State.deleteGroup s g) := by
  unfold State.deleteGroup
  repeat' first
    | with_reducible assumption
    | ((try lift_lets -underBinder); intro x; first | (refine Keep.cut (s := s0) (t := x) ?_ ?_; (on_goal 1 => (unfold x; clear x)); (on_goal 2 => (clear_value x; intro k))) | (refine Keep.cut (s := s0) (t := x.1) ?_ ?_; (on_goal 1 => (unfold x; clear x)); (on_goal 2 => (clear_value x; intro k))) | clear_value x | skip)
    | with_reducible exact Keep.upd (by with_reducible assumption)
    | with_reducible apply Keep.foldl
    | with_reducible apply Keep.sendMsg

theorem Keep.execCollGroupFree {s0 : State} {q : QueueIx} {s : State} (h0 : Keep s0 s) : ResKeep s0 (Sys2Proof.Machine.execCollGroupFree q s) := by
  unfold Sys2Proof.Machine.execCollGroupFree
  repeat' first
    | with_reducible assumption
    | ((try lift_lets -underBinder); intro x; first | (refine Keep.cut (s := s0) (t := x) ?_ ?_; (on_goal 1 => (unfold x; clear x)); (on_goal 2 => (clear_value x; intro k))) | (refine Keep.cut (s := s0) (t := x.1) ?_ ?_; (on_goal 1 => (unfold x; clear x)); (on_goal 2 => (clear_value x; intro k))) | clear_value x | skip)
    | with_reducible apply Keep.next
    | with_reducible exact Keep.upd (by with_reducible assumption)
    | with_reducible apply Keep.beginCmd
    | with_reducible apply Keep.deleteGroup
    | with_reducible apply Keep.endCmd
    | with_reducible apply Keep.tryStart
    | split

theorem Keep.failGroup {s0 : State} {s : State} {tag code : Nat} (h0 : Keep s0 s) : Keep s0 (State.failGroup s tag code) := by
  unfold State.failGroup
  repeat' first
    | with_reducible assumption
    | intro _
    | with_reducible apply Keep.foldl
    | with_reducible apply Keep.failColl

theorem Keep.execPeerNote {s0 : State} {port : PortIx} {s : State} (h0 : Keep s0 s) : ResKeep s0 (Sys2Proof.Machine.execPeerNote port s) := by
  unfold Sys2Proof.Machine.execPeerNote
  repeat' first
    | with_reducible assumption
    | ((try lift_lets -underBinder); intro x; first | (refine Keep.cut (s := s0) (t := x) ?_ ?_; (on_goal 1 => (unfold x; clear x)); (on_goal 2 => (clear_value x; intro k))) | (refine Keep.cut (s := s0) (t := x.1) ?_ ?_; (on_goal 1 => (unfold x; clear x)); (on_goal 2 => (clear_value x; intro k))) | clear_value x | skip)
    | with_reducible apply Keep.next
    | with_reducible exact Keep.upd (by with_reducible assumption)
    | with_reducible apply Keep.failGroup
    | with_reducible apply Keep.onMsg
    | with_reducible apply Keep.updGroup
    | split

theorem Keep.departGroups {s0 : State} {s : State} {n code : Nat} (h0 : Keep s0 s) : Keep s0 (State.departGroups s n code) := by
  unfold State.departGroups
  repeat' first
    | with_reducible assumption
    | ((try lift_lets -underBinder); intro x; first | (refine Keep.cut (s := s0) (t := x) ?_ ?_; (on_goal 1 => (unfold x; clear x)); (on_goal 2 => (clear_value x; intro k))) | (refine Keep.cut (s := s0) (t := x.1) ?_ ?_; (on_goal 1 => (unfold x; clear x)); (on_goal 2 => (clear_value x; intro k))) | clear_value x | skip)
    | with_reducible exact Keep.upd (by with_reducible assumption)
    | with_reducible apply Keep.foldl
    | with_reducible apply Keep.endGroupCmd
    | with_reducible apply Keep.failGroup
    | with_reducible apply Keep.updGroup
    | split

end Sys2Proof.Machine
end

