-- ==== Sys2Proof/Laws/KeepFabric.lean ====
section
/-!
SUPPORT. What the operations of Machine/Fabric.lean keep (Laws/Keep.lean).
-/

set_option linter.unusedTactic false
set_option linter.unreachableTactic false

namespace Sys2Proof.Machine

theorem Keep.place {s0 : State} {s : State} {p stream : Nat} {f : Flit} {d : Dest} (h0 : Keep s0 s) : Keep s0 (State.place s p stream f d) := by
  unfold State.place
  repeat' first
    | with_reducible assumption
    | ((try lift_lets -underBinder); intro x; first | (refine Keep.cut (s := s0) (t := x) ?_ ?_; (on_goal 1 => (unfold x; clear x)); (on_goal 2 => (clear_value x; intro k))) | (refine Keep.cut (s := s0) (t := x.1) ?_ ?_; (on_goal 1 => (unfold x; clear x)); (on_goal 2 => (clear_value x; intro k))) | clear_value x | skip)
    | with_reducible exact Keep.upd (by with_reducible assumption)
    | with_reducible apply Keep.updStream
    | with_reducible apply Keep.updTile
    | split

theorem Keep.fabricError {s0 : State} {s : State} {p : Nat} {f : Fld} {code : Nat} (h0 : Keep s0 s) : Keep s0 (State.fabricError s p f code) := by
  unfold State.fabricError
  repeat' first
    | with_reducible assumption
    | with_reducible apply Keep.set
    | with_reducible apply Keep.stopReport

theorem Keep.boundaryError {s0 : State} {s : State} {p : Nat} (h0 : Keep s0 s) : Keep s0 (State.boundaryError s p) := by
  unfold State.boundaryError
  repeat' first
    | with_reducible assumption
    | ((try lift_lets -underBinder); intro x; first | (refine Keep.cut (s := s0) (t := x) ?_ ?_; (on_goal 1 => (unfold x; clear x)); (on_goal 2 => (clear_value x; intro k))) | (refine Keep.cut (s := s0) (t := x.1) ?_ ?_; (on_goal 1 => (unfold x; clear x)); (on_goal 2 => (clear_value x; intro k))) | clear_value x | skip)
    | with_reducible apply Keep.addF
    | with_reducible apply Keep.fabricError
    | split

theorem Keep.feedAll {s0 : State} {s : State} {p : Nat} (h0 : Keep s0 s) : Keep s0 (State.feedAll s p) := by
  unfold State.feedAll
  repeat' first
    | with_reducible assumption
    | intro _
    | with_reducible apply Keep.foldl
    | with_reducible apply Keep.feedColl

theorem Keep.countStalls {s0 : State} {s : State} {p : Nat} (h0 : Keep s0 s) : Keep s0 (State.countStalls s p) := by
  unfold State.countStalls
  repeat' first
    | with_reducible assumption
    | ((try lift_lets -underBinder); intro x; first | (refine Keep.cut (s := s0) (t := x) ?_ ?_; (on_goal 1 => (unfold x; clear x)); (on_goal 2 => (clear_value x; intro k))) | (refine Keep.cut (s := s0) (t := x.1) ?_ ?_; (on_goal 1 => (unfold x; clear x)); (on_goal 2 => (clear_value x; intro k))) | clear_value x | skip)
    | intro _
    | with_reducible exact Keep.upd (by with_reducible assumption)
    | with_reducible apply Keep.addF
    | with_reducible apply Keep.tick
    | split

theorem Keep.crossFlit {s0 : State} {s : State} {p : Nat} {eds : List Nat} {f : Flit} (h0 : Keep s0 s) : Keep s0 (State.crossFlit s p eds f) := by
  unfold State.crossFlit
  repeat' first
    | with_reducible assumption
    | ((try lift_lets -underBinder); intro x; first | (refine Keep.cut (s := s0) (t := x) ?_ ?_; (on_goal 1 => (unfold x; clear x)); (on_goal 2 => (clear_value x; intro k))) | (refine Keep.cut (s := s0) (t := x.1) ?_ ?_; (on_goal 1 => (unfold x; clear x)); (on_goal 2 => (clear_value x; intro k))) | clear_value x | skip)
    | intro _
    | with_reducible apply Keep.foldl
    | with_reducible apply Keep.foldl_fst
    | with_reducible apply Keep.addF
    | with_reducible apply Keep.carry
    | split

theorem Keep.execStreamFlitSend {s0 : State} {p : PartIx} {stream : Fin 4096} {branch : Fin 16} {hop : Fin 128} {fault : NetFault} {s : State} (h0 : Keep s0 s) : ResKeep s0 (Sys2Proof.Machine.execStreamFlitSend p stream branch hop fault s) := by
  unfold Sys2Proof.Machine.execStreamFlitSend
  repeat' first
    | with_reducible assumption
    | ((try lift_lets -underBinder); intro x; first | (refine Keep.cut (s := s0) (t := x) ?_ ?_; (on_goal 1 => (unfold x; clear x)); (on_goal 2 => (clear_value x; intro k))) | (refine Keep.cut (s := s0) (t := x.1) ?_ ?_; (on_goal 1 => (unfold x; clear x)); (on_goal 2 => (clear_value x; intro k))) | clear_value x | skip)
    | intro _
    | with_reducible apply Keep.next
    | with_reducible exact Keep.upd (by with_reducible assumption)
    | with_reducible apply Keep.foldl
    | with_reducible apply Keep.foldl_fst
    | with_reducible apply Keep.boundary
    | with_reducible apply Keep.place
    | with_reducible apply Keep.fabricError
    | with_reducible apply Keep.boundaryError
    | with_reducible apply Keep.feedAll
    | with_reducible apply Keep.countStalls
    | with_reducible apply Keep.crossFlit
    | with_reducible apply Keep.addF
    | with_reducible apply Keep.inject
    | with_reducible apply Keep.updStream
    | split

theorem Keep.execCreditReturn {s0 : State} {p : PartIx} {stream : Fin 4096} {branch : Fin 16} {hop : Fin 128} {s : State} (h0 : Keep s0 s) : ResKeep s0 (Sys2Proof.Machine.execCreditReturn p stream branch hop s) := by
  unfold Sys2Proof.Machine.execCreditReturn
  repeat' first
    | with_reducible assumption
    | ((try lift_lets -underBinder); intro x; first | (refine Keep.cut (s := s0) (t := x) ?_ ?_; (on_goal 1 => (unfold x; clear x)); (on_goal 2 => (clear_value x; intro k))) | (refine Keep.cut (s := s0) (t := x.1) ?_ ?_; (on_goal 1 => (unfold x; clear x)); (on_goal 2 => (clear_value x; intro k))) | clear_value x | skip)
    | with_reducible apply Keep.next
    | with_reducible exact Keep.upd (by with_reducible assumption)
    | with_reducible apply Keep.updStream
    | split

theorem Keep.arrive {s0 : State} {s : State} {i : Nat} {fault : NetFault} {ok : NetMsg → Bool} {f : NetMsg → State → State} (h0 : Keep s0 s) (hf : ∀ x0 t, Keep s0 t → Keep s0 (f x0 t)) : Keep s0 (State.arrive s i fault ok f) := by
  unfold State.arrive
  repeat' first
    | with_reducible assumption
    | ((try lift_lets -underBinder); intro x; first | (refine Keep.cut (s := s0) (t := x) ?_ ?_; (on_goal 1 => (unfold x; clear x)); (on_goal 2 => (clear_value x; intro k))) | (refine Keep.cut (s := s0) (t := x.1) ?_ ?_; (on_goal 1 => (unfold x; clear x)); (on_goal 2 => (clear_value x; intro k))) | clear_value x | skip)
    | intro _
    | with_reducible exact Keep.upd (by with_reducible assumption)
    | with_reducible apply Keep.boundary
    | with_reducible apply Keep.fabricError
    | with_reducible apply Keep.boundaryError
    | with_reducible apply Keep.countEdges
    | with_reducible apply hf
    | split

theorem Keep.execMsgPacketArrive {s0 : State} {i : Nat} {fault : NetFault} {s : State} (h0 : Keep s0 s) : ResKeep s0 (Sys2Proof.Machine.execMsgPacketArrive i fault s) := by
  unfold Sys2Proof.Machine.execMsgPacketArrive
  repeat' first
    | with_reducible assumption
    | ((try lift_lets -underBinder); intro x; first | (refine Keep.cut (s := s0) (t := x) ?_ ?_; (on_goal 1 => (unfold x; clear x)); (on_goal 2 => (clear_value x; intro k))) | (refine Keep.cut (s := s0) (t := x.1) ?_ ?_; (on_goal 1 => (unfold x; clear x)); (on_goal 2 => (clear_value x; intro k))) | clear_value x | skip)
    | with_reducible apply Keep.next
    | with_reducible exact Keep.upd (by with_reducible assumption)
    | with_reducible apply Keep.arrive
    | with_reducible apply Keep.reply
    | with_reducible apply Keep.updTile
    | split

theorem Keep.execMsgCreditReturn {s0 : State} {i : Nat} {fault : NetFault} {s : State} (h0 : Keep s0 s) : ResKeep s0 (Sys2Proof.Machine.execMsgCreditReturn i fault s) := by
  unfold Sys2Proof.Machine.execMsgCreditReturn
  repeat' first
    | with_reducible assumption
    | ((try lift_lets -underBinder); intro x; first | (refine Keep.cut (s := s0) (t := x) ?_ ?_; (on_goal 1 => (unfold x; clear x)); (on_goal 2 => (clear_value x; intro k))) | (refine Keep.cut (s := s0) (t := x.1) ?_ ?_; (on_goal 1 => (unfold x; clear x)); (on_goal 2 => (clear_value x; intro k))) | clear_value x | skip)
    | with_reducible apply Keep.next
    | with_reducible exact Keep.upd (by with_reducible assumption)
    | with_reducible apply Keep.arrive
    | with_reducible apply Keep.updTile

theorem Keep.execEdgeReplay {s0 : State} {e : Fin 8} {dir : Fin 2} {s : State} (h0 : Keep s0 s) : ResKeep s0 (Sys2Proof.Machine.execEdgeReplay e dir s) := by
  unfold Sys2Proof.Machine.execEdgeReplay
  repeat' first
    | with_reducible assumption
    | ((try lift_lets -underBinder); intro x; first | (refine Keep.cut (s := s0) (t := x) ?_ ?_; (on_goal 1 => (unfold x; clear x)); (on_goal 2 => (clear_value x; intro k))) | (refine Keep.cut (s := s0) (t := x.1) ?_ ?_; (on_goal 1 => (unfold x; clear x)); (on_goal 2 => (clear_value x; intro k))) | clear_value x | skip)
    | with_reducible apply Keep.next
    | with_reducible exact Keep.upd (by with_reducible assumption)
    | with_reducible apply Keep.addF
    | with_reducible apply Keep.set
    | split

theorem Keep.dropMigrates {s0 : State} {s : State} {p e : Nat} (h0 : Keep s0 s) : Keep s0 (State.dropMigrates s p e) := by
  unfold State.dropMigrates
  repeat' first
    | with_reducible assumption
    | intro _
    | with_reducible exact Keep.upd (by with_reducible assumption)
    | with_reducible apply Keep.foldl
    | with_reducible apply Keep.foldl_fst
    | with_reducible apply Keep.settleRegion
    | with_reducible apply Keep.endCmd
    | split

theorem Keep.execEdgeFail {s0 : State} {e : Fin 8} {s : State} (h0 : Keep s0 s) : ResKeep s0 (Sys2Proof.Machine.execEdgeFail e s) := by
  unfold Sys2Proof.Machine.execEdgeFail
  repeat' first
    | with_reducible assumption
    | ((try lift_lets -underBinder); intro x; first | (refine Keep.cut (s := s0) (t := x) ?_ ?_; (on_goal 1 => (unfold x; clear x)); (on_goal 2 => (clear_value x; intro k))) | (refine Keep.cut (s := s0) (t := x.1) ?_ ?_; (on_goal 1 => (unfold x; clear x)); (on_goal 2 => (clear_value x; intro k))) | clear_value x | skip)
    | intro _
    | with_reducible apply Keep.next
    | with_reducible exact Keep.upd (by with_reducible assumption)
    | with_reducible apply Keep.foldl
    | with_reducible apply Keep.foldl_fst
    | with_reducible apply Keep.dropMigrates
    | with_reducible apply Keep.set
    | with_reducible apply Keep.stopReport
    | split

theorem Keep.execEdgeRekey {s0 : State} {e : Fin 8} {dir : Fin 2} {s : State} (h0 : Keep s0 s) : ResKeep s0 (Sys2Proof.Machine.execEdgeRekey e dir s) := by
  unfold Sys2Proof.Machine.execEdgeRekey
  repeat' first
    | with_reducible assumption
    | ((try lift_lets -underBinder); intro x; first | (refine Keep.cut (s := s0) (t := x) ?_ ?_; (on_goal 1 => (unfold x; clear x)); (on_goal 2 => (clear_value x; intro k))) | (refine Keep.cut (s := s0) (t := x.1) ?_ ?_; (on_goal 1 => (unfold x; clear x)); (on_goal 2 => (clear_value x; intro k))) | clear_value x | skip)
    | with_reducible apply Keep.next
    | with_reducible apply Keep.drawEdgeKey
    | split

end Sys2Proof.Machine
end

