-- ==== Sys2Proof/Laws/KeepGates.lean ====
section
/-!
SUPPORT. What the operations of Machine/Gates.lean keep (Laws/Keep.lean).
-/

set_option linter.unusedTactic false
set_option linter.unreachableTactic false

namespace Sys2Proof.Machine

theorem Keep.beginEclipse {s0 s : State} {p : Nat} {keys : List Nat} (h : Keep s0 s) : Keep s0 (s.beginEclipse p keys) := by
  unfold State.beginEclipse
  refine Keep.updPart (Keep.flushKeys (Keep.showColl ?_))
  have k := Keep.powerClusters (l := (s.partClusters p).filter fun c => s.cluster c = 1 || s.cluster c = 2) (v := 0) h
  exact Keep.upd (Keep.tiles k (smapWf_filter _ _ _))

theorem Keep.loadGateProgram {s0 : State} {s : State} {p : Nat} (h0 : Keep s0 s) : Keep s0 (State.loadGateProgram s p) := by
  unfold State.loadGateProgram
  repeat' first
    | with_reducible assumption
    | intro _
    | with_reducible exact Keep.upd (by with_reducible assumption)
    | with_reducible apply Keep.foldl
    | with_reducible apply Keep.foldl_fst
    | with_reducible apply Keep.updTile
    | split

theorem Keep.setGateRun {s0 : State} {s : State} {g : Nat} {r : Option GateRun} (h0 : Keep s0 s) : Keep s0 (State.setGateRun s g r) := by
  unfold State.setGateRun
  repeat' first
    | with_reducible assumption
    | ((try lift_lets -underBinder); intro x; first | (refine Keep.cut (s := s0) (t := x) ?_ ?_; (on_goal 1 => (unfold x; clear x)); (on_goal 2 => (clear_value x; intro k))) | (refine Keep.cut (s := s0) (t := x.1) ?_ ?_; (on_goal 1 => (unfold x; clear x)); (on_goal 2 => (clear_value x; intro k))) | clear_value x | skip)
    | with_reducible exact Keep.upd (by with_reducible assumption)
    | split

theorem Keep.armGate {s0 : State} {s : State} {m : Manifest} {e : GateEntry} (h0 : Keep s0 s) : Keep s0 (State.armGate s m e) := by
  unfold State.armGate
  repeat' first
    | with_reducible assumption
    | intro _
    | with_reducible exact Keep.upd (by with_reducible assumption)
    | with_reducible apply Keep.setF
    | with_reducible apply Keep.setRights
    | split

theorem Keep.endGateStep {s0 : State} {s : State} {g : Nat} (h0 : Keep s0 s) : Keep s0 (State.endGateStep s g) := by
  unfold State.endGateStep
  repeat' first
    | with_reducible assumption
    | ((try lift_lets -underBinder); intro x; first | (refine Keep.cut (s := s0) (t := x) ?_ ?_; (on_goal 1 => (unfold x; clear x)); (on_goal 2 => (clear_value x; intro k))) | (refine Keep.cut (s := s0) (t := x.1) ?_ ?_; (on_goal 1 => (unfold x; clear x)); (on_goal 2 => (clear_value x; intro k))) | clear_value x | skip)
    | with_reducible exact Keep.upd (by with_reducible assumption)
    | with_reducible apply Keep.setF
    | with_reducible apply Keep.setGateRun
    | split

theorem Keep.abandonGate {s0 : State} {s : State} {m : Manifest} {g code : Nat} {at? : Option Nat} (h0 : Keep s0 s) : Keep s0 (State.abandonGate s m g code at?) := by
  unfold State.abandonGate
  repeat' first
    | with_reducible assumption
    | ((try lift_lets -underBinder); intro x; first | (refine Keep.cut (s := s0) (t := x) ?_ ?_; (on_goal 1 => (unfold x; clear x)); (on_goal 2 => (clear_value x; intro k))) | (refine Keep.cut (s := s0) (t := x.1) ?_ ?_; (on_goal 1 => (unfold x; clear x)); (on_goal 2 => (clear_value x; intro k))) | clear_value x | skip)
    | with_reducible exact Keep.upd (by with_reducible assumption)
    | with_reducible apply Keep.foldl
    | with_reducible apply Keep.addF
    | with_reducible apply Keep.endGateStep
    | with_reducible apply Keep.setF
    | with_reducible apply Keep.stopReport
    | split

theorem Keep.idleGate {s0 : State} {s : State} {m : Manifest} {g : Nat} (h0 : Keep s0 s) : Keep s0 (State.idleGate s m g) := by
  unfold State.idleGate
  repeat' first
    | with_reducible assumption
    | ((try lift_lets -underBinder); intro x; first | (refine Keep.cut (s := s0) (t := x) ?_ ?_; (on_goal 1 => (unfold x; clear x)); (on_goal 2 => (clear_value x; intro k))) | (refine Keep.cut (s := s0) (t := x.1) ?_ ?_; (on_goal 1 => (unfold x; clear x)); (on_goal 2 => (clear_value x; intro k))) | clear_value x | skip)
    | with_reducible exact Keep.upd (by with_reducible assumption)
    | with_reducible apply Keep.abandonGate
    | with_reducible apply Keep.beginEclipse
    | with_reducible apply Keep.setF
    | with_reducible apply Keep.setRights
    | split

theorem Keep.asGate {s0 : State} {α : Type} {s : State} {gp p : Nat} {f : State → State × α} {failed : α → Option Nat} (h0 : Keep s0 s) (hf : ∀ t, Keep s0 t → Keep s0 (f t).1) : Keep s0 (State.asGate s gp p f failed).1 := by
  unfold State.asGate
  repeat' first
    | with_reducible assumption
    | ((try lift_lets -underBinder); intro x; first | (refine Keep.cut (s := s0) (t := x) ?_ ?_; (on_goal 1 => (unfold x; clear x)); (on_goal 2 => (clear_value x; intro k))) | (refine Keep.cut (s := s0) (t := x.1) ?_ ?_; (on_goal 1 => (unfold x; clear x)); (on_goal 2 => (clear_value x; intro k))) | clear_value x | skip)
    | intro _
    | with_reducible apply Keep.setRights
    | with_reducible apply Keep.set
    | with_reducible apply hf
    | with_reducible apply Keep.of_fst (by with_reducible assumption)
    | with_reducible refine Keep.upd (Keep.of_fst (by with_reducible assumption) ?_)
    | split

theorem Keep.gateRead {s0 : State} {s : State} {gp p a n : Nat} (h0 : Keep s0 s) : Keep s0 (State.gateRead s gp p a n).1 := by
  unfold State.gateRead
  repeat' first
    | with_reducible assumption
    | intro _
    | with_reducible apply Keep.asGate
    | with_reducible apply Keep.readVia
    | with_reducible apply Keep.of_fst (by with_reducible assumption)
    | with_reducible refine Keep.upd (Keep.of_fst (by with_reducible assumption) ?_)

theorem Keep.gateWrite {s0 : State} {s : State} {gp p a : Nat} {b : Bytes} (h0 : Keep s0 s) : Keep s0 (State.gateWrite s gp p a b).1 := by
  unfold State.gateWrite
  repeat' first
    | with_reducible assumption
    | intro _
    | with_reducible apply Keep.asGate
    | with_reducible apply Keep.writeVia
    | with_reducible apply Keep.of_fst (by with_reducible assumption)
    | with_reducible refine Keep.upd (Keep.of_fst (by with_reducible assumption) ?_)

theorem Keep.execGateHeaderRead {s0 : State} {g entry : Fin 16} {s : State} (h0 : Keep s0 s) : ResKeep s0 (Sys2Proof.Machine.execGateHeaderRead g entry s) := by
  unfold Sys2Proof.Machine.execGateHeaderRead
  repeat' first
    | with_reducible assumption
    | ((try lift_lets -underBinder); intro x; first | (refine Keep.cut (s := s0) (t := x) ?_ ?_; (on_goal 1 => (unfold x; clear x)); (on_goal 2 => (clear_value x; intro k))) | (refine Keep.cut (s := s0) (t := x.1) ?_ ?_; (on_goal 1 => (unfold x; clear x)); (on_goal 2 => (clear_value x; intro k))) | clear_value x | skip)
    | with_reducible apply Keep.next
    | with_reducible exact Keep.upd (by with_reducible assumption)
    | with_reducible apply Keep.abandonGate
    | with_reducible apply Keep.addF
    | with_reducible apply Keep.gateRead
    | with_reducible apply Keep.setF
    | with_reducible apply Keep.setGateRun
    | with_reducible apply Keep.of_fst (by with_reducible assumption)
    | with_reducible refine Keep.upd (Keep.of_fst (by with_reducible assumption) ?_)
    | split

theorem Keep.execGateTimeout {s0 : State} {g : Fin 16} {s : State} (h0 : Keep s0 s) : ResKeep s0 (Sys2Proof.Machine.execGateTimeout g s) := by
  unfold Sys2Proof.Machine.execGateTimeout
  repeat' first
    | with_reducible assumption
    | ((try lift_lets -underBinder); intro x; first | (refine Keep.cut (s := s0) (t := x) ?_ ?_; (on_goal 1 => (unfold x; clear x)); (on_goal 2 => (clear_value x; intro k))) | (refine Keep.cut (s := s0) (t := x.1) ?_ ?_; (on_goal 1 => (unfold x; clear x)); (on_goal 2 => (clear_value x; intro k))) | clear_value x | skip)
    | with_reducible apply Keep.next
    | with_reducible exact Keep.upd (by with_reducible assumption)
    | with_reducible apply Keep.abandonGate
    | split

theorem Keep.payloads {s0 : State} {s : State} {gp g : Nat} {l : List (Nat × OwnerEntry)} {n : Nat} (h0 : Keep s0 s) : Keep s0 (State.payloads s gp g l n).1 := by
  unfold State.payloads
  repeat' first
    | with_reducible assumption
    | intro _
    | with_reducible exact Keep.upd (by with_reducible assumption)
    | with_reducible apply Keep.foldl
    | with_reducible apply Keep.foldl_fst
    | with_reducible apply Keep.gateRead
    | with_reducible apply Keep.of_fst (by with_reducible assumption)
    | with_reducible refine Keep.upd (Keep.of_fst (by with_reducible assumption) ?_)
    | split

theorem Keep.execGateCombineDone {s0 : State} {g : Fin 16} {s : State} (h0 : Keep s0 s) : ResKeep s0 (Sys2Proof.Machine.execGateCombineDone g s) := by
  unfold Sys2Proof.Machine.execGateCombineDone
  repeat' first
    | with_reducible assumption
    | ((try lift_lets -underBinder); intro x; first | (refine Keep.cut (s := s0) (t := x) ?_ ?_; (on_goal 1 => (unfold x; clear x)); (on_goal 2 => (clear_value x; intro k))) | (refine Keep.cut (s := s0) (t := x.1) ?_ ?_; (on_goal 1 => (unfold x; clear x)); (on_goal 2 => (clear_value x; intro k))) | clear_value x | skip)
    | with_reducible apply Keep.next
    | with_reducible exact Keep.upd (by with_reducible assumption)
    | with_reducible apply Keep.abandonGate
    | with_reducible apply Keep.payloads
    | with_reducible apply Keep.setF
    | with_reducible apply Keep.setGateRun
    | with_reducible apply Keep.tick
    | with_reducible apply Keep.of_fst (by with_reducible assumption)
    | with_reducible refine Keep.upd (Keep.of_fst (by with_reducible assumption) ?_)
    | split

theorem Keep.releaseAll {s0 : State} {s : State} {gp g off : Nat} {l : List (Nat × OwnerEntry)} {b : Bytes} (h0 : Keep s0 s) : Keep s0 (State.releaseAll s gp g off l b).1 := by
  unfold State.releaseAll
  repeat' first
    | with_reducible assumption
    | intro _
    | with_reducible exact Keep.upd (by with_reducible assumption)
    | with_reducible apply Keep.foldl
    | with_reducible apply Keep.foldl_fst
    | with_reducible apply Keep.gateWrite
    | with_reducible apply Keep.of_fst (by with_reducible assumption)
    | with_reducible refine Keep.upd (Keep.of_fst (by with_reducible assumption) ?_)
    | split

theorem Keep.execGateReleaseDone {s0 : State} {g : Fin 16} {s : State} (h0 : Keep s0 s) : ResKeep s0 (Sys2Proof.Machine.execGateReleaseDone g s) := by
  unfold Sys2Proof.Machine.execGateReleaseDone
  repeat' first
    | with_reducible assumption
    | ((try lift_lets -underBinder); intro x; first | (refine Keep.cut (s := s0) (t := x) ?_ ?_; (on_goal 1 => (unfold x; clear x)); (on_goal 2 => (clear_value x; intro k))) | (refine Keep.cut (s := s0) (t := x.1) ?_ ?_; (on_goal 1 => (unfold x; clear x)); (on_goal 2 => (clear_value x; intro k))) | clear_value x | skip)
    | with_reducible apply Keep.next
    | with_reducible exact Keep.upd (by with_reducible assumption)
    | with_reducible apply Keep.abandonGate
    | with_reducible apply Keep.endGateStep
    | with_reducible apply Keep.releaseAll
    | with_reducible apply Keep.of_fst (by with_reducible assumption)
    | with_reducible refine Keep.upd (Keep.of_fst (by with_reducible assumption) ?_)
    | split

end Sys2Proof.Machine
end

