-- ==== Sys2Proof/Laws/KeepPilot.lean ====
section
/-!
SUPPORT. What the operations of Machine/Pilot.lean keep (Laws/Keep.lean).
-/

set_option linter.unusedTactic false
set_option linter.unreachableTactic false

namespace Sys2Proof.Machine

theorem Keep.updMbox {s0 : State} {s : State} {f : Mailbox → Mailbox} (h0 : Keep s0 s) : Keep s0 (State.updMbox s f) := by
  unfold State.updMbox
  repeat' first
    | with_reducible assumption
    | ((try lift_lets -underBinder); intro x; first | (refine Keep.cut (s := s0) (t := x) ?_ ?_; (on_goal 1 => (unfold x; clear x)); (on_goal 2 => (clear_value x; intro k))) | (refine Keep.cut (s := s0) (t := x.1) ?_ ?_; (on_goal 1 => (unfold x; clear x)); (on_goal 2 => (clear_value x; intro k))) | clear_value x | skip)
    | with_reducible exact Keep.upd (by with_reducible assumption)
    | with_reducible apply Keep.updPilot

theorem Keep.execMboxGo {s0 : State} {len : BitVec 13} {s : State} (h0 : Keep s0 s) : ResKeep s0 (Sys2Proof.Machine.execMboxGo len s) := by
  unfold Sys2Proof.Machine.execMboxGo
  repeat' first
    | with_reducible assumption
    | ((try lift_lets -underBinder); intro x; first | (refine Keep.cut (s := s0) (t := x) ?_ ?_; (on_goal 1 => (unfold x; clear x)); (on_goal 2 => (clear_value x; intro k))) | (refine Keep.cut (s := s0) (t := x.1) ?_ ?_; (on_goal 1 => (unfold x; clear x)); (on_goal 2 => (clear_value x; intro k))) | clear_value x | skip)
    | with_reducible apply Keep.next
    | with_reducible exact Keep.upd (by with_reducible assumption)
    | with_reducible apply Keep.cxlIo
    | with_reducible apply Keep.set
    | with_reducible apply Keep.updMbox
    | split

theorem Keep.deliver {s0 : State} {s : State} (h0 : Keep s0 s) : Keep s0 (State.deliver s) := by
  unfold State.deliver
  repeat' first
    | with_reducible assumption
    | ((try lift_lets -underBinder); intro x; first | (refine Keep.cut (s := s0) (t := x) ?_ ?_; (on_goal 1 => (unfold x; clear x)); (on_goal 2 => (clear_value x; intro k))) | (refine Keep.cut (s := s0) (t := x.1) ?_ ?_; (on_goal 1 => (unfold x; clear x)); (on_goal 2 => (clear_value x; intro k))) | clear_value x | skip)
    | with_reducible exact Keep.upd (by with_reducible assumption)
    | with_reducible apply Keep.raise
    | with_reducible apply Keep.set
    | with_reducible apply Keep.updMbox
    | split

theorem Keep.execMboxResponse {s0 : State} {s : State} (h0 : Keep s0 s) : ResKeep s0 (Sys2Proof.Machine.execMboxResponse s) := by
  unfold Sys2Proof.Machine.execMboxResponse
  repeat' first
    | with_reducible assumption
    | with_reducible apply Keep.next
    | with_reducible apply Keep.deliver
    | split

theorem Keep.respond {s0 : State} {s : State} {req : Option Bytes} {rsp : Bytes} (h0 : Keep s0 s) : Keep s0 (State.respond s req rsp) := by
  unfold State.respond
  repeat' first
    | with_reducible assumption
    | ((try lift_lets -underBinder); intro x; first | (refine Keep.cut (s := s0) (t := x) ?_ ?_; (on_goal 1 => (unfold x; clear x)); (on_goal 2 => (clear_value x; intro k))) | (refine Keep.cut (s := s0) (t := x.1) ?_ ?_; (on_goal 1 => (unfold x; clear x)); (on_goal 2 => (clear_value x; intro k))) | clear_value x | skip)
    | with_reducible exact Keep.upd (by with_reducible assumption)
    | with_reducible apply Keep.emit
    | with_reducible apply Keep.updMbox
    | split

theorem Keep.vendor {s0 : State} {s : State} {cmd : Nat} {req : Option Bytes} {f : Bytes → State → State × Nat × Bytes} {after : Bytes → State → State} (h0 : Keep s0 s) (hf : ∀ x0 t, Keep s0 t → Keep s0 (f x0 t).1) (hafter : ∀ x0 t, Keep s0 t → Keep s0 (after x0 t)) : Keep s0 (State.vendor s cmd req f after) := by
  unfold State.vendor
  repeat' first
    | with_reducible assumption
    | ((try lift_lets -underBinder); intro x; first | (refine Keep.cut (s := s0) (t := x) ?_ ?_; (on_goal 1 => (unfold x; clear x)); (on_goal 2 => (clear_value x; intro k))) | (refine Keep.cut (s := s0) (t := x.1) ?_ ?_; (on_goal 1 => (unfold x; clear x)); (on_goal 2 => (clear_value x; intro k))) | clear_value x | skip)
    | with_reducible exact Keep.upd (by with_reducible assumption)
    | with_reducible apply Keep.emit
    | with_reducible apply Keep.respond
    | with_reducible apply hf
    | with_reducible apply hafter
    | with_reducible apply Keep.of_fst (by with_reducible assumption)
    | with_reducible refine Keep.upd (Keep.of_fst (by with_reducible assumption) ?_)
    | split

theorem Keep.vendorCmd {s0 : State} {s : State} {cmd : Nat} {req : Option Bytes} {f : Bytes → State → State × Nat × Bytes} (h0 : Keep s0 s) (hf : ∀ x0 t, Keep s0 t → Keep s0 (f x0 t).1) : Keep s0 (State.vendorCmd s cmd req f) := by
  unfold State.vendorCmd
  repeat' first
    | with_reducible assumption
    | intro _
    | with_reducible apply Keep.vendor
    | with_reducible apply hf
    | with_reducible apply Keep.of_fst (by with_reducible assumption)

theorem Keep.execMctpControl {s0 : State} {req : Option (List Byte)} {s : State} (h0 : Keep s0 s) : ResKeep s0 (Sys2Proof.Machine.execMctpControl req s) := by
  unfold Sys2Proof.Machine.execMctpControl
  repeat' first
    | with_reducible assumption
    | with_reducible apply Keep.next
    | with_reducible exact Keep.upd (by with_reducible assumption)
    | with_reducible apply Keep.emit
    | with_reducible apply Keep.respond
    | split

theorem Keep.updFlash {s0 : State} {s : State} {f : Flash → Flash} (h0 : Keep s0 s) : Keep s0 (State.updFlash s f) := by
  unfold State.updFlash
  repeat' first
    | with_reducible assumption
    | ((try lift_lets -underBinder); intro x; first | (refine Keep.cut (s := s0) (t := x) ?_ ?_; (on_goal 1 => (unfold x; clear x)); (on_goal 2 => (clear_value x; intro k))) | (refine Keep.cut (s := s0) (t := x.1) ?_ ?_; (on_goal 1 => (unfold x; clear x)); (on_goal 2 => (clear_value x; intro k))) | clear_value x | skip)
    | with_reducible exact Keep.upd (by with_reducible assumption)
    | with_reducible apply Keep.updPilot

theorem Keep.eraseArea {s0 : State} {s : State} {a units : Nat} (h0 : Keep s0 s) : Keep s0 (State.eraseArea s a units) := by
  unfold State.eraseArea
  repeat' first
    | with_reducible assumption
    | ((try lift_lets -underBinder); intro x; first | (refine Keep.cut (s := s0) (t := x) ?_ ?_; (on_goal 1 => (unfold x; clear x)); (on_goal 2 => (clear_value x; intro k))) | (refine Keep.cut (s := s0) (t := x.1) ?_ ?_; (on_goal 1 => (unfold x; clear x)); (on_goal 2 => (clear_value x; intro k))) | clear_value x | skip)
    | with_reducible exact Keep.upd (by with_reducible assumption)
    | with_reducible apply Keep.updFlash
    | with_reducible apply Keep.wear

theorem Keep.atWearLimit {s0 : State} {s : State} (h0 : Keep s0 s) : Keep s0 (State.atWearLimit s) := by
  unfold State.atWearLimit
  repeat' first
    | with_reducible assumption
    | ((try lift_lets -underBinder); intro x; first | (refine Keep.cut (s := s0) (t := x) ?_ ?_; (on_goal 1 => (unfold x; clear x)); (on_goal 2 => (clear_value x; intro k))) | (refine Keep.cut (s := s0) (t := x.1) ?_ ?_; (on_goal 1 => (unfold x; clear x)); (on_goal 2 => (clear_value x; intro k))) | clear_value x | skip)
    | with_reducible exact Keep.upd (by with_reducible assumption)
    | with_reducible apply Keep.updPilot

theorem Keep.applyStaged {s0 : State} {s : State} {k : Nat} (h0 : Keep s0 s) : Keep s0 (State.applyStaged s k) := by
  unfold State.applyStaged
  repeat' first
    | with_reducible assumption
    | ((try lift_lets -underBinder); intro x; first | (refine Keep.cut (s := s0) (t := x) ?_ ?_; (on_goal 1 => (unfold x; clear x)); (on_goal 2 => (clear_value x; intro k))) | (refine Keep.cut (s := s0) (t := x.1) ?_ ?_; (on_goal 1 => (unfold x; clear x)); (on_goal 2 => (clear_value x; intro k))) | clear_value x | skip)
    | with_reducible exact Keep.upd (by with_reducible assumption)
    | with_reducible apply Keep.atWearLimit
    | with_reducible apply Keep.eraseArea
    | with_reducible apply Keep.updFlash
    | with_reducible apply Keep.updPilot
    | split

theorem Keep.raiseCounter {s0 : State} {s : State} (h0 : Keep s0 s) : Keep s0 (State.raiseCounter s) := by
  unfold State.raiseCounter
  repeat' first
    | with_reducible assumption
    | ((try lift_lets -underBinder); intro x; first | (refine Keep.cut (s := s0) (t := x) ?_ ?_; (on_goal 1 => (unfold x; clear x)); (on_goal 2 => (clear_value x; intro k))) | (refine Keep.cut (s := s0) (t := x.1) ?_ ?_; (on_goal 1 => (unfold x; clear x)); (on_goal 2 => (clear_value x; intro k))) | clear_value x | skip)
    | with_reducible exact Keep.upd (by with_reducible assumption)
    | with_reducible apply Keep.atWearLimit
    | with_reducible apply Keep.eraseArea
    | with_reducible apply Keep.updFlash
    | split

theorem Keep.storeSettings {s0 : State} {s : State} {check : Nat} (h0 : Keep s0 s) : Keep s0 (State.storeSettings s check) := by
  unfold State.storeSettings
  repeat' first
    | with_reducible assumption
    | ((try lift_lets -underBinder); intro x; first | (refine Keep.cut (s := s0) (t := x) ?_ ?_; (on_goal 1 => (unfold x; clear x)); (on_goal 2 => (clear_value x; intro k))) | (refine Keep.cut (s := s0) (t := x.1) ?_ ?_; (on_goal 1 => (unfold x; clear x)); (on_goal 2 => (clear_value x; intro k))) | clear_value x | skip)
    | with_reducible exact Keep.upd (by with_reducible assumption)
    | with_reducible apply Keep.eraseArea
    | with_reducible apply Keep.updFlash
    | split

theorem Keep.checkSettings {s0 : State} {s : State} (h0 : Keep s0 s) : Keep s0 (State.checkSettings s) := by
  unfold State.checkSettings
  repeat' first
    | with_reducible assumption
    | ((try lift_lets -underBinder); intro x; first | (refine Keep.cut (s := s0) (t := x) ?_ ?_; (on_goal 1 => (unfold x; clear x)); (on_goal 2 => (clear_value x; intro k))) | (refine Keep.cut (s := s0) (t := x.1) ?_ ?_; (on_goal 1 => (unfold x; clear x)); (on_goal 2 => (clear_value x; intro k))) | clear_value x | skip)
    | with_reducible exact Keep.upd (by with_reducible assumption)
    | with_reducible apply Keep.atWearLimit
    | with_reducible apply Keep.storeSettings
    | with_reducible apply Keep.updPilot
    | split

theorem Keep.bootAt {s0 : State} {s : State} {stage : Nat} {b : Boot} (h0 : Keep s0 s) : Keep s0 (State.bootAt s stage b) := by
  unfold State.bootAt
  repeat' first
    | with_reducible assumption
    | ((try lift_lets -underBinder); intro x; first | (refine Keep.cut (s := s0) (t := x) ?_ ?_; (on_goal 1 => (unfold x; clear x)); (on_goal 2 => (clear_value x; intro k))) | (refine Keep.cut (s := s0) (t := x.1) ?_ ?_; (on_goal 1 => (unfold x; clear x)); (on_goal 2 => (clear_value x; intro k))) | clear_value x | skip)
    | with_reducible exact Keep.upd (by with_reducible assumption)
    | with_reducible apply Keep.set
    | with_reducible apply Keep.updPilot

theorem Keep.startPilot {s0 : State} {s : State} (h0 : Keep s0 s) : Keep s0 (State.startPilot s) := by
  unfold State.startPilot
  repeat' first
    | with_reducible assumption
    | ((try lift_lets -underBinder); intro x; first | (refine Keep.cut (s := s0) (t := x) ?_ ?_; (on_goal 1 => (unfold x; clear x)); (on_goal 2 => (clear_value x; intro k))) | (refine Keep.cut (s := s0) (t := x.1) ?_ ?_; (on_goal 1 => (unfold x; clear x)); (on_goal 2 => (clear_value x; intro k))) | clear_value x | skip)
    | with_reducible exact Keep.upd (by with_reducible assumption)
    | with_reducible apply Keep.foldl
    | with_reducible apply Keep.foldl_fst
    | with_reducible apply Keep.applyStaged
    | with_reducible apply Keep.bootAt
    | with_reducible apply Keep.checkSettings
    | with_reducible apply Keep.raiseCounter
    | with_reducible apply Keep.set
    | with_reducible apply Keep.updPilot
    | split

end Sys2Proof.Machine
end

