-- ==== Sys2Proof/Laws/KeepPeers.lean ====
section
/-!
SUPPORT. What the operations of Machine/Peers.lean keep (Laws/Keep.lean).
-/

set_option linter.unusedTactic false
set_option linter.unreachableTactic false

namespace Sys2Proof.Machine

theorem Keep.endRestores {s0 : State} {s : State} {n code : Nat} (h0 : Keep s0 s) : Keep s0 (State.endRestores s n code) := by
  unfold State.endRestores
  repeat' first
    | with_reducible assumption
    | intro _
    | with_reducible exact Keep.upd (by with_reducible assumption)
    | with_reducible apply Keep.foldl
    | with_reducible apply Keep.endRestore
    | split

theorem Keep.loseHolders {s0 : State} {s : State} {n code : Nat} (h0 : Keep s0 s) : Keep s0 (State.loseHolders s n code) := by
  unfold State.loseHolders
  repeat' first
    | with_reducible assumption
    | intro _
    | with_reducible apply Keep.foldl
    | with_reducible apply Keep.loseHolder
    | with_reducible apply Keep.seekHolder
    | split

theorem Keep.leavePort {s0 : State} {s : State} {n p : Nat} (h0 : Keep s0 s) : Keep s0 (State.leavePort s n p) := by
  unfold State.leavePort
  repeat' first
    | with_reducible assumption
    | ((try lift_lets -underBinder); intro x; first | (refine Keep.cut (s := s0) (t := x) ?_ ?_; (on_goal 1 => (unfold x; clear x)); (on_goal 2 => (clear_value x; intro k))) | (refine Keep.cut (s := s0) (t := x.1) ?_ ?_; (on_goal 1 => (unfold x; clear x)); (on_goal 2 => (clear_value x; intro k))) | clear_value x | skip)
    | intro _
    | with_reducible apply Keep.updPort
    | with_reducible apply Keep.setPortState
    | with_reducible apply Keep.dropPort
    | split

theorem Keep.depart {s0 : State} {s : State} {n : Nat} (h0 : Keep s0 s) : Keep s0 (State.depart s n) := by
  unfold State.depart
  repeat' first
    | with_reducible assumption
    | ((try lift_lets -underBinder); intro x; first | (refine Keep.cut (s := s0) (t := x) ?_ ?_; (on_goal 1 => (unfold x; clear x)); (on_goal 2 => (clear_value x; intro k))) | (refine Keep.cut (s := s0) (t := x.1) ?_ ?_; (on_goal 1 => (unfold x; clear x)); (on_goal 2 => (clear_value x; intro k))) | clear_value x | skip)
    | intro _
    | with_reducible exact Keep.upd (by with_reducible assumption)
    | with_reducible apply Keep.foldl
    | with_reducible apply Keep.foldl_fst
    | with_reducible apply Keep.skipPeer
    | with_reducible apply Keep.departGroups
    | with_reducible apply Keep.updSession
    | with_reducible apply Keep.setPeerState
    | with_reducible apply Keep.notice
    | with_reducible apply Keep.endRestores
    | with_reducible apply Keep.loseHolders
    | with_reducible apply Keep.leavePort
    | with_reducible apply Keep.endCmd
    | split

theorem Keep.endSession {s0 : State} {s : State} {p n code : Nat} (h0 : Keep s0 s) : Keep s0 (State.endSession s p n code) := by
  unfold State.endSession
  repeat' first
    | with_reducible assumption
    | with_reducible apply Keep.depart
    | with_reducible apply Keep.portErr

theorem Keep.clearPort {s0 : State} {s : State} {p : Nat} (h0 : Keep s0 s) : Keep s0 (State.clearPort s p) := by
  unfold State.clearPort
  repeat' first
    | with_reducible assumption
    | intro _
    | with_reducible exact Keep.upd (by with_reducible assumption)
    | with_reducible apply Keep.updPort

theorem Keep.execDrainEnd {s0 : State} {n : Fin 256} {s : State} (h0 : Keep s0 s) : ResKeep s0 (Sys2Proof.Machine.execDrainEnd n s) := by
  unfold Sys2Proof.Machine.execDrainEnd
  repeat' first
    | with_reducible assumption
    | ((try lift_lets -underBinder); intro x; first | (refine Keep.cut (s := s0) (t := x) ?_ ?_; (on_goal 1 => (unfold x; clear x)); (on_goal 2 => (clear_value x; intro k))) | (refine Keep.cut (s := s0) (t := x.1) ?_ ?_; (on_goal 1 => (unfold x; clear x)); (on_goal 2 => (clear_value x; intro k))) | clear_value x | skip)
    | intro _
    | with_reducible apply Keep.next
    | with_reducible apply Keep.foldl
    | with_reducible apply Keep.foldl_fst
    | with_reducible apply Keep.updSession
    | with_reducible apply Keep.setPeerState
    | with_reducible apply Keep.setF
    | with_reducible apply Keep.clearPort
    | split

theorem Keep.loseTransfer {s0 : State} {s : State} {n : Nat} {m : Nat × Nat × Nat} (h0 : Keep s0 s) : Keep s0 (State.loseTransfer s n m) := by
  unfold State.loseTransfer
  repeat' first
    | with_reducible assumption
    | intro _
    | with_reducible exact Keep.upd (by with_reducible assumption)
    | with_reducible apply Keep.endCmd
    | with_reducible apply Keep.endRestores
    | with_reducible apply Keep.failColl
    | with_reducible apply Keep.failReq
    | with_reducible apply Keep.goOn
    | with_reducible apply Keep.loseHolder
    | split

theorem Keep.moveTraffic {s0 : State} {s : State} {old : PortSt} {q : Nat} (h0 : Keep s0 s) : Keep s0 (State.moveTraffic s old q) := by
  unfold State.moveTraffic
  repeat' first
    | with_reducible assumption
    | ((try lift_lets -underBinder); intro x; first | (refine Keep.cut (s := s0) (t := x) ?_ ?_; (on_goal 1 => (unfold x; clear x)); (on_goal 2 => (clear_value x; intro k))) | (refine Keep.cut (s := s0) (t := x.1) ?_ ?_; (on_goal 1 => (unfold x; clear x)); (on_goal 2 => (clear_value x; intro k))) | clear_value x | skip)
    | with_reducible exact Keep.upd (by with_reducible assumption)
    | with_reducible apply Keep.updPort

theorem Keep.losePort {s0 : State} {s : State} {p : Nat} (h0 : Keep s0 s) : Keep s0 (State.losePort s p) := by
  unfold State.losePort
  repeat' first
    | with_reducible assumption
    | ((try lift_lets -underBinder); intro x; first | (refine Keep.cut (s := s0) (t := x) ?_ ?_; (on_goal 1 => (unfold x; clear x)); (on_goal 2 => (clear_value x; intro k))) | (refine Keep.cut (s := s0) (t := x.1) ?_ ?_; (on_goal 1 => (unfold x; clear x)); (on_goal 2 => (clear_value x; intro k))) | clear_value x | skip)
    | intro _
    | with_reducible exact Keep.upd (by with_reducible assumption)
    | with_reducible apply Keep.foldl
    | with_reducible apply Keep.foldl_fst
    | with_reducible apply Keep.setPortState
    | with_reducible apply Keep.portErr
    | with_reducible apply Keep.dropPort
    | with_reducible apply Keep.tick
    | with_reducible apply Keep.endRestores
    | with_reducible apply Keep.depart
    | with_reducible apply Keep.loseTransfer
    | with_reducible apply Keep.moveTraffic
    | split

theorem Keep.execLinkLoss {s0 : State} {port : PortIx} {s : State} (h0 : Keep s0 s) : ResKeep s0 (Sys2Proof.Machine.execLinkLoss port s) := by
  unfold Sys2Proof.Machine.execLinkLoss
  repeat' first
    | with_reducible assumption
    | ((try lift_lets -underBinder); intro x; first | (refine Keep.cut (s := s0) (t := x) ?_ ?_; (on_goal 1 => (unfold x; clear x)); (on_goal 2 => (clear_value x; intro k))) | (refine Keep.cut (s := s0) (t := x.1) ?_ ?_; (on_goal 1 => (unfold x; clear x)); (on_goal 2 => (clear_value x; intro k))) | clear_value x | skip)
    | with_reducible apply Keep.next
    | with_reducible apply Keep.losePort
    | split

theorem Keep.endSetup {s0 : State} {s : State} {p : Nat} (h0 : Keep s0 s) : Keep s0 (State.endSetup s p) := by
  unfold State.endSetup
  repeat' first
    | with_reducible assumption
    | intro _
    | with_reducible exact Keep.upd (by with_reducible assumption)
    | with_reducible apply Keep.updPort
    | with_reducible apply Keep.freeSetup
    | split

theorem Keep.startSetup {s0 : State} {s : State} {p restarts : Nat} (h0 : Keep s0 s) : Keep s0 (State.startSetup s p restarts) := by
  unfold State.startSetup
  repeat' first
    | with_reducible assumption
    | with_reducible apply Keep.endSetup
    | with_reducible apply Keep.sendHello
    | with_reducible apply Keep.setPortState

theorem Keep.execLinkUp {s0 : State} {port : PortIx} {reversed : Bool} {s : State} (h0 : Keep s0 s) : ResKeep s0 (Sys2Proof.Machine.execLinkUp port reversed s) := by
  unfold Sys2Proof.Machine.execLinkUp
  repeat' first
    | with_reducible assumption
    | ((try lift_lets -underBinder); intro x; first | (refine Keep.cut (s := s0) (t := x) ?_ ?_; (on_goal 1 => (unfold x; clear x)); (on_goal 2 => (clear_value x; intro k))) | (refine Keep.cut (s := s0) (t := x.1) ?_ ?_; (on_goal 1 => (unfold x; clear x)); (on_goal 2 => (clear_value x; intro k))) | clear_value x | skip)
    | with_reducible apply Keep.next
    | with_reducible exact Keep.upd (by with_reducible assumption)
    | with_reducible apply Keep.setF
    | with_reducible apply Keep.setPortState
    | with_reducible apply Keep.startSetup
    | with_reducible apply Keep.updPort
    | split

theorem Keep.linkDown {s0 : State} {s : State} {p : Nat} (h0 : Keep s0 s) : Keep s0 (State.linkDown s p) := by
  unfold State.linkDown
  repeat' first
    | with_reducible assumption
    | with_reducible apply Keep.setPortState
    | with_reducible apply Keep.clearPort
    | with_reducible apply Keep.endSetup
    | split

theorem Keep.execLossOfSignal {s0 : State} {port : PortIx} {s : State} (h0 : Keep s0 s) : ResKeep s0 (Sys2Proof.Machine.execLossOfSignal port s) := by
  unfold Sys2Proof.Machine.execLossOfSignal
  repeat' first
    | with_reducible assumption
    | ((try lift_lets -underBinder); intro x; first | (refine Keep.cut (s := s0) (t := x) ?_ ?_; (on_goal 1 => (unfold x; clear x)); (on_goal 2 => (clear_value x; intro k))) | (refine Keep.cut (s := s0) (t := x.1) ?_ ?_; (on_goal 1 => (unfold x; clear x)); (on_goal 2 => (clear_value x; intro k))) | clear_value x | skip)
    | with_reducible apply Keep.next
    | with_reducible apply Keep.linkDown
    | with_reducible apply Keep.setF
    | split

theorem Keep.execLosRetry {s0 : State} {port : PortIx} {s : State} (h0 : Keep s0 s) : ResKeep s0 (Sys2Proof.Machine.execLosRetry port s) := by
  unfold Sys2Proof.Machine.execLosRetry
  repeat' first
    | with_reducible assumption
    | with_reducible apply Keep.next
    | with_reducible apply Keep.setF
    | split

theorem Keep.execTrainTimeout {s0 : State} {port : PortIx} {s : State} (h0 : Keep s0 s) : ResKeep s0 (Sys2Proof.Machine.execTrainTimeout port s) := by
  unfold Sys2Proof.Machine.execTrainTimeout
  repeat' first
    | with_reducible assumption
    | ((try lift_lets -underBinder); intro x; first | (refine Keep.cut (s := s0) (t := x) ?_ ?_; (on_goal 1 => (unfold x; clear x)); (on_goal 2 => (clear_value x; intro k))) | (refine Keep.cut (s := s0) (t := x.1) ?_ ?_; (on_goal 1 => (unfold x; clear x)); (on_goal 2 => (clear_value x; intro k))) | clear_value x | skip)
    | with_reducible apply Keep.next
    | with_reducible apply Keep.noteError
    | with_reducible apply Keep.portErr
    | with_reducible apply Keep.setF
    | with_reducible apply Keep.setPortState
    | split

theorem Keep.execPortRetrain {s0 : State} {port : PortIx} {s : State} (h0 : Keep s0 s) : ResKeep s0 (Sys2Proof.Machine.execPortRetrain port s) := by
  unfold Sys2Proof.Machine.execPortRetrain
  repeat' first
    | with_reducible assumption
    | intro _
    | with_reducible apply Keep.next
    | with_reducible apply Keep.cxlIo
    | with_reducible apply Keep.linkDown
    | split

theorem Keep.execResendRetrain {s0 : State} {port : PortIx} {s : State} (h0 : Keep s0 s) : ResKeep s0 (Sys2Proof.Machine.execResendRetrain port s) := by
  unfold Sys2Proof.Machine.execResendRetrain
  repeat' first
    | with_reducible assumption
    | ((try lift_lets -underBinder); intro x; first | (refine Keep.cut (s := s0) (t := x) ?_ ?_; (on_goal 1 => (unfold x; clear x)); (on_goal 2 => (clear_value x; intro k))) | (refine Keep.cut (s := s0) (t := x.1) ?_ ?_; (on_goal 1 => (unfold x; clear x)); (on_goal 2 => (clear_value x; intro k))) | clear_value x | skip)
    | with_reducible apply Keep.next
    | with_reducible apply Keep.linkDown
    | split

theorem Keep.execPortCntClear {s0 : State} {port : PortIx} {s : State} (h0 : Keep s0 s) : ResKeep s0 (Sys2Proof.Machine.execPortCntClear port s) := by
  unfold Sys2Proof.Machine.execPortCntClear
  repeat' first
    | with_reducible assumption
    | intro _
    | with_reducible apply Keep.next
    | with_reducible apply Keep.cxlIo
    | with_reducible apply Keep.cntClear

theorem Keep.setPortMode {s0 : State} {s : State} {p mode : Nat} (h0 : Keep s0 s) : Keep s0 (State.setPortMode s p mode) := by
  unfold State.setPortMode
  repeat' first
    | with_reducible assumption
    | ((try lift_lets -underBinder); intro x; first | (refine Keep.cut (s := s0) (t := x) ?_ ?_; (on_goal 1 => (unfold x; clear x)); (on_goal 2 => (clear_value x; intro k))) | (refine Keep.cut (s := s0) (t := x.1) ?_ ?_; (on_goal 1 => (unfold x; clear x)); (on_goal 2 => (clear_value x; intro k))) | clear_value x | skip)
    | with_reducible apply Keep.setPortState
    | with_reducible apply Keep.setF
    | with_reducible apply Keep.clearPort
    | with_reducible apply Keep.losePort
    | with_reducible apply Keep.endSetup
    | with_reducible apply Keep.clearCopy
    | split

theorem Keep.sendSpdm {s0 : State} {s : State} {p : Nat} {b : Bytes} (h0 : Keep s0 s) : Keep s0 (State.sendSpdm s p b) := by
  unfold State.sendSpdm
  repeat' first
    | with_reducible assumption
    | with_reducible apply Keep.queueSetup
    | with_reducible apply Keep.tick
    | split

theorem Keep.takeHello {s0 : State} {s : State} {p : Nat} {own : Bytes} {key nonce : Bytes} (h0 : Keep s0 s) : Keep s0 (State.takeHello s p own key nonce) := by
  unfold State.takeHello
  repeat' first
    | with_reducible assumption
    | ((try lift_lets -underBinder); intro x; first | (refine Keep.cut (s := s0) (t := x) ?_ ?_; (on_goal 1 => (unfold x; clear x)); (on_goal 2 => (clear_value x; intro k))) | (refine Keep.cut (s := s0) (t := x.1) ?_ ?_; (on_goal 1 => (unfold x; clear x)); (on_goal 2 => (clear_value x; intro k))) | clear_value x | skip)
    | intro _
    | with_reducible exact Keep.upd (by with_reducible assumption)
    | with_reducible apply Keep.updPort
    | with_reducible apply Keep.queueCtl
    | with_reducible apply Keep.queueSetup
    | with_reducible apply Keep.refusePort
    | with_reducible apply Keep.tick
    | split

theorem Keep.execLinkHello {s0 : State} {port : PortIx} {s : State} (h0 : Keep s0 s) : ResKeep s0 (Sys2Proof.Machine.execLinkHello port s) := by
  unfold Sys2Proof.Machine.execLinkHello
  repeat' first
    | with_reducible assumption
    | ((try lift_lets -underBinder); intro x; first | (refine Keep.cut (s := s0) (t := x) ?_ ?_; (on_goal 1 => (unfold x; clear x)); (on_goal 2 => (clear_value x; intro k))) | (refine Keep.cut (s := s0) (t := x.1) ?_ ?_; (on_goal 1 => (unfold x; clear x)); (on_goal 2 => (clear_value x; intro k))) | clear_value x | skip)
    | with_reducible apply Keep.next
    | with_reducible exact Keep.upd (by with_reducible assumption)
    | with_reducible apply Keep.refusePort
    | with_reducible apply Keep.startSetup
    | with_reducible apply Keep.takeHello
    | with_reducible apply Keep.updPort
    | with_reducible apply Keep.takeSetup (by with_reducible assumption)
    | split

theorem Keep.admitPeer {s0 : State} {s : State} {p : Nat} {key : Bytes} (h0 : Keep s0 s) : Keep s0 (State.admitPeer s p key) := by
  unfold State.admitPeer
  repeat' first
    | with_reducible assumption
    | ((try lift_lets -underBinder); intro x; first | (refine Keep.cut (s := s0) (t := x) ?_ ?_; (on_goal 1 => (unfold x; clear x)); (on_goal 2 => (clear_value x; intro k))) | (refine Keep.cut (s := s0) (t := x.1) ?_ ?_; (on_goal 1 => (unfold x; clear x)); (on_goal 2 => (clear_value x; intro k))) | clear_value x | skip)
    | intro _
    | with_reducible exact Keep.upd (by with_reducible assumption)
    | with_reducible apply Keep.updPort
    | with_reducible apply Keep.updSession
    | with_reducible apply Keep.setPeerState
    | with_reducible apply Keep.refusePort
    | with_reducible apply Keep.tick
    | split

theorem Keep.execLinkSpdm {s0 : State} {port : PortIx} {s : State} (h0 : Keep s0 s) : ResKeep s0 (Sys2Proof.Machine.execLinkSpdm port s) := by
  unfold Sys2Proof.Machine.execLinkSpdm
  repeat' first
    | with_reducible assumption
    | ((try lift_lets -underBinder); intro x; first | (refine Keep.cut (s := s0) (t := x) ?_ ?_; (on_goal 1 => (unfold x; clear x)); (on_goal 2 => (clear_value x; intro k))) | (refine Keep.cut (s := s0) (t := x.1) ?_ ?_; (on_goal 1 => (unfold x; clear x)); (on_goal 2 => (clear_value x; intro k))) | clear_value x | skip)
    | intro _
    | with_reducible apply Keep.next
    | with_reducible exact Keep.upd (by with_reducible assumption)
    | with_reducible apply Keep.updPort
    | with_reducible apply Keep.takeSetup (by with_reducible assumption)
    | with_reducible apply Keep.refusePort
    | with_reducible apply Keep.sendSpdm
    | with_reducible apply Keep.admitPeer
    | split

theorem Keep.execLinkKx {s0 : State} {port : PortIx} {s : State} (h0 : Keep s0 s) : ResKeep s0 (Sys2Proof.Machine.execLinkKx port s) := by
  unfold Sys2Proof.Machine.execLinkKx
  repeat' first
    | with_reducible assumption
    | ((try lift_lets -underBinder); intro x; first | (refine Keep.cut (s := s0) (t := x) ?_ ?_; (on_goal 1 => (unfold x; clear x)); (on_goal 2 => (clear_value x; intro k))) | (refine Keep.cut (s := s0) (t := x.1) ?_ ?_; (on_goal 1 => (unfold x; clear x)); (on_goal 2 => (clear_value x; intro k))) | clear_value x | skip)
    | with_reducible apply Keep.next
    | with_reducible exact Keep.upd (by with_reducible assumption)
    | with_reducible apply Keep.queueCtl
    | with_reducible apply Keep.refusePort
    | with_reducible apply Keep.updPort
    | with_reducible apply Keep.takeSetup (by with_reducible assumption)
    | split

theorem Keep.openSession {s0 : State} {s : State} {p n : Nat} {key : Bytes} {ks : Bytes × Bytes × Bytes} (h0 : Keep s0 s) : Keep s0 (State.openSession s p n key ks) := by
  unfold State.openSession
  repeat' first
    | with_reducible assumption
    | ((try lift_lets -underBinder); intro x; first | (refine Keep.cut (s := s0) (t := x) ?_ ?_; (on_goal 1 => (unfold x; clear x)); (on_goal 2 => (clear_value x; intro k))) | (refine Keep.cut (s := s0) (t := x.1) ?_ ?_; (on_goal 1 => (unfold x; clear x)); (on_goal 2 => (clear_value x; intro k))) | clear_value x | skip)
    | intro _
    | with_reducible exact Keep.upd (by with_reducible assumption)
    | with_reducible apply Keep.foldl
    | with_reducible apply Keep.foldl_fst
    | with_reducible apply Keep.updPort
    | with_reducible apply Keep.updSession
    | with_reducible apply Keep.setPeerState
    | with_reducible apply Keep.joinPort
    | with_reducible apply Keep.startSetup
    | split

theorem Keep.execControlNop {s0 : State} {port : PortIx} {s : State} (h0 : Keep s0 s) : ResKeep s0 (Sys2Proof.Machine.execControlNop port s) := by
  unfold Sys2Proof.Machine.execControlNop
  repeat' first
    | with_reducible assumption
    | ((try lift_lets -underBinder); intro x; first | (refine Keep.cut (s := s0) (t := x) ?_ ?_; (on_goal 1 => (unfold x; clear x)); (on_goal 2 => (clear_value x; intro k))) | (refine Keep.cut (s := s0) (t := x.1) ?_ ?_; (on_goal 1 => (unfold x; clear x)); (on_goal 2 => (clear_value x; intro k))) | clear_value x | skip)
    | with_reducible apply Keep.next
    | with_reducible exact Keep.upd (by with_reducible assumption)
    | with_reducible apply Keep.openSession
    | with_reducible apply Keep.startSetup
    | with_reducible apply Keep.takeCtl (by with_reducible assumption)
    | split

theorem Keep.execLinkRefuse {s0 : State} {port : PortIx} {s : State} (h0 : Keep s0 s) : ResKeep s0 (Sys2Proof.Machine.execLinkRefuse port s) := by
  unfold Sys2Proof.Machine.execLinkRefuse
  repeat' first
    | with_reducible assumption
    | ((try lift_lets -underBinder); intro x; first | (refine Keep.cut (s := s0) (t := x) ?_ ?_; (on_goal 1 => (unfold x; clear x)); (on_goal 2 => (clear_value x; intro k))) | (refine Keep.cut (s := s0) (t := x.1) ?_ ?_; (on_goal 1 => (unfold x; clear x)); (on_goal 2 => (clear_value x; intro k))) | clear_value x | skip)
    | with_reducible apply Keep.next
    | with_reducible exact Keep.upd (by with_reducible assumption)
    | with_reducible apply Keep.endSetup
    | with_reducible apply Keep.portErr
    | with_reducible apply Keep.setPortState
    | with_reducible apply Keep.takeSetup (by with_reducible assumption)
    | split

theorem Keep.execSetupTimeout {s0 : State} {port : PortIx} {s : State} (h0 : Keep s0 s) : ResKeep s0 (Sys2Proof.Machine.execSetupTimeout port s) := by
  unfold Sys2Proof.Machine.execSetupTimeout
  repeat' first
    | with_reducible assumption
    | ((try lift_lets -underBinder); intro x; first | (refine Keep.cut (s := s0) (t := x) ?_ ?_; (on_goal 1 => (unfold x; clear x)); (on_goal 2 => (clear_value x; intro k))) | (refine Keep.cut (s := s0) (t := x.1) ?_ ?_; (on_goal 1 => (unfold x; clear x)); (on_goal 2 => (clear_value x; intro k))) | clear_value x | skip)
    | with_reducible apply Keep.next
    | with_reducible apply Keep.refusePort
    | with_reducible apply Keep.startSetup
    | split

theorem Keep.execJoinTimeout {s0 : State} {port : PortIx} {s : State} (h0 : Keep s0 s) : ResKeep s0 (Sys2Proof.Machine.execJoinTimeout port s) := by
  unfold Sys2Proof.Machine.execJoinTimeout
  repeat' first
    | with_reducible assumption
    | with_reducible apply Keep.next
    | with_reducible apply Keep.refusePort
    | split

theorem Keep.execRefusedHelloRetry {s0 : State} {port : PortIx} {s : State} (h0 : Keep s0 s) : ResKeep s0 (Sys2Proof.Machine.execRefusedHelloRetry port s) := by
  unfold Sys2Proof.Machine.execRefusedHelloRetry
  repeat' first
    | with_reducible assumption
    | with_reducible apply Keep.next
    | with_reducible apply Keep.startSetup
    | split

theorem Keep.join {s0 : State} {s : State} {carrier n p : Nat} (h0 : Keep s0 s) : Keep s0 (State.join s carrier n p) := by
  unfold State.join
  repeat' first
    | with_reducible assumption
    | ((try lift_lets -underBinder); intro x; first | (refine Keep.cut (s := s0) (t := x) ?_ ?_; (on_goal 1 => (unfold x; clear x)); (on_goal 2 => (clear_value x; intro k))) | (refine Keep.cut (s := s0) (t := x.1) ?_ ?_; (on_goal 1 => (unfold x; clear x)); (on_goal 2 => (clear_value x; intro k))) | clear_value x | skip)
    | intro _
    | with_reducible exact Keep.upd (by with_reducible assumption)
    | with_reducible apply Keep.updPort
    | with_reducible apply Keep.updSession
    | with_reducible apply Keep.startRekey
    | with_reducible apply Keep.joinPort
    | split

theorem Keep.execLinkJoin {s0 : State} {port : PortIx} {s : State} (h0 : Keep s0 s) : ResKeep s0 (Sys2Proof.Machine.execLinkJoin port s) := by
  unfold Sys2Proof.Machine.execLinkJoin
  repeat' first
    | with_reducible assumption
    | ((try lift_lets -underBinder); intro x; first | (refine Keep.cut (s := s0) (t := x) ?_ ?_; (on_goal 1 => (unfold x; clear x)); (on_goal 2 => (clear_value x; intro k))) | (refine Keep.cut (s := s0) (t := x.1) ?_ ?_; (on_goal 1 => (unfold x; clear x)); (on_goal 2 => (clear_value x; intro k))) | clear_value x | skip)
    | with_reducible apply Keep.next
    | with_reducible exact Keep.upd (by with_reducible assumption)
    | with_reducible apply Keep.join
    | with_reducible apply Keep.queueCtl
    | with_reducible apply Keep.takeCtl (by with_reducible assumption)
    | split

theorem Keep.execLinkJoinAck {s0 : State} {port : PortIx} {s : State} (h0 : Keep s0 s) : ResKeep s0 (Sys2Proof.Machine.execLinkJoinAck port s) := by
  unfold Sys2Proof.Machine.execLinkJoinAck
  repeat' first
    | with_reducible assumption
    | ((try lift_lets -underBinder); intro x; first | (refine Keep.cut (s := s0) (t := x) ?_ ?_; (on_goal 1 => (unfold x; clear x)); (on_goal 2 => (clear_value x; intro k))) | (refine Keep.cut (s := s0) (t := x.1) ?_ ?_; (on_goal 1 => (unfold x; clear x)); (on_goal 2 => (clear_value x; intro k))) | clear_value x | skip)
    | with_reducible apply Keep.next
    | with_reducible exact Keep.upd (by with_reducible assumption)
    | with_reducible apply Keep.join
    | with_reducible apply Keep.takeCtl (by with_reducible assumption)
    | split

theorem Keep.execRekeyStart {s0 : State} {port : PortIx} {s : State} (h0 : Keep s0 s) : ResKeep s0 (Sys2Proof.Machine.execRekeyStart port s) := by
  unfold Sys2Proof.Machine.execRekeyStart
  repeat' first
    | with_reducible assumption
    | ((try lift_lets -underBinder); intro x; first | (refine Keep.cut (s := s0) (t := x) ?_ ?_; (on_goal 1 => (unfold x; clear x)); (on_goal 2 => (clear_value x; intro k))) | (refine Keep.cut (s := s0) (t := x.1) ?_ ?_; (on_goal 1 => (unfold x; clear x)); (on_goal 2 => (clear_value x; intro k))) | clear_value x | skip)
    | with_reducible apply Keep.next
    | with_reducible exact Keep.upd (by with_reducible assumption)
    | with_reducible apply Keep.startRekey
    | split

theorem Keep.execLinkRekey {s0 : State} {port : PortIx} {s : State} (h0 : Keep s0 s) : ResKeep s0 (Sys2Proof.Machine.execLinkRekey port s) := by
  unfold Sys2Proof.Machine.execLinkRekey
  repeat' first
    | with_reducible assumption
    | ((try lift_lets -underBinder); intro x; first | (refine Keep.cut (s := s0) (t := x) ?_ ?_; (on_goal 1 => (unfold x; clear x)); (on_goal 2 => (clear_value x; intro k))) | (refine Keep.cut (s := s0) (t := x.1) ?_ ?_; (on_goal 1 => (unfold x; clear x)); (on_goal 2 => (clear_value x; intro k))) | clear_value x | skip)
    | with_reducible apply Keep.next
    | with_reducible exact Keep.upd (by with_reducible assumption)
    | with_reducible apply Keep.queueCtl
    | with_reducible apply Keep.updSession
    | with_reducible apply Keep.takeCtl (by with_reducible assumption)
    | split

theorem Keep.execLinkRekeyAck {s0 : State} {port : PortIx} {s : State} (h0 : Keep s0 s) : ResKeep s0 (Sys2Proof.Machine.execLinkRekeyAck port s) := by
  unfold Sys2Proof.Machine.execLinkRekeyAck
  repeat' first
    | with_reducible assumption
    | ((try lift_lets -underBinder); intro x; first | (refine Keep.cut (s := s0) (t := x) ?_ ?_; (on_goal 1 => (unfold x; clear x)); (on_goal 2 => (clear_value x; intro k))) | (refine Keep.cut (s := s0) (t := x.1) ?_ ?_; (on_goal 1 => (unfold x; clear x)); (on_goal 2 => (clear_value x; intro k))) | clear_value x | skip)
    | intro _
    | with_reducible apply Keep.next
    | with_reducible exact Keep.upd (by with_reducible assumption)
    | with_reducible apply Keep.foldl
    | with_reducible apply Keep.foldl_fst
    | with_reducible apply Keep.updPort
    | with_reducible apply Keep.updSession
    | with_reducible apply Keep.takeCtl (by with_reducible assumption)
    | with_reducible apply Keep.startRekey
    | with_reducible apply Keep.showEpoch
    | split

theorem Keep.execSeqExhausted {s0 : State} {port : PortIx} {s : State} (h0 : Keep s0 s) : ResKeep s0 (Sys2Proof.Machine.execSeqExhausted port s) := by
  unfold Sys2Proof.Machine.execSeqExhausted
  repeat' first
    | with_reducible assumption
    | ((try lift_lets -underBinder); intro x; first | (refine Keep.cut (s := s0) (t := x) ?_ ?_; (on_goal 1 => (unfold x; clear x)); (on_goal 2 => (clear_value x; intro k))) | (refine Keep.cut (s := s0) (t := x.1) ?_ ?_; (on_goal 1 => (unfold x; clear x)); (on_goal 2 => (clear_value x; intro k))) | clear_value x | skip)
    | with_reducible apply Keep.next
    | with_reducible exact Keep.upd (by with_reducible assumption)
    | with_reducible apply Keep.endSession
    | split

theorem Keep.execTagFailLimit {s0 : State} {port : PortIx} {s : State} (h0 : Keep s0 s) : ResKeep s0 (Sys2Proof.Machine.execTagFailLimit port s) := by
  unfold Sys2Proof.Machine.execTagFailLimit
  repeat' first
    | with_reducible assumption
    | ((try lift_lets -underBinder); intro x; first | (refine Keep.cut (s := s0) (t := x) ?_ ?_; (on_goal 1 => (unfold x; clear x)); (on_goal 2 => (clear_value x; intro k))) | (refine Keep.cut (s := s0) (t := x.1) ?_ ?_; (on_goal 1 => (unfold x; clear x)); (on_goal 2 => (clear_value x; intro k))) | clear_value x | skip)
    | with_reducible apply Keep.next
    | with_reducible exact Keep.upd (by with_reducible assumption)
    | with_reducible apply Keep.endSession
    | split

theorem Keep.execLinkLeave {s0 : State} {port : PortIx} {s : State} (h0 : Keep s0 s) : ResKeep s0 (Sys2Proof.Machine.execLinkLeave port s) := by
  unfold Sys2Proof.Machine.execLinkLeave
  repeat' first
    | with_reducible assumption
    | with_reducible apply Keep.next
    | with_reducible exact Keep.upd (by with_reducible assumption)
    | with_reducible apply Keep.depart
    | with_reducible apply Keep.takeCtl (by with_reducible assumption)
    | split

end Sys2Proof.Machine
end

