-- ==== Sys2Proof/Laws/KeepGroups.lean ====
section
/-!
SUPPORT. What the operations of Machine/Groups.lean keep (Laws/Keep.lean).
-/

set_option linter.unusedTactic false
set_option linter.unreachableTactic false

namespace Sys2Proof.Machine

theorem Keep.sentGroup {s0 : State} {s : State} {p : Nat} {b : Bytes} {kind : Nat} (h0 : Keep s0 s) : Keep s0 (State.sentGroup s p b kind) := by
  unfold State.sentGroup
  repeat' first
    | with_reducible assumption
    | ((try lift_lets -underBinder); intro x; first | (refine Keep.cut (s := s0) (t := x) ?_ ?_; (on_goal 1 => (unfold x; clear x)); (on_goal 2 => (clear_value x; intro k))) | (refine Keep.cut (s := s0) (t := x.1) ?_ ?_; (on_goal 1 => (unfold x; clear x)); (on_goal 2 => (clear_value x; intro k))) | clear_value x | skip)
    | with_reducible exact Keep.upd (by with_reducible assumption)
    | with_reducible apply Keep.emit
    | with_reducible apply Keep.updPort
    | split

theorem Keep.sendSealed {s0 : State} {s : State} {p kind map : Nat} {flits : Bytes} {msgs : List (Nat × Nat × Nat)} (h0 : Keep s0 s) : Keep s0 (State.sendSealed s p kind map flits msgs) := by
  unfold State.sendSealed
  repeat' first
    | with_reducible assumption
    | ((try lift_lets -underBinder); intro x; first | (refine Keep.cut (s := s0) (t := x) ?_ ?_; (on_goal 1 => (unfold x; clear x)); (on_goal 2 => (clear_value x; intro k))) | (refine Keep.cut (s := s0) (t := x.1) ?_ ?_; (on_goal 1 => (unfold x; clear x)); (on_goal 2 => (clear_value x; intro k))) | clear_value x | skip)
    | with_reducible exact Keep.upd (by with_reducible assumption)
    | with_reducible apply Keep.portCount
    | with_reducible apply Keep.sentGroup
    | with_reducible apply Keep.updPort
    | split

theorem Keep.sendPlain {s0 : State} {s : State} {p kind : Nat} {flits : Bytes} (h0 : Keep s0 s) : Keep s0 (State.sendPlain s p kind flits) := by
  unfold State.sendPlain
  repeat' first
    | with_reducible assumption
    | with_reducible apply Keep.sentGroup

theorem Keep.sendLeave {s0 : State} {s : State} {n : Nat} (h0 : Keep s0 s) : Keep s0 (State.sendLeave s n) := by
  unfold State.sendLeave
  repeat' first
    | with_reducible assumption
    | with_reducible exact Keep.upd (by with_reducible assumption)
    | with_reducible apply Keep.sendSealed
    | with_reducible apply Keep.tick
    | split

theorem Keep.sendAgain {s0 : State} {s : State} {p : Nat} (h0 : Keep s0 s) : Keep s0 (State.sendAgain s p) := by
  unfold State.sendAgain
  repeat' first
    | with_reducible assumption
    | ((try lift_lets -underBinder); intro x; first | (refine Keep.cut (s := s0) (t := x) ?_ ?_; (on_goal 1 => (unfold x; clear x)); (on_goal 2 => (clear_value x; intro k))) | (refine Keep.cut (s := s0) (t := x.1) ?_ ?_; (on_goal 1 => (unfold x; clear x)); (on_goal 2 => (clear_value x; intro k))) | clear_value x | skip)
    | with_reducible exact Keep.upd (by with_reducible assumption)
    | with_reducible apply Keep.emit
    | with_reducible apply Keep.portCount
    | with_reducible apply Keep.updPort
    | split

theorem Keep.sendData {s0 : State} {s : State} {p : Nat} {picks : List (Fin 4)} (h0 : Keep s0 s) : Keep s0 (State.sendData s p picks) := by
  unfold State.sendData
  repeat' first
    | with_reducible assumption
    | ((try lift_lets -underBinder); intro x; first | (refine Keep.cut (s := s0) (t := x) ?_ ?_; (on_goal 1 => (unfold x; clear x)); (on_goal 2 => (clear_value x; intro k))) | (refine Keep.cut (s := s0) (t := x.1) ?_ ?_; (on_goal 1 => (unfold x; clear x)); (on_goal 2 => (clear_value x; intro k))) | clear_value x | skip)
    | with_reducible apply Keep.sendSealed
    | with_reducible apply Keep.updPort
    | split

theorem Keep.execGroupSend {s0 : State} {port : PortIx} {kind : Fin 4} {picks : List (Fin 4)} {s : State} (h0 : Keep s0 s) : ResKeep s0 (Sys2Proof.Machine.execGroupSend port kind picks s) := by
  unfold Sys2Proof.Machine.execGroupSend
  repeat' first
    | with_reducible assumption
    | ((try lift_lets -underBinder); intro x; first | (refine Keep.cut (s := s0) (t := x) ?_ ?_; (on_goal 1 => (unfold x; clear x)); (on_goal 2 => (clear_value x; intro k))) | (refine Keep.cut (s := s0) (t := x.1) ?_ ?_; (on_goal 1 => (unfold x; clear x)); (on_goal 2 => (clear_value x; intro k))) | clear_value x | skip)
    | intro _
    | with_reducible apply Keep.next
    | with_reducible exact Keep.upd (by with_reducible assumption)
    | with_reducible apply Keep.sendSealed
    | with_reducible apply Keep.sendPlain
    | with_reducible apply Keep.sendAgain
    | with_reducible apply Keep.sendData
    | with_reducible apply Keep.updPort
    | split

theorem Keep.execRetryTimeout {s0 : State} {port : PortIx} {s : State} (h0 : Keep s0 s) : ResKeep s0 (Sys2Proof.Machine.execRetryTimeout port s) := by
  unfold Sys2Proof.Machine.execRetryTimeout
  repeat' first
    | with_reducible assumption
    | ((try lift_lets -underBinder); intro x; first | (refine Keep.cut (s := s0) (t := x) ?_ ?_; (on_goal 1 => (unfold x; clear x)); (on_goal 2 => (clear_value x; intro k))) | (refine Keep.cut (s := s0) (t := x.1) ?_ ?_; (on_goal 1 => (unfold x; clear x)); (on_goal 2 => (clear_value x; intro k))) | clear_value x | skip)
    | with_reducible apply Keep.next
    | with_reducible exact Keep.upd (by with_reducible assumption)
    | with_reducible apply Keep.updPort

theorem Keep.takeAck {s0 : State} {s : State} {p hdr : Nat} (h0 : Keep s0 s) : Keep s0 (State.takeAck s p hdr) := by
  unfold State.takeAck
  repeat' first
    | with_reducible assumption
    | ((try lift_lets -underBinder); intro x; first | (refine Keep.cut (s := s0) (t := x) ?_ ?_; (on_goal 1 => (unfold x; clear x)); (on_goal 2 => (clear_value x; intro k))) | (refine Keep.cut (s := s0) (t := x.1) ?_ ?_; (on_goal 1 => (unfold x; clear x)); (on_goal 2 => (clear_value x; intro k))) | clear_value x | skip)
    | with_reducible exact Keep.upd (by with_reducible assumption)
    | with_reducible apply Keep.updPort
    | split

theorem Keep.failGroupRx {s0 : State} {s : State} {p : Nat} (h0 : Keep s0 s) : Keep s0 (State.failGroupRx s p) := by
  unfold State.failGroupRx
  repeat' first
    | with_reducible assumption
    | ((try lift_lets -underBinder); intro x; first | (refine Keep.cut (s := s0) (t := x) ?_ ?_; (on_goal 1 => (unfold x; clear x)); (on_goal 2 => (clear_value x; intro k))) | (refine Keep.cut (s := s0) (t := x.1) ?_ ?_; (on_goal 1 => (unfold x; clear x)); (on_goal 2 => (clear_value x; intro k))) | clear_value x | skip)
    | with_reducible exact Keep.upd (by with_reducible assumption)
    | with_reducible apply Keep.updPort

theorem Keep.acceptSeq {s0 : State} {s : State} {p epoch hdr : Nat} (h0 : Keep s0 s) : Keep s0 (State.acceptSeq s p epoch hdr) := by
  unfold State.acceptSeq
  repeat' first
    | with_reducible assumption
    | ((try lift_lets -underBinder); intro x; first | (refine Keep.cut (s := s0) (t := x) ?_ ?_; (on_goal 1 => (unfold x; clear x)); (on_goal 2 => (clear_value x; intro k))) | (refine Keep.cut (s := s0) (t := x.1) ?_ ?_; (on_goal 1 => (unfold x; clear x)); (on_goal 2 => (clear_value x; intro k))) | clear_value x | skip)
    | with_reducible exact Keep.upd (by with_reducible assumption)
    | with_reducible apply Keep.portCount
    | with_reducible apply Keep.takeAck
    | with_reducible apply Keep.updPort

theorem Keep.takePlain {s0 : State} {s : State} {p hdr map : Nat} {pt : Bytes} (h0 : Keep s0 s) : Keep s0 (State.takePlain s p hdr map pt) := by
  unfold State.takePlain
  repeat' first
    | with_reducible assumption
    | ((try lift_lets -underBinder); intro x; first | (refine Keep.cut (s := s0) (t := x) ?_ ?_; (on_goal 1 => (unfold x; clear x)); (on_goal 2 => (clear_value x; intro k))) | (refine Keep.cut (s := s0) (t := x.1) ?_ ?_; (on_goal 1 => (unfold x; clear x)); (on_goal 2 => (clear_value x; intro k))) | clear_value x | skip)
    | intro _
    | with_reducible exact Keep.upd (by with_reducible assumption)
    | with_reducible apply Keep.updPort
    | with_reducible apply Keep.endSession
    | split

theorem Keep.takeSealed {s0 : State} {s : State} {p : Nat} {epochs : List Nat} {b : Bytes} (h0 : Keep s0 s) : Keep s0 (State.takeSealed s p epochs b) := by
  unfold State.takeSealed
  repeat' first
    | with_reducible assumption
    | ((try lift_lets -underBinder); intro x; first | (refine Keep.cut (s := s0) (t := x) ?_ ?_; (on_goal 1 => (unfold x; clear x)); (on_goal 2 => (clear_value x; intro k))) | (refine Keep.cut (s := s0) (t := x.1) ?_ ?_; (on_goal 1 => (unfold x; clear x)); (on_goal 2 => (clear_value x; intro k))) | clear_value x | skip)
    | intro _
    | with_reducible exact Keep.upd (by with_reducible assumption)
    | with_reducible apply Keep.failGroupRx
    | with_reducible apply Keep.acceptSeq
    | with_reducible apply Keep.takePlain
    | with_reducible apply Keep.updSession
    | with_reducible apply Keep.portCount
    | split

theorem Keep.takeGroup {s0 : State} {s : State} {p : Nat} {b : Bytes} (h0 : Keep s0 s) : Keep s0 (State.takeGroup s p b) := by
  unfold State.takeGroup
  repeat' first
    | with_reducible assumption
    | ((try lift_lets -underBinder); intro x; first | (refine Keep.cut (s := s0) (t := x) ?_ ?_; (on_goal 1 => (unfold x; clear x)); (on_goal 2 => (clear_value x; intro k))) | (refine Keep.cut (s := s0) (t := x.1) ?_ ?_; (on_goal 1 => (unfold x; clear x)); (on_goal 2 => (clear_value x; intro k))) | clear_value x | skip)
    | intro _
    | with_reducible exact Keep.upd (by with_reducible assumption)
    | with_reducible apply Keep.takeAck
    | with_reducible apply Keep.failGroupRx
    | with_reducible apply Keep.takeSealed
    | with_reducible apply Keep.updPort
    | split

theorem Keep.execGroupReceive {s0 : State} {port : PortIx} {data : List Byte} {corrected uncorrectable : Nat} {s : State} (h0 : Keep s0 s) : ResKeep s0 (Sys2Proof.Machine.execGroupReceive port data corrected uncorrectable s) := by
  unfold Sys2Proof.Machine.execGroupReceive
  repeat' first
    | with_reducible assumption
    | ((try lift_lets -underBinder); intro x; first | (refine Keep.cut (s := s0) (t := x) ?_ ?_; (on_goal 1 => (unfold x; clear x)); (on_goal 2 => (clear_value x; intro k))) | (refine Keep.cut (s := s0) (t := x.1) ?_ ?_; (on_goal 1 => (unfold x; clear x)); (on_goal 2 => (clear_value x; intro k))) | clear_value x | skip)
    | with_reducible apply Keep.next
    | with_reducible apply Keep.failGroupRx
    | with_reducible apply Keep.takeGroup
    | with_reducible apply Keep.portCount
    | split

theorem Keep.execEthTailWrite {s0 : State} {port : PortIx} {rx : Bool} {tail : BitVec 16} {s : State} (h0 : Keep s0 s) : ResKeep s0 (Sys2Proof.Machine.execEthTailWrite port rx tail s) := by
  unfold Sys2Proof.Machine.execEthTailWrite
  repeat' first
    | with_reducible assumption
    | with_reducible apply Keep.next
    | with_reducible apply Keep.setF
    | split

theorem Keep.ringDone {s0 : State} {s : State} {p : Nat} {rx : Bool} {a w1 : Nat} {err : Bool} (h0 : Keep s0 s) : Keep s0 (State.ringDone s p rx a w1 err) := by
  unfold State.ringDone
  repeat' first
    | with_reducible assumption
    | ((try lift_lets -underBinder); intro x; first | (refine Keep.cut (s := s0) (t := x) ?_ ?_; (on_goal 1 => (unfold x; clear x)); (on_goal 2 => (clear_value x; intro k))) | (refine Keep.cut (s := s0) (t := x.1) ?_ ?_; (on_goal 1 => (unfold x; clear x)); (on_goal 2 => (clear_value x; intro k))) | clear_value x | skip)
    | with_reducible apply Keep.hubWrite
    | with_reducible apply Keep.raise
    | with_reducible apply Keep.setF
    | with_reducible apply Keep.of_fst (by with_reducible assumption)
    | split

theorem Keep.execEthFrameTransmit {s0 : State} {port : PortIx} {s : State} (h0 : Keep s0 s) : ResKeep s0 (Sys2Proof.Machine.execEthFrameTransmit port s) := by
  unfold Sys2Proof.Machine.execEthFrameTransmit
  repeat' first
    | with_reducible assumption
    | ((try lift_lets -underBinder); intro x; first | (refine Keep.cut (s := s0) (t := x) ?_ ?_; (on_goal 1 => (unfold x; clear x)); (on_goal 2 => (clear_value x; intro k))) | (refine Keep.cut (s := s0) (t := x.1) ?_ ?_; (on_goal 1 => (unfold x; clear x)); (on_goal 2 => (clear_value x; intro k))) | clear_value x | skip)
    | with_reducible apply Keep.next
    | with_reducible exact Keep.upd (by with_reducible assumption)
    | with_reducible apply Keep.emit
    | with_reducible apply Keep.hubRead
    | with_reducible apply Keep.ringDone
    | with_reducible apply Keep.of_fst (by with_reducible assumption)
    | with_reducible refine Keep.upd (Keep.of_fst (by with_reducible assumption) ?_)
    | split

theorem Keep.fillFrame {s0 s : State} {p : Nat} {b : Bytes} {n : Nat} (h : Keep s0 s) : Keep s0 (s.fillFrame p b n) := by
  induction n generalizing s with
  | zero => exact Keep.portCount h
  | succ n ih =>
    unfold State.fillFrame
    repeat' first
      | with_reducible assumption
      | (lift_lets -underBinder; intro x y; clear_value y x)
      | with_reducible apply Keep.portCount
      | with_reducible apply ih
      | with_reducible apply Keep.ringDone
      | with_reducible apply Keep.hubRead
      | with_reducible apply Keep.hubWrite
      | with_reducible apply Keep.of_fst (by with_reducible assumption)
      | split

theorem Keep.execEthFrameReceive {s0 : State} {port : PortIx} {frame : List Byte} {s : State} (h0 : Keep s0 s) : ResKeep s0 (Sys2Proof.Machine.execEthFrameReceive port frame s) := by
  unfold Sys2Proof.Machine.execEthFrameReceive
  repeat' first
    | with_reducible assumption
    | ((try lift_lets -underBinder); intro x; first | (refine Keep.cut (s := s0) (t := x) ?_ ?_; (on_goal 1 => (unfold x; clear x)); (on_goal 2 => (clear_value x; intro k))) | (refine Keep.cut (s := s0) (t := x.1) ?_ ?_; (on_goal 1 => (unfold x; clear x)); (on_goal 2 => (clear_value x; intro k))) | clear_value x | skip)
    | with_reducible apply Keep.next
    | with_reducible apply Keep.fillFrame
    | with_reducible apply Keep.portCount
    | split

end Sys2Proof.Machine
end

