-- ==== Sys2Proof/Laws/KeepIdle.lean ====
section
/-!
SUPPORT. What the operations of Machine/Idle.lean keep (Laws/Keep.lean).
-/

set_option linter.unusedTactic false
set_option linter.unreachableTactic false

namespace Sys2Proof.Machine

theorem Keep.idle {s0 : State} {s : State} (h0 : Keep s0 s) : Keep s0 (State.idle s) := by
  unfold State.idle
  repeat' first
    | with_reducible assumption
    | with_reducible apply Keep.set
    | split

end Sys2Proof.Machine
end

