-- ==== Sys2Proof/Laws/KeepResets.lean ====
section
/-!
SUPPORT. What the operations of Machine/Resets.lean keep (Laws/Keep.lean).
-/

set_option linter.unusedTactic false
set_option linter.unreachableTactic false

namespace Sys2Proof.Machine

theorem Keep.stopHub {s0 s : State} {k : ResetKind} (h : Keep s0 s) : Keep s0 (s.stopHub k) := by
  unfold State.stopHub
  have k' := Keep.resetRegs (k := k) h
  generalize s.resetRegs k = u at k' ⊢
  refine Keep.set (k'.trans ⟨rfl, le_refl _, List.prefix_refl _, fun c => ?_⟩)
  unfold State.canon at c ⊢
  exact ⟨c.1, rfl, rfl, rfl⟩

theorem Keep.noteCause {s0 : State} {s : State} {c : Nat} (h0 : Keep s0 s) : Keep s0 (State.noteCause s c) := by
  unfold State.noteCause
  repeat' first
    | with_reducible assumption
    | with_reducible apply Keep.addF
    | with_reducible apply Keep.set

theorem Keep.moduleReset {s0 : State} {s : State} {cause : Nat} (h0 : Keep s0 s) : Keep s0 (State.moduleReset s cause) := by
  unfold State.moduleReset
  repeat' first
    | with_reducible assumption
    | ((try lift_lets -underBinder); intro x; first | (refine Keep.cut (s := s0) (t := x) ?_ ?_; (on_goal 1 => (unfold x; clear x)); (on_goal 2 => (clear_value x; intro k))) | (refine Keep.cut (s := s0) (t := x.1) ?_ ?_; (on_goal 1 => (unfold x; clear x)); (on_goal 2 => (clear_value x; intro k))) | clear_value x | skip)
    | with_reducible exact Keep.upd (by with_reducible assumption)
    | with_reducible apply Keep.noteCause
    | with_reducible apply Keep.showCalib
    | with_reducible apply Keep.startPilot
    | with_reducible apply Keep.stopHub
    | with_reducible apply Keep.updPilot
    | split

theorem Keep.hubReset {s0 : State} {s : State} {cause : Nat} (h0 : Keep s0 s) : Keep s0 (State.hubReset s cause) := by
  unfold State.hubReset
  repeat' first
    | with_reducible assumption
    | ((try lift_lets -underBinder); intro x; first | (refine Keep.cut (s := s0) (t := x) ?_ ?_; (on_goal 1 => (unfold x; clear x)); (on_goal 2 => (clear_value x; intro k))) | (refine Keep.cut (s := s0) (t := x.1) ?_ ?_; (on_goal 1 => (unfold x; clear x)); (on_goal 2 => (clear_value x; intro k))) | clear_value x | skip)
    | with_reducible exact Keep.upd (by with_reducible assumption)
    | with_reducible apply Keep.noteCause
    | with_reducible apply Keep.set
    | with_reducible apply Keep.showCalib
    | with_reducible apply Keep.stopHub
    | with_reducible apply Keep.updPilot
    | split

theorem Keep.execPowerLoss {s0 : State} {s : State} (h0 : Keep s0 s) : ResKeep s0 (Sys2Proof.Machine.execPowerLoss s) := by
  unfold Sys2Proof.Machine.execPowerLoss
  repeat' first
    | with_reducible assumption
    | ((try lift_lets -underBinder); intro x; first | (refine Keep.cut (s := s0) (t := x) ?_ ?_; (on_goal 1 => (unfold x; clear x)); (on_goal 2 => (clear_value x; intro k))) | (refine Keep.cut (s := s0) (t := x.1) ?_ ?_; (on_goal 1 => (unfold x; clear x)); (on_goal 2 => (clear_value x; intro k))) | clear_value x | skip)
    | with_reducible apply Keep.next
    | with_reducible exact Keep.upd (by with_reducible assumption)
    | with_reducible apply Keep.stopHub
    | with_reducible apply Keep.updPilot
    | split

theorem Keep.execColdReset {s0 : State} {feed : Fin 2} {dv : BitVec 10} {s : State} (h0 : Keep s0 s) : ResKeep s0 (Sys2Proof.Machine.execColdReset feed dv s) := by
  unfold Sys2Proof.Machine.execColdReset
  repeat' first
    | with_reducible assumption
    | ((try lift_lets -underBinder); intro x; first | (refine Keep.cut (s := s0) (t := x) ?_ ?_; (on_goal 1 => (unfold x; clear x)); (on_goal 2 => (clear_value x; intro k))) | (refine Keep.cut (s := s0) (t := x.1) ?_ ?_; (on_goal 1 => (unfold x; clear x)); (on_goal 2 => (clear_value x; intro k))) | clear_value x | skip)
    | with_reducible apply Keep.next
    | with_reducible apply Keep.set
    | with_reducible apply Keep.startPilot
    | with_reducible apply Keep.stopHub
    | with_reducible apply Keep.updPilot
    | split

theorem Keep.trip {s0 : State} {s : State} (h0 : Keep s0 s) : Keep s0 (State.trip s) := by
  unfold State.trip
  repeat' first
    | with_reducible assumption
    | intro _
    | with_reducible exact Keep.upd (by with_reducible assumption)
    | with_reducible apply Keep.updPilot
    | with_reducible apply Keep.showCalib
    | with_reducible apply Keep.stopHub
    | split

theorem Keep.execThermtrip {s0 : State} {die : Fin 6} {celsius : Byte} {s : State} (h0 : Keep s0 s) : ResKeep s0 (Sys2Proof.Machine.execThermtrip die celsius s) := by
  unfold Sys2Proof.Machine.execThermtrip
  repeat' first
    | with_reducible assumption
    | with_reducible apply Keep.next
    | with_reducible apply Keep.setDieC
    | with_reducible apply Keep.trip
    | split

theorem Keep.execThermalStretch {s0 : State} {die : Fin 6} {celsius : Byte} {step : Fin 64} {s : State} (h0 : Keep s0 s) : ResKeep s0 (Sys2Proof.Machine.execThermalStretch die celsius step s) := by
  unfold Sys2Proof.Machine.execThermalStretch
  repeat' first
    | with_reducible assumption
    | ((try lift_lets -underBinder); intro x; first | (refine Keep.cut (s := s0) (t := x) ?_ ?_; (on_goal 1 => (unfold x; clear x)); (on_goal 2 => (clear_value x; intro k))) | (refine Keep.cut (s := s0) (t := x.1) ?_ ?_; (on_goal 1 => (unfold x; clear x)); (on_goal 2 => (clear_value x; intro k))) | clear_value x | skip)
    | intro _
    | with_reducible apply Keep.next
    | with_reducible exact Keep.upd (by with_reducible assumption)
    | with_reducible apply Keep.set
    | with_reducible apply Keep.updPilot
    | with_reducible apply Keep.showStretch
    | with_reducible apply Keep.setDieC
    | with_reducible apply Keep.trip
    | split

theorem Keep.execResetInN {s0 : State} {s : State} (h0 : Keep s0 s) : ResKeep s0 (Sys2Proof.Machine.execResetInN s) := by
  unfold Sys2Proof.Machine.execResetInN
  repeat' first
    | with_reducible assumption
    | ((try lift_lets -underBinder); intro x; first | (refine Keep.cut (s := s0) (t := x) ?_ ?_; (on_goal 1 => (unfold x; clear x)); (on_goal 2 => (clear_value x; intro k))) | (refine Keep.cut (s := s0) (t := x.1) ?_ ?_; (on_goal 1 => (unfold x; clear x)); (on_goal 2 => (clear_value x; intro k))) | clear_value x | skip)
    | with_reducible apply Keep.next
    | with_reducible exact Keep.upd (by with_reducible assumption)
    | with_reducible apply Keep.moduleReset
    | with_reducible apply Keep.updPilot

theorem Keep.execResetInNRelease {s0 : State} {s : State} (h0 : Keep s0 s) : ResKeep s0 (Sys2Proof.Machine.execResetInNRelease s) := by
  unfold Sys2Proof.Machine.execResetInNRelease
  repeat' first
    | with_reducible assumption
    | ((try lift_lets -underBinder); intro x; first | (refine Keep.cut (s := s0) (t := x) ?_ ?_; (on_goal 1 => (unfold x; clear x)); (on_goal 2 => (clear_value x; intro k))) | (refine Keep.cut (s := s0) (t := x.1) ?_ ?_; (on_goal 1 => (unfold x; clear x)); (on_goal 2 => (clear_value x; intro k))) | clear_value x | skip)
    | with_reducible apply Keep.next
    | with_reducible exact Keep.upd (by with_reducible assumption)
    | with_reducible apply Keep.startPilot
    | with_reducible apply Keep.updPilot
    | split

theorem Keep.execRefclkLoss {s0 : State} {s : State} (h0 : Keep s0 s) : ResKeep s0 (Sys2Proof.Machine.execRefclkLoss s) := by
  unfold Sys2Proof.Machine.execRefclkLoss
  repeat' first
    | with_reducible assumption
    | ((try lift_lets -underBinder); intro x; first | (refine Keep.cut (s := s0) (t := x) ?_ ?_; (on_goal 1 => (unfold x; clear x)); (on_goal 2 => (clear_value x; intro k))) | (refine Keep.cut (s := s0) (t := x.1) ?_ ?_; (on_goal 1 => (unfold x; clear x)); (on_goal 2 => (clear_value x; intro k))) | clear_value x | skip)
    | with_reducible apply Keep.next
    | with_reducible exact Keep.upd (by with_reducible assumption)
    | with_reducible apply Keep.set
    | with_reducible apply Keep.updPilot
    | split

theorem Keep.execRefclkReturn {s0 : State} {s : State} (h0 : Keep s0 s) : ResKeep s0 (Sys2Proof.Machine.execRefclkReturn s) := by
  unfold Sys2Proof.Machine.execRefclkReturn
  repeat' first
    | with_reducible assumption
    | with_reducible apply Keep.next
    | with_reducible apply Keep.moduleReset
    | with_reducible apply Keep.set
    | split

theorem Keep.execRefclkArrival {s0 : State} {s : State} (h0 : Keep s0 s) : ResKeep s0 (Sys2Proof.Machine.execRefclkArrival s) := by
  unfold Sys2Proof.Machine.execRefclkArrival
  repeat' first
    | with_reducible assumption
    | ((try lift_lets -underBinder); intro x; first | (refine Keep.cut (s := s0) (t := x) ?_ ?_; (on_goal 1 => (unfold x; clear x)); (on_goal 2 => (clear_value x; intro k))) | (refine Keep.cut (s := s0) (t := x.1) ?_ ?_; (on_goal 1 => (unfold x; clear x)); (on_goal 2 => (clear_value x; intro k))) | clear_value x | skip)
    | with_reducible apply Keep.next
    | with_reducible exact Keep.upd (by with_reducible assumption)
    | with_reducible apply Keep.set
    | with_reducible apply Keep.updPilot
    | split

theorem Keep.execHubWatchdog {s0 : State} {s : State} (h0 : Keep s0 s) : ResKeep s0 (Sys2Proof.Machine.execHubWatchdog s) := by
  unfold Sys2Proof.Machine.execHubWatchdog
  repeat' first
    | with_reducible assumption
    | with_reducible apply Keep.next
    | with_reducible apply Keep.hubReset
    | with_reducible apply Keep.set
    | split

theorem Keep.execModuleReset {s0 : State} {req : Option (List Byte)} {s : State} (h0 : Keep s0 s) : ResKeep s0 (Sys2Proof.Machine.execModuleReset req s) := by
  unfold Sys2Proof.Machine.execModuleReset
  repeat' first
    | with_reducible assumption
    | intro _
    | with_reducible apply Keep.next
    | with_reducible apply Keep.deliver
    | with_reducible apply Keep.moduleReset
    | with_reducible apply Keep.vendor
    | split

theorem Keep.execHubWarmReset {s0 : State} {req : Option (List Byte)} {s : State} (h0 : Keep s0 s) : ResKeep s0 (Sys2Proof.Machine.execHubWarmReset req s) := by
  unfold Sys2Proof.Machine.execHubWarmReset
  repeat' first
    | with_reducible assumption
    | intro _
    | with_reducible apply Keep.next
    | with_reducible apply Keep.deliver
    | with_reducible apply Keep.hubReset
    | with_reducible apply Keep.vendor
    | split

theorem Keep.execPowerStatus {s0 : State} {req : Option (List Byte)} {s : State} (h0 : Keep s0 s) : ResKeep s0 (Sys2Proof.Machine.execPowerStatus req s) := by
  unfold Sys2Proof.Machine.execPowerStatus
  repeat' first
    | with_reducible assumption
    | intro _
    | with_reducible apply Keep.next
    | with_reducible apply Keep.vendorCmd
    | split

theorem Keep.execResetCtrlModule {s0 : State} {s : State} (h0 : Keep s0 s) : ResKeep s0 (Sys2Proof.Machine.execResetCtrlModule s) := by
  unfold Sys2Proof.Machine.execResetCtrlModule
  repeat' first
    | with_reducible assumption
    | intro _
    | with_reducible apply Keep.next
    | with_reducible apply Keep.cxlIo
    | with_reducible apply Keep.moduleReset

theorem Keep.execResetCtrlHubWarm {s0 : State} {s : State} (h0 : Keep s0 s) : ResKeep s0 (Sys2Proof.Machine.execResetCtrlHubWarm s) := by
  unfold Sys2Proof.Machine.execResetCtrlHubWarm
  repeat' first
    | with_reducible assumption
    | intro _
    | with_reducible apply Keep.next
    | with_reducible apply Keep.cxlIo
    | with_reducible apply Keep.hubReset

end Sys2Proof.Machine
end

