-- ==== Sys2Proof/Laws/KeepLifeCycle.lean ====
section
/-!
SUPPORT. What the operations of Machine/LifeCycle.lean keep (Laws/Keep.lean).
-/

set_option linter.unusedTactic false
set_option linter.unreachableTactic false

namespace Sys2Proof.Machine

theorem Keep.execLcStatus {s0 : State} {req : Option (List Byte)} {s : State} (h0 : Keep s0 s) : ResKeep s0 (Sys2Proof.Machine.execLcStatus req s) := by
  unfold Sys2Proof.Machine.execLcStatus
  repeat' first
    | with_reducible assumption
    | ((try lift_lets -underBinder); intro x; first | (refine Keep.cut (s := s0) (t := x) ?_ ?_; (on_goal 1 => (unfold x; clear x)); (on_goal 2 => (clear_value x; intro k))) | (refine Keep.cut (s := s0) (t := x.1) ?_ ?_; (on_goal 1 => (unfold x; clear x)); (on_goal 2 => (clear_value x; intro k))) | clear_value x | skip)
    | with_reducible apply Keep.next
    | with_reducible apply Keep.vendorCmd
    | split

theorem Keep.execLcNonce {s0 : State} {req : Option (List Byte)} {s : State} (h0 : Keep s0 s) : ResKeep s0 (Sys2Proof.Machine.execLcNonce req s) := by
  unfold Sys2Proof.Machine.execLcNonce
  repeat' first
    | with_reducible assumption
    | ((try lift_lets -underBinder); intro x; first | (refine Keep.cut (s := s0) (t := x) ?_ ?_; (on_goal 1 => (unfold x; clear x)); (on_goal 2 => (clear_value x; intro k))) | (refine Keep.cut (s := s0) (t := x.1) ?_ ?_; (on_goal 1 => (unfold x; clear x)); (on_goal 2 => (clear_value x; intro k))) | clear_value x | skip)
    | with_reducible apply Keep.next
    | with_reducible exact Keep.upd (by with_reducible assumption)
    | with_reducible apply Keep.tick
    | with_reducible apply Keep.updPilot
    | with_reducible apply Keep.vendorCmd
    | split

theorem Keep.execNonceExpiry {s0 : State} {s : State} (h0 : Keep s0 s) : ResKeep s0 (Sys2Proof.Machine.execNonceExpiry s) := by
  unfold Sys2Proof.Machine.execNonceExpiry
  repeat' first
    | with_reducible assumption
    | ((try lift_lets -underBinder); intro x; first | (refine Keep.cut (s := s0) (t := x) ?_ ?_; (on_goal 1 => (unfold x; clear x)); (on_goal 2 => (clear_value x; intro k))) | (refine Keep.cut (s := s0) (t := x.1) ?_ ?_; (on_goal 1 => (unfold x; clear x)); (on_goal 2 => (clear_value x; intro k))) | clear_value x | skip)
    | with_reducible apply Keep.next
    | with_reducible exact Keep.upd (by with_reducible assumption)
    | with_reducible apply Keep.updPilot

theorem Keep.execWearStatus {s0 : State} {req : Option (List Byte)} {s : State} (h0 : Keep s0 s) : ResKeep s0 (Sys2Proof.Machine.execWearStatus req s) := by
  unfold Sys2Proof.Machine.execWearStatus
  repeat' first
    | with_reducible assumption
    | ((try lift_lets -underBinder); intro x; first | (refine Keep.cut (s := s0) (t := x) ?_ ?_; (on_goal 1 => (unfold x; clear x)); (on_goal 2 => (clear_value x; intro k))) | (refine Keep.cut (s := s0) (t := x.1) ?_ ?_; (on_goal 1 => (unfold x; clear x)); (on_goal 2 => (clear_value x; intro k))) | clear_value x | skip)
    | with_reducible apply Keep.next
    | with_reducible apply Keep.vendorCmd
    | with_reducible apply Keep.wear
    | split

theorem Keep.execCertStore {s0 : State} {req : Option (List Byte)} {s : State} (h0 : Keep s0 s) : ResKeep s0 (Sys2Proof.Machine.execCertStore req s) := by
  unfold Sys2Proof.Machine.execCertStore
  repeat' first
    | with_reducible assumption
    | ((try lift_lets -underBinder); intro x; first | (refine Keep.cut (s := s0) (t := x) ?_ ?_; (on_goal 1 => (unfold x; clear x)); (on_goal 2 => (clear_value x; intro k))) | (refine Keep.cut (s := s0) (t := x.1) ?_ ?_; (on_goal 1 => (unfold x; clear x)); (on_goal 2 => (clear_value x; intro k))) | clear_value x | skip)
    | with_reducible apply Keep.next
    | with_reducible exact Keep.upd (by with_reducible assumption)
    | with_reducible apply Keep.atWearLimit
    | with_reducible apply Keep.eraseArea
    | with_reducible apply Keep.updFlash
    | with_reducible apply Keep.vendorCmd
    | split

theorem Keep.wipeUnit {s0 : State} {s : State} {a : Nat} {f : Flash → Flash} (h0 : Keep s0 s) : Keep s0 (State.wipeUnit s a f) := by
  unfold State.wipeUnit
  repeat' first
    | with_reducible assumption
    | with_reducible apply Keep.atWearLimit
    | with_reducible apply Keep.eraseArea
    | with_reducible apply Keep.updFlash
    | split

theorem Keep.transition {s0 : State} {s : State} {b : Bytes} {feedDrop flashFail : Bool} (h0 : Keep s0 s) : Keep s0 (State.transition s b feedDrop flashFail) := by
  unfold State.transition
  repeat' first
    | with_reducible assumption
    | ((try lift_lets -underBinder); intro x; first | (refine Keep.cut (s := s0) (t := x) ?_ ?_; (on_goal 1 => (unfold x; clear x)); (on_goal 2 => (clear_value x; intro k))) | (refine Keep.cut (s := s0) (t := x.1) ?_ ?_; (on_goal 1 => (unfold x; clear x)); (on_goal 2 => (clear_value x; intro k))) | clear_value x | skip)
    | with_reducible exact Keep.upd (by with_reducible assumption)
    | with_reducible apply Keep.eraseArea
    | with_reducible apply Keep.moduleReset
    | with_reducible apply Keep.updFlash
    | with_reducible apply Keep.updPilot
    | with_reducible apply Keep.wipeUnit
    | split

theorem Keep.execLcTransition {s0 : State} {req : Option (List Byte)} {feedDrop flashFail : Bool} {s : State} (h0 : Keep s0 s) : ResKeep s0 (Sys2Proof.Machine.execLcTransition req feedDrop flashFail s) := by
  unfold Sys2Proof.Machine.execLcTransition
  repeat' first
    | with_reducible assumption
    | ((try lift_lets -underBinder); intro x; first | (refine Keep.cut (s := s0) (t := x) ?_ ?_; (on_goal 1 => (unfold x; clear x)); (on_goal 2 => (clear_value x; intro k))) | (refine Keep.cut (s := s0) (t := x.1) ?_ ?_; (on_goal 1 => (unfold x; clear x)); (on_goal 2 => (clear_value x; intro k))) | clear_value x | skip)
    | with_reducible apply Keep.next
    | with_reducible exact Keep.upd (by with_reducible assumption)
    | with_reducible apply Keep.atWearLimit
    | with_reducible apply Keep.deliver
    | with_reducible apply Keep.transition
    | with_reducible apply Keep.updPilot
    | with_reducible apply Keep.vendor
    | split

theorem Keep.execStageBegin {s0 : State} {req : Option (List Byte)} {s : State} (h0 : Keep s0 s) : ResKeep s0 (Sys2Proof.Machine.execStageBegin req s) := by
  unfold Sys2Proof.Machine.execStageBegin
  repeat' first
    | with_reducible assumption
    | ((try lift_lets -underBinder); intro x; first | (refine Keep.cut (s := s0) (t := x) ?_ ?_; (on_goal 1 => (unfold x; clear x)); (on_goal 2 => (clear_value x; intro k))) | (refine Keep.cut (s := s0) (t := x.1) ?_ ?_; (on_goal 1 => (unfold x; clear x)); (on_goal 2 => (clear_value x; intro k))) | clear_value x | skip)
    | with_reducible apply Keep.next
    | with_reducible exact Keep.upd (by with_reducible assumption)
    | with_reducible apply Keep.atWearLimit
    | with_reducible apply Keep.eraseArea
    | with_reducible apply Keep.updFlash
    | with_reducible apply Keep.updPilot
    | with_reducible apply Keep.vendorCmd
    | split

theorem Keep.endStaging {s0 : State} {s : State} (h0 : Keep s0 s) : Keep s0 (State.endStaging s) := by
  unfold State.endStaging
  repeat' first
    | with_reducible assumption
    | ((try lift_lets -underBinder); intro x; first | (refine Keep.cut (s := s0) (t := x) ?_ ?_; (on_goal 1 => (unfold x; clear x)); (on_goal 2 => (clear_value x; intro k))) | (refine Keep.cut (s := s0) (t := x.1) ?_ ?_; (on_goal 1 => (unfold x; clear x)); (on_goal 2 => (clear_value x; intro k))) | clear_value x | skip)
    | with_reducible exact Keep.upd (by with_reducible assumption)
    | with_reducible apply Keep.updPilot

theorem Keep.execStageData {s0 : State} {req : Option (List Byte)} {s : State} (h0 : Keep s0 s) : ResKeep s0 (Sys2Proof.Machine.execStageData req s) := by
  unfold Sys2Proof.Machine.execStageData
  repeat' first
    | with_reducible assumption
    | ((try lift_lets -underBinder); intro x; first | (refine Keep.cut (s := s0) (t := x) ?_ ?_; (on_goal 1 => (unfold x; clear x)); (on_goal 2 => (clear_value x; intro k))) | (refine Keep.cut (s := s0) (t := x.1) ?_ ?_; (on_goal 1 => (unfold x; clear x)); (on_goal 2 => (clear_value x; intro k))) | clear_value x | skip)
    | with_reducible apply Keep.next
    | with_reducible exact Keep.upd (by with_reducible assumption)
    | with_reducible apply Keep.endStaging
    | with_reducible apply Keep.updPilot
    | with_reducible apply Keep.vendorCmd
    | split

theorem Keep.execStageFinish {s0 : State} {req : Option (List Byte)} {s : State} (h0 : Keep s0 s) : ResKeep s0 (Sys2Proof.Machine.execStageFinish req s) := by
  unfold Sys2Proof.Machine.execStageFinish
  repeat' first
    | with_reducible assumption
    | ((try lift_lets -underBinder); intro x; first | (refine Keep.cut (s := s0) (t := x) ?_ ?_; (on_goal 1 => (unfold x; clear x)); (on_goal 2 => (clear_value x; intro k))) | (refine Keep.cut (s := s0) (t := x.1) ?_ ?_; (on_goal 1 => (unfold x; clear x)); (on_goal 2 => (clear_value x; intro k))) | clear_value x | skip)
    | with_reducible apply Keep.next
    | with_reducible exact Keep.upd (by with_reducible assumption)
    | with_reducible apply Keep.endStaging
    | with_reducible apply Keep.updFlash
    | with_reducible apply Keep.vendorCmd
    | split

theorem Keep.execStageAbort {s0 : State} {req : Option (List Byte)} {s : State} (h0 : Keep s0 s) : ResKeep s0 (Sys2Proof.Machine.execStageAbort req s) := by
  unfold Sys2Proof.Machine.execStageAbort
  repeat' first
    | with_reducible assumption
    | intro _
    | with_reducible apply Keep.next
    | with_reducible apply Keep.endStaging
    | with_reducible apply Keep.vendorCmd
    | split

theorem Keep.execStageTimeout {s0 : State} {s : State} (h0 : Keep s0 s) : ResKeep s0 (Sys2Proof.Machine.execStageTimeout s) := by
  unfold Sys2Proof.Machine.execStageTimeout
  repeat' first
    | with_reducible assumption
    | with_reducible apply Keep.next
    | with_reducible apply Keep.endStaging

theorem Keep.execSetSettings {s0 : State} {req : Option (List Byte)} {s : State} (h0 : Keep s0 s) : ResKeep s0 (Sys2Proof.Machine.execSetSettings req s) := by
  unfold Sys2Proof.Machine.execSetSettings
  repeat' first
    | with_reducible assumption
    | ((try lift_lets -underBinder); intro x; first | (refine Keep.cut (s := s0) (t := x) ?_ ?_; (on_goal 1 => (unfold x; clear x)); (on_goal 2 => (clear_value x; intro k))) | (refine Keep.cut (s := s0) (t := x.1) ?_ ?_; (on_goal 1 => (unfold x; clear x)); (on_goal 2 => (clear_value x; intro k))) | clear_value x | skip)
    | with_reducible apply Keep.next
    | with_reducible exact Keep.upd (by with_reducible assumption)
    | with_reducible apply Keep.atWearLimit
    | with_reducible apply Keep.storeSettings
    | with_reducible apply Keep.updPilot
    | with_reducible apply Keep.vendorCmd
    | split

theorem Keep.execDebugToken {s0 : State} {req : Option (List Byte)} {s : State} (h0 : Keep s0 s) : ResKeep s0 (Sys2Proof.Machine.execDebugToken req s) := by
  unfold Sys2Proof.Machine.execDebugToken
  repeat' first
    | with_reducible assumption
    | ((try lift_lets -underBinder); intro x; first | (refine Keep.cut (s := s0) (t := x) ?_ ?_; (on_goal 1 => (unfold x; clear x)); (on_goal 2 => (clear_value x; intro k))) | (refine Keep.cut (s := s0) (t := x.1) ?_ ?_; (on_goal 1 => (unfold x; clear x)); (on_goal 2 => (clear_value x; intro k))) | clear_value x | skip)
    | with_reducible apply Keep.next
    | with_reducible exact Keep.upd (by with_reducible assumption)
    | with_reducible apply Keep.syncRights
    | with_reducible apply Keep.updPilot
    | with_reducible apply Keep.vendorCmd
    | split

theorem Keep.endToken {s0 : State} {s : State} (h0 : Keep s0 s) : Keep s0 (State.endToken s) := by
  unfold State.endToken
  repeat' first
    | with_reducible assumption
    | ((try lift_lets -underBinder); intro x; first | (refine Keep.cut (s := s0) (t := x) ?_ ?_; (on_goal 1 => (unfold x; clear x)); (on_goal 2 => (clear_value x; intro k))) | (refine Keep.cut (s := s0) (t := x.1) ?_ ?_; (on_goal 1 => (unfold x; clear x)); (on_goal 2 => (clear_value x; intro k))) | clear_value x | skip)
    | with_reducible exact Keep.upd (by with_reducible assumption)
    | with_reducible apply Keep.syncRights
    | with_reducible apply Keep.updPilot

theorem Keep.execDebugRevoke {s0 : State} {req : Option (List Byte)} {s : State} (h0 : Keep s0 s) : ResKeep s0 (Sys2Proof.Machine.execDebugRevoke req s) := by
  unfold Sys2Proof.Machine.execDebugRevoke
  repeat' first
    | with_reducible assumption
    | intro _
    | with_reducible apply Keep.next
    | with_reducible apply Keep.endToken
    | with_reducible apply Keep.vendorCmd
    | split

theorem Keep.execDebugTokenExpiry {s0 : State} {s : State} (h0 : Keep s0 s) : ResKeep s0 (Sys2Proof.Machine.execDebugTokenExpiry s) := by
  unfold Sys2Proof.Machine.execDebugTokenExpiry
  repeat' first
    | with_reducible assumption
    | with_reducible apply Keep.next
    | with_reducible apply Keep.endToken

theorem Keep.execJtagBypass {s0 : State} {s : State} (h0 : Keep s0 s) : ResKeep s0 (Sys2Proof.Machine.execJtagBypass s) := by
  unfold Sys2Proof.Machine.execJtagBypass
  repeat' first
    | with_reducible assumption
    | with_reducible apply Keep.next
    | with_reducible apply Keep.emit
    | split

theorem Keep.execJtagIdcode {s0 : State} {s : State} (h0 : Keep s0 s) : ResKeep s0 (Sys2Proof.Machine.execJtagIdcode s) := by
  unfold Sys2Proof.Machine.execJtagIdcode
  repeat' first
    | with_reducible assumption
    | with_reducible apply Keep.next
    | with_reducible apply Keep.emit
    | split

theorem Keep.execJtagSample {s0 : State} {preload : Nat} {s : State} (h0 : Keep s0 s) : ResKeep s0 (Sys2Proof.Machine.execJtagSample preload s) := by
  unfold Sys2Proof.Machine.execJtagSample
  repeat' first
    | with_reducible assumption
    | ((try lift_lets -underBinder); intro x; first | (refine Keep.cut (s := s0) (t := x) ?_ ?_; (on_goal 1 => (unfold x; clear x)); (on_goal 2 => (clear_value x; intro k))) | (refine Keep.cut (s := s0) (t := x.1) ?_ ?_; (on_goal 1 => (unfold x; clear x)); (on_goal 2 => (clear_value x; intro k))) | clear_value x | skip)
    | with_reducible apply Keep.next
    | with_reducible exact Keep.upd (by with_reducible assumption)
    | with_reducible apply Keep.boundary
    | with_reducible apply Keep.emit
    | with_reducible apply Keep.tick
    | with_reducible apply Keep.updPilot
    | split

theorem Keep.execJtagExtest {s0 : State} {s : State} (h0 : Keep s0 s) : ResKeep s0 (Sys2Proof.Machine.execJtagExtest s) := by
  unfold Sys2Proof.Machine.execJtagExtest
  repeat' first
    | with_reducible assumption
    | with_reducible apply Keep.next
    | with_reducible apply Keep.boundary
    | with_reducible apply Keep.emit
    | split

end Sys2Proof.Machine
end

