-- ==== Sys2Proof/Laws/KeepLoader.lean ====
section
/-!
SUPPORT. What the operations of Machine/Loader.lean keep (Laws/Keep.lean).
-/

set_option linter.unusedTactic false
set_option linter.unreachableTactic false

namespace Sys2Proof.Machine

theorem Keep.readImage {s0 : State} {s : State} {a : Nat} (h0 : Keep s0 s) : Keep s0 (State.readImage s a).1 := by
  unfold State.readImage
  repeat' first
    | with_reducible assumption
    | ((try lift_lets -underBinder); intro x; first | (refine Keep.cut (s := s0) (t := x) ?_ ?_; (on_goal 1 => (unfold x; clear x)); (on_goal 2 => (clear_value x; intro k))) | (refine Keep.cut (s := s0) (t := x.1) ?_ ?_; (on_goal 1 => (unfold x; clear x)); (on_goal 2 => (clear_value x; intro k))) | clear_value x | skip)
    | with_reducible exact Keep.upd (by with_reducible assumption)
    | with_reducible apply Keep.hubRead
    | with_reducible apply Keep.of_fst (by with_reducible assumption)
    | with_reducible refine Keep.upd (Keep.of_fst (by with_reducible assumption) ?_)
    | split

theorem Keep.checkLoad {s0 : State} {s : State} {b : Bytes} {p c : Nat} (h0 : Keep s0 s) : Keep s0 (State.checkLoad s b p c).1 := by
  unfold State.checkLoad
  repeat' first
    | with_reducible assumption
    | ((try lift_lets -underBinder); intro x; first | (refine Keep.cut (s := s0) (t := x) ?_ ?_; (on_goal 1 => (unfold x; clear x)); (on_goal 2 => (clear_value x; intro k))) | (refine Keep.cut (s := s0) (t := x.1) ?_ ?_; (on_goal 1 => (unfold x; clear x)); (on_goal 2 => (clear_value x; intro k))) | clear_value x | skip)
    | intro _
    | with_reducible exact Keep.upd (by with_reducible assumption)
    | with_reducible apply Keep.ctxRecord
    | with_reducible apply Keep.pend
    | with_reducible apply Keep.of_fst (by with_reducible assumption)
    | with_reducible refine Keep.upd (Keep.of_fst (by with_reducible assumption) ?_)
    | split

theorem Keep.loadEnd {s0 : State} {s : State} {p code sect entry : Nat} (h0 : Keep s0 s) : Keep s0 (State.loadEnd s p code sect entry) := by
  unfold State.loadEnd
  repeat' first
    | with_reducible assumption
    | with_reducible apply Keep.setF

theorem Keep.execJobLoad {s0 : State} {p : PartIx} {s : State} (h0 : Keep s0 s) : ResKeep s0 (Sys2Proof.Machine.execJobLoad p s) := by
  unfold Sys2Proof.Machine.execJobLoad
  repeat' first
    | with_reducible assumption
    | ((try lift_lets -underBinder); intro x; first | (refine Keep.cut (s := s0) (t := x) ?_ ?_; (on_goal 1 => (unfold x; clear x)); (on_goal 2 => (clear_value x; intro k))) | (refine Keep.cut (s := s0) (t := x.1) ?_ ?_; (on_goal 1 => (unfold x; clear x)); (on_goal 2 => (clear_value x; intro k))) | clear_value x | skip)
    | intro _
    | with_reducible apply Keep.next
    | with_reducible exact Keep.upd (by with_reducible assumption)
    | with_reducible apply Keep.idle
    | with_reducible apply Keep.readImage
    | with_reducible apply Keep.checkLoad
    | with_reducible apply Keep.setF
    | with_reducible apply Keep.cxlIo
    | with_reducible apply Keep.updPart
    | with_reducible apply Keep.load
    | with_reducible apply Keep.of_fst (by with_reducible assumption)
    | with_reducible refine Keep.upd (Keep.of_fst (by with_reducible assumption) ?_)
    | split

theorem Keep.startTile {s0 : State} {s : State} {p c : Nat} {j : JobImage} {e : TileEntry} (h0 : Keep s0 s) : Keep s0 (State.startTile s p c j e) := by
  unfold State.startTile
  repeat' first
    | with_reducible assumption
    | ((try lift_lets -underBinder); intro x; first | (refine Keep.cut (s := s0) (t := x) ?_ ?_; (on_goal 1 => (unfold x; clear x)); (on_goal 2 => (clear_value x; intro k))) | (refine Keep.cut (s := s0) (t := x.1) ?_ ?_; (on_goal 1 => (unfold x; clear x)); (on_goal 2 => (clear_value x; intro k))) | clear_value x | skip)
    | intro _
    | with_reducible exact Keep.upd (by with_reducible assumption)
    | with_reducible apply Keep.setTile
    | split

theorem Keep.placeTiles {s0 : State} {s : State} {p c : Nat} {j : JobImage} (h0 : Keep s0 s) : Keep s0 (State.placeTiles s p c j) := by
  unfold State.placeTiles
  repeat' first
    | with_reducible assumption
    | ((try lift_lets -underBinder); intro x; first | (refine Keep.cut (s := s0) (t := x) ?_ ?_; (on_goal 1 => (unfold x; clear x)); (on_goal 2 => (clear_value x; intro k))) | (refine Keep.cut (s := s0) (t := x.1) ?_ ?_; (on_goal 1 => (unfold x; clear x)); (on_goal 2 => (clear_value x; intro k))) | clear_value x | skip)
    | intro _
    | with_reducible exact Keep.upd (by with_reducible assumption)
    | with_reducible apply Keep.foldl
    | with_reducible apply Keep.foldl_fst
    | with_reducible apply Keep.updTile
    | split

theorem Keep.resettle {s0 s : State} {p : Nat} (h : Keep s0 s) : Keep s0 (s.resettle p) := by
  unfold State.resettle
  extract_lets secs old mask lost u left t
  have k : Keep s0 u := Keep.forget h
  clear_value u
  split
  · exact h
  · exact Keep.tick (Keep.memTail k)

theorem Keep.drawModelKeys {s0 : State} {s : State} {j : JobImage} (h0 : Keep s0 s) : Keep s0 (State.drawModelKeys s j) := by
  unfold State.drawModelKeys
  repeat' first
    | with_reducible assumption
    | ((try lift_lets -underBinder); intro x; first | (refine Keep.cut (s := s0) (t := x) ?_ ?_; (on_goal 1 => (unfold x; clear x)); (on_goal 2 => (clear_value x; intro k))) | (refine Keep.cut (s := s0) (t := x.1) ?_ ?_; (on_goal 1 => (unfold x; clear x)); (on_goal 2 => (clear_value x; intro k))) | clear_value x | skip)
    | with_reducible exact Keep.upd (by with_reducible assumption)
    | with_reducible apply Keep.foldl
    | with_reducible apply Keep.foldl_fst
    | with_reducible apply Keep.tick
    | with_reducible apply Keep.updKey
    | split

theorem Keep.install {s0 : State} {s : State} {p : Nat} {j : JobImage} {c owner : Nat} (h0 : Keep s0 s) : Keep s0 (State.install s p j c owner) := by
  unfold State.install
  repeat' first
    | with_reducible assumption
    | ((try lift_lets -underBinder); intro x; first | (refine Keep.cut (s := s0) (t := x) ?_ ?_; (on_goal 1 => (unfold x; clear x)); (on_goal 2 => (clear_value x; intro k))) | (refine Keep.cut (s := s0) (t := x.1) ?_ ?_; (on_goal 1 => (unfold x; clear x)); (on_goal 2 => (clear_value x; intro k))) | clear_value x | skip)
    | intro _
    | with_reducible exact Keep.upd (by with_reducible assumption)
    | with_reducible apply Keep.foldl
    | with_reducible apply Keep.foldl_fst
    | with_reducible apply Keep.armGate
    | with_reducible apply Keep.startTile
    | with_reducible apply Keep.placeTiles
    | with_reducible apply Keep.resettle
    | with_reducible apply Keep.drawModelKeys
    | with_reducible apply Keep.updKey
    | with_reducible apply Keep.setRights
    | with_reducible apply Keep.ctxWord
    | with_reducible apply Keep.saveCtx
    | with_reducible apply Keep.showSlot
    | with_reducible apply Keep.setF
    | with_reducible apply Keep.updPart
    | with_reducible apply Keep.wake
    | with_reducible apply Keep.leavePass
    | with_reducible apply Keep.countQueues
    | with_reducible apply Keep.syncRights
    | with_reducible apply Keep.writeSet
    | with_reducible apply Keep.of_fst (by with_reducible assumption)
    | with_reducible refine Keep.upd (Keep.of_fst (by with_reducible assumption) ?_)
    | split

theorem Keep.refuseLoad {s0 : State} {s : State} {k code sect entry : Nat} (h0 : Keep s0 s) : Keep s0 (State.refuseLoad s k code sect entry) := by
  unfold State.refuseLoad
  repeat' first
    | with_reducible assumption
    | intro _
    | with_reducible exact Keep.upd (by with_reducible assumption)
    | with_reducible apply Keep.idle
    | with_reducible apply Keep.loadEnd
    | with_reducible apply Keep.updPart

theorem Keep.execJobLoadComplete {s0 : State} {p : PartIx} {s : State} (h0 : Keep s0 s) : ResKeep s0 (Sys2Proof.Machine.execJobLoadComplete p s) := by
  unfold Sys2Proof.Machine.execJobLoadComplete
  repeat' first
    | with_reducible assumption
    | ((try lift_lets -underBinder); intro x; first | (refine Keep.cut (s := s0) (t := x) ?_ ?_; (on_goal 1 => (unfold x; clear x)); (on_goal 2 => (clear_value x; intro k))) | (refine Keep.cut (s := s0) (t := x.1) ?_ ?_; (on_goal 1 => (unfold x; clear x)); (on_goal 2 => (clear_value x; intro k))) | clear_value x | skip)
    | with_reducible apply Keep.next
    | with_reducible exact Keep.upd (by with_reducible assumption)
    | with_reducible apply Keep.loadEnd
    | with_reducible apply Keep.install
    | with_reducible apply Keep.refuseLoad
    | with_reducible apply Keep.load
    | split

theorem Keep.floodCarve {s0 : State} {s : State} {p : Nat} (h0 : Keep s0 s) : Keep s0 (State.floodCarve s p) := by
  unfold State.floodCarve
  repeat' first
    | with_reducible assumption
    | ((try lift_lets -underBinder); intro x; first | (refine Keep.cut (s := s0) (t := x) ?_ ?_; (on_goal 1 => (unfold x; clear x)); (on_goal 2 => (clear_value x; intro k))) | (refine Keep.cut (s := s0) (t := x.1) ?_ ?_; (on_goal 1 => (unfold x; clear x)); (on_goal 2 => (clear_value x; intro k))) | clear_value x | skip)
    | with_reducible apply Keep.initSpace
    | with_reducible apply Keep.startFlood
    | split

theorem Keep.release {s0 : State} {s : State} {p : Nat} (h0 : Keep s0 s) : Keep s0 (State.release s p) := by
  unfold State.release
  repeat' first
    | with_reducible assumption
    | ((try lift_lets -underBinder); intro x; first | (refine Keep.cut (s := s0) (t := x) ?_ ?_; (on_goal 1 => (unfold x; clear x)); (on_goal 2 => (clear_value x; intro k))) | (refine Keep.cut (s := s0) (t := x.1) ?_ ?_; (on_goal 1 => (unfold x; clear x)); (on_goal 2 => (clear_value x; intro k))) | clear_value x | skip)
    | intro _
    | with_reducible exact Keep.upd (by with_reducible assumption)
    | with_reducible apply Keep.foldl
    | with_reducible apply Keep.foldl_fst
    | with_reducible apply Keep.abandonCapture
    | with_reducible apply Keep.deleteGroup
    | with_reducible apply Keep.beginEclipse
    | with_reducible apply Keep.idleGate
    | with_reducible apply Keep.updKey
    | with_reducible apply Keep.setRights
    | with_reducible apply Keep.noteError
    | with_reducible apply Keep.saveCtx
    | with_reducible apply Keep.showSlot
    | with_reducible apply Keep.setF
    | with_reducible apply Keep.tick
    | with_reducible apply Keep.updPart
    | with_reducible apply Keep.countQueues
    | with_reducible apply Keep.dropHost
    | with_reducible apply Keep.syncRights
    | split

theorem Keep.execUnload {s0 : State} {p : PartIx} {s : State} (h0 : Keep s0 s) : ResKeep s0 (Sys2Proof.Machine.execUnload p s) := by
  unfold Sys2Proof.Machine.execUnload
  repeat' first
    | with_reducible assumption
    | ((try lift_lets -underBinder); intro x; first | (refine Keep.cut (s := s0) (t := x) ?_ ?_; (on_goal 1 => (unfold x; clear x)); (on_goal 2 => (clear_value x; intro k))) | (refine Keep.cut (s := s0) (t := x.1) ?_ ?_; (on_goal 1 => (unfold x; clear x)); (on_goal 2 => (clear_value x; intro k))) | clear_value x | skip)
    | intro _
    | with_reducible apply Keep.next
    | with_reducible exact Keep.upd (by with_reducible assumption)
    | with_reducible apply Keep.idle
    | with_reducible apply Keep.loadEnd
    | with_reducible apply Keep.floodCarve
    | with_reducible apply Keep.release
    | with_reducible apply Keep.setF
    | with_reducible apply Keep.cxlIo
    | with_reducible apply Keep.updPart
    | with_reducible apply Keep.endSends
    | split

theorem Keep.darkUnbound {s0 : State} {s : State} {p : Nat} (h0 : Keep s0 s) : Keep s0 (State.darkUnbound s p) := by
  unfold State.darkUnbound
  repeat' first
    | with_reducible assumption
    | intro _
    | with_reducible apply Keep.darken
    | with_reducible apply Keep.idle
    | split

theorem Keep.finishPart {s0 : State} {s : State} {k : Nat} (h0 : Keep s0 s) : Keep s0 (State.finishPart s k) := by
  unfold State.finishPart
  repeat' first
    | with_reducible assumption
    | intro _
    | with_reducible exact Keep.upd (by with_reducible assumption)
    | with_reducible apply Keep.idle
    | with_reducible apply Keep.loadEnd
    | with_reducible apply Keep.darkUnbound
    | with_reducible apply Keep.setF
    | with_reducible apply Keep.updPart
    | split

theorem Keep.execEclipseComplete {s0 : State} {p : PartIx} {cycles : BitVec 16} {s : State} (h0 : Keep s0 s) : ResKeep s0 (Sys2Proof.Machine.execEclipseComplete p cycles s) := by
  unfold Sys2Proof.Machine.execEclipseComplete
  repeat' first
    | with_reducible assumption
    | ((try lift_lets -underBinder); intro x; first | (refine Keep.cut (s := s0) (t := x) ?_ ?_; (on_goal 1 => (unfold x; clear x)); (on_goal 2 => (clear_value x; intro k))) | (refine Keep.cut (s := s0) (t := x.1) ?_ ?_; (on_goal 1 => (unfold x; clear x)); (on_goal 2 => (clear_value x; intro k))) | clear_value x | skip)
    | intro _
    | with_reducible apply Keep.next
    | with_reducible exact Keep.upd (by with_reducible assumption)
    | with_reducible apply Keep.loadGateProgram
    | with_reducible apply Keep.finishPart
    | with_reducible apply Keep.set
    | with_reducible apply Keep.addF
    | with_reducible apply Keep.updPart
    | split

theorem Keep.resetPart {s0 : State} {s : State} {p : Nat} (h0 : Keep s0 s) : Keep s0 (State.resetPart s p) := by
  unfold State.resetPart
  repeat' first
    | with_reducible assumption
    | ((try lift_lets -underBinder); intro x; first | (refine Keep.cut (s := s0) (t := x) ?_ ?_; (on_goal 1 => (unfold x; clear x)); (on_goal 2 => (clear_value x; intro k))) | (refine Keep.cut (s := s0) (t := x.1) ?_ ?_; (on_goal 1 => (unfold x; clear x)); (on_goal 2 => (clear_value x; intro k))) | clear_value x | skip)
    | intro _
    | with_reducible exact Keep.upd (by with_reducible assumption)
    | with_reducible apply Keep.beginEclipse
    | with_reducible apply Keep.abandonGate
    | with_reducible apply Keep.idle
    | with_reducible apply Keep.floodCarve
    | with_reducible apply Keep.release
    | with_reducible apply Keep.setF
    | with_reducible apply Keep.resetPartRegs
    | with_reducible apply Keep.updPart
    | with_reducible apply Keep.stopWork
    | with_reducible apply Keep.endSends
    | split

theorem Keep.execPartReset {s0 : State} {mask : BitVec 32} {s : State} (h0 : Keep s0 s) : ResKeep s0 (Sys2Proof.Machine.execPartReset mask s) := by
  unfold Sys2Proof.Machine.execPartReset
  repeat' first
    | with_reducible assumption
    | intro _
    | with_reducible apply Keep.next
    | with_reducible apply Keep.foldl
    | with_reducible apply Keep.cxlIo
    | with_reducible apply Keep.resetPart
    | split

theorem Keep.execTileReset {s0 : State} {index : BitVec 11} {s : State} (h0 : Keep s0 s) : ResKeep s0 (Sys2Proof.Machine.execTileReset index s) := by
  unfold Sys2Proof.Machine.execTileReset
  repeat' first
    | with_reducible assumption
    | ((try lift_lets -underBinder); intro x; first | (refine Keep.cut (s := s0) (t := x) ?_ ?_; (on_goal 1 => (unfold x; clear x)); (on_goal 2 => (clear_value x; intro k))) | (refine Keep.cut (s := s0) (t := x.1) ?_ ?_; (on_goal 1 => (unfold x; clear x)); (on_goal 2 => (clear_value x; intro k))) | clear_value x | skip)
    | intro _
    | with_reducible apply Keep.next
    | with_reducible exact Keep.upd (by with_reducible assumption)
    | with_reducible apply Keep.set
    | with_reducible apply Keep.cxlIo
    | with_reducible apply Keep.setTile
    | with_reducible apply Keep.updTile
    | with_reducible apply Keep.stopUnits
    | split

theorem Keep.showFrame {s0 : State} {s : State} {f : FrameImage} {start : Bool} (h0 : Keep s0 s) : Keep s0 (State.showFrame s f start) := by
  unfold State.showFrame
  repeat' first
    | with_reducible assumption
    | ((try lift_lets -underBinder); intro x; first | (refine Keep.cut (s := s0) (t := x) ?_ ?_; (on_goal 1 => (unfold x; clear x)); (on_goal 2 => (clear_value x; intro k))) | (refine Keep.cut (s := s0) (t := x.1) ?_ ?_; (on_goal 1 => (unfold x; clear x)); (on_goal 2 => (clear_value x; intro k))) | clear_value x | skip)
    | with_reducible apply Keep.foldl
    | with_reducible apply Keep.foldl_fst
    | with_reducible apply Keep.set
    | with_reducible apply Keep.setF
    | with_reducible apply Keep.setPortMode
    | split

theorem Keep.drainPeers {s0 : State} {s : State} {f : FrameImage} (h0 : Keep s0 s) : Keep s0 (State.drainPeers s f) := by
  unfold State.drainPeers
  repeat' first
    | with_reducible assumption
    | intro _
    | with_reducible apply Keep.foldl
    | with_reducible apply Keep.depart
    | with_reducible apply Keep.sendLeave

theorem Keep.drainSetups {s0 : State} {s : State} {f : FrameImage} (h0 : Keep s0 s) : Keep s0 (State.drainSetups s f) := by
  unfold State.drainSetups
  repeat' first
    | with_reducible assumption
    | ((try lift_lets -underBinder); intro x; first | (refine Keep.cut (s := s0) (t := x) ?_ ?_; (on_goal 1 => (unfold x; clear x)); (on_goal 2 => (clear_value x; intro k))) | (refine Keep.cut (s := s0) (t := x.1) ?_ ?_; (on_goal 1 => (unfold x; clear x)); (on_goal 2 => (clear_value x; intro k))) | clear_value x | skip)
    | intro _
    | with_reducible exact Keep.upd (by with_reducible assumption)
    | with_reducible apply Keep.foldl
    | with_reducible apply Keep.foldl_fst
    | with_reducible apply Keep.sendSealed
    | with_reducible apply Keep.updSession
    | with_reducible apply Keep.setPortState
    | with_reducible apply Keep.setPeerState
    | with_reducible apply Keep.endSetup
    | split

theorem Keep.changeFrame {s0 : State} {s : State} {f : FrameImage} (h0 : Keep s0 s) : Keep s0 (State.changeFrame s f) := by
  unfold State.changeFrame
  repeat' first
    | with_reducible assumption
    | ((try lift_lets -underBinder); intro x; first | (refine Keep.cut (s := s0) (t := x) ?_ ?_; (on_goal 1 => (unfold x; clear x)); (on_goal 2 => (clear_value x; intro k))) | (refine Keep.cut (s := s0) (t := x.1) ?_ ?_; (on_goal 1 => (unfold x; clear x)); (on_goal 2 => (clear_value x; intro k))) | clear_value x | skip)
    | intro _
    | with_reducible exact Keep.upd (by with_reducible assumption)
    | with_reducible apply Keep.foldl
    | with_reducible apply Keep.foldl_fst
    | with_reducible apply Keep.beginEclipse
    | with_reducible apply Keep.release
    | with_reducible apply Keep.showFrame
    | with_reducible apply Keep.drainPeers
    | with_reducible apply Keep.drainSetups
    | with_reducible apply Keep.initShares
    | with_reducible apply Keep.startFlood
    | with_reducible apply Keep.darken
    | split

theorem Keep.frameEnd {s0 : State} {s : State} {code sect entry : Nat} (h0 : Keep s0 s) : Keep s0 (State.frameEnd s code sect entry) := by
  unfold State.frameEnd
  repeat' first
    | with_reducible assumption
    | with_reducible apply Keep.set

theorem Keep.storeFrame {s0 : State} {s : State} {b : Bytes} {pending : Bool} (h0 : Keep s0 s) : Keep s0 (State.storeFrame s b pending) := by
  unfold State.storeFrame
  repeat' first
    | with_reducible assumption
    | ((try lift_lets -underBinder); intro x; first | (refine Keep.cut (s := s0) (t := x) ?_ ?_; (on_goal 1 => (unfold x; clear x)); (on_goal 2 => (clear_value x; intro k))) | (refine Keep.cut (s := s0) (t := x.1) ?_ ?_; (on_goal 1 => (unfold x; clear x)); (on_goal 2 => (clear_value x; intro k))) | clear_value x | skip)
    | with_reducible exact Keep.upd (by with_reducible assumption)
    | with_reducible apply Keep.atWearLimit
    | with_reducible apply Keep.eraseArea
    | with_reducible apply Keep.set
    | with_reducible apply Keep.updFlash
    | split

theorem Keep.execFrameLoad {s0 : State} {persist : Bool} {s : State} (h0 : Keep s0 s) : ResKeep s0 (Sys2Proof.Machine.execFrameLoad persist s) := by
  unfold Sys2Proof.Machine.execFrameLoad
  repeat' first
    | with_reducible assumption
    | ((try lift_lets -underBinder); intro x; first | (refine Keep.cut (s := s0) (t := x) ?_ ?_; (on_goal 1 => (unfold x; clear x)); (on_goal 2 => (clear_value x; intro k))) | (refine Keep.cut (s := s0) (t := x.1) ?_ ?_; (on_goal 1 => (unfold x; clear x)); (on_goal 2 => (clear_value x; intro k))) | clear_value x | skip)
    | with_reducible apply Keep.next
    | with_reducible exact Keep.upd (by with_reducible assumption)
    | with_reducible apply Keep.changeFrame
    | with_reducible apply Keep.cxlIo
    | with_reducible apply Keep.frameEnd
    | with_reducible apply Keep.idle
    | with_reducible apply Keep.readImage
    | with_reducible apply Keep.set
    | with_reducible apply Keep.storeFrame
    | with_reducible apply Keep.of_fst (by with_reducible assumption)
    | with_reducible refine Keep.upd (Keep.of_fst (by with_reducible assumption) ?_)
    | split

theorem Keep.execFrameLoadComplete {s0 : State} {s : State} (h0 : Keep s0 s) : ResKeep s0 (Sys2Proof.Machine.execFrameLoadComplete s) := by
  unfold Sys2Proof.Machine.execFrameLoadComplete
  repeat' first
    | with_reducible assumption
    | ((try lift_lets -underBinder); intro x; first | (refine Keep.cut (s := s0) (t := x) ?_ ?_; (on_goal 1 => (unfold x; clear x)); (on_goal 2 => (clear_value x; intro k))) | (refine Keep.cut (s := s0) (t := x.1) ?_ ?_; (on_goal 1 => (unfold x; clear x)); (on_goal 2 => (clear_value x; intro k))) | clear_value x | skip)
    | intro _
    | with_reducible apply Keep.next
    | with_reducible apply Keep.foldl
    | with_reducible apply Keep.foldl_fst
    | with_reducible apply Keep.loadGateProgram
    | with_reducible apply Keep.darkUnbound
    | with_reducible apply Keep.frameEnd
    | with_reducible apply Keep.wake
    | split

end Sys2Proof.Machine
end

