-- ==== Sys2Proof/Laws/KeepMover.lean ====
section
/-!
SUPPORT. What the operations of Machine/Mover.lean keep (Laws/Keep.lean).
-/

set_option linter.unusedTactic false
set_option linter.unreachableTactic false

namespace Sys2Proof.Machine

theorem Keep.execMoverCommandStart {s0 : State} {t : TileIx} {s : State} (h0 : Keep s0 s) : ResKeep s0 (Sys2Proof.Machine.execMoverCommandStart t s) := by
  unfold Sys2Proof.Machine.execMoverCommandStart
  repeat' first
    | with_reducible assumption
    | ((try lift_lets -underBinder); intro x; first | (refine Keep.cut (s := s0) (t := x) ?_ ?_; (on_goal 1 => (unfold x; clear x)); (on_goal 2 => (clear_value x; intro k))) | (refine Keep.cut (s := s0) (t := x.1) ?_ ?_; (on_goal 1 => (unfold x; clear x)); (on_goal 2 => (clear_value x; intro k))) | clear_value x | skip)
    | intro _
    | with_reducible apply Keep.next
    | with_reducible exact Keep.upd (by with_reducible assumption)
    | with_reducible apply Keep.startUnit
    | split

theorem Keep.mviLine {s0 : State} {s : State} {t p : Nat} {c : UCmd} {q : Nat × Nat} (h0 : Keep s0 s) : Keep s0 (State.mviLine s t p c q).1 := by
  unfold State.mviLine
  repeat' first
    | with_reducible assumption
    | with_reducible exact Keep.upd (by with_reducible assumption)
    | with_reducible apply Keep.tileRead
    | with_reducible apply Keep.tileWrite
    | with_reducible apply Keep.of_fst (by with_reducible assumption)
    | with_reducible refine Keep.upd (Keep.of_fst (by with_reducible assumption) ?_)
    | split

theorem Keep.mviFail {s0 : State} {s : State} {t p : Nat} {c : UCmd} {code : Nat} (h0 : Keep s0 s) : Keep s0 (State.mviFail s t p c code) := by
  unfold State.mviFail
  repeat' first
    | with_reducible assumption
    | ((try lift_lets -underBinder); intro x; first | (refine Keep.cut (s := s0) (t := x) ?_ ?_; (on_goal 1 => (unfold x; clear x)); (on_goal 2 => (clear_value x; intro k))) | (refine Keep.cut (s := s0) (t := x.1) ?_ ?_; (on_goal 1 => (unfold x; clear x)); (on_goal 2 => (clear_value x; intro k))) | clear_value x | skip)
    | intro _
    | with_reducible exact Keep.upd (by with_reducible assumption)
    | with_reducible apply Keep.fabricError
    | with_reducible apply Keep.boundaryError
    | with_reducible apply Keep.updTile
    | with_reducible apply Keep.stopReport
    | with_reducible apply Keep.tileExc
    | split

theorem Keep.mviOut {s0 : State} {s : State} {t : Nat} {c : UCmd} {l : List (Nat × Bytes)} (h0 : Keep s0 s) : Keep s0 (State.mviOut s t c l) := by
  unfold State.mviOut
  repeat' first
    | with_reducible assumption
    | intro _
    | with_reducible apply Keep.foldl
    | with_reducible apply Keep.foldl_fst
    | with_reducible apply Keep.updTile

theorem Keep.mviStep {s0 : State} {r : MviRun} {t p : Nat} {c : UCmd} {f : MviFault} {q : (Nat × Nat) × Nat}
    (h : Keep s0 r.s) : Keep s0 (r.line t p c f q).s := by
  unfold MviRun.line
  cases hr : r.err with
  | none =>
    cases hc : f.code q.2 with
    | some e => exact h
    | none =>
      have k := Keep.mviLine (t := t) (p := p) (c := c) (q := q.1) h
      generalize r.s.mviLine t p c q.1 = v at k
      match v, k with
      | (_, .error _), k => exact k
      | (_, .ok _), k => exact k
  | some _ =>
    dsimp only
    split
    · exact Keep.tick h
    · have k := Keep.mviLine (t := t) (p := p) (c := c) (q := q.1) (Keep.tick h)
      generalize r.s.tick.mviLine t p c q.1 = v at k
      match v, k with
      | (_, .error _), k => exact k
      | (_, .ok _), k => exact k

theorem Keep.mviTransfer {s0 s : State} {t p : Nat} {c : UCmd} {f : MviFault} (h : Keep s0 s) :
    Keep s0 (s.mviTransfer t p c f).s := by
  have k : ∀ (l : List ((Nat × Nat) × Nat)) (r : MviRun), Keep s0 r.s →
      Keep s0 (l.foldl (fun (r : MviRun) q => r.line t p c f q) r).s := by
    intro l
    induction l with
    | nil => exact fun r h => h
    | cons a l ih => exact fun r h => ih _ (Keep.mviStep h)
  unfold State.mviTransfer
  exact Keep.countPart (k _ _ h)

theorem Keep.mviRun {s0 s : State} {t p : Nat} {c : UCmd} {f : MviFault} (h : Keep s0 s) : Keep s0 (s.mviRun t p c f) := by
  have k := Keep.mviTransfer (t := t) (p := p) (c := c) (f := f) h
  unfold State.mviRun
  generalize s.mviTransfer t p c f = r at k
  dsimp only
  split
  · split
    · exact Keep.mviFail (Keep.mviOut k)
    · exact Keep.closeUnit (Keep.mviOut k)
  · split
    · exact Keep.mviFail k
    · exact Keep.closeUnit k
  · exact Keep.endUnit h
  · split
    · exact Keep.mviFail (Keep.present k)
    · exact Keep.endUnit k
  · exact Keep.closeUnit (Keep.updTile (Keep.mviOut h))

theorem Keep.execMoverCommandDone {s0 : State} {t : TileIx} {slot : Fin 4} {event : MoverEvent} {s : State} (h0 : Keep s0 s) : ResKeep s0 (Sys2Proof.Machine.execMoverCommandDone t slot event s) := by
  unfold Sys2Proof.Machine.execMoverCommandDone
  repeat' first
    | with_reducible assumption
    | ((try lift_lets -underBinder); intro x; first | (refine Keep.cut (s := s0) (t := x) ?_ ?_; (on_goal 1 => (unfold x; clear x)); (on_goal 2 => (clear_value x; intro k))) | (refine Keep.cut (s := s0) (t := x.1) ?_ ?_; (on_goal 1 => (unfold x; clear x)); (on_goal 2 => (clear_value x; intro k))) | clear_value x | skip)
    | intro _
    | with_reducible apply Keep.next
    | with_reducible exact Keep.upd (by with_reducible assumption)
    | with_reducible apply Keep.closeUnit
    | with_reducible apply Keep.closeSent
    | with_reducible apply Keep.mviRun
    | with_reducible apply Keep.tileUe
    | split

end Sys2Proof.Machine
end

