-- ==== Sys2Proof/Laws/KeepPrism.lean ====
section
/-!
SUPPORT. What the operations of Machine/Prism.lean keep (Laws/Keep.lean).
-/

set_option linter.unusedTactic false
set_option linter.unreachableTactic false

namespace Sys2Proof.Machine

theorem Keep.loseKey {s0 : State} {s : State} {k : Nat} (h0 : Keep s0 s) : Keep s0 (State.loseKey s k) := by
  unfold State.loseKey
  repeat' first
    | with_reducible assumption
    | ((try lift_lets -underBinder); intro x; first | (refine Keep.cut (s := s0) (t := x) ?_ ?_; (on_goal 1 => (unfold x; clear x)); (on_goal 2 => (clear_value x; intro k))) | (refine Keep.cut (s := s0) (t := x.1) ?_ ?_; (on_goal 1 => (unfold x; clear x)); (on_goal 2 => (clear_value x; intro k))) | clear_value x | skip)
    | with_reducible exact Keep.upd (by with_reducible assumption)
    | with_reducible apply Keep.countSram
    | with_reducible apply Keep.flushKeys
    | with_reducible apply Keep.syncRights
    | with_reducible apply Keep.updKey
    | split

theorem Keep.access {s0 : State} {s : State} {m space : Nat} {wr : Bool} {a : Nat} {fault : LineFault} {f : Gate → State → State × Except Nat Bytes} (h0 : Keep s0 s) (hf : ∀ x0 t, Keep s0 t → Keep s0 (f x0 t).1) : Keep s0 (State.access s m space wr a fault f).1 := by
  unfold State.access
  repeat' first
    | with_reducible assumption
    | ((try lift_lets -underBinder); intro x; first | (refine Keep.cut (s := s0) (t := x) ?_ ?_; (on_goal 1 => (unfold x; clear x)); (on_goal 2 => (clear_value x; intro k))) | (refine Keep.cut (s := s0) (t := x.1) ?_ ?_; (on_goal 1 => (unfold x; clear x)); (on_goal 2 => (clear_value x; intro k))) | clear_value x | skip)
    | intro _
    | with_reducible exact Keep.upd (by with_reducible assumption)
    | with_reducible apply Keep.place
    | with_reducible apply Keep.touchKey
    | with_reducible apply Keep.strike
    | with_reducible apply Keep.noteGate
    | with_reducible apply Keep.loseKey
    | with_reducible apply Keep.hubReset
    | with_reducible apply hf
    | with_reducible apply Keep.of_fst (by with_reducible assumption)
    | with_reducible refine Keep.upd (Keep.of_fst (by with_reducible assumption) ?_)
    | split

theorem Keep.writeOutcome {s0 : State} {r : State × Option Nat} (h0 : Keep s0 r.1) : Keep s0 (Sys2Proof.Machine.writeOutcome r).1 := by
  unfold Sys2Proof.Machine.writeOutcome
  repeat' first
    | with_reducible assumption
    | with_reducible exact Keep.upd (by with_reducible assumption)
    | with_reducible apply Keep.of_fst (by with_reducible assumption)
    | with_reducible refine Keep.upd (Keep.of_fst (by with_reducible assumption) ?_)
    | split

theorem Keep.readAccess {s0 : State} {s : State} {m space a : Nat} {fault : LineFault} (h0 : Keep s0 s) : Keep s0 (State.readAccess s m space a fault).1 := by
  unfold State.readAccess
  repeat' first
    | with_reducible assumption
    | intro _
    | with_reducible apply Keep.access
    | with_reducible apply Keep.place
    | with_reducible apply Keep.readLine
    | with_reducible apply Keep.of_fst (by with_reducible assumption)

theorem Keep.writeAccess {s0 : State} {s : State} {m space a : Nat} {b : Bytes} {fault : LineFault} (h0 : Keep s0 s) : Keep s0 (State.writeAccess s m space a b fault).1 := by
  unfold State.writeAccess
  repeat' first
    | with_reducible assumption
    | intro _
    | with_reducible apply Keep.access
    | with_reducible apply Keep.place
    | with_reducible apply Keep.writeLine
    | with_reducible apply Keep.writeOutcome
    | with_reducible apply Keep.of_fst (by with_reducible assumption)

theorem Keep.mergeAccess {s0 : State} {s : State} {m space a : Nat} {mask : Nat} {b : Bytes} {fault : LineFault} (h0 : Keep s0 s) : Keep s0 (State.mergeAccess s m space a mask b fault).1 := by
  unfold State.mergeAccess
  repeat' first
    | with_reducible assumption
    | ((try lift_lets -underBinder); intro x; first | (refine Keep.cut (s := s0) (t := x) ?_ ?_; (on_goal 1 => (unfold x; clear x)); (on_goal 2 => (clear_value x; intro k))) | (refine Keep.cut (s := s0) (t := x.1) ?_ ?_; (on_goal 1 => (unfold x; clear x)); (on_goal 2 => (clear_value x; intro k))) | clear_value x | skip)
    | with_reducible exact Keep.upd (by with_reducible assumption)
    | with_reducible apply Keep.access
    | with_reducible apply Keep.place
    | with_reducible apply Keep.prismCount
    | with_reducible apply Keep.readLine
    | with_reducible apply Keep.writeLine
    | with_reducible apply Keep.writeOutcome
    | with_reducible apply Keep.of_fst (by with_reducible assumption)
    | with_reducible refine Keep.upd (Keep.of_fst (by with_reducible assumption) ?_)
    | split

theorem Keep.readerGets {s0 : State} {r : State × Option (Except Nat Bytes)} (h0 : Keep s0 r.1) : Keep s0 (Sys2Proof.Machine.readerGets r) := by
  unfold Sys2Proof.Machine.readerGets
  repeat' first
    | with_reducible assumption
    | with_reducible exact Keep.upd (by with_reducible assumption)
    | with_reducible apply Keep.emit
    | with_reducible apply Keep.of_fst (by with_reducible assumption)
    | with_reducible refine Keep.upd (Keep.of_fst (by with_reducible assumption) ?_)
    | split

theorem Keep.writerGets {s0 : State} {r : State × Option (Except Nat Bytes)} (h0 : Keep s0 r.1) : Keep s0 (Sys2Proof.Machine.writerGets r) := by
  unfold Sys2Proof.Machine.writerGets
  repeat' first
    | with_reducible assumption
    | with_reducible exact Keep.upd (by with_reducible assumption)
    | with_reducible apply Keep.emit
    | with_reducible apply Keep.of_fst (by with_reducible assumption)
    | with_reducible refine Keep.upd (Keep.of_fst (by with_reducible assumption) ?_)
    | split

theorem Keep.rawAccess {s0 : State} {s : State} {m space a : Nat} {fault : LineFault} (h0 : Keep s0 s) : Keep s0 (State.rawAccess s m space a fault) := by
  unfold State.rawAccess
  repeat' first
    | with_reducible assumption
    | ((try lift_lets -underBinder); intro x; first | (refine Keep.cut (s := s0) (t := x) ?_ ?_; (on_goal 1 => (unfold x; clear x)); (on_goal 2 => (clear_value x; intro k))) | (refine Keep.cut (s := s0) (t := x.1) ?_ ?_; (on_goal 1 => (unfold x; clear x)); (on_goal 2 => (clear_value x; intro k))) | clear_value x | skip)
    | with_reducible exact Keep.upd (by with_reducible assumption)
    | with_reducible apply Keep.place
    | with_reducible apply Keep.countCe
    | with_reducible apply Keep.strike
    | with_reducible apply Keep.noteGate
    | with_reducible apply Keep.tick
    | with_reducible apply Keep.emit
    | split

theorem Keep.execPrismLineRead {s0 : State} {m : Fin 36} {space : Fin 33} {addr : Word} {fault : LineFault} {s : State} (h0 : Keep s0 s) : ResKeep s0 (Sys2Proof.Machine.execPrismLineRead m space addr fault s) := by
  unfold Sys2Proof.Machine.execPrismLineRead
  repeat' first
    | with_reducible assumption
    | ((try lift_lets -underBinder); intro x; first | (refine Keep.cut (s := s0) (t := x) ?_ ?_; (on_goal 1 => (unfold x; clear x)); (on_goal 2 => (clear_value x; intro k))) | (refine Keep.cut (s := s0) (t := x.1) ?_ ?_; (on_goal 1 => (unfold x; clear x)); (on_goal 2 => (clear_value x; intro k))) | clear_value x | skip)
    | with_reducible apply Keep.next
    | with_reducible apply Keep.rawAccess
    | with_reducible apply Keep.readAccess
    | with_reducible apply Keep.readerGets
    | with_reducible apply Keep.of_fst (by with_reducible assumption)
    | split

theorem Keep.execPrismLineWrite {s0 : State} {m : Fin 36} {space : Fin 33} {addr : Word} {data : List Byte} {fault : LineFault} {s : State} (h0 : Keep s0 s) : ResKeep s0 (Sys2Proof.Machine.execPrismLineWrite m space addr data fault s) := by
  unfold Sys2Proof.Machine.execPrismLineWrite
  repeat' first
    | with_reducible assumption
    | with_reducible apply Keep.next
    | with_reducible apply Keep.writeAccess
    | with_reducible apply Keep.writerGets
    | with_reducible apply Keep.of_fst (by with_reducible assumption)

theorem Keep.partAccess {s0 : State} {s : State} {m space a : Nat} {b : Bytes} {fault : LineFault} (h0 : Keep s0 s) : Keep s0 (State.partAccess s m space a b fault).1 := by
  unfold State.partAccess
  repeat' first
    | with_reducible assumption
    | with_reducible apply Keep.mergeAccess
    | with_reducible apply Keep.of_fst (by with_reducible assumption)
    | with_reducible refine Keep.upd (Keep.of_fst (by with_reducible assumption) ?_)

theorem Keep.execPrismPartialWrite {s0 : State} {m : Fin 36} {space : Fin 33} {addr : Word} {data : List Byte} {fault : LineFault} {s : State} (h0 : Keep s0 s) : ResKeep s0 (Sys2Proof.Machine.execPrismPartialWrite m space addr data fault s) := by
  unfold Sys2Proof.Machine.execPrismPartialWrite
  repeat' first
    | with_reducible assumption
    | ((try lift_lets -underBinder); intro x; first | (refine Keep.cut (s := s0) (t := x) ?_ ?_; (on_goal 1 => (unfold x; clear x)); (on_goal 2 => (clear_value x; intro k))) | (refine Keep.cut (s := s0) (t := x.1) ?_ ?_; (on_goal 1 => (unfold x; clear x)); (on_goal 2 => (clear_value x; intro k))) | clear_value x | skip)
    | with_reducible apply Keep.next
    | with_reducible apply Keep.partAccess
    | with_reducible apply Keep.writerGets
    | with_reducible apply Keep.of_fst (by with_reducible assumption)
    | split

theorem Keep.execDebugAccessPortAccess {s0 : State} {write : Bool} {space : Fin 33} {addr : Word} {data : DebugData} {s : State} (h0 : Keep s0 s) : ResKeep s0 (Sys2Proof.Machine.execDebugAccessPortAccess write space addr data s) := by
  unfold Sys2Proof.Machine.execDebugAccessPortAccess
  repeat' first
    | with_reducible assumption
    | ((try lift_lets -underBinder); intro x; first | (refine Keep.cut (s := s0) (t := x) ?_ ?_; (on_goal 1 => (unfold x; clear x)); (on_goal 2 => (clear_value x; intro k))) | (refine Keep.cut (s := s0) (t := x.1) ?_ ?_; (on_goal 1 => (unfold x; clear x)); (on_goal 2 => (clear_value x; intro k))) | clear_value x | skip)
    | with_reducible apply Keep.next
    | with_reducible apply Keep.readAccess
    | with_reducible apply Keep.writeAccess
    | with_reducible apply Keep.readerGets
    | with_reducible apply Keep.writerGets
    | with_reducible apply Keep.rawAccess
    | with_reducible apply Keep.partAccess
    | with_reducible apply Keep.of_fst (by with_reducible assumption)
    | with_reducible refine Keep.upd (Keep.of_fst (by with_reducible assumption) ?_)
    | split

theorem Keep.stewardGets {s0 : State} {r : State × Option (Except Nat Bytes)} {wr : Bool} (h0 : Keep s0 r.1) : Keep s0 (Sys2Proof.Machine.stewardGets r wr) := by
  unfold Sys2Proof.Machine.stewardGets
  repeat' first
    | with_reducible assumption
    | ((try lift_lets -underBinder); intro x; first | (refine Keep.cut (s := s0) (t := x) ?_ ?_; (on_goal 1 => (unfold x; clear x)); (on_goal 2 => (clear_value x; intro k))) | (refine Keep.cut (s := s0) (t := x.1) ?_ ?_; (on_goal 1 => (unfold x; clear x)); (on_goal 2 => (clear_value x; intro k))) | clear_value x | skip)
    | with_reducible exact Keep.upd (by with_reducible assumption)
    | with_reducible apply Keep.emit
    | with_reducible apply Keep.set
    | with_reducible apply Keep.of_fst (by with_reducible assumption)
    | with_reducible refine Keep.upd (Keep.of_fst (by with_reducible assumption) ?_)
    | split

theorem Keep.execMemrd {s0 : State} {hpa : Word} {fault : LineFault} {s : State} (h0 : Keep s0 s) : ResKeep s0 (Sys2Proof.Machine.execMemrd hpa fault s) := by
  unfold Sys2Proof.Machine.execMemrd
  repeat' first
    | with_reducible assumption
    | ((try lift_lets -underBinder); intro x; first | (refine Keep.cut (s := s0) (t := x) ?_ ?_; (on_goal 1 => (unfold x; clear x)); (on_goal 2 => (clear_value x; intro k))) | (refine Keep.cut (s := s0) (t := x.1) ?_ ?_; (on_goal 1 => (unfold x; clear x)); (on_goal 2 => (clear_value x; intro k))) | clear_value x | skip)
    | with_reducible apply Keep.next
    | with_reducible exact Keep.upd (by with_reducible assumption)
    | with_reducible apply Keep.cacheLine
    | with_reducible apply Keep.readAccess
    | with_reducible apply Keep.stewardGets
    | with_reducible apply Keep.of_fst (by with_reducible assumption)
    | with_reducible refine Keep.upd (Keep.of_fst (by with_reducible assumption) ?_)
    | split

theorem Keep.execMemwr {s0 : State} {hpa : Word} {data : List Byte} {fault : LineFault} {s : State} (h0 : Keep s0 s) : ResKeep s0 (Sys2Proof.Machine.execMemwr hpa data fault s) := by
  unfold Sys2Proof.Machine.execMemwr
  repeat' first
    | with_reducible assumption
    | with_reducible apply Keep.next
    | with_reducible exact Keep.upd (by with_reducible assumption)
    | with_reducible apply Keep.stewardGets
    | with_reducible apply Keep.writeAccess
    | with_reducible apply Keep.of_fst (by with_reducible assumption)
    | with_reducible refine Keep.upd (Keep.of_fst (by with_reducible assumption) ?_)
    | split

theorem Keep.execMemwrptl {s0 : State} {hpa : Word} {mask : BitVec 64} {data : List Byte} {fault : LineFault} {s : State} (h0 : Keep s0 s) : ResKeep s0 (Sys2Proof.Machine.execMemwrptl hpa mask data fault s) := by
  unfold Sys2Proof.Machine.execMemwrptl
  repeat' first
    | with_reducible assumption
    | with_reducible apply Keep.next
    | with_reducible exact Keep.upd (by with_reducible assumption)
    | with_reducible apply Keep.mergeAccess
    | with_reducible apply Keep.stewardGets
    | with_reducible apply Keep.of_fst (by with_reducible assumption)
    | with_reducible refine Keep.upd (Keep.of_fst (by with_reducible assumption) ?_)
    | split

theorem Keep.reportPoison {s0 : State} {s : State} {l : List (Nat × Nat)} (h0 : Keep s0 s) : Keep s0 (State.reportPoison s l) := by
  unfold State.reportPoison
  repeat' first
    | with_reducible assumption
    | ((try lift_lets -underBinder); intro x; first | (refine Keep.cut (s := s0) (t := x) ?_ ?_; (on_goal 1 => (unfold x; clear x)); (on_goal 2 => (clear_value x; intro k))) | (refine Keep.cut (s := s0) (t := x.1) ?_ ?_; (on_goal 1 => (unfold x; clear x)); (on_goal 2 => (clear_value x; intro k))) | clear_value x | skip)
    | intro _
    | with_reducible apply Keep.foldl
    | with_reducible apply Keep.foldl_fst
    | with_reducible apply Keep.noteError
    | with_reducible apply Keep.pend
    | split

theorem Keep.scrub {s0 : State} {s : State} {c place : Nat} {fault : LineFault} (h0 : Keep s0 s) : Keep s0 (State.scrub s c place fault) := by
  unfold State.scrub
  repeat' first
    | with_reducible assumption
    | ((try lift_lets -underBinder); intro x; first | (refine Keep.cut (s := s0) (t := x) ?_ ?_; (on_goal 1 => (unfold x; clear x)); (on_goal 2 => (clear_value x; intro k))) | (refine Keep.cut (s := s0) (t := x.1) ?_ ?_; (on_goal 1 => (unfold x; clear x)); (on_goal 2 => (clear_value x; intro k))) | clear_value x | skip)
    | intro _
    | with_reducible exact Keep.upd (by with_reducible assumption)
    | with_reducible apply Keep.updLine
    | with_reducible apply Keep.countCe
    | with_reducible apply Keep.strike
    | with_reducible apply Keep.reportPoison
    | split

theorem Keep.execGlimmerScrub {s0 : State} {c : CtrlIx} {place : Nat} {fault : LineFault} {lapEnd : Bool} {s : State} (h0 : Keep s0 s) : ResKeep s0 (Sys2Proof.Machine.execGlimmerScrub c place fault lapEnd s) := by
  unfold Sys2Proof.Machine.execGlimmerScrub
  repeat' first
    | with_reducible assumption
    | ((try lift_lets -underBinder); intro x; first | (refine Keep.cut (s := s0) (t := x) ?_ ?_; (on_goal 1 => (unfold x; clear x)); (on_goal 2 => (clear_value x; intro k))) | (refine Keep.cut (s := s0) (t := x.1) ?_ ?_; (on_goal 1 => (unfold x; clear x)); (on_goal 2 => (clear_value x; intro k))) | clear_value x | skip)
    | with_reducible apply Keep.next
    | with_reducible apply Keep.place
    | with_reducible apply Keep.scrub
    | with_reducible apply Keep.setF
    | with_reducible apply Keep.tick
    | split

theorem Keep.execFloodVerify {s0 : State} {mask : BitVec 12} {s : State} (h0 : Keep s0 s) : ResKeep s0 (Sys2Proof.Machine.execFloodVerify mask s) := by
  unfold Sys2Proof.Machine.execFloodVerify
  repeat' first
    | with_reducible assumption
    | ((try lift_lets -underBinder); intro x; first | (refine Keep.cut (s := s0) (t := x) ?_ ?_; (on_goal 1 => (unfold x; clear x)); (on_goal 2 => (clear_value x; intro k))) | (refine Keep.cut (s := s0) (t := x.1) ?_ ?_; (on_goal 1 => (unfold x; clear x)); (on_goal 2 => (clear_value x; intro k))) | clear_value x | skip)
    | intro _
    | with_reducible apply Keep.next
    | with_reducible apply Keep.startFlood
    | with_reducible apply Keep.set
    | with_reducible apply Keep.cxlIo
    | split

theorem Keep.endInit {s0 : State} {s : State} {c : Nat} (h0 : Keep s0 s) : Keep s0 (State.endInit s c) := by
  unfold State.endInit
  repeat' first
    | with_reducible assumption
    | ((try lift_lets -underBinder); intro x; first | (refine Keep.cut (s := s0) (t := x) ?_ ?_; (on_goal 1 => (unfold x; clear x)); (on_goal 2 => (clear_value x; intro k))) | (refine Keep.cut (s := s0) (t := x.1) ?_ ?_; (on_goal 1 => (unfold x; clear x)); (on_goal 2 => (clear_value x; intro k))) | clear_value x | skip)
    | intro _
    | with_reducible apply Keep.foldl
    | with_reducible apply Keep.foldl_fst
    | with_reducible apply Keep.finishPart
    | with_reducible apply Keep.showFlood
    | with_reducible apply Keep.updFloods
    | with_reducible apply Keep.set
    | with_reducible apply Keep.keyEnd
    | split

theorem Keep.execFloodlightComplete {s0 : State} {c : CtrlIx} {met : List (Nat × LineFault)} {s : State} (h0 : Keep s0 s) : ResKeep s0 (Sys2Proof.Machine.execFloodlightComplete c met s) := by
  unfold Sys2Proof.Machine.execFloodlightComplete
  repeat' first
    | with_reducible assumption
    | ((try lift_lets -underBinder); intro x; first | (refine Keep.cut (s := s0) (t := x) ?_ ?_; (on_goal 1 => (unfold x; clear x)); (on_goal 2 => (clear_value x; intro k))) | (refine Keep.cut (s := s0) (t := x.1) ?_ ?_; (on_goal 1 => (unfold x; clear x)); (on_goal 2 => (clear_value x; intro k))) | clear_value x | skip)
    | intro _
    | with_reducible apply Keep.next
    | with_reducible apply Keep.foldl
    | with_reducible apply Keep.foldl_fst
    | with_reducible apply Keep.showFlood
    | with_reducible apply Keep.updFloods
    | with_reducible apply Keep.scrub
    | with_reducible apply Keep.endInit
    | split

theorem Keep.execPrismCntClear {s0 : State} {s : State} (h0 : Keep s0 s) : ResKeep s0 (Sys2Proof.Machine.execPrismCntClear s) := by
  unfold Sys2Proof.Machine.execPrismCntClear
  repeat' first
    | with_reducible assumption
    | intro _
    | with_reducible apply Keep.next
    | with_reducible apply Keep.cxlIo
    | with_reducible apply Keep.cntClear

theorem Keep.execScrubCntClear {s0 : State} {s : State} (h0 : Keep s0 s) : ResKeep s0 (Sys2Proof.Machine.execScrubCntClear s) := by
  unfold Sys2Proof.Machine.execScrubCntClear
  repeat' first
    | with_reducible assumption
    | intro _
    | with_reducible apply Keep.next
    | with_reducible apply Keep.cxlIo
    | with_reducible apply Keep.cntClear

theorem Keep.execGlintCntClear {s0 : State} {c : CtrlIx} {s : State} (h0 : Keep s0 s) : ResKeep s0 (Sys2Proof.Machine.execGlintCntClear c s) := by
  unfold Sys2Proof.Machine.execGlintCntClear
  repeat' first
    | with_reducible assumption
    | intro _
    | with_reducible apply Keep.next
    | with_reducible apply Keep.cxlIo
    | with_reducible apply Keep.cntClear

theorem Keep.execFabCntClear {s0 : State} {s : State} (h0 : Keep s0 s) : ResKeep s0 (Sys2Proof.Machine.execFabCntClear s) := by
  unfold Sys2Proof.Machine.execFabCntClear
  repeat' first
    | with_reducible assumption
    | intro _
    | with_reducible apply Keep.next
    | with_reducible apply Keep.cxlIo
    | with_reducible apply Keep.cntClear

theorem Keep.execPartCntClear {s0 : State} {p : PartIx} {s : State} (h0 : Keep s0 s) : ResKeep s0 (Sys2Proof.Machine.execPartCntClear p s) := by
  unfold Sys2Proof.Machine.execPartCntClear
  repeat' first
    | with_reducible assumption
    | intro _
    | with_reducible apply Keep.next
    | with_reducible apply Keep.cxlIo
    | with_reducible apply Keep.cntClear

end Sys2Proof.Machine
end

