-- ==== Sys2Proof/Laws/KeepSteward.lean ====
section
/-!
SUPPORT. What the operations of Machine/Steward.lean keep (Laws/Keep.lean).
-/

set_option linter.unusedTactic false
set_option linter.unreachableTactic false

namespace Sys2Proof.Machine

theorem Keep.loadSteward {s0 : State} {s : State} (h0 : Keep s0 s) : Keep s0 (State.loadSteward s) := by
  unfold State.loadSteward
  repeat' first
    | with_reducible assumption
    | ((try lift_lets -underBinder); intro x; first | (refine Keep.cut (s := s0) (t := x) ?_ ?_; (on_goal 1 => (unfold x; clear x)); (on_goal 2 => (clear_value x; intro k))) | (refine Keep.cut (s := s0) (t := x.1) ?_ ?_; (on_goal 1 => (unfold x; clear x)); (on_goal 2 => (clear_value x; intro k))) | clear_value x | skip)
    | with_reducible exact Keep.upd (by with_reducible assumption)
    | with_reducible apply Keep.hubWrite
    | with_reducible apply Keep.set
    | with_reducible apply Keep.updPilot
    | with_reducible apply Keep.of_fst (by with_reducible assumption)
    | with_reducible refine Keep.upd (Keep.of_fst (by with_reducible assumption) ?_)
    | split

theorem Keep.resetSteward {s0 : State} {s : State} (h0 : Keep s0 s) : Keep s0 (State.resetSteward s) := by
  unfold State.resetSteward
  repeat' first
    | with_reducible assumption
    | ((try lift_lets -underBinder); intro x; first | (refine Keep.cut (s := s0) (t := x) ?_ ?_; (on_goal 1 => (unfold x; clear x)); (on_goal 2 => (clear_value x; intro k))) | (refine Keep.cut (s := s0) (t := x.1) ?_ ?_; (on_goal 1 => (unfold x; clear x)); (on_goal 2 => (clear_value x; intro k))) | clear_value x | skip)
    | with_reducible exact Keep.upd (by with_reducible assumption)
    | with_reducible apply Keep.set
    | with_reducible apply Keep.addF
    | split

theorem Keep.execStewardCtrlReset {s0 : State} {s : State} (h0 : Keep s0 s) : ResKeep s0 (Sys2Proof.Machine.execStewardCtrlReset s) := by
  unfold Sys2Proof.Machine.execStewardCtrlReset
  repeat' first
    | with_reducible assumption
    | intro _
    | with_reducible apply Keep.next
    | with_reducible apply Keep.cxlIo
    | with_reducible apply Keep.resetSteward

theorem Keep.execStewardReset {s0 : State} {req : Option (List Byte)} {s : State} (h0 : Keep s0 s) : ResKeep s0 (Sys2Proof.Machine.execStewardReset req s) := by
  unfold Sys2Proof.Machine.execStewardReset
  repeat' first
    | with_reducible assumption
    | intro _
    | with_reducible apply Keep.next
    | with_reducible apply Keep.resetSteward
    | with_reducible apply Keep.vendor
    | split

theorem Keep.execStewardRestart {s0 : State} {modules : BitVec 4} {repaired : Byte} {s : State} (h0 : Keep s0 s) : ResKeep s0 (Sys2Proof.Machine.execStewardRestart modules repaired s) := by
  unfold Sys2Proof.Machine.execStewardRestart
  repeat' first
    | with_reducible assumption
    | with_reducible apply Keep.next
    | with_reducible apply Keep.addF
    | with_reducible apply Keep.loadSteward
    | with_reducible apply Keep.set
    | split

theorem Keep.execUcieModuleFail {s0 : State} {m : Fin 4} {s : State} (h0 : Keep s0 s) : ResKeep s0 (Sys2Proof.Machine.execUcieModuleFail m s) := by
  unfold Sys2Proof.Machine.execUcieModuleFail
  repeat' first
    | with_reducible assumption
    | ((try lift_lets -underBinder); intro x; first | (refine Keep.cut (s := s0) (t := x) ?_ ?_; (on_goal 1 => (unfold x; clear x)); (on_goal 2 => (clear_value x; intro k))) | (refine Keep.cut (s := s0) (t := x.1) ?_ ?_; (on_goal 1 => (unfold x; clear x)); (on_goal 2 => (clear_value x; intro k))) | clear_value x | skip)
    | with_reducible apply Keep.next
    | with_reducible apply Keep.addF
    | with_reducible apply Keep.resetSteward
    | with_reducible apply Keep.set
    | split

theorem Keep.config {s0 : State} {s : State} {f : State → State} (h0 : Keep s0 s) (hf : ∀ t, Keep s0 t → Keep s0 (f t)) : Keep s0 (State.config s f) := by
  unfold State.config
  repeat' first
    | with_reducible assumption
    | intro _
    | with_reducible apply Keep.emit
    | with_reducible apply hf
    | split

theorem Keep.execFunctionLevelReset {s0 : State} {s : State} (h0 : Keep s0 s) : ResKeep s0 (Sys2Proof.Machine.execFunctionLevelReset s) := by
  unfold Sys2Proof.Machine.execFunctionLevelReset
  repeat' first
    | with_reducible assumption
    | ((try lift_lets -underBinder); intro x; first | (refine Keep.cut (s := s0) (t := x) ?_ ?_; (on_goal 1 => (unfold x; clear x)); (on_goal 2 => (clear_value x; intro k))) | (refine Keep.cut (s := s0) (t := x.1) ?_ ?_; (on_goal 1 => (unfold x; clear x)); (on_goal 2 => (clear_value x; intro k))) | clear_value x | skip)
    | with_reducible apply Keep.next
    | with_reducible exact Keep.upd (by with_reducible assumption)
    | with_reducible apply Keep.config
    | with_reducible apply Keep.resetRegs

theorem Keep.drawStartKeys {s0 : State} {s : State} (h0 : Keep s0 s) : Keep s0 (State.drawStartKeys s) := by
  unfold State.drawStartKeys
  repeat' first
    | with_reducible assumption
    | ((try lift_lets -underBinder); intro x; first | (refine Keep.cut (s := s0) (t := x) ?_ ?_; (on_goal 1 => (unfold x; clear x)); (on_goal 2 => (clear_value x; intro k))) | (refine Keep.cut (s := s0) (t := x.1) ?_ ?_; (on_goal 1 => (unfold x; clear x)); (on_goal 2 => (clear_value x; intro k))) | clear_value x | skip)
    | intro _
    | with_reducible exact Keep.upd (by with_reducible assumption)
    | with_reducible apply Keep.foldl
    | with_reducible apply Keep.foldl_fst
    | with_reducible apply Keep.updKey
    | with_reducible apply Keep.tick
    | with_reducible apply Keep.drawEdgeKey

theorem Keep.execBringUpComplete {s0 : State} {failed : Fin 12} {hbm : BitVec 8} {clusters : BitVec 96} {modules : BitVec 4} {s : State} (h0 : Keep s0 s) : ResKeep s0 (Sys2Proof.Machine.execBringUpComplete failed hbm clusters modules s) := by
  unfold Sys2Proof.Machine.execBringUpComplete
  repeat' first
    | with_reducible assumption
    | ((try lift_lets -underBinder); intro x; first | (refine Keep.cut (s := s0) (t := x) ?_ ?_; (on_goal 1 => (unfold x; clear x)); (on_goal 2 => (clear_value x; intro k))) | (refine Keep.cut (s := s0) (t := x.1) ?_ ?_; (on_goal 1 => (unfold x; clear x)); (on_goal 2 => (clear_value x; intro k))) | clear_value x | skip)
    | intro _
    | with_reducible apply Keep.next
    | with_reducible exact Keep.upd (by with_reducible assumption)
    | with_reducible apply Keep.foldl
    | with_reducible apply Keep.foldl_fst
    | with_reducible apply Keep.loadGateProgram
    | with_reducible apply Keep.showFrame
    | with_reducible apply Keep.frameEnd
    | with_reducible apply Keep.setF
    | with_reducible apply Keep.set
    | with_reducible apply Keep.updPilot
    | with_reducible apply Keep.wake
    | with_reducible apply Keep.loadSteward
    | with_reducible apply Keep.resetSteward
    | with_reducible apply Keep.drawStartKeys
    | split

end Sys2Proof.Machine
end

