-- ==== Sys2Proof/Laws/KeepRegisters.lean ====
section
/-!
SUPPORT. What the operations of Machine/Registers.lean keep (Laws/Keep.lean).
-/

set_option linter.unusedTactic false
set_option linter.unreachableTactic false

namespace Sys2Proof.Machine

theorem Keep.writeEffect {s0 : State} {s : State} {off w : Nat} (h0 : Keep s0 s) : Keep s0 (State.writeEffect s off w) := by
  unfold State.writeEffect
  repeat' first
    | with_reducible assumption
    | intro _
    | with_reducible exact Keep.upd (by with_reducible assumption)
    | with_reducible apply Keep.foldl
    | with_reducible apply Keep.foldl_fst
    | with_reducible apply Keep.darkUnbound
    | with_reducible apply Keep.setF
    | with_reducible apply Keep.ownerRefuse
    | with_reducible apply Keep.keyRefuse
    | with_reducible apply Keep.keyIdle
    | with_reducible apply Keep.objEnd
    | with_reducible apply Keep.qOverrun
    | split

theorem Keep.writeMsix {s0 : State} {s : State} {i : Nat} {high : Bool} {v : Word} (h0 : Keep s0 s) : Keep s0 (State.writeMsix s i high v) := by
  unfold State.writeMsix
  repeat' first
    | with_reducible assumption
    | ((try lift_lets -underBinder); intro x; first | (refine Keep.cut (s := s0) (t := x) ?_ ?_; (on_goal 1 => (unfold x; clear x)); (on_goal 2 => (clear_value x; intro k))) | (refine Keep.cut (s := s0) (t := x.1) ?_ ?_; (on_goal 1 => (unfold x; clear x)); (on_goal 2 => (clear_value x; intro k))) | clear_value x | skip)
    | with_reducible exact Keep.upd (by with_reducible assumption)
    | with_reducible apply Keep.flushMsix
    | split

theorem Keep.execRegisterWrite {s0 : State} {target : RegTarget} {value : Word} {s : State} (h0 : Keep s0 s) : ResKeep s0 (Sys2Proof.Machine.execRegisterWrite target value s) := by
  unfold Sys2Proof.Machine.execRegisterWrite
  repeat' first
    | with_reducible assumption
    | ((try lift_lets -underBinder); intro x; first | (refine Keep.cut (s := s0) (t := x) ?_ ?_; (on_goal 1 => (unfold x; clear x)); (on_goal 2 => (clear_value x; intro k))) | (refine Keep.cut (s := s0) (t := x.1) ?_ ?_; (on_goal 1 => (unfold x; clear x)); (on_goal 2 => (clear_value x; intro k))) | clear_value x | skip)
    | intro _
    | with_reducible apply Keep.next
    | with_reducible exact Keep.upd (by with_reducible assumption)
    | with_reducible apply Keep.flushMsix
    | with_reducible apply Keep.cxlIo
    | with_reducible apply Keep.updMbox
    | with_reducible apply Keep.writeWord
    | with_reducible apply Keep.clearWord
    | with_reducible apply Keep.writeEffect
    | with_reducible apply Keep.writeMsix
    | with_reducible apply Keep.config
    | with_reducible apply Keep.windowWrite
    | split

theorem Keep.noteRead {s0 : State} {s : State} {off : Nat} (h0 : Keep s0 s) : Keep s0 (State.noteRead s off) := by
  unfold State.noteRead
  repeat' first
    | with_reducible assumption
    | intro _
    | with_reducible exact Keep.upd (by with_reducible assumption)
    | with_reducible apply Keep.updTile
    | split

end Sys2Proof.Machine
end

