-- ==== Sys2Proof/Laws/KeepSpdm.lean ====
section
/-!
SUPPORT. What the operations of Machine/Spdm.lean keep (Laws/Keep.lean).
-/

set_option linter.unusedTactic false
set_option linter.unreachableTactic false

namespace Sys2Proof.Machine

theorem Keep.updConn {s0 : State} {s : State} {c : Nat} {f : SpdmConn → SpdmConn} (h0 : Keep s0 s) : Keep s0 (State.updConn s c f) := by
  unfold State.updConn
  repeat' first
    | with_reducible assumption
    | ((try lift_lets -underBinder); intro x; first | (refine Keep.cut (s := s0) (t := x) ?_ ?_; (on_goal 1 => (unfold x; clear x)); (on_goal 2 => (clear_value x; intro k))) | (refine Keep.cut (s := s0) (t := x.1) ?_ ?_; (on_goal 1 => (unfold x; clear x)); (on_goal 2 => (clear_value x; intro k))) | clear_value x | skip)
    | with_reducible exact Keep.upd (by with_reducible assumption)

theorem Keep.spdm {s0 : State} {s : State} {req : Option Bytes} {code : Nat} {f : Bytes → State → State} (h0 : Keep s0 s) (hf : ∀ x0 t, Keep s0 t → Keep s0 (f x0 t)) : Keep s0 (State.spdm s req code f) := by
  unfold State.spdm
  repeat' first
    | with_reducible assumption
    | intro _
    | with_reducible exact Keep.upd (by with_reducible assumption)
    | with_reducible apply Keep.emit
    | with_reducible apply Keep.respond
    | with_reducible apply hf
    | split

theorem Keep.answerSpdm {s0 : State} {s : State} {req : Option Bytes} {m : Bytes} (h0 : Keep s0 s) : Keep s0 (State.answerSpdm s req m).1 := by
  unfold State.answerSpdm
  repeat' first
    | with_reducible assumption
    | ((try lift_lets -underBinder); intro x; first | (refine Keep.cut (s := s0) (t := x) ?_ ?_; (on_goal 1 => (unfold x; clear x)); (on_goal 2 => (clear_value x; intro k))) | (refine Keep.cut (s := s0) (t := x.1) ?_ ?_; (on_goal 1 => (unfold x; clear x)); (on_goal 2 => (clear_value x; intro k))) | clear_value x | skip)
    | with_reducible exact Keep.upd (by with_reducible assumption)
    | with_reducible apply Keep.respond
    | with_reducible apply Keep.tick
    | with_reducible apply Keep.updConn

theorem Keep.execGetVersion {s0 : State} {req : Option (List Byte)} {s : State} (h0 : Keep s0 s) : ResKeep s0 (Sys2Proof.Machine.execGetVersion req s) := by
  unfold Sys2Proof.Machine.execGetVersion
  repeat' first
    | with_reducible assumption
    | intro _
    | with_reducible apply Keep.next
    | with_reducible apply Keep.answerSpdm
    | with_reducible apply Keep.spdm
    | with_reducible apply Keep.updConn
    | with_reducible apply Keep.of_fst (by with_reducible assumption)

theorem Keep.execGetCapabilities {s0 : State} {req : Option (List Byte)} {s : State} (h0 : Keep s0 s) : ResKeep s0 (Sys2Proof.Machine.execGetCapabilities req s) := by
  unfold Sys2Proof.Machine.execGetCapabilities
  repeat' first
    | with_reducible assumption
    | intro _
    | with_reducible apply Keep.next
    | with_reducible apply Keep.answerSpdm
    | with_reducible apply Keep.spdm
    | with_reducible apply Keep.of_fst (by with_reducible assumption)

theorem Keep.execNegotiateAlgorithms {s0 : State} {req : Option (List Byte)} {s : State} (h0 : Keep s0 s) : ResKeep s0 (Sys2Proof.Machine.execNegotiateAlgorithms req s) := by
  unfold Sys2Proof.Machine.execNegotiateAlgorithms
  repeat' first
    | with_reducible assumption
    | intro _
    | with_reducible apply Keep.next
    | with_reducible apply Keep.answerSpdm
    | with_reducible apply Keep.spdm
    | with_reducible apply Keep.of_fst (by with_reducible assumption)

theorem Keep.execGetDigests {s0 : State} {req : Option (List Byte)} {s : State} (h0 : Keep s0 s) : ResKeep s0 (Sys2Proof.Machine.execGetDigests req s) := by
  unfold Sys2Proof.Machine.execGetDigests
  repeat' first
    | with_reducible assumption
    | intro _
    | with_reducible apply Keep.next
    | with_reducible apply Keep.answerSpdm
    | with_reducible apply Keep.spdm
    | with_reducible apply Keep.of_fst (by with_reducible assumption)

theorem Keep.execGetCertificate {s0 : State} {req : Option (List Byte)} {s : State} (h0 : Keep s0 s) : ResKeep s0 (Sys2Proof.Machine.execGetCertificate req s) := by
  unfold Sys2Proof.Machine.execGetCertificate
  repeat' first
    | with_reducible assumption
    | intro _
    | with_reducible apply Keep.next
    | with_reducible apply Keep.answerSpdm
    | with_reducible apply Keep.spdm
    | with_reducible apply Keep.of_fst (by with_reducible assumption)

theorem Keep.execSpdmChallenge {s0 : State} {req : Option (List Byte)} {s : State} (h0 : Keep s0 s) : ResKeep s0 (Sys2Proof.Machine.execSpdmChallenge req s) := by
  unfold Sys2Proof.Machine.execSpdmChallenge
  repeat' first
    | with_reducible assumption
    | intro _
    | with_reducible apply Keep.next
    | with_reducible apply Keep.answerSpdm
    | with_reducible apply Keep.spdm
    | with_reducible apply Keep.of_fst (by with_reducible assumption)

theorem Keep.execGetMeasurements {s0 : State} {req : Option (List Byte)} {s : State} (h0 : Keep s0 s) : ResKeep s0 (Sys2Proof.Machine.execGetMeasurements req s) := by
  unfold Sys2Proof.Machine.execGetMeasurements
  repeat' first
    | with_reducible assumption
    | ((try lift_lets -underBinder); intro x; first | (refine Keep.cut (s := s0) (t := x) ?_ ?_; (on_goal 1 => (unfold x; clear x)); (on_goal 2 => (clear_value x; intro k))) | (refine Keep.cut (s := s0) (t := x.1) ?_ ?_; (on_goal 1 => (unfold x; clear x)); (on_goal 2 => (clear_value x; intro k))) | clear_value x | skip)
    | with_reducible apply Keep.next
    | with_reducible exact Keep.upd (by with_reducible assumption)
    | with_reducible apply Keep.answerSpdm
    | with_reducible apply Keep.spdm
    | with_reducible apply Keep.updConn
    | with_reducible apply Keep.of_fst (by with_reducible assumption)
    | with_reducible refine Keep.upd (Keep.of_fst (by with_reducible assumption) ?_)
    | split

theorem Keep.execVendorDefinedRequest {s0 : State} {req : Option (List Byte)} {s : State} (h0 : Keep s0 s) : ResKeep s0 (Sys2Proof.Machine.execVendorDefinedRequest req s) := by
  unfold Sys2Proof.Machine.execVendorDefinedRequest
  repeat' first
    | with_reducible assumption
    | ((try lift_lets -underBinder); intro x; first | (refine Keep.cut (s := s0) (t := x) ?_ ?_; (on_goal 1 => (unfold x; clear x)); (on_goal 2 => (clear_value x; intro k))) | (refine Keep.cut (s := s0) (t := x.1) ?_ ?_; (on_goal 1 => (unfold x; clear x)); (on_goal 2 => (clear_value x; intro k))) | clear_value x | skip)
    | with_reducible apply Keep.next
    | with_reducible exact Keep.upd (by with_reducible assumption)
    | with_reducible apply Keep.respond
    | with_reducible apply Keep.spdm
    | with_reducible apply Keep.updConn
    | split

theorem Keep.provRsp {s0 : State} {s : State} {c : Nat} {m b : Bytes} (h0 : Keep s0 s) : Keep s0 (State.provRsp s c m b) := by
  unfold State.provRsp
  repeat' first
    | with_reducible assumption
    | ((try lift_lets -underBinder); intro x; first | (refine Keep.cut (s := s0) (t := x) ?_ ?_; (on_goal 1 => (unfold x; clear x)); (on_goal 2 => (clear_value x; intro k))) | (refine Keep.cut (s := s0) (t := x.1) ?_ ?_; (on_goal 1 => (unfold x; clear x)); (on_goal 2 => (clear_value x; intro k))) | clear_value x | skip)
    | with_reducible exact Keep.upd (by with_reducible assumption)
    | with_reducible apply Keep.respond
    | with_reducible apply Keep.updConn
    | split

theorem Keep.provAck {s0 : State} {s : State} {c : Nat} {m seq : Bytes} {code : Nat} {gen : Option Nat} (h0 : Keep s0 s) : Keep s0 (State.provAck s c m seq code gen) := by
  unfold State.provAck
  repeat' first
    | with_reducible assumption
    | ((try lift_lets -underBinder); intro x; first | (refine Keep.cut (s := s0) (t := x) ?_ ?_; (on_goal 1 => (unfold x; clear x)); (on_goal 2 => (clear_value x; intro k))) | (refine Keep.cut (s := s0) (t := x.1) ?_ ?_; (on_goal 1 => (unfold x; clear x)); (on_goal 2 => (clear_value x; intro k))) | clear_value x | skip)
    | with_reducible exact Keep.upd (by with_reducible assumption)
    | with_reducible apply Keep.provRsp
    | with_reducible apply Keep.tick
    | split

theorem Keep.provOpen {s0 : State} {s : State} {c : Nat} {m b : Bytes} (h0 : Keep s0 s) : Keep s0 (State.provOpen s c m b) := by
  unfold State.provOpen
  repeat' first
    | with_reducible assumption
    | ((try lift_lets -underBinder); intro x; first | (refine Keep.cut (s := s0) (t := x) ?_ ?_; (on_goal 1 => (unfold x; clear x)); (on_goal 2 => (clear_value x; intro k))) | (refine Keep.cut (s := s0) (t := x.1) ?_ ?_; (on_goal 1 => (unfold x; clear x)); (on_goal 2 => (clear_value x; intro k))) | clear_value x | skip)
    | with_reducible exact Keep.upd (by with_reducible assumption)
    | with_reducible apply Keep.provAck
    | with_reducible apply Keep.provRsp
    | with_reducible apply Keep.tick
    | with_reducible apply Keep.updConn
    | split

theorem Keep.provSeq {s0 : State} {s : State} {c n : Nat} (h0 : Keep s0 s) : Keep s0 (State.provSeq s c n) := by
  unfold State.provSeq
  repeat' first
    | with_reducible assumption
    | ((try lift_lets -underBinder); intro x; first | (refine Keep.cut (s := s0) (t := x) ?_ ?_; (on_goal 1 => (unfold x; clear x)); (on_goal 2 => (clear_value x; intro k))) | (refine Keep.cut (s := s0) (t := x.1) ?_ ?_; (on_goal 1 => (unfold x; clear x)); (on_goal 2 => (clear_value x; intro k))) | clear_value x | skip)
    | with_reducible exact Keep.upd (by with_reducible assumption)
    | with_reducible apply Keep.updConn

theorem Keep.provKey {s0 : State} {s : State} {c : Nat} {m b : Bytes} (h0 : Keep s0 s) : Keep s0 (State.provKey s c m b) := by
  unfold State.provKey
  repeat' first
    | with_reducible assumption
    | ((try lift_lets -underBinder); intro x; first | (refine Keep.cut (s := s0) (t := x) ?_ ?_; (on_goal 1 => (unfold x; clear x)); (on_goal 2 => (clear_value x; intro k))) | (refine Keep.cut (s := s0) (t := x.1) ?_ ?_; (on_goal 1 => (unfold x; clear x)); (on_goal 2 => (clear_value x; intro k))) | clear_value x | skip)
    | with_reducible exact Keep.upd (by with_reducible assumption)
    | with_reducible apply Keep.provAck
    | with_reducible apply Keep.provSeq
    | with_reducible apply Keep.syncRights
    | with_reducible apply Keep.updKey
    | split

theorem Keep.provPolicy {s0 : State} {s : State} {c : Nat} {m b : Bytes} (h0 : Keep s0 s) : Keep s0 (State.provPolicy s c m b) := by
  unfold State.provPolicy
  repeat' first
    | with_reducible assumption
    | ((try lift_lets -underBinder); intro x; first | (refine Keep.cut (s := s0) (t := x) ?_ ?_; (on_goal 1 => (unfold x; clear x)); (on_goal 2 => (clear_value x; intro k))) | (refine Keep.cut (s := s0) (t := x.1) ?_ ?_; (on_goal 1 => (unfold x; clear x)); (on_goal 2 => (clear_value x; intro k))) | clear_value x | skip)
    | with_reducible exact Keep.upd (by with_reducible assumption)
    | with_reducible apply Keep.provAck
    | with_reducible apply Keep.provSeq
    | with_reducible apply Keep.syncRights
    | with_reducible apply Keep.updOwner
    | split

theorem Keep.onProv {s0 : State} {s : State} {c : Nat} {len : Nat → Bool} {f : Bytes → Bytes → State} (h0 : Keep s0 s) (hf : ∀ x0 x1, Keep s0 (f x0 x1)) : Keep s0 (State.onProv s c len f) := by
  unfold State.onProv
  repeat' first
    | with_reducible assumption
    | intro _
    | with_reducible exact Keep.upd (by with_reducible assumption)
    | with_reducible apply hf
    | split

theorem Keep.execProvOpen {s0 : State} {conn : Fin 2} {s : State} (h0 : Keep s0 s) : ResKeep s0 (Sys2Proof.Machine.execProvOpen conn s) := by
  unfold Sys2Proof.Machine.execProvOpen
  repeat' first
    | with_reducible assumption
    | intro _
    | with_reducible apply Keep.next
    | with_reducible apply Keep.onProv
    | with_reducible apply Keep.provOpen

theorem Keep.execProvKey {s0 : State} {conn : Fin 2} {s : State} (h0 : Keep s0 s) : ResKeep s0 (Sys2Proof.Machine.execProvKey conn s) := by
  unfold Sys2Proof.Machine.execProvKey
  repeat' first
    | with_reducible assumption
    | intro _
    | with_reducible apply Keep.next
    | with_reducible apply Keep.onProv
    | with_reducible apply Keep.provKey

theorem Keep.execProvPolicy {s0 : State} {conn : Fin 2} {s : State} (h0 : Keep s0 s) : ResKeep s0 (Sys2Proof.Machine.execProvPolicy conn s) := by
  unfold Sys2Proof.Machine.execProvPolicy
  repeat' first
    | with_reducible assumption
    | intro _
    | with_reducible apply Keep.next
    | with_reducible apply Keep.onProv
    | with_reducible apply Keep.provPolicy

theorem Keep.execProvSessionTimeout {s0 : State} {conn : Fin 2} {s : State} (h0 : Keep s0 s) : ResKeep s0 (Sys2Proof.Machine.execProvSessionTimeout conn s) := by
  unfold Sys2Proof.Machine.execProvSessionTimeout
  repeat' first
    | with_reducible assumption
    | ((try lift_lets -underBinder); intro x; first | (refine Keep.cut (s := s0) (t := x) ?_ ?_; (on_goal 1 => (unfold x; clear x)); (on_goal 2 => (clear_value x; intro k))) | (refine Keep.cut (s := s0) (t := x.1) ?_ ?_; (on_goal 1 => (unfold x; clear x)); (on_goal 2 => (clear_value x; intro k))) | clear_value x | skip)
    | with_reducible apply Keep.next
    | with_reducible exact Keep.upd (by with_reducible assumption)
    | with_reducible apply Keep.updConn

end Sys2Proof.Machine
end

