-- ==== Sys2Proof/Laws/KeepTileDecode.lean ====
section
/-!
SUPPORT. What the operations of Machine/TileDecode.lean keep (Laws/Keep.lean).
-/

set_option linter.unusedTactic false
set_option linter.unreachableTactic false

namespace Sys2Proof.Machine

theorem Keep.execIllegalInstruction {s0 : State} {t : TileIx} {word : Option (BitVec 32)} {s : State} (h0 : Keep s0 s) : ResKeep s0 (Sys2Proof.Machine.execIllegalInstruction t word s) := by
  unfold Sys2Proof.Machine.execIllegalInstruction
  repeat' first
    | with_reducible assumption
    | with_reducible apply Keep.next
    | with_reducible exact Keep.upd (by with_reducible assumption)
    | with_reducible apply Keep.tileExc
    | with_reducible apply Keep.tileUe
    | split

theorem Keep.tileExec {s0 : State} {i : Instr} {s : State} (h0 : Keep s0 s) : ResKeep s0 (Sys2Proof.Machine.tileExec i s) := by
  unfold Sys2Proof.Machine.tileExec
  repeat' first
    | with_reducible assumption
    | with_reducible apply Keep.next
    | with_reducible exact Keep.upd (by with_reducible assumption)
    | with_reducible apply Keep.execAdd
    | with_reducible apply Keep.execSub
    | with_reducible apply Keep.execAnd
    | with_reducible apply Keep.execOr
    | with_reducible apply Keep.execXor
    | with_reducible apply Keep.execSll
    | with_reducible apply Keep.execSrl
    | with_reducible apply Keep.execSra
    | with_reducible apply Keep.execMul
    | with_reducible apply Keep.execMulhu
    | with_reducible apply Keep.execDivu
    | with_reducible apply Keep.execRemu
    | with_reducible apply Keep.execSmin
    | with_reducible apply Keep.execSmax
    | with_reducible apply Keep.execMinu
    | with_reducible apply Keep.execMaxu
    | with_reducible apply Keep.execPopc
    | with_reducible apply Keep.execClz
    | with_reducible apply Keep.execAddi
    | with_reducible apply Keep.execAndi
    | with_reducible apply Keep.execOri
    | with_reducible apply Keep.execXori
    | with_reducible apply Keep.execSlli
    | with_reducible apply Keep.execSrli
    | with_reducible apply Keep.execSrai
    | with_reducible apply Keep.execMovz
    | with_reducible apply Keep.execMovk
    | with_reducible apply Keep.execCmp
    | with_reducible apply Keep.execCmpi
    | with_reducible apply Keep.execPlog
    | with_reducible apply Keep.execBr
    | with_reducible apply Keep.execCall
    | with_reducible apply Keep.execJr
    | with_reducible apply Keep.execEvadd
    | with_reducible apply Keep.execEvrd
    | with_reducible apply Keep.execNop
    | with_reducible apply Keep.execTrap
    | with_reducible apply Keep.execIllegalInstruction
    | with_reducible apply Keep.execLdb
    | with_reducible apply Keep.execLdh
    | with_reducible apply Keep.execLdw
    | with_reducible apply Keep.execLdd
    | with_reducible apply Keep.execStb
    | with_reducible apply Keep.execSth
    | with_reducible apply Keep.execStw
    | with_reducible apply Keep.execStd
    | with_reducible apply Keep.execMxi
    | with_reducible apply Keep.execVxi
    | with_reducible apply Keep.execMvi
    | with_reducible apply Keep.execWaitt
    | with_reducible apply Keep.execTestt
    | with_reducible apply Keep.execWaite
    | with_reducible apply Keep.execWaitu
    | with_reducible apply Keep.execCsrr
    | with_reducible apply Keep.execCsrw
    | with_reducible apply Keep.execSend
    | with_reducible apply Keep.execRecv
    | with_reducible apply Keep.execRavail
    | with_reducible apply Keep.execRrel
    | with_reducible apply Keep.execHalt
    | split

theorem Keep.execSstep {s0 : State} {t : TileIx} {ue : Bool} {s : State} (h0 : Keep s0 s) : ResKeep s0 (Sys2Proof.Machine.execSstep t ue s) := by
  unfold Sys2Proof.Machine.execSstep
  repeat' first
    | with_reducible assumption
    | ((try lift_lets -underBinder); intro x; first | (refine Keep.cut (s := s0) (t := x) ?_ ?_; (on_goal 1 => (unfold x; clear x)); (on_goal 2 => (clear_value x; intro k))) | (refine Keep.cut (s := s0) (t := x.1) ?_ ?_; (on_goal 1 => (unfold x; clear x)); (on_goal 2 => (clear_value x; intro k))) | clear_value x | skip)
    | intro _
    | with_reducible apply Keep.next
    | with_reducible exact Keep.upd (by with_reducible assumption)
    | with_reducible apply Keep.updTile
    | with_reducible apply Keep.tileExec
    | with_reducible apply Keep.tileUe
    | with_reducible apply Keep.endWait
    | with_reducible apply Keep.tileCtrl
    | split

end Sys2Proof.Machine
end

