-- ==== Sys2Proof/Laws/State.lean ====
section
/-!
SUPPORT. What each named update of the state leaves: one lemma per field and update, and the reads after writes of the
register file, the tiles and the partitions.
-/

namespace Sys2Proof.Machine

@[simp] theorem setF_pending (s : State) (f : Fld) (i j v : Nat) : (s.setF f i j v).pending = s.pending := rfl
@[simp] theorem setF_fresh (s : State) (f : Fld) (i j v : Nat) : (s.setF f i j v).fresh = s.fresh := rfl
@[simp] theorem setF_out (s : State) (f : Fld) (i j v : Nat) : (s.setF f i j v).out = s.out := rfl
@[simp] theorem setF_tiles (s : State) (f : Fld) (i j v : Nat) : (s.setF f i j v).tiles = s.tiles := rfl
@[simp] theorem setF_fab (s : State) (f : Fld) (i j v : Nat) : (s.setF f i j v).fab = s.fab := rfl
@[simp] theorem setF_mem (s : State) (f : Fld) (i j v : Nat) : (s.setF f i j v).mem = s.mem := rfl
@[simp] theorem setF_prism (s : State) (f : Fld) (i j v : Nat) : (s.setF f i j v).prism = s.prism := rfl
@[simp] theorem setF_frame (s : State) (f : Fld) (i j v : Nat) : (s.setF f i j v).frame = s.frame := rfl
@[simp] theorem setF_parts (s : State) (f : Fld) (i j v : Nat) : (s.setF f i j v).parts = s.parts := rfl
@[simp] theorem setF_hub (s : State) (f : Fld) (i j v : Nat) : (s.setF f i j v).hub = s.hub := rfl
@[simp] theorem setF_link (s : State) (f : Fld) (i j v : Nat) : (s.setF f i j v).link = s.link := rfl
@[simp] theorem setF_ten (s : State) (f : Fld) (i j v : Nat) : (s.setF f i j v).ten = s.ten := rfl
@[simp] theorem setF_pilot (s : State) (f : Fld) (i j v : Nat) : (s.setF f i j v).pilot = s.pilot := rfl

@[simp] theorem set_pending (s : State) (f : Fld) (v : Nat) : (s.set f v).pending = s.pending := rfl
@[simp] theorem set_fresh (s : State) (f : Fld) (v : Nat) : (s.set f v).fresh = s.fresh := rfl
@[simp] theorem set_out (s : State) (f : Fld) (v : Nat) : (s.set f v).out = s.out := rfl
@[simp] theorem set_tiles (s : State) (f : Fld) (v : Nat) : (s.set f v).tiles = s.tiles := rfl
@[simp] theorem set_fab (s : State) (f : Fld) (v : Nat) : (s.set f v).fab = s.fab := rfl
@[simp] theorem set_mem (s : State) (f : Fld) (v : Nat) : (s.set f v).mem = s.mem := rfl
@[simp] theorem set_prism (s : State) (f : Fld) (v : Nat) : (s.set f v).prism = s.prism := rfl
@[simp] theorem set_frame (s : State) (f : Fld) (v : Nat) : (s.set f v).frame = s.frame := rfl
@[simp] theorem set_parts (s : State) (f : Fld) (v : Nat) : (s.set f v).parts = s.parts := rfl
@[simp] theorem set_hub (s : State) (f : Fld) (v : Nat) : (s.set f v).hub = s.hub := rfl
@[simp] theorem set_link (s : State) (f : Fld) (v : Nat) : (s.set f v).link = s.link := rfl
@[simp] theorem set_ten (s : State) (f : Fld) (v : Nat) : (s.set f v).ten = s.ten := rfl
@[simp] theorem set_pilot (s : State) (f : Fld) (v : Nat) : (s.set f v).pilot = s.pilot := rfl

@[simp] theorem tick_pending (s : State)  : (s.tick).pending = s.pending := rfl
@[simp] theorem tick_out (s : State)  : (s.tick).out = s.out := rfl
@[simp] theorem tick_regs (s : State)  : (s.tick).regs = s.regs := rfl
@[simp] theorem tick_tiles (s : State)  : (s.tick).tiles = s.tiles := rfl
@[simp] theorem tick_fab (s : State)  : (s.tick).fab = s.fab := rfl
@[simp] theorem tick_mem (s : State)  : (s.tick).mem = s.mem := rfl
@[simp] theorem tick_prism (s : State)  : (s.tick).prism = s.prism := rfl
@[simp] theorem tick_frame (s : State)  : (s.tick).frame = s.frame := rfl
@[simp] theorem tick_parts (s : State)  : (s.tick).parts = s.parts := rfl
@[simp] theorem tick_hub (s : State)  : (s.tick).hub = s.hub := rfl
@[simp] theorem tick_link (s : State)  : (s.tick).link = s.link := rfl
@[simp] theorem tick_ten (s : State)  : (s.tick).ten = s.ten := rfl
@[simp] theorem tick_pilot (s : State)  : (s.tick).pilot = s.pilot := rfl

@[simp] theorem emit_pending (s : State) (o : Out) : (s.emit o).pending = s.pending := rfl
@[simp] theorem emit_fresh (s : State) (o : Out) : (s.emit o).fresh = s.fresh := rfl
@[simp] theorem emit_regs (s : State) (o : Out) : (s.emit o).regs = s.regs := rfl
@[simp] theorem emit_tiles (s : State) (o : Out) : (s.emit o).tiles = s.tiles := rfl
@[simp] theorem emit_fab (s : State) (o : Out) : (s.emit o).fab = s.fab := rfl
@[simp] theorem emit_mem (s : State) (o : Out) : (s.emit o).mem = s.mem := rfl
@[simp] theorem emit_prism (s : State) (o : Out) : (s.emit o).prism = s.prism := rfl
@[simp] theorem emit_frame (s : State) (o : Out) : (s.emit o).frame = s.frame := rfl
@[simp] theorem emit_parts (s : State) (o : Out) : (s.emit o).parts = s.parts := rfl
@[simp] theorem emit_hub (s : State) (o : Out) : (s.emit o).hub = s.hub := rfl
@[simp] theorem emit_link (s : State) (o : Out) : (s.emit o).link = s.link := rfl
@[simp] theorem emit_ten (s : State) (o : Out) : (s.emit o).ten = s.ten := rfl
@[simp] theorem emit_pilot (s : State) (o : Out) : (s.emit o).pilot = s.pilot := rfl

@[simp] theorem updPart_pending (s : State) (p : Nat) (f : Part → Part) : (s.updPart p f).pending = s.pending := rfl
@[simp] theorem updPart_fresh (s : State) (p : Nat) (f : Part → Part) : (s.updPart p f).fresh = s.fresh := rfl
@[simp] theorem updPart_out (s : State) (p : Nat) (f : Part → Part) : (s.updPart p f).out = s.out := rfl
@[simp] theorem updPart_regs (s : State) (p : Nat) (f : Part → Part) : (s.updPart p f).regs = s.regs := rfl
@[simp] theorem updPart_tiles (s : State) (p : Nat) (f : Part → Part) : (s.updPart p f).tiles = s.tiles := rfl
@[simp] theorem updPart_fab (s : State) (p : Nat) (f : Part → Part) : (s.updPart p f).fab = s.fab := rfl
@[simp] theorem updPart_mem (s : State) (p : Nat) (f : Part → Part) : (s.updPart p f).mem = s.mem := rfl
@[simp] theorem updPart_prism (s : State) (p : Nat) (f : Part → Part) : (s.updPart p f).prism = s.prism := rfl
@[simp] theorem updPart_frame (s : State) (p : Nat) (f : Part → Part) : (s.updPart p f).frame = s.frame := rfl
@[simp] theorem updPart_hub (s : State) (p : Nat) (f : Part → Part) : (s.updPart p f).hub = s.hub := rfl
@[simp] theorem updPart_link (s : State) (p : Nat) (f : Part → Part) : (s.updPart p f).link = s.link := rfl
@[simp] theorem updPart_ten (s : State) (p : Nat) (f : Part → Part) : (s.updPart p f).ten = s.ten := rfl
@[simp] theorem updPart_pilot (s : State) (p : Nat) (f : Part → Part) : (s.updPart p f).pilot = s.pilot := rfl

@[simp] theorem setTile_pending (s : State) (t : Nat) (x : Tile) : (s.setTile t x).pending = s.pending := rfl
@[simp] theorem setTile_fresh (s : State) (t : Nat) (x : Tile) : (s.setTile t x).fresh = s.fresh := rfl
@[simp] theorem setTile_out (s : State) (t : Nat) (x : Tile) : (s.setTile t x).out = s.out := rfl
@[simp] theorem setTile_regs (s : State) (t : Nat) (x : Tile) : (s.setTile t x).regs = s.regs := rfl
@[simp] theorem setTile_fab (s : State) (t : Nat) (x : Tile) : (s.setTile t x).fab = s.fab := rfl
@[simp] theorem setTile_mem (s : State) (t : Nat) (x : Tile) : (s.setTile t x).mem = s.mem := rfl
@[simp] theorem setTile_prism (s : State) (t : Nat) (x : Tile) : (s.setTile t x).prism = s.prism := rfl
@[simp] theorem setTile_frame (s : State) (t : Nat) (x : Tile) : (s.setTile t x).frame = s.frame := rfl
@[simp] theorem setTile_parts (s : State) (t : Nat) (x : Tile) : (s.setTile t x).parts = s.parts := rfl
@[simp] theorem setTile_hub (s : State) (t : Nat) (x : Tile) : (s.setTile t x).hub = s.hub := rfl
@[simp] theorem setTile_link (s : State) (t : Nat) (x : Tile) : (s.setTile t x).link = s.link := rfl
@[simp] theorem setTile_ten (s : State) (t : Nat) (x : Tile) : (s.setTile t x).ten = s.ten := rfl
@[simp] theorem setTile_pilot (s : State) (t : Nat) (x : Tile) : (s.setTile t x).pilot = s.pilot := rfl

@[simp] theorem updTile_pending (s : State) (t : Nat) (f : Tile → Tile) : (s.updTile t f).pending = s.pending := rfl
@[simp] theorem updTile_fresh (s : State) (t : Nat) (f : Tile → Tile) : (s.updTile t f).fresh = s.fresh := rfl
@[simp] theorem updTile_out (s : State) (t : Nat) (f : Tile → Tile) : (s.updTile t f).out = s.out := rfl
@[simp] theorem updTile_regs (s : State) (t : Nat) (f : Tile → Tile) : (s.updTile t f).regs = s.regs := rfl
@[simp] theorem updTile_fab (s : State) (t : Nat) (f : Tile → Tile) : (s.updTile t f).fab = s.fab := rfl
@[simp] theorem updTile_mem (s : State) (t : Nat) (f : Tile → Tile) : (s.updTile t f).mem = s.mem := rfl
@[simp] theorem updTile_prism (s : State) (t : Nat) (f : Tile → Tile) : (s.updTile t f).prism = s.prism := rfl
@[simp] theorem updTile_frame (s : State) (t : Nat) (f : Tile → Tile) : (s.updTile t f).frame = s.frame := rfl
@[simp] theorem updTile_parts (s : State) (t : Nat) (f : Tile → Tile) : (s.updTile t f).parts = s.parts := rfl
@[simp] theorem updTile_hub (s : State) (t : Nat) (f : Tile → Tile) : (s.updTile t f).hub = s.hub := rfl
@[simp] theorem updTile_link (s : State) (t : Nat) (f : Tile → Tile) : (s.updTile t f).link = s.link := rfl
@[simp] theorem updTile_ten (s : State) (t : Nat) (f : Tile → Tile) : (s.updTile t f).ten = s.ten := rfl
@[simp] theorem updTile_pilot (s : State) (t : Nat) (f : Tile → Tile) : (s.updTile t f).pilot = s.pilot := rfl

@[simp] theorem inject_pending (s : State) (m : NetMsg) : (s.inject m).pending = s.pending := rfl
@[simp] theorem inject_fresh (s : State) (m : NetMsg) : (s.inject m).fresh = s.fresh := rfl
@[simp] theorem inject_out (s : State) (m : NetMsg) : (s.inject m).out = s.out := rfl
@[simp] theorem inject_regs (s : State) (m : NetMsg) : (s.inject m).regs = s.regs := rfl
@[simp] theorem inject_tiles (s : State) (m : NetMsg) : (s.inject m).tiles = s.tiles := rfl
@[simp] theorem inject_mem (s : State) (m : NetMsg) : (s.inject m).mem = s.mem := rfl
@[simp] theorem inject_prism (s : State) (m : NetMsg) : (s.inject m).prism = s.prism := rfl
@[simp] theorem inject_frame (s : State) (m : NetMsg) : (s.inject m).frame = s.frame := rfl
@[simp] theorem inject_parts (s : State) (m : NetMsg) : (s.inject m).parts = s.parts := rfl
@[simp] theorem inject_hub (s : State) (m : NetMsg) : (s.inject m).hub = s.hub := rfl
@[simp] theorem inject_link (s : State) (m : NetMsg) : (s.inject m).link = s.link := rfl
@[simp] theorem inject_ten (s : State) (m : NetMsg) : (s.inject m).ten = s.ten := rfl
@[simp] theorem inject_pilot (s : State) (m : NetMsg) : (s.inject m).pilot = s.pilot := rfl

@[simp] theorem setLine_pending (s : State) (ln : Nat) (l : Line) (b : Bytes) : (s.setLine ln l b).pending = s.pending := rfl
@[simp] theorem setLine_fresh (s : State) (ln : Nat) (l : Line) (b : Bytes) : (s.setLine ln l b).fresh = s.fresh := rfl
@[simp] theorem setLine_out (s : State) (ln : Nat) (l : Line) (b : Bytes) : (s.setLine ln l b).out = s.out := rfl
@[simp] theorem setLine_regs (s : State) (ln : Nat) (l : Line) (b : Bytes) : (s.setLine ln l b).regs = s.regs := rfl
@[simp] theorem setLine_tiles (s : State) (ln : Nat) (l : Line) (b : Bytes) : (s.setLine ln l b).tiles = s.tiles := rfl
@[simp] theorem setLine_fab (s : State) (ln : Nat) (l : Line) (b : Bytes) : (s.setLine ln l b).fab = s.fab := rfl
@[simp] theorem setLine_prism (s : State) (ln : Nat) (l : Line) (b : Bytes) : (s.setLine ln l b).prism = s.prism := rfl
@[simp] theorem setLine_frame (s : State) (ln : Nat) (l : Line) (b : Bytes) : (s.setLine ln l b).frame = s.frame := rfl
@[simp] theorem setLine_parts (s : State) (ln : Nat) (l : Line) (b : Bytes) : (s.setLine ln l b).parts = s.parts := rfl
@[simp] theorem setLine_hub (s : State) (ln : Nat) (l : Line) (b : Bytes) : (s.setLine ln l b).hub = s.hub := rfl
@[simp] theorem setLine_link (s : State) (ln : Nat) (l : Line) (b : Bytes) : (s.setLine ln l b).link = s.link := rfl
@[simp] theorem setLine_ten (s : State) (ln : Nat) (l : Line) (b : Bytes) : (s.setLine ln l b).ten = s.ten := rfl
@[simp] theorem setLine_pilot (s : State) (ln : Nat) (l : Line) (b : Bytes) : (s.setLine ln l b).pilot = s.pilot := rfl

@[simp] theorem setMajor_pending (s : State) (sec v : Nat) : (s.setMajor sec v).pending = s.pending := rfl
@[simp] theorem setMajor_fresh (s : State) (sec v : Nat) : (s.setMajor sec v).fresh = s.fresh := rfl
@[simp] theorem setMajor_out (s : State) (sec v : Nat) : (s.setMajor sec v).out = s.out := rfl
@[simp] theorem setMajor_regs (s : State) (sec v : Nat) : (s.setMajor sec v).regs = s.regs := rfl
@[simp] theorem setMajor_tiles (s : State) (sec v : Nat) : (s.setMajor sec v).tiles = s.tiles := rfl
@[simp] theorem setMajor_fab (s : State) (sec v : Nat) : (s.setMajor sec v).fab = s.fab := rfl
@[simp] theorem setMajor_prism (s : State) (sec v : Nat) : (s.setMajor sec v).prism = s.prism := rfl
@[simp] theorem setMajor_frame (s : State) (sec v : Nat) : (s.setMajor sec v).frame = s.frame := rfl
@[simp] theorem setMajor_parts (s : State) (sec v : Nat) : (s.setMajor sec v).parts = s.parts := rfl
@[simp] theorem setMajor_hub (s : State) (sec v : Nat) : (s.setMajor sec v).hub = s.hub := rfl
@[simp] theorem setMajor_link (s : State) (sec v : Nat) : (s.setMajor sec v).link = s.link := rfl
@[simp] theorem setMajor_ten (s : State) (sec v : Nat) : (s.setMajor sec v).ten = s.ten := rfl
@[simp] theorem setMajor_pilot (s : State) (sec v : Nat) : (s.setMajor sec v).pilot = s.pilot := rfl

@[simp] theorem setF_tile (s : State) (f : Fld) (i j v : Nat) (k : Nat) : (s.setF f i j v).tile k = s.tile k := rfl
@[simp] theorem setF_part (s : State) (f : Fld) (i j v : Nat) (k : Nat) : (s.setF f i j v).part k = s.part k := rfl
@[simp] theorem set_tile (s : State) (f : Fld) (v : Nat) (k : Nat) : (s.set f v).tile k = s.tile k := rfl
@[simp] theorem set_part (s : State) (f : Fld) (v : Nat) (k : Nat) : (s.set f v).part k = s.part k := rfl
@[simp] theorem tick_getF (s : State)  (g : Fld) (a c : Nat) : (s.tick).getF g a c = s.getF g a c := rfl
@[simp] theorem tick_get (s : State)  (g : Fld) : (s.tick).get g = s.get g := rfl
@[simp] theorem tick_cluster (s : State)  (c : Nat) : (s.tick).cluster c = s.cluster c := rfl
@[simp] theorem tick_tile (s : State)  (k : Nat) : (s.tick).tile k = s.tile k := rfl
@[simp] theorem tick_part (s : State)  (k : Nat) : (s.tick).part k = s.part k := rfl
@[simp] theorem emit_getF (s : State) (o : Out) (g : Fld) (a c : Nat) : (s.emit o).getF g a c = s.getF g a c := rfl
@[simp] theorem emit_get (s : State) (o : Out) (g : Fld) : (s.emit o).get g = s.get g := rfl
@[simp] theorem emit_cluster (s : State) (o : Out) (c : Nat) : (s.emit o).cluster c = s.cluster c := rfl
@[simp] theorem emit_tile (s : State) (o : Out) (k : Nat) : (s.emit o).tile k = s.tile k := rfl
@[simp] theorem emit_part (s : State) (o : Out) (k : Nat) : (s.emit o).part k = s.part k := rfl
@[simp] theorem updPart_getF (s : State) (p : Nat) (f : Part → Part) (g : Fld) (a c : Nat) : (s.updPart p f).getF g a c = s.getF g a c := rfl
@[simp] theorem updPart_get (s : State) (p : Nat) (f : Part → Part) (g : Fld) : (s.updPart p f).get g = s.get g := rfl
@[simp] theorem updPart_cluster (s : State) (p : Nat) (f : Part → Part) (c : Nat) : (s.updPart p f).cluster c = s.cluster c := rfl
@[simp] theorem updPart_tile (s : State) (p : Nat) (f : Part → Part) (k : Nat) : (s.updPart p f).tile k = s.tile k := rfl
@[simp] theorem setTile_getF (s : State) (t : Nat) (x : Tile) (g : Fld) (a c : Nat) : (s.setTile t x).getF g a c = s.getF g a c := rfl
@[simp] theorem setTile_get (s : State) (t : Nat) (x : Tile) (g : Fld) : (s.setTile t x).get g = s.get g := rfl
@[simp] theorem setTile_cluster (s : State) (t : Nat) (x : Tile) (c : Nat) : (s.setTile t x).cluster c = s.cluster c := rfl
@[simp] theorem setTile_part (s : State) (t : Nat) (x : Tile) (k : Nat) : (s.setTile t x).part k = s.part k := rfl
@[simp] theorem updTile_getF (s : State) (t : Nat) (f : Tile → Tile) (g : Fld) (a c : Nat) : (s.updTile t f).getF g a c = s.getF g a c := rfl
@[simp] theorem updTile_get (s : State) (t : Nat) (f : Tile → Tile) (g : Fld) : (s.updTile t f).get g = s.get g := rfl
@[simp] theorem updTile_cluster (s : State) (t : Nat) (f : Tile → Tile) (c : Nat) : (s.updTile t f).cluster c = s.cluster c := rfl
@[simp] theorem updTile_part (s : State) (t : Nat) (f : Tile → Tile) (k : Nat) : (s.updTile t f).part k = s.part k := rfl
@[simp] theorem inject_getF (s : State) (m : NetMsg) (g : Fld) (a c : Nat) : (s.inject m).getF g a c = s.getF g a c := rfl
@[simp] theorem inject_get (s : State) (m : NetMsg) (g : Fld) : (s.inject m).get g = s.get g := rfl
@[simp] theorem inject_cluster (s : State) (m : NetMsg) (c : Nat) : (s.inject m).cluster c = s.cluster c := rfl
@[simp] theorem inject_tile (s : State) (m : NetMsg) (k : Nat) : (s.inject m).tile k = s.tile k := rfl
@[simp] theorem inject_part (s : State) (m : NetMsg) (k : Nat) : (s.inject m).part k = s.part k := rfl
@[simp] theorem setLine_getF (s : State) (ln : Nat) (l : Line) (b : Bytes) (g : Fld) (a c : Nat) : (s.setLine ln l b).getF g a c = s.getF g a c := rfl
@[simp] theorem setLine_get (s : State) (ln : Nat) (l : Line) (b : Bytes) (g : Fld) : (s.setLine ln l b).get g = s.get g := rfl
@[simp] theorem setLine_cluster (s : State) (ln : Nat) (l : Line) (b : Bytes) (c : Nat) : (s.setLine ln l b).cluster c = s.cluster c := rfl
@[simp] theorem setLine_tile (s : State) (ln : Nat) (l : Line) (b : Bytes) (k : Nat) : (s.setLine ln l b).tile k = s.tile k := rfl
@[simp] theorem setLine_part (s : State) (ln : Nat) (l : Line) (b : Bytes) (k : Nat) : (s.setLine ln l b).part k = s.part k := rfl
@[simp] theorem setMajor_getF (s : State) (sec v : Nat) (g : Fld) (a c : Nat) : (s.setMajor sec v).getF g a c = s.getF g a c := rfl
@[simp] theorem setMajor_get (s : State) (sec v : Nat) (g : Fld) : (s.setMajor sec v).get g = s.get g := rfl
@[simp] theorem setMajor_cluster (s : State) (sec v : Nat) (c : Nat) : (s.setMajor sec v).cluster c = s.cluster c := rfl
@[simp] theorem setMajor_tile (s : State) (sec v : Nat) (k : Nat) : (s.setMajor sec v).tile k = s.tile k := rfl
@[simp] theorem setMajor_part (s : State) (sec v : Nat) (k : Nat) : (s.setMajor sec v).part k = s.part k := rfl

/-! ## Reads after writes -/

theorem canon_regs {s : State} (h : s.canon) : smapSorted s.regs = true := h.1

theorem canon_tiles {s : State} (h : s.canon) : smapSorted s.tiles = true := ((smapWf_iff _ _).1 h.2.1).1

theorem canon_parts {s : State} (h : s.canon) : smapSorted s.parts = true := ((smapWf_iff _ _).1 h.2.2.1).1

@[simp] theorem tile_setTile_same (s : State) (t : Nat) (x : Tile) : (s.setTile t x).tile t = x :=
  smapGet_set_same _ _ _ _

theorem tile_setTile_other (s : State) (t k : Nat) (x : Tile) (h : k ≠ t) : (s.setTile t x).tile k = s.tile k :=
  smapGet_set_other _ _ _ _ _ _ h

@[simp] theorem tile_updTile_same (s : State) (t : Nat) (f : Tile → Tile) :
    (s.updTile t f).tile t = f (s.tile t) := tile_setTile_same s t _

theorem tile_updTile_other (s : State) (t k : Nat) (f : Tile → Tile) (h : k ≠ t) : (s.updTile t f).tile k = s.tile k :=
  tile_setTile_other s t k _ h

/-- Two writes of one tile are the second. -/
theorem setTile_setTile (s : State) (t : Nat) (x y : Tile) (h : s.canon) :
    (s.setTile t x).setTile t y = s.setTile t y := by
  unfold State.setTile
  simp only [smapSet_set _ _ _ _ _ (canon_tiles h)]

theorem updTile_updTile (s : State) (t : Nat) (f g : Tile → Tile) (h : s.canon) :
    (s.updTile t f).updTile t g = s.updTile t fun x => g (f x) := by
  unfold State.updTile
  rw [tile_setTile_same s t _, setTile_setTile s t _ _ h]

@[simp] theorem part_updPart_same (s : State) (p : Nat) (f : Part → Part) : (s.updPart p f).part p = f (s.part p) :=
  smapGet_set_same _ _ _ _

theorem part_updPart_other (s : State) (p k : Nat) (f : Part → Part) (h : k ≠ p) : (s.updPart p f).part k = s.part k :=
  smapGet_set_other _ _ _ _ _ _ h

@[simp] theorem getF_setF_same (s : State) (f : Fld) (i j v : Nat) :
    (s.setF f i j v).getF f i j = v % 2 ^ f.width := smapGet_set_same _ _ _ _

theorem getF_setF_other (s : State) (f g : Fld) (i j a c v : Nat) (h : g.key a c ≠ f.key i j) :
    (s.setF f i j v).getF g a c = s.getF g a c := smapGet_set_other _ _ _ _ _ _ h

@[simp] theorem get_set_same (s : State) (f : Fld) (v : Nat) : (s.set f v).get f = v % 2 ^ f.width :=
  getF_setF_same s f 0 0 v

theorem get_set_other (s : State) (f g : Fld) (v : Nat) (h : g.key 0 0 ≠ f.key 0 0) : (s.set f v).get g = s.get g :=
  getF_setF_other s f g 0 0 0 0 v h

/-- Scratchpad writes keep the canonical form. -/
theorem writeSp_wf (x : Tile) (a : Nat) (b : Bytes) (h : smapWf 0 x.scratch = true) :
    smapWf 0 (x.writeSp a b).scratch = true := smapWf_write _ _ _ _ h

end Sys2Proof.Machine
end

