-- ==== Sys2Proof/WellFormed.lean ====
section
/-!
DEFINITION. Which commands are well formed: a command that carries bytes carries as many as its access or frame has.
-/

namespace Sys2Proof

/-- Bytes of one line, from an address: at least one, and none past the line's end (12_prism_memory_protection.md R293). -/
def withinLine (addr : Word) (data : List Byte) : Bool := 0 < data.length && addr.toNat % 64 + data.length ≤ 64

/-- A command that the outside can send: a full line is 64 bytes (12_prism_memory_protection.md R292; 14_host_attach.md
R340), a partial write stays within its line (R293), a read carries no data, a Ramom group is 1,064 bytes
(10_links_and_collectives.md R237), and a replica's root is a SHA-512 (17_reflection_and_recovery.md R421). -/
def Instr.wellFormed : Instr → Bool
  | .prismLineWrite _ _ _ data _ => data.length = 64
  | .prismPartialWrite _ _ addr data _ => withinLine addr data
  | .debugAccessPortAccess true _ addr data => withinLine addr data.bytes
  | .debugAccessPortAccess false _ _ data => data.bytes.isEmpty
  | .memwr _ data _ => data.length = 64
  | .memwrptl _ _ data _ => data.length = 64
  | .groupReceive _ data _ _ => data.length = 1064
  | .paramRoot _ _ root => root.length = 64
  | _ => true

end Sys2Proof
end

