-- ==== Sys2Proof/Tests/Slice0.lean ====
section
/-!
SUPPORT. Own tests: each check of WellFormed refuses a term, words of the tile core decode as 04_tile_core.md encodes them,
single steps, and a state that meets the hypotheses of each statement (`witness_` and the statement's name).
-/

open Sys2Proof Sys2Proof.Machine

namespace Sys2Proof.Tests

set_option maxRecDepth 100000
set_option Elab.async false

/-! ## Ill-formed commands are refused -/

/-- A line of zeros cut short. -/
def short : List Byte := List.replicate 63 0

theorem test_full_line_is_64_bytes : (Instr.prismLineWrite 0 0 0 short .none).wellFormed = false := by decide
theorem test_partial_write_stays_in_its_line : (Instr.prismPartialWrite 0 0 1 (0 :: short) .none).wellFormed = false := by decide
theorem test_partial_write_has_a_byte : (Instr.prismPartialWrite 0 0 0 [] .none).wellFormed = false := by decide
theorem test_debug_write_stays_in_its_line : (Instr.debugAccessPortAccess true 0 63 ⟨[0, 0], .none⟩).wellFormed = false := by decide
theorem test_debug_read_has_no_data : (Instr.debugAccessPortAccess false 0 0 ⟨[0], .none⟩).wellFormed = false := by decide
theorem test_host_line_is_64_bytes : (Instr.memwr 0 short .none).wellFormed = false := by decide
theorem test_host_partial_line_is_64_bytes : (Instr.memwrptl 0 0 short .none).wellFormed = false := by decide
theorem test_group_is_1064_bytes : (Instr.groupReceive 0 short 0 0).wellFormed = false := by decide
theorem test_root_is_64_bytes : (Instr.paramRoot 0 0 short).wellFormed = false := by decide
theorem test_last_byte_of_a_line_is_well_formed : (Instr.prismPartialWrite 0 0 63 [0] .none).wellFormed = true := by decide

/-! ## Words of the tile core, written out from 04_tile_core.md R89 and R91 -/

/-- A word from its opcode, bits 25 to 22 (PG and PN) and the bits below. -/
def tw (op guard rest : Nat) : BitVec 32 := BitVec.ofNat 32 (op * 2 ^ 26 + guard * 2 ^ 22 + rest)

theorem test_format_r_words :
    tileDecode 1 (tw 0x01 0 (5 * 2 ^ 17 + 6 * 2 ^ 12 + 7 * 2 ^ 7 + 0x0B)) = .remu 1 ⟨0, false⟩ 5 6 7 ∧
    tileDecode 1 (tw 0x01 7 (31 * 2 ^ 17 + 6 * 2 ^ 12 + 0x11)) = .clz 1 ⟨3, true⟩ 31 6 := by decide
theorem test_format_i_words :
    tileDecode 1 (tw 0x08 0 (5 * 2 ^ 17 + 6 * 2 ^ 12 + 63)) = .srai 1 ⟨0, false⟩ 5 6 63 ∧
    tileDecode 1 (tw 0x13 2 (5 * 2 ^ 17 + 6 * 2 ^ 12 + 0xFFF)) = .ldd 1 ⟨1, false⟩ 5 6 0xFFF false ∧
    tileDecode 1 (tw 0x29 0 5) = .waitu 1 ⟨0, false⟩ 5 ∧ tileDecode 1 (tw 0x32 0 0) = .halt 1 ⟨0, false⟩ := by decide
theorem test_format_p_and_l_words :
    tileDecode 1 (tw 0x0B 0 (3 * 2 ^ 19 + 4 * 2 ^ 16 + 9 * 2 ^ 11 + 10 * 2 ^ 6)) = .cmp 1 ⟨0, false⟩ 3 4 9 10 ∧
    tileDecode 1 (tw 0x0C 0 (3 * 2 ^ 19 + 4 * 2 ^ 16 + 9 * 2 ^ 11 + 0x7FF)) = .cmpi 1 ⟨0, false⟩ 3 4 9 0x7FF ∧
    tileDecode 1 (tw 0x0D 0 (3 * 2 ^ 19 + 4 * 2 ^ 16 + 5 * 2 ^ 13 + 2 * 2 ^ 11)) = .plog 1 ⟨0, false⟩ 3 4 5 2 := by decide
theorem test_format_j_and_u_words :
    tileDecode 1 (tw 0x19 0 0x7FFF) = .call 1 ⟨0, false⟩ 0x7FFF ∧
    tileDecode 1 (tw 0x0A 0 (30 * 2 ^ 21 + 3 * 2 ^ 19 + 0xBEEF * 2 ^ 3)) = .movk 1 30 3 0xBEEF := by decide
theorem test_format_c_and_e_words :
    tileDecode 1 (tw 0x1D 0 (24 * 2 ^ 17 + 63 * 2 ^ 11 + 8 * 2 ^ 7 + 6 * 2 ^ 4 + 2 ^ 3)) =
      .recv 1 ⟨0, false⟩ 24 63 8 6 true false ∧
    tileDecode 1 (tw 0x25 0 (6 * 2 ^ 12 + 3 * 2 ^ 5)) = .testt 1 ⟨0, false⟩ 6 3 ∧
    tileDecode 1 (tw 0x27 0 (6 * 2 ^ 12 + 15 * 2 ^ 8)) = .evadd 1 ⟨0, false⟩ 6 15 := by decide
theorem test_reserved_bits_are_illegal :
    tileDecode 1 (tw 0x32 0 1) = .illegalInstruction 1 (some (tw 0x32 0 1)) ∧
    tileDecode 1 (tw 0x01 0 (2 ^ 7 + 0x10)) = .illegalInstruction 1 (some (tw 0x01 0 (2 ^ 7 + 0x10))) := by decide

/-! ## Small states

A module that is up, its hub with one job, one key and one link: each state changes what its name says. -/

/-- A module that is up, its memory clean and its counters of Prism off. -/
def upState : State :=
  let s := (((State.reset.set Reg.PRISM_CFG_CNT_EN 0).set Reg.GLOBAL_STAT_READY 1).set Reg.CLK_STAT_HCLK_LOCK 1).set Reg.CLK_STAT_REFCLK_OK 1
  { s with pilot := { s.pilot with boot := .ready }, mem := { s.mem with stale := [] } }
/-- One partition, number 3, of two clusters. -/
def oneFrame : FrameImage := { FrameImage.builtin with parts := [⟨3, 0, 1, 0, 0⟩] }
/-- A tile that executes, with some register values. -/
def tileOn : Tile :=
  { Tile.reset with coded := true, halted := false, g := ((Tile.reset.g.set 5 0x77).set 6 0x8000000000000010).set 7 3, p := Tile.reset.p.set 3 true }
/-- Tile 1 of partition 3. -/
def onState (x : Tile) : State := ({ upState with frame := oneFrame }.setCluster 0 0).setTile 1 x
/-- An endpoint. -/
def epOf (k : EpKind) (credits : Nat) (q : List Packet) : Endpoint :=
  { kind := k, peerTile := 2, peerEp := 4, stream := 9, ringBase := 0x1000, ringSize := 256, service := 0, credits := credits, queue := q, head := 64, ready := 128 }
/-- A tile with endpoints of each kind: 0 and 1 MSG, 2 HUB, 3 SIN, 4 SOUT. -/
def tileCh : Tile :=
  { tileOn with eps := [(0, epOf .msg 2 []), (1, epOf .msg 0 [⟨2, 7, [1, 2, 3]⟩, ⟨2, 8, [4]⟩]), (2, epOf .hub 1 []), (3, epOf .sin 0 []),
                        (4, epOf .sout 0 [])], g := (tileOn.g.set 8 64).set 9 192 }
/-- A unit command. -/
def uc (seq : Nat) (ph : CmdPhase) (desc : List Word) : UCmd :=
  { seq := BitVec.ofNat 32 seq, desc := desc, phase := ph, rngBase := 0, rngKey := 0, raced := [], got := [], after := none, mark := 0, out := none }
/-- A packet in flight. -/
def net1 (k : NetKind) (src dst ep : Nat) (ws : List Word) : NetMsg :=
  { kind := k, srcTile := src, srcEp := 6, dstTile := dst, dstEp := ep, words := ws, flags := 0, code := 0 }
/-- The descriptor of a mover copy. -/
def mvCopy (src dst bytes rows : Nat) : List Word :=
  [2, 0, BitVec.ofNat 64 (src + dst * 2 ^ 21), BitVec.ofNat 64 (bytes + rows * 2 ^ 24), 0, BitVec.ofNat 64 (bytes + bytes * 2 ^ 21), 0, 0]
/-- A descriptor in the scratchpad. -/
def descMem (a : Nat) (d : List Word) (x : Tile) : Tile := x.writeSp a (d.flatMap fun w => leBytes 8 w.toNat)
/-- A tile with a descriptor at 0x40. -/
def tileUn : Tile := descMem 0x40 (mvCopy 0x1000 0x2000 64 1) { tileOn with g := ((tileOn.g.set 8 64).set 9 192).set 10 65 }
/-- A vector descriptor of one word. -/
def vxNoop (op : Nat) : List Word := [BitVec.ofNat 64 op, 0, 0, 0, 0, 0, 0, 0]
/-- A job image with one stream from tile (0, 0). -/
def jobA : JobImage :=
  { JobImage.empty with partW := 8, partH := 4, routes := [{ stream := 9, srcEp := 0, srcRx := 0, srcRy := 0, branches := [⟨0, 0, 3, false, [1, 1, 1]⟩] }] }
/-- A partition that holds it. -/
def partA : Part := { Part.empty with loaded := true, image := jobA, ctx := 5 }
/-- The stream at work. -/
def withStream (src : List Flit) (slots : List (Nat × Slot)) (s : State) : State :=
  { s with parts := [(3, partA)], fab := { s.fab with streams := [(3 * 4096 + 9, { src := src, taken := 0, slots := slots, hubOut := [] })] } }
/-- Bytes in the Steward region. -/
def putMem (a : Nat) (b : Bytes) (s : State) : State := (s.hubWrite a b).1
/-- 64-bit words as bytes. -/
def words (l : List Nat) : Bytes := l.flatMap fun w => leBytes 8 w
/-- Context 5 of owner 7 is bound to partition 3 and resident in slot 0; its queue 10 runs, with a ring of 4 entries at 2^17. -/
def hub0 : State :=
  let s := { onState tileCh with parts := [(3, partA)] }
  let s := (s.set Reg.CTX_TABLE_LOCK 1).set Reg.CTX_TABLE_ADDR 1
  let s := putMem (4096 + 256 * 5) (words [1, 2 ^ 11 + 7, 0, 0, 0, 0x8000 * 128 + 1, 4, 0]) s
  let s := putMem (4096 + 256 * 6) (words [1, 2 ^ 11 + 7, 0, 0, 0, 0, 0, 0]) s
  let s := ((((s.setF Reg.Q_STAT_STATE 10 0 1).setF Reg.Q_IDX_CTX 10 0 5).setF Reg.Q_RING_ADDR 10 0 1).setF Reg.Q_RING_SIZE 10 0 4)
  (s.setF Reg.SLOT_STAT_STATE 0 0 1).setF Reg.SLOT_STAT_CTX 0 0 5
/-- A command: OP, flags in bits 8..., context, further words -/
def cmdW (w0 : Nat) (ws : List Nat) : HubCmd :=
  { HubCmd.empty with words := ((w0 :: ws) ++ List.replicate 16 0).take 16, entry := 2 ^ 17 }
/-- The commands of queue 10. -/
def withCmds (l : List HubCmd) (s : State) : State := s.setCmds 10 l
/-- A step of queue 10. -/
def stepRun (n : Nat) : StepRun := { queue := 10, n := n, gen := 0, phase := .compute, uses := [], units := [], order := 0 }
/-- Packets in flight. -/
def netS (l : List NetMsg) (s : State) : State := { s with fab := { s.fab with net := l } }
/-- What partition 3 holds. -/
def partS (x : Part) (s : State) : State := { s with parts := [(3, x)] }
/-- A fence object. -/
def fence (a v w2 : Nat) (s : State) : State := putMem a (words [3 + 2 ^ 32, v, w2, 0, 0, 0, 0, 0]) s
/-- The frame in profile K. -/
def frameK : FrameImage :=
  { oneFrame with profileK := true, carve := [⟨3, [1, 1, 0, 0, 0, 0, 0, 0], 4⟩], portModes := (List.replicate 16 0).set 2 1 }
/-- A parameter tensor. -/
def tensorA : Tensor := { tensor := 6, region := 1, format := 1, layout := 0, param := true, group := 0, digests := true, offset := 0, rows := 32, cols := 32, tie := 0xFFFF }
/-- The image with a memory plan. -/
def jobK : JobImage :=
  { jobA with plan := [⟨1, 0, 9, 0, 0, 0x10000⟩, ⟨2, 0, 9, 0, 0x10000, 0x10000⟩, ⟨0xFFF, 0, 9, 0, 0x20000, 0x1000⟩, ⟨4, 1, 9, 0, 0x30000, 0x10000⟩], tensors := [tensorA] }
/-- A partition that holds it. -/
def partK : Part := { partA with image := jobK, owner := 7 }
/-- The module in profile K: partition 3 and owner 7 hold key 9. -/
def stateK : State :=
  let s := { hub0 with frame := frameK, parts := [(3, partK)], ten := { hub0.ten with owners := [(0, { kind := 3, data := [], ingress := false }), (7, { kind := 1, data := List.replicate 32 7, ingress := true })] } }
  let s := s.updKey 9 fun _ => { state := .valid, owner := 7, gen := 1, users := 1, material := 12345 }
  let s := s.set Reg.PRISM_CFG_PROFILE 1
  let s := s.setRights 3 ⟨2 ^ 9, 2 ^ 9, false, false⟩
  s.setRights 33 ⟨2 ^ 9, 2 ^ 9, false, false⟩
/-- Port 2 in a state, with peer 17 behind it. -/
def linkS (st : Nat) (s : State) : State :=
  let s := (((s.setF Reg.PORT_STAT_MODE 2 0 1).setF Reg.PORT_STAT_STATE 2 0 st).setF Reg.PORT_STAT_PEER_VALID 2 0 1).setF Reg.PORT_STAT_PEER 2 0 17
  let s := (s.setF Reg.PEER_ENTRY_STATE 17 0 2).setF Reg.PEER_ENTRY_PORTS 17 0 4
  s.updSession 17 fun _ => { ident := List.replicate 32 5, sid := List.replicate 32 6, initiator := true, txKeys := [(0, List.replicate 32 1)], rxKeys := [(0, List.replicate 32 2)], rekey := false, rekeyNext := none, tagFails := 0 }
/-- A message received on port 2. -/
def msgS (m : LinkMsg) (s : State) : State :=
  s.updPort 2 fun x => { x with rx := setAt x.rx ((tyVc m.ty).getD 0) (x.rx.getD ((tyVc m.ty).getD 0) [] ++ msgFlits m) }
/-- A message. -/
def msgOf (ty tag a0 a1 : Nat) (b : Bytes) : LinkMsg := { ty := ty, len := b.length, tag := tag, arg0 := a0, arg1 := a1, payload := b }

/-! ## What the hypotheses say of a value that an operation answers -/

/-- The look at a START answered `go`, and a property of the state and the command. -/
def goAnd (x : State × StartLook) (f : State → HubCmd → Bool) : Bool :=
  match x with
  | (v, .go c) => f v c
  | _ => false

/-- An operation succeeded, and a property of what it answered. -/
def okAnd {α : Type} (x : State × Except Nat α) (f : State → α → Bool) : Bool :=
  match x with
  | (v, .ok a) => f v a
  | _ => false

/-- The code of an operation that failed. -/
def errOf {α : Type} (x : State × Except Nat α) : Nat :=
  match x with
  | (_, .error e) => e
  | _ => 0

/-- The state that a command answers. -/
def after (r : Res) : State :=
  match r with
  | .next u => u
  | _ => State.reset

/-! ## Witnesses: the tile core -/

/-- The guard that always passes. -/
def gdT : Guard := ⟨0, false⟩
def sOn : State := onState tileOn
def sCh : State := onState tileCh

theorem witness_CommandAtFrontRuns :
    ({ upState with pending := [.nop 1 gdT] } : State).pending = .nop 1 gdT :: [] ∧ upState.pending = [] := by decide +kernel

theorem witness_AluRegisterResults :
    sOn.canon ∧ sOn.issues 1 gdT ∧ sOn.plain 1 ∧
    (∀ p ∈ [(0, tileOn.getG 6), (62, tileOn.getG 7), (64, tileOn.getG 0)], p.1 ≤ 64 ∧ p.2.toNat < 2 ^ (64 - p.1) ∧
      (p.1 = 64 ∨ 2 ^ (63 - p.1) ≤ p.2.toNat)) := by
  simp only [State.issues, State.plain, State.canon]; decide +kernel

/-- A tile whose jumps lie at the end of instruction memory. -/
def tileJ : Tile := { tileOn with g := (tileOn.g.set 8 32767).set 9 32768 }
theorem witness_PredicateAndCounterResults :
    (onState tileJ).canon ∧ (onState tileJ).issues 1 gdT ∧ (tileJ.getG 8 + (0 : BitVec 12).signExtend 64).toNat ≤ 32767 ∧
    32767 < (tileJ.getG 9 + (0 : BitVec 12).signExtend 64).toNat := by
  simp only [State.issues, State.plain, State.canon]; decide +kernel

theorem witness_GuardDecidesExecution :
    guardOf (.recv 1 ⟨3, true⟩ 24 3 8 0 true false) = some (1, ⟨3, true⟩) ∧ sOn.canon ∧ sOn.plain 1 ∧
    (sOn.tile 1).guard ⟨3, true⟩ = false ∧ badRange 24 8 = false := by
  simp only [State.plain, State.canon]; decide +kernel

theorem witness_IllegalWordsRaise :
    sOn.runs 1 = true ∧ tileDecode 1 0 = .illegalInstruction 1 (some 0) ∧
    (let w := tw 0x01 0 0x12; w.toNat / 2 ^ 26 = 1 ∧ 0x11 < w.toNat % 128) ∧
    (let w := tw 0x1C 0 (9 * 2 ^ 7); w.toNat / 2 ^ 26 = 0x1C ∧ 8 < w.toNat / 2 ^ 7 % 16) ∧
    (let w := tw 0x1D 0 (25 * 2 ^ 17 + 8 * 2 ^ 7); w.toNat / 2 ^ 26 = 0x1D ∧ 32 < w.toNat / 2 ^ 17 % 32 + w.toNat / 2 ^ 7 % 16) ∧
    (let w := tw 0x30 0 1; w.toNat / 2 ^ 26 = 0x30 ∧ w.toNat % 2 ^ 22 ≠ 0) := by decide +kernel

theorem witness_TileWordRoundTrip :
    (tileEncode (.recv 1 ⟨7, true⟩ 24 63 8 7 true false)).isSome ∧ (tileEncode (.std 1 gdT 31 31 0xFFF false)).isSome := by decide

/-- A tile with a register at the last doubleword, one at the end, and one at 0x1000. -/
def tileSp : Tile := { tileOn with g := ((tileOn.g.set 4 0x1000).set 8 0x1FFFF8).set 9 0x200000 }
theorem witness_ScratchpadAccess :
    (onState tileSp).canon ∧ (onState tileSp).issues 1 gdT ∧
    (let a := ((tileSp.getG 8).toNat + ((0 : BitVec 12).signExtend 64 : Word).toNat * 8) % 2 ^ 64
     a < 0x200000 ∧ a % 8 = 0 ∧ tileSp.wordInFlight (a / 8) = false) ∧
    (let x := { tileSp with g := tileSp.g.set 8 0x2000, movQ := [uc 1 .running (mvCopy 0x1000 0x2000 64 1)] }
     (onState x).canon ∧ (onState x).issues 1 gdT ∧ (x.getG 8).toNat = 0x2000 ∧ x.wordInFlight (0x2000 / 8) = true) ∧
    ¬ ((tileSp.getG 9).toNat + ((0 : BitVec 12).signExtend 64 : Word).toNat * 8) % 2 ^ 64 < 0x200000 := by
  simp only [State.issues, State.plain, State.canon]; decide +kernel

theorem witness_TileInstructionFrame :
    sOn.canon ∧ sOn.plain 1 ∧ exec (.add 1 gdT 5 5 5) sOn = .next (after (exec (.add 1 gdT 5 5 5) sOn)) ∧
    exec (.cmp 1 gdT 3 4 5 5) sOn = .next (after (exec (.cmp 1 gdT 3 4 5 5) sOn)) ∧
    exec (.evadd 1 gdT 5 5) sOn = .next (after (exec (.evadd 1 gdT 5 5) sOn)) ∧
    exec (.nop 1 gdT) sOn = .next (after (exec (.nop 1 gdT) sOn)) := by
  refine ⟨?_, ?_, rfl, rfl, rfl, rfl⟩ <;> simp only [State.plain, State.canon] <;> decide +kernel

theorem witness_ChannelSendAndReceive :
    sCh.canon ∧ sCh.issues 1 gdT ∧ badRange 25 7 = false ∧
    ((tileCh.ep 0).kind = .msg ∧ 0 < (tileCh.ep 0).credits ∧ (tileCh.ep 0).queue = []) ∧
    ((tileCh.ep 1).kind = .msg ∧ (tileCh.ep 1).credits = 0 ∧ (tileCh.ep 1).queue ≠ []) ∧
    ((tileCh.ep 2).kind = .hub ∧ (tileCh.ep 2).service = 0 ∧ 0 < (tileCh.ep 2).credits ∧ tileCh.unitsIdle 7 = true) ∧
    ((tileCh.ep 3).kind = .sin ∧ (tileCh.getG 8).toNat % 64 = 0 ∧ (tileCh.getG 8).toNat ≤ (tileCh.ep 3).ready ∧
      0 < (tileCh.ep 3).ringSize ∧ (tileCh.ep 3).ready < (tileCh.getG 9).toNat) ∧
    ((tileCh.ep 4).kind ≠ .msg ∧ (tileCh.ep 4).kind ≠ .hub ∧ (tileCh.ep 4).kind ≠ .sin) := by
  simp only [State.issues, State.plain, State.canon]; decide +kernel

/-- A tile in a wait of 3 units. -/
def tileW (w : Wait) : Tile := { tileCh with wait := some w, waitLimit := 3, cubeDone := 4 }
/-- A tile with tickets in registers 8 (of the cube) and 5 (of no unit). -/
def tileT : Tile := { tileCh with cubeDone := 4, g := (tileOn.g.set 8 4).set 5 0x300000000 }
theorem witness_TicketsEventsAndWaits :
    (onState tileT).canon ∧ (onState tileT).issues 1 gdT ∧ 2 ^ 32 * 3 ≤ (tileT.getG 5).toNat ∧
    ((tileT.getG 8).toNat / 2 ^ 32, tileT.cubeDone) ∈ [(0, tileT.cubeDone), (1, tileT.vecDone), (2, tileT.movDone)] ∧
    (let x := tileW (.ticket 4)
     (onState x).canon ∧ (onState x).active 1 = true ∧ x.halted = false ∧ x.waitOver = true ∧ x.stepping = false ∧ x.pc < 32767) ∧
    (let x := tileW (.event 3 1)
     (onState x).canon ∧ x.halted = false ∧ x.waitLimit ≠ 0 ∧ x.waitOver = false) := by
  simp only [State.issues, State.plain, State.canon]; decide +kernel

/-- A tile with 16 commands of the mover, its queue full. -/
def tileFull : Tile := { tileUn with movQ := (List.range 16).map fun i => uc i .queued (mvCopy 0x1000 0x2000 64 1) }
theorem witness_UnitCommandIssue :
    (onState tileUn).canon ∧ (onState tileUn).issues 1 gdT ∧ (tileUn.getG 8).toNat = 64 ∧ (tileUn.getG 10).toNat % 64 ≠ 0 ∧
    (∀ k < 8, tileUn.wordInFlight (64 / 8 + k) = false) ∧ descCheck tileUn .mover (tileUn.readDesc 64) = none ∧
    (tileUn.queue .mover).length < 16 ∧ (tileFull.queue .mover).length = 16 ∧ (onState tileFull).issues 1 gdT ∧
    descCheck tileFull .mover (tileFull.readDesc 64) = none ∧ descCheck tileUn .cube (tileUn.readDesc 64) ≠ none := by
  simp only [State.issues, State.plain, State.canon]; decide +kernel

theorem witness_CsrReadsAndWrites : sCh.canon ∧ sCh.issues 1 gdT := by
  simp only [State.issues, State.plain, State.canon]; decide +kernel

/-- A tile at the last instruction, and one with a command in its queue. -/
def tileLast : Tile := { tileCh with pc := 32767 }
def tileQ : Tile := { tileCh with cubeQ := [uc 5 .queued []] }
theorem witness_TileExceptionEntry :
    sCh.canon ∧ sCh.issues 1 gdT ∧ tileCh.anyRunning = false ∧ tileCh.wait = none ∧
    ((onState tileLast).runs 1 = true ∧ tileLast.guard gdT = true ∧ tileLast.pc = 32767) ∧
    (let s : State := { sCh with frame := FrameImage.builtin }; s.issues 1 gdT ∧ s.partOf 1 = none) ∧
    ((onState tileQ).canon ∧ (onState tileQ).issues 1 gdT ∧ tileQ.cubeQ ≠ []) := by
  simp only [State.issues, State.plain, State.canon]; decide +kernel

/-- A state with a debug token of the rights `r`. -/
def dbg (x : Tile) (r : Nat) : State :=
  let s := onState x
  { s with pilot := { s.pilot with token := some ⟨r, 0, [], 100⟩ } }
/-- A tile that debug access halted. -/
def tileDbg : Tile := { tileOn with halted := true, cause := 3, imem := [(0, 0xC0000000)], memAddr := 0x1FFFFD }
theorem witness_TileStopAndDebugControl :
    ((dbg tileOn 4).canon ∧ (dbg tileOn 4).hubUp = true ∧ (dbg tileOn 4).cluster (tileCluster 1) = 0 ∧ (dbg tileOn 4).pilot.debugTile = true ∧ tileOn.coded = true ∧
      tileOn.halted = false) ∧
    (let s := dbg tileDbg 4
     s.canon ∧ s.pilot.debugTile = true ∧ (s.tile 1).halted = true ∧ (s.tile 1).cause = 3 ∧ (s.wakeTile 1).active 1 = true ∧
      (s.tile 1).wait = none ∧ smapGet 0 (s.tile 1).imem (s.tile 1).pc = 0xC0000000 ∧ s.windowOpen 1 = true ∧
      (s.tile 1).memSpace = 0 ∧ (s.tile 1).wordInFlight ((s.tile 1).memAddr.toNat / 8) = false) ∧
    (let x := { tileDbg with memAddr := 0x2000, movQ := [uc 1 .running (mvCopy 0x1000 0x2000 64 1)] }
     (dbg x 4).canon ∧ (dbg x 4).windowOpen 1 = true ∧ x.memSpace = 0 ∧ x.wordInFlight (0x2000 / 8) = true) ∧
    (((dbg tileDbg 4).setCluster 0 1).cluster (tileCluster 1) = 1 ∧ (((dbg tileDbg 4).setCluster 0 1).wakeTile 1).active 1 = true) ∧
    (let s := partS { Part.empty with loaded := true, image := { JobImage.empty with plan := [⟨0, 0, 5, 0, 0, 0⟩] } } (dbg tileDbg 4)
     s.pilot.debugTile = true ∧ s.windowOpen 1 = false) ∧
    (let s := netS [net1 .stop 0 1 0 []] sOn
     s.fab.net = [net1 .stop 0 1 0 []] ∧ s.pathDown (net1 .stop 0 1 0 []).edges = false ∧ tileOn.coded = true ∧ tileOn.halted = false ∧ tileOn.anyRunning = false) := by
  simp only [State.canon]; decide +kernel

/-! ## Witnesses: units, streams, packets and edges -/

/-- Tiles with commands waiting and running. -/
def tileStart : Tile := { tileOn with vecQ := [uc 1 .queued (vxNoop 1)], movQ := [uc 1 .queued (mvCopy 0x1000 0x2000 64 1)] }
def tileAcc : Tile :=
  { tileOn with cubeQ := [uc 5 .running [0, 0, 0, 0, 3 + 2 * 64, 0, 0, 0], uc 6 .queued [0, 0, 0, 0, 4 + 64, 0, 0, 0]] }
def tileFour : Tile := { tileOn with movQ := (List.range 4).map fun i => uc i .running (mvCopy 0x1000 0x2000 64 1) }
theorem witness_UnitCommandsStart :
    ((onState tileStart).canon ∧ tileStart.queue .vector = [uc 1 .queued (vxNoop 1)] ∧ (onState tileStart).active 1 = true ∧
      tileStart.cubeQ = []) ∧
    (let d : List Word := [0, 0, 0, 0, 3 + 2 * 64, 0, 0, 0]
     let e : List Word := [0, 0, 0, 0, 4 + 64, 0, 0, 0]
     tileAcc.cubeQ = [uc 5 .running d, uc 6 .queued e] ∧
       disjoint (accRange d).1 (accRange d).2 (accRange e).1 (accRange e).2 = false) ∧
    4 ≤ (tileFour.movQ.filter fun e => e.phase.live).length := by
  simp only [State.canon]; decide +kernel

/-- Tiles whose only command may end. -/
def cubeNop : UCmd := uc 5 .running (List.replicate 8 0)
def vecNop : UCmd := uc 5 .running (vxNoop 1)
def movOne : UCmd := uc 5 .running (mvCopy 0x1000 0x2000 64 1)
def movNop : UCmd := uc 5 .running (mvCopy 0x1000 0x2000 0 1)
/-- A product of one E4M3 element of A, at 0x1000, and one of B, with the epilogue into endpoint 4 or without it. -/
def cubeOne (epi : Bool) : UCmd :=
  uc 5 .running [BitVec.ofNat 64 (4 * 2 ^ 3 + 4 * 2 ^ 11 + 2 ^ 28 + if epi then 2 ^ 26 else 0), BitVec.ofNat 64 (1 + 2 ^ 17 + 2 ^ 30),
    BitVec.ofNat 64 (0x1000 + 1024 * 2 ^ 21), BitVec.ofNat 64 (0x2000 + 1024 * 2 ^ 21), BitVec.ofNat 64 (2 ^ 6),
    BitVec.ofNat 64 (2 * 2 ^ 2 + 2 ^ 14), 0, 4]
/-- COPY of one FP32 element at 0x1000 to the scratchpad, or into endpoint 4, with TRAP_NAN. -/
def vecOne (out : Bool) : UCmd :=
  uc 5 .running [BitVec.ofNat 64 (0x10 + 2 ^ 8 + 2 ^ 29), BitVec.ofNat 64 (1 + 4 + 0x1000 * 2 ^ 10), 0, 0,
    BitVec.ofNat 64 (if out then 2 + 4 + 4 * 2 ^ 10 else 1 + 4 + 0x3000 * 2 ^ 10), 0, 0, 0]
/-- A tile with endpoint 4 a SOUT of stream 9, a NaN or a 1 at 0x1000. -/
def tileV (b : Bytes) : Tile := tileCh.writeSp 0x1000 b
/-- A command whose output waits for `n` flits to be accepted. -/
def sentCmd (n : Nat) (c : UCmd) : UCmd := { c with phase := .sending, out := some ⟨n, true, false⟩ }
theorem witness_UnitCommandsComplete :
    (({ tileOn with cubeQ := [cubeNop] } : Tile).inputsReady .cube cubeNop = true ∧ isNoop .cube cubeNop.desc = true ∧
      db cubeNop.desc 0 27 = false ∧ db cubeNop.desc 0 28 = false) ∧
    (({ tileOn with vecQ := [vecNop] } : Tile).inputsReady .vector vecNop = true ∧ db vecNop.desc 0 28 = false ∧
      db vecNop.desc 0 29 = false) ∧
    (isNoop .mover movNop.desc = true ∧ sOn.partOf 1 ≠ none) ∧
    (dw movOne.desc 0 2 0 = 2 ∧ dw movOne.desc 3 39 24 = 1 ∧ movOne.raced = [] ∧ copyLaps movOne.desc = false ∧ movOne.phase = .running) ∧
    (soutOf .cube cubeNop.desc = none ∧ soutOf .vector vecNop.desc = none ∧ soutOf .cube (cubeOne false).desc = none ∧
      soutOf .vector (vecOne false).desc = none) := by decide +kernel

/-- A NaN among the elements of A, and among those of X. -/
theorem witness_UnitCommandsComplete_traps :
    (let x := { tileV [0x7F] with cubeQ := [cubeOne false] }
     x.inputsReady .cube (cubeOne false) = true ∧ (cubeFinish x (cubeOne false)).2.2.2 = true ∧ db (cubeOne false).desc 0 28 = true) ∧
    (let x := { tileV [0, 0, 0xC0, 0x7F] with vecQ := [vecOne false] }
     x.inputsReady .vector (vecOne false) = true ∧ (vecFinish x (vecOne false)).2.2.2 = true ∧ db (vecOne false).desc 0 29 = true) := by
  decide +kernel

/-- What a SOUT endpoint gets, and what the command waits for. -/
theorem witness_UnitCommandsComplete_streams :
    (let x := { tileV [0x38] with cubeQ := [cubeOne true] }
     x.inputsReady .cube (cubeOne true) = true ∧ soutOf .cube (cubeOne true).desc = some 4 ∧ (onState x).partOf 1 = some 3 ∧
       (cubeFinish x (cubeOne true)).2.1 ≠ []) ∧
    (let x := { tileV [0, 0, 0x80, 0x3F] with vecQ := [vecOne true] }
     x.inputsReady .vector (vecOne true) = true ∧ soutOf .vector (vecOne true).desc = some 4 ∧ (vecFinish x (vecOne true)).2.1 ≠ []) ∧
    (trapCode .cube (cubeOne true).desc true false = none ∧ trapCode .vector (vecOne true).desc true false = none ∧
      (sentCmd 0 (vecOne true)).phase = .sending ∧ (sOn.stream 3 9).taken = 0) := by decide +kernel

theorem witness_NumberConversions :
    (0x7F7F < 2 ^ fBF16.bits ∧ (fBF16.decode 0x7F7F).2 = (false, false) ∧ (fBF16.decode 0x7F7F).1.isZero = false) ∧
    fFP16.inf = true ∧ fFP32.nanCode = some 0x7FC00000 := by decide +kernel

/-- A stream with one flit to send, its first slot empty or full. -/
def sFlit (l : List (Nat × Slot)) : State := withStream [⟨[1], false⟩] l (onState tileOn)
def routeA : Route := { stream := 9, srcEp := 0, srcRx := 0, srcRy := 0, branches := [⟨0, 0, 3, false, [1, 1, 1]⟩] }
/-- A route from the hub, in at a crossing of die 0. -/
def routeH : Route := { stream := 9, srcEp := 63, srcRx := 0, srcRy := 3, branches := [⟨0, 0, 3, false, [1, 1, 1]⟩] }
theorem witness_StreamFlitsAndCredits :
    (let s := sFlit []
     s.rect 3 = some ⟨3, 0, 1, 0, 0⟩ ∧ (s.part 3).image.routes.find? (fun r => r.stream = 9) = some routeA ∧
       (s.part 3).loaded = true ∧ routeA.dests 0 0 = [.slot 1] ∧ (s.stream 3 9).src = [⟨[1], false⟩] ∧
       s.hasCredit 3 routeA 0 0 (.slot 1) = true ∧
       (s.part 3).image.hubSourced 0 0 routeA = false ∧ ∀ e ∈ routeA.hopEdges 0 0 0 0 [.slot 1], s.edgeDown (e / 2) = false) ∧
    (sFlit [(1, ⟨List.replicate 5 ⟨[2], false⟩, 3, false⟩)]).hasCredit 3 routeA 0 0 (.slot 1) = false ∧
    (let s := sFlit [(1, ⟨[⟨[2], false⟩], 3, false⟩)]
     routeA.dests 0 1 = [.slot 2] ∧ (smapGet Slot.empty (s.stream 3 9).slots 1).flits = [⟨[2], false⟩] ∧
       s.hasCredit 3 routeA 0 0 (.slot 2) = true) ∧
    (let s : State := { sFlit [] with frame := { oneFrame with parts := [⟨3, 1, 1, 3, 3⟩] },
                                      parts := [(3, { partA with image := { jobA with routes := [routeH] } })] }
     (s.part 3).image.hubSourced 4 12 routeH = true ∧ s.edgeDown (routeH.hubEdge 4 12 / 2) = false ∧
       s.hasCredit 3 routeH 4 12 (.slot 0) = true ∧ (s.stream 3 9).src = [⟨[1], false⟩] ∧
       (smapGet Slot.empty (s.stream 3 9).slots 128).stuck = false) := by decide +kernel

/-- Packets of each kind, the second behind one of its own channel. -/
def sNet : State :=
  netS [net1 .data 2 1 0 [1, 2], net1 .data 2 1 0 [3], net1 .reply 2 1 2 [9], net1 .credit 3 1 1 []] sCh
theorem witness_PacketsArrive :
    (sNet.fab.net[0]? = some (net1 .data 2 1 0 [1, 2]) ∧ (net1 .data 2 1 0 [1, 2]).kind = .data) ∧
    (sNet.fab.net.take 1).any (net1 .data 2 1 0 [3]).sameChannel = true ∧
    ((sNet.fab.net.take 2).any (net1 .reply 2 1 2 [9]).sameChannel = false ∧
      ∀ e ∈ (net1 .reply 2 1 2 [9]).edges, sNet.edgeDown (e / 2) = false) ∧
    ((sNet.fab.net.take 3).any (net1 .credit 3 1 1 []).sameChannel = false ∧
      ∀ e ∈ (net1 .credit 3 1 1 []).edges, sNet.edgeDown (e / 2) = false) := by decide +kernel

theorem witness_EdgesAndBridges :
    (let s : State := { upState with fab := { Fabric.reset with replays := [(3, 8)], seqs := [(15, 2 ^ 63)] } }
     s.edgeDown 1 = false ∧ 8 ≤ smapGet 0 s.fab.replays 3 ∧ (∀ p < 32, (s.part p).loaded = false) ∧
       2 ^ 63 ≤ smapGet 0 s.fab.seqs 15) := by decide +kernel

/-! ## Witnesses: the hub -/

/-- A step of queue 10 with one more coded tile to report. -/
def sStep (net : List NetMsg) : State :=
  (netS net (partS { partA with image := { jobA with tiles := [⟨1, 0, 0, 0⟩, ⟨2, 0, 0, 0⟩] }, step := some (stepRun 5) } hub0)).updTile 2
    fun x => { x with coded := true }
/-- A context whose trace ring takes 2^4 entries. -/
def sTrace : State := netS [net1 (.request 1) 1 0 6 [7, 8, 9]] hub0
theorem witness_HubServicesOfATile :
    (hub0.partOf 1 = some 3 ∧ (netS [net1 (.request 2) 1 0 6 []] hub0).fab.net.find? (fun m => (decide (m.kind = .request 2) &&
      decide (m.srcTile = 1)) && !hub0.pathDown m.edges) = some (net1 (.request 2) 1 0 6 [])) ∧
    (let s := sStep [net1 (.request 0) 1 0 6 [5]]
     s.fab.net.find? (fun m => (decide (m.kind = .request 0) && decide (m.srcTile = 1)) && !s.pathDown m.edges) = some (net1 (.request 0) 1 0 6 [5]) ∧
       (s.part 3).step = some (stepRun 5) ∧ (s.part 3).failed = false ∧ (s.tile 1).tileStep ≠ some 5 ∧ 2 ∈ s.codedTiles 3 ∧
       (s.tile 2).normalEnd = false ∧ (s.tile 2).tileStep ≠ some 5) ∧
    (4 : Word).toNat ≠ (stepRun 5).n ∧
    (match sTrace.takeRequest 1 1 with
      | some (m, v) =>
        let a := v.ctxWord 5 5
        let b := a.1.ctxWord 5 6
        let c := b.1.ctxWord 5 7
        (v.part 3).loaded && a.2 % 2 = 1 && b.2 % 2 ^ 17 = 2 ^ 2 && (c.1.part 3).traceHead = 0 &&
          1 % 2 ^ 2 ≠ c.2 % 2 ^ 16 % 2 ^ 2 && m.words.length = 3 &&
          (c.1.hubWrite (a.2 / 2 ^ 7 % 2 ^ 56 * 2 ^ 7) (zeros 128)).2 = none
      | none => false) = true := by decide +kernel

theorem witness_ErrorReportsStopTheContext :
    (let s := netS [net1 .report 1 0 0 []] hub0
     s.partOf 1 = some 3 ∧ s.fab.net.find? (fun m => (decide (m.kind = .report) && decide (m.srcTile = 1)) && !s.pathDown m.edges) =
       some (net1 .report 1 0 0 []) ∧ (s.part 3).loaded = true ∧ (s.part 3).failed = false) ∧
    ((partS Part.empty hub0).part 3).loaded = false := by decide +kernel

/-- STEP at the front of queue 10, its tiles' clusters ACTIVE. -/
def sStepCmd : State :=
  withCmds [cmdW (0x02 + 5 * 2 ^ 16) []]
    ((partS { partA with image := { jobA with tiles := [⟨1, 0, 0, 0⟩, ⟨2, 0, 0, 0⟩] }, stepNo := 4, gen := 3 } (hub0.setCluster 1 0)).updTile
      2 fun x => { x with coded := true })
def sPass (l : List (Nat × Bool)) : State :=
  withCmds [cmdW (0x02 + 5 * 2 ^ 16) []] (partS { partA with step := some { stepRun 5 with phase := .pass, units := l } } hub0)
theorem witness_StepStartsAndPasses :
    (goAnd (sStepCmd.lookStart 10 0x02) fun v c => decide (v.boundPart (v.qCtx 10) = some 3) && (v.part 3).step.isNone &&
      !(v.part 3).staging && !v.snapReads 3 && !v.movesRun 3 && !v.movesWait 3 c.arrived &&
      ((v.partClusters 3).all fun cl => v.cluster cl = 0) && (v.codedTiles 3).contains 2 && !(v.tile 2).normalEnd &&
      (v.tile 2).tileStep ≠ some 5) = true ∧
    (let s := sPass [(2, false), (3, true)]
     ((s.part 3).step.any fun r => r.units.contains (2, false)) = true ∧ (s.part 3).reading = false ∧
       (∀ k < 32, k ≠ 3 → (s.part k).passUnits.contains (2, false) = false) ∧
       ((List.range 32).filter fun k => (s.part k).passUnits.contains (2, true)).length < 4) ∧
    ((sPass [(2, true), (3, true)]).part 3).step.any (fun r => r.phase = .pass && r.units.all fun y => y.2) = true := by
  decide +kernel

/-- A NOP that waits for value 7 of the fence at 0x40000. -/
def sWait (s : State) : State := withCmds [cmdW (0x01 + 0x100 + 5 * 2 ^ 16) [0x40000, 7]] s
/-- A NOP that waits for nothing. -/
def sNop (s : State) : State := withCmds [cmdW (0x01 + 5 * 2 ^ 16) []] s
theorem witness_StartConditions :
    (let s := sNop hub0
     s.qState 10 = 1 ∧ s.slotOf (s.qCtx 10) = some 0 ∧ s.getF Reg.SLOT_STAT_STATE 0 0 ≠ 3 ∧
       (s.qHead 10).any (fun c => c.op = 1 && c.stage = .waiting && c.code = 0 && !c.waitEn) = true ∧
       goAnd (s.lookStart 10 0x01) (fun v _ => !(v.qCmds 10).isEmpty) = true) ∧
    (hub0.setF Reg.Q_STAT_STATE 10 0 3).qState 10 ≠ 1 ∧
    (let s := sWait (fence 0x40000 6 0 hub0)
     (s.qHead 10).any (fun c => c.waitEn && okAnd (s.readFence 5 10 c.seq (c.w 1)) fun _ f => !f.erred && f.value < c.w 2) = true) ∧
    (let s := sWait (fence 0x40000 7 0 hub0)
     (s.qHead 10).any (fun c => okAnd (s.readFence 5 10 c.seq (c.w 1)) fun v f => !f.erred && c.w 2 ≤ f.value &&
       v.slotOf 5 = some 0) = true) ∧
    (let s := sWait (fence 0x40000 7 0x10123 hub0)
     (s.qHead 10).any (fun c => okAnd (s.readFence 5 10 c.seq (c.w 1)) fun _ f => f.erred) = true) ∧
    (let s := withCmds [cmdW (0x01 + 0x100 + 5 * 2 ^ 16) [0x8000000000000040, 7]] hub0
     (s.qHead 10).any (fun c => errOf (s.readFence 5 10 c.seq (c.w 1)) ≠ 0) = true) := by decide +kernel

theorem witness_CommandsAreFetchedAndComplete :
    (let s := (putMem (2 ^ 17) (words [0x01 + 5 * 2 ^ 16]) hub0).setF Reg.Q_IDX_TAIL 10 0 1
     s.qState 10 = 1 ∧ (s.qCmds 10).length < 8 ∧ s.getF Reg.Q_IDX_HEAD 10 0 ≠ s.getF Reg.Q_IDX_TAIL 10 0 ∧
       okAnd (s.readEntry 10) (fun v c => (v.checkCmd (v.qCtx 10) c).2 = 0) = true) ∧
    (let s := (hub0.setF Reg.Q_IDX_TAIL 10 0 1).updLine (2 ^ 17 / 64) fun l => { l with poison := 0x0201 }
     s.qState 10 = 1 ∧ errOf (s.readEntry 10) ≠ 0) ∧
    (let s := withCmds [{ cmdW (0x01 + 5 * 2 ^ 16) [] with stage := .ended, code := 5 }] hub0
     (s.qHead 10).any (fun c => c.stage = .ended) = true ∧ ∀ p < 32, (s.part p).step = none) ∧
    (let s : State := sNop (hub0.setF Reg.SLOT_STAT_STATE 0 0 0)
     let s : State := { s with hub := { s.hub with slotWait := [5] } }
     s.ctxWaits 5 = true ∧ s.freeSlot = some 0) ∧
    (hub0.setF Reg.SLOT_STAT_STATE 0 0 3).getF Reg.SLOT_STAT_STATE 0 0 = 3 := by decide +kernel

theorem witness_QueueControls :
    (hub0.hubUp = true ∧ hub0.qState 10 = 1 ∧ hub0.getF Reg.Q_RING_SIZE 10 0 = 4) ∧
    (∀ k ∈ [2, 3, 4], (hub0.setF Reg.Q_STAT_STATE 10 0 k).hubUp = true ∧ (hub0.setF Reg.Q_STAT_STATE 10 0 k).qState 10 = k) ∧
    (let s := (hub0.setF Reg.Q_STAT_STATE 10 0 3).setF Reg.Q_RING_SIZE 10 0 0
     s.qState 10 = 3 ∧ s.qCmds 10 = [] ∧ s.getF Reg.Q_RING_SIZE 10 0 = 0) := by decide +kernel

/-- The arguments of an object operation. -/
def objS (a b : Nat) (s : State) : State := (s.set Reg.OBJ_ARG0_VALUE a).set Reg.OBJ_ARG1_VALUE b
theorem witness_QueueCreationAndFences :
    (let s := objS (2 ^ 2 + 3 * 2 ^ 17) 6 (putMem (4096 + 256 * 6) (words [1, 2 ^ 11 + 7]) hub0)
     s.hubUp = true ∧ (s.ctxOwner 6).2 = some 7 ∧ (let v := (s.ctxOwner 6).1
       v.get Reg.CTX_TABLE_LOCK = 1 ∧ v.inSteward (3 * 2 ^ 17) (128 * 2 ^ 2) = true ∧ v.boundPart 6 = none ∧ v.freeQueues ≠ 0 ∧
         v.qState 0 = 0)) ∧
    (let s := objS 10 0 hub0
     s.hubUp = true ∧ s.qState (s.get Reg.OBJ_ARG0_VALUE % 4096) = 1) ∧
    (let s := objS 10 0 (hub0.setF Reg.Q_STAT_STATE 10 0 3)
     s.qState 10 = 3 ∧ s.qCmds 10 = [] ∧ s.getF Reg.Q_IDX_HEAD 10 0 = s.getF Reg.Q_IDX_TAIL 10 0) ∧
    (let s := objS 0x40000 6 (fence 0x40000 6 0 hub0)
     (s.recordOk 3 64 0x40000).2 = true ∧ 0x40000 % 64 = 0 ∧ 0 < s.get Reg.OBJ_ARG1_VALUE % 2 ^ 16) := by decide +kernel

/-! ## Witnesses: copies, snapshots, migration and the Beacon -/

/-- A COPY of `n` bytes from a readable object to a writable one. -/
def sCopy (n : Nat) : State :=
  withCmds [cmdW (0x03 + 5 * 2 ^ 16) ([0, 0, 0, 0, 0, 0, 0] ++ [0x41000, 64, 0x41040, 128, n])]
    (putMem 0x41000 (words [2, 9 * 2 ^ 52, 4096, 5 + 2 ^ 14, 0, 0, 0, 0, 2, 9 * 2 ^ 52 + 0x10000, 4096, 5 + 2 ^ 15, 0, 0, 0, 0]) stateK)
/-- The hypotheses that the clauses of COPY share, and one that tells them apart. -/
def copyHyp (n : Nat) (f : MemObj → MemObj → HubCmd → Bool) : Bool :=
  goAnd ((sCopy n).lookStart 10 0x03) fun v c =>
    v.boundPart (v.qCtx 10) = some 3 && okAnd (v.memObj (c.o 0)) fun a x => okAnd (a.memObj (c.o 2)) fun _ y =>
      match x, y with
      | some x, some y => c.o 4 = n && n < 2 ^ 48 && n % 64 = 0 && c.o 1 % 64 = 0 && c.o 3 % 64 = 0 && x.ctx = c.ctx &&
          y.ctx = c.ctx && f x y c
      | _, _ => false
/-- SWITCH to a set of one redirect, at once or at the next boundary. -/
def sSwitch (now : Nat) : State :=
  withCmds [cmdW (0x10 + 5 * 2 ^ 16) ([0, 0, 0, 0, 0, 0, 0] ++ [0x41000 + now])]
    (putMem 0x41000 (words [0, 1, 0, 0, 0, 0, 0, 0, 1 + 2 * 2 ^ 12, 0x10000]) stateK)
theorem witness_CopyAndSwitch :
    copyHyp 3968 (fun x y c => x.read && y.write && c.o 1 + 3968 ≤ x.size && c.o 3 + 3968 = y.size) = true ∧
    copyHyp 4032 (fun _ y c => y.size < c.o 3 + 4032) = true ∧
    okAnd (stateK.readMem 3 0 (stateK.part 3).uses (9 * 2 ^ 52) 64) (fun v d =>
      (v.writeMem 3 0 (stateK.part 3).uses (9 * 2 ^ 52 + 64) d).2 = none) = true ∧
    (goAnd ((sSwitch 1).lookStart 10 0x10) (fun v c =>
      let x := v.part 3
      v.boundPart (v.qCtx 10) = some 3 && (x.image.region 0xFFF).isSome && c.o 0 < 2 ^ 63 && c.o 0 % 64 < 2 &&
        v.inSteward 0x41000 2048 && x.step.isNone && !x.switchPend && okAnd (v.hubRead 0x41000 2048) fun a b =>
          x.image.setOk b && !a.slotHeld 3 1 && ((a.beginCmd 10).writeSet 3 1 (setEntries b)).2 = 0) = true) := by decide +kernel

/-- A SNAPSHOT, as it starts and as it reads. -/
def snapCmd : HubCmd := cmdW (0x11 + 5 * 2 ^ 16) ([0, 0, 0, 0, 0, 0, 0] ++ [4 + 2 * 2 ^ 16])
def sSnap (c : HubCmd) : State := withCmds [c] stateK
theorem witness_SnapshotAndTransfers :
    goAnd ((sSnap snapCmd).lookStart 10 0x11) (fun v c =>
      v.boundPart (v.qCtx 10) = some 3 && snapForm c && okAnd (v.snapTensors 3 (snapOp c)) fun a ts =>
        a.snapOk 3 (snapOp c) ts && (a.part 3).step.isNone && !(a.part 3).staging && !a.movesRun 3 && !a.movesWait 3 c.arrived &&
          (a.ctxCmds (a.part 3).ctx).all fun y => y.op ≠ 0x11 || y.stage = .waiting || (snapOp y).exRegion ≠ (snapOp c).exRegion) = true ∧
    (let s := sSnap { snapCmd with stage := .running, phase := 1 }
     (s.qHead 10).any (fun c => c.op = 0x11 && c.stage = .running && c.phase = 1 && (snapOp c).dest = 0 &&
       okAnd (s.snapTensors 3 (snapOp c)) fun _ _ => true) = true) ∧
    (let s := partS { partK with image := { jobK with tensors := [] } } (sSnap { cmdW (0x11 + 5 * 2 ^ 16) ([0, 0, 0, 0, 0, 0, 0] ++
       [1 + 4 + 2 * 2 ^ 16]) with stage := .running, phase := 1 })
     (s.qHead 10).any (fun c => c.op = 0x11 && c.stage = .running && c.phase = 1 && (snapOp c).dest = 1 &&
       okAnd (s.snapTensors 3 (snapOp c)) fun a ts => (a.snapRead 3 c.gen (snapOp c) ts).2 = 0) = true) ∧
    (let s := msgS (msgOf 0x22 1234 (2 ^ 63) (9 + 0x10 * 2 ^ 12) (zeros 4096)) (linkS 4 stateK)
     s.portPeer 2 = some 17 ∧ (s.takeMsg 2 0x22).any (fun x => x.1.arg0 / 2 ^ 62 = 2 && x.1.payload.length = 4096 &&
       s.link.snaps.isEmpty) = true) ∧
    (let s := msgS (msgOf 0x22 1234 (3 * 2 ^ 62 + 5) 0 []) (linkS 4 (sSnap
       { cmdW (0x11 + 5 * 2 ^ 16) ([0, 0, 0, 0, 0, 0, 0] ++ [6 + 17 * 2 ^ 28]) with stage := .running, phase := 2, tag := 1234 }))
     s.portPeer 2 = some 17 ∧ (s.takeMsg 2 0x22).any (fun x => x.1.arg0 / 2 ^ 62 % 2 = 1 && x.2.snapOf 17 1234 = some 10) = true ∧
       (s.qHead 10).any (fun c => c.op = 0x11 && c.stage = .running && c.phase = 2) = true) := by decide +kernel

/-- MIGRATE of region `r`, as it starts and as it runs. -/
def migCmd (r : Nat) : HubCmd := cmdW (0x12 + 5 * 2 ^ 16) ([0, 0, 0, 0, 0, 0, 0] ++ [r + 2 ^ 12])
theorem witness_RegionMigration :
    goAnd ((sSnap (migCmd 1)).lookStart 10 0x12) (fun v c => v.boundPart (v.qCtx 10) = some 3 && !v.moveHeld 3 && !v.earlierLoad 3 c.arrived &&
      (match v.migCheck 3 c with
        | .ok r => !(v.part 3).migrating.contains r.region
        | .error _ => false)) = true ∧
    goAnd ((sSnap (migCmd 77)).lookStart 10 0x12) (fun v c => c.phase ≠ 1 && match v.migCheck 3 c with
      | .ok _ => false
      | .error e => decide (e ≠ 0)) = true ∧
    (let s := sSnap { migCmd 1 with stage := .running }
     (s.qHead 10).any (fun c => c.op = 0x12 && c.stage = .running && ((s.part 3).image.region (migOp c).1).isSome &&
       s.boundPart (s.qCtx 10) = some 3 && !(s.migrateNeeds 3 c).any s.edgeDown) = true) ∧
    (let s := sSnap { migCmd 1 with stage := .running }
     let s : State := { s with fab := { s.fab with down := List.range 8 } }
     (s.qHead 10).any (fun c => c.op = 0x12 && (s.migrateNeeds 3 c).any s.edgeDown) = true) := by decide +kernel

/-- A load of one pack from the Steward region, and one that waits for request 1. -/
def loadCmd : HubCmd := cmdW (0x13 + 5 * 2 ^ 16) ([0, 0, 0, 0, 0, 0, 0] ++ [1 + 8 * 0xFFF, 5, 6, 0x80001])
def loadOne (l : List ShardReq) : BeaconLoad :=
  { holders := [(none, 0x80000), (none, 0x90000)], pack := [], digestRegion := 0xFFF, skip := [], buf := [], dataOff := 0,
    index := true, shards := [⟨0, 6, 0, 64, 4096, []⟩], reqs := l, next := 1, left := [0] }
def sLoad (off : Nat) : State :=
  sSnap { loadCmd with stage := .running, phase := 2, load := some (loadOne [⟨1, some 0, off, 64, 0⟩]) }
/-- A request for a pack of the pack table. -/
def sPack : State :=
  msgS (msgOf 0x20 1234 0 64 (leBytes 8 5 ++ leBytes 8 6)) (linkS 4 ((((putMem 0xA0000 (words [5, 6, 0xB0000, 0x10000]) stateK).set
    Reg.BEACON_PACK_TABLE_EN 1).set Reg.BEACON_PACK_TABLE_ADDR 0x5000).set Reg.BEACON_PACK_COUNT_ENTRIES 1))
theorem witness_BeaconLoadsAndHolders :
    goAnd ((sSnap loadCmd).lookStart 10 0x13) (fun v c => v.boundPart (v.qCtx 10) = some 3 && v.loadOk 3 c && !v.loadHeld 3 c.arrived && (loadHolders c)[0]? = some (none, 0x80000)) = true ∧
    (let s := sLoad 4096
     (s.loadOfReq 1).any (fun x => x.2.1.holders.getD x.2.2.holder (none, 0) = (none, 0x80000) &&
       s.inSteward (0x80000 + x.2.2.off) x.2.2.len && okAnd (s.hubRead (0x80000 + x.2.2.off) x.2.2.len) fun _ _ => true) = true) ∧
    (let s := sLoad (2 ^ 40)
     (s.loadOfReq 1).any (fun x => !s.inSteward (0x80000 + x.2.2.off) x.2.2.len) = true) ∧
    (sPack.portPeer 2 = some 17 ∧ (sPack.takeMsg 2 0x20).any (fun x => x.2.get Reg.BEACON_PACK_TABLE_EN = 1 &&
      (x.2.packEntry (fit 16 x.1.payload)).2 = some (0xB0000, 0x10000) && x.1.arg0 + x.1.arg1 ≤ 0x10000 && x.1.arg1 = 64 &&
      okAnd (x.2.hubRead 0xB0000 64) fun _ _ => true) = true) ∧
    (msgS (msgOf 0x20 1234 0x1000 0x1000 (zeros 16)) (linkS 4 stateK)).get Reg.BEACON_PACK_TABLE_EN = 0 ∧
    (let s : State := { stateK with link := { stateK.link with refetch := [⟨3, loadOne [], false, 0⟩] } }
     s.loadHeld 3 0 = false ∧ (s.part 3).loaded = true) := by
  decide +kernel

/-- Two registered shards, with a lap under way. -/
def shardOf (n : Nat) : RegShard := ⟨n, 3, ⟨4, 6, 0, 64, 4096, []⟩, 2, 0, [(none, 0x80000)], []⟩
def sLap (l : Option (List Nat)) : State := { stateK with link := { stateK.link with shards := [shardOf 11, shardOf 12], lap := l } }
theorem witness_BeaconHasher :
    (((sLap none).set Reg.BEACON_CTRL_HASH_EN 1).get Reg.BEACON_CTRL_HASH_EN = 1 ∧ (sLap none).link.lap = none ∧
      (sLap none).link.shards ≠ []) ∧
    (let s := sLap (some [11, 12])
     let j := (s.part 3).image
     let v := sLap (some [12])
     s.movesRun 3 = false ∧ j.tensor 6 = some tensorA ∧ (j.region 2).isSome = true ∧
       okAnd (v.readMem 3 0 (s.part 3).uses (j.addrOf tensorA + 0) 64) (fun a _ =>
         okAnd (a.readMem 3 0 (s.part 3).uses (9 * 2 ^ 52 + 0x10000 + 0) 64) fun _ _ => true) = true) ∧
    stateK.hubUp = true := by decide +kernel

/-! ## Witnesses: Prism, memory, owners and keys -/

/-- Keys 10 FREE and 11 RESERVED; master 5 may read key 12 and write nothing. -/
def sKeys : State :=
  let free (n : Nat) (st : KeyState) (s : State) : State :=
    s.updKey n fun _ => { state := st, owner := 7, gen := 1, users := 1, material := 0 }
  (free 12 .valid (free 11 .reserved (free 10 .free stateK))).setRights 5 ⟨2 ^ 12, 0, false, false⟩
theorem witness_PrismChecksAnAccess :
    (∀ m ∈ [3, 5, 34], (sKeys.rightsOf m).rawRead = false) ∧ (sKeys.keyEntry (sKeys.keyOf (10 * 2 ^ 52))).state = .free ∧
    (sKeys.keyEntry (sKeys.keyOf (11 * 2 ^ 52 + 64))).state = .reserved ∧
    (sKeys.keyOf (12 * 2 ^ 52) = 12 ∧ (sKeys.keyEntry 12).state = .valid ∧ bit (sKeys.rightsOf 5).write 12 = false ∧
      bit (sKeys.rightsOf 3).read 12 = false) ∧
    ((sKeys.rightsOf 34).stewardOnly = true ∧ sKeys.stewardBytes % 64 = 0 ∧ (sKeys.keyEntry 0).state ≠ .free ∧
      (sKeys.keyEntry 0).state ≠ .reserved ∧ sKeys.keyOf sKeys.stewardBytes = 0 ∧ bit (sKeys.rightsOf 34).read 0 = true) := by
  decide +kernel

/-- What a gate answers, with a property of it. -/
def gateAnd (x : Except Nat Gate) (f : Gate → Bool) : Bool :=
  match x with
  | .ok g => f g
  | .error _ => false
theorem witness_LineWritesAndReads :
    (∀ a ∈ [9 * 2 ^ 52, 9 * 2 ^ 52 + 0x1FFC0], gateAnd (stateK.gate 3 4 (stateK.part 3).uses true a) (fun g =>
      let l := stateK.line (g.place / 64)
      l.poison = 0 && l.minor = 0 && gateAnd (stateK.gate 3 4 (stateK.part 3).uses false a) (fun h => h = g) &&
        !stateK.rawReads 3 a && l = Line.fresh && stateK.major (g.place / 4096) = 0) = true) ∧
    gateAnd (stateK.gate 32 0 [] true 0x1000) (fun g =>
      okAnd ((((stateK.strike g.ctrl g.place .none).touchKey g.ctrl g.keyId).prismCount Reg.PRISM_n_PARTIAL_COUNT g.ctrl 1).readLine 32 g.ctrl 0x1000
        (g.place / 64) g.key) fun v old => old.length = 64 && (v.line (g.place / 64)).poison = 0 &&
          (v.line (g.place / 64)).minor ≠ 127) = true := by decide +kernel

/-- The Steward die runs; its master or the debug master in other rights. -/
def sSteward (m : Nat) (r : Rights) : State := ((stateK.set Reg.STEWARD_STAT_STATE 2).set Reg.UCIE_STAT_UP 1).setRights m r
/-- Is an access answered, and with success? -/
def answered {α : Type} (x : State × Option (Except Nat α)) (good : Bool) : Bool :=
  match x with
  | (_, some (.ok _)) => good
  | (_, some (.error _)) => !good
  | _ => false
theorem witness_StewardMemoryRequests :
    (let s := sSteward 35 ⟨0, 2 ^ 9, false, true⟩
     s.memServed = true ∧ answered (s.readAccess 34 0 0 .none) true = true ∧
       answered (s.writeAccess 34 0 0 (zeros 64) .none) true = true ∧
       answered (s.mergeAccess 34 0 0 1 (zeros 64) .none) true = true ∧ 2 ^ 38 + s.stewardBytes < 2 ^ 64 ∧
       s.rawReads 35 (9 * 2 ^ 52) = true ∧
       gateAnd (s.gate 35 4 [] false (9 * 2 ^ 52)) (fun g => ((s.strike g.ctrl g.place .none).line (g.place / 64)).ce = 0) = true ∧
       eccFault .none = false ∧ eccFault (.ue 1) = true ∧ answered (s.writeAccess 35 4 (9 * 2 ^ 52) (zeros 64) .none) true = true) ∧
    (let s := sSteward 34 ⟨0, 0, true, false⟩
     s.memServed = true ∧ answered (s.readAccess 34 0 0 .none) false = true ∧
       answered (s.writeAccess 34 0 0 (zeros 64) .none) false = true ∧
       answered (s.mergeAccess 34 0 0 1 (zeros 64) .none) false = true) ∧
    (let s := sSteward 35 ⟨2 ^ 9, 2 ^ 9, false, false⟩
     s.rawReads 35 (9 * 2 ^ 52) = false ∧ answered (s.readAccess 35 4 (9 * 2 ^ 52) .none) true = true) := by decide +kernel

theorem witness_UncorrectableErrorsPoison :
    (gateAnd (stateK.gate 3 4 (stateK.part 3).uses false (9 * 2 ^ 52)) (fun g => g.ctrl < 12) = true ∧
      stateK.rawReads 3 (9 * 2 ^ 52) = false) ∧
    (let s := stateK.set Reg.SCRUB_CTRL_GLIMMER_EN 1
     let c := s.placeCtrl 64
     s.get Reg.SCRUB_CTRL_GLIMMER_EN = 1 ∧ c < 12 ∧ s.getF Reg.FLOOD_STAT_BUSY c 0 = 0 ∧ (s.line 1).ce = 0) ∧
    (stateK.hubUp = true ∧ ∀ c : Fin 12, stateK.getF Reg.FLOOD_STAT_BUSY c 0 = 0 ∧ stateK.getF Reg.MC_STAT_FAILED c 0 = 0) ∧
    (stateK.setF Reg.MC_STAT_FAILED 11 0 1).getF Reg.MC_STAT_FAILED 11 0 = 1 ∧
    stateK.mem.floods = [] ∧
    (let s : State := { stateK with mem := { stateK.mem with floods := [(3, 34), (4, 7)] } }
     (3, 34) ∈ s.mem.floods ∧ ∀ x ∈ s.mem.floods, x.1 = 3 → x.2 = 34) := by decide +kernel

theorem witness_CounterClears : stateK.hubUp = true ∧
    ∀ q ∈ [(Reg.PRISM_CFG_CNT_CLEAR, 0), (Reg.SCRUB_CTRL_CNT_CLEAR, 0), (Reg.FAB_CTRL_CNT_CLEAR, 0), (Reg.GLINT_CTRL_CNT_CLEAR, 11),
        (Reg.PART_FAB_CTRL_CNT_CLEAR, 31), (Reg.PORT_CTRL_CNT_CLEAR, 15)],
      8 * ((q.1.base + q.1.s1 * q.2) / 8) = q.1.base + q.1.s1 * q.2 ∧ (q.1.base + q.1.s1 * q.2) / 8 < 8388608 ∧
        bit (0xF : Word).toNat q.1.lo = true := by decide +kernel

/-- The owner that a command names, and the keys 32 bytes long. -/
def sOwner (i : Nat) : State := stateK.set Reg.OWNER_CMD_INDEX i
/-- Owner 8 holds nothing; the key in OWNER_DATA is registered. -/
def sOwner8 : State :=
  { sOwner 8 with ten := { stateK.ten with owners := stateK.ten.owners ++ [(8, { kind := 1, data := stateK.ownerData.take 32, ingress := true })] } }
theorem witness_OwnerTable :
    (stateK.hubUp = true ∧ (stateK.owner 1).kind = 0 ∧
      ∀ e ∈ stateK.ten.owners, ¬ (e.2.kind = 1 ∧ e.2.data = stateK.ownerData.take 32)) ∧
    (sOwner8.hubUp = true ∧ (∃ e ∈ sOwner8.ten.owners, e.2.kind = 1 ∧ e.2.data = sOwner8.ownerData.take 32) ∧
      (sOwner8.owner 8).kind ≠ 0 ∧ sOwner8.ownerKeys 8 = 0 ∧ sOwner8.ownerContexts 8 = 0 ∧ (sOwner8.owner 8).kind < 4) ∧
    ((sOwner 7).get Reg.OWNER_CMD_INDEX = 7 ∧ ((sOwner 7).owner 7).kind ≠ 0 ∧ (sOwner 7).ownerKeys 7 ≠ 0) ∧
    (sOwner 0).get Reg.OWNER_CMD_INDEX = 0 := by decide +kernel

theorem witness_KeyTable :
    (stateK.hubUp = true ∧ stateK.get Reg.KEY_STAT_BUSY = 0 ∧ (stateK.keyEntry 1).state = .free ∧ stateK.get Reg.KEY_CMD_KEY = 0) ∧
    (let s := (stateK.updKey 9 fun e => { e with users := 0 }).set Reg.KEY_CMD_KEY 9
     s.hubUp = true ∧ s.get Reg.KEY_STAT_BUSY = 0 ∧ s.get Reg.KEY_CMD_KEY = 9 ∧ (s.keyEntry 9).users = 0 ∧ s.wearCtrls 9 = [] ∧
       (s.setWearList 4 [(0, 9, 0)]).wearCtrls 9 = [4]) ∧
    ((stateK.set Reg.KEY_CMD_KEY 2047).get Reg.KEY_CMD_KEY = 2047 ∧ (stateK.keyEntry 2047).users = 0) ∧
    ((stateK.set Reg.KEY_CMD_KEY 9).keyEntry 9).users ≠ 0 := by decide +kernel

/-! ## Witnesses: power, clocks and resets -/

/-- The feeds in a state, the module on its bulk capacitors or not. -/
def sFeeds (a b : Nat) (bulk back : Bool) : State :=
  let s := (stateK.set Reg.PWR_STAT_A_OK a).set Reg.PWR_STAT_B_OK b
  { s with pilot := { s.pilot with bulk := bulk, backA := back } }
/-- The module at a stage of its start. -/
def sBoot (b : Boot) : State := { stateK with pilot := { stateK.pilot with boot := b } }
theorem witness_FeedsAndLimits :
    (sBoot .off).pilot.powered = false ∧
    (let s := sFeeds 1 1 false false
     s.pilot.powered = true ∧ s.get (feedOk 0) = 1 ∧ s.get (feedOk 1) = 1 ∧ s.feedBack 0 = false ∧ (∀ n ∈ s.pilot.thermStep.toList, n < 64) ∧
       s.pilot.powerStep < 64 ∧ s.resettable = true ∧ s.get Reg.PWR_LIMIT_SUST_W < 2801) ∧
    (let s := sFeeds 1 0 false false; s.get (feedOk 0) = 1 ∧ s.get (feedOk 1) = 0) ∧
    (let s := sFeeds 0 1 false true; s.get (feedOk 0) = 0 ∧ s.pilot.bulk = false ∧ s.feedBack 0 = true) ∧
    (let s := sFeeds 0 0 true false; s.pilot.powered = true ∧ s.get (feedOk 0) = 0 ∧ s.pilot.bulk = true) := by decide +kernel

/-- A vendor request. -/
def vreq (cmd : Nat) (b : Bytes) : Bytes := stateK.vendorHead ++ [BitVec.ofNat 8 cmd] ++ b
/-- Each vendor command finds its body; the vendor's number is a fuse. -/
theorem vendorBody_of_head (s : State) (n : Nat) (b : Bytes) (h : n < 256) :
    s.vendorBody n (s.vendorHead ++ [BitVec.ofNat 8 n] ++ b) = some b := by
  simp [State.vendorBody, State.vendorHead, beBytes, rd, slice, leNat, leBytes, Nat.mod_eq_of_lt h]
theorem witness_ModuleResets :
    (stateK.pilot.boot = .ready ∧ stateK.pilot.resetLow = false ∧ stateK.hubUp = true ∧ stateK.pilot.powered = true ∧
      stateK.pilot.bulk = false) ∧
    ((sBoot .waitRef).pilot.boot = .waitRef ∧ (sBoot .held).pilot.boot = .held ∧ (sBoot .noRef).pilot.boot = .noRef ∧
      (sBoot .noRef).pilot.resetLow = false ∧ (sBoot .running).pilot.boot = .running ∧ (sBoot .off).pilot.powered = false) ∧
    (sFeeds 0 0 true false).pilot.bulk = true ∧ 115 ≤ (115 : Byte).toNat ∧ (114 : Byte).toNat < 115 ∧
    (stateK.request (some (vreq 1 []))).bind (stateK.vendorBody 1) = some [] ∧
    (stateK.request (some (vreq 2 []))).bind (stateK.vendorBody 2) = some [] :=
  ⟨by decide +kernel, by decide +kernel, by decide +kernel, by decide, by decide,
    vendorBody_of_head _ 1 [] (by decide), vendorBody_of_head _ 2 [] (by decide)⟩

/-- Cluster 1 of partition 3 in a state. -/
def sClus (n : Nat) : State := stateK.setCluster 1 n
/-- A calibration pass under way. -/
def sCalib : State :=
  let s := stateK.set Reg.CALIB_STAT_PASS_BUSY 1
  { s with pilot := { s.pilot with passing := [2, 95] } }
theorem witness_ClustersAndCalibration :
    (let s := (sClus 0).setTile 1 { tileOn with coded := false }
     s.cluster 0 = 0 ∧ s.inactive 0 = true ∧ s.inactive 1 = true ∧ 0 ∉ s.pilot.passing) ∧
    stateK.inactive 0 = false ∧
    ((sClus 1).cluster 1 = 1 ∧ (sClus 1).partOfCluster 1 = some 3 ∧ ((sClus 1).part 3).loaded = true ∧
      (sClus 1).isGate 3 = false ∧ (sClus 1).get Reg.CLUSTER_CTRL_NAP_AFTER_US ≠ 0 ∧ (sClus 2).cluster 1 = 2) ∧
    ((sClus 3).cluster 1 = 3 ∧ (sClus 3).clusterFailed 1 = false ∧
      ((sClus 3).setF Reg.CLUSTER_FAIL_d_FAILED 0 0 2).clusterFailed 1 = true) ∧
    ((sClus 0).runsBin 1 0 = true ∧ (sClus 0).binFilled 1 0 = false ∧ (sClus 0).runsBin 1 7 = false) ∧
    (stateK.hubUp = true ∧ stateK.get Reg.CALIB_STAT_PASS_BUSY = 0) ∧
    (sCalib.hubUp = true ∧ sCalib.get Reg.CALIB_STAT_PASS_BUSY = 1 ∧ ∀ d ∈ sCalib.pilot.passing, d < 96) := by decide +kernel

/-- The Steward die in a state, with some of its UCIe modules. -/
def sUcie (st mods : Nat) : State := (stateK.set Reg.STEWARD_STAT_STATE st).set Reg.UCIE_STAT_MODULES mods
theorem witness_StewardAndBringUp :
    ((sUcie 2 5).hubUp = true ∧ (sUcie 2 5).get Reg.STEWARD_STAT_STATE ≠ 3 ∧ bit ((sUcie 2 5).get Reg.UCIE_STAT_MODULES) 2 = true ∧
      bit ((sUcie 2 5).get Reg.UCIE_STAT_MODULES) 1 = false ∧ (sUcie 2 5).pilot.boot = .ready) ∧
    (sUcie 3 2).get Reg.STEWARD_STAT_STATE = 3 ∧ (sUcie 2 4).get Reg.UCIE_STAT_MODULES = 2 ^ 2 ∧
    (stateK.set Reg.GLOBAL_STAT_READY 0).readyOut = false ∧
    ((sBoot .running).pilot.boot = .running ∧ (sBoot .running).hubFwBad = false ∧ (sBoot .running).pilot.flash.startFrame = none) ∧
    ((sUcie 2 5).request (some ((sUcie 2 5).vendorHead ++ [3]))).bind ((sUcie 2 5).vendorBody 3) = some [] := by
  refine ⟨by decide +kernel, by decide +kernel, by decide +kernel, by decide +kernel, by decide +kernel, ?_⟩
  simpa [State.request] using vendorBody_of_head (sUcie 2 5) 3 [] (by decide)

/-- A response waits for its mailbox, and two requests wait for their answers. -/
def sMbox : State :=
  { stateK with pilot := { stateK.pilot with mbox := { Mailbox.reset with reqs := [([0, 1], false), ([0, 2], true)], rsp := some [0, 9] } } }
theorem witness_RegistersMailboxAndJtag :
    (stateK.set Reg.GLOBAL_STAT_READY 0).readyOut = false ∧ (stateK.hubUp = true ∧ stateK.get Reg.MBOX_STAT_BUSY = 0) ∧
    (stateK.set Reg.MBOX_STAT_BUSY 1).get Reg.MBOX_STAT_BUSY = 1 ∧
    (1000 ≤ stateK.get Reg.PWR_LIMIT_SUST_W ∧ stateK.get Reg.PWR_LIMIT_SUST_W < 2 ^ Reg.PWR_LIMIT_SUST_W.width) ∧
    (bitsOf 1000 Reg.PWR_LIMIT_SUST_W.hi Reg.PWR_LIMIT_SUST_W.lo = 1000 ∧
      bitsOf 2800 Reg.PWR_LIMIT_SUST_W.hi Reg.PWR_LIMIT_SUST_W.lo = 2800 ∧
      bitsOf 2801 Reg.PWR_LIMIT_SUST_W.hi Reg.PWR_LIMIT_SUST_W.lo = 2801) ∧
    (let b := smapRead 0 (smapWrite 0 [] 0 [(0x7E : Byte)]) 0 4096; b.length = 4096 ∧ b.head? = some 0x7E) ∧
    (sMbox.hubUp = true ∧ sMbox.pilot.mbox.rsp = some [0, 9]) ∧
    (sMbox.pilot.boot = .ready ∧ sMbox.pilot.mbox.reqs = ([0, 1], false) :: [([0, 2], true)]) ∧
    stateK.pilot.mbox.rsp = none ∧ (sBoot .held).pilot.boot ∈ [Boot.waitRef, .running, .held, .tripped] ∧
    stateK.jtagOn = true := by decide +kernel

/-! ## Witnesses: life cycle, staging, tokens, SPDM and provisioning

Hypotheses that a signature or an authentication tag holds are about the opaque functions of Config and have no witness here. -/

def opKey : Bytes := List.replicate 32 5
/-- A module in a life-cycle state, with a nonce drawn. -/
def sLife (st : Nat) (g : Option Staging) : State :=
  { (stateK.set Reg.PWR_STAT_A_OK 1).set Reg.PWR_STAT_B_OK 1 with pilot := { stateK.pilot with
    staging := g, nonce := some (List.replicate 32 8), fwCheck := 2,
    flash := { stateK.pilot.flash with record := some ⟨st, 9, 1, opKey⟩, certs := [1], lcInit := true } } }
/-- Commands that a state serves over I3C. -/
theorem served_over_i3c (s : State) (n : Nat) (b : Bytes) (h : n < 256) (m : s.meet true n = .serve) :
    (s.request (some (s.vendorHead ++ [BitVec.ofNat 8 n] ++ b))).bind (s.vendorBody n) = some b ∧
    s.meet (some (s.vendorHead ++ [BitVec.ofNat 8 n] ++ b)).isSome n = .serve := ⟨vendorBody_of_head s n b h, m⟩

theorem witness_LifeCycleCommands :
    (∀ n ∈ [0x10, 0x1B, 0x11, 0x13, 0x18, 0x12], ∀ st ∈ [2, 3], (sLife st none).meet true n = .serve) ∧
    ((sLife 3 none).pilot.flash.lcState ≠ 2 ∧ (sLife 2 none).pilot.flash.lcState = 2 ∧ (sLife 2 none).worn 2 = false ∧
      (sLife 3 none).worn 3 = false) ∧
    (zeros 3968).length ≤ 3968 ∧ (sLife 3 none).transitionCode [] ≠ 0 := by decide +kernel

theorem witness_StagingAndTokens :
    (∀ n ∈ [0x14, 0x15, 0x16, 0x17, 0x19, 0x1A], (sLife 3 none).meet true n = .serve) ∧ (sLife 3 none).pilot.boot = .ready ∧
    (let b : Bytes := leBytes 1 4 ++ leBytes 4 (4096 * slotUnits 4)
     b.length = 5 ∧ rd b 0 1 = 4 ∧ rd b 1 4 = 4096 * slotUnits 4 ∧ (sLife 3 none).worn (stageArea 4) = false) ∧
    (let b : Bytes := leBytes 1 1 ++ leBytes 4 (4096 * slotUnits 1 + 1)
     b.length = 5 ∧ rd b 0 1 = 1 ∧ 4096 * slotUnits 1 < rd b 1 4) ∧
    (let g : Staging := ⟨3, 5, 2, [1, 2]⟩
     (sLife 3 (some g)).pilot.staging = some g ∧ g.data.length ≠ g.total ∧ bit g.check 0 = false ∧
       rd (leBytes 4 2 ++ [9, 9, 9]) 0 4 = g.data.length ∧ g.data.length + 3 ≤ g.total ∧ g.total < g.data.length + 4) ∧
    (let g : Staging := ⟨3, 2, 2, [1, 2]⟩
     (sLife 3 (some g)).pilot.staging = some g ∧ g.data.length = g.total ∧ bit g.check 0 = false) ∧
    (sLife 3 none).tokenCode [] ≠ 0 := by decide +kernel

/-- A connection at work on a transport. -/
def sConn (n : Nat) (c : SpdmConn) : State := { sLife 3 none with ten := { stateK.ten with conns := [(n, c)] } }
/-- A vendor message of the SPDM standard with a payload, its head taken from the model's own answers. -/
def vendorMsg (b : Bytes) : Bytes := (stateK.vendorDefined 0 0 []).take 9 ++ leBytes 2 b.length ++ b
/-- A provisioning session of owner 7, and its messages with sequence number `n`. -/
def provA : ProvSession := ⟨7, [1], [2], 4⟩
def keyMsg (n k : Nat) : Bytes := leBytes 4 n ++ leBytes 2 k ++ leBytes 2 0 ++ zeros 32 ++ List.replicate 64 3 ++ zeros 16
def policyMsg (n v : Nat) : Bytes := leBytes 4 n ++ leBytes 4 v ++ zeros 16
theorem witness_SpdmAndProvisioning :
    ((sLife 3 none).request (some [5, 0x12, 0xE0, 1]) = some [5, 0x12, 0xE0, 1] ∧ rd ([5, 0x12, 0xE0, 1] : Bytes) 0 1 = 5 ∧
      rd ([5, 0x12, 0xE0, 1] : Bytes) 2 1 = 0xE0) ∧
    ((sLife 3 none).meetSpdm true = .serve ∧ (sLife 3 none).pilot.flash.identity = true) ∧
    stateK.pilot.flash.identity = false ∧
    (let s : State := { stateK with pilot := { stateK.pilot with boot := .held } }; s.meetSpdm true = .nack) ∧
    (∃ b ∈ [Boot.failed, .noRef, .waitRef, .off, .tripped, .recovery, .parked, .running],
      ({ stateK with pilot := { stateK.pilot with boot := b } } : State).meetSpdm false = .silent) ∧
    (let s := sConn 1 ⟨[1, 2], true, none, [vendorMsg (List.replicate 32 7 ++ zeros 128)]⟩
     s.ownerOfKey (List.replicate 32 7) = some 7 ∧ (s.conn 1).measured = true ∧ (s.conn 1).inbox.length = 1) ∧
    (let s := sConn 1 ⟨[1, 2], false, none, [vendorMsg (zeros 160)]⟩
     (s.conn 1).measured = false ∧ (s.conn 1).prov = none) ∧
    (let s := (sConn 1 ⟨[1, 2], false, some provA, [vendorMsg (keyMsg 5 10)]⟩).updKey 10 fun _ =>
       { state := .reserved, owner := 7, gen := 2, users := 0, material := 0 }
     (s.conn 1).prov = some provA ∧ provA.seqOk 5 = true ∧ (keyMsg 5 10).length = 120 ∧ rd (keyMsg 5 10) 6 2 = 0 ∧
       rd (keyMsg 5 10) 4 2 = 10 ∧ (s.keyEntry 10).state = .reserved ∧ (s.keyEntry 10).owner = provA.owner) ∧
    ((policyMsg 5 1).length = 24 ∧ rd (policyMsg 5 1) 4 4 ≤ 1 ∧ rd (policyMsg 5 1) 0 4 = 5) := by decide +kernel

/-! ## Witnesses: ports and links -/

/-- Port 2 changed. -/
def setP (f : PortSt → PortSt) (s : State) : State := s.updPort 2 f
/-- Port 2 in a mode and a state, with no peer. -/
def modeS (m st : Nat) : State :=
  ((stateK.setF Reg.PORT_STAT_MODE 2 0 m).setF Reg.PORT_STAT_STATE 2 0 st).setF Reg.PORT_STAT_PEER_VALID 2 0 0
/-- Port 2 OPERATIONAL, changed. -/
def opS (f : PortSt → PortSt) : State := setP f (linkS 4 stateK)
/-- A flit of a message of 20 flits. -/
def lflit (n : Nat) : LFlit := { data := List.replicate 64 (BitVec.ofNat 8 n), first := n = 0, last := n = 19, ty := 1, tag := 5, arg := 6 }
/-- Sixteen flits at each turn of the choice. -/
def picksA : List (Fin 4) := List.replicate 18 0
def fullS : State := opS fun x => { x with tx := [(List.range 20).map lflit, [], [], []] }
/-- A group held for a resend. -/
def heldS (n : Nat) : State := opS fun x => { x with again := n, retry := [⟨0, 0, zeros 1064, 0, []⟩] }
/-- The Ethernet rings of port 2, each with one descriptor of 64 bytes at 0xA0000. -/
def ethS (bytes : Nat) : State :=
  let s := putMem 0x90000 (words [0xA0000, bytes]) (modeS 2 2)
  let s := (((s.setF Reg.ETH_TX_RING_ADDR 2 0 (0x90000 / 64)).setF Reg.ETH_TX_RING_EN 2 0 1).setF Reg.ETH_TX_RING_SIZE_LOG2 2 0 4).setF Reg.ETH_TX_IDX_TAIL 2 0 1
  (((s.setF Reg.ETH_RX_RING_ADDR 2 0 (0x90000 / 64)).setF Reg.ETH_RX_RING_EN 2 0 1).setF Reg.ETH_RX_RING_SIZE_LOG2 2 0 4).setF Reg.ETH_RX_IDX_TAIL 2 0 1
/-- The descriptor of a ring, where there is one. -/
def ringDesc (s : State) (rx : Bool) (f : State → Bytes → Bool) : Bool :=
  match s.ringNext 2 rx with
  | some a => okAnd (s.hubRead a 16) f
  | none => false
/-- A frame with its check sequence. -/
def frameB : Bytes := zeros 60 ++ leBytes 4 (crc32 (zeros 60))
/-- A group with its check sequence, of sequence number 9. -/
def groupB : Bytes := let b := leBytes 4 9 ++ zeros 1052; b ++ leBytes 4 (crc32 b) ++ zeros 4

theorem witness_PortsTrainAndCarryGroups :
    (stateK.port 2).setup.entry = none ∧
    ((modeS 0 1).portMode 2 = 0 ∧ (linkS 7 stateK).portState 2 = 7 ∧ (modeS 1 1).portState 2 = 1 ∧ (modeS 2 1).portMode 2 = 2 ∧
      (modeS 1 1).portMode 2 = 1 ∧ stateK.hubUp = true ∧ (modeS 1 1).getF Reg.PORT_CTRL_LOOPBACK 2 0 ≠ 1 ∧
      ((modeS 1 1).setF Reg.PORT_CTRL_LOOPBACK 2 0 1).getF Reg.PORT_CTRL_LOOPBACK 2 0 = 1) ∧
    ((modeS 1 6).portState 2 = 6 ∧ (opS fun x => { x with resent := (0, 8) }).portState 2 = 4 ∧
      ((opS fun x => { x with resent := (0, 8) }).port 2).resent.2 = 8) ∧
    (let s := modeS 1 3; s.portMode 2 = 1 ∧ 2 ≤ s.portState 2 ∧ s.portState 2 ≤ 5 ∧ s.getF Reg.PORT_CTRL_LOOPBACK 2 0 ≠ 1) ∧
    ((setP (fun x => { x with setupTx := [setupMsg 1 (zeros 66)] }) (modeS 1 3)).port 2).setupTx.flatMap id ≠ [] ∧
    (let x := (heldS 1).port 2
     ((heldS 1).sendKey 2).isSome = true ∧ 0 < x.again ∧ x.again ≤ x.retry.length ∧ x.run < 63) ∧
    (let x := fullS.port 2
     (fullS.sendKey 2).isSome = true ∧ x.again = 0 ∧ x.retry.length < 1024 ∧ x.seq < 2 ^ 32 - 1 ∧ x.retry = [] ∧ x.run < 63 ∧
      (x.pick picksA).2.length = 16) ∧
    (((opS fun x => { x with ctlTx := [ctlMsg 1 []] }).port 2).ctlTx ≠ [] ∧
      (opS fun x => { x with ctlTx := [ctlMsg 1 []], run := 63 }).ctlSlot 2 = true ∧ fullS.ctlSlot 2 = false) ∧
    (groupB.length = 1064 ∧ crc32 (groupB.take 1056) = rd groupB 1056 4 ∧ (modeS 1 4).recvKeys 2 = none ∧
      (if bit (rd groupB 0 8) 60 then 1 else 0) = ((modeS 1 4).port 2).rxEpoch % 2 ∧ rd groupB 0 4 ≠ ((modeS 1 4).port 2).expect) ∧
    ((modeS 2 2).portMode 2 = 2 ∧ (modeS 2 2).portState 2 = 2 ∧ (modeS 2 2).getF Reg.PORT_CTRL_LOOPBACK 2 0 ≠ 1 ∧
      (modeS 2 2).ringNext 2 false = none ∧ (modeS 2 2).ringNext 2 true = none) ∧
    ringDesc (ethS 64) false (fun v d => v.descOk (rd d 0 8) (rd d 8 8) 60 9212 (rd d 8 8 % 2 ^ 16) &&
      okAnd (v.hubRead (rd d 0 8) (rd d 8 8 % 2 ^ 16)) fun _ _ => true) = true ∧
    ringDesc (ethS 59) false (fun v d => !v.descOk (rd d 0 8) (rd d 8 8) 60 9212 (rd d 8 8 % 2 ^ 16)) = true ∧
    ringDesc (ethS 9212) true (fun v d => v.descOk (rd d 0 8) (rd d 8 8) 9212 65535 (rd d 8 8 % 2 ^ 16) &&
      (v.hubWrite (rd d 0 8) (zeros 60)).2.isNone) = true ∧
    (64 ≤ frameB.length ∧ frameB.length ≤ 9216 ∧ crc32 (frameB.take 60) = rd frameB 60 4 ∧ crc32 ((zeros 64).take 60) ≠ rd (zeros 64) 60 4) := by
  decide +kernel

/-- Port 2 at a stage of the setup, with messages received. -/
def suS (st stage : Nat) (hello : Option (Bytes × Bytes)) (rx : List Bytes) : State :=
  setP (fun x => { x with setupRx := rx, setup := { SetupSt.empty with stage := stage, nonce := List.replicate 32 4, hello := hello, transcript := [1, 2], restarts := 1, priv := List.replicate 32 3, entry := if stage ≥ 2 then some 17 else none } }) (modeS 1 st)
/-- A HELLO of a version from the unit whose key is all `c`. -/
def helB (c : Byte) (n : Nat) : Bytes := setupMsg 1 (List.replicate 32 c ++ List.replicate 32 9 ++ leBytes 2 n)
def keyP : Bytes × Bytes := (List.replicate 32 0x55, List.replicate 32 9)
/-- Peer entry 40 of that unit, in a state. -/
def peerS (st : Nat) (s : State) : State := (s.setF Reg.PEER_ENTRY_STATE 40 0 st).updSession 40 fun x => { x with ident := keyP.1 }
/-- A message of a kind that is taken, and a property of what is left. -/
def someAnd {α : Type} (o : Option α) (f : α → Bool) : Bool :=
  match o with
  | some a => f a
  | none => false

/-- Verdicts of the SPDM exchange and of the signature are opaque, so the clauses under them have no witness. -/
theorem witness_SetupOfALink :
    ((suS 3 0 none [helB 0x55 1]).port 2).setup.entry = none ∧ ((suS 3 2 none []).port 2).setup.entry = some 17 ∧
    someAnd ((suS 3 0 none [helB 0x55 2]).takeSetup 2 1) (fun x => (x.2.port 2).setup.hello.isNone && rd x.1 64 2 == 2) = true ∧
    someAnd ((suS 3 0 none [helB 0x55 1]).takeSetup 2 1) (fun x => x.1.length == 66 && rd x.1 64 2 == 1 && slice x.1 0 32 == keyP.1) = true ∧
    ((peerS 3 (suS 3 0 none [helB 0x55 1])).entryOf keyP.1 3 ≠ none ∧ (suS 3 0 none [helB 0x55 1]).entryOf keyP.1 3 = none ∧
      (suS 3 0 none [helB 0x55 1]).entryOf keyP.1 2 = none) ∧
    (suS 3 0 none []).takeSetup 2 1 = none ∧
    (let s := suS 3 1 (some keyP) [setupMsg 2 (zeros 60)]
     someAnd (s.takeSetup 2 2) (fun _ => true) = true ∧ (s.port 2).setup.hello = some keyP ∧ s.portState 2 = 3 ∧ (s.port 2).setup.stage = 1) ∧
    (suS 4 1 (some keyP) [setupMsg 2 (zeros 60)]).portState 2 ≠ 3 ∧
    (setupSpdm (zeros 60) = false ∧ setupSpdm [0x12, 0x84] = true ∧ setupSpdm [0x12, 0xFE] = false) ∧
    (let s := suS 3 2 (some keyP) [setupMsg 3 [1]]
     s.portState 2 = 3 ∧ (s.port 2).setup.stage = 2 ∧ someAnd (s.takeSetup 2 3) (fun x => x.1.length ≠ 96) = true ∧
       (s.port 2).setup.hello = some keyP) ∧
    someAnd ((suS 3 1 (some keyP) [setupMsg 4 [9, 4]]).takeSetup 2 4) (fun x => rd x.1 0 2 == 0x409) = true ∧
    ((suS 3 1 (some keyP) []).portState 2 = 3 ∧ (suS 3 1 (some keyP) []).joins 2 = false ∧
      ((suS 3 1 (some keyP) []).port 2).setup.restarts < 3 ∧
      3 ≤ ((setP (fun x => { x with setup := { x.setup with restarts := 3 } }) (suS 3 1 (some keyP) [])).port 2).setup.restarts) ∧
    (peerS 2 (suS 3 1 (some keyP) [])).joins 2 = true ∧ (suS 5 0 none []).portState 2 = 5 := by decide +kernel

/-- Port 2 OPERATIONAL with a control message received. -/
def ctlS (ty : Nat) (b : Bytes) : State := opS fun x => { x with ctlRx := [ctlMsg ty b] }
/-- A re-keying of session 17 under way. -/
def rkS (s : State) : State := s.updSession 17 fun x => { x with rekey := true }
/-- Port 5 in SETUP with the same peer. -/
def secondS (s : State) : State :=
  ((s.setF Reg.PORT_STAT_MODE 5 0 1).setF Reg.PORT_STAT_STATE 5 0 3).updPort 5 fun x =>
    { x with setup := { SetupSt.empty with stage := 1, hello := some (List.replicate 32 5, List.replicate 32 9) } }
/-- Port 5 in the session of port 2. -/
def thirdS (s : State) : State := ((s.setF Reg.PORT_STAT_MODE 5 0 1).setF Reg.PORT_STAT_STATE 5 0 4).setF Reg.PEER_ENTRY_PORTS 17 0 0x24
/-- Port 2 with its session's keys made. -/
def openingS : State :=
  setP (fun x => { x with ctlRx := [ctlMsg 0 []], setup := { SetupSt.empty with stage := 3, nonce := List.replicate 32 4, hello := some keyP, priv := [], entry := some 30, keys := some ([1], [2], [3]) } }) (modeS 1 3)
/-- JOIN's bytes. -/
def joinB : Bytes := List.replicate 32 6 ++ leBytes 8 5 ++ List.replicate 16 9
/-- A JOIN of port 5 that names a session identifier of `c`s is received, and its port is found. -/
def joinFor (s : State) (ty : Nat) (f : Bytes → Bool) : Bool :=
  someAnd (s.takeCtl 2 ty) fun x => decide (x.2.heard (s.session 17).ident (slice x.1 48 16) = some 5) && f (slice x.1 8 32)

theorem witness_SessionsOpenRekeyAndEnd :
    (∀ q < 16, ∀ n ∈ (openingS.port q).setup.entry, n < 256) ∧
    (someAnd (openingS.takeCtl 2 0) (fun _ => true) = true ∧ (openingS.port 2).setup.hello = some keyP ∧
      (openingS.port 2).setup.entry = some 30 ∧ (openingS.port 2).setup.keys = some ([1], [2], [3]) ∧ openingS.portState 2 = 3 ∧
      (openingS.port 2).setup.stage = 3 ∧ openingS.entryOf keyP.1 2 = none) ∧
    (linkS 4 stateK).takeCtl 2 0 = none ∧ (linkS 4 stateK).portState 2 ≠ 7 ∧
    ((stateK.setF Reg.PEER_ENTRY_STATE 17 0 3).peerState 17 = 3 ∧ stateK.peerState 17 ≠ 3) ∧
    ((linkS 4 stateK).portPeer 2 = some 17 ∧ (thirdS (linkS 7 stateK)).portPeer 2 = some 17 ∧ (thirdS (linkS 7 stateK)).portState 2 = 7 ∧
      ((thirdS (linkS 7 stateK)).port 2).retry = [] ∧ (∀ l ∈ ((thirdS (linkS 7 stateK)).port 2).tx, l = []) ∧
      5 ∈ (thirdS (linkS 7 stateK)).peerPorts 17 ∧ (thirdS (linkS 7 stateK)).portState 5 = 4) ∧
    (let s := opS fun x => { x with seq := 2 ^ 31 }
     2 ^ 31 ≤ (s.port 2).seq ∧ (s.session 17).rekey = false ∧ ((rkS s).session 17).rekey = true) ∧
    ((linkS 4 stateK).port 2).seq < 2 ^ 31 ∧
    (let s := ctlS 1 (leBytes 4 1)
     someAnd (s.takeCtl 2 1) (fun x => rd x.1 8 4 = 0 + 1) = true ∧ (s.session 17).rxKeys = (0, List.replicate 32 2) :: []) ∧
    someAnd ((ctlS 1 (leBytes 4 7)).takeCtl 2 1) (fun x => rd x.1 8 4 ≠ 0 + 1) = true ∧
    (let s := rkS (ctlS 2 (leBytes 4 1))
     someAnd (s.takeCtl 2 2) (fun x => rd x.1 8 4 = 0 + 1) = true ∧ (s.session 17).txKeys = (0, List.replicate 32 1) :: [] ∧
       (s.session 17).rekey = true) ∧
    ((ctlS 2 (leBytes 4 1)).session 17).rekey = false ∧
    (joinFor (secondS (ctlS 3 joinB)) 3 (fun b => b == fit 32 (List.replicate 32 6)) = true ∧
      joinFor (secondS (ctlS 4 joinB)) 4 (fun b => b == fit 32 (List.replicate 32 6)) = true ∧
      joinFor (secondS (ctlS 3 (List.replicate 32 1 ++ leBytes 8 5 ++ List.replicate 16 9))) 3 (fun b => b != fit 32 (List.replicate 32 6)) = true ∧
      fit 32 ((linkS 4 stateK).session 17).sid = List.replicate 32 6) ∧
    2 ^ 32 - 1 ≤ ((opS fun x => { x with seq := 2 ^ 32 - 1 }).port 2).seq ∧
    (16 ≤ (((linkS 4 stateK).updSession 17 fun x => { x with tagFails := 16 }).session 17).tagFails ∧
      ((linkS 4 stateK).session 17).tagFails < 16) ∧
    someAnd ((ctlS 5 []).takeCtl 2 5) (fun _ => true) = true := by decide +kernel

/-! ## Witnesses: collectives -/

def grpA : Group :=
  { ctx := 5, num := 3, gtag := 99, members := [none, some 17], digest := List.replicate 64 4, hellos := [], ready := true, broken := false, k := 7 }
def grpS (g : Group) (s : State) : State := { s with link := { s.link with groups := [g] } }
/-- COLL_GROUP at queue 10, with a member list in memory. -/
def cgS (w0 : Nat) (ws l : List Nat) : State :=
  withCmds [cmdW (0x14 + 5 * 2 ^ 16) ([0, 0, 0, 0, 0, 0, 0] ++ (w0 :: ws))] (putMem 0x90000 (l.flatMap fun e => leBytes 2 e) (linkS 4 stateK))
def collA : Coll :=
  { tile := 1, ep := 4, part := 3, gtag := 99, k := 7, words := [1 * 8 + 3 * 2048, 16, 9 * 2 ^ 52, 9 * 2 ^ 52 + 0x100], src := (0, 0), dst := 0, running := false, input := [], loaded := false, slice := [], got0 := [], got1 := [], els := [], raw := [], sat := false, nan := false, reduced := false }
def withC (l : List Coll) (s : State) : State := { s with link := { s.link with colls := l } }
/-- A COLLECTIVE request of tile 1. -/
def reqS (w : List Nat) : State := netS [net1 (.request 3) 1 0 6 (w.map (BitVec.ofNat 64))] (linkS 4 stateK)
/-- A look that goes on with a member list that is read. -/
def listAnd (s : State) (f : State → Bytes → Bool) : Bool :=
  goAnd (s.lookStart 10 0x14) fun v c => decide (v.boundPart (v.qCtx 10) ≠ none) && okAnd (v.hubRead (c.o 2) 4) f
def entries (b : Bytes) : List Nat := (List.range 2).map fun i => rd b (2 * i) 2
/-- A collective message that is taken, and the group and the rest. -/
def collAnd (s : State) (ty : Nat) (f : State → LinkMsg → Group → Bool) : Bool :=
  someAnd (s.takeMsg 2 ty) fun x => someAnd (x.2.groupTag x.1.tag) fun g => f x.2 x.1 g
def dataS (k : Nat) (s : State) : State := msgS (msgOf 0x01 99 (k + 2 ^ 32) 0 (zeros 64)) s
/-- A request of four words, and the refusals of its ranges. -/
def reqAnd (s : State) (f : State → Group → List Nat → Nat → Nat → Bool) : Bool :=
  someAnd (s.takeRequest 1 3) fun x =>
    let w := (List.range 4).map fun j => (x.1.words.getD j 0).toNat
    let w0 := w.getD 0 0
    someAnd (x.2.groupOf (x.2.part 3).ctx (bitsOf w0 14 11)) fun g =>
      let c : Coll := { collA with words := w }
      f x.2 g w (if bit w0 15 then 0 else x.2.rangeCode 3 false (w.getD 2 0) (vBytes c.fmt c.count))
        (if bit w0 16 then 0 else x.2.rangeCode 3 true (w.getD 3 0) (vBytes c.outFmt (c.outCount g.members.length)))
def w0A : Nat := 8 + 3 * 2048

theorem witness_CollectiveGroupsAndRequests :
    (let s := cgS (3 + 2 * 16) [99, 0x90000] [0x8000, 17]
     goAnd (s.lookStart 10 0x14) (fun v c => decide (v.boundPart (v.qCtx 10) ≠ none ∧ v.groupOf (v.qCtx 10) (c.o 0 % 16) = none ∧
       c.o 0 < 2 ^ 14 ∧ 2 ≤ bitsOf (c.o 0) 12 4 ∧ bitsOf (c.o 0) 12 4 ≤ 256 ∧ c.o 2 < 2 ^ 63) && aligned (c.o 2) 64) = true ∧
     s.groupCmd 10 false = true ∧ listAnd s (fun w b => w.listOk (entries b)) = true) ∧
    listAnd (cgS (3 + 2 * 16) [99, 0x90000] [0x8000, 18]) (fun w b => !w.listOk (entries b)) = true ∧
    goAnd ((cgS (3 + 2 * 16) [99, 2 ^ 62] []).lookStart 10 0x14) (fun v c => errOf (v.hubRead (c.o 2) 4) != 0 && decide (c.o 2 < 2 ^ 63)) = true ∧
    goAnd ((cgS (3 + 1 * 16) [99, 0x90000] []).lookStart 10 0x14) (fun _ c => decide (bitsOf (c.o 0) 12 4 < 2)) = true ∧
    (let s := cgS (3 + 2 ^ 13) [] []
     s.groupCmd 10 true = true ∧ goAnd (s.lookStart 10 0x14) (fun v c => decide (v.boundPart (v.qCtx 10) ≠ none ∧
       v.groupOf (v.qCtx 10) (c.o 0 % 16) = none ∧ c.o 0 / 16 = 2 ^ 9 ∧ c.o 1 = 0 ∧ c.o 2 = 0)) = true) ∧
    goAnd ((withC [collA] (grpS grpA (cgS (3 + 2 ^ 13) [] []))).lookStart 10 0x14) (fun v c =>
      someAnd (v.groupOf (v.qCtx 10) (c.o 0 % 16)) fun g => !g.broken && v.link.colls.any fun x => x.gtag == g.gtag) = true ∧
    (let s := msgS (msgOf 0x02 99 5 0 []) (linkS 4 stateK)
     s.portPeer 2 = some 17 ∧ someAnd (s.takeMsg 2 2) (fun x => (x.2.groupTag x.1.tag).isNone) = true) ∧
    (let g : Group := { grpA with ready := false }
     collAnd (grpS g (msgS (msgOf 0x02 99 (rd g.digest 0 8) 0 []) (linkS 4 stateK))) 2
       (fun _ m h => decide (h.ranksOf 17 ≠ [] ∧ m.arg0 = rd h.digest 0 8)) = true ∧
     collAnd (grpS g (msgS (msgOf 0x02 99 5 0 []) (linkS 4 stateK))) 2
       (fun _ m h => decide (h.ranksOf 17 ≠ [] ∧ m.arg0 ≠ rd h.digest 0 8)) = true ∧ g.ranksOf 3 = []) ∧
    (collAnd (grpS grpA (msgS (msgOf 0x03 99 (0x405 + 2 ^ 16) 0 []) (linkS 4 stateK))) 3
       (fun v m g => g.members[bitsOf m.arg0 23 16]? == some (some 17) && v.link.colls.isEmpty) = true ∧
     collAnd (grpS grpA (msgS (msgOf 0x03 99 0x405 0 []) (linkS 4 stateK))) 3
       (fun _ m g => g.members[bitsOf m.arg0 23 16]? != some (some 17)) = true) ∧
    (∀ d ∈ [(7, true), (5, false)], collAnd (grpS grpA (dataS d.1 (linkS 4 stateK))) 1 (fun v m g =>
       !g.broken && g.members[bitsOf m.arg0 39 32]? == some (some 17) && v.link.colls.isEmpty && v.link.waiting.isEmpty &&
         (decide ((m.arg0 % 2 ^ 32 + 2 ^ 32 - g.k % 2 ^ 32) % 2 ^ 32 < 2 ^ 31) == d.2)) = true) ∧
    (∀ r ∈ [false, true], collAnd (withC [{ collA with running := r, loaded := r, input := zeros 64 }] (grpS grpA (dataS 7 (linkS 4 stateK)))) 1
       (fun v m g => someAnd (v.link.colls.find? (fun c => c.gtag = g.gtag && c.k % 2 ^ 32 = m.arg0 % 2 ^ 32)) fun x =>
         x.running == r && x.loaded == r && decide ((v.takeColl x.tile m).link.waiting.length ≤ 0)) = true) ∧
    (let w := [w0A, 16, 9 * 2 ^ 52, 9 * 2 ^ 52 + 0x100]
     (reqS w).partOf 1 = some 3 ∧
     someAnd ((reqS w).takeRequest 1 3) (fun x => (x.2.groupOf (x.2.part 3).ctx 3).isNone) = true ∧
     reqAnd (grpS grpA (reqS w)) (fun _ g w r o => !g.broken && g.ready && collForm w g.members.length && r == 0 && o == 0 && !bit w0A 15) = true ∧
     reqAnd (grpS { grpA with broken := true } (reqS w)) (fun _ g _ _ _ => g.broken) = true ∧
     reqAnd (grpS { grpA with ready := false } (reqS w)) (fun _ g _ _ _ => !g.broken && !g.ready) = true) ∧
    reqAnd (grpS grpA (reqS [w0A, 16, 9 * 2 ^ 52 + 0xF0000, 9 * 2 ^ 52])) (fun _ _ _ r _ => r != 0) = true ∧
    reqAnd (grpS grpA (reqS [w0A, 16, 9 * 2 ^ 52, 9 * 2 ^ 52 + 0xF0000])) (fun _ _ _ r o => r == 0 && o != 0) = true ∧
    reqAnd (grpS grpA (reqS [w0A + 2 ^ 15, 16, 0, 9 * 2 ^ 52])) (fun v _ w r o =>
      r == 0 && o == 0 && bit (w.getD 0 0) 15 && (v.crossStreams 3 (bitsOf (w.getD 0 0) 22 17) false).isEmpty) = true ∧
    (let s := withC [collA] (grpS grpA (linkS 4 stateK))
     (s.link.colls.filter (·.running)).length < 64 ∧ s.link.colls.find? (fun c => !c.running) = some collA ∧
       bit (collA.words.getD 0 0) 15 = false ∧ s.collOf 1 = some collA ∧ s.groupTag collA.gtag = some grpA ∧
       (∃ m ∈ grpA.others, s.collSeen collA m.2 = false)) ∧
    okAnd ((linkS 4 stateK).readMem 3 0 ((linkS 4 stateK).part 3).uses (9 * 2 ^ 52) 64) (fun _ _ => true) = true ∧
    errOf ((linkS 4 stateK).readMem 3 0 ((linkS 4 stateK).part 3).uses (9 * 2 ^ 52 + 0xF0000) 64) ≠ 0 ∧
    (cgS 0 [] []).qHead 10 ≠ none := by decide +kernel

/-! ## Witnesses: gates and captures -/

/-- A manifest of owners 7 and 8, and of gate 2 of both with a way of combining. -/
def mfG (c : Nat) : Manifest := { owners := [⟨List.replicate 32 7, 3, 9⟩, ⟨List.replicate 32 8, 4, 10⟩], gates := [⟨2, c, 9, 3⟩], sigs := [], raw := [1, 2] }
def jobG (c k : Nat) : JobImage :=
  { jobK with plan := jobK.plan ++ [⟨0xF02, 0, k, 0, 0x100000, 0x3000⟩, ⟨0xF12, 0, k, 0, 0x110000, 0x3000⟩], manifest := some (mfG c) }
/-- Partitions 3 and 4 share gate 2 in partition 5, ARMED. -/
def gateS (c : Nat) : State :=
  let s : State := { stateK with frame := { frameK with gates := [(2, 5)], parts := [⟨3, 0, 1, 0, 0⟩, ⟨4, 2, 3, 0, 0⟩, ⟨5, 4, 4, 0, 0⟩], carve := frameK.carve ++ [⟨4, [1, 1, 0, 0, 0, 0, 0, 0], 4⟩] }, parts := [(3, { partK with image := jobG c 9 }), (4, { partK with image := jobG c 10, ctx := 6, owner := 8 })] }
  let s := s.updKey 10 fun _ => { state := .valid, owner := 8, gen := 1, users := 1, material := 999 }
  (s.setRights 5 ⟨2 ^ 9 + 2 ^ 10, 2 ^ 9 + 2 ^ 10, false, false⟩).setF Reg.GATE_g_STAT_STATE 2 0 1
/-- Bytes written by gate 2 with key `k`. -/
def putG (k a : Nat) (b : Bytes) (s : State) : State := (s.gateWrite 5 (k - 6) (k * 2 ^ 52 + a) b).1
/-- Gate 2 in a state. -/
def gateSt (n : Nat) (s : State) : State := s.setF Reg.GATE_g_STAT_STATE 2 0 n
def runS (r : GateRun) (s : State) : State := s.setGateRun 2 (some r)
/-- A header of owner 0. -/
def headS (n count fmt : Nat) : State := putG 9 0x100000 (words [n, count + fmt * 2 ^ 32, 0, 0, 0, 0, 0, 0]) (gateS 0)
/-- Payloads of both owners. -/
def bothS : State :=
  putG 9 0x101000 (leBytes 4 0x3F800000 ++ leBytes 4 0x40000000) (putG 10 0x101000 (leBytes 4 0x3F800000 ++ leBytes 4 0x40400000) (gateS 0))
def entryG : GateEntry := ⟨2, 0, 9, 3⟩
/-- Owner 0's header is read. -/
def headAnd (s : State) (f : State → Bytes → Nat → Bool) : Bool :=
  someAnd (s.regionAt 3 0xF02) fun x => okAnd (s.gateRead 5 3 x.2 64) fun v b => f v b x.1.size
def headGood (b : Bytes) (size : Nat) (heads : List (Nat × Nat × Nat)) : Bool :=
  headClean b && combineFmt 0 (rd b 12 1) && decide (4096 + payloadBytes (rd b 12 1) (rd b 8 4) ≤ size) && heads.all fun h => h.2 == (rd b 8 4, rd b 12 1)
/-- A step whose two headers agree. -/
def run2 (c : Option (Bytes × Nat × Bool × Bool)) : GateRun := ⟨3, [(0, 2, 1), (1, 2, 1)], c⟩
def capA : Capture :=
  { step := 4, gen := 0, uses := [], phase := 0, rng := [], tiles := 1, sectors := [], params := 0, stored := [], plain := [], root := List.replicate 64 3, record := [1, 2], holders := [.sending], agree := 0, answered := [], done := false, code := 0 }
/-- Partition 3 captures. -/
def capS (c : Capture) : State :=
  (partS { partK with capture := some c, handles := [77], image := { jobK with refl := ⟨1, false, 1, true⟩ } } stateK).setHolder 3 0 2 17
def zeroS (l : List (Option Nat)) (s : State) : State :=
  { s with link := { s.link with groups := [{ ctx := 5, num := 0, gtag := 99, members := l, digest := List.replicate 64 4, hellos := [], ready := true, broken := false, k := 0 }] } }

theorem witness_GatesAndCaptures_headers :
    (let s := headS 3 2 1
     s.gatePart 2 = some 5 ∧ s.gateManifest 2 = some (mfG 0) ∧ (mfG 0).entryOf 2 = some entryG ∧
       (mfG 0).owners[(0 : Fin 16).val]? = some ⟨List.replicate 32 7, 3, 9⟩ ∧ s.gateState 2 = 1 ∧ bit entryG.ownerMask 0 = true ∧
       headAnd s (fun v b n => rd b 0 8 == 3 && decide (v.getF Reg.GATE_g_STEP_L 2 0 < 3) && headGood b n [] && (v.gateRun 2).isNone) = true) ∧
    headAnd (headS 3 2 0) (fun _ b n => !headGood b n []) = true ∧ headAnd (headS 0 2 1) (fun _ b _ => rd b 0 8 == 0) = true ∧
    headAnd ((headS 3 2 1).setF Reg.GATE_g_STEP_L 2 0 3) (fun v b _ => decide (rd b 0 8 ≤ v.getF Reg.GATE_g_STEP_L 2 0)) = true ∧
    headAnd (runS ⟨3, [(1, 2, 1)], none⟩ (gateSt 2 (headS 3 2 1))) (fun v b n => v.gateState 2 == 2 && headGood b n [(1, 2, 1)] &&
      decide (∀ o ∈ (mfG 0).participants entryG, ∃ h ∈ [(1, 2, 1)] ++ [(0, 2, 1)], h.1 = o.1)) = true ∧
    headAnd (runS ⟨3, [(1, 3, 1)], none⟩ (gateSt 2 (headS 3 2 1))) (fun _ b n => !headGood b n [(1, 3, 1)]) = true ∧
    someAnd (((gateS 0).setRights 5 Rights.none).regionAt 3 0xF02) (fun x =>
      errOf (((gateS 0).setRights 5 Rights.none).gateRead 5 3 x.2 64) != 0) = true ∧
    (gateSt 3 (headS 3 2 1)).gateState 2 = 3 := by decide +kernel

theorem witness_GatesAndCaptures_results :
    (let s := runS ⟨3, [(1, 2, 1)], none⟩ (gateSt 2 (gateS 0))
     s.gateState 2 = 2 ∧ s.gateRun 2 = some ⟨3, [(1, 2, 1)], none⟩ ∧
       ((mfG 0).participants entryG).filter (fun o => [(1, 2, 1)].all fun h => h.1 ≠ o.1) = [(0, ⟨List.replicate 32 7, 3, 9⟩)]) ∧
    (((mfG 0).participants entryG).filter fun _ => true).length ≠ 1 ∧ (gateS 0).gateState 2 ≠ 2 ∧
    (let s := runS (run2 none) (gateSt 3 bothS)
     s.gateState 2 = 3 ∧ s.gateRun 2 = some (run2 none) ∧
       okAnd (s.payloads 5 2 ((mfG 0).participants entryG) (payloadBytes 1 2)) (fun _ _ => true) = true) ∧
    errOf ((runS (run2 none) (gateSt 3 (bothS.setRights 5 Rights.none))).payloads 5 2 ((mfG 0).participants entryG) (payloadBytes 1 2)) = 0 ∧
    okAnd ((runS (run2 none) (gateSt 3 (bothS.setRights 5 Rights.none))).payloads 5 2 ((mfG 0).participants entryG) (payloadBytes 1 2))
      (fun _ _ => true) = false ∧
    (let s := runS (run2 (some (zeros 8, 1, true, false))) (gateSt 4 bothS)
     s.gateState 2 = 4 ∧ s.gateRun 2 = some (run2 (some (zeros 8, 1, true, false))) ∧
       (s.releaseAll 5 2 4096 ((mfG 0).participants entryG) (zeros 8)).2 = none ∧
       (let v := (s.releaseAll 5 2 4096 ((mfG 0).participants entryG) (zeros 8)).1
        let w := v.releaseAll 5 2 0 ((mfG 0).participants entryG) (releaseHead 3 2 1 true false)
        w.2 = none ∧ w.1.gateRun 2 = some (run2 (some (zeros 8, 1, true, false))))) ∧
    ((runS (run2 none) (gateSt 4 (bothS.setRights 5 Rights.none))).releaseAll 5 2 4096 ((mfG 0).participants entryG) (zeros 8)).2 ≠ none := by
  decide +kernel

theorem witness_GatesAndCaptures_captures :
    ((capS capA).part 3).capture = some capA ∧ capA.phase = 0 ∧
    (let c : Capture := { capA with phase := 1 }
     ((capS c).part 3).capture = some c ∧ (∀ h ∈ c.holders, h = .sending) ∧ ∃ h ∈ c.holders, h ≠ .lost) ∧
    (let c : Capture := { capA with phase := 1, holders := [.lost] }
     ((capS c).part 3).capture = some c ∧ ∀ h ∈ c.holders, h = .lost) ∧
    (∀ l ∈ [[none, some 17, some 18], [none, some 17]], ∀ a ∈ [0, 1],
      let c : Capture := { capA with phase := 2, agree := a, answered := [0] }
      ((zeroS l (capS c)).part 3).capture = some c ∧ ((zeroS l (capS c)).groupZero 3).isSome = true ∧ 1 ∉ c.answered ∧ 1 < l.length) ∧
    ([0].length + 1 = ([none, some 17] : List (Option Nat)).length ∧ 2 * (0 + 0) ≤ ([none, some 17] : List (Option Nat)).length ∧ ([none, some 17] : List (Option Nat)).length < 2 * (1 + 1)) := by decide +kernel

/-! ## Witnesses: Reflection -/

def idA : Bytes := fit 16 [1, 2, 3]
/-- The image with a holding region and a number of mirrors. -/
def jobM (m : Nat) : JobImage := { jobK with plan := jobK.plan ++ [⟨0xFFD, 0, 9, 0, 0x200000, 0x800000⟩], refl := ⟨m, false, 1, false⟩ }
/-- Partition 3 with a capture, its handles and a restore. -/
def reflS (c : Option Capture) (h : List Nat) (r : Option Restore) : State :=
  linkS 4 ((partS { partK with image := jobM 2, capture := c, handles := h, restore := r } stateK).setHolder 3 0 2 17)
def mirA : Mirror :=
  { handle := 50, peer := 17, ident := List.replicate 32 5, id := idA, part := 3, size := 4096, slot0 := 0, slot1 := 0x200000, committed := none, rec0 := words [0, 4, 0, 0], rec1 := words [0, 5], ready := true, code := 0 }
def withM (l : List Mirror) : State := let s := reflS none [] none; { s with link := { s.link with mirrors := l, nextHandle := 60 } }
/-- A REFLECTION message received. -/
def reflM (op tag a1 : Nat) (b : Bytes) (s : State) : State := msgS (msgOf 0x11 tag op a1 b) s
/-- It is taken. -/
def reflAnd (s : State) (f : State → LinkMsg → Bool) : Bool :=
  decide ((s.skimRefl 2 4096).portPeer 2 = some 17) && someAnd ((s.skimRefl 2 4096).takeMsg 2 0x11) fun x => f x.2 x.1
def stageN (n : Nat) : Restore := { peer := 17, handle := 50, stage := n, record := [], data := [] }
def capQ (h : HoldStage) : State := reflS (some { capA with phase := 3, holders := [h] }) [77] none
/-- The mirror of that identifier. -/
def idOf (v : State) (m : LinkMsg) : Option Mirror := v.link.mirrors.find? fun x => x.id = fit 16 m.payload

/-- Where a holder places a slot is free, so which places `reserveSlots` answers has no witness; that it answers none does. -/
theorem witness_ReflectionMessages_mirrors :
    reflAnd (reflM 1 0 4096 idA (reflS none [] none)) (fun v m => m.arg0 % 256 == 1 && (idOf v m).isNone) = true ∧
    reflAnd (reflM 1 0 0x4000000 idA (reflS none [] none)) (fun v m => (idOf v m).isNone && (v.reserveSlots m.arg1).2.isNone) = true ∧
    reflAnd (reflM 1 0 4096 idA (withM [mirA])) (fun v m => decide (idOf v m = some mirA) && decide (roundUp m.arg1 2097152 ≤ roundUp mirA.size 2097152)) = true ∧
    reflAnd (reflM 1 0 0x300000 idA (withM [mirA])) (fun v m => decide (idOf v m = some mirA) && decide (roundUp mirA.size 2097152 < roundUp m.arg1 2097152)) = true ∧
    (∀ op ∈ [2, 3], reflAnd (reflM op 88 0 [] (capQ (.seeking [17]))) (fun v m => m.arg0 % 256 == op && decide (v.asker 17 = some (3, 0)) && decide (0 < (v.part 3).handles.length)) = true ∧
      reflAnd (reflM op 88 0 [] (reflS none [] none)) (fun v _ => (v.asker 17).isNone) = true) ∧
    (∀ op ∈ [4, 4 + 256, 6, 12], ∀ a ∈ [4, 9], reflAnd (reflM op 50 a (words [7, 8]) (withM [{ mirA with committed := some 0 }])) (fun v m =>
      m.arg0 % 256 == op % 256 && someAnd (v.mirrorOf 17 m.tag) fun x => x.ready && x.progress != 0 && decide (recStep x.rec1 ≠ 4 ∧ recStep x.rec1 ≠ 9)) = true) ∧
    reflAnd (reflM 6 50 4 [] (withM [mirA])) (fun v m => someAnd (v.mirrorOf 17 m.tag) fun x => x.ready && x.progress == 0 && recStep x.rec0 == m.arg1) = true ∧
    (reflAnd (reflM 8 0 0 idA (withM [mirA])) (fun v m => m.arg0 % 256 == 8 && v.link.mirrors.all fun x => x.committed.isNone) = true ∧
      reflAnd (reflM 8 0 0 idA (withM [{ mirA with committed := some 0 }])) (fun v m =>
        (v.link.mirrors.find? fun x => x.id = fit 16 m.payload && x.committed.isSome).isSome) = true) ∧
    (∀ b ∈ [zeros 64], ∀ a ∈ [0, 0x1FFFFF], someAnd ((msgS (msgOf 0x10 50 a 0 b) (withM [mirA])).takeMsg 2 0x10) (fun x =>
      decide (x.2.mirrorOf 17 x.1.tag = some mirA) && (decide (x.1.arg0 + x.1.payload.length ≤ roundUp mirA.size 2097152) == decide (a = 0))) = true) ∧
    (let v := withM [mirA]; (v.writeMem 33 4 [] (v.mirrorAddr mirA 0 0) (zeros 64)).2 = none ∧ v.portPeer 2 = some 17) := by decide +kernel

/-- Whether a record is good rests on an opaque digest. -/
theorem witness_ReflectionMessages_holders :
    (∀ x ∈ [(5, 0, HoldStage.preparing), (5, 7, .preparing), (5, 0, .sending), (7, 0, .preparing), (7, 0, .committing), (13, 0, .committing)],
      reflAnd (reflM (x.1 + x.2.1 * 2 ^ 32) 77 4 [] (capQ x.2.2)) (fun v m => m.arg0 % 256 == x.1 && bitsOf m.arg0 47 32 == x.2.1 &&
        decide (v.heldAs 17 m.tag = some (3, 0)) && decide (v.holdOf (3, 0) = x.2.2) &&
        someAnd (v.part 3).capture fun c => c.step == m.arg1) = true) ∧
    (∀ op ∈ [9, 9 + 256, 10], reflAnd (reflM op 50 0 (zeros 32) (reflS none [] (some (stageN 0)))) (fun v m => m.arg0 % 256 == op % 256 &&
      someAnd (v.restorer 17 [0]) (fun x => decide (x = (3, stageN 0))) && (v.restorer 17 [0, 1]).isSome &&
      bit m.arg0 8 == bit op 8) = true) ∧
    (∀ c ∈ [0, 0x205], reflAnd (reflM (11 + c * 2 ^ 32) 50 0 [] (reflS none [] (some (stageN 2)))) (fun v m => m.arg0 % 256 == 11 &&
      bitsOf m.arg0 47 32 == c && (v.restorer 17 [2]).isSome) = true) := by decide +kernel

theorem witness_ReflectionMessages_control :
    (capQ (.seeking [17])).holdOf (3, 0) = .seeking [17] ∧ (∀ tried ∈ [[], [17]], (capQ .sending).holdOf (3, 0) ≠ .seeking tried) ∧
    (let s := reflS none [] none
     s.hubUp = true ∧ s.getF Reg.REFL_STAT_BUSY 3 0 = 0 ∧ (s.setF Reg.REFL_STAT_BUSY 3 0 1).getF Reg.REFL_STAT_BUSY 3 0 = 1 ∧
       (s.part 3).loaded = true ∧ s.ctxBusy (s.part 3).ctx = false ∧ (s.part 3).image.refl.mirrors ≠ 0 ∧
       s.peerState (s.getF Reg.REFL_CTRL_PEER 3 0) ≠ 2 ∧ (s.setF Reg.REFL_CTRL_PEER 3 0 17).peerState 17 = 2 ∧
       (s.setF Reg.REFL_CTRL_PEER 3 0 17).getF Reg.REFL_CTRL_PEER 3 0 = 17) ∧
    (let s := withCmds [cmdW (0x03 + 5 * 2 ^ 16) []] (reflS none [] none); s.ctxBusy (s.part 3).ctx = true) ∧
    ((partS { partK with image := jobM 0 } stateK).part 3).image.refl.mirrors = 0 ∧
    (∀ n ∈ [0, 1, 3], ((reflS none [] (some (stageN n))).part 3).restore = some (stageN n)) := by decide +kernel

/-! ## Witnesses: loads, unloads and resets; the whole machine -/

/-- Partition 3's load at a phase. -/
def busyS (n : LoadBusy) : State := stateK.updPart 3 fun x => { x with busy := n }
/-- Partition 3's clusters being eclipsed. -/
def eclS (s : State) : State := s.updPart 3 fun x => { x with eclipse := true }
/-- The header of an image of 256 bytes, of a kind. -/
def headB (kind : Nat) : Bytes := [0x4D493445, 1 + kind * 2 ^ 16, 256].flatMap (leBytes 4) ++ zeros 244
/-- It lies where both loads look. -/
def imageS (kind : Nat) : State :=
  ((putMem 0x100000 (headB kind) stateK).setF Reg.JOB_LOAD_ADDR_ADDR 3 0 0x4000).set Reg.FRAME_LOAD_ADDR_ADDR 0x4000
/-- A tile halted with a cause, debug access granted to it or not. -/
def haltS (d : Bool) (cause : Nat) : State :=
  let s := stateK.setTile 1 { tileOn with halted := true, cause := cause, entry := 9 }
  { s with pilot := { s.pilot with token := if d then some ⟨4, 0, [], 5⟩ else none } }

/-- A load that finds its image sound rests on an opaque signature and has no witness. -/
theorem witness_LoadsUnloadsAndResets :
    (∀ r ∈ stateK.frame.parts, ∀ c ∈ r.clusters, c < 96) ∧ stateK.hubUp = true ∧
    ((stateK.part 3).busy = .idle ∧ ((busyS .unload).part 3).busy = .unload ∧ ((busyS (.load 0 0 0)).part 3).busy = .load 0 0 0 ∧
      ((busyS (.load 0x922 0xFF 3)).part 3).busy = .load 0x922 0xFF 3 ∧ (busyS .idle).hubUp = true) ∧
    ((busyS (.load 0 0 0)).partClusters 3).any (busyS (.load 0 0 0)).clusterFailed = false ∧
    (let s := (busyS (.load 0 0 0)).setF Reg.CLUSTER_FAIL_d_FAILED 0 0 1; (s.partClusters 3).any s.clusterFailed = true) ∧
    okAnd ((imageS 2).readImage 0x100000) (fun _ b => b == headB 2) = true ∧
    errOf (((imageS 2).updLine (0x100000 / 64) fun l => { l with poison := 0x0201 }).readImage 0x100000) ≠ 0 ∧
    ((stateK.part 3).loaded = true ∧ stateK.ctxBusy (stateK.part 3).ctx = false ∧ (stateK.part 4).loaded = false) ∧
    (let s := withCmds [cmdW (0x03 + 5 * 2 ^ 16) []] stateK; s.ctxBusy (s.part 3).ctx = true) ∧
    ((stateK.part 3).eclipse = false ∧ ((eclS stateK).part 3).eclipse = true ∧ ((eclS (busyS .unload)).part 3).busy = .unload ∧
      ((eclS (busyS .reset)).part 3).busy = .reset) ∧
    (stateK.get Reg.FRAME_LOAD_STAT_BUSY = 0 ∧ stateK.rect 3 ≠ none ∧ stateK.isGate 3 = false ∧ (gateS 0).isGate 5 = true ∧
      (gateS 0).rect 5 ≠ none ∧ (stateK.set Reg.FRAME_LOAD_STAT_BUSY 1).get Reg.FRAME_LOAD_STAT_BUSY = 1) ∧
    ((haltS true 4).pilot.debugTile = true ∧ ((haltS true 4).tile 1).halted = true ∧ ((haltS true 4).tile 1).cause = 4 ∧
      (haltS false 4).pilot.debugTile = false ∧ ((haltS true 2).tile 1).cause = 2) ∧
    ((imageS 2).set Reg.FRAME_LOAD_CTRL_PERSIST 1).checkContainer (headB 2) 1 (imageS 2).isOperator ≠ none ∧
    (∀ p < 32, ((stateK.set Reg.FRAME_LOAD_STAT_BUSY 1).part p).eclipse = false) ∧
    (State.reset.frame.parts = [] ∧ (∀ n < 256, State.reset.peerState n ≠ 2) ∧
      ∀ q < 16, State.reset.portMode q = FrameImage.builtin.portModes.getD q 0) := by decide +kernel

/-- Tile 2 done or not in a step of queue 10, tile 1 about to halt. -/
def sLast (done : Bool) (x : Tile) : State := (sStep []).setTile 1 x |>.updTile 2 fun y => { y with normalEnd := done }
/-- Partition 3 stopped, with a step that goes on or none. -/
def sFailed (r : Option StepRun) (failed : Bool) : State :=
  netS [net1 .report 1 0 0 []] (partS { partA with failed := failed, step := r } hub0)
/-- A group of a KIND with a good check sequence, its SEQ, ACK and credits 0. -/
def groupK (hdr : Nat) : Bytes := let b := leBytes 8 hdr ++ zeros 1048; b ++ leBytes 4 (crc32 b) ++ zeros 4
theorem witness_HaltsReportsAndGroupsComplete_halts :
    (∀ done ∈ [true, false], let s := sLast done tileCh
     s.partOf 1 = some 3 ∧ (s.part 3).step = some (stepRun 5) ∧ s.fab.net = [] ∧ s.link.colls = [] ∧ 2 ∈ s.codedTiles 3 ∧
       (s.tile 2).normalEnd = done ∧ (s.tile 2).tileStep ≠ some 5) ∧
    (∀ k ∈ (sLast true tileCh).codedTiles 3, k ≠ 1 → ((sLast true tileCh).tile k).normalEnd = true) := by decide +kernel

theorem witness_HaltsReportsAndGroupsComplete_waits :
    ((sLast true tileCh).canon ∧ (sLast true tileCh).issues 1 gdT) ∧ ((sLast false tileCh).canon ∧ (sLast false tileCh).issues 1 gdT) ∧
    ((onState tileQ).canon ∧ (onState tileQ).issues 1 gdT ∧ tileQ.cubeQ ≠ []) ∧
    (let x := { tileCh with wait := some .halt }
     (onState x).active 1 = true ∧ x.halted = false ∧ x.cubeQ = [] ∧ x.vecQ = [] ∧ x.movQ = []) := by
  simp only [State.issues, State.plain, State.canon]; decide +kernel

theorem witness_HaltsReportsAndGroupsComplete_report :
    hub0.fab.net.find? (fun m => (decide (m.kind = .report) && decide (m.srcTile = 1)) && !hub0.pathDown m.edges) = none ∧
    (∀ y ∈ [(none, false), (some (stepRun 5), true), (none, true)], let s := sFailed y.1 y.2
     s.fab.net.find? (fun m => (decide (m.kind = .report) && decide (m.srcTile = 1)) && !s.pathDown m.edges) =
       some (net1 .report 1 0 0 []) ∧ s.partOf 1 = some 3 ∧ (s.part 3).loaded = true ∧ (s.part 3).failed = y.2 ∧
       (s.part 3).step = y.1) := by decide +kernel

/-- Whether a sealed group opens rests on an opaque cipher; one of the two clauses on it holds. -/
theorem witness_HaltsReportsAndGroupsComplete_group :
    (∀ h ∈ [3 * 2 ^ 61, 2 * 2 ^ 61, 2 ^ 63, 0, 2 ^ 61], (groupK h).length = 1064 ∧ crc32 ((groupK h).take 1056) = rd (groupK h) 1056 4 ∧
      rd (groupK h) 0 8 = h ∧ rd (groupK h) 1060 4 = 0 ∧
      (linkS 4 stateK).epochsOf 2 h = [0]) ∧
    (let s := linkS 4 stateK
     s.portMode 2 = 1 ∧ s.portState 2 = 4 ∧ s.getF Reg.PORT_CTRL_LOOPBACK 2 0 ≠ 1 ∧ (s.port 2).drain = none ∧
       s.recvKeys 2 = some ([(0, List.replicate 32 2)], true) ∧ s.portPeer 2 = some 17 ∧
       (takeFlits (s.port 2).rx 0 (zeros 1024)).2 = false) ∧
    (let x := (heldS 1).port 2; x.retry = [⟨0, 0, zeros 1064, 0, []⟩]) := by decide +kernel

theorem witness_EveryStepKeepsTheForm :
    let s := { sOn with pending := [.add 1 gdT 5 5 5] }
    s.canon ∧ step s = .next (after (step s)) := by
  refine ⟨?_, rfl⟩
  simp only [State.canon]; decide +kernel

/-! ## The spec's own worked examples, and single steps -/

/-- The loop of 04_tile_core.md, "Worked example". -/
theorem test_words_of_the_worked_example :
    tileDecode 1 0x080A5001 = .addi 1 gdT 5 5 1 ∧ tileDecode 1 0x98005000 = .waite 1 gdT 5 0 ∧
    tileDecode 1 0x880CA000 = .mvi 1 gdT 6 10 0 false ∧ tileDecode 1 0x90006000 = .waitt 1 gdT 6 ∧
    tileDecode 1 0x800EA001 = .mxi 1 gdT 7 10 1 false ∧ tileDecode 1 0x90007000 = .waitt 1 gdT 7 ∧
    tileDecode 1 0x700A1880 = .send 1 gdT 5 3 1 0 false ∧ tileDecode 1 0x60000040 = .br 1 gdT 0x40 := by decide

/-- 00_scope.md, below R16: tile ID 0x4B7 has linear index 911 and cluster 11 of its die, die 2. -/
theorem test_tile_id_of_the_scope_example :
    tileOfId 0x4B7 = 911 ∧ tileId 911 = 0x4B7 ∧ tileCluster 911 = 2 * 24 + 11 ∧ tileDie 911 = 2 := by decide

/-- 02_fabric.md, "a stream across three dies": its two ends in global coordinates. -/
theorem test_global_coordinates_of_the_stream_example :
    tileAt 17 9 = 9 * 24 + 17 ∧ tileAt 29 21 = 3 * 384 + 5 * 24 + 5 ∧ tileX (3 * 384 + 5 * 24 + 5) = 29 ∧ tileY (3 * 384 + 5 * 24 + 5) = 21 := by
  decide

/-- 06_accumulation_and_numerics.md, "an epilogue to MXFP8": 1,000, 3.3 and -0.004 as their nearest FP32 values, and 6, with the
draws of the table; element 3 as the table and R147 encode it (log 45). -/
theorem test_mxfp8_run_of_the_epilogue_example :
    mxConv fE4M3 .stoch [(f32Val 0x447A0000, 0), (f32Val 0x40533333, 0x2A0000), (f32Val 0xBB83126F, 0x800000), (f32Val 0x40C00000, 5)] =
      (128, [0x7E, 0x3E, 0x81, 0x44], false) := by decide +kernel

/-- R91: ADD wraps at 64 bits, and DIVU by 0 gives all ones. -/
theorem test_add_wraps_and_divide_by_zero :
    ((after (exec (.add 1 gdT 5 6 6) sOn)).tile 1).getG 5 = 0x20 ∧
    ((after (exec (.divu 1 gdT 5 6 0) sOn)).tile 1).getG 5 = 0xFFFFFFFFFFFFFFFF := by decide +kernel

/-- R395: an error corrected in an on-die array counts in SRAM_ERR.CE. -/
theorem test_corrected_array_error_counts : (State.reset.strike 3 0 .sramCe).get Reg.SRAM_ERR_CE = 1 := by decide

/-- R93: a load at 0x20_0000 raises 0x0306, and the tile halts with cause 1 and that code. -/
theorem test_load_past_the_scratchpad_halts :
    let x := (after (exec (.ldd 1 gdT 5 8 0 false) (onState { tileOn with g := tileOn.g.set 8 0x200000 }))).tile 1
    x.halted = true ∧ x.cause = 1 ∧ x.code = 0x306 ∧ x.getG 5 = 0x77 := by decide +kernel

/-- A step takes the command at the front. -/
theorem test_command_leaves_the_queue :
    (after (step { sOn with pending := [.nop 1 gdT, .nop 1 gdT] })).pending = [.nop 1 gdT] := by decide +kernel

end Sys2Proof.Tests
end

section
/-!
PROOFS. Registers as software writes them, the MSI-X table, the mailbox, MCTP control messages and JTAG (00_scope.md R7 to R9,
R12; 14_host_attach.md R343, R347; 18_power_clocks_and_reset.md R445, R446; 19_lifecycle_firmware_debug.md R466).
-/

namespace Sys2Proof.Machine

/-! ## Requests on CXL.io (18_power_clocks_and_reset.md R445) -/

theorem cxlIo_of_not_readyOut {s : State} (h : s.readyOut = false) (f : State → State) :
    s.cxlIo f = s.emit .unsupported := by
  simp [State.cxlIo, h]

theorem readyOut_of_hubUp {s : State} (h : s.hubUp = true) : s.readyOut = true := by
  simp only [State.hubUp, Bool.and_eq_true] at h
  exact h.1

theorem cxlIo_of_hubUp {s : State} (h : s.hubUp = true) (f : State → State) : s.cxlIo f = f s := by
  simp [State.cxlIo, h, readyOut_of_hubUp h]

/-! ## Bits and tables -/

theorem ofBits_one (f : Nat → Bool) : ofBits 1 f = if f 0 then 1 else 0 := by
  simp [ofBits, List.range_succ]

theorem bit_toNat (v : Word) (i : Nat) : bit v.toNat i = v.getLsbD i := by
  simp only [bit, BitVec.getLsbD, Nat.testBit_eq_decide_div_mod_eq]

theorem bit_bitsOf_self (x i : Nat) : bit (bitsOf x i i) 0 = bit x i := by
  simp [bit, bitsOf]

theorem bitsOf_lt (x hi lo : Nat) : bitsOf x hi lo < 2 ^ (hi + 1 - lo) := Nat.mod_lt _ (by positivity)

/-- Each key of a written range reads as the value written there. -/
theorem smapGet_write_in {α : Type} [DecidableEq α] (d : α) (vs : List α) (m : List (Nat × α)) (k i : Nat)
    (h : i < vs.length) : smapGet d (smapWrite d m k vs) (k + i) = vs[i] := by
  induction vs generalizing m k i with
  | nil => exact absurd h (Nat.not_lt_zero i)
  | cons v vs ih =>
    cases i with
    | zero => exact (smapGet_write_other d d vs _ (k + 1) k (.inl (Nat.lt_succ_self k))).trans (smapGet_set_same d m k v)
    | succ i =>
      have := ih (smapSet d m k v) (k + 1) i (Nat.lt_of_succ_lt_succ h)
      rwa [Nat.add_right_comm] at this

/-- A range reads back as the list written to it. -/
theorem smapRead_write {α : Type} [DecidableEq α] (d : α) (m : List (Nat × α)) (k : Nat) (vs : List α) :
    smapRead d (smapWrite d m k vs) k vs.length = vs :=
  List.ext_getElem (by simp [smapRead]) fun i _ h => by simp [smapRead, smapGet_write_in d vs m k i h]

/-! ## A write of one word of BAR0 under the access codes (00_scope.md R7, R12) -/

/-- The key in the register file of a copy of a field. -/
def copyKey (x : Fld × Nat × Nat) : Nat := x.1.key x.2.1 x.2.2

/-- An open field, one that is not of an Ethernet ring, takes its part of a word in every state. -/
theorem writeFld_open (s : State) (locked : Bool) (w : Nat) {x : Fld × Nat × Nat} (h : ethFields.contains x.1 = false) :
    s.writeFld locked w x =
      s.setF x.1 x.2.1 x.2.2 (x.1.written locked (s.getF x.1 x.2.1 x.2.2) (bitsOf w x.1.hi x.1.lo)) := by
  simp only [State.writeFld, State.shut, h, Bool.false_and, Bool.false_eq_true, if_false]

/-- A write of one field changes only the register file. -/
theorem writeFld_frame (s : State) (locked : Bool) (w : Nat) (x : Fld × Nat × Nat) :
    s.writeFld locked w x = { s with regs := (s.writeFld locked w x).regs } := by
  unfold State.writeFld
  split <;> rfl

/-- A write of one field keeps every other key of the register file. -/
theorem writeFld_other_key (s : State) (locked : Bool) (w d : Nat) {x : Fld × Nat × Nat} {k : Nat} (h : k ≠ copyKey x) :
    smapGet d (s.writeFld locked w x).regs k = smapGet d s.regs k := by
  unfold State.writeFld
  split
  · rfl
  · exact smapGet_set_other _ _ _ _ _ _ h

/-- A register file put over a state that differs in it alone. -/
theorem with_regs_of_frame {s t : State} (h : t = { s with regs := t.regs }) (r : List (Nat × Nat)) :
    { t with regs := r } = { s with regs := r } := by
  rw [h]

/-- Writes of a list of fields change only the register file. -/
theorem writeFlds_frame (l : List (Fld × Nat × Nat)) (s : State) (locked : Bool) (w : Nat) :
    l.foldl (fun s x => s.writeFld locked w x) s =
      { s with regs := (l.foldl (fun s x => s.writeFld locked w x) s).regs } := by
  induction l generalizing s with
  | nil => rfl
  | cons x l ih => exact (ih _).trans (with_regs_of_frame (writeFld_frame s locked w x) _)

/-- Writes of a list of fields keep every key that is none of theirs. -/
theorem writeFlds_other_key (l : List (Fld × Nat × Nat)) (s : State) (locked : Bool) (w d : Nat) {k : Nat}
    (h : k ∉ l.map copyKey) :
    smapGet d (l.foldl (fun s x => s.writeFld locked w x) s).regs k = smapGet d s.regs k := by
  induction l generalizing s with
  | nil => rfl
  | cons x l ih =>
    rw [List.map_cons, List.mem_cons, not_or] at h
    rw [List.foldl_cons, ih _ h.2, writeFld_other_key s locked w d h.1]

/-- Where open fields have keys of their own, each takes its own part of the word. -/
theorem writeFlds_mem (l : List (Fld × Nat × Nat)) (s : State) (locked : Bool) (w : Nat)
    {x : Fld × Nat × Nat} (hx : x ∈ l) (hk : (l.map copyKey).Nodup) (ho : ∀ y ∈ l, ethFields.contains y.1 = false) :
    (l.foldl (fun s x => s.writeFld locked w x) s).getF x.1 x.2.1 x.2.2 =
      x.1.written locked (s.getF x.1 x.2.1 x.2.2) (bitsOf w x.1.hi x.1.lo) % 2 ^ x.1.width := by
  induction l generalizing s with
  | nil => exact absurd hx List.not_mem_nil
  | cons y l ih =>
    rw [List.map_cons, List.nodup_cons] at hk
    rw [List.foldl_cons]
    rcases List.mem_cons.1 hx with rfl | hl
    · have rest_keeps := writeFlds_other_key l (s.writeFld locked w x) locked w (x.1.resetVal x.2.1 x.2.2) hk.1
      exact rest_keeps.trans (by rw [writeFld_open s locked w (ho x hx)]; exact getF_setF_same ..)
    · have first_keeps : (s.writeFld locked w y).getF x.1 x.2.1 x.2.2 = s.getF x.1 x.2.1 x.2.2 :=
        writeFld_other_key s locked w _ fun e => hk.1 (e ▸ List.mem_map_of_mem hl)
      rw [ih _ hl hk.2 fun z hz => ho z (List.mem_cons_of_mem _ hz), first_keeps]

/-- A register at which a write does nothing but give each field its part under its access code: it lies outside the request
buffer, the MSI-X table and the tile windows, clears no counters, starts nothing, and its fields are open with keys of their
own. -/
def PlainRegister (off : Nat) : Prop :=
  (off < 0x11000 ∨ 0x12000 ≤ off ∧ off < 0x30000) ∧
  (∀ x ∈ regAt off, clearsAll x.1 = [] ∧ clearsCopy x.1 = []) ∧
  (off ∉ [Reg.KEY_CMD_OP.base, Reg.OWNER_CMD_OP.base, Reg.OBJ_CMD_OP.base, Reg.CLUSTER_CTRL_DARK_UNBOUND.base] ∧
    Reg.JOB_LOAD_CTRL_GO.copyAt off = none ∧ Reg.Q_CTRL_STOP.copyAt off = none) ∧
  ((regAt off).map copyKey).Nodup ∧ ∀ x ∈ regAt off, ethFields.contains x.1 = false

theorem clearWord_of_no_clear (s : State) (off w : Nat)
    (h : ∀ x ∈ regAt off, clearsAll x.1 = [] ∧ clearsCopy x.1 = []) : s.clearWord off w = s := by
  unfold State.clearWord
  generalize regAt off = l at h
  induction l with
  | nil => rfl
  | cons x l ih =>
    obtain ⟨hall, hcopy⟩ := h x List.mem_cons_self
    have clears_nothing : s.cntClear x.1 x.2.1 = s := by
      simp [State.cntClear, State.clearAll, State.clearCopy, hall, hcopy]
    rw [List.foldl_cons, clears_nothing, ite_self]
    exact ih fun y hy => h y (List.mem_cons_of_mem _ hy)

theorem writeEffect_of_none (s : State) (off w : Nat)
    (h : off ∉ [Reg.KEY_CMD_OP.base, Reg.OWNER_CMD_OP.base, Reg.OBJ_CMD_OP.base, Reg.CLUSTER_CTRL_DARK_UNBOUND.base])
    (hjob : Reg.JOB_LOAD_CTRL_GO.copyAt off = none) (hq : Reg.Q_CTRL_STOP.copyAt off = none) : s.writeEffect off w = s := by
  simp only [List.mem_cons, List.not_mem_nil, or_false, not_or] at h
  obtain ⟨hkey, howner, hobj, hdark⟩ := h
  simp only [State.writeEffect, if_neg hkey, if_neg howner, if_neg hobj, if_neg hdark, hjob, hq]

theorem windowOf_below {off : Nat} (h : off < 0x1000000) : windowOf off = none := by
  simp [windowOf, Nat.not_le.2 h]

theorem exec_registerWrite (t : RegTarget) (v : Word) (s : State) :
    exec (.registerWrite t v) s = execRegisterWrite t v s := rfl

theorem exec_registerWrite_of_not_readyOut {s : State} (h : s.readyOut = false) (k : Fin 8388608) (v : Word) :
    exec (.registerWrite (.bar0 k) v) s = .next (s.emit .unsupported) := by
  simp only [exec_registerWrite, execRegisterWrite, cxlIo_of_not_readyOut h]

/-- A write of a plain register is a write of its word. -/
theorem exec_registerWrite_plain {s : State} (hup : s.hubUp = true) (k : Fin 8388608) (v : Word)
    (hp : PlainRegister (8 * k.val)) :
    exec (.registerWrite (.bar0 k) v) s = .next (s.writeWord (8 * k.val) v.toNat) := by
  obtain ⟨hplace, hclear, ⟨hoff, hjob, hq⟩, -, -⟩ := hp
  have not_msix : (0x30000 ≤ 8 * k.val && 8 * k.val < 0x38000) = false := by simp; omega
  have not_buffer : (0x11000 ≤ 8 * k.val && 8 * k.val < 0x12000) = false := by simp; omega
  simp only [exec_registerWrite, execRegisterWrite, cxlIo_of_hubUp hup, not_msix, not_buffer,
    windowOf_below (show 8 * k.val < 0x1000000 by omega), clearWord_of_no_clear s _ _ hclear,
    writeEffect_of_none _ _ _ hoff hjob hq, Bool.false_eq_true, if_false]

theorem writeWord_frame (s : State) (off w : Nat) : s.writeWord off w = { s with regs := (s.writeWord off w).regs } :=
  writeFlds_frame ..

theorem writeWord_other_key (s : State) (off w d : Nat) {k : Nat} (h : k ∉ (regAt off).map copyKey) :
    smapGet d (s.writeWord off w).regs k = smapGet d s.regs k :=
  writeFlds_other_key _ _ _ _ _ h

/-- A field with one copy, after a write of its plain register. -/
theorem get_writeWord (s : State) {off : Nat} (w : Nat) {f : Fld} (hp : PlainRegister off) (hf : (f, 0, 0) ∈ regAt off) :
    (s.writeWord off w).get f =
      f.written (s.get Reg.CTX_TABLE_LOCK = 1) (s.get f) (bitsOf w f.hi f.lo) % 2 ^ f.width := by
  obtain ⟨-, -, -, hkeys, hopen⟩ := hp
  exact writeFlds_mem (regAt off) s _ w hf hkeys hopen

/-! ## The access codes -/

theorem written_ro {f : Fld} (h : f.access = .ro) (locked : Bool) (old v : Nat) : f.written locked old v = old := by
  simp [Fld.written, h]

theorem written_rw {f : Fld} (h : f.access = .rw) (locked : Bool) (old v : Nat) :
    f.written locked old v = if f.takes v then v else old := by
  simp [Fld.written, h]

/-- A write of 1 clears a W1C bit. -/
theorem written_w1c_bit {f : Fld} (ha : f.access = .w1c) (hw : f.width = 1) (locked : Bool) (old v : Nat) :
    f.written locked old v = if bit v 0 then 0 else old % 2 := by
  have hold : (if bit old 0 then 1 else 0) = old % 2 := by
    rcases Nat.mod_two_eq_zero_or_one old with h | h <;> simp [bit, h]
  rw [← hold]
  simp only [Fld.written, ha, hw, ofBits_one]
  cases bit old 0 <;> cases bit v 0 <;> rfl

/-! ## PWR_EVENT, PWR_ALERT_EN, PWR_LIMIT and TIME_SCLK (18_power_clocks_and_reset.md R447) -/

theorem plain_PWR_EVENT : PlainRegister 0x20008 := by unfold PlainRegister; decide +kernel
theorem plain_PWR_ALERT_EN : PlainRegister 0x20010 := by unfold PlainRegister; decide +kernel
theorem plain_PWR_LIMIT : PlainRegister 0x20018 := by unfold PlainRegister; decide +kernel
theorem plain_TIME_SCLK : PlainRegister 0x20100 := by unfold PlainRegister; decide +kernel

/-- The bits of PWR_EVENT. -/
def powerEvents : List Fld :=
  [Reg.PWR_EVENT_SWITCH, Reg.PWR_EVENT_FEED_WARN, Reg.PWR_EVENT_FEED_FAIL, Reg.PWR_EVENT_BOTH_LOST, Reg.PWR_EVENT_LIMIT,
   Reg.PWR_EVENT_THERM, Reg.PWR_EVENT_CALIB_STALE, Reg.PWR_EVENT_REFCLK_LOSS, Reg.PWR_EVENT_HUB_WDOG]

theorem powerEvents_are_w1c_bits : ∀ f ∈ powerEvents,
    (f, 0, 0) ∈ regAt 0x20008 ∧ f.access = .w1c ∧ f.width = 1 ∧ f.hi = f.lo := by decide +kernel

/-- PWR_EVENT is W1C. -/
theorem get_writeWord_powerEvent (s : State) (v : Word) {f : Fld} (hf : f ∈ powerEvents) :
    (s.writeWord 0x20008 v.toNat).get f = if v.getLsbD f.lo = true then 0 else s.get f % 2 := by
  obtain ⟨hreg, hw1c, hwidth, hhi⟩ := powerEvents_are_w1c_bits f hf
  rw [get_writeWord s _ plain_PWR_EVENT hreg, written_w1c_bit hw1c hwidth, hhi, bit_bitsOf_self, bit_toNat, hwidth]
  split <;> simp

/-- PWR_ALERT_EN is RW. -/
theorem get_writeWord_PWR_ALERT_EN (s : State) (w : Nat) :
    (s.writeWord 0x20010 w).get Reg.PWR_ALERT_EN_EN = bitsOf w Reg.PWR_ALERT_EN_EN.hi Reg.PWR_ALERT_EN_EN.lo := by
  have takes_all (v : Nat) : Reg.PWR_ALERT_EN_EN.takes v = true := rfl
  rw [get_writeWord s w plain_PWR_ALERT_EN (by decide +kernel), written_rw rfl, takes_all, if_pos rfl]
  exact Nat.mod_eq_of_lt (bitsOf_lt ..)

/-- PWR_LIMIT takes a value of its range and leaves the field unchanged for another. -/
theorem get_writeWord_PWR_LIMIT (s : State) (w : Nat) :
    let x := bitsOf w Reg.PWR_LIMIT_SUST_W.hi Reg.PWR_LIMIT_SUST_W.lo
    (s.writeWord 0x20018 w).get Reg.PWR_LIMIT_SUST_W =
      if 1000 ≤ x ∧ x ≤ 2800 then x else s.get Reg.PWR_LIMIT_SUST_W % 2 ^ Reg.PWR_LIMIT_SUST_W.width := by
  intro x
  have takes_range : Reg.PWR_LIMIT_SUST_W.takes x = (decide (1000 ≤ x) && decide (x ≤ 2800)) := rfl
  rw [get_writeWord s w plain_PWR_LIMIT (by decide +kernel), written_rw rfl, takes_range, ← Bool.decide_and]
  simp only [decide_eq_true_eq]
  split
  · exact Nat.mod_eq_of_lt (bitsOf_lt ..)
  · rfl

/-- TIME_SCLK is RO. -/
theorem get_writeWord_TIME_SCLK (s : State) (w : Nat) (h : s.get Reg.TIME_SCLK_COUNT < 2 ^ 64) :
    (s.writeWord 0x20100 w).get Reg.TIME_SCLK_COUNT = s.get Reg.TIME_SCLK_COUNT := by
  rw [get_writeWord s w plain_TIME_SCLK (by decide +kernel), written_ro rfl]
  exact Nat.mod_eq_of_lt h

theorem keys_of_TIME_SCLK : (regAt 0x20100).map copyKey = [Reg.TIME_SCLK_COUNT.key 0 0] := by decide +kernel

/-! ## The MSI-X table (14_host_attach.md R343, R344) -/

/-- Messages that go out leave the table. -/
@[simp] theorem flushMsix_msix (s : State) : s.flushMsix.hub.msix = s.hub.msix := by
  unfold State.flushMsix
  generalize bitList 2048 s.hub.pba = l
  induction l generalizing s with
  | nil => rfl
  | cons v l ih =>
    rw [List.foldl_cons, ih]
    split <;> rfl

theorem exec_registerWrite_msix {s : State} (hup : s.hubUp = true) (i : Fin 2048) (high : Bool) (k : Fin 8388608) (v : Word)
    (hk : 8 * k.val = 0x30000 + 16 * i.val + if high then 8 else 0) :
    exec (.registerWrite (.bar0 k) v) s = .next (s.writeMsix i.val high v) := by
  have in_table : (0x30000 ≤ 8 * k.val && 8 * k.val < 0x38000) = true := by
    simp only [Bool.and_eq_true, decide_eq_true_eq]; split at hk <;> omega
  have entry : (8 * k.val - 0x30000) / 16 = i.val := by split at hk <;> omega
  have half : decide (8 * k.val % 16 = 8) = high := by
    cases high <;> simp at hk ⊢ <;> omega
  simp only [exec_registerWrite, execRegisterWrite, cxlIo_of_hubUp hup, in_table, if_true, entry, half]

/-- A write of 8 bytes of an entry gives it its address, or its data and mask. -/
theorem msix_writeMsix (s : State) (i : Nat) (high : Bool) (v : Word) :
    let old := smapGet MsixEntry.reset s.hub.msix i
    smapGet MsixEntry.reset (s.writeMsix i high v).hub.msix i =
      if high then { old with data := v.setWidth 32, masked := v.getLsbD 32 } else { old with addr := v } := by
  simp only [State.writeMsix, flushMsix_msix, smapGet_set_same]

/-! ## The mailbox (14_host_attach.md R347) -/

theorem exec_registerWrite_reqBuf {s : State} (hup : s.hubUp = true) (k : Fin 8388608) (v : Word)
    (hlo : 0x11000 ≤ 8 * k.val) (hhi : 8 * k.val < 0x12000) :
    exec (.registerWrite (.bar0 k) v) s = .next (s.updMbox fun m =>
      { m with reqBuf := smapWrite 0 m.reqBuf (8 * k.val - 0x11000) (leBytes 8 v.toNat) }) := by
  have not_msix : (0x30000 ≤ 8 * k.val && 8 * k.val < 0x38000) = false := by simp; omega
  simp only [exec_registerWrite, execRegisterWrite, cxlIo_of_hubUp hup, not_msix, hlo, hhi, decide_true, Bool.and_self,
    Bool.false_eq_true, if_false, if_true]

theorem rd_first_byte {b : Bytes} {x : Byte} (h : b.head? = some x) : rd b 0 1 = x.toNat := by
  obtain ⟨l, rfl⟩ := List.head?_eq_some_iff.1 h
  simp [rd, slice, leNat]

theorem isEmpty_of_first_byte {b : Bytes} {x : Byte} (h : b.head? = some x) : b.isEmpty = false := by
  obtain ⟨l, rfl⟩ := List.head?_eq_some_iff.1 h
  rfl

/-- The message types that the mailbox serves, as the model and the statement name them. -/
theorem served_type_iff {b : Bytes} (hb : b ≠ []) :
    b.head? ∈ [some (0x00 : Byte), some 0x05, some 0x7E] ↔ rd b 0 1 = 0x00 ∨ rd b 0 1 = 0x05 ∨ rd b 0 1 = 0x7E := by
  obtain ⟨x, l, rfl⟩ := List.exists_cons_of_ne_nil hb
  rw [rd_first_byte rfl]
  simp [← BitVec.toNat_inj]

/-- The request that lies in the request buffer: its first `n` bytes. -/
def State.mboxRequest (s : State) (n : Nat) : Bytes := smapRead 0 s.pilot.mbox.reqBuf 0 n

/-- Does a request of `n` bytes go to the Pilot island: a length of 1 to 4096 and a served type? -/
def State.mboxServes (s : State) (n : Nat) : Bool :=
  let ty := rd (s.mboxRequest n) 0 1
  !(n = 0 || 4096 < n || !(ty = 0x00 || ty = 0x05 || ty = 0x7E))

theorem mboxServes_iff (s : State) (n : Nat) : s.mboxServes n = true ↔
    0 < n ∧ n ≤ 4096 ∧ (s.mboxRequest n).head? ∈ [some (0x00 : Byte), some 0x05, some 0x7E] := by
  rcases Nat.eq_zero_or_pos n with rfl | hn
  · simp [State.mboxServes]
  · have hne : s.mboxRequest n ≠ [] := by simp [State.mboxRequest, smapRead]; omega
    rw [served_type_iff hne]
    simp only [State.mboxServes, Bool.not_eq_true', Bool.or_eq_false_iff, Bool.not_eq_false', Bool.or_eq_true,
      decide_eq_true_eq, decide_eq_false_iff_not]
    omega

/-- GO: a busy mailbox notes an overrun; else a served request goes to the Pilot island and another is refused. -/
theorem exec_mboxGo {s : State} (hup : s.hubUp = true) (n : BitVec 13) :
    exec (.mboxGo n) s = .next (
      let t := s.set Reg.MBOX_CTRL_REQ_LEN n.toNat
      if s.get Reg.MBOX_STAT_BUSY = 1 then t.set Reg.MBOX_STAT_OVERRUN 1
      else if s.mboxServes n.toNat then
        ((t.set Reg.MBOX_STAT_ERR 0).set Reg.MBOX_STAT_BUSY 1).updMbox fun m =>
          { m with reqs := m.reqs ++ [(s.mboxRequest n.toNat, false)] }
      else (t.set Reg.MBOX_STAT_ERR 1).set Reg.MBOX_STAT_RSP_LEN 0) := by
  have busy_kept : (s.set Reg.MBOX_CTRL_REQ_LEN n.toNat).get Reg.MBOX_STAT_BUSY = s.get Reg.MBOX_STAT_BUSY :=
    get_set_other _ _ _ _ (by decide)
  show execMboxGo n s = _
  simp only [execMboxGo, cxlIo_of_hubUp hup, busy_kept, State.mboxServes, Bool.not_eq_true', ← Bool.not_eq_true, ite_not]
  rfl

@[simp] theorem updMbox_get (s : State) (f : Mailbox → Mailbox) (g : Fld) : (s.updMbox f).get g = s.get g := rfl
@[simp] theorem updMbox_mbox (s : State) (f : Mailbox → Mailbox) : (s.updMbox f).pilot.mbox = f s.pilot.mbox := rfl

/-- A vector that a source raises changes no register. -/
@[simp] theorem raise_get (s : State) (v : Nat) (g : Fld) : (s.raise v).get g = s.get g := by
  unfold State.raise
  split
  · rfl
  · split <;> rfl

@[simp] theorem raise_pilot (s : State) (v : Nat) : (s.raise v).pilot = s.pilot := by
  unfold State.raise
  split
  · rfl
  · split <;> rfl

/-- What GO leaves in the mailbox, by whether it was busy and whether the request is served. -/
theorem mboxGo_effect {s : State} (hup : s.hubUp = true) (n : BitVec 13) :
    ∃ u, exec (.mboxGo n) s = .next u ∧ u.get Reg.MBOX_CTRL_REQ_LEN = n.toNat ∧
      (s.get Reg.MBOX_STAT_BUSY = 1 → u.pilot = s.pilot ∧ u.get Reg.MBOX_STAT_OVERRUN = 1) ∧
      (s.get Reg.MBOX_STAT_BUSY = 0 → s.mboxServes n.toNat = true →
        u.pilot.mbox.reqs = s.pilot.mbox.reqs ++ [(s.mboxRequest n.toNat, false)] ∧
        u.get Reg.MBOX_STAT_BUSY = 1 ∧ u.get Reg.MBOX_STAT_ERR = 0) ∧
      (s.get Reg.MBOX_STAT_BUSY = 0 → ¬ s.mboxServes n.toNat = true →
        u.pilot = s.pilot ∧ u.get Reg.MBOX_STAT_ERR = 1 ∧ u.get Reg.MBOX_STAT_RSP_LEN = 0) := by
  have length_fits : n.toNat % 2 ^ Reg.MBOX_CTRL_REQ_LEN.width = n.toNat := Nat.mod_eq_of_lt n.isLt
  refine ⟨_, exec_mboxGo hup n, ?_⟩
  by_cases hbusy : s.get Reg.MBOX_STAT_BUSY = 1
  · simp (disch := decide) [hbusy, get_set_other, length_fits]
  · by_cases hserves : s.mboxServes n.toNat = true
    · simp (disch := decide) [hbusy, hserves, get_set_other, length_fits]
    · simp (disch := decide) [hbusy, hserves, get_set_other, length_fits]

theorem exec_mboxResponse_of_none {s : State} (h : s.pilot.mbox.rsp = none) : exec .mboxResponse s = .next s := by
  have nothing : s.deliver = s := by simp only [State.deliver, h]
  show execMboxResponse s = _
  rw [execMboxResponse, nothing, ite_self]

/-- A response that waits is delivered: DONE, its length and its bytes. -/
theorem mboxResponse_effect {s : State} (hup : s.hubUp = true) {r : Bytes} (h : s.pilot.mbox.rsp = some r)
    (hlen : r.length < 2 ^ 13) :
    ∃ u, exec .mboxResponse s = .next u ∧ u.get Reg.MBOX_STAT_BUSY = 0 ∧ u.get Reg.MBOX_STAT_DONE = 1 ∧
      u.get Reg.MBOX_STAT_RSP_LEN = r.length ∧ u.pilot.mbox.rsp = none ∧ smapRead 0 u.pilot.mbox.rspBuf 0 r.length = r := by
  have length_fits : r.length % 2 ^ Reg.MBOX_STAT_RSP_LEN.width = r.length := Nat.mod_eq_of_lt hlen
  have delivered : exec .mboxResponse s = .next s.deliver := by
    show execMboxResponse s = _
    rw [execMboxResponse, if_pos hup]
  refine ⟨_, delivered, ?_⟩
  simp (disch := decide) [State.deliver, h, get_set_other, length_fits, smapRead_write]

/-! ## MCTP control messages (18_power_clocks_and_reset.md R446) -/

/-- A control message over I3C is answered in the states that serve it. -/
theorem exec_mctpControl_i3c_served {s : State} {b : Bytes} (hb : b.head? = some 0)
    (hboot : s.pilot.boot ∈ [Boot.ready, .noRef, .failed, .parked, .recovery]) :
    exec (.mctpControl (some b)) s = .next (s.emit (.mctp (Config.mctpAnswer b))) := by
  show execMctpControl (some b) s = _
  simp only [List.mem_cons, List.not_mem_nil, or_false] at hboot
  rcases hboot with h | h | h | h | h <;>
    simp [execMctpControl, State.request, rd_first_byte hb, isEmpty_of_first_byte hb, h, State.respond]

/-- During a start, or while the module is held, the transfer is NACKed. -/
theorem exec_mctpControl_i3c_nack {s : State} {b : Bytes} (hb : b.head? = some 0)
    (hboot : s.pilot.boot ∈ [Boot.waitRef, .running, .held, .tripped]) :
    exec (.mctpControl (some b)) s = .next (s.emit .nack) := by
  show execMctpControl (some b) s = _
  simp only [List.mem_cons, List.not_mem_nil, or_false] at hboot
  rcases hboot with h | h | h | h <;>
    simp [execMctpControl, State.request, rd_first_byte hb, isEmpty_of_first_byte hb, h]

/-- A control message in the mailbox leaves its queue for its answer. -/
theorem exec_mctpControl_mailbox {s : State} {b : Bytes} {lost : Bool} {rest : List (Bytes × Bool)} (hb : b.head? = some 0)
    (hboot : s.pilot.boot = .ready) (hreq : s.pilot.mbox.reqs = (b, lost) :: rest) :
    exec (.mctpControl none) s = .next (s.updMbox fun m =>
      { m with reqs := rest, rsp := if lost then m.rsp else some (Config.mctpAnswer b) }) := by
  show execMctpControl none s = _
  simp [execMctpControl, State.request, State.respond, hreq, rd_first_byte hb, isEmpty_of_first_byte hb, hboot]

/-! ## JTAG (19_lifecycle_firmware_debug.md R466) -/

theorem exec_jtagBypass (s : State) : exec .jtagBypass s = .next (if s.jtagOn then s.emit (.jtag 0) else s) := rfl

theorem exec_jtagIdcode (s : State) :
    exec .jtagIdcode s = .next (if s.jtagOn then s.emit (.jtag (0xBE438001 + Config.jtagMfr % 2 ^ 11 * 2)) else s) := by
  have idcode : 0xB * 2 ^ 28 + 0xE438 * 2 ^ 12 + Config.jtagMfr % 2 ^ 11 * 2 + 1 =
      0xBE438001 + Config.jtagMfr % 2 ^ 11 * 2 := by
    omega
  show execJtagIdcode s = _
  rw [execJtagIdcode, idcode]

theorem exec_jtagExtest (s : State) :
    exec .jtagExtest s = .next (if s.jtagOn then s.emit (.pins s.pilot.boundary) else s) := rfl

theorem exec_jtagSample (preload : Nat) (s : State) :
    exec (.jtagSample preload) s = .next (if s.jtagOn then
      ((s.emit (.jtag (Config.boundary s.fresh))).tick).updPilot fun p => { p with boundary := preload } else s) := rfl

/-- With JTAG off an instruction does nothing. -/
theorem exec_jtag_off {s : State} (h : s.jtagOn = false) (preload : Nat) {c : Instr}
    (hc : c ∈ [Instr.jtagBypass, .jtagIdcode, .jtagExtest, .jtagSample preload]) : exec c s = .next s := by
  simp only [List.mem_cons, List.not_mem_nil, or_false] at hc
  rcases hc with rfl | rfl | rfl | rfl <;>
    simp [exec_jtagBypass, exec_jtagIdcode, exec_jtagExtest, exec_jtagSample, h]

/-- Settles O46: the register clauses by the access codes of the four plain registers, the others by what each command does. -/
theorem registersMailboxAndJtag : Obligations.RegistersMailboxAndJtag := by
  intro s v
  refine ⟨fun h off => exec_registerWrite_of_not_readyOut h off v,
    fun hup => ⟨?event, ?alert, ?limit, ?sclk, ?msix, ?reqBuf, ?go, ?response⟩, exec_mboxResponse_of_none,
    fun b hb => ⟨exec_mctpControl_i3c_served hb, exec_mctpControl_i3c_nack hb, ?mailbox⟩, ?jtag,
    fun h preload c hc => exec_jtag_off h preload hc⟩
  case event =>
    exact ⟨_, exec_registerWrite_plain hup _ v plain_PWR_EVENT, writeWord_frame ..,
      fun f hf => get_writeWord_powerEvent s v hf⟩
  case alert =>
    exact ⟨_, exec_registerWrite_plain hup _ v plain_PWR_ALERT_EN, writeWord_frame .., get_writeWord_PWR_ALERT_EN s _⟩
  case limit =>
    refine ⟨_, exec_registerWrite_plain hup _ v plain_PWR_LIMIT, fun hlo hhi => ?_, fun hout hold => ?_⟩
    · exact (get_writeWord_PWR_LIMIT s _).trans (if_pos ⟨hlo, hhi⟩)
    · exact (get_writeWord_PWR_LIMIT s _).trans ((if_neg (by omega)).trans (Nat.mod_eq_of_lt hold))
  case sclk =>
    refine fun h => ⟨_, exec_registerWrite_plain hup _ v plain_TIME_SCLK, get_writeWord_TIME_SCLK s _ h, fun k d hk => ?_⟩
    exact writeWord_other_key s _ _ d (keys_of_TIME_SCLK ▸ List.mem_singleton.not.2 hk)
  case msix =>
    intro i
    exact ⟨_, _, exec_registerWrite_msix hup i false _ v (by simp; omega),
      exec_registerWrite_msix hup i true _ v (by simp; omega), msix_writeMsix s i false v, msix_writeMsix s i true v⟩
  case reqBuf =>
    intro i
    have place : 8 * (Fin.ofNat 8388608 (0x11000 / 8 + i.val)).val = 0x11000 + 8 * i.val := by simp; omega
    refine ⟨_, exec_registerWrite_reqBuf hup _ v (by omega) (by omega), ?_, rfl⟩
    rw [updMbox_mbox, place, Nat.add_sub_cancel_left]
  case go =>
    intro n
    obtain ⟨u, hu, hlen, hbusy, hserved, hrefused⟩ := mboxGo_effect hup n
    rw [mboxServes_iff] at hserved hrefused
    exact ⟨u, hu, hlen, hbusy, hserved, hrefused⟩
  case response => exact fun r h hlen => mboxResponse_effect hup h hlen
  case mailbox => exact fun lost rest hboot hreq => ⟨_, exec_mctpControl_mailbox hb hboot hreq, rfl, rfl⟩
  case jtag =>
    intro h preload
    simp only [exec_jtagBypass, exec_jtagIdcode, exec_jtagExtest, exec_jtagSample, h, if_true, true_and]
    exact ⟨_, _, rfl, rfl, rfl, rfl, rfl⟩

end Sys2Proof.Machine
end

section
/-!
PROOFS. The two feeds, the power limit and the thermal stretch (01_module_overview.md R24; 18_power_clocks_and_reset.md R424 to
R428).
-/

namespace Sys2Proof.Machine

/-! ## Commands of the Pilot island's power controller -/

/-- What a command that changes only registers and the Pilot island keeps: all the rest. -/
def PilotOnly (s u : State) : Prop := u = { s with regs := u.regs, pilot := u.pilot }

namespace PilotOnly

theorem refl (s : State) : PilotOnly s s := rfl

theorem trans {s t u : State} (h : PilotOnly s t) (k : PilotOnly t u) : PilotOnly s u := by
  unfold PilotOnly at h k ⊢
  rw [k, h]

theorem set {s t : State} (h : PilotOnly s t) (f : Fld) (v : Nat) : PilotOnly s (t.set f v) := h.trans rfl

theorem updPilot {s t : State} (h : PilotOnly s t) (f : Pilot → Pilot) : PilotOnly s (t.updPilot f) := h.trans rfl

theorem setFeedBack {s t : State} (h : PilotOnly s t) (i : Fin 2) (b : Bool) : PilotOnly s (t.setFeedBack i b) :=
  h.updPilot _

theorem drawFrom {s t : State} (h : PilotOnly s t) (i : Fin 2) : PilotOnly s (t.drawFrom i) := by
  unfold State.drawFrom
  split
  · exact h
  · exact h.trans rfl

end PilotOnly

@[simp] theorem updPilot_pilot (s : State) (f : Pilot → Pilot) : (s.updPilot f).pilot = f s.pilot := rfl
@[simp] theorem updPilot_get (s : State) (f : Pilot → Pilot) (g : Fld) : (s.updPilot f).get g = s.get g := rfl

theorem get_addF_other (s : State) (f g : Fld) (n : Nat) (h : g.key 0 0 ≠ f.key 0 0) :
    (s.addF f 0 0 n).get g = s.get g := getF_setF_other _ _ _ _ _ _ _ _ h

/-! ## A feed and its fields (18_power_clocks_and_reset.md R424) -/

theorem feed_cases (feed : Fin 2) : feed = 0 ∨ feed = 1 := by omega

/-- The voltage of a feed fits its field. -/
theorem feedVolts_fit (feed : Fin 2) (dv : BitVec 10) : dv.toNat % 2 ^ (feedDv feed).width = dv.toNat := by
  rcases feed_cases feed with rfl | rfl <;> exact Nat.mod_eq_of_lt dv.isLt

/-- A feed's voltage tells nothing of which feed is OK. -/
@[simp] theorem feedOk_set_feedDv (s : State) (feed i : Fin 2) (v : Nat) :
    (s.set (feedDv feed) v).get (feedOk i) = s.get (feedOk i) :=
  get_set_other _ _ _ _ (by revert feed i; decide)

@[simp] theorem setFeedBack_get (s : State) (i : Fin 2) (b : Bool) (f : Fld) : (s.setFeedBack i b).get f = s.get f := rfl

@[simp] theorem setFeedBack_bulk (s : State) (i : Fin 2) (b : Bool) : (s.setFeedBack i b).pilot.bulk = s.pilot.bulk := by
  rcases feed_cases i with rfl | rfl <;> rfl

@[simp] theorem setFeedBack_feedBack (s : State) (i : Fin 2) (b : Bool) : (s.setFeedBack i b).feedBack i = b := by
  rcases feed_cases i with rfl | rfl <;> rfl

@[simp] theorem set_feedBack (s : State) (f : Fld) (v : Nat) (i : Fin 2) : (s.set f v).feedBack i = s.feedBack i := rfl

/-! ## The feed in use (18_power_clocks_and_reset.md R425) -/

@[simp] theorem drawFrom_pilot (s : State) (i : Fin 2) : (s.drawFrom i).pilot = s.pilot := by
  unfold State.drawFrom
  split <;> rfl

@[simp] theorem drawFrom_feedBack (s : State) (i j : Fin 2) : (s.drawFrom i).feedBack j = s.feedBack j := by
  simp only [State.feedBack, drawFrom_pilot]

/-- The fields that tell of the feed in use and of its last change. -/
def drawFields : List Fld :=
  [Reg.PWR_STAT_ON_B, Reg.PWR_EVENT_SWITCH, Reg.FEED_LOG_TO_B, Reg.FEED_LOG_COUNT, Reg.FEED_LOG_TIME_S]

/-- A change of the feed in use keeps every other field. -/
theorem drawFrom_get_other (s : State) (i : Fin 2) (g : Fld) (h : ∀ f ∈ drawFields, g.key 0 0 ≠ f.key 0 0) :
    (s.drawFrom i).get g = s.get g := by
  simp only [drawFields, List.forall_mem_cons] at h
  obtain ⟨hon, hswitch, hto, hcount, htime, -⟩ := h
  unfold State.drawFrom
  split
  · rfl
  · rw [get_set_other _ _ _ _ htime, get_addF_other _ _ _ _ hcount, get_set_other _ _ _ _ hto,
      get_set_other _ _ _ _ hswitch, get_set_other _ _ _ _ hon]

/-- A change of the feed in use keeps what the feeds show. -/
theorem drawFrom_get_feed (s : State) (i feed : Fin 2) {g : Fld} (hg : g ∈ [feedOk feed, feedWarnF feed, feedDv feed]) :
    (s.drawFrom i).get g = s.get g := by
  have apart : ∀ feed : Fin 2, ∀ g ∈ [feedOk feed, feedWarnF feed, feedDv feed], ∀ f ∈ drawFields,
      g.key 0 0 ≠ f.key 0 0 := by decide
  exact drawFrom_get_other s i g (apart feed g hg)

theorem feed_fits_bit (i : Fin 2) : i.val % 2 ^ 1 = i.val := Nat.mod_eq_of_lt i.isLt

@[simp] theorem drawFrom_on (s : State) (i : Fin 2) : (s.drawFrom i).get Reg.PWR_STAT_ON_B = i.val := by
  unfold State.drawFrom
  split
  · assumption
  · simp (disch := decide) only [get_set_other, get_addF_other, get_set_same]
    exact feed_fits_bit i

/-- A change of the feed in use is an event and is logged. -/
theorem drawFrom_of_change {s : State} {i : Fin 2} (h : s.get Reg.PWR_STAT_ON_B ≠ i.val) :
    (s.drawFrom i).get Reg.PWR_EVENT_SWITCH = 1 ∧ (s.drawFrom i).get Reg.FEED_LOG_TO_B = i.val := by
  rw [State.drawFrom, if_neg h]
  simp (disch := decide) only [get_set_other, get_addF_other, get_set_same]
  exact ⟨rfl, feed_fits_bit i⟩

/-! ## What the four commands of a feed do (18_power_clocks_and_reset.md R424 to R426) -/

section
variable {s : State} {feed : Fin 2} (dv : BitVec 10)

/-- An OK feed that warns. -/
theorem feedWarn_of_ok (hp : s.pilot.powered = true) (hok : s.get (feedOk feed) = 1) :
    ∃ u, exec (.feedWarn feed dv) s = .next u ∧ PilotOnly s u ∧ u.get (feedWarnF feed) = 1 ∧
      u.get Reg.PWR_EVENT_FEED_WARN = 1 ∧ u.get (feedDv feed) = dv.toNat ∧
      u.get Reg.PWR_STAT_ON_B = s.get Reg.PWR_STAT_ON_B := by
  have hexec : exec (.feedWarn feed dv) s =
      .next (((s.set (feedDv feed) dv.toNat).set (feedWarnF feed) 1).set Reg.PWR_EVENT_FEED_WARN 1) := by
    show execFeedWarn feed dv s = _
    simp [execFeedWarn, hp, hok]
  refine ⟨_, hexec, (((PilotOnly.refl s).set ..).set ..).set .., ?_⟩
  have hfit := feedVolts_fit feed dv
  rcases feed_cases feed with rfl | rfl <;> simp (disch := decide) [get_set_other, hfit]

/-- For a failed feed a warning or another failure breaks its second in range. -/
theorem feedWarn_of_failed (hp : s.pilot.powered = true) (hok : s.get (feedOk feed) = 0) :
    exec (.feedWarn feed dv) s = .next ((s.set (feedDv feed) dv.toNat).setFeedBack feed false) := by
  show execFeedWarn feed dv s = _
  simp [execFeedWarn, hp, hok]

theorem feedFail_of_failed (hp : s.pilot.powered = true) (hok : s.get (feedOk feed) = 0) :
    exec (.feedFail feed dv) s = .next ((s.set (feedDv feed) dv.toNat).setFeedBack feed false) := by
  show execFeedFail feed dv s = _
  simp [execFeedFail, hp, hok]

/-- The state in which the fields of a feed that fails have been written. -/
def State.failFeed (s : State) (feed : Fin 2) (dv : BitVec 10) : State :=
  ((((s.set (feedDv feed) dv.toNat).setFeedBack feed false).set (feedOk feed) 0).set (feedWarnF feed) 0).set
    Reg.PWR_EVENT_FEED_FAIL 1

theorem PilotOnly.failFeed : PilotOnly s (s.failFeed feed dv) :=
  (((((PilotOnly.refl s).set ..).setFeedBack ..).set ..).set ..).set ..

/-- What a failed feed shows. -/
theorem failFeed_shows : 
    let u := s.failFeed feed dv
    u.get (feedOk feed) = 0 ∧ u.get (feedWarnF feed) = 0 ∧ u.get Reg.PWR_EVENT_FEED_FAIL = 1 ∧
      u.get (feedDv feed) = dv.toNat := by
  have hfit := feedVolts_fit feed dv
  rcases feed_cases feed with rfl | rfl <;> simp (disch := decide) [State.failFeed, get_set_other, hfit]

theorem failFeed_keeps : 
    let u := s.failFeed feed dv
    u.get (feedOk (1 - feed)) = s.get (feedOk (1 - feed)) ∧ u.get Reg.PWR_STAT_ON_B = s.get Reg.PWR_STAT_ON_B ∧
      u.pilot.bulk = s.pilot.bulk := by
  rcases feed_cases feed with rfl | rfl <;> simp (disch := decide) [State.failFeed, get_set_other]

theorem exec_feedFail_of_ok (hp : s.pilot.powered = true) (hok : s.get (feedOk feed) = 1) :
    exec (.feedFail feed dv) s = .next (
      if s.get (feedOk (1 - feed)) = 1 then (s.failFeed feed dv).drawFrom (1 - feed)
      else (s.failFeed feed dv).updPilot fun p => { p with bulk := true }) := by
  obtain ⟨hother, -⟩ := failFeed_keeps (s := s) (feed := feed) dv
  rw [← hother]
  show execFeedFail feed dv s = _
  simp only [execFeedFail, hp, hok, feedOk_set_feedDv, setFeedBack_get, Bool.not_true, Bool.false_eq_true, if_false,
    one_ne_zero, State.failFeed]
  rfl

/-- An OK feed that fails hands the draw to the other feed, or else to the bulk capacitance (R425, R426). -/
theorem feedFail_of_ok (hp : s.pilot.powered = true) (hok : s.get (feedOk feed) = 1) :
    ∃ u, exec (.feedFail feed dv) s = .next u ∧ PilotOnly s u ∧ u.get (feedOk feed) = 0 ∧ u.get (feedWarnF feed) = 0 ∧
      u.get Reg.PWR_EVENT_FEED_FAIL = 1 ∧ u.get (feedDv feed) = dv.toNat ∧
      (s.get (feedOk (1 - feed)) = 1 → u.get Reg.PWR_STAT_ON_B = (1 - feed).val ∧ u.pilot.bulk = s.pilot.bulk ∧
        (s.get Reg.PWR_STAT_ON_B ≠ (1 - feed).val →
          u.get Reg.PWR_EVENT_SWITCH = 1 ∧ u.get Reg.FEED_LOG_TO_B = (1 - feed).val)) ∧
      (s.get (feedOk (1 - feed)) = 0 → u.get Reg.PWR_STAT_ON_B = s.get Reg.PWR_STAT_ON_B ∧ u.pilot.bulk = true) := by
  refine ⟨_, exec_feedFail_of_ok dv hp hok, ?_⟩
  obtain ⟨hok0, hwarn0, hevent, hdv⟩ := failFeed_shows (s := s) (feed := feed) dv
  obtain ⟨-, hon, hbulk⟩ := failFeed_keeps (s := s) (feed := feed) dv
  by_cases hother : s.get (feedOk (1 - feed)) = 1
  · rw [if_pos hother]
    refine ⟨(PilotOnly.failFeed dv).drawFrom _, ?_, ?_, ?_, ?_, fun _ => ⟨drawFrom_on .., ?_, fun hne => ?_⟩, fun h0 => ?_⟩
    · rwa [drawFrom_get_feed _ _ feed (by simp)]
    · rwa [drawFrom_get_feed _ _ feed (by simp)]
    · rwa [drawFrom_get_other _ _ _ (by decide)]
    · rwa [drawFrom_get_feed _ _ feed (by simp)]
    · rwa [drawFrom_pilot]
    · exact drawFrom_of_change (hon ▸ hne)
    · exact absurd (hother.symm.trans h0) one_ne_zero
  · rw [if_neg hother]
    exact ⟨(PilotOnly.failFeed dv).updPilot _, hok0, hwarn0, hevent, hdv, fun h1 => absurd h1 hother, fun _ => ⟨hon, rfl⟩⟩

/-- An OK feed that returns leaves its warning. -/
theorem feedReturn_of_ok (hp : s.pilot.powered = true) (hok : s.get (feedOk feed) = 1) :
    ∃ u, exec (.feedReturn feed dv) s = .next u ∧ PilotOnly s u ∧ u.get (feedOk feed) = 1 ∧ u.get (feedWarnF feed) = 0 ∧
      u.get (feedDv feed) = dv.toNat := by
  have hexec : exec (.feedReturn feed dv) s = .next ((s.set (feedDv feed) dv.toNat).set (feedWarnF feed) 0) := by
    show execFeedReturn feed dv s = _
    simp [execFeedReturn, hp, hok]
  refine ⟨_, hexec, ((PilotOnly.refl s).set ..).set .., ?_⟩
  have hfit := feedVolts_fit feed dv
  rcases feed_cases feed with rfl | rfl <;> simp (disch := decide) [get_set_other, hok, hfit]

/-- A failed feed begins its second in range. -/
theorem feedReturn_of_failed (hp : s.pilot.powered = true) (hok : s.get (feedOk feed) = 0) (hb : s.pilot.bulk = false) :
    exec (.feedReturn feed dv) s = .next ((s.set (feedDv feed) dv.toNat).setFeedBack feed true) := by
  show execFeedReturn feed dv s = _
  simp [execFeedReturn, hp, hok, hb]

/-- A feed that returns within the ride-through is drawn from at once (R426). -/
theorem feedReturn_of_bulk (hp : s.pilot.powered = true) (hok : s.get (feedOk feed) = 0) (hb : s.pilot.bulk = true) :
    ∃ u, exec (.feedReturn feed dv) s = .next u ∧ PilotOnly s u ∧ u.get (feedOk feed) = 1 ∧ u.pilot.bulk = false ∧
      u.get Reg.PWR_STAT_ON_B = feed.val ∧ u.get Reg.PWR_EVENT_BOTH_LOST = 1 := by
  have hexec : exec (.feedReturn feed dv) s = .next (((((s.set (feedDv feed) dv.toNat).set (feedOk feed) 1).set
      Reg.PWR_EVENT_BOTH_LOST 1).drawFrom feed).updPilot fun p => { p with bulk := false }) := by
    show execFeedReturn feed dv s = _
    simp [execFeedReturn, hp, hok, hb]
  refine ⟨_, hexec, (((((PilotOnly.refl s).set ..).set ..).set ..).drawFrom _).updPilot _, ?_⟩
  rcases feed_cases feed with rfl | rfl <;> simp (disch := decide) [get_set_other, drawFrom_get_other]

theorem feedRestoreTimer_idle (h : s.feedBack feed = false) : exec (.feedRestoreTimer feed) s = .next s := by
  show execFeedRestoreTimer feed s = _
  simp [execFeedRestoreTimer, h]

/-- The ride-through ends: the module draws from a feed again. -/
def State.endRide (s : State) : State :=
  if s.pilot.bulk then (s.set Reg.PWR_EVENT_BOTH_LOST 1).updPilot fun p => { p with bulk := false } else s

theorem PilotOnly.endRide {t : State} (h : PilotOnly s t) : PilotOnly s t.endRide := by
  unfold State.endRide
  split
  · exact (h.set ..).updPilot _
  · exact h

@[simp] theorem endRide_bulk (s : State) : s.endRide.pilot.bulk = false := by
  unfold State.endRide
  split
  · rfl
  · exact Bool.eq_false_of_not_eq_true ‹_›

theorem endRide_get_other (s : State) (g : Fld) (h : g.key 0 0 ≠ Reg.PWR_EVENT_BOTH_LOST.key 0 0) :
    s.endRide.get g = s.get g := by
  unfold State.endRide
  split
  · exact get_set_other s _ g 1 h
  · rfl

@[simp] theorem endRide_feedBack (s : State) (i : Fin 2) : s.endRide.feedBack i = s.feedBack i := by
  unfold State.endRide
  split <;> rfl

theorem endRide_bothLost (h : s.pilot.bulk = true) : s.endRide.get Reg.PWR_EVENT_BOTH_LOST = 1 := by
  rw [State.endRide, if_pos h]
  simp (disch := decide)

/-- A feed that was in range for a second is OK, and A is drawn from again (R424, R425). -/
theorem feedRestoreTimer_of_back (hp : s.pilot.powered = true) (hok : s.get (feedOk feed) = 0)
    (hback : s.feedBack feed = true) :
    ∃ u, exec (.feedRestoreTimer feed) s = .next u ∧ PilotOnly s u ∧ u.get (feedOk feed) = 1 ∧ u.feedBack feed = false ∧
      u.pilot.bulk = false ∧ (s.pilot.bulk = true → u.get Reg.PWR_EVENT_BOTH_LOST = 1) ∧
      u.get Reg.PWR_STAT_ON_B =
        (if feed = 0 ∨ s.get Reg.PWR_STAT_A_OK = 0 then feed.val else s.get Reg.PWR_STAT_ON_B) := by
  let t := ((s.set (feedOk feed) 1).setFeedBack feed false).endRide
  have frame : PilotOnly s t := (((PilotOnly.refl s).set ..).setFeedBack ..).endRide
  have hexec : exec (.feedRestoreTimer feed) s =
      .next (if feed = 0 ∨ t.get Reg.PWR_STAT_A_OK = 0 then t.drawFrom feed else t) := by
    show execFeedRestoreTimer feed s = _
    simp [execFeedRestoreTimer, hp, hok, hback, t, State.endRide]
  have hA : feed = 0 ∨ t.get Reg.PWR_STAT_A_OK = 0 ↔ feed = 0 ∨ s.get Reg.PWR_STAT_A_OK = 0 := by
    rcases feed_cases feed with rfl | rfl <;> simp (disch := decide) [t, endRide_get_other, get_set_other]
  have hok' : t.get (feedOk feed) = 1 := by
    rcases feed_cases feed with rfl | rfl <;> simp (disch := decide) [t, endRide_get_other]
  have hback' : t.feedBack feed = false := by simp [t]
  have hbulk : t.pilot.bulk = false := endRide_bulk _
  have hlost (h : s.pilot.bulk = true) : t.get Reg.PWR_EVENT_BOTH_LOST = 1 := endRide_bothLost (by simpa using h)
  have hon : t.get Reg.PWR_STAT_ON_B = s.get Reg.PWR_STAT_ON_B := by
    rcases feed_cases feed with rfl | rfl <;> simp (disch := decide) [t, endRide_get_other, get_set_other]
  simp only [hA] at hexec
  refine ⟨_, hexec, ?_⟩
  split
  · refine ⟨frame.drawFrom _, ?_, by simpa using hback', by simpa using hbulk, fun h => ?_, drawFrom_on ..⟩
    · rwa [drawFrom_get_feed _ _ feed (by simp)]
    · rw [drawFrom_get_other _ _ _ (by decide)]
      exact hlost h
  · exact ⟨frame, hok', hback', hbulk, hlost, hon⟩

end

/-! ## The power limit and the thermal stretch (18_power_clocks_and_reset.md R427, R428) -/

theorem foldl_max_lt {l : List Nat} {a n : Nat} (ha : a < n) (h : ∀ x ∈ l, x < n) : l.foldl max a < n := by
  induction l generalizing a with
  | nil => exact ha
  | cons x l ih =>
    rw [List.forall_mem_cons] at h
    exact ih (Nat.max_lt.2 ⟨ha, h.1⟩) h.2

theorem PilotOnly.showStretch {s t : State} (h : PilotOnly s t) : PilotOnly s t.showStretch := h.set ..

@[simp] theorem showStretch_pilot (s : State) : s.showStretch.pilot = s.pilot := rfl

theorem showStretch_get_other (s : State) (g : Fld) (h : g.key 0 0 ≠ Reg.PWR_STAT_STRETCH.key 0 0) :
    s.showStretch.get g = s.get g := get_set_other _ _ _ _ h

/-- STRETCH shows the largest of the steps, each below 64. -/
theorem showStretch_get_stretch (s : State) (hp : s.pilot.powerStep < 64) (ht : ∀ n ∈ s.pilot.thermStep.toList, n < 64) :
    s.showStretch.get Reg.PWR_STAT_STRETCH = s.pilot.thermStep.toList.foldl max s.pilot.powerStep :=
  (get_set_same ..).trans (Nat.mod_eq_of_lt (foldl_max_lt hp ht))

/-- The step of the power stretch after a measured draw. -/
def State.nextPowerStep (s : State) (step : Fin 64) (watts : BitVec 12) (peak : Bool) : Nat :=
  if s.get Reg.PWR_LIMIT_SUST_W < watts.toNat ∨ peak = true then max step.val (min 63 (s.pilot.powerStep + 1)) else step.val

theorem nextPowerStep_lt (s : State) (step : Fin 64) (watts : BitVec 12) (peak : Bool) :
    s.nextPowerStep step watts peak < 64 := by
  unfold State.nextPowerStep
  split <;> omega

/-- POWER_LIMIT: the draw is shown, LIMIT is set when the step leaves 0, and STRETCH follows. -/
theorem exec_powerLimit {s : State} (hp : s.pilot.powered = true) (step : Fin 64) (watts : BitVec 12) (peak : Bool) :
    exec (.powerLimit step ⟨watts, peak⟩) s = .next (
      let t := s.set Reg.PWR_STAT_POWER_W watts.toNat
      let n := s.nextPowerStep step watts peak
      ((if s.pilot.powerStep = 0 ∧ n ≠ 0 then t.set Reg.PWR_EVENT_LIMIT 1 else t).updPilot fun p =>
        { p with powerStep := n }).showStretch) := by
  have limit_kept : (s.set Reg.PWR_STAT_POWER_W watts.toNat).get Reg.PWR_LIMIT_SUST_W = s.get Reg.PWR_LIMIT_SUST_W :=
    get_set_other _ _ _ _ (by decide)
  show execPowerLimit step ⟨watts, peak⟩ s = _
  simp only [execPowerLimit, hp, limit_kept, State.nextPowerStep, Bool.not_true, Bool.false_eq_true, if_false,
    Bool.or_eq_true, Bool.and_eq_true, decide_eq_true_eq]
  rfl

theorem powerLimit_effect {s : State} (hp : s.pilot.powered = true) (step : Fin 64) (watts : BitVec 12) (peak : Bool)
    (ht : ∀ n ∈ s.pilot.thermStep.toList, n < 64) :
    ∃ u, exec (.powerLimit step ⟨watts, peak⟩) s = .next u ∧ PilotOnly s u ∧ u.get Reg.PWR_STAT_POWER_W = watts.toNat ∧
      u.pilot.powerStep = s.nextPowerStep step watts peak ∧ u.pilot.thermStep = s.pilot.thermStep ∧
      u.get Reg.PWR_STAT_STRETCH = s.pilot.thermStep.toList.foldl max u.pilot.powerStep ∧
      u.get Reg.PWR_EVENT_LIMIT =
        (if s.pilot.powerStep = 0 ∧ u.pilot.powerStep ≠ 0 then 1 else s.get Reg.PWR_EVENT_LIMIT) := by
  have hwatts : watts.toNat % 2 ^ Reg.PWR_STAT_POWER_W.width = watts.toNat := Nat.mod_eq_of_lt watts.isLt
  refine ⟨_, exec_powerLimit hp step watts peak, ?_⟩
  generalize hn : s.nextPowerStep step watts peak = n
  have hlt : n < 64 := hn ▸ nextPowerStep_lt ..
  by_cases hlimit : s.pilot.powerStep = 0 ∧ n ≠ 0
  · simp only [if_pos hlimit]
    refine ⟨((((PilotOnly.refl s).set ..).set ..).updPilot _).showStretch, ?_, rfl, rfl,
      showStretch_get_stretch _ hlt ht, ?_⟩ <;>
    simp (disch := decide) [showStretch_get_other, get_set_other, hwatts, hlimit]
  · simp only [if_neg hlimit]
    refine ⟨(((PilotOnly.refl s).set ..).updPilot _).showStretch, ?_, rfl, rfl, showStretch_get_stretch _ hlt ht, ?_⟩ <;>
    simp (disch := decide) [showStretch_get_other, get_set_other, hwatts, hlimit]

/-! ## One byte of a word -/

/-- A word with its byte `k` replaced. -/
def putByte (w k c : Nat) : Nat := w - w / 256 ^ k % 256 * 256 ^ k + c * 256 ^ k

/-- The bytes above, the byte, and the bytes below. -/
theorem putByte_eq (w k c : Nat) : putByte w k c = (w / 256 ^ (k + 1) * 256 + c) * 256 ^ k + w % 256 ^ k := by
  have hlow := Nat.div_add_mod w (256 ^ k)
  have hhigh := Nat.div_add_mod (w / 256 ^ k) 256
  rw [Nat.div_div_eq_div_mul, ← pow_succ] at hhigh
  unfold putByte
  generalize w / 256 ^ k % 256 = b at *
  generalize w / 256 ^ (k + 1) = h at *
  generalize w % 256 ^ k = l at *
  rw [← hlow, ← hhigh]
  generalize 256 ^ k = p
  have : p * (256 * h + b) + l = b * p + (h * 256 * p + l) := by ring
  rw [this, Nat.add_sub_cancel_left]
  ring

theorem putByte_same (w k c : Nat) (hc : c < 256) : putByte w k c / 256 ^ k % 256 = c := by
  have hp : 0 < 256 ^ k := by positivity
  rw [putByte_eq, Nat.add_comm, Nat.add_mul_div_right _ _ hp, Nat.div_eq_of_lt (Nat.mod_lt _ hp)]
  omega

theorem byte_of_mod (x : Nat) {d n : Nat} (h : d < n) : x % 256 ^ n / 256 ^ d % 256 = x / 256 ^ d % 256 := by
  obtain ⟨m, rfl⟩ := Nat.exists_eq_add_of_lt h
  rw [add_assoc, pow_add, Nat.mod_mul_right_div_self, Nat.mod_mod_of_dvd _ (dvd_pow_self 256 m.succ_ne_zero)]

theorem putByte_other (w : Nat) {k c d : Nat} (hc : c < 256) (h : d ≠ k) :
    putByte w k c / 256 ^ d % 256 = w / 256 ^ d % 256 := by
  have hp : 0 < 256 ^ k := by positivity
  rcases Nat.lt_or_gt_of_ne h with hd | hd
  · have low : putByte w k c % 256 ^ k = w % 256 ^ k := by rw [putByte_eq, Nat.mul_add_mod_self_right, Nat.mod_mod]
    rw [← byte_of_mod _ hd, low, byte_of_mod _ hd]
  · obtain ⟨m, rfl⟩ := Nat.exists_eq_add_of_lt hd
    have high : putByte w k c / 256 ^ (k + 1) = w / 256 ^ (k + 1) := by
      rw [putByte_eq, pow_succ, ← Nat.div_div_eq_div_mul, Nat.add_comm, Nat.add_mul_div_right _ _ hp,
        Nat.div_eq_of_lt (Nat.mod_lt _ hp)]
      omega
    rw [show k + m + 1 = k + 1 + m by omega, pow_add, ← Nat.div_div_eq_div_mul, ← Nat.div_div_eq_div_mul, high]

/-! ## The junction temperature of a die -/

theorem PilotOnly.setDieC {s t : State} (h : PilotOnly s t) (die : Fin 6) (c : Byte) : PilotOnly s (t.setDieC die c) :=
  h.set ..

@[simp] theorem setDieC_pilot (s : State) (die : Fin 6) (c : Byte) : (s.setDieC die c).pilot = s.pilot := rfl

theorem setDieC_get_other (s : State) (die : Fin 6) (c : Byte) (g : Fld)
    (h : g.key 0 0 ≠ Reg.THERM_STAT_DIE_C.key 0 0) : (s.setDieC die c).get g = s.get g := get_set_other _ _ _ _ h

/-- THERM_STAT shows the new temperature in the die's byte and keeps the others. -/
theorem setDieC_byte (s : State) (die d : Fin 6) (c : Byte) :
    (s.setDieC die c).get Reg.THERM_STAT_DIE_C / 256 ^ d.val % 256 =
      if d = die then c.toNat else s.get Reg.THERM_STAT_DIE_C / 256 ^ d.val % 256 := by
  have stored : (s.setDieC die c).get Reg.THERM_STAT_DIE_C =
      putByte (s.get Reg.THERM_STAT_DIE_C) die.val c.toNat % 256 ^ 6 := get_set_same ..
  rw [stored, byte_of_mod _ d.isLt]
  split
  · subst d
    exact putByte_same _ _ _ c.isLt
  · exact putByte_other _ c.isLt (Fin.val_ne_of_ne ‹_›)

/-- The step that THERMAL_STRETCH keeps for a die. -/
def dieStep (celsius : Byte) (step : Fin 64) : Nat := if 105 ≤ celsius.toNat then max 1 step.val else 0

theorem dieStep_lt (celsius : Byte) (step : Fin 64) : dieStep celsius step < 64 := by
  unfold dieStep
  split <;> omega

/-- THERMAL_STRETCH but for a trip. -/
def State.stretchDie (s : State) (die : Fin 6) (celsius : Byte) (step : Fin 64) : State :=
  let t := s.setDieC die celsius
  ((if 105 ≤ celsius.toNat then t.set Reg.PWR_EVENT_THERM 1 else t).updPilot fun p =>
    { p with thermStep := p.thermStep.set die.val (dieStep celsius step) }).showStretch

theorem exec_thermalStretch {s : State} (hp : s.pilot.powered = true) (die : Fin 6) (celsius : Byte) (step : Fin 64) :
    exec (.thermalStretch die celsius step) s =
      .next (let t := s.stretchDie die celsius step; if 115 ≤ celsius.toNat then t.trip else t) := by
  show execThermalStretch die celsius step s = _
  simp only [execThermalStretch, hp, Bool.not_true, Bool.false_eq_true, if_false, decide_eq_true_eq, State.stretchDie,
    dieStep]

theorem stretchDie_pilot (s : State) (die : Fin 6) (celsius : Byte) (step : Fin 64) :
    (s.stretchDie die celsius step).pilot =
      { s.pilot with thermStep := s.pilot.thermStep.set die.val (dieStep celsius step) } := by
  unfold State.stretchDie
  split <;> rfl

theorem PilotOnly.stretchDie (s : State) (die : Fin 6) (celsius : Byte) (step : Fin 64) :
    PilotOnly s (s.stretchDie die celsius step) := by
  unfold State.stretchDie
  split
  · exact ((((PilotOnly.refl s).setDieC ..).set ..).updPilot _).showStretch
  · exact (((PilotOnly.refl s).setDieC ..).updPilot _).showStretch

theorem stretchDie_get_dieC (s : State) (die : Fin 6) (celsius : Byte) (step : Fin 64) :
    (s.stretchDie die celsius step).get Reg.THERM_STAT_DIE_C = (s.setDieC die celsius).get Reg.THERM_STAT_DIE_C := by
  unfold State.stretchDie
  split <;> simp (disch := decide) [showStretch_get_other, get_set_other]

theorem stretchDie_get_therm (s : State) (die : Fin 6) (celsius : Byte) (step : Fin 64) :
    (s.stretchDie die celsius step).get Reg.PWR_EVENT_THERM =
      if 105 ≤ celsius.toNat then 1 else s.get Reg.PWR_EVENT_THERM := by
  unfold State.stretchDie
  split <;> simp (disch := decide) [showStretch_get_other, setDieC_get_other]

theorem stretchDie_get_stretch {s : State} (die : Fin 6) (celsius : Byte) (step : Fin 64) (hs : s.pilot.powerStep < 64)
    (ht : ∀ n ∈ s.pilot.thermStep.toList, n < 64) :
    (s.stretchDie die celsius step).get Reg.PWR_STAT_STRETCH =
      (s.pilot.thermStep.set die.val (dieStep celsius step)).toList.foldl max s.pilot.powerStep := by
  have steps_fit : ∀ n ∈ (s.pilot.thermStep.set die.val (dieStep celsius step)).toList, n < 64 := by
    intro n hn
    rw [Vector.toList_set] at hn
    rcases List.mem_or_eq_of_mem_set hn with h | rfl
    · exact ht n h
    · exact dieStep_lt celsius step
  unfold State.stretchDie
  split <;> exact showStretch_get_stretch _ hs steps_fit

/-- A die at 115 °C or more trips the module. -/
theorem thermalStretch_trips {s : State} (hp : s.pilot.powered = true) (hr : s.resettable = true) (die : Fin 6)
    {celsius : Byte} (hc : 115 ≤ celsius.toNat) (step : Fin 64) :
    ∃ u, exec (.thermalStretch die celsius step) s = .next u ∧ u.pilot.boot = .tripped ∧ u.pilot.tripOut = true := by
  have hr' : (s.stretchDie die celsius step).resettable = true := by
    rw [State.resettable, stretchDie_pilot]
    exact hr
  refine ⟨_, exec_thermalStretch hp die celsius step, ?_⟩
  simp [if_pos hc, State.trip, hr']

/-- A die below 115 °C. -/
theorem thermalStretch_effect {s : State} (hp : s.pilot.powered = true) (die : Fin 6) {celsius : Byte}
    (hc : celsius.toNat < 115) (step : Fin 64) (hs : s.pilot.powerStep < 64) (ht : ∀ n ∈ s.pilot.thermStep.toList, n < 64) :
    ∃ u, exec (.thermalStretch die celsius step) s = .next u ∧ PilotOnly s u ∧
      (∀ d : Fin 6, u.get Reg.THERM_STAT_DIE_C / 256 ^ d.val % 256 =
        if d = die then celsius.toNat else s.get Reg.THERM_STAT_DIE_C / 256 ^ d.val % 256) ∧
      u.pilot.thermStep = s.pilot.thermStep.set die.val (dieStep celsius step) ∧
      u.get Reg.PWR_STAT_STRETCH = u.pilot.thermStep.toList.foldl max s.pilot.powerStep ∧
      u.get Reg.PWR_EVENT_THERM = (if 105 ≤ celsius.toNat then 1 else s.get Reg.PWR_EVENT_THERM) := by
  have hexec : exec (.thermalStretch die celsius step) s = .next (s.stretchDie die celsius step) := by
    simp only [exec_thermalStretch hp, if_neg (Nat.not_le.2 hc)]
  refine ⟨_, hexec, PilotOnly.stretchDie .., fun d => ?_, ?_, ?_, stretchDie_get_therm ..⟩
  · rw [stretchDie_get_dieC, setDieC_byte]
  · rw [stretchDie_pilot]
  · rw [stretchDie_get_stretch die celsius step hs ht, stretchDie_pilot]

/-! ## Without the Pilot island's supply -/

/-- Without the Pilot island's supply none of the commands does anything. -/
theorem power_command_off {s : State} (hp : s.pilot.powered = false) (feed : Fin 2) (dv : BitVec 10) (step : Fin 64)
    (draw : PowerDraw) (die : Fin 6) (celsius : Byte) {c : Instr}
    (hc : c ∈ [Instr.feedWarn feed dv, .feedFail feed dv, .feedReturn feed dv, .feedRestoreTimer feed, .powerLimit step draw,
      .thermalStretch die celsius step]) : exec c s = .next s := by
  simp only [List.mem_cons, List.not_mem_nil, or_false] at hc
  rcases hc with rfl | rfl | rfl | rfl | rfl | rfl
  · show execFeedWarn feed dv s = _
    simp [execFeedWarn, hp]
  · show execFeedFail feed dv s = _
    simp [execFeedFail, hp]
  · show execFeedReturn feed dv s = _
    simp [execFeedReturn, hp]
  · show execFeedRestoreTimer feed s = _
    simp [execFeedRestoreTimer, hp]
  · show execPowerLimit step draw s = _
    simp [execPowerLimit, hp]
  · show execThermalStretch die celsius step s = _
    simp [execThermalStretch, hp]

/-- A failed feed whose voltage is written and whose second in range begins or is broken. -/
theorem setFeedBack_of_failed {s : State} {feed : Fin 2} (hok : s.get (feedOk feed) = 0) (v : Nat) (b : Bool) :
    let u := (s.set (feedDv feed) v).setFeedBack feed b
    PilotOnly s u ∧ u.get (feedOk feed) = 0 ∧ u.feedBack feed = b :=
  ⟨((PilotOnly.refl s).set ..).setFeedBack .., by simpa using hok, by simp⟩

/-- Settles O42: what each command does to the feeds, the draw and the stretch, case by case. -/
theorem feedsAndLimits : Obligations.FeedsAndLimits := by
  intro s feed dv step watts peak die celsius
  refine ⟨fun hp => ?off, fun hp => ⟨fun hok => ?ok, fun hok => ?failed, feedRestoreTimer_idle,
    powerLimit_effect hp step watts peak, fun hc hr => thermalStretch_trips hp hr die hc step,
    fun hc => thermalStretch_effect hp die hc step⟩⟩
  case off =>
    simp only [List.forall_mem_cons, List.not_mem_nil, false_implies, implies_true, and_true]
    have off {c : Instr} := power_command_off (c := c) hp feed dv step ⟨watts, peak⟩ die celsius
    refine ⟨off ?_, off ?_, off ?_, off ?_, off ?_, off ?_⟩ <;> simp
  case ok => exact ⟨feedWarn_of_ok dv hp hok, feedFail_of_ok dv hp hok, feedReturn_of_ok dv hp hok⟩
  case failed =>
    exact ⟨⟨_, feedWarn_of_failed dv hp hok, setFeedBack_of_failed hok ..⟩,
      ⟨_, feedFail_of_failed dv hp hok, setFeedBack_of_failed hok ..⟩,
      fun hb => ⟨_, feedReturn_of_failed dv hp hok hb, setFeedBack_of_failed hok ..⟩,
      feedReturn_of_bulk dv hp hok, feedRestoreTimer_of_back hp hok⟩

end Sys2Proof.Machine
end

section
/-!
PROOFS. The resets that restart the hub, and the loss of supply and of REFCLK (01_module_overview.md R25;
18_power_clocks_and_reset.md R426, R430, R440, R442 to R444).
-/

namespace Sys2Proof.Machine

/-! ## What a reset that restarts the hub loses (18_power_clocks_and_reset.md R440, R443) -/

/-- The hub's state is lost between `s` and `u`; the queue of commands stays and no output is retracted. -/
def HubLost (s u : State) : Prop :=
  u.tiles = [] ∧ u.fab = { Fabric.reset with down := u.fab.down } ∧ u.mem = Mem.reset ∧ u.prism = Prism.reset ∧
    u.frame = FrameImage.builtin ∧ u.parts = [] ∧ u.hub = Hub.reset ∧ u.link = Link.reset ∧ u.ten = Tenants.reset ∧
    u.pilot.token = none ∧ u.pilot.mbox = Mailbox.reset ∧ u.pending = s.pending ∧ s.out <+: u.out

namespace HubLost

theorem stopHub (s : State) (k : ResetKind) : HubLost s (s.stopHub k) :=
  ⟨rfl, rfl, rfl, rfl, rfl, rfl, rfl, rfl, rfl, rfl, rfl, rfl, List.prefix_refl _⟩

/-- Registers and the rest of the Pilot island may change after it. -/
theorem pilotOnly {s t u : State} (h : HubLost s t) (k : PilotOnly t u) (htoken : u.pilot.token = t.pilot.token)
    (hmbox : u.pilot.mbox = t.pilot.mbox) : HubLost s u := by
  unfold HubLost at h ⊢
  rw [htoken, hmbox, k]
  exact h

/-- Commands before it that keep the queue and the outputs. -/
theorem of_keep {s t u : State} (k : Keep s t) (h : HubLost t u) : HubLost s u := by
  obtain ⟨htiles, hfab, hmem, hprism, hframe, hparts, hhub, hlink, hten, htoken, hmbox, hpending, hout⟩ := h
  exact ⟨htiles, hfab, hmem, hprism, hframe, hparts, hhub, hlink, hten, htoken, hmbox, hpending.trans k.pending,
    k.out.trans hout⟩

end HubLost

/-- A key whose entries a filter drops reads as the default. -/
theorem smapGet_filter_dropped {α : Type} (d : α) (m : List (Nat × α)) (q : Nat × α → Bool) (k : Nat)
    (h : ∀ v, q (k, v) = false) : smapGet d (m.filter q) k = d := by
  induction m with
  | nil => rfl
  | cons p m ih =>
    obtain ⟨j, v⟩ := p
    rw [List.filter_cons]
    split
    · have hne : k ≠ j := by
        rintro rfl
        simp_all
      rw [smapGet, if_neg hne, ih]
    · exact ih

/-- Does a reset return a field to its reset value: no field that survives it stands in its place? -/
def Fld.lostAt (f : Fld) (k : ResetKind) : Bool := !regTable.any fun g => g.kept.survives k && g.owns (f.key 0 0)

theorem ready_lostAt : ∀ k ∈ [ResetKind.cold, .modul, .hubWarm], Reg.GLOBAL_STAT_READY.lostAt k = true := by decide +kernel

theorem cause_lostAt_cold : Reg.RESET_CAUSE_CAUSE.lostAt .cold = true := by decide +kernel

theorem get_resetRegs (s : State) {f : Fld} {k : ResetKind} (h : f.lostAt k = true) :
    (s.resetRegs k).get f = f.resetVal 0 0 :=
  smapGet_filter_dropped _ _ _ _ fun _ => by simpa only [Fld.lostAt, Bool.not_eq_true'] using h

theorem stopHub_get (s : State) {f : Fld} {k : ResetKind} (h : f.lostAt k = true)
    (hf : f.key 0 0 ≠ Reg.CALIB_STAT_PASS_BUSY.key 0 0) : (s.stopHub k).get f = f.resetVal 0 0 :=
  (get_set_other _ _ _ _ hf).trans (get_resetRegs s h)

@[simp] theorem stopHub_pilot (s : State) (k : ResetKind) : (s.stopHub k).pilot =
    { s.pilot with token := none, mbox := Mailbox.reset, loaderDigest := zeros 64, passing := [] } := rfl

/-! ## What a reset notes (18_power_clocks_and_reset.md R437, R440) -/

theorem PilotOnly.showCalib {s t : State} (h : PilotOnly s t) : PilotOnly s t.showCalib := by
  dsimp only [State.showCalib]
  split
  · exact (((h.set ..).set ..).set ..).set ..
  · exact ((h.set ..).set ..).set ..

@[simp] theorem showCalib_pilot (s : State) : s.showCalib.pilot = s.pilot := by
  dsimp only [State.showCalib]
  split <;> rfl

/-- The calibration's own fields. -/
def calibFields : List Fld :=
  [Reg.PWR_EVENT_CALIB_STALE, Reg.CALIB_STAT_STALE, Reg.CALIB_STAT_FILLED6, Reg.CALIB_STAT_FILLED7]

theorem showCalib_get_other (s : State) (g : Fld) (h : ∀ f ∈ calibFields, g.key 0 0 ≠ f.key 0 0) :
    s.showCalib.get g = s.get g := by
  simp only [calibFields, List.forall_mem_cons] at h
  obtain ⟨hevent, hstale, h6, h7, -⟩ := h
  unfold State.showCalib
  rw [get_set_other _ _ _ _ h7, get_set_other _ _ _ _ h6, get_set_other _ _ _ _ hstale]
  split
  · exact get_set_other _ _ _ _ hevent
  · rfl

theorem PilotOnly.noteCause {s t : State} (h : PilotOnly s t) (n : Nat) : PilotOnly s (t.noteCause n) := h.trans rfl

@[simp] theorem noteCause_pilot (s : State) (n : Nat) : (s.noteCause n).pilot = s.pilot := rfl

/-- The module when the hub has stopped and a cause `n` is noted. -/
def State.stopFor (s : State) (k : ResetKind) (n : Nat) : State := ((s.stopHub k).showCalib).noteCause n

theorem stopFor_pilotOnly (s : State) (k : ResetKind) (n : Nat) : PilotOnly (s.stopHub k) (s.stopFor k n) := by
  unfold State.stopFor
  exact (PilotOnly.refl _).showCalib.noteCause n

@[simp] theorem stopFor_pilot (s : State) (k : ResetKind) (n : Nat) : (s.stopFor k n).pilot = (s.stopHub k).pilot := by
  rw [State.stopFor, noteCause_pilot, showCalib_pilot]

theorem HubLost.stopFor (s : State) (k : ResetKind) (n : Nat) : HubLost s (s.stopFor k n) :=
  (HubLost.stopHub s k).pilotOnly (stopFor_pilotOnly s k n) (by rw [stopFor_pilot]) (by rw [stopFor_pilot])

theorem stopFor_down (s : State) (k : ResetKind) (n : Nat) :
    (s.stopFor k n).fab.down = if k = .hubWarm then s.fab.down else [] := by
  rw [stopFor_pilotOnly s k n]
  rfl

theorem stopFor_ready (s : State) {k : ResetKind} (n : Nat) (hk : k ∈ [ResetKind.cold, .modul, .hubWarm]) :
    (s.stopFor k n).get Reg.GLOBAL_STAT_READY = 0 := by
  rw [State.stopFor, State.noteCause, get_addF_other _ _ _ _ (by decide), get_set_other _ _ _ _ (by decide),
    showCalib_get_other _ _ (by decide)]
  exact stopHub_get s (ready_lostAt k hk) (by decide)

theorem stopFor_cause (s : State) (k : ResetKind) {n : Nat} (hn : n < 16) :
    (s.stopFor k n).get Reg.RESET_CAUSE_CAUSE = n := by
  rw [State.stopFor, State.noteCause, get_addF_other _ _ _ _ (by decide), get_set_same]
  exact Nat.mod_eq_of_lt hn

/-! ## What a start applies (19_lifecycle_firmware_debug.md R458 to R460) -/

/-- Between `s` and `t` only the flash, the settings read from it and the flags of LC_STATUS changed. -/
def FlashWork (s t : State) : Prop :=
  t = { s with pilot := { s.pilot with
    flash := t.pilot.flash, fwCheck := t.pilot.fwCheck, settingsReset := t.pilot.settingsReset,
    wearLimit := t.pilot.wearLimit, deferred := t.pilot.deferred, rejected := t.pilot.rejected } }

namespace FlashWork

theorem refl (s : State) : FlashWork s s := rfl

theorem trans {s t u : State} (h : FlashWork s t) (k : FlashWork t u) : FlashWork s u := by
  unfold FlashWork at h k ⊢
  rw [k, h]

theorem applyStaged {s t : State} (h : FlashWork s t) (k : Nat) : FlashWork s (t.applyStaged k) := by
  refine h.trans ?_
  dsimp only [State.applyStaged]
  split_ifs <;> rfl

theorem raiseCounter {s t : State} (h : FlashWork s t) : FlashWork s t.raiseCounter := by
  refine h.trans ?_
  dsimp only [State.raiseCounter]
  split
  · rfl
  · split_ifs <;> rfl

theorem checkSettings {s t : State} (h : FlashWork s t) : FlashWork s t.checkSettings := by
  refine h.trans ?_
  unfold State.checkSettings
  extract_lets keep
  split_ifs <;> rfl

theorem pilotOnly {s t : State} (h : FlashWork s t) : PilotOnly s t := by
  unfold FlashWork at h
  rw [h]
  rfl

theorem regs {s t : State} (h : FlashWork s t) : t.regs = s.regs := by rw [h]

/-- The rest of the Pilot island stays. -/
theorem pilot_rest {s t : State} (h : FlashWork s t) :
    t.pilot.resetLow = s.pilot.resetLow ∧ t.pilot.token = s.pilot.token ∧ t.pilot.mbox = s.pilot.mbox := by
  unfold FlashWork at h
  rw [h]
  exact ⟨rfl, rfl, rfl⟩

end FlashWork

/-- The state in which a start has done its work on the flash and FAILED has ended. -/
def State.startFlash (s : State) : State :=
  let chk := match s.pilot.flash.settings with
    | some x => x.fwCheck
    | none => 3
  (([1, 2, 3, 4].foldl (fun s k => s.applyStaged k) (s.updPilot fun p =>
    { p with fwCheck := chk, deferred := false, rejected := false })).raiseCounter).checkSettings

theorem flashWork_startFlash (s : State) : FlashWork s s.startFlash := by
  have begun (chk : Nat) : FlashWork s (s.updPilot fun p =>
    { p with fwCheck := chk, deferred := false, rejected := false }) := rfl
  simp only [State.startFlash, List.foldl_cons, List.foldl_nil]
  exact (((((begun _).applyStaged 1).applyStaged 2).applyStaged 3).applyStaged 4).raiseCounter.checkSettings

theorem startPilot_eq (s : State) : s.startPilot =
    let t := s.startFlash.set Reg.GLOBAL_STAT_FAILED 0
    let f := t.pilot.flash
    if f.active.any fun e => e.1 = 1 && !f.imageOk 1 e.2 then t.bootAt 2 .recovery
    else if f.lcState = 5 || f.lcState = 0xFF then t.bootAt 2 .parked
    else if t.get Reg.CLK_STAT_REFCLK_OK = 1 then (t.bootAt 3 .running).set Reg.CLK_STAT_HCLK_LOCK 1
    else t.bootAt 3 .waitRef := rfl

/-- Where a start stands: in recovery, stopped in END or LOST, at row 3 with REFCLK, or before it. -/
theorem startPilot_cases (s : State) :
    let t := s.startFlash.set Reg.GLOBAL_STAT_FAILED 0
    s.startPilot ∈ [t.bootAt 2 .recovery, t.bootAt 2 .parked, (t.bootAt 3 .running).set Reg.CLK_STAT_HCLK_LOCK 1,
      t.bootAt 3 .waitRef] := by
  rw [startPilot_eq]
  dsimp only
  split_ifs <;> simp

/-- The fields that a start writes. -/
def startFields : List Fld := [Reg.GLOBAL_STAT_FAILED, Reg.GLOBAL_STAT_STAGE, Reg.CLK_STAT_HCLK_LOCK]

/-- What a start leaves. -/
structure Started (s u : State) : Prop where
  pilotOnly : PilotOnly s u
  resetLow : u.pilot.resetLow = s.pilot.resetLow
  token : u.pilot.token = s.pilot.token
  mbox : u.pilot.mbox = s.pilot.mbox
  boot : u.pilot.boot ∈ [Boot.recovery, .parked, .running, .waitRef]
  failed : u.get Reg.GLOBAL_STAT_FAILED = 0
  other : ∀ g, (∀ f ∈ startFields, g.key 0 0 ≠ f.key 0 0) → u.get g = s.get g

theorem Started.bootAt {s t : State} (h : FlashWork s t) (stage : Nat) {b : Boot}
    (hb : b ∈ [Boot.recovery, .parked, .running, .waitRef]) :
    Started s ((t.set Reg.GLOBAL_STAT_FAILED 0).bootAt stage b) := by
  obtain ⟨hlow, htoken, hmbox⟩ := h.pilot_rest
  refine ⟨((h.pilotOnly.set ..).set ..).updPilot _, hlow, htoken, hmbox, hb, ?_, fun g hg => ?_⟩
  · simp (disch := decide) [State.bootAt, get_set_other]
  · simp only [startFields, List.forall_mem_cons] at hg
    obtain ⟨hfailed, hstage, -⟩ := hg
    rw [State.bootAt, updPilot_get, get_set_other _ _ _ _ hstage, get_set_other _ _ _ _ hfailed]
    exact congrArg (fun r => smapGet (g.resetVal 0 0) r (g.key 0 0)) h.regs

theorem Started.lock {s u : State} (h : Started s u) : Started s (u.set Reg.CLK_STAT_HCLK_LOCK 1) := by
  refine ⟨h.pilotOnly.set .., h.resetLow, h.token, h.mbox, h.boot, ?_, fun g hg => ?_⟩
  · rw [get_set_other _ _ _ _ (by decide), h.failed]
  · rw [get_set_other _ _ _ _ (hg _ (by decide)), h.other g hg]

theorem startPilot_started (s : State) : Started s s.startPilot := by
  have h := startPilot_cases s
  simp only [List.mem_cons, List.not_mem_nil, or_false] at h
  have at_row (stage : Nat) {b : Boot} := Started.bootAt (flashWork_startFlash s) stage (b := b)
  rcases h with h | h | h | h <;> rw [h]
  · exact at_row 2 (by decide)
  · exact at_row 2 (by decide)
  · exact (at_row 3 (by decide)).lock
  · exact at_row 3 (by decide)

/-! ## Module resets and hub warm resets (18_power_clocks_and_reset.md R440, R442) -/

theorem HubLost.started {s t u : State} (h : HubLost s t) (k : Started t u) : HubLost s u :=
  h.pilotOnly k.pilotOnly k.token k.mbox

/-- A module reset is done: the hub's state and the failed edges are lost, a start stands where it can, and the cause is noted. -/
def ModuleResetDone (s : State) (n : Nat) (u : State) : Prop :=
  HubLost s u ∧ u.fab.down = [] ∧ (u.pilot.boot ∈ [Boot.recovery, .parked, .running, .waitRef] ∧
    u.get Reg.GLOBAL_STAT_READY = 0 ∧ u.get Reg.GLOBAL_STAT_FAILED = 0) ∧ u.get Reg.RESET_CAUSE_CAUSE = n

/-- A hub warm reset is done: the hub's state is lost, the failed edges stay, and bring-up stands at row 4. -/
def HubResetDone (s : State) (n : Nat) (u : State) : Prop :=
  HubLost s u ∧ u.fab.down = s.fab.down ∧ u.pilot.boot = .running ∧ u.get Reg.GLOBAL_STAT_READY = 0 ∧
    u.get Reg.GLOBAL_STAT_STAGE = 4 ∧ u.get Reg.RESET_CAUSE_CAUSE = n

theorem resettable_iff (s : State) : s.resettable = true ↔ s.pilot.boot ≠ .off ∧ s.pilot.boot ≠ .tripped := by
  simp [State.resettable]

theorem resettable_of_ready {s : State} (hb : s.pilot.boot = .ready) : s.resettable = true := by
  simp [resettable_iff, hb]

theorem moduleReset_eq {s : State} (hr : s.resettable = true) (n : Nat) :
    s.moduleReset n = if s.pilot.resetLow then (s.stopFor .modul n).updPilot fun p => { p with boot := .held }
      else (s.stopFor .modul n).startPilot := by
  have low_kept : (s.stopFor .modul n).pilot.resetLow = s.pilot.resetLow := by
    rw [stopFor_pilot, stopHub_pilot]
  simp only [State.moduleReset, hr, Bool.not_true, Bool.false_eq_true, if_false, ← low_kept, State.stopFor]

/-- A module reset with RESET_IN_N high begins a start. -/
theorem moduleReset_done {s : State} (hr : s.resettable = true) (hlow : s.pilot.resetLow = false) {n : Nat} (hn : n < 16) :
    ModuleResetDone s n (s.moduleReset n) := by
  have hs := startPilot_started (s.stopFor .modul n)
  simp only [ModuleResetDone, moduleReset_eq hr, hlow, Bool.false_eq_true, if_false]
  refine ⟨(HubLost.stopFor s .modul n).started hs, ?_, ⟨hs.boot, ?_, hs.failed⟩, ?_⟩
  · rw [hs.pilotOnly]
    exact stopFor_down s .modul n
  · rw [hs.other _ (by decide), stopFor_ready s n (by decide)]
  · rw [hs.other _ (by decide), stopFor_cause s _ hn]

theorem hubReset_done {s : State} (hb : s.pilot.boot = .ready) {n : Nat} (hn : n < 16) :
    HubResetDone s n (s.hubReset n) := by
  have heq : s.hubReset n = (((s.stopFor .hubWarm n).set Reg.GLOBAL_STAT_STAGE 4).set Reg.CLK_STAT_HCLK_LOCK 1).updPilot
      fun p => { p with boot := .running } := by
    simp only [State.hubReset, hb, ne_eq, not_true, if_false, State.stopFor]
  simp only [HubResetDone, heq]
  refine ⟨(HubLost.stopFor s .hubWarm n).pilotOnly (((PilotOnly.refl _).set ..).set .. |>.updPilot _) rfl rfl,
    stopFor_down s .hubWarm n, rfl, ?_, ?_, ?_⟩
  · simp (disch := decide) [get_set_other, stopFor_ready]
  · simp (disch := decide) only [updPilot_get, get_set_other, get_set_same]
    rfl
  · simp (disch := decide) [get_set_other, stopFor_cause s _ hn]

/-! ## RESET_IN_N (18_power_clocks_and_reset.md R442) -/

/-- While RESET_IN_N is low the module is held in its reset. -/
theorem resetInN_effect {s : State} (hoff : s.pilot.boot ≠ .off) (htrip : s.pilot.boot ≠ .tripped) :
    ∃ u, exec .resetInN s = .next u ∧ HubLost s u ∧ u.pilot.boot = .held ∧ u.pilot.resetLow = true ∧
      u.pilot.flash = s.pilot.flash ∧ u.get Reg.RESET_CAUSE_CAUSE = 1 ∧ u.get Reg.GLOBAL_STAT_READY = 0 := by
  let t := s.updPilot fun p => { p with resetLow := p.boot ≠ .off }
  have hlow : t.pilot.resetLow = true := decide_eq_true hoff
  have hr : t.resettable = true := (resettable_iff t).2 ⟨hoff, htrip⟩
  have hexec : exec .resetInN s = .next ((t.stopFor .modul 1).updPilot fun p => { p with boot := .held }) := by
    show Host.Outcome.next (t.moduleReset 1) = _
    rw [moduleReset_eq hr, if_pos hlow]
  have kept : Keep s t := (Keep.refl s).updPilot
  have hlost := (HubLost.stopFor t .modul 1).pilotOnly ((PilotOnly.refl _).updPilot fun p => { p with boot := .held }) rfl rfl
  refine ⟨_, hexec, .of_keep kept hlost, rfl, ?_, ?_, ?_, ?_⟩
  · rw [updPilot_pilot, stopFor_pilot, stopHub_pilot]
    exact hlow
  · rw [updPilot_pilot, stopFor_pilot, stopHub_pilot]
    rfl
  · rw [updPilot_get, stopFor_cause t _ (by decide)]
  · rw [updPilot_get, stopFor_ready t 1 (by decide)]

/-- The rising edge of RESET_IN_N starts a module that it held. -/
theorem resetInNRelease_effect (s : State) :
    ∃ u, exec .resetInNRelease s = .next u ∧ u.pilot.resetLow = false ∧ u.mem = s.mem ∧
      (if s.pilot.boot = .held then u.pilot.boot ∈ [Boot.recovery, .parked, .running, .waitRef]
       else u.regs = s.regs ∧ u.pilot.boot = s.pilot.boot) := by
  let t := s.updPilot fun p => { p with resetLow := false }
  have hexec : exec .resetInNRelease s = .next (if s.pilot.boot = .held then t.startPilot else t) := by
    show execResetInNRelease s = _
    simp only [execResetInNRelease, decide_eq_true_eq, t]
  refine ⟨_, hexec, ?_⟩
  split
  · have hs := startPilot_started t
    exact ⟨hs.resetLow, by rw [hs.pilotOnly]; rfl, hs.boot⟩
  · exact ⟨rfl, rfl, rfl, rfl⟩

/-! ## REFCLK (18_power_clocks_and_reset.md R430) -/

theorem refclkArrival_effect {s : State} (hb : s.pilot.boot = .waitRef) :
    ∃ u, exec .refclkArrival s = .next u ∧ u.pilot.boot = .running ∧ u.get Reg.GLOBAL_STAT_STAGE = 3 ∧
      u.get Reg.CLK_STAT_REFCLK_OK = 1 ∧ u.get Reg.CLK_STAT_HCLK_LOCK = 1 := by
  have hexec : exec .refclkArrival s = .next ((((s.set Reg.CLK_STAT_REFCLK_OK 1).set Reg.CLK_STAT_HCLK_LOCK 1).set
      Reg.GLOBAL_STAT_STAGE 3).updPilot fun p => { p with boot := .running }) := by
    show execRefclkArrival s = _
    rw [execRefclkArrival, if_pos hb]
  refine ⟨_, hexec, rfl, ?_⟩
  simp (disch := decide) only [updPilot_get, get_set_other, get_set_same]
  exact ⟨rfl, rfl, rfl⟩

/-- A lost REFCLK stops the clocks, and a bring-up waits for it again. -/
theorem refclkLoss_effect {s : State} (hb : s.pilot.boot = .ready ∨ s.pilot.boot = .running) :
    ∃ u, exec .refclkLoss s = .next u ∧ u.get Reg.CLK_STAT_REFCLK_OK = 0 ∧ u.get Reg.CLK_STAT_HCLK_LOCK = 0 ∧
      u.get Reg.PWR_EVENT_REFCLK_LOSS = 1 ∧ u.pilot.boot = (if s.pilot.boot = .ready then .noRef else .waitRef) ∧
      u.tiles = s.tiles ∧ u.mem = s.mem := by
  have hexec : exec .refclkLoss s = .next ((((s.set Reg.CLK_STAT_REFCLK_OK 0).set Reg.CLK_STAT_HCLK_LOCK 0).set
      Reg.PWR_EVENT_REFCLK_LOSS 1).updPilot fun p => { p with boot := if p.boot = .ready then .noRef else .waitRef }) := by
    show execRefclkLoss s = _
    simp only [execRefclkLoss, Bool.or_eq_true, decide_eq_true_eq, if_pos hb]
  refine ⟨_, hexec, ?_, ?_, ?_, rfl, rfl, rfl⟩ <;> simp (disch := decide) [get_set_other]

theorem refclkLoss_idle {s : State} (hready : s.pilot.boot ≠ .ready) (hrunning : s.pilot.boot ≠ .running) :
    exec .refclkLoss s = .next (s.set Reg.CLK_STAT_REFCLK_OK 0) := by
  show execRefclkLoss s = _
  simp [execRefclkLoss, hready, hrunning]

/-- REFCLK that returns brings a module reset. -/
theorem refclkReturn_done {s : State} (hb : s.pilot.boot = .noRef) (hlow : s.pilot.resetLow = false) :
    ∃ u, exec .refclkReturn s = .next u ∧ ModuleResetDone s 3 u := by
  have hexec : exec .refclkReturn s = .next ((s.set Reg.CLK_STAT_REFCLK_OK 1).moduleReset 3) := by
    show execRefclkReturn s = _
    rw [execRefclkReturn, if_pos hb]
  have hr : (s.set Reg.CLK_STAT_REFCLK_OK 1).resettable = true := by simp [resettable_iff, hb]
  exact ⟨_, hexec, moduleReset_done hr hlow (by decide)⟩

/-! ## Requests for a reset (18_power_clocks_and_reset.md R442) -/

/-- The watchdog resets the hub and tells of it. -/
theorem hubWatchdog_done {s : State} (hb : s.pilot.boot = .ready) :
    ∃ u, exec .hubWatchdog s = .next u ∧ HubResetDone s 7 u ∧ u.get Reg.PWR_EVENT_HUB_WDOG = 1 := by
  have hexec : exec .hubWatchdog s = .next ((s.hubReset 7).set Reg.PWR_EVENT_HUB_WDOG 1) := by
    show execHubWatchdog s = _
    rw [execHubWatchdog, if_pos hb]
  obtain ⟨hlost, hdown, hboot, hready, hstage, hcause⟩ := hubReset_done hb (n := 7) (by decide)
  refine ⟨_, hexec, ⟨hlost.pilotOnly ((PilotOnly.refl _).set ..) rfl rfl, hdown, hboot, ?_, ?_, ?_⟩, ?_⟩
  · rwa [get_set_other _ _ _ _ (by decide)]
  · rwa [get_set_other _ _ _ _ (by decide)]
  · rwa [get_set_other _ _ _ _ (by decide)]
  · simp (disch := decide)

/-- RESET_CTRL over CXL.io. -/
theorem resetCtrl_done {s : State} (hup : s.hubUp = true) (hb : s.pilot.boot = .ready) (hlow : s.pilot.resetLow = false) :
    (∃ u, exec .resetCtrlModule s = .next u ∧ ModuleResetDone s 2 u) ∧
      ∃ u, exec .resetCtrlHubWarm s = .next u ∧ HubResetDone s 4 u := by
  have hmodul : exec .resetCtrlModule s = .next (s.moduleReset 2) := by
    show Host.Outcome.next (s.cxlIo fun s => s.moduleReset 2) = _
    rw [cxlIo_of_hubUp hup]
  have hwarm : exec .resetCtrlHubWarm s = .next (s.hubReset 4) := by
    show Host.Outcome.next (s.cxlIo fun s => s.hubReset 4) = _
    rw [cxlIo_of_hubUp hup]
  exact ⟨⟨_, hmodul, moduleReset_done (resettable_of_ready hb) hlow (by decide)⟩, _, hwarm, hubReset_done hb (by decide)⟩

/-- What an answer to a request leaves as it was. -/
structure Answered (s t : State) : Prop where
  boot : t.pilot.boot = s.pilot.boot
  resetLow : t.pilot.resetLow = s.pilot.resetLow
  fab : t.fab = s.fab

@[simp] theorem raise_fab (s : State) (v : Nat) : (s.raise v).fab = s.fab := by
  unfold State.raise
  split
  · rfl
  · split <;> rfl

theorem Answered.respond (s : State) (req : Option Bytes) (rsp : Bytes) : Answered s (s.respond req rsp) := by
  unfold State.respond
  split
  · exact ⟨rfl, rfl, rfl⟩
  · split <;> exact ⟨rfl, rfl, rfl⟩

theorem Answered.deliver {s t : State} (h : Answered s t) : Answered s t.deliver := by
  unfold State.deliver
  split
  · exact h
  · obtain ⟨hboot, hlow, hfab⟩ := h
    exact ⟨by simpa [State.updMbox] using hboot, by simpa [State.updMbox] using hlow, (raise_fab ..).trans hfab⟩

/-- The module after the answer to an accepted reset request. -/
def State.afterAnswer (s : State) (cmd : Nat) (req : Option Bytes) : State :=
  (s.respond req (s.vendorRsp cmd 0 [])).deliver

theorem answered_afterAnswer (s : State) (cmd : Nat) (req : Option Bytes) : Answered s (s.afterAnswer cmd req) :=
  (Answered.respond s req _).deliver

theorem keep_afterAnswer (s : State) (cmd : Nat) (req : Option Bytes) : Keep s (s.afterAnswer cmd req) :=
  (Keep.refl s).respond.deliver

/-- An accepted reset request is answered first. -/
theorem vendor_noBody {s : State} (hb : s.pilot.boot = .ready) {cmd : Nat} {req : Option Bytes}
    (hreq : (s.request req).bind (s.vendorBody cmd) = some []) (reset : State → State) :
    s.vendor cmd req (fun b s => (s, noBody b, [])) (fun _ s => reset s.deliver) = reset (s.afterAnswer cmd req) := by
  have served : s.meet req.isSome cmd = .serve := by simp only [State.meet, hb]
  simp only [State.vendor, hreq, served, State.afterAnswer, noBody, List.isEmpty_nil, if_true]

theorem moduleReset_request_done {s : State} (hb : s.pilot.boot = .ready) (hlow : s.pilot.resetLow = false)
    {req : Option Bytes} (hreq : (s.request req).bind (s.vendorBody 1) = some []) :
    ∃ u, exec (.moduleReset req) s = .next u ∧ ModuleResetDone s 2 u := by
  have answered := answered_afterAnswer s 1 req
  have hexec : exec (.moduleReset req) s = .next ((s.afterAnswer 1 req).moduleReset 2) :=
    congrArg Host.Outcome.next (vendor_noBody hb hreq fun s => s.moduleReset 2)
  obtain ⟨hlost, started⟩ :=
    moduleReset_done (resettable_of_ready (answered.boot.trans hb)) (answered.resetLow.trans hlow) (n := 2) (by decide)
  exact ⟨_, hexec, .of_keep (keep_afterAnswer ..) hlost, started⟩

theorem hubWarmReset_request_done {s : State} (hb : s.pilot.boot = .ready)
    {req : Option Bytes} (hreq : (s.request req).bind (s.vendorBody 2) = some []) :
    ∃ u, exec (.hubWarmReset req) s = .next u ∧ HubResetDone s 4 u := by
  have answered := answered_afterAnswer s 2 req
  have hexec : exec (.hubWarmReset req) s = .next ((s.afterAnswer 2 req).hubReset 4) :=
    congrArg Host.Outcome.next (vendor_noBody hb hreq fun s => s.hubReset 4)
  obtain ⟨hlost, hdown, stands⟩ := hubReset_done (answered.boot.trans hb) (n := 4) (by decide)
  exact ⟨_, hexec, .of_keep (keep_afterAnswer ..) hlost, hdown.trans (congrArg Fabric.down answered.fab), stands⟩

/-! ## Supplies (01_module_overview.md R25; 18_power_clocks_and_reset.md R426, R440) -/

/-- The module when its supplies have fallen, the Pilot island as after a cold reset. -/
def State.unsupplied (s : State) : State := (s.stopHub .cold).updPilot fun p => Pilot.cold p.flash

theorem HubLost.unsupplied (s : State) : HubLost s s.unsupplied :=
  (HubLost.stopHub s .cold).pilotOnly ((PilotOnly.refl _).updPilot _) rfl rfl

theorem unsupplied_get (s : State) {f : Fld} (h : f.lostAt .cold = true)
    (hf : f.key 0 0 ≠ Reg.CALIB_STAT_PASS_BUSY.key 0 0) : s.unsupplied.get f = f.resetVal 0 0 := stopHub_get s h hf

/-- A start keeps what a cold reset shows. -/
theorem started_keeps_cold (feed : Fin 2) :
    ∀ g ∈ [feedOk feed, feedDv feed, Reg.PWR_STAT_ON_B, Reg.GLOBAL_STAT_READY, Reg.RESET_CAUSE_CAUSE],
      ∀ f ∈ startFields, g.key 0 0 ≠ f.key 0 0 := by
  revert feed
  decide

/-- A feed that rises starts an unpowered module. -/
theorem coldReset_effect {s : State} (hp : s.pilot.powered = false) (feed : Fin 2) (dv : BitVec 10) :
    ∃ u, exec (.coldReset feed dv) s = .next u ∧ HubLost s u ∧
      (u.pilot.boot ∈ [Boot.recovery, .parked, .running, .waitRef] ∧ u.get Reg.GLOBAL_STAT_READY = 0 ∧
        u.get Reg.GLOBAL_STAT_FAILED = 0) ∧
      u.get (feedOk feed) = 1 ∧ u.get (feedDv feed) = dv.toNat ∧ u.get Reg.PWR_STAT_ON_B = feed.val ∧
      u.get Reg.RESET_CAUSE_CAUSE = 0 := by
  let t := ((s.unsupplied.set (feedOk feed) 1).set (feedDv feed) dv.toNat).set Reg.PWR_STAT_ON_B feed.val
  have hexec : exec (.coldReset feed dv) s = .next t.startPilot := by
    show execColdReset feed dv s = _
    simp only [execColdReset, hp, Bool.false_eq_true, if_false, t, State.unsupplied]
  have hs := startPilot_started t
  have hlost : HubLost s t :=
    (HubLost.unsupplied s).pilotOnly ((((PilotOnly.refl _).set ..).set ..).set ..) rfl rfl
  have shown {g : Fld} (hg : g ∈ [feedOk feed, feedDv feed, Reg.PWR_STAT_ON_B, Reg.GLOBAL_STAT_READY,
      Reg.RESET_CAUSE_CAUSE]) : t.startPilot.get g = t.get g := hs.other g (started_keeps_cold feed g hg)
  have hready : s.unsupplied.get Reg.GLOBAL_STAT_READY = 0 := unsupplied_get s (ready_lostAt _ (by decide)) (by decide)
  have hcause : s.unsupplied.get Reg.RESET_CAUSE_CAUSE = 0 := unsupplied_get s cause_lostAt_cold (by decide)
  have hfit := feedVolts_fit feed dv
  refine ⟨_, hexec, hlost.started hs, ⟨hs.boot, ?_, hs.failed⟩, ?_, ?_, ?_, ?_⟩
  all_goals
    rw [shown (by simp)]
    rcases feed_cases feed with rfl | rfl <;>
      simp (disch := decide) [t, get_set_other, hready, hcause, hfit]

theorem powerLoss_effect {s : State} (hb : s.pilot.bulk = true) :
    ∃ u, exec .powerLoss s = .next u ∧ HubLost s u ∧ u.pilot.boot = .off ∧ u.pilot.flash = s.pilot.flash := by
  have hexec : exec .powerLoss s =
      .next ((s.stopHub .cold).updPilot fun p => { Pilot.cold p.flash with boot := .off }) := by
    show execPowerLoss s = _
    rw [execPowerLoss, if_pos hb]
  exact ⟨_, hexec, (HubLost.stopHub s .cold).pilotOnly ((PilotOnly.refl _).updPilot _) rfl rfl, rfl, rfl⟩

theorem powerLoss_idle {s : State} (hb : s.pilot.bulk = false) : exec .powerLoss s = .next s := by
  show execPowerLoss s = _
  simp only [execPowerLoss, hb, Bool.false_eq_true, if_false]

/-- A trip leaves only the Pilot island its supply. -/
theorem trip_effect {s : State} (hr : s.resettable = true) :
    HubLost s s.trip ∧ s.trip.pilot.boot = .tripped ∧ s.trip.pilot.tripOut = true ∧ s.trip.pilot.flash = s.pilot.flash := by
  rw [State.trip, if_pos hr]
  refine ⟨(HubLost.stopHub s .modul).pilotOnly ((PilotOnly.refl _).showCalib.updPilot _) ?_ ?_, rfl, rfl, ?_⟩ <;>
    rw [updPilot_pilot, showCalib_pilot]
  rfl

theorem exec_thermtrip (die : Fin 6) (celsius : Byte) (s : State) : exec (.thermtrip die celsius) s =
    .next (if s.resettable ∧ 115 ≤ celsius.toNat then (s.setDieC die celsius).trip else s) := by
  show execThermtrip die celsius s = _
  simp only [execThermtrip, Bool.and_eq_true, decide_eq_true_eq]

/-- Settles O43: every reset stops the hub in the same way; what differs is the cause, the start after it and the supplies. -/
theorem moduleResets : Obligations.ModuleResets := by
  intro s
  refine ⟨resetInN_effect, resetInNRelease_effect s, refclkArrival_effect, ?arrivalIdle, refclkLoss_effect, refclkLoss_idle,
    refclkReturn_done, ?returnIdle, fun hb => ?watchdog, ?watchdogIdle, resetCtrl_done,
    fun req hb hlow => ⟨moduleReset_request_done hb hlow, hubWarmReset_request_done hb⟩,
    fun feed dv hp => coldReset_effect hp feed dv, ?coldIdle, powerLoss_effect, powerLoss_idle,
    fun die celsius => ⟨?trip, ?cool⟩⟩
  case arrivalIdle => exact fun hb => congrArg Host.Outcome.next (if_neg hb)
  case returnIdle => exact fun hb => congrArg Host.Outcome.next (if_neg hb)
  case watchdogIdle => exact fun hb => congrArg Host.Outcome.next (if_neg hb)
  case coldIdle => exact fun _ _ hp => congrArg Host.Outcome.next (if_pos hp)
  case watchdog =>
    obtain ⟨u, hu, hdone, hevent⟩ := hubWatchdog_done hb
    exact ⟨⟨u, hu, hdone⟩, u, hu, hevent⟩
  case trip =>
    intro hc hoff htrip
    have hr := (resettable_iff s).2 ⟨hoff, htrip⟩
    rw [exec_thermtrip, if_pos ⟨hr, hc⟩]
    exact ⟨_, rfl, trip_effect (s := s.setDieC die celsius) hr⟩
  case cool =>
    intro h
    rw [exec_thermtrip, if_neg]
    rw [resettable_iff]
    rintro ⟨⟨hoff, htrip⟩, hc⟩
    rcases h with h | h | h
    · omega
    · exact hoff h
    · exact htrip h

end Sys2Proof.Machine
end

section
/-!
PROOFS. The counter-clear bits (02_fabric.md R49; 09_parameter_update.md R230; 10_links_and_collectives.md R261;
12_prism_memory_protection.md R307; 16_reliability_and_integrity.md R405).
-/

namespace Sys2Proof.Machine

/-! ## What a CNT_CLEAR bit clears -/

/-- The copies of counters that a 1 written to copy `k` of a CNT_CLEAR bit clears. -/
def clearedCopies (clr : Fld) (k : Nat) : List (Fld × Nat × Nat) :=
  (clearsAll clr).flatMap (fun f => f.copies.map fun c => (f, c)) ++ (clearsCopy clr).map fun f => (f, k, 0)

theorem cntClear_eq_foldl (s : State) (clr : Fld) (k : Nat) :
    s.cntClear clr k = (clearedCopies clr k).foldl (fun s x => s.setF x.1 x.2.1 x.2.2 0) s := by
  simp only [State.cntClear, State.clearAll, State.clearCopy, State.setAllF, clearedCopies, List.foldl_append,
    List.foldl_flatMap, List.foldl_map]

theorem mem_clearedCopies_of_all {clr f : Fld} (k : Nat) {i : Nat} (h : f ∈ clearsAll clr) (hi : i < f.c1) (h2 : 0 < f.c2) :
    (f, i, 0) ∈ clearedCopies clr k := by
  simp only [clearedCopies, Fld.copies, List.mem_append, List.mem_flatMap, List.mem_map, List.mem_range]
  exact .inl ⟨f, h, (i, 0), ⟨i, hi, 0, h2, rfl⟩, rfl⟩

theorem mem_clearedCopies_of_copy {clr f : Fld} {k : Nat} (h : f ∈ clearsCopy clr) : (f, k, 0) ∈ clearedCopies clr k :=
  List.mem_append_right _ (List.mem_map_of_mem h)

theorem clearsAll_reset (clr : Fld) : ∀ f ∈ clearsAll clr, f.reset = .num 0 := by
  unfold clearsAll
  split_ifs <;> decide

theorem clearsCopy_reset (clr : Fld) : ∀ f ∈ clearsCopy clr, f.reset = .num 0 := by
  unfold clearsCopy
  split_ifs <;> decide

/-- Every counter that a bit clears counts from 0. -/
theorem clearedCopies_reset {clr : Fld} {k : Nat} {x : Fld × Nat × Nat} (h : x ∈ clearedCopies clr k) :
    x.1.reset = .num 0 := by
  simp only [clearedCopies, List.mem_append, List.mem_flatMap, List.mem_map] at h
  rcases h with ⟨f, hf, c, -, rfl⟩ | ⟨f, hf, rfl⟩
  · exact clearsAll_reset clr f hf
  · exact clearsCopy_reset clr f hf

/-! ## Writing zero to counters -/

theorem resetVal_of_num {f : Fld} {n : Nat} (h : f.reset = .num n) (i j : Nat) : f.resetVal i j = n := by
  simp only [Fld.resetVal, h]

theorem getF_setF_zero (s : State) (f : Fld) (i j : Nat) : (s.setF f i j 0).getF f i j = 0 := by simp

/-- A counter at zero stays there while counters are set to zero, whether they share its place or not. -/
theorem setF_zero_keeps_zero {s : State} {f g : Fld} {a c : Nat} (i j : Nat) (hf : f.reset = .num 0) (hg : g.reset = .num 0)
    (h : s.getF g a c = 0) : (s.setF f i j 0).getF g a c = 0 := by
  by_cases hk : g.key a c = f.key i j
  · have same_place : (s.setF f i j 0).getF g a c = (s.setF f i j 0).getF f i j := by
      rw [State.getF, State.getF, hk, resetVal_of_num hf, resetVal_of_num hg]
    rw [same_place, getF_setF_zero]
  · rw [getF_setF_other _ _ _ _ _ _ _ _ hk, h]

theorem foldl_setF_zero_keeps_zero (l : List (Fld × Nat × Nat)) {s : State} {g : Fld} {a c : Nat}
    (hl : ∀ x ∈ l, x.1.reset = .num 0) (hg : g.reset = .num 0) (h : s.getF g a c = 0) :
    (l.foldl (fun s x => s.setF x.1 x.2.1 x.2.2 0) s).getF g a c = 0 := by
  induction l generalizing s with
  | nil => exact h
  | cons x l ih =>
    obtain ⟨hx, hl⟩ := List.forall_mem_cons.1 hl
    exact ih hl (setF_zero_keeps_zero _ _ hx hg h)

theorem foldl_setF_zero_mem (l : List (Fld × Nat × Nat)) (s : State) {x : Fld × Nat × Nat}
    (hl : ∀ x ∈ l, x.1.reset = .num 0) (h : x ∈ l) :
    (l.foldl (fun s x => s.setF x.1 x.2.1 x.2.2 0) s).getF x.1 x.2.1 x.2.2 = 0 := by
  induction l generalizing s with
  | nil => exact absurd h List.not_mem_nil
  | cons y l ih =>
    obtain ⟨hy, hrest⟩ := List.forall_mem_cons.1 hl
    rcases List.mem_cons.1 h with rfl | h
    · exact foldl_setF_zero_keeps_zero l hrest hy (getF_setF_zero ..)
    · exact ih _ hrest h

theorem foldl_setF_zero_other (l : List (Fld × Nat × Nat)) (s : State) {g : Fld} {a c : Nat}
    (h : ∀ x ∈ l, g.key a c ≠ copyKey x) :
    (l.foldl (fun s x => s.setF x.1 x.2.1 x.2.2 0) s).getF g a c = s.getF g a c := by
  induction l generalizing s with
  | nil => rfl
  | cons x l ih =>
    obtain ⟨hx, hl⟩ := List.forall_mem_cons.1 h
    exact (ih _ hl).trans (getF_setF_other _ _ _ _ _ _ _ _ hx)

theorem foldl_setF_zero_frame (l : List (Fld × Nat × Nat)) (s : State) :
    l.foldl (fun s x => s.setF x.1 x.2.1 x.2.2 0) s =
      { s with regs := (l.foldl (fun s x => s.setF x.1 x.2.1 x.2.2 0) s).regs } := by
  induction l generalizing s with
  | nil => rfl
  | cons x l ih => exact (ih _).trans (with_regs_of_frame rfl _)

/-! ## Clearing counters, by a row of the table and by a write of the register -/

theorem cntClear_frame (s : State) (clr : Fld) (k : Nat) : s.cntClear clr k = { s with regs := (s.cntClear clr k).regs } := by
  rw [cntClear_eq_foldl]
  exact foldl_setF_zero_frame ..

theorem cntClear_zeroes (s : State) {clr : Fld} {k : Nat} {x : Fld × Nat × Nat} (h : x ∈ clearedCopies clr k) :
    (s.cntClear clr k).getF x.1 x.2.1 x.2.2 = 0 := by
  rw [cntClear_eq_foldl]
  exact foldl_setF_zero_mem _ _ (fun _ => clearedCopies_reset) h

theorem cntClear_keeps_zero {s : State} (clr : Fld) (k : Nat) {g : Fld} {a c : Nat} (hg : g.reset = .num 0)
    (h : s.getF g a c = 0) : (s.cntClear clr k).getF g a c = 0 := by
  rw [cntClear_eq_foldl]
  exact foldl_setF_zero_keeps_zero _ (fun _ => clearedCopies_reset) hg h

theorem cntClear_other (s : State) {clr : Fld} {k : Nat} {g : Fld} {a c : Nat}
    (h : ∀ x ∈ clearedCopies clr k, g.key a c ≠ copyKey x) : (s.cntClear clr k).getF g a c = s.getF g a c := by
  rw [cntClear_eq_foldl]
  exact foldl_setF_zero_other _ _ h

/-- A word whose CNT_CLEAR bit is 1 zeroes the counters of that bit. -/
theorem clearWord_zeroes (s : State) {off w : Nat} {clr : Fld} {k : Nat} (hreg : (clr, k, 0) ∈ regAt off)
    (hw : bitsOf w clr.hi clr.lo ≠ 0) {x : Fld × Nat × Nat} (hx : x ∈ clearedCopies clr k) :
    (s.clearWord off w).getF x.1 x.2.1 x.2.2 = 0 := by
  have hreset := clearedCopies_reset hx
  obtain ⟨before, after, hsplit⟩ := List.append_of_mem hreg
  rw [State.clearWord, hsplit, List.foldl_append, List.foldl_cons, if_neg hw]
  refine List.foldlRecOn (motive := fun t : State => t.getF x.1 x.2.1 x.2.2 = 0) after _ (cntClear_zeroes _ hx)
    fun t ht y _ => ?_
  split
  · exact ht
  · exact cntClear_keeps_zero _ _ hreset ht

/-- A register with a CNT_CLEAR bit `clr` and a CNT_EN bit `en` in its copy `k`: it lies outside the request buffer, the MSI-X
table and the tile windows, starts nothing, its fields are open with keys of their own, and none is a counter that it clears. -/
def ClearRegister (clr en : Fld) (k : Nat) : Prop :=
  let off := clr.base + clr.s1 * k
  (off < 0x11000 ∨ 0x12000 ≤ off ∧ off < 0x30000 ∨ 0x38000 ≤ off ∧ off < 0x1000000) ∧
  (clr, k, 0) ∈ regAt off ∧ (en, k, 0) ∈ regAt off ∧ clr.hi = clr.lo ∧
  (off ∉ [Reg.KEY_CMD_OP.base, Reg.OWNER_CMD_OP.base, Reg.OBJ_CMD_OP.base, Reg.CLUSTER_CTRL_DARK_UNBOUND.base] ∧
    Reg.JOB_LOAD_CTRL_GO.copyAt off = none ∧ Reg.Q_CTRL_STOP.copyAt off = none) ∧
  (((regAt off).map copyKey).Nodup ∧ ∀ x ∈ regAt off, ethFields.contains x.1 = false) ∧
  ∀ x ∈ clearedCopies clr k, copyKey x ∉ (regAt off).map copyKey

theorem clear_PRISM_CFG : ClearRegister Reg.PRISM_CFG_CNT_CLEAR Reg.PRISM_CFG_CNT_EN 0 := by
  unfold ClearRegister; decide +kernel
theorem clear_SCRUB_CTRL : ClearRegister Reg.SCRUB_CTRL_CNT_CLEAR Reg.SCRUB_CTRL_CNT_EN 0 := by
  unfold ClearRegister; decide +kernel
theorem clear_FAB_CTRL : ClearRegister Reg.FAB_CTRL_CNT_CLEAR Reg.FAB_CTRL_CNT_EN 0 := by
  unfold ClearRegister; decide +kernel
theorem clear_GLINT_CTRL (c : CtrlIx) : ClearRegister Reg.GLINT_CTRL_CNT_CLEAR Reg.GLINT_CTRL_CNT_EN c := by
  unfold ClearRegister; revert c; decide +kernel
theorem clear_PART_FAB_CTRL (p : PartIx) : ClearRegister Reg.PART_FAB_CTRL_CNT_CLEAR Reg.PART_FAB_CTRL_CNT_EN p := by
  unfold ClearRegister; revert p; decide +kernel
theorem clear_PORT_CTRL (port : PortIx) : ClearRegister Reg.PORT_CTRL_CNT_CLEAR Reg.PORT_CTRL_CNT_EN port := by
  unfold ClearRegister; revert port; decide +kernel

/-- A write of a register with a CNT_CLEAR bit clears counters and writes the word. -/
theorem exec_registerWrite_clear {s : State} (hup : s.hubUp = true) {clr en : Fld} {k : Nat} (h : ClearRegister clr en k)
    {x : Fin 8388608} (hx : 8 * x.val = clr.base + clr.s1 * k) (w : Word) :
    exec (.registerWrite (.bar0 x) w) s =
      .next ((s.clearWord (clr.base + clr.s1 * k) w.toNat).writeWord (clr.base + clr.s1 * k) w.toNat) := by
  obtain ⟨hplace, -, -, -, ⟨hoff, hjob, hq⟩, -, -⟩ := h
  rw [← hx] at *
  have not_msix : (0x30000 ≤ 8 * x.val && 8 * x.val < 0x38000) = false := by simp; omega
  have not_buffer : (0x11000 ≤ 8 * x.val && 8 * x.val < 0x12000) = false := by simp; omega
  simp only [exec_registerWrite, execRegisterWrite, cxlIo_of_hubUp hup, not_msix, not_buffer,
    windowOf_below (show 8 * x.val < 0x1000000 by omega), writeEffect_of_none _ _ _ hoff hjob hq, Bool.false_eq_true, if_false]

/-- A row that clears counters writes zero to them alone. -/
theorem clearRow_effect {s : State} {i : Instr} {clr en : Fld} {k : Nat} (h : ClearRegister clr en k)
    (hexec : exec i s = .next (s.cntClear clr k)) :
    ∃ u, exec i s = .next u ∧ u = { s with regs := u.regs } ∧
      (∀ x ∈ clearedCopies clr k, u.getF x.1 x.2.1 x.2.2 = 0) ∧ u.getF en k 0 = s.getF en k 0 := by
  obtain ⟨-, -, hen, -, -, -, hapart⟩ := h
  have en_key : copyKey (en, k, 0) ∈ (regAt (clr.base + clr.s1 * k)).map copyKey := List.mem_map_of_mem hen
  refine ⟨_, hexec, cntClear_frame .., fun x hx => cntClear_zeroes s hx, cntClear_other s fun x hx e => ?_⟩
  have shared : copyKey (en, k, 0) = copyKey x := e
  exact hapart x hx (shared ▸ en_key)

/-- A write with CNT_CLEAR 1 zeroes the same counters, and CNT_EN takes the bit that the word carries. -/
theorem clearWrite_effect {s : State} (hup : s.hubUp = true) {clr en : Fld} {k : Nat} (h : ClearRegister clr en k)
    (hrw : en.access = .rw) (htakes : ∀ v, en.takes v = true) (w : Word) {x : Fin 8388608}
    (hx : 8 * x.val = clr.base + clr.s1 * k) (hw : bit w.toNat clr.lo = true) :
    ∃ u, exec (.registerWrite (.bar0 x) w) s = .next u ∧ (∀ x ∈ clearedCopies clr k, u.getF x.1 x.2.1 x.2.2 = 0) ∧
      u.getF en k 0 = bitsOf w.toNat en.hi en.lo := by
  refine ⟨_, exec_registerWrite_clear hup h hx w, ?_⟩
  obtain ⟨-, hclr, hen, hhi, -, ⟨hkeys, hopen⟩, hapart⟩ := h
  have bit_set : bitsOf w.toNat clr.hi clr.lo ≠ 0 := by
    intro hzero
    rw [hhi] at hzero
    rw [← bit_bitsOf_self, hzero] at hw
    exact absurd hw (by decide)
  refine ⟨fun y hy => ?_, ?_⟩
  · exact (writeWord_other_key _ _ _ _ (hapart y hy)).trans (clearWord_zeroes s hclr bit_set hy)
  · refine (writeFlds_mem _ _ _ _ hen hkeys hopen).trans ?_
    rw [written_rw hrw, htakes, if_pos rfl]
    exact Nat.mod_eq_of_lt (bitsOf_lt ..)

theorem prismCounters_cleared : ∀ f ∈ [Reg.PRISM_n_TAG_FAIL_COUNT, Reg.PRISM_n_PARTIAL_COUNT, Reg.PRISM_n_REFRESH_COUNT,
    Reg.PRISM_n_CACHE_HIT_COUNT, Reg.PRISM_n_CACHE_MISS_COUNT],
    f ∈ clearsAll Reg.PRISM_CFG_CNT_CLEAR ∧ f.c1 = 12 ∧ 0 < f.c2 := by decide

theorem eccCounters_cleared : ∀ f ∈ [Reg.ECC_CE_COUNT_COUNT, Reg.ECC_UE_COUNT_COUNT, Reg.POISON_COUNT_COUNT,
    Reg.TREE_STAT_UPPER_REPAIRS, Reg.TREE_STAT_LEAVES_LOST],
    f ∈ clearsAll Reg.SCRUB_CTRL_CNT_CLEAR ∧ f.c1 = 12 ∧ 0 < f.c2 := by decide

theorem sramCounters_cleared : ∀ f ∈ [Reg.SRAM_ERR_CE, Reg.SRAM_ERR_UE],
    f ∈ clearsAll Reg.SCRUB_CTRL_CNT_CLEAR ∧ 0 < f.c1 ∧ 0 < f.c2 := by decide

/-- Settles O39: a row clears by `clearRow_effect`, a write of its register by `clearWrite_effect`; what is left is which
counters each bit clears. -/
theorem counterClears : Obligations.CounterClears := by
  intro s c p port w hup clears
  have clears_of {i : Instr} {clr en : Fld} {k : Nat} {on : Fld → Nat → Nat → Prop} (h : ClearRegister clr en k)
      (hexec : exec i s = .next (s.cntClear clr k)) (hrw : en.access = .rw) (htakes : ∀ v, en.takes v = true)
      (hon : ∀ f i j, on f i j → (f, i, j) ∈ clearedCopies clr k) : clears i clr en k on := by
    obtain ⟨u, hu, hframe, hzero, hkeep⟩ := clearRow_effect h hexec
    refine ⟨⟨u, hu, hframe, fun f i j hf => hzero _ (hon f i j hf), hkeep⟩, fun x hx hw => ?_⟩
    obtain ⟨v, hv, hzero, hen⟩ := clearWrite_effect hup h hrw htakes w hx hw
    exact ⟨v, hv, fun f i j hf => hzero _ (hon f i j hf), hen⟩
  have exec_row {clr : Fld} {k : Nat} {i : Instr} (h : exec i s = .next (s.cxlIo fun s => s.cntClear clr k)) :
      exec i s = .next (s.cntClear clr k) := by rw [h, cxlIo_of_hubUp hup]
  refine ⟨clears_of clear_PRISM_CFG (exec_row rfl) rfl (fun _ => rfl) ?prism,
    clears_of clear_SCRUB_CTRL (exec_row rfl) rfl (fun _ => rfl) ?scrub,
    clears_of clear_FAB_CTRL (exec_row rfl) rfl (fun _ => rfl) ?fab,
    clears_of (clear_GLINT_CTRL c) (exec_row rfl) rfl (fun _ => rfl) ?glint,
    clears_of (clear_PART_FAB_CTRL p) (exec_row rfl) rfl (fun _ => rfl) ?part,
    clears_of (clear_PORT_CTRL port) (exec_row rfl) rfl (fun _ => rfl) ?port⟩
  case prism =>
    rintro f i j ⟨rfl, hi, hf⟩
    obtain ⟨hall, h1, h2⟩ := prismCounters_cleared f hf
    exact mem_clearedCopies_of_all 0 hall (h1 ▸ hi) h2
  case scrub =>
    rintro f i j ⟨rfl, ⟨hi, hf⟩ | ⟨rfl, hf⟩⟩
    · obtain ⟨hall, h1, h2⟩ := eccCounters_cleared f hf
      exact mem_clearedCopies_of_all 0 hall (h1 ▸ hi) h2
    · obtain ⟨hall, h1, h2⟩ := sramCounters_cleared f hf
      exact mem_clearedCopies_of_all 0 hall h1 h2
  case fab =>
    rintro f i j ⟨rfl, ⟨hi, rfl⟩ | ⟨hi, rfl⟩⟩
    · exact mem_clearedCopies_of_all 0 (by decide) hi (by decide)
    · exact mem_clearedCopies_of_all 0 (by decide) hi (by decide)
  case glint => rintro f i j ⟨rfl, rfl, hf⟩; exact mem_clearedCopies_of_copy hf
  case part => rintro f i j ⟨rfl, rfl, hf⟩; exact mem_clearedCopies_of_copy hf
  case port => rintro f i j ⟨rfl, rfl, hf⟩; exact mem_clearedCopies_of_copy hf

end Sys2Proof.Machine
end

section
/-!
PROOFS. Stream flits, packets of the message network, and the die edges and bridges (02_fabric.md R33 to R43, R48;
04_tile_core.md R95, R107).
-/

namespace Sys2Proof.Machine

/-! ## Reads after a change in a table -/

theorem smapGet_upd_same {α : Type} [DecidableEq α] (d : α) (m : List (Nat × α)) (k : Nat) (f : α → α) :
    smapGet d (smapUpd d m k f) k = f (smapGet d m k) := smapGet_set_same d m k _

theorem smapGet_upd_other {α : Type} [DecidableEq α] (d : α) (m : List (Nat × α)) {k j : Nat} (f : α → α) (h : j ≠ k) :
    smapGet d (smapUpd d m k f) j = smapGet d m j := smapGet_set_other d d m k j _ h

/-! ## What a crossing of edges and bridges changes (02_fabric.md R41, R43, R49) -/

/-- What the crossing of edges, its counters and the draw of free values keep: all but registers, the counter of free values
and what the edges hold of their transfer units. -/
def CrossingOnly (s u : State) : Prop :=
  u = { s with fresh := u.fresh, regs := u.regs,
               fab := { s.fab with seqs := u.fab.seqs, replays := u.fab.replays, wire := u.fab.wire } }

namespace CrossingOnly

theorem refl (s : State) : CrossingOnly s s := rfl

theorem trans {s t u : State} (h : CrossingOnly s t) (k : CrossingOnly t u) : CrossingOnly s u := by
  unfold CrossingOnly at h k ⊢
  rw [k, h]

theorem addF {s t : State} (h : CrossingOnly s t) (f : Fld) (i j n : Nat) : CrossingOnly s (t.addF f i j n) := h.trans rfl

theorem tick {s t : State} (h : CrossingOnly s t) : CrossingOnly s t.tick := h.trans rfl

theorem foldl {α : Type} {s t : State} (h : CrossingOnly s t) (l : List α) {f : State → α → State}
    (hf : ∀ u x, CrossingOnly u (f u x)) : CrossingOnly s (l.foldl f t) :=
  List.foldlRecOn l f h fun _ hu x _ => hu.trans (hf _ x)

theorem carry {s t : State} (h : CrossingOnly s t) (ed n : Nat) (unit : Bytes) : CrossingOnly s (t.carry ed n unit) := by
  unfold State.carry
  extract_lets q fab crossed
  have h := h.trans (show CrossingOnly t crossed from rfl)
  split
  · exact h.addF ..
  · exact h

theorem countEdges {s t : State} (h : CrossingOnly s t) (eds : List Nat) : CrossingOnly s (t.countEdges eds) :=
  h.foldl eds fun u _ => ((refl u).carry _ _ _).tick

theorem crossFlit {s t : State} (h : CrossingOnly s t) (p : Nat) (eds : List Nat) (f : Flit) :
    CrossingOnly s (t.crossFlit p eds f) := by
  refine h.foldl eds fun u e => ?_
  have carried := (refl u).carry e 1 f.data
  dsimp only
  split
  · exact carried.addF ..
  · exact carried

theorem countStalls {s t : State} (h : CrossingOnly s t) (p : Nat) : CrossingOnly s (t.countStalls p) := by
  unfold State.countStalls
  split
  · exact h
  · dsimp only
    split
    · exact h
    · have counted := (h.addF Reg.PART_STREAM_STALL p 0 (t.free (2 ^ 32))).tick
      split
      · exact (counted.addF ..).tick
      · exact counted

variable {s u : State} (h : CrossingOnly s u)
include h

theorem tiles : u.tiles = s.tiles := by rw [h]
theorem mem : u.mem = s.mem := by rw [h]
theorem parts : u.parts = s.parts := by rw [h]
theorem net : u.fab.net = s.fab.net := by rw [h]
theorem streams : u.fab.streams = s.fab.streams := by rw [h]

end CrossingOnly

theorem pathDown_eq_false {s : State} {eds : List Nat} (h : ∀ e ∈ eds, s.edgeDown (e / 2) = false) :
    s.pathDown eds = false := by
  simpa [State.pathDown] using h

/-! ## Die edges and bridges (02_fabric.md R41, R43, R48) -/

theorem replay_counter_apart (e : Fin 8) :
    Reg.FAB_ERR_STAT_EDGE_REPLAY.key 0 0 ≠ Reg.FAB_EDGE_REPLAY.key e 0 := by
  revert e; decide

theorem edgeReplay_effect {s : State} {e : Fin 8} (h : s.edgeDown e = false) (dir : Fin 2) :
    ∃ u, exec (.edgeReplay e dir) s = .next u ∧ u.get Reg.FAB_ERR_STAT_EDGE_REPLAY = 1 ∧
      smapGet 0 u.fab.replays (2 * e.val + dir.val) = smapGet 0 s.fab.replays (2 * e.val + dir.val) + 1 ∧
      u.tiles = s.tiles ∧ u.fab.net = s.fab.net := by
  have shown : (s.set Reg.FAB_ERR_STAT_EDGE_REPLAY 1).get Reg.FAB_ERR_STAT_EDGE_REPLAY = 1 := get_set_same ..
  have one_more := smapGet_upd_same 0 s.fab.replays (2 * e.val + dir.val) (· + 1)
  refine ⟨_, rfl, ?_⟩
  simp only [h, Bool.false_eq_true, if_false]
  split
  · refine ⟨?_, one_more, rfl, rfl⟩
    exact (getF_setF_other _ _ _ _ _ _ _ _ (replay_counter_apart e)).trans shown
  · exact ⟨shown, one_more, rfl, rfl⟩

/-- With no partition loaded nothing is done to the loaded ones. -/
theorem foldl_loaded_of_none {s : State} (h : ∀ p < 32, (s.part p).loaded = false) (f : State → Nat → State) :
    ((List.range 32).filter fun p => (s.part p).loaded).foldl f s = s := by
  rw [List.filter_eq_nil_iff.2 fun p hp => by simp [h p (List.mem_range.1 hp)], List.foldl_nil]

theorem edgeFail_effect {s : State} {e : Fin 8} (h : s.edgeDown e = false) {dir : Fin 2}
    (hfailed : 8 ≤ smapGet 0 s.fab.replays (2 * e.val + dir.val)) (hloaded : ∀ p < 32, (s.part p).loaded = false) :
    exec (.edgeFail e) s = .next { (if e.val < 4
      then s.set Reg.FAB_ERR_STAT_EDGE_FAIL (setBit (s.get Reg.FAB_ERR_STAT_EDGE_FAIL) e)
      else s.set Reg.FAB_ERR_STAT_BRIDGE_FAIL (setBit (s.get Reg.FAB_ERR_STAT_BRIDGE_FAIL) (e - 4))) with
      fab := { s.fab with down := s.fab.down ++ [e.val] } } := by
  have a_direction_failed : ((List.range 2).any fun d => 8 ≤ smapGet 0 s.fab.replays (2 * e.val + d)) = true :=
    List.any_eq_true.2 ⟨dir, List.mem_range.2 dir.isLt, decide_eq_true hfailed⟩
  show Host.Outcome.next (if s.edgeDown e.val || !((List.range 2).any fun d => 8 ≤ smapGet 0 s.fab.replays (2 * e.val + d))
    then s else _) = _
  rw [h, a_direction_failed, if_neg (by decide)]
  by_cases he : e.val < 4
  · simp only [if_pos he]
    exact congrArg Host.Outcome.next (foldl_loaded_of_none (by exact hloaded) _)
  · simp only [if_neg he]
    exact congrArg Host.Outcome.next (foldl_loaded_of_none (by exact hloaded) _)

/-- An edge that fails counts as down. -/
theorem edgeDown_of_down {s : State} {e : Nat} (h : e ∈ s.fab.down) : s.edgeDown e = true :=
  List.contains_iff_mem.2 h

theorem edgeRekey_effect {s : State} {e : Fin 8} {dir : Fin 2} (h : 2 ^ 63 ≤ smapGet 0 s.fab.seqs (2 * e.val + dir.val)) :
    ∃ u, exec (.edgeRekey e dir) s = .next u ∧ smapGet 0 u.fab.seqs (2 * e.val + dir.val) = 0 ∧
      smapGet [] u.fab.keys (2 * e.val + dir.val) = s.freeBytes 32 ∧ u.regs = s.regs ∧ u.tiles = s.tiles ∧
      u.fab.net = s.fab.net :=
  ⟨_, congrArg Host.Outcome.next (if_neg (Nat.not_lt.2 h)), smapGet_set_same 0 s.fab.seqs _ 0,
    smapGet_set_same [] s.fab.keys _ (s.freeBytes 32), rfl, rfl, rfl⟩

/-- Settles O22 by the effect of each command; an edge that fails joins the list of those that are down. -/
theorem edgesAndBridges : Obligations.EdgesAndBridges := by
  intro s e dir
  refine ⟨fun hup => ⟨edgeReplay_effect hup dir, fun hfailed hloaded => ?fail⟩, edgeRekey_effect⟩
  case fail =>
    have hexec := edgeFail_effect hup hfailed hloaded
    exact ⟨hexec, _, hexec, edgeDown_of_down (List.mem_append_right _ (List.mem_singleton_self _))⟩

/-! ## Endpoints and events of a tile (02_fabric.md R44; 04_tile_core.md R107) -/

@[simp] theorem ep_updEp_same (x : Tile) (ch : Nat) (f : Endpoint → Endpoint) : (x.updEp ch f).ep ch = f (x.ep ch) :=
  smapGet_upd_same ..

section
variable (x : Tile) (src arg n : Nat)

@[simp] theorem bump_g : (x.bump src arg n).g = x.g := by rw [Tile.bump]
@[simp] theorem bump_pc : (x.bump src arg n).pc = x.pc := by rw [Tile.bump]
@[simp] theorem bump_scratch : (x.bump src arg n).scratch = x.scratch := by rw [Tile.bump]
@[simp] theorem bump_eps : (x.bump src arg n).eps = x.eps := by rw [Tile.bump]
@[simp] theorem bump_replyBuf : (x.bump src arg n).replyBuf = x.replyBuf := by rw [Tile.bump]
@[simp] theorem bump_ep (ch : Nat) : (x.bump src arg n).ep ch = x.ep ch := by rw [Tile.ep, bump_eps, Tile.ep]

end

theorem bump_e (x : Tile) (src arg : Nat) (k : Fin 16) :
    (x.bump src arg 1).e[k.val] = if (x.evSrc[k.val]).toNat = src + 8 * arg then x.e[k.val] + 1 else x.e[k.val] := by
  simp [Tile.bump]

/-! ## The arrival of a packet (02_fabric.md R40; 04_tile_core.md R95) -/

section
variable {s : State} {i : Nat} {m : NetMsg}

/-- A packet has left the network and has done nothing yet. -/
def State.withoutPacket (s : State) (i : Nat) : State := { s with fab := { s.fab with net := s.fab.net.eraseIdx i } }

/-- The first packet of its channel on a whole way leaves the network and does at its tile what its kind does. -/
theorem arrive_of_first {ok : NetMsg → Bool} {f : NetMsg → Tile → Tile} (hm : s.fab.net[i]? = some m)
    (hfirst : (s.fab.net.take i).any m.sameChannel = false ∧ ∀ e ∈ m.edges, s.edgeDown (e / 2) = false)
    (hok : ok m = true) :
    let u := s.arrive i .none ok fun m s => s.updTile m.dstTile (f m)
    u.fab.net = s.fab.net.eraseIdx i ∧ u.tile m.dstTile = f m (s.tile m.dstTile) ∧
      ∀ k, k ≠ m.dstTile → u.tile k = s.tile k := by
  intro u
  have crossed : CrossingOnly (s.withoutPacket i) ((s.withoutPacket i).countEdges m.edges) :=
    (CrossingOnly.refl _).countEdges _
  have hu : u = ((s.withoutPacket i).countEdges m.edges).updTile m.dstTile (f m) := by
    simp only [u, State.arrive, hm, hfirst.1, pathDown_eq_false hfirst.2, hok]
    rfl
  have same_tile (k : Nat) : ((s.withoutPacket i).countEdges m.edges).tile k = s.tile k := by
    rw [State.tile, crossed.tiles]
    rfl
  rw [hu]
  refine ⟨crossed.net, ?_, fun k hk => ?_⟩
  · rw [tile_updTile_same, same_tile]
  · rw [tile_updTile_other _ _ _ _ hk, same_tile]

/-- A packet behind an earlier one of its channel stays where it is. -/
theorem arrive_of_behind (hm : s.fab.net[i]? = some m) (hbehind : (s.fab.net.take i).any m.sameChannel = true)
    (ok : NetMsg → Bool) (f : NetMsg → State → State) : s.arrive i .none ok f = s := by
  simp only [State.arrive, hm, hbehind, Bool.true_or, if_true]

end

/-- What a packet with channel data, or else a reply of the hub, does at its tile. -/
def NetMsg.enter (m : NetMsg) (x : Tile) : Tile :=
  if m.kind = .data then
    (x.updEp m.dstEp fun e => { e with queue := e.queue ++ [⟨m.srcTile, m.srcEp, m.words⟩] }).bump 3 m.dstEp 1
  else { x with replyBuf := some m.words }.bump 3 m.dstEp 1

theorem enter_of_data {m : NetMsg} (h : m.kind = .data) (x : Tile) :
    m.enter x = (x.updEp m.dstEp fun e => { e with queue := e.queue ++ [⟨m.srcTile, m.srcEp, m.words⟩] }).bump 3 m.dstEp 1 :=
  if_pos h

theorem enter_of_reply {m : NetMsg} (h : m.kind = .reply) (x : Tile) :
    (m.enter x).replyBuf = some m.words ∧ (m.enter x).eps = x.eps := by
  rw [NetMsg.enter, if_neg (by simp [h]), bump_replyBuf, bump_eps]
  exact ⟨rfl, rfl⟩

/-- What a credit return does at its tile. -/
def NetMsg.credit (m : NetMsg) (x : Tile) : Tile :=
  x.updEp m.dstEp fun e => { e with credits := min 4 (e.credits + 1) }

theorem exec_msgPacketArrive (i : Nat) (fault : NetFault) (s : State) : exec (.msgPacketArrive i fault) s =
    .next (s.arrive i fault (fun m => m.kind = .data || m.kind = .reply) fun m s => s.updTile m.dstTile m.enter) := rfl

theorem exec_msgCreditReturn (i : Nat) (fault : NetFault) (s : State) : exec (.msgCreditReturn i fault) s =
    .next (s.arrive i fault (fun m => m.kind = .credit) fun m s => s.updTile m.dstTile m.credit) := rfl

/-- Settles O21: each kind of packet arrives by `arrive_of_first`, and what it does at its tile is `enter` or `credit`. -/
theorem packetsArrive : Obligations.PacketsArrive := by
  intro s i m hm x first
  refine ⟨fun hfirst hkind => ?data, fun hfirst hkind => ?reply, fun hfirst hkind => ?credit, fun hbehind => ?behind⟩
  case data =>
    obtain ⟨hnet, htile, hothers⟩ := arrive_of_first (ok := fun m => m.kind = .data || m.kind = .reply) (f := NetMsg.enter)
      hm hfirst (by simp [hkind])
    refine ⟨_, _, exec_msgPacketArrive i .none s, htile, hnet, ?_⟩
    rw [enter_of_data hkind, bump_ep, bump_g, bump_scratch, bump_pc]
    exact ⟨ep_updEp_same .., fun k => bump_e _ 3 m.dstEp k, rfl, rfl, rfl, hothers⟩
  case reply =>
    obtain ⟨hnet, htile, -⟩ := arrive_of_first (ok := fun m => m.kind = .data || m.kind = .reply) (f := NetMsg.enter)
      hm hfirst (by simp [hkind])
    exact ⟨_, _, exec_msgPacketArrive i .none s, htile, hnet, enter_of_reply hkind _⟩
  case credit =>
    obtain ⟨hnet, htile, -⟩ := arrive_of_first (ok := fun m => m.kind = .credit) (f := NetMsg.credit)
      hm hfirst (by simp [hkind])
    exact ⟨_, _, exec_msgCreditReturn i .none s, htile, hnet, ep_updEp_same .., rfl⟩
  case behind =>
    rw [exec_msgPacketArrive, exec_msgCreditReturn, arrive_of_behind hm hbehind, arrive_of_behind hm hbehind]
    exact ⟨rfl, rfl⟩

/-! ## Slots of a stream (02_fabric.md R34 to R36, R48) -/

/-- One slot of a stream. -/
def StreamSt.slot (st : StreamSt) (k : Nat) : Slot := smapGet Slot.empty st.slots k

/-- A flit joins the end of a slot's buffer. -/
def StreamSt.push (st : StreamSt) (d : Nat) (f : Flit) : StreamSt :=
  { st with slots := smapUpd Slot.empty st.slots d fun x => { x with flits := x.flits ++ [f] } }

theorem place_slot (s : State) (p stream : Nat) (f : Flit) (d : Nat) :
    s.place p stream f (.slot d) = s.updStream p stream fun st => st.push d f := rfl

@[simp] theorem stream_updStream_same (s : State) (p id : Nat) (g : StreamSt → StreamSt) :
    (s.updStream p id g).stream p id = g (s.stream p id) := smapGet_upd_same ..

theorem slot_push_same (st : StreamSt) (d : Nat) (f : Flit) :
    (st.push d f).slot d = { st.slot d with flits := (st.slot d).flits ++ [f] } :=
  smapGet_upd_same Slot.empty st.slots d fun x => { x with flits := x.flits ++ [f] }

@[simp] theorem slot_push_flits (st : StreamSt) (d : Nat) (f : Flit) :
    ((st.push d f).slot d).flits = (st.slot d).flits ++ [f] := by rw [slot_push_same]

@[simp] theorem slot_push_owed (st : StreamSt) (d : Nat) (f : Flit) : ((st.push d f).slot d).owed = (st.slot d).owed := by
  rw [slot_push_same]

theorem slot_push_other (st : StreamSt) {d k : Nat} (f : Flit) (h : k ≠ d) : (st.push d f).slot k = st.slot k :=
  smapGet_upd_other Slot.empty st.slots (fun x => { x with flits := x.flits ++ [f] }) h

/-- A flit that leaves a source. -/
theorem take_source {st : StreamSt} {f : Flit} {rest : List Flit} (h : st.src = f :: rest) (key : Nat) :
    st.take true key = some (f, { st with src := rest, taken := st.taken + 1 }) := by
  simp only [StreamSt.take, if_true, h]

/-- A flit that leaves a slot puts one credit on its way back. -/
theorem take_slot {st : StreamSt} {key : Nat} {f : Flit} {rest : List Flit} (h : (st.slot key).flits = f :: rest) :
    ∃ st', st.take false key = some (f, st') ∧
      st'.slot key = { st.slot key with flits := rest, owed := (st.slot key).owed + 1 } ∧
      ∀ k, k ≠ key → st'.slot k = st.slot k := by
  have h : (smapGet Slot.empty st.slots key).flits = f :: rest := h
  refine ⟨{ st with slots := smapSet Slot.empty st.slots key ⟨rest, (st.slot key).owed + 1, (st.slot key).stuck⟩ }, ?_,
    smapGet_set_same .., fun k hk => ?_⟩
  · simp only [StreamSt.take, Bool.false_eq_true, if_false, h]
    rfl
  · exact smapGet_set_other Slot.empty _ st.slots _ _ _ hk

/-! ## A flit on its hop (02_fabric.md R35 to R37, R41, R42) -/

/-- A flit has left its slot or source, counted or not, and has crossed the edges of its hop; it has arrived nowhere yet. -/
def State.sentFlit (s : State) (p stream : Nat) (st' : StreamSt) (counted : Bool) (eds : List Nat) (f : Flit) : State :=
  let left := (s.countStalls p).updStream p stream fun _ => st'
  (if counted then left.addF Reg.PART_STREAM_FLITS p 0 1 else left).crossFlit p eds f

theorem crossingOnly_sentFlit (s : State) (p stream : Nat) (st' : StreamSt) (counted : Bool) (eds : List Nat) (f : Flit) :
    CrossingOnly ((s.countStalls p).updStream p stream fun _ => st') (s.sentFlit p stream st' counted eds f) := by
  unfold State.sentFlit
  cases counted
  · exact (CrossingOnly.refl _).crossFlit ..
  · exact ((CrossingOnly.refl _).addF ..).crossFlit ..

/-- When the flit reaches a slot, its stream is what was left of it with the flit in that slot, and nothing else has moved. -/
theorem place_sentFlit (s : State) (p stream : Nat) (st' : StreamSt) (counted : Bool) (eds : List Nat) (f : Flit) (d : Nat) :
    let u := (s.sentFlit p stream st' counted eds f).place p stream f (.slot d)
    u.stream p stream = st'.push d f ∧ u.tiles = s.tiles ∧ u.fab.net = s.fab.net ∧ u.mem = s.mem ∧ u.parts = s.parts := by
  intro u
  have stalls : CrossingOnly s (s.countStalls p) := (CrossingOnly.refl s).countStalls p
  have sent := crossingOnly_sentFlit s p stream st' counted eds f
  have left : (s.sentFlit p stream st' counted eds f).stream p stream = st' := by
    rw [State.stream, sent.streams]
    exact stream_updStream_same ..
  refine ⟨?_, sent.tiles.trans stalls.tiles, sent.net.trans stalls.net, sent.mem.trans stalls.mem,
    sent.parts.trans stalls.parts⟩
  simp only [u, place_slot, stream_updStream_same, left]

section
variable {s : State} {p : PartIx} {id : Fin 4096} {b : Fin 16} {h : Fin 128} {q : PartRect} {r : Route} {d : Nat}
  (hrect : s.rect p = some q) (hroute : (s.part p).image.routes.find? (fun r => r.stream = id.val) = some r)
  {inject : Bool}
  (hinject : ((s.part p).image.hubSourced (4 * q.cx0) (4 * q.cy0) r && decide (h.val = 0) && decide (b.val = 1)) = inject)
  (hdest : (if inject then [.slot 0] else r.dests b h) = [Dest.slot d])
include hrect hroute hinject hdest

/-- Without a credit of its one destination a flit stays. -/
theorem streamFlitSend_of_no_credit (fault : NetFault) (hcredit : s.hasCredit p r (4 * q.cx0) (4 * q.cy0) (.slot d) = false) :
    exec (.streamFlitSend p id b h fault) s = .next s := by
  show execStreamFlitSend p id b h fault s = _
  simp only [execStreamFlitSend, hrect, hroute, hinject, hdest, List.all_cons, hcredit, Bool.false_and, Bool.not_false,
    Bool.or_true, Bool.true_or, if_true]

/-- With a credit, on a whole way, a flit goes from its source or slot to the end of the next slot's buffer. -/
theorem streamFlitSend_of_credit {f : Flit} {st' : StreamSt} {eds : List Nat} (hloaded : (s.part p).loaded = true)
    (hstart : (decide (h.val = 0) && decide (b.val ≠ 0) && !inject) = false)
    (hstuck : ((s.stream p id).slot (128 * b.val + h.val)).stuck = false)
    (hcredit : s.hasCredit p r (4 * q.cx0) (4 * q.cy0) (.slot d) = true)
    (hedges : (if inject then [r.hubEdge (4 * q.cx0) (4 * q.cy0)] else r.hopEdges (4 * q.cx0) (4 * q.cy0) b h [.slot d]) = eds)
    (hway : s.pathDown eds = false)
    {src : Bool} (hsrc : (inject || (decide (h.val = 0) && !(s.part p).image.hubSourced (4 * q.cx0) (4 * q.cy0) r)) = src)
    (htake : (s.stream p id).take src (128 * b.val + h.val) = some (f, st')) :
    ∃ u, exec (.streamFlitSend p id b h .none) s = .next u ∧ u.stream p id = st'.push d f ∧ u.tiles = s.tiles ∧
      u.fab.net = s.fab.net ∧ u.mem = s.mem ∧ u.parts = s.parts := by
  have hid : r.stream = id.val := by simpa using List.find?_some hroute
  have hstuck : (smapGet Slot.empty (s.stream p id).slots (128 * b.val + h.val)).stuck = false := hstuck
  refine ⟨_, ?_, place_sentFlit s p id st' (decide (h.val = 0) && !(s.part p).image.hubSourced (4 * q.cx0) (4 * q.cy0) r &&
    decide (s.getF Reg.PART_FAB_CTRL_CNT_EN p 0 = 1)) eds f d⟩
  show execStreamFlitSend p id b h .none s = _
  simp only [execStreamFlitSend, hrect, hroute, hinject, hdest, hid, hloaded, hstart, hstuck, hedges, hway, hsrc, htake,
    hcredit, List.all_cons, List.all_nil]
  rfl

end

/-- What a credit that comes back does to its slot: one that lost a flit gets none (R48). -/
def Slot.creditBack (x : Slot) : Slot := if x.stuck then x else { x with owed := x.owed - 1 }

theorem creditBack_of_not_stuck {x : Slot} (h : x.stuck = false) : x.creditBack = { x with owed := x.owed - 1 } :=
  if_neg (Bool.eq_false_iff.1 h)

theorem exec_creditReturn (p : PartIx) (id : Fin 4096) (b : Fin 16) (h : Fin 128) (s : State) :
    exec (.creditReturn p id b h) s = .next (s.updStream p id fun st => { st with
      slots := smapUpd Slot.empty st.slots (128 * b.val + h.val) Slot.creditBack }) := rfl

theorem creditReturn_effect (s : State) (p : PartIx) (id : Fin 4096) (b : Fin 16) (h : Fin 128) :
    ∃ u, exec (.creditReturn p id b h) s = .next u ∧
      (u.stream p id).slot (128 * b.val + h.val) = ((s.stream p id).slot (128 * b.val + h.val)).creditBack ∧
      u.tiles = s.tiles ∧ u.regs = s.regs ∧
      ∀ k, k ≠ 128 * b.val + h.val → (u.stream p id).slot k = (s.stream p id).slot k := by
  refine ⟨_, exec_creditReturn p id b h s, ?_, rfl, rfl, fun k hk => ?_⟩
  · rw [stream_updStream_same]
    exact smapGet_upd_same Slot.empty (s.stream p id).slots _ Slot.creditBack
  · rw [stream_updStream_same]
    exact smapGet_upd_other Slot.empty (s.stream p id).slots Slot.creditBack hk

/-- Settles O20: with a credit `streamFlitSend_of_credit` moves on the flit that `take_source` or `take_slot` takes. -/
theorem streamFlitsAndCredits : Obligations.StreamFlitsAndCredits := by
  intro s p id b h key slotOf
  refine ⟨?along, ?fromHub, fun hstuck => creditBack_of_not_stuck hstuck ▸ creditReturn_effect s p id b h⟩
  case along =>
    intro q r d f rest hrect hroute hloaded hfirst hdest hapart hstuck hway tile hfront
    have key_zero : key = 0 ↔ h.val = 0 := by omega
    have no_inject : ((s.part p).image.hubSourced (4 * q.cx0) (4 * q.cy0) r && decide (h.val = 0) && decide (b.val = 1)) =
        false := by
      simp only [Bool.and_eq_false_iff, decide_eq_false_iff_not]
      omega
    have in_order : (decide (h.val = 0) && decide (b.val ≠ 0) && !false) = false := by
      simp only [Bool.and_eq_false_iff, decide_eq_false_iff_not]
      omega
    refine ⟨fun hcredit => ?_, streamFlitSend_of_no_credit hrect hroute no_inject hdest .none⟩
    have sends {st' : StreamSt} {src : Bool} := streamFlitSend_of_credit (f := f) (st' := st') (src := src) hrect hroute
      no_inject hdest hloaded in_order hstuck hcredit rfl (pathDown_eq_false hway)
    by_cases htile : tile
    · have from_source : (false || (decide (h.val = 0) && !(s.part p).image.hubSourced (4 * q.cx0) (4 * q.cy0) r)) =
          true := by
        simp [← key_zero, htile.1, htile.2]
      rw [if_pos htile] at hfront
      obtain ⟨u, hu, hstream, hrest⟩ := sends from_source (take_source hfront _)
      refine ⟨u, hu, ?_⟩
      simp only [slotOf, if_pos htile, hstream]
      exact ⟨slot_push_flits .., slot_push_owed .., ⟨rfl, rfl⟩, hrest⟩
    · have from_slot : (false || (decide (h.val = 0) && !(s.part p).image.hubSourced (4 * q.cx0) (4 * q.cy0) r)) =
          false := by
        simpa [tile, key_zero] using htile
      rw [if_neg htile] at hfront
      obtain ⟨st', htake, hleft, hothers⟩ := take_slot (st := s.stream p id) hfront
      obtain ⟨u, hu, hstream, hrest⟩ := sends from_slot htake
      refine ⟨u, hu, ?_⟩
      have slot_left := (slot_push_other st' f hapart.symm).trans hleft
      have joined := slot_push_flits st' d f
      have owed_kept := slot_push_owed st' d f
      rw [hothers d hapart] at joined owed_kept
      simp only [slotOf, if_neg htile, hstream]
      exact ⟨joined, owed_kept, ⟨congrArg Slot.flits slot_left, congrArg Slot.owed slot_left⟩, hrest⟩
  case fromHub =>
    intro q r f rest hrect hroute hloaded hhub hb hh hstuck hway hcredit hfront
    have injects : ((s.part p).image.hubSourced (4 * q.cx0) (4 * q.cy0) r && decide (h.val = 0) && decide (b.val = 1)) =
        true := by simp [hhub, hb, hh]
    have way_whole : s.pathDown [r.hubEdge (4 * q.cx0) (4 * q.cy0)] = false :=
      pathDown_eq_false fun e he => List.mem_singleton.1 he ▸ hway
    obtain ⟨u, hu, hstream, hrest⟩ := streamFlitSend_of_credit hrect hroute injects rfl hloaded (Bool.and_false _) hstuck
      hcredit rfl way_whole rfl (take_source hfront _)
    refine ⟨u, hu, ?_⟩
    simp only [slotOf, hstream]
    exact ⟨slot_push_flits .., rfl, hrest⟩

end Sys2Proof.Machine
end

section
/-!
PROOFS. What accesses to memory, notices, records of errors and ends of commands leave as it was: tiles, the frame, partitions, the
profile in force and the index of the last tile reset (11_memory_tiers_and_weights.md; 12_prism_memory_protection.md R286, R292 to
R295; 15_shared_objects_and_submission.md R352, R355, R368 to R371, R379).
-/

namespace Sys2Proof.Machine

/-! ## Runs over a list -/

/-- What every element of a list leaves as it was, the run over the list leaves. -/
theorem foldl_keeps {α β γ : Type} (π : α → γ) {f : α → β → α} {l : List β} (h : ∀ a, ∀ b ∈ l, π (f a b) = π a) (a : α) :
    π (l.foldl f a) = π a :=
  List.foldlRecOn (motive := fun t => π t = π a) l f rfl fun t ht b hb => (h t b hb).trans ht

/-! ## Keys of the register file -/

/-- A field that starts above another's one copy has none at its key. -/
theorem key_ne_of_base_lt {f g : Fld} (h : g.base < f.base) (hg : g.lo < 64) (i j : Nat) : g.key 0 0 ≠ f.key i j := by
  simp only [Fld.key]
  omega

/-- Fields with different low bits share no key. -/
theorem key_ne_of_lo_ne {f g : Fld} (h : f.lo ≠ g.lo) (hf : f.lo < 64) (hg : g.lo < 64) (a c i j : Nat) :
    g.key a c ≠ f.key i j := by
  simp only [Fld.key]
  omega

/-- A field whose stride does not lead to another's one copy has none at its key. -/
theorem key_ne_of_stride {f g : Fld} (hs : f.s2 = 0) (hf : f.lo < 64) (hg : g.lo < 64) (h : f.base % f.s1 ≠ g.base % f.s1)
    (i j : Nat) : g.key 0 0 ≠ f.key i j := by
  intro e
  simp only [Fld.key, hs] at e
  have at_base : g.base = f.base + f.s1 * i := by omega
  exact h (by rw [at_base, Nat.add_mul_mod_self_left])

/-! ## What stands beside memory -/

/-- What no access to memory, no notice and no end of a command touches: the tiles, the frame, the partitions, the profile in
force and the index of the last tile reset. -/
def State.beside (s : State) : List (Nat × Tile) × FrameImage × List (Nat × Part) × Nat × Nat :=
  (s.tiles, s.frame, s.parts, s.get Reg.PRISM_CFG_PROFILE, s.get Reg.TILE_RESET_INDEX)

/-- Has a field no copy at the keys of the profile and of the index of the last tile reset: its low bit is not theirs, it lies above
both, or it lies above the second and no stride leads from it to the first? -/
def Fld.beside (f : Fld) : Bool :=
  f.lo < 64 && (f.lo ≠ 0 || Reg.PRISM_CFG_PROFILE.base < f.base ||
    (Reg.TILE_RESET_INDEX.base < f.base && f.s2 = 0 && f.base % f.s1 ≠ Reg.PRISM_CFG_PROFILE.base % f.s1))

theorem beside_of_fst {α : Type} {x : State × α} {t : State} {a : α} (h : x = (t, a)) : t.beside = x.1.beside := by
  rw [h]

theorem beside_of_regs {s t : State} (htiles : t.tiles = s.tiles) (hframe : t.frame = s.frame) (hparts : t.parts = s.parts)
    (hregs : t.regs = s.regs) : t.beside = s.beside := by
  simp only [State.beside, State.get, State.getF, htiles, hframe, hparts, hregs]

theorem part_of_beside {s t : State} (h : t.beside = s.beside) (p : Nat) : t.part p = s.part p := by
  simp only [State.beside, Prod.mk.injEq] at h
  obtain ⟨-, -, hparts, -⟩ := h
  rw [State.part, hparts, State.part]

theorem beside_setF_of_key {s : State} {f : Fld} {i j : Nat} (v : Nat) (hp : Reg.PRISM_CFG_PROFILE.key 0 0 ≠ f.key i j)
    (ht : Reg.TILE_RESET_INDEX.key 0 0 ≠ f.key i j) : (s.setF f i j v).beside = s.beside := by
  simp only [State.beside, State.get, getF_setF_other _ _ _ _ _ _ _ _ hp, getF_setF_other _ _ _ _ _ _ _ _ ht, setF_tiles,
    setF_frame, setF_parts]

theorem beside_setF {f : Fld} (h : f.beside = true) (s : State) (i j v : Nat) : (s.setF f i j v).beside = s.beside := by
  simp only [Fld.beside, Bool.and_eq_true, Bool.or_eq_true, decide_eq_true_eq] at h
  obtain ⟨hlo, (h | h) | ⟨⟨h, hs⟩, hstride⟩⟩ := h
  · exact beside_setF_of_key v (key_ne_of_lo_ne (g := Reg.PRISM_CFG_PROFILE) h hlo (by decide) 0 0 i j)
      (key_ne_of_lo_ne (g := Reg.TILE_RESET_INDEX) h hlo (by decide) 0 0 i j)
  · exact beside_setF_of_key v (key_ne_of_base_lt h (by decide) i j)
      (key_ne_of_base_lt (g := Reg.TILE_RESET_INDEX) (lt_trans (by decide) h) (by decide) i j)
  · exact beside_setF_of_key v (key_ne_of_stride hs hlo (by decide) hstride i j) (key_ne_of_base_lt h (by decide) i j)

theorem beside_set {f : Fld} (hp : Reg.PRISM_CFG_PROFILE.key 0 0 ≠ f.key 0 0) (ht : Reg.TILE_RESET_INDEX.key 0 0 ≠ f.key 0 0)
    (s : State) (v : Nat) : (s.set f v).beside = s.beside := beside_setF_of_key v hp ht

theorem beside_addF {f : Fld} (h : f.beside = true) (s : State) (i j n : Nat) : (s.addF f i j n).beside = s.beside :=
  beside_setF h ..

@[simp] theorem beside_tick (s : State) : s.tick.beside = s.beside := rfl
@[simp] theorem beside_setLine (s : State) (ln : Nat) (l : Line) (b : Bytes) : (s.setLine ln l b).beside = s.beside := rfl
@[simp] theorem beside_setMajor (s : State) (sec v : Nat) : (s.setMajor sec v).beside = s.beside := rfl
@[simp] theorem beside_setCmds (s : State) (q : Nat) (l : List HubCmd) : (s.setCmds q l).beside = s.beside := rfl

/-! ## Lines (12_prism_memory_protection.md R286, R292 to R295) -/

theorem beside_prismCount {f : Fld} (h : f.beside = true) (s : State) (c n : Nat) :
    (s.prismCount f c n).beside = s.beside := by
  unfold State.prismCount
  split
  · exact beside_addF h ..
  · rfl

theorem beside_eccCount {f : Fld} (h : f.beside = true) (s : State) (c n : Nat) : (s.eccCount f c n).beside = s.beside := by
  unfold State.eccCount
  split
  · exact beside_addF h ..
  · rfl

@[simp] theorem beside_noteRefusal (s : State) (m code c a : Nat) : (s.noteRefusal m code c a).beside = s.beside := by
  unfold State.noteRefusal
  extract_lets t
  have ht : t.beside = s.beside := by
    unfold t
    split_ifs <;> simp (disch := decide) only [beside_set]
  simp (disch := decide) only [beside_set, ht]

@[simp] theorem beside_settle (s : State) (c sec : Nat) : (s.settle c sec).beside = s.beside := by
  unfold State.settle
  split <;> rfl

@[simp] theorem beside_noteLeaf (s : State) (c sec : Nat) : (s.noteLeaf c sec).beside = s.beside := by
  unfold State.noteLeaf
  split <;> rfl

@[simp] theorem beside_eccLast (s : State) (c sec line area cw sym : Nat) (ue : Bool) :
    (s.eccLast c sec line area cw sym ue).beside = s.beside := by
  unfold State.eccLast
  split
  · simp (disch := decide) only [beside_setF]
  · rfl

@[simp] theorem beside_countCe (s : State) (c ln cw sym : Nat) : (s.countCe c ln cw sym).beside = s.beside := by
  unfold State.countCe State.countCeIn
  extract_lets t th
  have ht : t.beside = s.beside := by simp (disch := decide) only [t, beside_eccLast, beside_eccCount]
  split
  · simp (disch := decide) only [beside_setF, ht]
  · exact ht

@[simp] theorem beside_readEcc (s : State) (c ln : Nat) : (s.readEcc c ln).beside = s.beside := by
  unfold State.readEcc
  extract_lets l
  split
  · rfl
  · exact beside_countCe ..

@[simp] theorem beside_lookup (s : State) (c sec : Nat) : (s.lookup c sec).beside = s.beside := by
  unfold State.lookup
  split
  · extract_lets settled q hit t
    have ht : t.beside = s.beside := by
      unfold t
      split <;> simp (disch := decide) only [beside_prismCount, settled, beside_settle]
    split <;> exact ht
  · rfl

@[simp] theorem beside_readLine (s : State) (m c a ln key : Nat) : (s.readLine m c a ln key).1.beside = s.beside := by
  unfold State.readLine
  extract_lets t l
  have ht : t.beside = s.beside := by simp only [t, beside_readEcc, beside_lookup]
  split_ifs
  all_goals simp (disch := decide) only [beside_noteRefusal, beside_prismCount, ht]

@[simp] theorem beside_wear (s : State) (c lbn keyId : Nat) (exh : Bool) : (s.wear c lbn keyId exh).beside = s.beside := by
  unfold State.wear
  extract_lets n hit
  clear_value hit
  cases hit
  case some j => split_ifs <;> simp (disch := decide) only [beside_setF]
  case none => split_ifs <;> simp (disch := decide) only [beside_setF]

@[simp] theorem beside_refreshCheck (s : State) (c ln key : Nat) : (s.refreshCheck c ln key).beside = s.beside := by
  unfold State.refreshCheck
  extract_lets t
  have ht : t.beside = s.beside := beside_readEcc ..
  split
  · simp (disch := decide) only [beside_set, beside_prismCount, ht]
  · exact ht

@[simp] theorem beside_refresh (s : State) (c sec keyId key : Nat) : (s.refresh c sec keyId key).beside = s.beside := by
  unfold State.refresh
  extract_lets t m lines u
  have ht : t.beside = s.beside := foldl_keeps State.beside (fun a i _ => beside_refreshCheck ..) s
  have hlines : lines.beside = t.beside := by
    refine foldl_keeps State.beside (fun a i _ => ?_) t
    dsimp only
    split_ifs <;> simp only [beside_setLine]
  have hu : u.beside = s.beside := by
    simp (disch := decide) only [u, beside_prismCount, beside_setMajor, hlines, ht]
  split
  · simp (disch := decide) only [beside_wear, beside_set, hu]
  · exact hu

@[simp] theorem beside_writeLine (s : State) (m c a ln keyId key : Nat) (b : Bytes) :
    (s.writeLine m c a ln keyId key b).1.beside = s.beside := by
  unfold State.writeLine
  extract_lets t l u n
  have ht : t.beside = s.beside := beside_lookup ..
  have hu : u.beside = s.beside := by
    unfold u
    split
    · rw [beside_refresh, ht]
    · exact ht
  split_ifs
  · exact ht
  · simp (disch := decide) only [beside_noteRefusal, beside_wear, beside_set, ht]
  · simp only [beside_noteLeaf, beside_setLine, hu]

@[simp] theorem beside_writePart (s : State) (m c a ln off keyId key : Nat) (b : Bytes) :
    (s.writePart m c a ln off keyId key b).1.beside = s.beside := by
  unfold State.writePart
  extract_lets t
  have ht : t.beside = s.beside := by simp (disch := decide) only [t, beside_prismCount]
  split
  · next u e h => rw [beside_of_fst h, beside_readLine, ht]
  · next u old h => rw [beside_writeLine, beside_of_fst h, beside_readLine, ht]

/-! ## Ranges, and the hub's accesses (12_prism_memory_protection.md R304; 14_host_attach.md R338) -/

@[simp] theorem beside_noteGate (s : State) (m code a : Nat) : (s.noteGate m code a).beside = s.beside := by
  unfold State.noteGate
  split
  · exact beside_noteRefusal ..
  · rfl

@[simp] theorem beside_touchKey (s : State) (c k : Nat) : (s.touchKey c k).beside = s.beside := by
  unfold State.touchKey
  extract_lets l l'
  split <;> rfl

theorem edgeFlits_apart {ed : Nat} (h : ed < 8) : Reg.PRISM_CFG_PROFILE.key 0 0 ≠ Reg.FAB_EDGE_FLITS.key ed 0 ∧
    Reg.TILE_RESET_INDEX.key 0 0 ≠ Reg.FAB_EDGE_FLITS.key ed 0 := by
  simp only [Fld.key, Reg.PRISM_CFG_PROFILE, Reg.TILE_RESET_INDEX, Reg.FAB_EDGE_FLITS]
  omega

@[simp] theorem beside_carry (s : State) (ed n : Nat) (unit : Bytes) : (s.carry ed n unit).beside = s.beside := by
  unfold State.carry
  extract_lets q fab t
  split
  · next h =>
    simp only [Bool.and_eq_true, decide_eq_true_eq] at h
    obtain ⟨⟨hed, -⟩, -⟩ := h
    exact beside_setF_of_key _ (edgeFlits_apart hed).1 (edgeFlits_apart hed).2
  · rfl

@[simp] theorem beside_countEdges (s : State) (eds : List Nat) : (s.countEdges eds).beside = s.beside :=
  foldl_keeps State.beside (fun _ _ _ => (beside_tick _).trans (beside_carry ..)) s

@[simp] theorem beside_readVia (s : State) (via : Nat → List Nat) (m space : Nat) (uses : List (Nat × Nat)) (a n : Nat) :
    (s.readVia via m space uses a n).1.beside = s.beside := by
  refine foldl_keeps (fun x : State × Except Nat Bytes => x.1.beside) (fun acc q _ => ?_) (s, .ok [])
  split
  · rfl
  · split
    · exact beside_noteGate ..
    · split
      · rfl
      · split
        · next h => simp only [beside_of_fst h, beside_readLine, beside_touchKey, beside_countEdges]
        · next h => simp only [beside_of_fst h, beside_readLine, beside_touchKey, beside_countEdges]

@[simp] theorem beside_writeVia (s : State) (via : Nat → List Nat) (m space : Nat) (uses : List (Nat × Nat)) (a : Nat)
    (b : Bytes) : (s.writeVia via m space uses a b).1.beside = s.beside := by
  refine foldl_keeps (fun x : State × Option Nat => x.1.beside) (fun acc q _ => ?_) (s, none)
  split
  · rfl
  · split
    · exact beside_noteGate ..
    · dsimp only
      split_ifs
      · rfl
      · simp only [beside_writeLine, beside_touchKey, beside_countEdges]
      · simp only [beside_writePart, beside_touchKey, beside_countEdges]

@[simp] theorem beside_readMem (s : State) (m space : Nat) (uses : List (Nat × Nat)) (a n : Nat) :
    (s.readMem m space uses a n).1.beside = s.beside := beside_readVia ..

@[simp] theorem beside_writeMem (s : State) (m space : Nat) (uses : List (Nat × Nat)) (a : Nat) (b : Bytes) :
    (s.writeMem m space uses a b).1.beside = s.beside := beside_writeVia ..

@[simp] theorem beside_snoop (s : State) (write : Bool) (a n : Nat) : (s.snoop write a n).beside = s.beside := by
  unfold State.snoop
  split <;> rfl

@[simp] theorem beside_hubRead (s : State) (a n : Nat) : (s.hubRead a n).1.beside = s.beside := by
  unfold State.hubRead
  split
  · next h => simp only [beside_of_fst h, beside_readMem, beside_snoop]
  · next h => split <;> simp only [beside_tick, beside_of_fst h, beside_readMem, beside_snoop]

@[simp] theorem beside_invalidate (s : State) (a n : Nat) : (s.invalidate a n).beside = s.beside := by
  unfold State.invalidate
  extract_lets l t
  have ht : t.beside = s.beside := by
    refine foldl_keeps State.beside (fun u k _ => ?_) s
    split
    · rfl
    · simp only [beside_tick, beside_writeMem]
  split
  · rfl
  · exact ht

@[simp] theorem beside_hubWrite (s : State) (a : Nat) (b : Bytes) : (s.hubWrite a b).1.beside = s.beside := by
  simp only [State.hubWrite, beside_writeMem, beside_invalidate, beside_snoop]

/-! ## Notices, records and fences (15_shared_objects_and_submission.md R352, R355, R368 to R371, R379) -/

@[simp] theorem beside_raise (s : State) (v : Nat) : (s.raise v).beside = s.beside := by
  unfold State.raise
  split
  · rfl
  · split <;> rfl

@[simp] theorem beside_dropNotice (s : State) : s.dropNotice.beside = s.beside := beside_addF (by decide) ..

@[simp] theorem beside_notice (s : State) (kind code ctx queue addr arg : Nat) :
    (s.notice kind code ctx queue addr arg).beside = s.beside := by
  unfold State.notice
  extract_lets lg size head
  split
  · exact beside_dropNotice s
  · split
    · next h => rw [beside_dropNotice, beside_of_fst h, beside_hubWrite]
    · next h => rw [beside_raise, beside_set (by decide) (by decide), beside_of_fst h, beside_hubWrite]

@[simp] theorem beside_noteError (s : State) (code ctx queue addr arg : Nat) :
    (s.noteError code ctx queue addr arg).beside = s.beside := beside_notice ..

@[simp] theorem beside_kindAt (s : State) (a : Nat) : (s.kindAt a).1.beside = s.beside := by
  unfold State.kindAt
  split <;> next h => exact (beside_of_fst h).trans (beside_hubRead ..)

@[simp] theorem beside_dropRef (s : State) (ctx queue seq a : Nat) : (s.dropRef ctx queue seq a).beside = s.beside := by
  unfold State.dropRef
  split
  · next h => simp only [beside_noteError, beside_of_fst h, beside_hubRead]
  · next t b h =>
    have ht : t.beside = s.beside := (beside_of_fst h).trans (beside_hubRead ..)
    split
    · rw [beside_noteError, ht]
    · split
      · next k => rw [beside_noteError, beside_of_fst k, beside_hubWrite, ht]
      · next k => split <;> simp only [beside_notice, beside_of_fst k, beside_hubWrite, ht]

@[simp] theorem beside_dropNaming (s : State) (ctx queue seq kind n a : Nat) :
    (s.dropNaming ctx queue seq kind n a).beside = s.beside := by
  unfold State.dropNaming
  split
  · rfl
  · split
    · next h => split <;> simp only [beside_dropRef, beside_of_fst h, beside_kindAt]
    · next h => rw [beside_noteError, beside_of_fst h, beside_kindAt]

@[simp] theorem beside_ctxWord (s : State) (c w : Nat) : (s.ctxWord c w).1.beside = s.beside := by
  unfold State.ctxWord
  split <;> next h => exact (beside_of_fst h).trans (beside_hubRead ..)

@[simp] theorem beside_saveCtx (s : State) (c w2 step gen : Nat) (head : Option Nat) :
    (s.saveCtx c w2 step gen head).beside = s.beside := by
  simp only [State.saveCtx, beside_hubWrite, beside_ctxWord]

@[simp] theorem beside_readFence (s : State) (ctx queue seq a : Nat) : (s.readFence ctx queue seq a).1.beside = s.beside := by
  unfold State.readFence
  split
  · next h => exact (beside_of_fst h).trans (beside_hubRead ..)
  · next h => rw [beside_noteError, beside_of_fst h, beside_hubRead]

@[simp] theorem beside_writeFence (s : State) (ctx queue seq a : Nat) (f : Fence) :
    (s.writeFence ctx queue seq a f).1.beside = s.beside := by
  unfold State.writeFence
  extract_lets w3
  split
  · next h => rw [beside_noteError, beside_of_fst h, beside_hubWrite]
  · next h => split_ifs <;> simp only [beside_noteError, beside_raise, beside_of_fst h, beside_hubWrite]

@[simp] theorem beside_signal (s : State) (ctx queue seq a v : Nat) : (s.signal ctx queue seq a v).1.beside = s.beside := by
  unfold State.signal
  split
  · next h => rw [beside_of_fst h, beside_readFence]
  · next t f h =>
    have ht : t.beside = s.beside := (beside_of_fst h).trans (beside_readFence ..)
    split_ifs
    · rw [beside_addF (by decide), ht]
    · exact ht
    · rw [beside_addF (by decide), ht]
    · split <;> next k => rw [beside_of_fst k, beside_writeFence, ht]

@[simp] theorem beside_attach (s : State) (ctx queue seq a v code : Nat) :
    (s.attach ctx queue seq a v code).beside = s.beside := by
  unfold State.attach
  split
  · next h => rw [beside_of_fst h, beside_readFence]
  · next t f h =>
    have ht : t.beside = s.beside := (beside_of_fst h).trans (beside_readFence ..)
    split
    · rw [beside_noteError, ht]
    · split
      · next k => rw [beside_of_fst k, beside_writeFence, ht]
      · next k => rw [beside_noteError, beside_of_fst k, beside_writeFence, ht]

/-! ## Commands that end (R359, R363, R370, R374, R376) -/

@[simp] theorem beside_signalFence (s : State) (c : HubCmd) : (s.signalFence c).1.beside = s.beside := by
  unfold State.signalFence
  split
  · rfl
  · split <;> next h => rw [beside_of_fst h, beside_kindAt]

@[simp] theorem beside_dropRefs (s : State) (ctx q : Nat) (c : HubCmd) : (s.dropRefs ctx q c).beside = s.beside :=
  (foldl_keeps State.beside (fun _ _ _ => beside_dropNaming ..) _).trans (beside_dropNaming ..)

@[simp] theorem beside_complete (s : State) (q : Nat) (c : HubCmd) (keep : Bool) :
    (s.complete q c keep).1.beside = s.beside := by
  unfold State.complete
  extract_lets ctx
  split
  next t fence h =>
  extract_lets code u w
  have ht : t.beside = s.beside := (beside_of_fst h).trans (beside_signalFence ..)
  have hu : u.beside = s.beside := by
    unfold u
    split
    · split
      · next k => rw [beside_noteError, beside_of_fst k, beside_hubWrite, ht]
      · next k => rw [beside_of_fst k, beside_hubWrite, ht]
    · exact ht
  have hw : w.beside = s.beside := by
    unfold w
    split
    · split_ifs
      · split
        · next k => rw [beside_attach, beside_of_fst k, beside_signal, hu]
        · next k => rw [beside_of_fst k, beside_signal, hu]
      · exact hu
      · rw [beside_noteError, hu]
      · rw [beside_attach, hu]
    · split
      · exact hu
      · rw [beside_noteError, hu]
  rw [beside_addF (by decide), beside_dropRefs, hw]

@[simp] theorem beside_cancelCmd (s : State) (q code : Nat) (keep : Bool) (c : HubCmd) :
    (s.cancelCmd q code keep c).beside = s.beside := beside_complete ..

section
variable {q : Nat} (hq : q < 4096)
include hq

theorem queueHead_apart : Reg.PRISM_CFG_PROFILE.key 0 0 ≠ Reg.Q_IDX_HEAD.key q 0 ∧
    Reg.TILE_RESET_INDEX.key 0 0 ≠ Reg.Q_IDX_HEAD.key q 0 := by
  simp only [Fld.key, Reg.PRISM_CFG_PROFILE, Reg.TILE_RESET_INDEX, Reg.Q_IDX_HEAD]
  omega

theorem beside_readEntry (s : State) : (s.readEntry q).1.beside = s.beside := by
  have advances (t : State) : (t.advanceHead q).beside = t.beside :=
    beside_setF_of_key _ (queueHead_apart hq).1 (queueHead_apart hq).2
  unfold State.readEntry
  extract_lets a
  split
  · next h => rw [beside_noteError, beside_setF (by decide), advances, beside_of_fst h, beside_hubRead]
  · next t b h => exact (advances _).trans ((beside_of_fst h).trans (beside_hubRead ..))

theorem beside_cancelQueue (s : State) (code : Nat) (keep : Bool) : (s.cancelQueue q code keep).beside = s.beside := by
  unfold State.cancelQueue
  extract_lets l t u size n
  have ht : t.beside = s.beside := beside_setCmds ..
  have hu : u.beside = s.beside := (foldl_keeps State.beside (fun _ _ _ => beside_cancelCmd ..) t).trans ht
  rw [beside_setF (by decide), ← hu]
  refine foldl_keeps State.beside (fun v _ _ => ?_) u
  split
  · next h => rw [beside_setF (by decide), beside_of_fst h, beside_readEntry hq]
  · next h => rw [beside_cancelCmd, beside_of_fst h, beside_readEntry hq]

end

@[simp] theorem beside_stopCtx (s : State) (c code : Nat) (tile : Option Nat) : (s.stopCtx c code tile).beside = s.beside := by
  unfold State.stopCtx State.showLoads
  rw [beside_set (by decide) (by decide)]
  refine foldl_keeps State.beside (fun t q hq => ?_) s
  have hq : q < 4096 := List.mem_range.1 (List.mem_filter.1 hq).1
  rw [beside_setF (by decide), beside_cancelQueue hq, beside_setCmds]

/-! ## The pass over the parameters (09_parameter_update.md R215, R227) -/

@[simp] theorem beside_readLines (s : State) (via : Nat → Nat → List Nat) (want : Nat → Bool) (m space : Nat)
    (uses : List (Nat × Nat)) (a n : Nat) : (s.readLines via want m space uses a n).1.beside = s.beside := by
  refine foldl_keeps (fun x : State × Lines => x.1.beside) (fun acc i _ => ?_) (s, [])
  dsimp only
  split
  · exact beside_readVia ..
  · rfl

@[simp] theorem beside_writeLines (s : State) (via : Nat → Nat → List Nat) (back : Nat → Bool) (m space : Nat)
    (uses : List (Nat × Nat)) (a : Nat) (ls : Lines) (x : Img) :
    (s.writeLines via back m space uses a ls x).1.beside = s.beside := by
  refine foldl_keeps (fun x : State × List (Nat × Nat) => x.1.beside) (fun acc i _ => ?_) (s, [])
  split
  · rfl
  · split
    · rfl
    · split <;> next h => rw [beside_of_fst h, beside_writeVia]

@[simp] theorem beside_copyPass (s : State) (p : Nat) (uses : List (Nat × Nat)) (j : JobImage) (t c : Tensor) (along : Bool)
    (wl : Lines) (wv : Nat) (o : PassOut) : (s.copyPass p uses j t c along wl wv o).1.beside = s.beside := by
  simp only [State.copyPass, beside_writeLines, beside_readLines]

@[simp] theorem beside_passTensor (s : State) (p : Nat) (uses : List (Nat × Nat)) (j : JobImage) (n : Nat) (acc : PassOut)
    (t : Tensor) : (s.passTensor p uses j n acc t).1.beside = s.beside := by
  unfold State.passTensor
  split
  · extract_lets eta copy
    clear_value copy
    split
    next hw =>
    split
    next hm =>
    split
    next hg =>
    extract_lets
    split
    next hx =>
    split
    next y _ hy =>
    extract_lets
    have hy : y.beside = s.beside := by
      simp only [beside_of_fst hy, beside_of_fst hx, beside_of_fst hg, beside_of_fst hm, beside_of_fst hw, beside_writeLines,
        beside_readLines]
    cases copy
    · exact hy
    · rw [← hy]
      exact beside_copyPass ..
  · rfl

@[simp] theorem beside_runPass (s : State) (p : Nat) (uses : List (Nat × Nat)) (n : Nat) :
    (s.runPass p uses n).1.beside = s.beside :=
  foldl_keeps (fun x : State × PassOut => x.1.beside) (fun acc t _ => beside_passTensor acc.1 p uses _ n acc.2 t) _

/-- Lines that a stopped pass was writing are mixed of two states' memories; beside memory the later one stands. -/
@[simp] theorem beside_mixLines (old new : State) : (old.mixLines new).beside = new.beside := by
  refine foldl_keeps State.beside (fun t ln _ => ?_) new
  dsimp only
  split_ifs <;> simp only [beside_setLine, beside_tick]

@[simp] theorem beside_noteStopped (s : State) (units : List Nat) (o : PassOut) (code : Nat) :
    (s.noteStopped units o code).beside = s.beside := by
  refine foldl_keeps State.beside (fun t u _ => ?_) s
  dsimp only
  split_ifs <;> simp (disch := decide) only [beside_tick, beside_setF, beside_addF]

@[simp] theorem beside_showGlint (s : State) : s.showGlint.beside = s.beside := by
  refine foldl_keeps State.beside (fun t u _ => ?_) s
  simp (disch := decide) only [beside_setF]

@[simp] theorem beside_updHead (s : State) (q : Nat) (f : HubCmd → HubCmd) : (s.updHead q f).beside = s.beside := by
  unfold State.updHead
  split <;> rfl

@[simp] theorem beside_endCmd (s : State) (q code : Nat) : (s.endCmd q code).beside = s.beside := by
  rw [State.endCmd, beside_setF (by decide), beside_updHead]

@[simp] theorem beside_endSends (s : State) (p code : Nat) : (s.endSends p code).beside = s.beside :=
  foldl_keeps State.beside (fun _ _ _ => beside_endCmd ..) s

end Sys2Proof.Machine
end

section
/-!
PROOFS. Power states of clusters, and what the stop of a partition's work and the release of its image leave in the partitions
(03_configuration_images.md R80; 13_tenants_and_joint_training.md R314, R326 to R329; 18_power_clocks_and_reset.md R433, R437).
-/

namespace Sys2Proof.Machine

/-! ## Clusters that change their power state (18_power_clocks_and_reset.md R433, R437) -/

/-- What a change of clusters' power states keeps: all but tiles and registers, and of these every one outside the power block of
BAR0. -/
def PowerOnly (s u : State) : Prop :=
  u = { s with regs := u.regs, tiles := u.tiles } ∧
    ∀ k d, k < 0x20000 * 64 ∨ 0x20400 * 64 ≤ k → smapGet d u.regs k = smapGet d s.regs k

namespace PowerOnly

theorem refl (s : State) : PowerOnly s s := ⟨rfl, fun _ _ _ => rfl⟩

theorem trans {s t u : State} (h : PowerOnly s t) (k : PowerOnly t u) : PowerOnly s u := by
  obtain ⟨ht, rt⟩ := h
  obtain ⟨hu, ru⟩ := k
  refine ⟨?_, fun key d hk => (ru key d hk).trans (rt key d hk)⟩
  rw [hu, ht]

theorem foldl {α : Type} (s : State) {l : List α} {f : State → α → State} (hf : ∀ t, ∀ a ∈ l, PowerOnly t (f t a)) :
    PowerOnly s (l.foldl f s) :=
  List.foldlRecOn (motive := PowerOnly s) l f (refl s) fun t ht a ha => ht.trans (hf t a ha)

theorem setTile (s : State) (t : Nat) (x : Tile) : PowerOnly s (s.setTile t x) := ⟨rfl, fun _ _ _ => rfl⟩

theorem setF (s : State) {f : Fld} {i j : Nat} (v : Nat) (hlo : 0x20000 * 64 ≤ f.key i j) (hhi : f.key i j < 0x20400 * 64) :
    PowerOnly s (s.setF f i j v) :=
  ⟨rfl, fun _ _ hk => smapGet_set_other _ _ _ _ _ _ (by omega)⟩

theorem set (s : State) {f : Fld} (v : Nat) (hlo : 0x20000 * 64 ≤ f.key 0 0) (hhi : f.key 0 0 < 0x20400 * 64) :
    PowerOnly s (s.set f v) := setF s v hlo hhi

theorem setCluster (s : State) {c : Nat} (v : Nat) (h : c < 96) : PowerOnly s (s.setCluster c v) := by
  apply setF <;> · simp only [Fld.key, Reg.CLUSTER_STATE_d_STATE]; omega

theorem showCalib (s : State) : PowerOnly s s.showCalib := by
  unfold State.showCalib
  extract_lets all stale t
  have ht : PowerOnly s t := by
    unfold t
    split
    · exact set s 1 (by decide) (by decide)
    · exact refl s
  exact ((ht.trans (set _ _ (by decide) (by decide))).trans (set _ _ (by decide) (by decide))).trans
    (set _ _ (by decide) (by decide))

theorem powerClusters (s : State) {l : List Nat} (v : Nat) (h : ∀ c ∈ l, c < 96) : PowerOnly s (s.powerClusters l v) :=
  (foldl s fun t c hc => setCluster t v (h c hc)).trans (showCalib _)

theorem darken (s : State) {l : List Nat} (h : ∀ c ∈ l, c < 96) : PowerOnly s (s.darken l) :=
  (foldl s fun t k _ => setTile t k Tile.reset).trans (powerClusters _ 3 h)

theorem wake (s : State) {l : List Nat} (h : ∀ c ∈ l, c < 96) : PowerOnly s (s.wake l) :=
  powerClusters s 0 fun c hc => h c (List.mem_filter.1 hc).1

variable {s u : State} (h : PowerOnly s u)
include h

theorem frame : u.frame = s.frame := by rw [h.1]
theorem mem : u.mem = s.mem := by rw [h.1]
theorem parts : u.parts = s.parts := by rw [h.1]
theorem part (p : Nat) : u.part p = s.part p := by rw [State.part, h.parts, State.part]

theorem getF (f : Fld) (i j : Nat) (hk : f.key i j < 0x20000 * 64 ∨ 0x20400 * 64 ≤ f.key i j) : u.getF f i j = s.getF f i j :=
  h.2 _ _ hk

theorem get (f : Fld) (hk : f.key 0 0 < 0x20000 * 64 ∨ 0x20400 * 64 ≤ f.key 0 0) : u.get f = s.get f := h.getF f 0 0 hk

end PowerOnly

/-- The rectangles of a frame lie on the grid of 96 clusters. -/
def FrameImage.onGrid (f : FrameImage) : Prop := ∀ r ∈ f.parts, ∀ c ∈ r.clusters, c < 96

theorem partClusters_lt {s : State} (h : s.frame.onGrid) {p c : Nat} (hc : c ∈ s.partClusters p) : c < 96 := by
  unfold State.partClusters at hc
  split at hc
  · next r hr => exact h r (List.mem_of_find?_eq_some hr) c hc
  · cases hc

/-! ## What a stop of work and a release leave in the partitions -/

/-- What a partition holds: what runs at its loading controls, and its image with the context it is bound to. -/
def Part.core (x : Part) : LoadBusy × Bool × JobImage × Nat × Nat × List Sched :=
  (x.busy, x.loaded, x.image, x.ctx, x.owner, x.scheds)

/-- The frame and the profile in force, and what every partition holds. -/
def State.holding (s : State) : FrameImage × Nat × (Nat → LoadBusy × Bool × JobImage × Nat × Nat × List Sched) :=
  (s.frame, s.get Reg.PRISM_CFG_PROFILE, fun p => (s.part p).core)

section
variable {s t : State}

theorem frame_of_holding (h : t.holding = s.holding) : t.frame = s.frame := congrArg Prod.fst h

theorem profileK_of_holding (h : t.holding = s.holding) : t.profileK = s.profileK := by
  have hp : t.get Reg.PRISM_CFG_PROFILE = s.get Reg.PRISM_CFG_PROFILE := congrArg (·.2.1) h
  rw [State.profileK, State.profileK, hp]

theorem core_of_holding (h : t.holding = s.holding) (p : Nat) : (t.part p).core = (s.part p).core :=
  congrArg (·.2.2 p) h

theorem holding_of_beside (h : t.beside = s.beside) : t.holding = s.holding := by
  simp only [State.beside, Prod.mk.injEq] at h
  obtain ⟨-, hframe, hparts, hprofile, -⟩ := h
  simp only [State.holding, State.part, hframe, hparts, hprofile]

theorem PowerOnly.holding (h : PowerOnly s t) : t.holding = s.holding := by
  simp only [State.holding, h.frame, h.part, h.get Reg.PRISM_CFG_PROFILE (by decide)]

end

theorem holding_updPart {f : Part → Part} (h : ∀ x, (f x).core = x.core) (s : State) (p : Nat) :
    (s.updPart p f).holding = s.holding := by
  simp only [State.holding, updPart_frame, updPart_get, Prod.mk.injEq, true_and]
  funext q
  rcases eq_or_ne q p with rfl | hq
  · rw [part_updPart_same, h]
  · rw [part_updPart_other _ _ _ _ hq]

theorem holding_updTile (s : State) (t : Nat) (f : Tile → Tile) : (s.updTile t f).holding = s.holding := rfl

/-! ## Slots and errors of a context (15_shared_objects_and_submission.md R371, R383; 04_tile_core.md R111) -/

theorem slotOf_lt {s : State} {c i : Nat} (h : s.slotOf c = some i) : i < 48 := List.mem_range.1 (List.mem_of_find?_eq_some h)

theorem slotStep_apart {i : Nat} (h : i < 48) : Reg.PRISM_CFG_PROFILE.key 0 0 ≠ Reg.SLOT_INFO_STEP.key i 0 ∧
    Reg.TILE_RESET_INDEX.key 0 0 ≠ Reg.SLOT_INFO_STEP.key i 0 := by
  simp only [Fld.key, Reg.PRISM_CFG_PROFILE, Reg.TILE_RESET_INDEX, Reg.SLOT_INFO_STEP]
  omega

@[simp] theorem beside_showSlot (s : State) (p : Nat) : (s.showSlot p).beside = s.beside := by
  unfold State.showSlot
  split
  · rfl
  · next i h =>
    obtain ⟨hp, ht⟩ := slotStep_apart (slotOf_lt h)
    rw [beside_setF (by decide), beside_setF_of_key _ hp ht, beside_setF (by decide)]

theorem holding_pend (s : State) (p code : Nat) : (s.pend p code).holding = s.holding := by
  unfold State.pend
  split_ifs
  · rfl
  · exact holding_of_beside (beside_noteError ..)
  · exact (holding_of_beside (beside_showSlot ..)).trans (holding_updPart (fun _ => by rfl) s p)

theorem holding_errCurrent (s : State) (p code : Nat) : (s.errCurrent p code).holding = s.holding := by
  unfold State.errCurrent
  split
  · exact holding_pend ..
  · next q c _ =>
    split
    · rfl
    · extract_lets t
      have ht : t.beside = s.beside := beside_updHead ..
      split
      · next h => exact holding_of_beside (by rw [beside_attach, beside_of_fst h, beside_signalFence, ht])
      · next h => exact holding_of_beside (by rw [beside_noteError, beside_of_fst h, beside_signalFence, ht])

theorem holding_stopPass (s : State) (p code : Nat) : (s.stopPass p code).holding = s.holding := by
  unfold State.stopPass
  split
  · next r _ =>
    extract_lets run t
    have ht : t.beside = s.beside := by
      unfold t
      split
      · rw [beside_noteStopped, beside_mixLines, beside_runPass]
      · rfl
    exact (holding_of_beside (beside_showGlint _)).trans ((holding_updPart (fun _ => by rfl) _ _).trans (holding_of_beside ht))
  · rfl

theorem holding_stopWork (s : State) (p code : Nat) (tile : Option Nat) : (s.stopWork p code tile).holding = s.holding :=
  (holding_of_beside (beside_stopCtx ..)).trans ((holding_updPart (fun _ => by rfl) _ _).trans (holding_stopPass ..))

theorem holding_stopReport (s : State) (p code : Nat) (tile : Option Nat) : (s.stopReport p code tile).holding = s.holding := by
  unfold State.stopReport
  extract_lets x live t u v
  split
  · rfl
  · have ht : t.holding = s.holding := by
      unfold t
      split
      · exact holding_errCurrent ..
      · exact holding_pend ..
    have hu : u.holding = s.holding :=
      ((holding_updPart (fun _ => by rfl) _ _).trans (holding_stopWork ..)).trans ht
    have hv : v.holding = s.holding := by
      rw [← hu]
      unfold v
      split
      · split
        · rfl
        · exact holding_updTile ..
      · rfl
    exact (foldl_keeps State.holding (fun _ _ _ => by rfl) v).trans hv

/-! ## Gates that leave their step or go to IDLE (13_tenants_and_joint_training.md R314, R326, R328, R329) -/

@[simp] theorem beside_setRights (s : State) (m : Nat) (r : Rights) : (s.setRights m r).beside = s.beside := rfl
@[simp] theorem beside_updKey (s : State) (k : Nat) (f : KeyEntry → KeyEntry) : (s.updKey k f).beside = s.beside := rfl
@[simp] theorem beside_syncRights (s : State) : s.syncRights.beside = s.beside := rfl

@[simp] theorem beside_setGateRun (s : State) (g : Nat) (r : Option GateRun) : (s.setGateRun g r).beside = s.beside := by
  unfold State.setGateRun
  cases r <;> rfl

@[simp] theorem beside_flushKeys (s : State) (ks : List Nat) : (s.flushKeys ks).beside = s.beside :=
  foldl_keeps State.beside (fun _ _ _ => by rfl) s

@[simp] theorem beside_showColl (s : State) : s.showColl.beside = s.beside := by
  simp (disch := decide) only [State.showColl, beside_set]

theorem holding_beginEclipse {s : State} (h : s.frame.onGrid) (p : Nat) (keys : List Nat) :
    (s.beginEclipse p keys).holding = s.holding := by
  unfold State.beginEclipse
  extract_lets l t fab link u
  have ht : t.holding = s.holding :=
    (PowerOnly.powerClusters s 0 fun c hc => partClusters_lt h (List.mem_filter.1 hc).1).holding
  have hu : u.holding = s.holding := ht
  rw [holding_updPart (fun _ => by rfl), ← hu]
  exact holding_of_beside (by rw [beside_flushKeys, beside_showColl])

@[simp] theorem beside_endGateStep (s : State) (g : Nat) : (s.endGateStep g).beside = s.beside := by
  unfold State.endGateStep
  extract_lets t
  have ht : t.beside = s.beside := by
    unfold t
    split
    · exact beside_setF (by decide) ..
    · rfl
  rw [beside_setF (by decide), beside_setF (by decide), beside_setGateRun, ht]

theorem holding_abandonGate (s : State) (m : Manifest) (g code : Nat) (at? : Option Nat) :
    (s.abandonGate m g code at?).holding = s.holding := by
  unfold State.abandonGate
  extract_lets t
  have ht : t.holding = s.holding :=
    holding_of_beside (by simp (disch := decide) only [t, beside_addF, beside_setF, beside_endGateStep])
  split
  · exact ht
  · exact (foldl_keeps State.holding (fun _ _ _ => holding_stopReport ..) t).trans ht

theorem holding_idleGate {s : State} (h : s.frame.onGrid) (m : Manifest) (g : Nat) : (s.idleGate m g).holding = s.holding := by
  unfold State.idleGate
  split
  · rfl
  · extract_lets t u
    have ht : t.holding = s.holding := by
      unfold t
      split
      · exact holding_abandonGate ..
      · rfl
    have hu : u.holding = s.holding := (holding_of_beside (by simp (disch := decide) only [u, beside_setF])).trans ht
    split
    · next gp _ =>
      have on_grid : (u.setRights gp Rights.none).frame.onGrid := by rwa [← frame_of_holding hu] at h
      exact (holding_beginEclipse on_grid gp []).trans ((holding_of_beside (beside_setRights ..)).trans hu)
    · exact hu

/-! ## The release of an image (03_configuration_images.md R80) -/

@[simp] theorem beside_sendMsg (s : State) (peer ty tag arg0 arg1 : Nat) (payload : Bytes) :
    (s.sendMsg peer ty tag arg0 arg1 payload).beside = s.beside := by
  unfold State.sendMsg
  extract_lets ports
  split
  · rfl
  · unfold State.queueMsg
    split <;> rfl

@[simp] theorem beside_deleteGroup (s : State) (g : Group) : (s.deleteGroup g).beside = s.beside :=
  foldl_keeps State.beside (fun _ _ _ => beside_sendMsg ..) _

@[simp] theorem beside_dropHost (s : State) (p : Nat) : (s.dropHost p).beside = s.beside := by
  refine foldl_keeps State.beside (fun t m _ => ?_) _
  split
  · exact beside_sendMsg ..
  · rfl

@[simp] theorem beside_setHolder (s : State) (p i st peer : Nat) : (s.setHolder p i st peer).beside = s.beside := by
  unfold State.setHolder
  split <;> simp (disch := decide) only [beside_setF]

theorem holding_abandonCapture (s : State) (p : Nat) : (s.abandonCapture p).holding = s.holding := by
  unfold State.abandonCapture
  extract_lets t
  have ht : t.holding = s.holding := by
    unfold t
    split
    · rfl
    · refine foldl_keeps State.holding (fun u i _ => ?_) s
      split
      · rfl
      · exact holding_of_beside (beside_setHolder ..)
      · exact holding_of_beside (beside_setHolder ..)
  rw [← ht]
  unfold State.endCapture
  split
  · rfl
  · exact (holding_of_beside (beside_setF (by decide) ..)).trans (holding_updPart (fun _ => by rfl) t p)

@[simp] theorem beside_countQueues (s : State) : s.countQueues.beside = s.beside := by
  simp (disch := decide) only [State.countQueues, beside_set]

/-- A partition stands without an image, under the frame and the profile of before. -/
structure Released (s : State) (p : Nat) (u : State) : Prop where
  frame : u.frame = s.frame
  profileK : u.profileK = s.profileK
  loaded : (u.part p).loaded = false

theorem Released.of_holding {s t u : State} {p : Nat} (h : Released s p t) (k : u.holding = t.holding) : Released s p u where
  frame := (frame_of_holding k).trans h.frame
  profileK := (profileK_of_holding k).trans h.profileK
  loaded := (congrArg (·.2.1) (core_of_holding k p)).trans h.loaded

theorem released_updPart {s t : State} (p : Nat) {f : Part → Part} (h : t.holding = s.holding)
    (hf : ∀ x, (f x).loaded = false) : Released s p (t.updPart p f) where
  frame := (updPart_frame t p f).trans (frame_of_holding h)
  profileK := (show t.profileK = s.profileK from profileK_of_holding h)
  loaded := by rw [part_updPart_same, hf]

theorem Released.updPart {s t : State} {p : Nat} (h : Released s p t) {f : Part → Part}
    (hf : ∀ x, (f x).loaded = x.loaded) : Released s p (t.updPart p f) where
  frame := h.frame
  profileK := h.profileK
  loaded := by rw [part_updPart_same, hf, h.loaded]

/-- The release of an image: up to the partition's emptying every step keeps what it holds, and the steps behind it leave it
empty. -/
theorem released_release {s : State} (h : s.frame.onGrid) {p : Nat} (hloaded : (s.part p).loaded = true) :
    Released s p (s.release p) := by
  unfold State.release
  extract_lets x c keys noted ungrouped abandoned ended unused saved link cut blank emptied shown cleared eclipsed
  have noted_keeps : noted.holding = s.holding := by
    unfold noted
    split
    · exact holding_of_beside (beside_noteError ..)
    · rfl
  have ungrouped_keeps : ungrouped.beside = noted.beside := foldl_keeps State.beside (fun _ _ _ => beside_deleteGroup ..) noted
  have abandoned_keeps : abandoned.holding = s.holding := by
    rw [← noted_keeps, ← holding_of_beside ungrouped_keeps]
    exact (holding_abandonCapture ..).trans (holding_of_beside (beside_dropHost ..))
  have ended_keeps : ended.holding = s.holding := by
    rw [← abandoned_keeps]
    unfold ended
    split
    · exact holding_of_beside (by simp (disch := decide) only [beside_tick, beside_setF])
    · rfl
  have unused_keeps : unused.beside = ended.beside := foldl_keeps State.beside (fun _ _ _ => beside_updKey ..) ended
  have saved_keeps : saved.beside = ended.beside := by rw [← unused_keeps]; exact beside_saveCtx ..
  have cut_keeps : cut.holding = s.holding := (holding_of_beside saved_keeps).trans ended_keeps
  have emptied_free : Released s p emptied := released_updPart p cut_keeps fun _ => rfl
  have shown_free : Released s p shown :=
    (emptied_free.of_holding (holding_of_beside (beside_showSlot ..))).updPart fun _ => rfl
  have cleared_free : Released s p cleared.countQueues.syncRights :=
    shown_free.of_holding (holding_of_beside (by
      simp (disch := decide) only [cleared, beside_syncRights, beside_countQueues, beside_setF]))
  have eclipsed_free : Released s p eclipsed :=
    cleared_free.of_holding (holding_beginEclipse (cleared_free.frame ▸ h) p keys)
  have loaded : ¬ (!x.loaded) = true := by simp only [x, hloaded, Bool.not_true, Bool.false_eq_true, not_false_iff]
  rw [if_neg loaded]
  split
  · exact List.foldlRecOn (motive := Released s p) _ _ eclipsed_free fun t ht e _ =>
      ht.of_holding (holding_idleGate (ht.frame ▸ h) _ e.gate)
  · exact eclipsed_free

end Sys2Proof.Machine
end

section
/-!
PROOFS. Job loads: the status that software reads, and the image that takes effect (03_configuration_images.md R77, R79, R85;
16_reliability_and_integrity.md R400).
-/

namespace Sys2Proof.Machine

/-! ## The status of a load (03_configuration_images.md R79, R85) -/

/-- Fields that begin at different bits of their registers are apart in every copy. -/
theorem getF_setF_of_lo {f g : Fld} (h : f.lo ≠ g.lo) (hf : f.lo < 64) (hg : g.lo < 64) (s : State) (i j a c v : Nat) :
    (s.setF f i j v).getF g a c = s.getF g a c := getF_setF_other _ _ _ _ _ _ _ _ (key_ne_of_lo_ne h hf hg _ _ _ _)

/-- A load, an UNLOAD or a partition reset's Eclipse has ended at a partition's loading controls, with its result. -/
def LoadEnded (u : State) (p code sect entry : Nat) : Prop :=
  u.getF Reg.JOB_LOAD_STAT_BUSY p 0 = 0 ∧ u.getF Reg.JOB_LOAD_STAT_DONE p 0 = 1 ∧
    u.getF Reg.JOB_LOAD_STAT_CODE p 0 = code % 2 ^ 16 ∧ u.getF Reg.JOB_LOAD_STAT_SECTION p 0 = sect % 2 ^ 8 ∧
    u.getF Reg.JOB_LOAD_STAT_ENTRY p 0 = entry % 2 ^ 24

theorem loadEnded_loadEnd (s : State) (p code sect entry : Nat) : LoadEnded (s.loadEnd p code sect entry) p code sect entry := by
  simp (disch := decide) [LoadEnded, State.loadEnd, getF_setF_of_lo, Fld.width, Reg.JOB_LOAD_STAT_BUSY,
    Reg.JOB_LOAD_STAT_DONE, Reg.JOB_LOAD_STAT_CODE, Reg.JOB_LOAD_STAT_SECTION, Reg.JOB_LOAD_STAT_ENTRY]

theorem LoadEnded.updPart {s : State} {p code sect entry : Nat} (h : LoadEnded s p code sect entry) (q : Nat)
    (f : Part → Part) : LoadEnded (s.updPart q f) p code sect entry := h

/-! ## JOB_LOAD (R77, R79) -/

section
variable {p : PartIx} {s : State}

theorem busy_overrun (hup : s.hubUp = true) (hbusy : (s.part p).busy ≠ .idle) :
    exec (.jobLoad p) s = .next (s.setF Reg.JOB_LOAD_STAT_OVERRUN p 0 1) ∧
      exec (.unload p) s = .next (s.setF Reg.JOB_LOAD_STAT_OVERRUN p 0 1) := by
  constructor
  · show execJobLoad p s = _
    simp only [execJobLoad, cxlIo_of_hubUp hup, if_pos hbusy]
  · show execUnload p s = _
    simp only [execUnload, cxlIo_of_hubUp hup, if_pos hbusy]

/-- BUSY of a load leaves its address. -/
theorem loadAddr_setF_busy (s : State) (p v : Nat) :
    (s.setF Reg.JOB_LOAD_STAT_BUSY p 0 v).getF Reg.JOB_LOAD_ADDR_ADDR p 0 = s.getF Reg.JOB_LOAD_ADDR_ADDR p 0 :=
  getF_setF_of_lo (by decide) (by decide) (by decide) ..

section
variable (hup : s.hubUp = true) (hbusy : (s.part p).busy = .idle) {v w : State} {b : Bytes} {o : Nat}
include hup hbusy

theorem jobLoad_of_failed_read {e : Nat}
    (hread : (s.setF Reg.JOB_LOAD_STAT_BUSY p 0 1).readImage (64 * s.getF Reg.JOB_LOAD_ADDR_ADDR p 0) = (v, .error e)) :
    exec (.jobLoad p) s = .next (v.updPart p fun y => { y with busy := .load e 0xFF 0 }) := by
  show execJobLoad p s = _
  simp only [execJobLoad, cxlIo_of_hubUp hup, if_neg (not_not.2 hbusy), loadAddr_setF_busy, hread]

variable (hread : (s.setF Reg.JOB_LOAD_STAT_BUSY p 0 1).readImage (64 * s.getF Reg.JOB_LOAD_ADDR_ADDR p 0) = (v, .ok b))
include hread

theorem jobLoad_of_refused {e : LoadErr} (hcheck : v.checkLoad b p (s.getF Reg.JOB_LOAD_CTX_CTX p 0) = (w, o, some e)) :
    exec (.jobLoad p) s = .next (w.updPart p fun y => { y with busy := .load e.code e.sect e.entry }) := by
  show execJobLoad p s = _
  simp only [execJobLoad, cxlIo_of_hubUp hup, if_neg (not_not.2 hbusy), loadAddr_setF_busy, hread, hcheck]

theorem jobLoad_of_accepted (hcheck : v.checkLoad b p (s.getF Reg.JOB_LOAD_CTX_CTX p 0) = (w, o, none)) :
    exec (.jobLoad p) s =
      .next (w.updPart p fun y => { y with busy := .loading (jobOf b) (s.getF Reg.JOB_LOAD_CTX_CTX p 0) o }) := by
  show execJobLoad p s = _
  simp only [execJobLoad, cxlIo_of_hubUp hup, if_neg (not_not.2 hbusy), loadAddr_setF_busy, hread, hcheck]

end

/-! ## JOB_LOAD_COMPLETE (R77, R79; 16_reliability_and_integrity.md R400) -/

/-- A refused load shows its code; its partition waits for the next, and nothing else has changed. -/
theorem refuseLoad_effect (s : State) (p code sect entry : Nat) :
    LoadEnded (s.refuseLoad p code sect entry) p code sect entry ∧
      (s.refuseLoad p code sect entry).part p = { s.part p with busy := .idle } ∧
      s.refuseLoad p code sect entry =
        { s with regs := (s.refuseLoad p code sect entry).regs, parts := (s.refuseLoad p code sect entry).parts } :=
  ⟨(loadEnded_loadEnd ..).updPart .., by simp only [State.refuseLoad, State.loadEnd, part_updPart_same, setF_part], by
    simp only [State.refuseLoad, State.loadEnd, State.updPart, State.setF]⟩

theorem jobLoadComplete_of_refused {code sect entry : Nat} (h : (s.part p).busy = .load code sect entry) :
    exec (.jobLoadComplete p) s = .next (s.refuseLoad p code sect entry) := by
  show execJobLoadComplete p s = _
  simp only [execJobLoadComplete, h]

theorem jobLoadComplete_of_failed_cluster {j : JobImage} {c o : Nat} (h : (s.part p).busy = .loading j c o)
    (hfailed : (s.partClusters p).any s.clusterFailed = true) :
    exec (.jobLoadComplete p) s = .next (s.refuseLoad p 0x0920 0xFF 0) := by
  show execJobLoadComplete p s = _
  simp only [execJobLoadComplete, h, if_pos hfailed]

theorem jobLoadComplete_of_sound_clusters {j : JobImage} {c o : Nat} (h : (s.part p).busy = .loading j c o)
    (hsound : (s.partClusters p).any s.clusterFailed = false) :
    exec (.jobLoadComplete p) s = .next ((s.install p j c o).loadEnd p 0 0 0) := by
  show execJobLoadComplete p s = _
  simp only [execJobLoadComplete, h, if_neg (Bool.eq_false_iff.1 hsound)]

theorem jobLoadComplete_of_no_load (hrefused : ∀ code sect entry, (s.part p).busy ≠ .load code sect entry)
    (haccepted : ∀ j c o, (s.part p).busy ≠ .loading j c o) : exec (.jobLoadComplete p) s = .next s := by
  show execJobLoadComplete p s = _
  unfold execJobLoadComplete
  dsimp only
  split
  · next h => exact absurd h (haccepted _ _ _)
  · next h => exact absurd h (hrefused _ _ _)
  · rfl

end

/-! ## An accepted image takes effect (R77, R79) -/

@[simp] theorem beside_forget (s : State) (f : Nat → Bool) : (s.forget f).beside = s.beside :=
  beside_of_regs rfl rfl rfl rfl

@[simp] theorem beside_resettle (s : State) (p : Nat) : (s.resettle p).beside = s.beside := by
  unfold State.resettle
  extract_lets secs old mask lost t left u
  have ht : t.beside = s.beside := beside_forget ..
  clear_value t
  split
  · rfl
  · rw [beside_tick, ← ht]
    exact beside_of_regs rfl rfl rfl rfl

theorem holding_putSet (s : State) (p g a : Nat) (l : List (Nat × Nat)) (b : Bytes) :
    (s.putSet p g a l b).1.holding = s.holding := by
  unfold State.putSet
  split
  · next h => exact holding_of_beside ((beside_of_fst h).trans (beside_writeMem ..))
  · next h =>
    rw [← holding_of_beside ((beside_of_fst h).trans (beside_writeMem ..))]
    refine holding_updPart (fun x => ?_) _ p
    split <;> rfl

theorem holding_writeSet (s : State) (p g : Nat) (l : List (Nat × Nat)) : (s.writeSet p g l).1.holding = s.holding := by
  unfold State.writeSet
  extract_lets j
  split
  · rfl
  · exact holding_putSet ..

theorem holding_startTile (s : State) (p c : Nat) (j : JobImage) (e : TileEntry) : (s.startTile p c j e).holding = s.holding := rfl

theorem holding_placeTiles (s : State) (p c : Nat) (j : JobImage) : (s.placeTiles p c j).holding = s.holding := by
  unfold State.placeTiles
  split
  · rfl
  · exact foldl_keeps State.holding (fun _ _ _ => holding_updTile ..) s

@[simp] theorem beside_armGate (s : State) (m : Manifest) (e : GateEntry) : (s.armGate m e).beside = s.beside := by
  unfold State.armGate
  split
  · rfl
  · split
    · rw [beside_setRights, beside_setF (by decide)]
    · rfl

/-- LOADED and the serial of a partition's image as software reads them. -/
def State.shownImage (s : State) (p : Nat) : Nat × Nat := (s.getF Reg.JOB_LOAD_STAT_LOADED p 0, s.getF Reg.JOB_SERIAL_SERIAL p 0)

/-- A field above the partitions' pages. -/
theorem shownImage_setF {f : Fld} (h : 0x200000 ≤ f.base) (s : State) (i j v : Nat) (p : PartIx) :
    (s.setF f i j v).shownImage p = s.shownImage p := by
  have hp := p.isLt
  have apart : ∀ g ∈ [Reg.JOB_LOAD_STAT_LOADED, Reg.JOB_SERIAL_SERIAL], g.key p 0 ≠ f.key i j := by
    simp only [List.forall_mem_cons, Fld.key, Reg.JOB_LOAD_STAT_LOADED, Reg.JOB_SERIAL_SERIAL]
    refine ⟨by omega, by omega, List.forall_mem_nil _⟩
  simp only [List.forall_mem_cons] at apart
  obtain ⟨hloaded, hserial, -⟩ := apart
  simp only [State.shownImage, getF_setF_other _ _ _ _ _ _ _ _ hloaded, getF_setF_other _ _ _ _ _ _ _ _ hserial]

theorem shownImage_showSlot (s : State) (q : Nat) (p : PartIx) : (s.showSlot q).shownImage p = s.shownImage p := by
  unfold State.showSlot
  split
  · rfl
  · simp (disch := decide) only [shownImage_setF]

theorem shownImage_countQueues (s : State) (p : PartIx) : s.countQueues.shownImage p = s.shownImage p := by
  simp (disch := decide) only [State.countQueues, State.set, shownImage_setF]

theorem shownImage_syncRights (s : State) (p : PartIx) : s.syncRights.shownImage p = s.shownImage p := rfl

theorem shownImage_armGate (s : State) (m : Manifest) (e : GateEntry) (p : PartIx) :
    (s.armGate m e).shownImage p = s.shownImage p := by
  unfold State.armGate
  split
  · rfl
  · split
    · exact shownImage_setF (f := Reg.GATE_g_STAT_STATE) (by decide) s e.gate 0 1 p
    · rfl

/-- What a load that has taken effect leaves in its partition and its registers: once the partition is bound, every step keeps
what it holds, and once LOADED and the serial are shown, no step touches them. -/
theorem install_effect (s : State) (p : PartIx) (j : JobImage) (c o : Nat) :
    ((s.install p j c o).part p).core = (.idle, true, j, c, o, j.scheds) ∧
      (s.install p j c o).shownImage p = (1, j.serial % 2 ^ 64) := by
  unfold State.install
  extract_lets l woken map righted used blank
  split
  next read w6 _ =>
  extract_lets bound settled saved written started shown slotted ready
  have bound_core : (bound.part p).core = (.idle, true, j, c, o, j.scheds) := by
    unfold bound
    rw [part_updPart_same]
    rfl
  have written_keeps : written.holding = bound.holding :=
    (holding_writeSet ..).trans (holding_of_beside ((beside_saveCtx ..).trans (beside_resettle ..)))
  have started_keeps : started.holding = bound.holding :=
    (foldl_keeps State.holding (fun _ _ _ => holding_startTile ..) _).trans ((holding_placeTiles ..).trans written_keeps)
  have shown_keeps : shown.beside = started.beside := by simp (disch := decide) only [shown, beside_setF]
  have shown_image : shown.shownImage p = (1, j.serial % 2 ^ 64) := by
    simp only [shown, State.shownImage]
    rw [getF_setF_of_lo (by decide) (by decide) (by decide)]
    simp only [getF_setF_same]
    rfl
  have slotted_keeps : slotted.beside = shown.beside ∧ slotted.shownImage p = shown.shownImage p := by
    unfold slotted
    split
    · split
      · exact ⟨beside_setF (by decide) .., shownImage_setF (by decide) ..⟩
      · exact ⟨rfl, rfl⟩
    · exact ⟨rfl, rfl⟩
  have ready_keeps : ready.beside = shown.beside ∧ ready.shownImage p = shown.shownImage p :=
    ⟨by rw [← slotted_keeps.1]; exact (beside_syncRights _).trans ((beside_countQueues _).trans (beside_showSlot ..)),
      by rw [← slotted_keeps.2]; exact (shownImage_syncRights ..).trans ((shownImage_countQueues ..).trans (shownImage_showSlot ..))⟩
  rw [← bound_core, ← shown_image, ← core_of_holding started_keeps, ← core_of_holding (holding_of_beside shown_keeps),
    ← core_of_holding (holding_of_beside ready_keeps.1), ← ready_keeps.2]
  split
  · exact ⟨core_of_holding (holding_of_beside (foldl_keeps State.beside (fun _ _ _ => beside_armGate ..) ready)) p,
      foldl_keeps (fun t => t.shownImage p) (fun _ _ _ => shownImage_armGate ..) ready⟩
  · exact ⟨rfl, rfl⟩

end Sys2Proof.Machine
end

section
/-!
PROOFS. UNLOAD, and the ends of Eclipses and of Floodlight's INIT passes that it waits for (03_configuration_images.md R80;
13_tenants_and_joint_training.md R314, R315; 16_reliability_and_integrity.md R402).
-/

namespace Sys2Proof.Machine

/-! ## Floodlight over a carve (13_tenants_and_joint_training.md R315; 16_reliability_and_integrity.md R402) -/

@[simp] theorem beside_showFlood (s : State) (c : Nat) : (s.showFlood c).beside = s.beside := by
  unfold State.showFlood
  extract_lets l
  split <;> simp (disch := decide) only [beside_tick, beside_setF]

@[simp] theorem showFlood_mem (s : State) (c : Nat) : (s.showFlood c).mem = s.mem := by
  unfold State.showFlood
  extract_lets l
  split <;> simp only [tick_mem, setF_mem]

@[simp] theorem beside_updFloods (s : State) (f : List (Nat × Nat) → List (Nat × Nat)) : (s.updFloods f).beside = s.beside :=
  beside_of_regs rfl rfl rfl rfl

@[simp] theorem beside_startFlood (s : State) (what : Nat) (l : List Nat) : (s.startFlood what l).beside = s.beside :=
  (foldl_keeps State.beside (fun _ _ _ => beside_showFlood ..) _).trans (beside_updFloods ..)

theorem startFlood_floods (s : State) (what : Nat) (l : List Nat) :
    (s.startFlood what l).mem.floods = s.mem.floods ++ l.map fun c => (c, what) :=
  congrArg Mem.floods (foldl_keeps State.mem (l := l) (fun _ _ _ => showFlood_mem ..)
    (s.updFloods fun f => f ++ l.map fun c => (c, what)))

theorem flooding_startFlood (s : State) (what : Nat) {l : List Nat} (h : l ≠ []) : (s.startFlood what l).flooding what = true := by
  obtain ⟨c, l, rfl⟩ := List.exists_cons_of_ne_nil h
  simp [State.flooding, startFlood_floods]

@[simp] theorem beside_initShares (s : State) (space : Nat) (l : List Nat) : (s.initShares space l).beside = s.beside := by
  unfold State.initShares
  exact beside_of_regs rfl rfl rfl rfl

@[simp] theorem beside_floodCarve (s : State) (p : Nat) : (s.floodCarve p).beside = s.beside := by
  unfold State.floodCarve
  extract_lets l
  split
  · rfl
  · exact (beside_startFlood ..).trans (beside_initShares ..)

theorem flooding_floodCarve {s : State} {p : Nat} (hprofile : s.profileK = false) (hcarve : s.carveCtrls p ≠ []) :
    (s.floodCarve p).flooding p = true := by
  have nonempty : (s.carveCtrls p).isEmpty = false := by simpa using hcarve
  simp only [State.floodCarve, hprofile, nonempty, Bool.or_self, Bool.false_eq_true, if_false]
  exact flooding_startFlood _ _ hcarve

theorem carveCtrls_of_frame {s t : State} (h : t.frame = s.frame) (p : Nat) : t.carveCtrls p = s.carveCtrls p := by
  have share (c : Nat) : t.carveShare p c = s.carveShare p c := by rw [State.carveShare, State.carveShare, h]
  simp only [State.carveCtrls, share]

/-! ## UNLOAD (03_configuration_images.md R80) -/

section
variable {p : PartIx} {s : State} (hup : s.hubUp = true) (hbusy : (s.part p).busy = .idle)
include hup hbusy

theorem unload_of_no_image (hloaded : (s.part p).loaded = false) : exec (.unload p) s = .next (s.loadEnd p 0 0 0) := by
  show execUnload p s = _
  simp only [execUnload, cxlIo_of_hubUp hup, hbusy, hloaded, ne_eq, not_true_eq_false, Bool.not_false, if_true, if_false]

theorem unload_of_busy_context (hloaded : (s.part p).loaded = true) (hctx : s.ctxBusy (s.part p).ctx = true) :
    exec (.unload p) s = .next (s.loadEnd p 0x0921 0xFF 0) := by
  show execUnload p s = _
  simp only [execUnload, cxlIo_of_hubUp hup, hbusy, hloaded, hctx, ne_eq, not_true_eq_false, Bool.not_true, Bool.false_eq_true,
    if_true, if_false]

theorem exec_unload_of_idle_context (hloaded : (s.part p).loaded = true) (hctx : s.ctxBusy (s.part p).ctx = false) :
    exec (.unload p) s = .next (((((s.release p).endSends p 0x0603).floodCarve p).setF Reg.JOB_LOAD_STAT_BUSY p 0 1).updPart p
      fun x => { x with busy := .unload }) := by
  show execUnload p s = _
  simp only [execUnload, cxlIo_of_hubUp hup, hbusy, hloaded, hctx, ne_eq, not_true_eq_false, Bool.not_true, Bool.false_eq_true,
    if_false]

/-- An UNLOAD of a context that is not busy leaves the partition without an image, waiting for its Eclipse and, in profile S, for
the initialisation of its carve. -/
theorem unload_of_idle_context (hgrid : s.frame.onGrid) (hloaded : (s.part p).loaded = true)
    (hctx : s.ctxBusy (s.part p).ctx = false) :
    ∃ u, exec (.unload p) s = .next u ∧ (u.part p).busy = .unload ∧ (u.part p).loaded = false ∧
      u.getF Reg.JOB_LOAD_STAT_BUSY p 0 = 1 ∧ (s.profileK = false → s.carveCtrls p ≠ [] → u.flooding p = true) := by
  have ended : Released s p ((s.release p).endSends p 0x0603) :=
    (released_release hgrid hloaded).of_holding (holding_of_beside (beside_endSends ..))
  have flooded : Released s p (((s.release p).endSends p 0x0603).floodCarve p) :=
    ended.of_holding (holding_of_beside (beside_floodCarve ..))
  refine ⟨_, exec_unload_of_idle_context hup hbusy hloaded hctx, ?_, ?_, ?_, fun hprofile hcarve => ?_⟩
  · rw [part_updPart_same]
  · simp only [part_updPart_same, setF_part, flooded.loaded]
  · rw [updPart_getF, getF_setF_same]
    rfl
  · have kept := flooding_floodCarve (ended.profileK.trans hprofile) (carveCtrls_of_frame ended.frame p ▸ hcarve)
    simpa only [State.flooding, updPart_mem, setF_mem] using kept

end

/-! ## The end of an Eclipse and of Floodlight's work (R80; 13_tenants_and_joint_training.md R314, R315) -/

theorem powerOnly_darkUnbound {s : State} (h : s.frame.onGrid) (p : Nat) : PowerOnly s (s.darkUnbound p) := by
  unfold State.darkUnbound
  split
  · exact PowerOnly.darken s fun c hc => partClusters_lt h (List.mem_filter.1 hc).1
  · exact PowerOnly.refl s

/-- What ends at a partition's loading controls when it waits for nothing more. -/
def State.partEnded (s : State) (k : Nat) : State :=
  match (s.part k).busy with
  | .unload => (s.loadEnd k 0 0 0).updPart k fun x => { x with busy := .idle }
  | .reset => (s.setF Reg.JOB_LOAD_STAT_BUSY k 0 0).updPart k fun x => { x with busy := .idle }
  | _ => s

theorem finishPart_of_waiting {s : State} {k : Nat} (h : (s.part k).eclipse = true ∨ s.flooding k = true) : s.finishPart k = s := by
  rw [State.finishPart, if_pos (by simpa using h)]

theorem finishPart_of_ready {s : State} {k : Nat} (he : (s.part k).eclipse = false) (hf : s.flooding k = false) :
    s.finishPart k = (s.partEnded k).darkUnbound k := by
  unfold State.finishPart State.partEnded
  rw [if_neg (by simp [he, hf])]
  split <;> simp_all

/-- What the ends at the loading controls of the partitions in `Q` touch: what runs there, the loading controls' registers of these
partitions, the power block, and tiles. -/
structure EndsIn (Q : Nat → Prop) (s u : State) : Prop where
  mem : u.mem = s.mem
  frame : u.frame = s.frame
  eclipse : ∀ p, (u.part p).eclipse = (s.part p).eclipse
  part : ∀ p, ¬ Q p → u.part p = s.part p
  regs : ∀ k d, k < 0x20000 * 64 ∨ 0x20400 * 64 ≤ k → (∀ q, Q q → k / 64 ≠ Reg.JOB_LOAD_STAT_BUSY.base + 0x1000 * q) →
    smapGet d u.regs k = smapGet d s.regs k

/-- Does a field lie in the register that shows how a partition's loads end? -/
def Fld.ofLoads (f : Fld) : Bool := f.base = Reg.JOB_LOAD_STAT_BUSY.base && f.s1 = 0x1000 && f.lo < 64

theorem Fld.ofLoads_iff {f : Fld} : f.ofLoads = true ↔ f.base = Reg.JOB_LOAD_STAT_BUSY.base ∧ f.s1 = 0x1000 ∧ f.lo < 64 := by
  simp only [Fld.ofLoads, Bool.and_eq_true, decide_eq_true_eq, and_assoc]

theorem PowerOnly.endsIn {s u : State} (h : PowerOnly s u) (Q : Nat → Prop) : EndsIn Q s u where
  mem := h.mem
  frame := h.frame
  eclipse p := by rw [h.part]
  part p _ := h.part p
  regs k d hk _ := h.2 k d hk

namespace EndsIn

variable {Q : Nat → Prop}

theorem refl (s : State) : EndsIn Q s s := ⟨rfl, rfl, fun _ => rfl, fun _ _ => rfl, fun _ _ _ _ => rfl⟩

theorem trans {s t u : State} (h : EndsIn Q s t) (k : EndsIn Q t u) : EndsIn Q s u where
  mem := k.mem.trans h.mem
  frame := k.frame.trans h.frame
  eclipse p := (k.eclipse p).trans (h.eclipse p)
  part p hp := (k.part p hp).trans (h.part p hp)
  regs key d hkey hq := (k.regs key d hkey hq).trans (h.regs key d hkey hq)

theorem setF {f : Fld} (hf : f.ofLoads = true) {q : Nat} (hq : Q q) (s : State) (v : Nat) : EndsIn Q s (s.setF f q 0 v) where
  mem := rfl
  frame := rfl
  eclipse _ := rfl
  part _ _ := rfl
  regs k d _ hk := by
    refine smapGet_set_other _ _ _ _ _ _ fun e => hk q hq ?_
    obtain ⟨hbase, hstride, hlo⟩ := Fld.ofLoads_iff.1 hf
    rw [e, Fld.key, hbase, hstride]
    omega

theorem updBusy {q : Nat} (hq : Q q) (s : State) (b : LoadBusy) : EndsIn Q s (s.updPart q fun x => { x with busy := b }) where
  mem := rfl
  frame := rfl
  eclipse p := by
    rcases eq_or_ne p q with rfl | hp
    · rw [part_updPart_same]
    · rw [part_updPart_other _ _ _ _ hp]
  part p hp := part_updPart_other _ _ _ _ fun e => hp (e ▸ hq)
  regs _ _ _ _ := rfl

theorem loadEnd {q : Nat} (hq : Q q) (s : State) (code sect entry : Nat) : EndsIn Q s (s.loadEnd q code sect entry) := by
  unfold State.loadEnd
  refine ((((setF ?_ hq _ _).trans (setF ?_ hq _ _)).trans (setF ?_ hq _ _)).trans (setF ?_ hq _ _)).trans (setF ?_ hq _ _) <;> decide

theorem partEnded {q : Nat} (hq : Q q) (s : State) : EndsIn Q s (s.partEnded q) := by
  unfold State.partEnded
  split
  · exact (loadEnd hq s 0 0 0).trans (updBusy hq _ _)
  · exact (setF (by decide) hq s 0).trans (updBusy hq _ _)
  · exact refl s

theorem finishPart {s : State} (hgrid : s.frame.onGrid) {q : Nat} (hq : Q q) : EndsIn Q s (s.finishPart q) := by
  by_cases h : (s.part q).eclipse = true ∨ s.flooding q = true
  · rw [finishPart_of_waiting h]
    exact refl s
  · simp only [not_or, Bool.not_eq_true] at h
    have ended := partEnded hq s
    rw [finishPart_of_ready h.1 h.2]
    exact ended.trans ((powerOnly_darkUnbound (ended.frame ▸ hgrid) q).endsIn Q)

theorem foldl {α : Type} {f : State → α → State} {l : List α} {s : State}
    (hf : ∀ t, EndsIn Q s t → ∀ a ∈ l, EndsIn Q t (f t a)) : EndsIn Q s (l.foldl f s) :=
  List.foldlRecOn (motive := EndsIn Q s) l f (refl s) fun t ht a ha => ht.trans (hf t ht a ha)

variable {s u : State} (h : EndsIn Q s u)
include h

theorem flooding (what : Nat) : u.flooding what = s.flooding what := by rw [State.flooding, h.mem, State.flooding]

/-- A field above the partitions' pages. -/
theorem getF {f : Fld} (hbase : 0x200000 ≤ f.base) (hlo : f.lo < 64) (hQ : ∀ q, Q q → q < 32) (i j : Nat) :
    u.getF f i j = s.getF f i j := by
  refine h.regs _ _ (by simp only [Fld.key]; omega) fun q hq => ?_
  have := hQ q hq
  simp only [Fld.key, Reg.JOB_LOAD_STAT_BUSY]
  omega

/-- A field of the loading controls of a partition at which nothing ends. -/
theorem getF_part {f : Fld} (hf : f.ofLoads = true) {p : Nat} (hp : ¬ Q p) : u.getF f p 0 = s.getF f p 0 := by
  obtain ⟨hbase, hstride, hlo⟩ := Fld.ofLoads_iff.1 hf
  refine h.regs _ _ (by simp only [Fld.key, hbase, Reg.JOB_LOAD_STAT_BUSY]; omega) fun q hq => ?_
  have : q ≠ p := fun e => hp (e ▸ hq)
  simp only [Fld.key, hbase, hstride, Reg.JOB_LOAD_STAT_BUSY]
  omega

theorem loadEnded {p code sect entry : Nat} (hp : ¬ Q p) (hs : LoadEnded s p code sect entry) : LoadEnded u p code sect entry := by
  obtain ⟨hbusy, hdone, hcode, hsect, hentry⟩ := hs
  exact ⟨(h.getF_part (by decide) hp).trans hbusy, (h.getF_part (by decide) hp).trans hdone,
    (h.getF_part (by decide) hp).trans hcode, (h.getF_part (by decide) hp).trans hsect,
    (h.getF_part (by decide) hp).trans hentry⟩

end EndsIn

/-- What a partition's loading controls show of the end of what ran there. -/
structure PartEnd (b : LoadBusy) (u : State) (p : Nat) : Prop where
  unload : b = .unload → LoadEnded u p 0 0 0 ∧ (u.part p).busy = .idle
  reset : b = .reset → u.getF Reg.JOB_LOAD_STAT_BUSY p 0 = 0 ∧ (u.part p).busy = .idle

theorem PartEnd.endsIn {Q : Nat → Prop} {b : LoadBusy} {s u : State} {p : Nat} (h : PartEnd b s p) (k : EndsIn Q s u) (hp : ¬ Q p) :
    PartEnd b u p where
  unload hb := by
    obtain ⟨ended, idle⟩ := h.unload hb
    exact ⟨k.loadEnded hp ended, by rw [k.part p hp, idle]⟩
  reset hb := by
    obtain ⟨ended, idle⟩ := h.reset hb
    exact ⟨(k.getF_part (by decide) hp).trans ended, by rw [k.part p hp, idle]⟩

theorem partEnd_partEnded (s : State) (p : Nat) : PartEnd (s.part p).busy (s.partEnded p) p := by
  unfold State.partEnded
  constructor <;> intro hb <;> rw [hb]
  · exact ⟨(loadEnded_loadEnd ..).updPart .., by rw [part_updPart_same]⟩
  · exact ⟨by rw [updPart_getF, getF_setF_zero], by rw [part_updPart_same]⟩

theorem partEnd_finishPart {s : State} (hgrid : s.frame.onGrid) {p : Nat} (he : (s.part p).eclipse = false)
    (hf : s.flooding p = false) : PartEnd (s.part p).busy (s.finishPart p) p := by
  rw [finishPart_of_ready he hf]
  have ended : EndsIn (· = p) s (s.partEnded p) := EndsIn.partEnded (Q := (· = p)) rfl s
  exact (partEnd_partEnded s p).endsIn (Q := fun _ => False) ((powerOnly_darkUnbound (ended.frame ▸ hgrid) p).endsIn _) not_false

theorem powerOnly_loadGateProgram (s : State) (p : Nat) : PowerOnly s (s.loadGateProgram p) := by
  unfold State.loadGateProgram
  split
  · exact PowerOnly.foldl s fun _ _ _ => PowerOnly.setTile _ _ _
  · exact PowerOnly.refl s

/-- An Eclipse of a partition is counted and shown, and no longer runs. -/
def State.eclipseCounted (s : State) (p : PartIx) (cycles : BitVec 16) : State :=
  (((s.updPart p fun x => { x with eclipse := false }).addF Reg.ECLIPSE_COUNT_COUNT 0 0 1).set
    Reg.ECLIPSE_LAST_CYCLES cycles.toNat).set Reg.ECLIPSE_LAST_PART p.val

section
variable (s : State) (p : PartIx) (cycles : BitVec 16)

theorem eclipseComplete_of_no_eclipse (h : (s.part p).eclipse = false) : exec (.eclipseComplete p cycles) s = .next s := by
  show execEclipseComplete p cycles s = _
  simp only [execEclipseComplete, h, Bool.not_false, if_true]

theorem eclipseComplete_of_eclipse (h : (s.part p).eclipse = true) :
    exec (.eclipseComplete p cycles) s = .next (((s.eclipseCounted p cycles).loadGateProgram p).finishPart p) := by
  show execEclipseComplete p cycles s = _
  simp only [execEclipseComplete, h, Bool.not_true, Bool.false_eq_true, if_false, State.eclipseCounted]

theorem eclipseCounted_part : (s.eclipseCounted p cycles).part p = { s.part p with eclipse := false } := by
  simp only [State.eclipseCounted, State.addF, set_part, setF_part, part_updPart_same]

theorem eclipseCounted_mem : (s.eclipseCounted p cycles).mem = s.mem := by
  simp only [State.eclipseCounted, State.addF, set_mem, setF_mem, updPart_mem]

theorem eclipseCounted_frame : (s.eclipseCounted p cycles).frame = s.frame := by
  simp only [State.eclipseCounted, State.addF, set_frame, setF_frame, updPart_frame]

theorem eclipseCounted_count : (s.eclipseCounted p cycles).get Reg.ECLIPSE_COUNT_COUNT =
    min (2 ^ 64 - 1) (s.get Reg.ECLIPSE_COUNT_COUNT + 1) := by
  have bound : min (2 ^ 64 - 1) (s.get Reg.ECLIPSE_COUNT_COUNT + 1) < 2 ^ 64 := by omega
  rw [State.eclipseCounted, get_set_other _ _ _ _ (by decide), get_set_other _ _ _ _ (by decide), State.get, State.addF,
    getF_setF_same]
  exact Nat.mod_eq_of_lt bound

theorem eclipseCounted_cycles : (s.eclipseCounted p cycles).get Reg.ECLIPSE_LAST_CYCLES = cycles.toNat := by
  rw [State.eclipseCounted, get_set_other _ _ _ _ (by decide), get_set_same]
  exact Nat.mod_eq_of_lt cycles.isLt

theorem eclipseCounted_last : (s.eclipseCounted p cycles).get Reg.ECLIPSE_LAST_PART = p.val := by
  rw [State.eclipseCounted, get_set_same]
  exact Nat.mod_eq_of_lt p.isLt

theorem eclipseComplete_effect (hgrid : s.frame.onGrid) (h : (s.part p).eclipse = true) :
    ∃ u, exec (.eclipseComplete p cycles) s = .next u ∧ (u.part p).eclipse = false ∧
      u.get Reg.ECLIPSE_COUNT_COUNT = min (2 ^ 64 - 1) (s.get Reg.ECLIPSE_COUNT_COUNT + 1) ∧
      u.get Reg.ECLIPSE_LAST_CYCLES = cycles.toNat ∧ u.get Reg.ECLIPSE_LAST_PART = p.val ∧
      (s.flooding p = true → (u.part p).busy = (s.part p).busy) ∧ (s.flooding p = false → PartEnd (s.part p).busy u p) := by
  have counted_frame := eclipseCounted_frame s p cycles
  have loaded := powerOnly_loadGateProgram (s.eclipseCounted p cycles) p
  have loaded_part : (((s.eclipseCounted p cycles).loadGateProgram p).part p) = { s.part p with eclipse := false } := by
    rw [loaded.part, eclipseCounted_part]
  have loaded_flooding : ((s.eclipseCounted p cycles).loadGateProgram p).flooding p = s.flooding p := by
    rw [State.flooding, loaded.mem, eclipseCounted_mem, State.flooding]
  have on_grid : ((s.eclipseCounted p cycles).loadGateProgram p).frame.onGrid := by rwa [loaded.frame, counted_frame]
  have finished : EndsIn (· = p.val) _ (((s.eclipseCounted p cycles).loadGateProgram p).finishPart p) :=
    EndsIn.finishPart on_grid rfl
  have kept {f : Fld} (hf : f ∈ [Reg.ECLIPSE_COUNT_COUNT, Reg.ECLIPSE_LAST_CYCLES, Reg.ECLIPSE_LAST_PART]) :
      (((s.eclipseCounted p cycles).loadGateProgram p).finishPart p).get f = (s.eclipseCounted p cycles).get f := by
    have above : 0x200000 ≤ f.base ∧ f.lo < 64 := by
      revert f
      decide
    exact (finished.getF above.1 above.2 (fun q hq => hq ▸ p.isLt) 0 0).trans
      (loaded.get f (Or.inr (by rw [Fld.key]; omega)))
  refine ⟨_, eclipseComplete_of_eclipse s p cycles h, ?_, ?_, ?_, ?_, fun hflood => ?_, fun hflood => ?_⟩
  · rw [finished.eclipse, loaded_part]
  · rw [kept (by simp), eclipseCounted_count]
  · rw [kept (by simp), eclipseCounted_cycles]
  · rw [kept (by simp), eclipseCounted_last]
  · rw [finishPart_of_waiting (Or.inr (loaded_flooding.trans hflood)), loaded_part]
  · have ends := partEnd_finishPart on_grid (p := p) (by rw [loaded_part]) (loaded_flooding.trans hflood)
    rwa [loaded_part] at ends

end

/-! ## The last INIT pass that a partition waits for (13_tenants_and_joint_training.md R315; 16_reliability_and_integrity.md R402) -/

/-- The end of what ran at the loading controls of every partition that waited for nothing else. -/
def State.finishParts (s : State) (l : List Nat) : State :=
  l.foldl (fun s p => if (s.part p).busy = .unload || (s.part p).busy = .reset then s.finishPart p else s) s

theorem EndsIn.finishParts {Q : Nat → Prop} {s : State} (hgrid : s.frame.onGrid) {l : List Nat} (hl : ∀ q ∈ l, Q q) :
    EndsIn Q s (s.finishParts l) := by
  refine EndsIn.foldl fun t ht q hq => ?_
  split
  · exact EndsIn.finishPart (ht.frame ▸ hgrid) (hl q hq)
  · exact EndsIn.refl t

/-- The end of what ran at one partition's loading controls, if something that ends ran there. -/
theorem partEnd_finishParts_singleton {s : State} (hgrid : s.frame.onGrid) {p : Nat} (he : (s.part p).eclipse = false)
    (hf : s.flooding p = false) : PartEnd (s.part p).busy (s.finishParts [p]) p := by
  simp only [State.finishParts, List.foldl_cons, List.foldl_nil]
  split
  · exact partEnd_finishPart hgrid he hf
  · next waits_not =>
    simp only [Bool.or_eq_true, decide_eq_true_eq, not_or] at waits_not
    exact ⟨fun hb => absurd hb waits_not.1, fun hb => absurd hb waits_not.2⟩

/-- The one end at a partition's loading controls stands between ends at others. -/
theorem partEnd_finishParts {s : State} (hgrid : s.frame.onGrid) {p : Nat} (hp : p < 32) (he : (s.part p).eclipse = false)
    (hf : s.flooding p = false) : PartEnd (s.part p).busy (s.finishParts (List.range 32)) p := by
  obtain ⟨as, bs, split_at⟩ := List.append_of_mem (List.mem_range.2 hp)
  have apart : ∀ q ∈ as ++ bs, q ≠ p := fun q hq e =>
    (List.nodup_middle.1 (split_at ▸ List.nodup_range (n := 32))).notMem (e ▸ hq)
  have before : EndsIn (· ≠ p) s (s.finishParts as) :=
    EndsIn.finishParts hgrid fun q hq => apart q (List.mem_append_left _ hq)
  have before_part : (s.finishParts as).part p = s.part p := before.part p (not_not.2 rfl)
  have before_grid : (s.finishParts as).frame.onGrid := before.frame ▸ hgrid
  have here : EndsIn (· = p) _ ((s.finishParts as).finishParts [p]) :=
    EndsIn.finishParts before_grid fun q hq => List.mem_singleton.1 hq
  have ends : PartEnd (s.part p).busy ((s.finishParts as).finishParts [p]) p :=
    before_part ▸ partEnd_finishParts_singleton before_grid (before_part ▸ he) ((before.flooding p).trans hf)
  have after : EndsIn (· ≠ p) _ (((s.finishParts as).finishParts [p]).finishParts bs) :=
    EndsIn.finishParts (here.frame ▸ before_grid) fun q hq => apart q (List.mem_append_right _ hq)
  have whole : s.finishParts (List.range 32) = ((s.finishParts as).finishParts [p]).finishParts bs := by
    simp only [State.finishParts, split_at, List.foldl_append, List.foldl_cons, List.foldl_nil]
  rw [whole]
  exact ends.endsIn after (not_not.2 rfl)

/-- No pass is under way any more, and a controller shows it. -/
def State.floodsOver (s : State) (c : Nat) : State := (s.updFloods fun _ => []).showFlood c

theorem beside_floodsOver (s : State) (c : Nat) : (s.floodsOver c).beside = s.beside :=
  (beside_showFlood ..).trans (beside_updFloods ..)

theorem floodsOver_floods (s : State) (c : Nat) : (s.floodsOver c).mem.floods = [] := by
  rw [State.floodsOver, showFlood_mem, State.updFloods]

theorem floodsOver_busy (s : State) (c : Nat) : (s.floodsOver c).getF Reg.FLOOD_STAT_BUSY c 0 = 0 := by
  simp (disch := decide) [State.floodsOver, State.updFloods, State.showFlood, getF_setF_of_lo]

section
variable {s : State} {c : CtrlIx} {p : PartIx} (hfloods : s.mem.floods = [(c.val, p.val)])
include hfloods

/-- With one pass under way, that of a partition's carve, its end leaves none, and nothing waits for the ROTATE. -/
theorem floodlightComplete_of_one_init :
    exec (.floodlightComplete c []) s = .next ((s.floodsOver c).finishParts (List.range 32)) := by
  have hp : p.val ≠ 34 ∧ p.val ≠ 33 := by omega
  have under_way : (s.mem.floods.any fun x => x.1 = c.val && x.2 ≠ 34) = true := by simp [hfloods, hp.1]
  have none_left : (s.updFloods fun l => l.filter fun x => x.1 ≠ c.val || x.2 = 34) = s.updFloods fun _ => [] := by
    simp [State.updFloods, hfloods, hp.1]
  have no_rotate : s.flooding 33 = false := by simp [State.flooding, hfloods, hp.2]
  show execFloodlightComplete c [] s = _
  simp only [execFloodlightComplete, under_way, if_true, State.endInit, none_left, no_rotate, Bool.false_and, Bool.false_eq_true,
    if_false, State.finishParts, State.floodsOver]

theorem floodlightComplete_effect (hgrid : s.frame.onGrid) (he : (s.part p).eclipse = false) :
    ∃ u, exec (.floodlightComplete c []) s = .next u ∧ u.mem.floods = [] ∧ u.getF Reg.FLOOD_STAT_BUSY c 0 = 0 ∧
      PartEnd (s.part p).busy u p := by
  have stands := beside_floodsOver s c
  have stands_part : (s.floodsOver c).part p = s.part p := part_of_beside stands p
  have on_grid : (s.floodsOver c).frame.onGrid := frame_of_holding (holding_of_beside stands) ▸ hgrid
  have finished : EndsIn (· < 32) _ ((s.floodsOver c).finishParts (List.range 32)) :=
    EndsIn.finishParts on_grid fun q hq => List.mem_range.1 hq
  refine ⟨_, floodlightComplete_of_one_init hfloods, ?_, ?_, ?_⟩
  · rw [finished.mem, floodsOver_floods]
  · rw [finished.getF (by decide) (by decide) fun q hq => hq, floodsOver_busy]
  · have still : (s.floodsOver c).flooding p = false := by rw [State.flooding, floodsOver_floods, List.any_nil]
    exact stands_part ▸ partEnd_finishParts on_grid p.isLt (stands_part ▸ he) still

end

end Sys2Proof.Machine
end

section
/-!
PROOFS. Resets of partitions and of tiles (18_power_clocks_and_reset.md R441).
-/

namespace Sys2Proof.Machine

/-! ## The reset of a partition (18_power_clocks_and_reset.md R441) -/

theorem resetPartRegs_frame (s : State) (p : Nat) : (s.resetPartRegs p).frame = s.frame :=
  foldl_keeps State.frame (fun _ _ _ => by rfl) s

theorem resetPartRegs_parts (s : State) (p : Nat) : (s.resetPartRegs p).parts = s.parts :=
  foldl_keeps State.parts (fun _ _ _ => by rfl) s

theorem isGate_of_frame {s t : State} (h : t.frame = s.frame) (p : Nat) : t.isGate p = s.isGate p := by
  rw [State.isGate, h, State.isGate]

theorem bitList_single (p : PartIx) : bitList 32 (BitVec.ofNat 32 (2 ^ p.val)).toNat = [p.val] := by
  revert p
  decide

theorem partReset_of_frameLoad {s : State} (hup : s.hubUp = true) (h : s.get Reg.FRAME_LOAD_STAT_BUSY = 1) (mask : BitVec 32) :
    exec (.partReset mask) s = .next s := by
  show execPartReset mask s = _
  simp only [execPartReset, cxlIo_of_hubUp hup, h, if_true]

theorem partReset_of_one {s : State} (hup : s.hubUp = true) (h : s.get Reg.FRAME_LOAD_STAT_BUSY = 0) (p : PartIx) :
    exec (.partReset (BitVec.ofNat 32 (2 ^ p.val))) s = .next (s.resetPart p) := by
  show execPartReset _ s = _
  simp only [execPartReset, cxlIo_of_hubUp hup, h, bitList_single, Nat.zero_ne_one, if_false, List.foldl_cons, List.foldl_nil]

/-- The last two steps of a partition's reset: its registers, and, beside a gate partition, its carve and BUSY. -/
def State.resetEnd (s : State) (p : Nat) : State :=
  if (s.resetPartRegs p).isGate p then s.resetPartRegs p
  else ((s.resetPartRegs p).floodCarve p).setF Reg.JOB_LOAD_STAT_BUSY p 0 1

theorem resetEnd_keeps (s : State) (p : Nat) : (s.resetEnd p).part p = s.part p ∧ (s.resetEnd p).isGate p = s.isGate p := by
  have regs_part : (s.resetPartRegs p).part p = s.part p := by rw [State.part, resetPartRegs_parts, State.part]
  have regs_gate : (s.resetPartRegs p).isGate p = s.isGate p := isGate_of_frame (resetPartRegs_frame s p) p
  unfold State.resetEnd
  split
  · exact ⟨regs_part, regs_gate⟩
  · have flooded := beside_floodCarve (s.resetPartRegs p) p
    have flooded_gate := isGate_of_frame (frame_of_holding (holding_of_beside flooded)) p
    rw [setF_part, part_of_beside flooded, isGate_of_frame (setF_frame ..), flooded_gate]
    exact ⟨regs_part, regs_gate⟩

theorem resetEnd_busy {s : State} {p : Nat} (h : s.isGate p = false) : (s.resetEnd p).getF Reg.JOB_LOAD_STAT_BUSY p 0 = 1 := by
  rw [State.resetEnd, isGate_of_frame (resetPartRegs_frame s p), h, if_neg Bool.false_ne_true, getF_setF_same]
  rfl

/-- A reset empties the partition in some state and ends from there. -/
theorem resetPart_of_rect {s : State} {p : Nat} (h : s.rect p ≠ none) : ∃ t : State, s.resetPart p =
    (t.updPart p fun x => { Part.empty with eclipse := x.eclipse, busy := if t.isGate p then .idle else .reset }).resetEnd p := by
  unfold State.resetPart
  split
  · next none_there => exact absurd none_there h
  · extract_lets gated stopped emptied cleared
    exact ⟨stopped, by rw [State.resetEnd]⟩

theorem partReset_effect {s : State} {p : PartIx} (hup : s.hubUp = true) (hframe : s.get Reg.FRAME_LOAD_STAT_BUSY = 0)
    (hrect : s.rect p ≠ none) : ∃ u, exec (.partReset (BitVec.ofNat 32 (2 ^ p.val))) s = .next u ∧ (u.part p).loaded = false ∧
      (u.part p).step = none ∧ (u.isGate p = true → (u.part p).busy = .idle) ∧
      (u.isGate p = false → (u.part p).busy = .reset ∧ u.getF Reg.JOB_LOAD_STAT_BUSY p 0 = 1) := by
  obtain ⟨t, reset⟩ := resetPart_of_rect hrect
  refine ⟨_, (partReset_of_one hup hframe p).trans (congrArg _ reset), ?_⟩
  obtain ⟨kept, gate⟩ := resetEnd_keeps
    (t.updPart p fun x => { Part.empty with eclipse := x.eclipse, busy := if t.isGate p then .idle else .reset }) p
  rw [part_updPart_same] at kept
  rw [isGate_of_frame (updPart_frame ..)] at gate
  refine ⟨by rw [kept]; rfl, by rw [kept]; rfl, fun hgate => ?_, fun hgate => ?_⟩
  · rw [kept, gate.symm.trans hgate]
    rfl
  · have no_gate := gate.symm.trans hgate
    refine ⟨by rw [kept, no_gate]; rfl, resetEnd_busy ?_⟩
    rwa [isGate_of_frame (updPart_frame ..)]

/-! ## Units that are stopped (04_tile_core.md R110; 05_matrix_array.md R143) -/

@[simp] theorem beside_strayWrites (s : State) (t : Nat) (c : UCmd) : (s.strayWrites t c).beside = s.beside := by
  unfold State.strayWrites
  split
  · rfl
  · split
    · refine foldl_keeps State.beside (fun u q _ => ?_) s
      split
      · rw [State.tileWrite, beside_writeVia, beside_tick]
      · exact beside_tick u
    · rfl

@[simp] theorem beside_dropOutput (s : State) (t : Nat) (u : UnitKind) (c : UCmd) : (s.dropOutput t u c).beside = s.beside := by
  unfold State.dropOutput
  split
  · rw [beside_tick]
    exact beside_of_regs rfl rfl rfl rfl
  · rfl

/-- What no stop of a unit touches in a tile: its instruction memory, its ENTRY and whether it has code. -/
def Tile.program (x : Tile) : List (Nat × BitVec 32) × Nat × Bool := (x.imem, x.entry, x.coded)

theorem program_accStopped (x : Tile) (c : UCmd) : (x.accStopped c).program = x.program := by
  unfold Tile.accStopped
  extract_lets
  split
  · split <;> rfl
  · split <;> rfl

theorem program_latchStopped (x : Tile) (c : UCmd) : (x.latchStopped c).program = x.program := by
  unfold Tile.latchStopped
  rfl

theorem program_cubeStopped (x : Tile) (c : UCmd) : (cubeStopped x c).program = x.program := by
  unfold cubeStopped
  split
  · rfl
  · exact (program_latchStopped ..).trans (program_accStopped ..)

/-- A stop of a tile's units touches, beside memory and streams, that tile alone, and leaves its program. -/
theorem stopUnits_keeps (s : State) (t : Nat) : ((s.stopUnits t).tile t).program = (s.tile t).program ∧
    (∀ k, k ≠ t → (s.stopUnits t).tile k = s.tile k) ∧
    (s.stopUnits t).get Reg.TILE_RESET_INDEX = s.get Reg.TILE_RESET_INDEX := by
  unfold State.stopUnits
  extract_lets x strayed dropped ws
  have strayed_keeps : strayed.beside = s.beside := foldl_keeps State.beside (fun _ _ _ => beside_strayWrites ..) s
  have dropped_keeps : dropped.beside = s.beside := by
    rw [← strayed_keeps]
    exact foldl_keeps State.beside (fun a u _ => foldl_keeps State.beside (fun _ _ _ => beside_dropOutput ..) a) strayed
  clear_value dropped ws
  simp only [State.beside, Prod.mk.injEq] at dropped_keeps
  obtain ⟨htiles, -, -, -, hindex⟩ := dropped_keeps
  have tile_keeps (k : Nat) : dropped.tile k = s.tile k := by rw [State.tile, htiles, State.tile]
  refine ⟨?_, fun k hk => ?_, ?_⟩
  · rw [tick_tile, tile_updTile_same, ← tile_keeps]
    exact (foldl_keeps Tile.program (fun _ _ _ => by rfl) _).trans
      (foldl_keeps Tile.program (fun _ _ _ => program_cubeStopped ..) _)
  · rw [tick_tile, tile_updTile_other _ _ _ _ hk, tile_keeps]
  · rw [tick_get, updTile_get, hindex]

/-! ## TILE_RESET (18_power_clocks_and_reset.md R441) -/

/-- May a reset start the tile again: debug access reaches tiles, and this one has halted for a reason that a reset ends? -/
def State.startable (s : State) (t : Nat) : Bool :=
  let x := s.tile t
  s.pilot.debugTile && x.halted && (x.cause = 1 || x.cause = 3 || x.cause = 4 || x.cause = 5)

/-- A tile that begins again at its ENTRY. -/
def Tile.restarted (x : Tile) : Tile :=
  { Tile.reset with
    scratch := x.scratch, acc := x.acc, imem := x.imem, latch := x.latch, rx := x.rx, ry := x.ry, ctx := x.ctx, entry := x.entry,
    pc := x.entry, coded := x.coded, halted := !x.coded, accKib := x.accKib, tileStep := x.tileStep,
    eps := x.eps.map fun e => (e.1, { e.2 with
      queue := [], credits := if e.2.kind = .msg || e.2.kind = .hub then 4 else e.2.credits }) }

/-- A tile's units stand still. -/
def State.unitsStill (s : State) (t : Nat) : State := if (s.tile t).anyRunning then s.stopUnits t else s

theorem unitsStill_keeps (s : State) (t : Nat) : ((s.unitsStill t).tile t).program = (s.tile t).program ∧
    (∀ k, k ≠ t → (s.unitsStill t).tile k = s.tile k) ∧
    (s.unitsStill t).get Reg.TILE_RESET_INDEX = s.get Reg.TILE_RESET_INDEX := by
  unfold State.unitsStill
  split
  · exact stopUnits_keeps s t
  · exact ⟨rfl, fun _ _ => rfl, rfl⟩

section
variable {s : State} (hup : s.hubUp = true) (t : BitVec 11)
include hup

theorem tileReset_of_no_tile (ht : 1536 ≤ t.toNat) : exec (.tileReset t) s = .next (s.set Reg.TILE_RESET_INDEX t.toNat) := by
  show execTileReset t s = _
  simp only [execTileReset, cxlIo_of_hubUp hup, if_pos ht]

theorem tileReset_of_denied (ht : ¬ 1536 ≤ t.toNat) (h : s.startable t.toNat = false) :
    exec (.tileReset t) s =
      .next ((s.set Reg.TILE_RESET_INDEX t.toNat).updTile t.toNat fun x => { x with dbgDenied := true }) := by
  show execTileReset t s = _
  have denied : (s.set Reg.TILE_RESET_INDEX t.toNat).startable t.toNat = false := h
  simp only [State.startable] at denied
  simp only [execTileReset, cxlIo_of_hubUp hup, if_neg ht, denied, Bool.false_eq_true, if_false]

theorem tileReset_of_allowed (ht : ¬ 1536 ≤ t.toNat) (h : s.startable t.toNat = true) :
    exec (.tileReset t) s = .next (((s.set Reg.TILE_RESET_INDEX t.toNat).unitsStill t.toNat).setTile t.toNat
      (((s.set Reg.TILE_RESET_INDEX t.toNat).unitsStill t.toNat).tile t.toNat).restarted) := by
  show execTileReset t s = _
  have allowed : (s.set Reg.TILE_RESET_INDEX t.toNat).startable t.toNat = true := h
  simp only [State.startable] at allowed
  simp only [execTileReset, cxlIo_of_hubUp hup, if_neg ht, allowed, if_true, State.unitsStill, Tile.restarted]

omit hup in
theorem resetIndex_set (s : State) (t : BitVec 11) :
    (s.set Reg.TILE_RESET_INDEX t.toNat).get Reg.TILE_RESET_INDEX = t.toNat := by
  rw [get_set_same]
  exact Nat.mod_eq_of_lt t.isLt

theorem tileReset_effect : ∃ u, exec (.tileReset t) s = .next u ∧ u.get Reg.TILE_RESET_INDEX = t.toNat ∧
    (∀ k, k ≠ t.toNat → u.tile k = s.tile k) ∧ (1536 ≤ t.toNat → u.tiles = s.tiles) ∧
    (t.toNat < 1536 → s.startable t.toNat = false → u.tile t.toNat = { s.tile t.toNat with dbgDenied := true }) ∧
    (t.toNat < 1536 → s.startable t.toNat = true → ∃ y : Tile, u.tile t.toNat = y.restarted ∧
      y.program = (s.tile t.toNat).program ∧ ((s.tile t.toNat).anyRunning = false → y = s.tile t.toNat)) := by
  by_cases ht : 1536 ≤ t.toNat
  · exact ⟨_, tileReset_of_no_tile hup t ht, resetIndex_set s t, fun _ _ => rfl, fun _ => rfl, by omega, by omega⟩
  · cases h : s.startable t.toNat with
    | false =>
      refine ⟨_, tileReset_of_denied hup t ht h, ?_, fun k hk => ?_, fun h' => absurd h' ht, fun _ _ => ?_, by simp⟩
      · rw [updTile_get, resetIndex_set]
      · rw [tile_updTile_other _ _ _ _ hk, set_tile]
      · rw [tile_updTile_same, set_tile]
    | true =>
      obtain ⟨program, others, index⟩ := unitsStill_keeps (s.set Reg.TILE_RESET_INDEX t.toNat) t.toNat
      refine ⟨_, tileReset_of_allowed hup t ht h, ?_, fun k hk => ?_, fun h' => absurd h' ht, by simp,
        fun _ _ => ⟨_, tile_setTile_same .., program, fun still => ?_⟩⟩
      · rw [setTile_get, index, resetIndex_set]
      · rw [tile_setTile_other _ _ _ _ hk, others k hk, set_tile]
      · rw [State.unitsStill, set_tile, still, if_neg Bool.false_ne_true, set_tile]

end

end Sys2Proof.Machine
end

section
/-!
PROOFS. Frame loads: the checks, the store, the change of the frame in force and the end of the load (03_configuration_images.md R77,
R81, R82).
-/

namespace Sys2Proof.Machine

/-! ## FRAME_LOAD (03_configuration_images.md R77, R81, R82) -/

/-- The flash takes a frame: of the registers only START_PENDING shows it, and nothing that runs sees it. -/
theorem storeFrame_effect (s : State) (b : Bytes) (pending : Bool) :
    (s.storeFrame b pending).get Reg.FRAME_LOAD_STAT_BUSY = s.get Reg.FRAME_LOAD_STAT_BUSY ∧
      (s.storeFrame b pending).frame = s.frame ∧ (s.storeFrame b pending).parts = s.parts ∧
      (s.storeFrame b pending).mem = s.mem ∧ (s.worn 12 = false → (s.storeFrame b pending).pilot.flash.startFrame = some b) := by
  unfold State.storeFrame
  split
  · next worn => exact ⟨rfl, rfl, rfl, rfl, fun h => absurd (worn.symm.trans h) (by decide)⟩
  · exact ⟨get_set_other _ _ _ _ (by decide), rfl, rfl, rfl, fun _ => rfl⟩

/-- The frame as an accepted load keeps it: BUSY, and the flash if it is to persist. -/
def State.frameTaken (s : State) (b : Bytes) (persist late : Bool) : State :=
  if persist then (s.set Reg.FRAME_LOAD_STAT_BUSY 1).storeFrame b late else s.set Reg.FRAME_LOAD_STAT_BUSY 1

theorem frameTaken_effect (s : State) (b : Bytes) (persist late : Bool) :
    (s.frameTaken b persist late).get Reg.FRAME_LOAD_STAT_BUSY = 1 ∧ (s.frameTaken b persist late).frame = s.frame ∧
      (s.frameTaken b persist late).parts = s.parts ∧ (s.frameTaken b persist late).mem = s.mem ∧
      (persist = true → s.worn 12 = false → (s.frameTaken b persist late).pilot.flash.startFrame = some b) ∧
      (persist = false → (s.frameTaken b persist late).pilot = s.pilot) := by
  have busy : (s.set Reg.FRAME_LOAD_STAT_BUSY 1).get Reg.FRAME_LOAD_STAT_BUSY = 1 := get_set_same ..
  cases persist with
  | false => exact ⟨busy, rfl, rfl, rfl, nofun, fun _ => rfl⟩
  | true =>
    obtain ⟨hbusy, hframe, hparts, hmem, hstart⟩ := storeFrame_effect (s.set Reg.FRAME_LOAD_STAT_BUSY 1) b late
    exact ⟨hbusy.trans busy, hframe, hparts, hmem, fun _ hworn => hstart hworn, nofun⟩

theorem persist_keeps_load (s : State) (n : Nat) :
    (s.set Reg.FRAME_LOAD_CTRL_PERSIST n).get Reg.FRAME_LOAD_STAT_BUSY = s.get Reg.FRAME_LOAD_STAT_BUSY ∧
      (s.set Reg.FRAME_LOAD_CTRL_PERSIST n).get Reg.FRAME_LOAD_ADDR_ADDR = s.get Reg.FRAME_LOAD_ADDR_ADDR :=
  ⟨get_set_other _ _ _ _ (by decide), get_set_other _ _ _ _ (by decide)⟩

/-- The check of a frame that a running chip is to load (R81). -/
def State.frameCheck (v : State) (b : Bytes) (persist : Bool) : Option LoadErr :=
  v.checkFrame b { boot := false, persist := persist, idle := (List.range 32).all fun p =>
    (v.part p).busy = .idle && !((v.part p).loaded && v.ctxBusy (v.part p).ctx), worn := v.worn 12 }

section
variable {s v : State} {persist : Bool} {b : Bytes} (hup : s.hubUp = true)
include hup

theorem frameLoad_of_busy (h : s.get Reg.FRAME_LOAD_STAT_BUSY = 1) : exec (.frameLoad persist) s =
    .next ((s.set Reg.FRAME_LOAD_CTRL_PERSIST (if persist then 1 else 0)).set Reg.FRAME_LOAD_STAT_OVERRUN 1) := by
  obtain ⟨hbusy, -⟩ := persist_keeps_load s (if persist then 1 else 0)
  show execFrameLoad persist s = _
  simp only [execFrameLoad, cxlIo_of_hubUp hup, hbusy, h, if_true]

variable (hbusy : s.get Reg.FRAME_LOAD_STAT_BUSY = 0)
include hbusy

theorem frameLoad_of_failed_read {e : Nat}
    (hread : (s.set Reg.FRAME_LOAD_CTRL_PERSIST (if persist then 1 else 0)).readImage (64 * s.get Reg.FRAME_LOAD_ADDR_ADDR) =
      (v, .error e)) : exec (.frameLoad persist) s = .next (v.frameEnd e 0xFF 0) := by
  obtain ⟨keeps_busy, keeps_addr⟩ := persist_keeps_load s (if persist then 1 else 0)
  show execFrameLoad persist s = _
  simp only [execFrameLoad, cxlIo_of_hubUp hup, keeps_busy, hbusy, Nat.zero_ne_one, if_false, keeps_addr, hread]

variable (hread : (s.set Reg.FRAME_LOAD_CTRL_PERSIST (if persist then 1 else 0)).readImage
  (64 * s.get Reg.FRAME_LOAD_ADDR_ADDR) = (v, .ok b))
include hread

theorem frameLoad_of_refused_container {e : LoadErr} (hcont : v.checkContainer b 1 v.isOperator = some e) :
    exec (.frameLoad persist) s = .next (v.frameEnd e.code e.sect e.entry) := by
  obtain ⟨keeps_busy, keeps_addr⟩ := persist_keeps_load s (if persist then 1 else 0)
  show execFrameLoad persist s = _
  simp only [execFrameLoad, cxlIo_of_hubUp hup, keeps_busy, hbusy, Nat.zero_ne_one, if_false, keeps_addr, hread, hcont]

variable (hcont : v.checkContainer b 1 v.isOperator = none)
include hcont

theorem frameLoad_of_refused_frame {e : LoadErr} (hcheck : v.frameCheck b persist = some e) :
    exec (.frameLoad persist) s = .next (v.frameEnd e.code e.sect e.entry) := by
  obtain ⟨keeps_busy, keeps_addr⟩ := persist_keeps_load s (if persist then 1 else 0)
  rw [State.frameCheck] at hcheck
  show execFrameLoad persist s = _
  simp only [execFrameLoad, cxlIo_of_hubUp hup, keeps_busy, hbusy, Nat.zero_ne_one, if_false, keeps_addr, hread, hcont, hcheck]

theorem frameLoad_of_accepted (hcheck : v.frameCheck b persist = none) :
    exec (.frameLoad persist) s =
      let late : Bool := (v.frameChanges (frameOf b)).1 || (v.frameChanges (frameOf b)).2
      .next (if late then v.frameTaken b persist late else (v.frameTaken b persist late).changeFrame (frameOf b)) := by
  obtain ⟨keeps_busy, keeps_addr⟩ := persist_keeps_load s (if persist then 1 else 0)
  rw [State.frameCheck] at hcheck
  show execFrameLoad persist s = _
  simp only [execFrameLoad, cxlIo_of_hubUp hup, keeps_busy, hbusy, Nat.zero_ne_one, if_false, keeps_addr, hread, hcont, hcheck,
    State.frameTaken]

end

/-! ## FRAME_LOAD_COMPLETE (R81) -/

theorem frameLoadComplete_of_waiting {s : State}
    (h : s.get Reg.FRAME_LOAD_STAT_BUSY = 0 ∨ s.flooding 32 = true ∨ ∃ p < 32, (s.part p).eclipse = true) :
    exec .frameLoadComplete s = .next s := by
  have waits : (s.get Reg.FRAME_LOAD_STAT_BUSY = 0 || s.flooding 32 || (List.range 32).any fun p => (s.part p).eclipse) = true := by
    simpa [or_assoc] using h
  show execFrameLoadComplete s = _
  rw [execFrameLoadComplete, if_pos waits]

/-- The clusters of a frame that were DARK wake, and its gates have their programs. -/
def State.frameWoken (s : State) : State :=
  let woken := s.wake ((s.frame.parts.flatMap PartRect.clusters).filter fun c => s.cluster c = 3)
  woken.frame.gates.foldl (fun s g => s.loadGateProgram g.2) woken

theorem powerOnly_frameWoken {s : State} (h : s.frame.onGrid) : PowerOnly s s.frameWoken := by
  have woken : PowerOnly s (s.wake ((s.frame.parts.flatMap PartRect.clusters).filter fun c => s.cluster c = 3)) :=
    PowerOnly.wake s fun c hc => by
      obtain ⟨r, hr, hcr⟩ := List.mem_flatMap.1 (List.mem_filter.1 hc).1
      exact h r hr c hcr
  refine woken.trans ?_
  exact PowerOnly.foldl _ fun t g _ => powerOnly_loadGateProgram t g.2

theorem frameLoadComplete_of_ready {s : State} (hbusy : s.get Reg.FRAME_LOAD_STAT_BUSY = 1) (hflood : s.flooding 32 = false)
    (heclipse : ∀ p < 32, (s.part p).eclipse = false) : exec .frameLoadComplete s =
      .next ((List.range 32).foldl (fun s p => s.darkUnbound p) (s.frameWoken.frameEnd 0 0 0)) := by
  have ready : ¬ (s.get Reg.FRAME_LOAD_STAT_BUSY = 0 || s.flooding 32 || (List.range 32).any fun p => (s.part p).eclipse) = true := by
    simpa [hbusy, hflood] using heclipse
  show execFrameLoadComplete s = _
  simp only [execFrameLoadComplete, if_neg ready, State.frameWoken]

theorem frameEnd_status (s : State) (sect entry : Nat) : (s.frameEnd 0 sect entry).get Reg.FRAME_LOAD_STAT_BUSY = 0 ∧
    (s.frameEnd 0 sect entry).get Reg.FRAME_LOAD_STAT_DONE = 1 ∧ (s.frameEnd 0 sect entry).get Reg.FRAME_LOAD_STAT_CODE = 0 := by
  simp (disch := decide) [State.frameEnd, get_set_other, Fld.width, Reg.FRAME_LOAD_STAT_DONE]

theorem frameLoadComplete_effect {s : State} (hgrid : s.frame.onGrid) (hbusy : s.get Reg.FRAME_LOAD_STAT_BUSY = 1)
    (hflood : s.flooding 32 = false) (heclipse : ∀ p < 32, (s.part p).eclipse = false) :
    ∃ u, exec .frameLoadComplete s = .next u ∧ u.get Reg.FRAME_LOAD_STAT_BUSY = 0 ∧ u.get Reg.FRAME_LOAD_STAT_DONE = 1 ∧
      u.get Reg.FRAME_LOAD_STAT_CODE = 0 ∧ u.parts = s.parts ∧ u.mem = s.mem := by
  have woken := powerOnly_frameWoken hgrid
  obtain ⟨busy, done, code⟩ := frameEnd_status s.frameWoken 0 0
  have ended_frame : (s.frameWoken.frameEnd 0 0 0).frame = s.frame := by simp only [State.frameEnd, set_frame, woken.frame]
  have ended_parts : (s.frameWoken.frameEnd 0 0 0).parts = s.parts := by simp only [State.frameEnd, set_parts, woken.parts]
  have ended_mem : (s.frameWoken.frameEnd 0 0 0).mem = s.mem := by simp only [State.frameEnd, set_mem, woken.mem]
  have darkened : PowerOnly (s.frameWoken.frameEnd 0 0 0)
      ((List.range 32).foldl (fun s p => s.darkUnbound p) (s.frameWoken.frameEnd 0 0 0)) :=
    List.foldlRecOn (motive := PowerOnly _) _ _ (PowerOnly.refl _) fun t ht p _ =>
      ht.trans (powerOnly_darkUnbound (by rwa [ht.frame, ended_frame]) p)
  exact ⟨_, frameLoadComplete_of_ready hbusy hflood heclipse, (darkened.get _ (by decide)).trans busy,
    (darkened.get _ (by decide)).trans done, (darkened.get _ (by decide)).trans code, darkened.parts.trans ended_parts,
    darkened.mem.trans ended_mem⟩

/-! ## A frame comes into force (03_configuration_images.md R81) -/

/-- The frame in force, the modes of the ports and the states of the peer entries. -/
def State.attached (s : State) : FrameImage × (PortIx → Nat) × (Fin 256 → Nat) :=
  (s.frame, fun q => s.portMode q, fun n => s.peerState n)

/-- Has the copy of a field no part in the ports' modes and the peer entries' states: its low bit is not theirs, or it lies below the
peer entries, between them and the ports, or above the ports? -/
def Fld.unattached (f : Fld) (i j : Nat) : Bool :=
  let row := f.base + f.s1 * i + f.s2 * j
  f.lo < 64 && (f.lo ≠ 0 || row < 0x28000 || (0x2C000 ≤ row && row < 0x900008) || 0x9F0008 < row)

theorem unattached_key {f : Fld} {i j : Nat} (h : f.unattached i j = true) :
    (∀ q : PortIx, Reg.PORT_STAT_MODE.key q 0 ≠ f.key i j) ∧ ∀ n : Fin 256, Reg.PEER_ENTRY_STATE.key n 0 ≠ f.key i j := by
  simp only [Fld.unattached, Bool.and_eq_true, Bool.or_eq_true, decide_eq_true_eq] at h
  constructor <;> intro k <;> simp only [Fld.key, Reg.PORT_STAT_MODE, Reg.PEER_ENTRY_STATE] <;> omega

theorem attached_setF {f : Fld} {i j : Nat} (h : f.unattached i j = true) (s : State) (v : Nat) :
    (s.setF f i j v).attached = s.attached := by
  obtain ⟨modes, states⟩ := unattached_key h
  simp only [State.attached, State.portMode, State.peerState, setF_frame, getF_setF_other _ _ _ _ _ _ _ _ (modes _),
    getF_setF_other _ _ _ _ _ _ _ _ (states _)]

theorem attached_set {f : Fld} (h : f.unattached 0 0 = true) (s : State) (v : Nat) : (s.set f v).attached = s.attached :=
  attached_setF h s v

theorem PowerOnly.attached {s u : State} (h : PowerOnly s u) : u.attached = s.attached := by
  have modes (q : PortIx) : u.portMode q = s.portMode q :=
    h.getF _ _ _ (by simp only [Fld.key, Reg.PORT_STAT_MODE]; omega)
  have states (n : Fin 256) : u.peerState n = s.peerState n :=
    h.getF _ _ _ (by simp only [Fld.key, Reg.PEER_ENTRY_STATE]; omega)
  simp only [State.attached, h.frame, modes, states]

theorem attached_showFlood (s : State) (c : Nat) : (s.showFlood c).attached = s.attached := by
  have shown (f : Fld) (hf : f ∈ [Reg.FLOOD_STAT_BUSY, Reg.FLOOD_STAT_MODE, Reg.FLOOD_STAT_REMAIN_MIB,
      Reg.MC_STAT_GLIMMER_ACTIVE]) (t : State) (v : Nat) : (t.setF f c 0 v).attached = t.attached := by
    refine attached_setF ?_ t v
    have above : (f.lo ≠ 0 ∨ 0x9F0008 < f.base) ∧ f.lo < 64 := by
      revert f
      decide
    simp only [Fld.unattached, Bool.and_eq_true, Bool.or_eq_true, decide_eq_true_eq]
    omega
  have ticked (t : State) : t.tick.attached = t.attached := rfl
  unfold State.showFlood
  extract_lets l
  split
  · rw [shown _ (by simp), shown _ (by simp), shown _ (by simp)]
  · rw [ticked, shown _ (by simp), shown _ (by simp), shown _ (by simp), shown _ (by simp)]

theorem attached_startFlood (s : State) (what : Nat) (l : List Nat) : (s.startFlood what l).attached = s.attached :=
  foldl_keeps State.attached (fun _ _ _ => attached_showFlood ..) (s.updFloods fun f => f ++ l.map fun c => (c, what))

/-- The modes of the ports that a frame gives are those that they have. -/
theorem foldl_setPortMode_same {s : State} {modes : Nat → Nat} (h : ∀ q : PortIx, s.portMode q = modes q) :
    (List.range 16).foldl (fun s q => s.setPortMode q (modes q)) s = s := by
  refine List.foldlRecOn (motive := fun t => t = s) _ _ rfl fun t ht q hq => ?_
  rw [ht, State.setPortMode, if_pos (h ⟨q, List.mem_range.1 hq⟩)]

theorem attached_showFrame {s : State} {f : FrameImage} (h : ∀ q : PortIx, s.portMode q = f.portModes.getD q 0) (start : Bool) :
    (s.showFrame f start).attached = s.attached := by
  have part_cfg {g : Fld} (hg : g ∈ [Reg.PART_CFG_DEFINED, Reg.PART_CFG_GATE, Reg.PART_CFG_CX0, Reg.PART_CFG_CX1, Reg.PART_CFG_CY0,
      Reg.PART_CFG_CY1, Reg.PART_CFG_GATE_ID]) {p : Nat} (hp : p < 32) (t : State) (v : Nat) :
      (t.setF g p 0 v).attached = t.attached := by
    refine attached_setF ?_ t v
    have place : g.base = 0x100000 ∧ g.s1 = 0x1000 ∧ g.lo < 64 := by
      revert g
      decide
    simp only [Fld.unattached, Bool.and_eq_true, Bool.or_eq_true, decide_eq_true_eq, place, true_and]
    omega
  have placed (g : Nat) : Reg.GATE_g_STAT_PLACED.unattached g 0 = true := by
    simp [Fld.unattached, Reg.GATE_g_STAT_PLACED]
  unfold State.showFrame
  extract_lets rects gates ports
  have rects_keeps : rects.attached = s.attached := by
    refine foldl_keeps State.attached (fun t p hp => ?_) s
    have hp := List.mem_range.1 hp
    dsimp only
    rw [part_cfg (by simp) hp, part_cfg (by simp) hp, part_cfg (by simp) hp, part_cfg (by simp) hp, part_cfg (by simp) hp,
      part_cfg (by simp) hp, part_cfg (by simp) hp]
  have gates_keeps : gates.attached = s.attached :=
    (foldl_keeps State.attached (fun t g _ => attached_setF (placed g) t _) rects).trans rects_keeps
  have ports_same : ports = gates := foldl_setPortMode_same fun q => by
    rw [← h q]
    exact congrFun (congrArg (·.2.1) gates_keeps) q
  rw [attached_set (by decide), attached_set (by decide), attached_set (by decide), attached_set (by decide),
    attached_set (by decide), ports_same, gates_keeps]

theorem drainPeers_of_none_open {s : State} (h : ∀ n : Fin 256, s.peerState n ≠ 2) (f : FrameImage) : s.drainPeers f = s := by
  have none_open : ((List.range 256).filter fun n => s.peerState n = 2 && !f.admits (s.session n).ident) = [] :=
    List.filter_eq_nil_iff.2 fun n hn => by simp [h ⟨n, List.mem_range.1 hn⟩]
  rw [State.drainPeers, none_open, List.foldl_nil]

theorem setPeerState_frame (s : State) (n v : Nat) : (s.setPeerState n v).frame = s.frame := by
  simp only [State.setPeerState, set_frame, setF_frame]

theorem updPort_frame (s : State) (p : Nat) (f : PortSt → PortSt) : (s.updPort p f).frame = s.frame := rfl

theorem updSession_frame (s : State) (n : Nat) (f : Session → Session) : (s.updSession n f).frame = s.frame := rfl

theorem portCount_frame (s : State) (f : Fld) (p n : Nat) : (s.portCount f p n).frame = s.frame := by
  unfold State.portCount
  split <;> rfl

theorem sendSealed_frame (s : State) (p kind map : Nat) (flits : Bytes) (msgs : List (Nat × Nat × Nat)) :
    (s.sendSealed p kind map flits msgs).frame = s.frame := by
  unfold State.sendSealed
  split
  · rfl
  · rw [updPort_frame, portCount_frame, State.sentGroup, updPort_frame, emit_frame]

theorem freeSetup_frame (s : State) (p : Nat) : (s.freeSetup p).frame = s.frame := by
  unfold State.freeSetup
  split
  · rw [updPort_frame]
    split
    · rw [updSession_frame, setPeerState_frame]
    · rfl
  · rfl

theorem endSetup_frame (s : State) (p : Nat) : (s.endSetup p).frame = s.frame := by
  rw [State.endSetup, updPort_frame, freeSetup_frame]

theorem drainSetups_frame (s : State) (f : FrameImage) : (s.drainSetups f).frame = s.frame := by
  refine foldl_keeps State.frame (fun t p _ => ?_) s
  dsimp only
  split
  · split
    · rfl
    · rw [State.setPortState, setF_frame, endSetup_frame, updSession_frame, setPeerState_frame]
      split
      · exact sendSealed_frame ..
      · rfl
  · rfl

theorem initShares_attached (s : State) (space : Nat) (l : List Nat) : (s.initShares space l).attached = s.attached := by
  unfold State.initShares
  rfl

/-- A frame that finds no rectangles, leaves the ports' modes and finds no open peer comes into force. -/
theorem changeFrame_frame {s : State} {f : FrameImage} (hparts : s.frame.parts = []) (hpeers : ∀ n : Fin 256, s.peerState n ≠ 2)
    (hmodes : ∀ q : PortIx, s.portMode q = f.portModes.getD q 0) : (s.changeFrame f).frame = f := by
  unfold State.changeFrame
  extract_lets old changed zeroed released taken shown flooded dark
  have zeroed_keeps : zeroed.attached = s.attached := foldl_keeps State.attached (fun _ _ _ => initShares_attached ..) s
  have released_same : released = zeroed := by
    unfold released
    rw [hparts, List.foldl_nil]
  have taken_keeps : taken.attached = (f, s.attached.2) := by
    rw [← zeroed_keeps, ← released_same]
    rfl
  have shown_keeps : shown.attached = taken.attached := by
    refine attached_showFrame (fun q => ?_) false
    rw [← hmodes q]
    exact congrFun (congrArg (·.2.1) taken_keeps) q
  have dark_keeps : dark.attached = (f, s.attached.2) := by
    have flooded_keeps : flooded.attached = shown.attached := attached_startFlood ..
    have powered : PowerOnly flooded dark := PowerOnly.darken _ fun c hc => List.mem_range.1 (List.mem_filter.1 hc).1
    rw [powered.attached, flooded_keeps, shown_keeps, taken_keeps]
  have none_open (n : Fin 256) : dark.peerState n ≠ 2 := by
    rw [show dark.peerState n = s.peerState n from congrFun (congrArg (·.2.2) dark_keeps) n]
    exact hpeers n
  rw [drainSetups_frame, drainPeers_of_none_open none_open]
  exact congrArg (·.1) dark_keeps

end Sys2Proof.Machine
end

section
/-!
PROOFS. Loads, UNLOAD, Eclipse, and the resets of partitions and tiles (03_configuration_images.md R77 to R82;
13_tenants_and_joint_training.md R314; 16_reliability_and_integrity.md R400; 18_power_clocks_and_reset.md R441).
-/

namespace Sys2Proof.Machine

/-! ## The end of a load that took effect -/

theorem loadEnd_part (s : State) (p code sect entry q : Nat) : (s.loadEnd p code sect entry).part q = s.part q := by
  simp only [State.loadEnd, setF_part]

theorem shownImage_loadEnd (s : State) (p code sect entry : Nat) : (s.loadEnd p code sect entry).shownImage p = s.shownImage p := by
  have apart : ∀ f ∈ [Reg.JOB_LOAD_STAT_BUSY, Reg.JOB_LOAD_STAT_DONE, Reg.JOB_LOAD_STAT_CODE, Reg.JOB_LOAD_STAT_SECTION,
      Reg.JOB_LOAD_STAT_ENTRY], ∀ (t : State) (v : Nat), (t.setF f p 0 v).shownImage p = t.shownImage p := by
    intro f hf t v
    have hkeys : Reg.JOB_LOAD_STAT_LOADED.key p 0 ≠ f.key p 0 ∧ Reg.JOB_SERIAL_SERIAL.key p 0 ≠ f.key p 0 := by
      have hfld : f.ofLoads = true ∧ f.lo ≠ 3 := by
        revert f
        decide
      obtain ⟨hbase, hstride, hlo⟩ := Fld.ofLoads_iff.1 hfld.1
      have := hfld.2
      simp only [Fld.key, hbase, hstride, Reg.JOB_LOAD_STAT_LOADED, Reg.JOB_SERIAL_SERIAL, Reg.JOB_LOAD_STAT_BUSY]
      omega
    simp only [State.shownImage, getF_setF_other _ _ _ _ _ _ _ _ hkeys.1, getF_setF_other _ _ _ _ _ _ _ _ hkeys.2]
  simp only [List.forall_mem_cons] at apart
  obtain ⟨hbusy, hdone, hcode, hsect, hentry, -⟩ := apart
  rw [State.loadEnd, hentry, hsect, hcode, hdone, hbusy]

/-- What a load of an accepted image onto sound clusters shows. -/
theorem jobLoadComplete_of_sound_effect {s : State} {p : PartIx} {j : JobImage} {c o : Nat} (h : (s.part p).busy = .loading j c o)
    (hsound : (s.partClusters p).any s.clusterFailed = false) :
    ∃ u, exec (.jobLoadComplete p) s = .next u ∧ LoadEnded u p 0 0 0 ∧ (u.part p).loaded = true ∧ (u.part p).image = j ∧
      (u.part p).ctx = c ∧ (u.part p).owner = o ∧ (u.part p).scheds = j.scheds ∧ (u.part p).busy = .idle ∧
      u.getF Reg.JOB_LOAD_STAT_LOADED p 0 = 1 ∧ u.getF Reg.JOB_SERIAL_SERIAL p 0 = j.serial % 2 ^ 64 := by
  obtain ⟨core, shown⟩ := install_effect s p j c o
  rw [← loadEnd_part _ p 0 0 0] at core
  rw [← shownImage_loadEnd _ p 0 0 0] at shown
  simp only [Part.core, Prod.mk.injEq] at core
  simp only [State.shownImage, Prod.mk.injEq] at shown
  obtain ⟨busy, loaded, image, ctx, owner, scheds⟩ := core
  exact ⟨_, jobLoadComplete_of_sound_clusters h hsound, loadEnded_loadEnd .., loaded, image, ctx, owner, scheds, busy, shown⟩

/-- What an end of an UNLOAD without a release leaves beside its registers. -/
theorem loadEnd_keeps (s : State) (p code sect entry : Nat) :
    (s.loadEnd p code sect entry).parts = s.parts ∧ (s.loadEnd p code sect entry).mem = s.mem := by
  simp only [State.loadEnd, setF_parts, setF_mem, and_self]

/-- Settles O56: each command's effect is the one its lemma states. What an install, a release, an Eclipse's end and a frame's change
touch is bounded once for each of their steps, so that the claimed fields stand at the end of the run. -/
theorem loadsUnloadsAndResets : Obligations.LoadsUnloadsAndResets := by
  unfold Obligations.LoadsUnloadsAndResets
  intro s hgrid
  refine ⟨fun p => ⟨?busy, ?load, ?refused, ?loading, ?noLoad, ?unload, ?eclipse, ?floodlight, ?reset⟩,
    fun mask hup hframe => partReset_of_frameLoad hup hframe mask, fun t hup => ?tile, fun hup persist => ⟨?frameBusy, ?frame⟩,
    fun f hparts hpeers hmodes => changeFrame_frame hparts (fun n => hpeers n n.isLt) fun q => hmodes q q.isLt,
    frameLoadComplete_of_waiting, frameLoadComplete_effect hgrid⟩
  case busy => exact busy_overrun
  case load =>
    intro hup hbusy
    refine ⟨fun v e hread => jobLoad_of_failed_read hup hbusy hread, fun v w b o err hread hcheck => ?_⟩
    cases err with
    | some e => exact jobLoad_of_refused hup hbusy hread hcheck
    | none => exact jobLoad_of_accepted hup hbusy hread hcheck
  case refused => exact fun code sect entry h => ⟨_, jobLoadComplete_of_refused h, refuseLoad_effect ..⟩
  case loading =>
    intro j c o h
    exact ⟨fun hfailed => ⟨_, jobLoadComplete_of_failed_cluster h hfailed, refuseLoad_effect ..⟩,
      fun hsound => jobLoadComplete_of_sound_effect h hsound⟩
  case noLoad => exact jobLoadComplete_of_no_load
  case unload =>
    intro hup hbusy
    refine ⟨fun hloaded => ?_, fun hloaded hctx => ?_, unload_of_idle_context hup hbusy hgrid⟩
    · exact ⟨_, unload_of_no_image hup hbusy hloaded, loadEnded_loadEnd .., (loadEnd_keeps ..).1⟩
    · exact ⟨_, unload_of_busy_context hup hbusy hloaded hctx, loadEnded_loadEnd .., loadEnd_keeps ..⟩
  case eclipse =>
    intro cycles
    refine ⟨eclipseComplete_of_no_eclipse s p cycles, fun h => ?_⟩
    obtain ⟨u, run, stopped, count, last_cycles, last_part, waits, ends⟩ := eclipseComplete_effect s p cycles hgrid h
    exact ⟨u, run, stopped, count, last_cycles, last_part, waits, fun hb hf => (ends hf).unload hb, fun hb hf => (ends hf).reset hb⟩
  case floodlight =>
    intro c hfloods he
    obtain ⟨u, run, none_left, shown, ends⟩ := floodlightComplete_effect hfloods hgrid he
    exact ⟨u, run, none_left, shown, ends.unload, ends.reset⟩
  case reset => exact fun hup hframe hrect => partReset_effect hup hframe hrect
  case tile =>
    obtain ⟨u, run, index, others, none_there, denied, started⟩ := tileReset_effect hup t
    refine ⟨u, run, index, others, none_there, denied, fun ht hstart => ?_⟩
    obtain ⟨y, restarted, program, still⟩ := started ht hstart
    simp only [Tile.program, Prod.mk.injEq] at program
    obtain ⟨imem, entry, coded⟩ := program
    rw [restarted]
    refine ⟨entry, entry, congrArg (!·) coded, rfl, rfl, rfl, rfl, imem, rfl, rfl, rfl, fun idle => ?_⟩
    rw [still idle]
    exact ⟨rfl, rfl, rfl⟩
  case frameBusy => exact frameLoad_of_busy hup
  case frame =>
    intro hbusy
    refine ⟨fun v e hread => frameLoad_of_failed_read hup hbusy hread, fun v b hread => ⟨fun e hcont => ?_, fun e hcont hcheck => ?_,
      fun hcont hcheck => ?_⟩⟩
    · exact frameLoad_of_refused_container hup hbusy hread hcont
    · exact frameLoad_of_refused_frame hup hbusy hread hcont hcheck
    · obtain ⟨busy, frame, parts, mem, stored, plain⟩ :=
        frameTaken_effect v b persist ((v.frameChanges (frameOf b)).1 || (v.frameChanges (frameOf b)).2)
      exact ⟨_, busy, frame, parts, mem, stored, plain, frameLoad_of_accepted hup hbusy hread hcont hcheck⟩

end Sys2Proof.Machine
end

section
/-!
PROOFS. The 32-bit words of the tile core (04_tile_core.md R89 to R91): a word is its fields, so decoding a built word gives its
instruction back, and building a decoded instruction gives the word back.
-/

namespace Sys2Proof.Machine

/-! ## Fields of a number -/

/-- A field lies in the bits below its top. -/
theorem bitsOf_eq_mod_div {hi lo : Nat} (h : lo ≤ hi + 1) (x : Nat) : bitsOf x hi lo = x % 2 ^ (hi + 1) / 2 ^ lo := by
  rw [bitsOf, ← Nat.mod_mul_right_div_self, ← pow_add, Nat.add_sub_cancel' h]

/-- What stands above a field does not count for it. -/
theorem bitsOf_mul_add {hi lo n : Nat} (h : lo ≤ hi + 1) (hn : hi + 1 ≤ n) (k x : Nat) :
    bitsOf (k * 2 ^ n + x) hi lo = bitsOf x hi lo := by
  obtain ⟨m, rfl⟩ := Nat.exists_eq_add_of_le hn
  rw [bitsOf_eq_mod_div h, bitsOf_eq_mod_div h, pow_add, mul_comm (2 ^ (hi + 1)), ← mul_assoc, Nat.mul_add_mod_self_right]

/-! ## The fields of a built word -/

section
variable {op low : Nat} (gd : Guard)

theorem toNat_tileWord (hop : op < 64) (hlow : low < 2 ^ 22) :
    (tileWord op gd low).toNat = op * 2 ^ 26 + gd.pg.val * 2 ^ 23 + (if gd.pn then 2 ^ 22 else 0) + low := by
  have := gd.pg.isLt
  rw [tileWord, BitVec.toNat_ofNat, Nat.mod_eq_of_lt]
  split <;> omega

theorem op_tileWord (hop : op < 64) (hlow : low < 2 ^ 22) : fld (tileWord op gd low) 31 26 = op := by
  have := gd.pg.isLt
  rw [fld, toNat_tileWord gd hop hlow, bitsOf]
  split <;> omega

theorem guardF_tileWord (hop : op < 64) (hlow : low < 2 ^ 22) : guardF (tileWord op gd low) = gd := by
  obtain ⟨⟨pg, hpg⟩, pn⟩ := gd
  have hpg_field : fld (tileWord op ⟨⟨pg, hpg⟩, pn⟩ low) 25 23 = pg := by
    rw [fld, toNat_tileWord _ hop hlow, bitsOf]
    dsimp only
    split <;> omega
  have hpn_field : bit (tileWord op ⟨⟨pg, hpg⟩, pn⟩ low).toNat 22 = pn := by
    rw [bit, toNat_tileWord _ hop hlow]
    cases pn <;> simp only [Bool.false_eq_true, if_true, if_false, decide_eq_true_eq, decide_eq_false_iff_not] <;> omega
  simp only [guardF, predF, hpg_field, hpn_field, Fin.ofNat, Nat.mod_eq_of_lt hpg]

/-- A field below the guard is a field of what stands there. -/
theorem fld_tileWord (hop : op < 64) (hlow : low < 2 ^ 22) {hi lo : Nat} (h : lo ≤ hi + 1) (hhi : hi < 22) :
    fld (tileWord op gd low) hi lo = bitsOf low hi lo := by
  have above : (tileWord op gd low).toNat = (op * 2 ^ 4 + gd.pg.val * 2 + if gd.pn then 1 else 0) * 2 ^ 22 + low := by
    rw [toNat_tileWord gd hop hlow]
    split <;> omega
  rw [fld, above, bitsOf_mul_add h hhi]

end

/-! ## The fields of a built word, format by format -/

section
variable (gd : Guard) (rd a b : GReg)

theorem fields_wordR {fn : Nat} (hfn : fn < 2 ^ 7) : fld (wordR fn gd rd a b) 31 26 = 0x01 ∧ guardF (wordR fn gd rd a b) = gd ∧
    regF (wordR fn gd rd a b) 17 = rd ∧ regF (wordR fn gd rd a b) 12 = a ∧ regF (wordR fn gd rd a b) 7 = b ∧
    fld (wordR fn gd rd a b) 6 0 = fn := by
  have low_fits : rd.val * 2 ^ 17 + a.val * 2 ^ 12 + b.val * 2 ^ 7 + fn < 2 ^ 22 := by omega
  refine ⟨op_tileWord gd (by decide) low_fits, guardF_tileWord gd (by decide) low_fits, ?_⟩
  simp only [regF, wordR, fld_tileWord gd (show 0x01 < 64 by decide) low_fits, Nat.reduceLeDiff, Nat.reduceLT, Nat.reduceAdd, bitsOf,
    Fin.ext_iff, Fin.val_ofNat]
  omega

theorem fields_wordI {op imm : Nat} (hop : op < 64) (himm : imm < 2 ^ 12) : fld (wordI op gd rd a imm) 31 26 = op ∧
    guardF (wordI op gd rd a imm) = gd ∧ regF (wordI op gd rd a imm) 17 = rd ∧ regF (wordI op gd rd a imm) 12 = a ∧
    ∀ hi lo, hi < 12 → lo ≤ hi → fld (wordI op gd rd a imm) hi lo = bitsOf imm hi lo := by
  have low_fits : rd.val * 2 ^ 17 + a.val * 2 ^ 12 + imm < 2 ^ 22 := by omega
  have fields {hi lo : Nat} := fld_tileWord gd hop low_fits (hi := hi) (lo := lo)
  refine ⟨op_tileWord gd hop low_fits, guardF_tileWord gd hop low_fits, ?_, ?_, fun hi lo hhi hlo => ?_⟩
  · simp only [regF, wordI, fields, Nat.reduceLeDiff, Nat.reduceLT, Nat.reduceAdd, bitsOf, Fin.ext_iff, Fin.val_ofNat]
    omega
  · simp only [regF, wordI, fields, Nat.reduceLeDiff, Nat.reduceLT, Nat.reduceAdd, bitsOf, Fin.ext_iff, Fin.val_ofNat]
    omega
  · rw [wordI, fields (by omega) (by omega), show rd.val * 2 ^ 17 + a.val * 2 ^ 12 + imm =
      (rd.val * 2 ^ 5 + a.val) * 2 ^ 12 + imm by omega, bitsOf_mul_add (by omega) hhi]

theorem bit_eq_bitsOf (x i : Nat) : bit x i = decide (bitsOf x i i = 1) := by
  rw [bit, bitsOf, Nat.add_sub_cancel_left, pow_one]

theorem fields_wordC {op n pd : Nat} (hop : op < 64) (hn : n < 16) (hpd : pd < 8) (ch : Fin 64) (nb : Bool) :
    let w := wordC op gd rd ch n pd nb
    fld w 31 26 = op ∧ guardF w = gd ∧ regF w 17 = rd ∧ fld w 16 11 = ch.val ∧ fld w 10 7 = n ∧ predF w 4 = ⟨pd, hpd⟩ ∧
      bit w.toNat 3 = nb ∧ fld w 2 0 = 0 ∧ fld w 10 0 = n * 2 ^ 7 + pd * 2 ^ 4 + nb.toNat * 2 ^ 3 := by
  have hnb : (if nb then 2 ^ 3 else 0) = nb.toNat * 2 ^ 3 := by cases nb <;> rfl
  have := nb.toNat_lt
  have low_fits : rd.val * 2 ^ 17 + ch.val * 2 ^ 11 + n * 2 ^ 7 + pd * 2 ^ 4 + nb.toNat * 2 ^ 3 < 2 ^ 22 := by omega
  have fields {hi lo : Nat} := fld_tileWord gd hop low_fits (hi := hi) (lo := lo)
  rw [wordC, hnb]
  refine ⟨op_tileWord gd hop low_fits, guardF_tileWord gd hop low_fits, ?_, ?_, ?_, ?_, ?_, ?_⟩
  case refine_5 =>
    rw [bit_eq_bitsOf, ← fld, fields (by decide) (by decide), bitsOf, Bool.eq_iff_iff, decide_eq_true_iff,
      ← Bool.toNat_eq_one]
    omega
  all_goals
    simp only [regF, predF, fields, Nat.reduceLeDiff, Nat.reduceLT, Nat.reduceAdd, bitsOf, Fin.ext_iff, Fin.val_ofNat]
    omega

theorem fields_wordE {op ek pd : Nat} (hop : op < 64) (hek : ek < 16) (hpd : pd < 8) :
    let w := wordE op gd rd a ek pd
    fld w 31 26 = op ∧ guardF w = gd ∧ regF w 17 = rd ∧ regF w 12 = a ∧ fld w 11 8 = ek ∧ predF w 5 = ⟨pd, hpd⟩ ∧
      fld w 4 0 = 0 ∧ fld w 7 0 = pd * 2 ^ 5 ∧ fld w 11 0 = ek * 2 ^ 8 + pd * 2 ^ 5 := by
  have low_fits : rd.val * 2 ^ 17 + a.val * 2 ^ 12 + ek * 2 ^ 8 + pd * 2 ^ 5 < 2 ^ 22 := by omega
  refine ⟨op_tileWord gd hop low_fits, guardF_tileWord gd hop low_fits, ?_⟩
  simp only [regF, predF, wordE, fld_tileWord gd hop low_fits, Nat.reduceLeDiff, Nat.reduceLT, Nat.reduceAdd, bitsOf, Fin.ext_iff,
    Fin.val_ofNat]
  omega

theorem fields_wordU {op : Nat} (hop : op < 64) (hw : Fin 4) (imm : BitVec 16) :
    let w := wordU op rd hw imm
    fld w 31 26 = op ∧ regF w 21 = rd ∧ fld w 20 19 = hw.val ∧ fld w 18 3 = imm.toNat ∧ fld w 2 0 = 0 := by
  have := imm.isLt
  simp only [regF, fld, wordU, BitVec.toNat_ofNat, bitsOf, Fin.ext_iff, Fin.val_ofNat]
  omega

section
variable {op : Nat} (hop : op < 64) (pd c : Fin 8)
include hop

theorem fields_word_cmp (b : GReg) :
    let w := tileWord op gd (pd.val * 2 ^ 19 + c.val * 2 ^ 16 + a.val * 2 ^ 11 + b.val * 2 ^ 6)
    fld w 31 26 = op ∧ guardF w = gd ∧ predF w 19 = pd ∧ predF w 16 = c ∧ regF w 11 = a ∧ regF w 6 = b ∧ fld w 5 0 = 0 := by
  have low_fits : pd.val * 2 ^ 19 + c.val * 2 ^ 16 + a.val * 2 ^ 11 + b.val * 2 ^ 6 < 2 ^ 22 := by omega
  refine ⟨op_tileWord gd hop low_fits, guardF_tileWord gd hop low_fits, ?_⟩
  simp only [regF, predF, fld_tileWord gd hop low_fits, Nat.reduceLeDiff, Nat.reduceLT, Nat.reduceAdd, bitsOf, Fin.ext_iff,
    Fin.val_ofNat]
  omega

theorem fields_word_cmpi (imm : BitVec 11) :
    let w := tileWord op gd (pd.val * 2 ^ 19 + c.val * 2 ^ 16 + a.val * 2 ^ 11 + imm.toNat)
    fld w 31 26 = op ∧ guardF w = gd ∧ predF w 19 = pd ∧ predF w 16 = c ∧ regF w 11 = a ∧ fld w 10 0 = imm.toNat := by
  have := imm.isLt
  have low_fits : pd.val * 2 ^ 19 + c.val * 2 ^ 16 + a.val * 2 ^ 11 + imm.toNat < 2 ^ 22 := by omega
  refine ⟨op_tileWord gd hop low_fits, guardF_tileWord gd hop low_fits, ?_⟩
  simp only [regF, predF, fld_tileWord gd hop low_fits, Nat.reduceLeDiff, Nat.reduceLT, Nat.reduceAdd, bitsOf, Fin.ext_iff,
    Fin.val_ofNat]
  omega

theorem fields_word_plog (pb : Fin 8) (fn : Fin 4) :
    let w := tileWord op gd (pd.val * 2 ^ 19 + c.val * 2 ^ 16 + pb.val * 2 ^ 13 + fn.val * 2 ^ 11)
    fld w 31 26 = op ∧ guardF w = gd ∧ predF w 19 = pd ∧ predF w 16 = c ∧ predF w 13 = pb ∧ fld w 12 11 = fn.val ∧
      fld w 10 0 = 0 := by
  have low_fits : pd.val * 2 ^ 19 + c.val * 2 ^ 16 + pb.val * 2 ^ 13 + fn.val * 2 ^ 11 < 2 ^ 22 := by omega
  refine ⟨op_tileWord gd hop low_fits, guardF_tileWord gd hop low_fits, ?_⟩
  simp only [predF, fld_tileWord gd hop low_fits, Nat.reduceLeDiff, Nat.reduceLT, Nat.reduceAdd, bitsOf, Fin.ext_iff, Fin.val_ofNat]
  omega

end

theorem fields_wordJ {op : Nat} (hop : op < 64) (tgt : Fin 32768) :
    let w := tileWord op gd tgt.val
    fld w 31 26 = op ∧ guardF w = gd ∧ fld w 21 15 = 0 ∧ fld w 14 0 = tgt.val := by
  have low_fits : tgt.val < 2 ^ 22 := by omega
  refine ⟨op_tileWord gd hop low_fits, guardF_tileWord gd hop low_fits, ?_⟩
  simp only [fld_tileWord gd hop low_fits, Nat.reduceLeDiff, Nat.reduceLT, Nat.reduceAdd, bitsOf]
  omega

end

/-! ## Which format an opcode has (04_tile_core.md R89) -/

section
variable (t : TileIx) {w : BitVec 32}

theorem not_between {op lo hi : Nat} (h : ¬ (lo ≤ op ∧ op ≤ hi)) : (decide (lo ≤ op) && decide (op ≤ hi)) = false := by
  simpa only [Bool.and_eq_false_iff, decide_eq_false_iff_not, not_and_or] using h

theorem tileDecode_formatR (h : fld w 31 26 = 0x01) : tileDecode t w = decodeR t w := if_pos h

theorem tileDecode_formatC (h : 0x1C ≤ fld w 31 26 ∧ fld w 31 26 ≤ 0x1F) : tileDecode t w = decodeC t w := by
  have := h
  simp (disch := omega) only [tileDecode, if_neg, h, decide_true, Bool.and_self, if_true]

theorem tileDecode_formatE (h : 0x24 ≤ fld w 31 26 ∧ fld w 31 26 ≤ 0x28) : tileDecode t w = decodeE t w := by
  have := h
  have not_C : ¬ (0x1C ≤ fld w 31 26 ∧ fld w 31 26 ≤ 0x1F) := by omega
  simp (disch := omega) only [tileDecode, not_between not_C, Bool.false_eq_true, if_neg, if_false, h, decide_true, Bool.and_self, if_true]

/-- The opcodes of the formats other than I. -/
def otherFormats : List Nat :=
  [0x01, 0x09, 0x0A, 0x0B, 0x0C, 0x0D, 0x18, 0x19, 0x1C, 0x1D, 0x1E, 0x1F, 0x24, 0x25, 0x26, 0x27, 0x28]

theorem tileDecode_formatI (h : fld w 31 26 ∉ otherFormats) : tileDecode t w = decodeI t w := by
  simp only [otherFormats, List.mem_cons, List.not_mem_nil, or_false, not_or] at h
  have not_C : ¬ (0x1C ≤ fld w 31 26 ∧ fld w 31 26 ≤ 0x1F) := by omega
  have not_E : ¬ (0x24 ≤ fld w 31 26 ∧ fld w 31 26 ≤ 0x28) := by omega
  simp only [tileDecode, not_between not_C, not_between not_E, Bool.false_eq_true, h, if_false]

end

/-! ## The words of the instructions decode to them -/

theorem tileDecode_of_tileEncode {i : Instr} {w : BitVec 32} (h : tileEncode i = some w) : ∃ t, tileDecode t w = i := by
  unfold tileEncode at h
  split at h
  case h_60 => cases h
  case h_45 | h_46 =>
    obtain ⟨hrange, hw⟩ := Option.ite_none_left_eq_some.1 h
    obtain rfl := Option.some.inj hw
    refine ⟨‹TileIx›, ?_⟩
    simp [tileDecode_formatC, decodeC, fields_wordC, ok, hrange]
  all_goals
    obtain rfl := Option.some.inj h
    refine ⟨‹TileIx›, ?_⟩
  case h_1 | h_2 | h_3 | h_4 | h_5 | h_6 | h_7 | h_8 | h_9 | h_10 | h_11 | h_12 | h_13 | h_14 | h_15 | h_16 | h_17 | h_18 =>
    simp [tileDecode_formatR, decodeR, fields_wordR, ok]
  case h_26 | h_27 => simp [tileDecode, fields_wordU, ok]
  case h_28 => simp [-Nat.reducePow, tileDecode, ok, fields_word_cmp]
  case h_29 => simp [-Nat.reducePow, tileDecode, fields_word_cmpi]
  case h_30 => simp [-Nat.reducePow, tileDecode, ok, fields_word_plog]
  case h_42 | h_43 => simp [tileDecode, ok, fields_wordJ]
  case h_47 | h_48 => simp [tileDecode_formatC, decodeC, fields_wordC, ok]
  case h_49 | h_50 | h_51 | h_52 | h_53 => simp [tileDecode_formatE, decodeE, fields_wordE, ok]
  case h_57 | h_59 => simp [tileDecode_formatI, otherFormats, decodeI, op_tileWord, guardF_tileWord, fld_tileWord, bitsOf, ok]
  case h_23 sh | h_24 sh | h_25 sh =>
    have fits : sh.toNat < 2 ^ 12 := sh.isLt.trans (by decide)
    have top_zero : sh.toNat / 2 ^ 6 = 0 := Nat.div_eq_of_lt sh.isLt
    simp [-Nat.reducePow, tileDecode_formatI, otherFormats, decodeI, fields_wordI, ok, fits, bitsOf, top_zero]
  case h_54 m =>
    have fits : m.toNat < 2 ^ 12 := m.isLt.trans (by decide)
    have top_zero : m.toNat / 2 ^ 3 = 0 := Nat.div_eq_of_lt m.isLt
    simp [-Nat.reducePow, tileDecode_formatI, otherFormats, decodeI, fields_wordI, ok, fits, bitsOf, top_zero]
  all_goals
    simp [-Nat.reducePow, tileDecode_formatI, otherFormats, decodeI, fields_wordI, ok, BitVec.isLt, bitsOf]

/-- Settles O6 by `tileDecode_of_tileEncode`. -/
theorem tileWordRoundTrip : Obligations.TileWordRoundTrip := fun _ _ => tileDecode_of_tileEncode

/-! ## A word is made of its fields -/

section
variable (w : BitVec 32)

theorem tileWord_fields : tileWord (fld w 31 26) (guardF w) (fld w 21 0) = w := by
  refine BitVec.eq_of_toNat_eq ?_
  have hop : fld w 31 26 < 64 := bitsOf_lt ..
  have hlow : fld w 21 0 < 2 ^ 22 := bitsOf_lt ..
  have hpg : (guardF w).pg.val = w.toNat / 2 ^ 23 % 8 := by
    simp only [guardF, predF, fld, bitsOf, Fin.val_ofNat]
    omega
  have hpn : (if (guardF w).pn then 2 ^ 22 else 0) = w.toNat / 2 ^ 22 % 2 * 2 ^ 22 := by
    simp only [guardF, bit, decide_eq_true_eq]
    split <;> omega
  have := w.isLt
  rw [toNat_tileWord _ hop hlow, hpg, hpn]
  simp only [fld, bitsOf]
  omega

/-- A word is made of its opcode, its guard and what its format puts below the guard. -/
theorem tileWord_of_low {op low : Nat} (hop : fld w 31 26 = op) (hlow : low = fld w 21 0) : tileWord op (guardF w) low = w := by
  rw [← hop, hlow, tileWord_fields]

variable {w} {op : Nat} (hop : fld w 31 26 = op)
include hop

theorem wordI_fields {imm : Nat} (himm : imm = fld w 11 0) : wordI op (guardF w) (regF w 17) (regF w 12) imm = w := by
  refine tileWord_of_low w hop ?_
  simp only [himm, regF, fld, bitsOf, Fin.val_ofNat]
  omega

theorem wordC_fields {n pd : Nat} {nb : Bool} (hlow : n * 2 ^ 7 + pd * 2 ^ 4 + nb.toNat * 2 ^ 3 = fld w 10 0) :
    wordC op (guardF w) (regF w 17) (Fin.ofNat 64 (fld w 16 11)) n pd nb = w := by
  have hnb : (if nb then 2 ^ 3 else 0) = nb.toNat * 2 ^ 3 := by cases nb <;> rfl
  refine tileWord_of_low w hop ?_
  simp only [hnb, regF, fld, bitsOf, Fin.val_ofNat] at hlow ⊢
  omega

theorem wordE_fields {ek pd : Nat} (hlow : ek * 2 ^ 8 + pd * 2 ^ 5 = fld w 11 0) :
    wordE op (guardF w) (regF w 17) (regF w 12) ek pd = w := by
  rw [wordE, add_assoc (_ + _)]
  exact wordI_fields hop hlow

theorem wordU_fields (hlow : fld w 2 0 = 0) :
    wordU op (regF w 21) (Fin.ofNat 4 (fld w 20 19)) (BitVec.ofNat 16 (fld w 18 3)) = w := by
  refine BitVec.eq_of_toNat_eq ?_
  have := w.isLt
  simp only [wordU, regF, fld, bitsOf, Fin.val_ofNat, BitVec.toNat_ofNat] at hop hlow ⊢
  omega

omit hop in
theorem wordR_fields (hop : fld w 31 26 = 0x01) : wordR (fld w 6 0) (guardF w) (regF w 17) (regF w 12) (regF w 7) = w := by
  refine tileWord_of_low w hop ?_
  simp only [regF, fld, bitsOf, Fin.val_ofNat]
  omega

end

/-! ## A decoded word is the word of its instruction -/

/-- What a word decodes to: the illegal instruction of that word, or an instruction that has this word. -/
def HasWord (t : TileIx) (w : BitVec 32) (i : Instr) : Prop := i = .illegalInstruction t (some w) ∨ tileEncode i = some w

section
variable (t : TileIx) {w : BitVec 32}

theorem hasWord_ok {c : Bool} {i : Instr} (h : c = true → tileEncode i = some w) : HasWord t w (ok t w c i) := by
  rw [ok]
  split
  case isTrue hc => exact .inr (h hc)
  case isFalse => exact .inl rfl

theorem hasWord_decodeR (hop : fld w 31 26 = 0x01) : HasWord t w (decodeR t w) := by
  have built := wordR_fields hop
  unfold decodeR
  split
  case h_19 => exact .inl rfl
  case h_17 hfn | h_18 hfn =>
    refine hasWord_ok t fun hb => congrArg some ?_
    rwa [of_decide_eq_true hb, hfn] at built
  all_goals
    rename fld w 6 0 = _ => hfn
    rw [hfn] at built
    exact .inr (congrArg some built)

theorem toNat_field {n hi lo : Nat} (h : hi + 1 - lo = n) : (BitVec.ofNat n (fld w hi lo)).toNat = fld w hi lo := by
  subst h
  exact Nat.mod_eq_of_lt (bitsOf_lt ..)

theorem hasWord_decodeI : HasWord t w (decodeI t w) := by
  unfold decodeI
  split
  case h_26 => exact .inl rfl
  all_goals
    rename fld w 31 26 = _ => hop
    have built := wordI_fields hop (toNat_field (n := 12) rfl)
  case h_5 | h_6 | h_7 =>
    refine hasWord_ok t fun hc => congrArg some (wordI_fields hop ?_)
    have top_zero := of_decide_eq_true hc
    rw [toNat_field (n := 6) (hi := 5) (lo := 0) rfl]
    simp only [fld, bitsOf] at top_zero ⊢
    omega
  case h_20 =>
    refine hasWord_ok t fun hc => congrArg some ?_
    simp only [Bool.and_eq_true, decide_eq_true_eq] at hc
    obtain ⟨⟨hrd, ha⟩, top_zero⟩ := hc
    have imm_is_m : (BitVec.ofNat 3 (fld w 2 0)).toNat = fld w 11 0 := by
      rw [toNat_field (n := 3) (hi := 2) (lo := 0) rfl]
      simp only [fld, bitsOf] at top_zero ⊢
      omega
    have built := wordI_fields hop imm_is_m
    rwa [hrd, ha] at built
  case h_16 | h_22 =>
    refine hasWord_ok t fun hrd => congrArg some ?_
    rwa [of_decide_eq_true hrd] at built
  case h_21 =>
    refine hasWord_ok t fun ha => congrArg some ?_
    rwa [of_decide_eq_true ha] at built
  case h_24 =>
    refine hasWord_ok t fun hc => congrArg some ?_
    simp only [Bool.and_eq_true, decide_eq_true_eq] at hc
    rwa [hc.1, hc.2] at built
  case h_23 | h_25 =>
    exact hasWord_ok t fun hc => congrArg some (tileWord_of_low w hop (of_decide_eq_true hc).symm)
  all_goals exact .inr (congrArg some built)

theorem hasWord_decodeE : HasWord t w (decodeE t w) := by
  unfold decodeE
  split
  case h_6 => exact .inl rfl
  all_goals
    rename fld w 31 26 = _ => hop
    refine hasWord_ok t fun hc => congrArg some ?_
    simp only [Bool.and_eq_true, decide_eq_true_eq] at hc
  case h_1 =>
    rw [← hc.1]
    exact wordE_fields hop hc.2.symm
  case h_2 =>
    obtain ⟨⟨hrd, hek⟩, hbelow⟩ := hc
    rw [← hrd]
    refine wordE_fields hop ?_
    simp only [predF, fld, bitsOf, Fin.val_ofNat] at hek hbelow ⊢
    omega
  case h_3 | h_4 =>
    obtain ⟨hrd, hbelow⟩ := hc
    rw [← hrd]
    refine wordE_fields hop ?_
    simp only [fld, bitsOf, Fin.val_ofNat] at hbelow ⊢
    omega
  case h_5 =>
    obtain ⟨ha, hbelow⟩ := hc
    rw [← ha]
    refine wordE_fields hop ?_
    simp only [fld, bitsOf, Fin.val_ofNat] at hbelow ⊢
    omega

theorem bit_toNat_field (i : Nat) : (bit w.toNat i).toNat = fld w i i := by
  have : fld w i i < 2 ^ (i + 1 - i) := bitsOf_lt ..
  rw [Nat.add_sub_cancel_left] at this
  rw [bit_eq_bitsOf, ← fld, Bool.toNat]
  rcases Nat.le_one_iff_eq_zero_or_eq_one.1 (Nat.lt_succ_iff.1 this) with h | h <;> rw [h] <;> rfl

theorem hasWord_decodeC : HasWord t w (decodeC t w) := by
  unfold decodeC
  split
  case h_5 => exact .inl rfl
  all_goals
    rename fld w 31 26 = _ => hop
    refine hasWord_ok t fun hc => ?_
  case h_1 | h_2 =>
    simp only [Bool.and_eq_true, decide_eq_true_eq, Bool.not_eq_true'] at hc
    obtain ⟨hlow, hrange⟩ := hc
    rw [tileEncode, hrange]
    refine congrArg some (wordC_fields hop ?_)
    rw [bit_toNat_field]
    simp only [predF, fld, bitsOf, Fin.val_ofNat] at hlow ⊢
    omega
  case h_3 | h_4 => exact congrArg some (wordC_fields hop (of_decide_eq_true hc).symm)

theorem hasWord_tileDecode : HasWord t w (tileDecode t w) := by
  by_cases hI : fld w 31 26 ∉ otherFormats
  · exact tileDecode_formatI t hI ▸ hasWord_decodeI t
  by_cases hC : 0x1C ≤ fld w 31 26 ∧ fld w 31 26 ≤ 0x1F
  · exact tileDecode_formatC t hC ▸ hasWord_decodeC t
  by_cases hE : 0x24 ≤ fld w 31 26 ∧ fld w 31 26 ≤ 0x28
  · exact tileDecode_formatE t hE ▸ hasWord_decodeE t
  simp only [tileDecode, not_between hC, not_between hE, Bool.false_eq_true, if_false]
  split_ifs with hR hmovz hmovk hcmp hcmpi hplog hbr hcall
  · exact hasWord_decodeR t hR
  · exact hasWord_ok t fun hc => congrArg some (wordU_fields hmovz (of_decide_eq_true hc))
  · exact hasWord_ok t fun hc => congrArg some (wordU_fields hmovk (of_decide_eq_true hc))
  · refine hasWord_ok t fun hc => congrArg some (tileWord_of_low w hcmp ?_)
    have := of_decide_eq_true hc
    simp only [predF, regF, fld, bitsOf, Fin.val_ofNat] at this ⊢
    omega
  · refine .inr (congrArg some (tileWord_of_low w hcmpi ?_))
    simp only [predF, regF, fld, bitsOf, Fin.val_ofNat, BitVec.toNat_ofNat]
    omega
  · refine hasWord_ok t fun hc => congrArg some (tileWord_of_low w hplog ?_)
    have := of_decide_eq_true hc
    simp only [predF, fld, bitsOf, Fin.val_ofNat] at this ⊢
    omega
  · refine hasWord_ok t fun hc => congrArg some (tileWord_of_low w hbr ?_)
    have := of_decide_eq_true hc
    simp only [fld, bitsOf, Fin.val_ofNat] at this ⊢
    omega
  · refine hasWord_ok t fun hc => congrArg some (tileWord_of_low w hcall ?_)
    have := of_decide_eq_true hc
    simp only [fld, bitsOf, Fin.val_ofNat] at this ⊢
    omega
  · refine absurd hI (not_not_intro ?_)
    simp only [otherFormats, List.mem_cons, List.not_mem_nil, or_false, not_or]
    omega

end

/-- Settles O7 by `hasWord_tileDecode`: every bit of a legal word stands in a field or is a reserved zero. -/
theorem tileWordsAreDistinct : Obligations.TileWordsAreDistinct := fun t _ => hasWord_tileDecode t

end Sys2Proof.Machine
end

section
/-!
PROOFS. Words that are no instruction (04_tile_core.md R90, R109), and the words of the chapter's worked example.
-/

namespace Sys2Proof.Machine

section
variable (t : TileIx) {w : BitVec 32}

theorem op_field (w : BitVec 32) : fld w 31 26 = w.toNat / 2 ^ 26 := by
  have := w.isLt
  simp only [fld, bitsOf]
  omega

theorem tileDecode_of_op_zero (h : fld w 31 26 = 0) : tileDecode t w = .illegalInstruction t (some w) := by
  rw [tileDecode_formatI t (by rw [h]; decide), decodeI, h]
  rfl

theorem tileDecode_of_high_fn (h : fld w 31 26 = 1) (hfn : 0x11 < fld w 6 0) : tileDecode t w = .illegalInstruction t (some w) := by
  rw [tileDecode_formatR t h, decodeR]
  split
  case h_19 => rfl
  all_goals omega

theorem tileDecode_of_bad_range (h : fld w 31 26 = 0x1C ∨ fld w 31 26 = 0x1D)
    (hrange : badRange (regF w 17) (Fin.ofNat 16 (fld w 10 7)) = true) : tileDecode t w = .illegalInstruction t (some w) := by
  rw [tileDecode_formatC t (by omega), decodeC]
  rcases h with h | h <;> simp only [h, hrange, Bool.not_true, Bool.and_false, ok, Bool.false_eq_true, if_false]

theorem tileDecode_of_reserved_nop (h : fld w 31 26 = 0x30) (hlow : fld w 21 0 ≠ 0) :
    tileDecode t w = .illegalInstruction t (some w) := by
  rw [tileDecode_formatI t (by rw [h]; decide), decodeI, h]
  simp only [ok, decide_eq_false hlow, Bool.false_eq_true, if_false]

end

/-- Settles O5: the exceptions by the command's own branches, the words by the format of their opcode. -/
theorem illegalWordsRaise : Obligations.IllegalWordsRaise := by
  unfold Obligations.IllegalWordsRaise
  refine ⟨fun s t w hruns hill => ?_, fun s t hruns => ?_, fun t w => ?_⟩
  · show execIllegalInstruction t (some w) s = _
    simp only [execIllegalInstruction, hruns, hill, Bool.not_true, Bool.false_eq_true, if_false]
  · show execIllegalInstruction t none s = _
    simp only [execIllegalInstruction, hruns, Bool.not_true, Bool.false_eq_true, if_false]
  · rw [← op_field w]
    intro op n reg
    refine ⟨tileDecode_of_op_zero t, fun h hfn => tileDecode_of_high_fn t h ?_, fun h hrange => tileDecode_of_bad_range t h ?_,
      fun h hlow => tileDecode_of_reserved_nop t h ?_⟩
    · simp only [fld, bitsOf]
      omega
    · rw [badRange, Bool.or_eq_true, decide_eq_true_iff, decide_eq_true_iff]
      simp only [regF, fld, bitsOf, Fin.val_ofNat, n, reg] at hrange ⊢
      omega
    · simpa only [fld, bitsOf, pow_zero, Nat.div_one] using hlow

/-- Settles O8: each word is decoded field by field. -/
theorem workedExampleWordsDecode : Obligations.WorkedExampleWordsDecode := by
  intro t
  refine ⟨?_, ?_, ?_, ?_, ?_, ?_, ?_⟩ <;> rfl

end Sys2Proof.Machine
end

section
/-!
PROOFS. An instruction of a tile: its issue under its guard, its end, and the register and predicate instructions
(04_tile_core.md R86 to R92, R107).
-/

namespace Sys2Proof.Machine

/-! ## Registers and predicates of a tile (04_tile_core.md R86, R88) -/

section
variable (x : Tile) (r q : GReg) (i j : Fin 8) (v : Word) (b : Bool)

/-- A register write reaches the general registers only. -/
theorem setG_eq : x.setG r v = { x with g := (x.setG r v).g } := by
  unfold Tile.setG
  split <;> rfl

@[simp] theorem setG_pc : (x.setG r v).pc = x.pc := by rw [setG_eq]
@[simp] theorem setG_stepping : (x.setG r v).stepping = x.stepping := by rw [setG_eq]
@[simp] theorem setG_p : (x.setG r v).p = x.p := by rw [setG_eq]
@[simp] theorem setG_e : (x.setG r v).e = x.e := by rw [setG_eq]

/-- A predicate write reaches the predicates only. -/
theorem setP_eq : x.setP i b = { x with p := (x.setP i b).p } := by
  unfold Tile.setP
  split <;> rfl

@[simp] theorem setP_pc : (x.setP i b).pc = x.pc := by rw [setP_eq]
@[simp] theorem setP_stepping : (x.setP i b).stepping = x.stepping := by rw [setP_eq]
@[simp] theorem setP_g : (x.setP i b).g = x.g := by rw [setP_eq]
@[simp] theorem setP_e : (x.setP i b).e = x.e := by rw [setP_eq]

theorem setG_g_of_ne {r q : GReg} (h : q ≠ r) : (x.setG r v).g[q.val] = x.g[q.val] := by
  unfold Tile.setG
  split
  · rfl
  · exact Vector.getElem_set_ne r.isLt _ fun e => h (Fin.ext e.symm)

theorem setG_g_same {r : GReg} (h : r ≠ 0) : (x.setG r v).g[r.val] = v := by
  rw [Tile.setG, if_neg h]
  exact Vector.getElem_set_self _

theorem setP_p_of_ne {i j : Fin 8} (h : j ≠ i) : (x.setP i b).p[j.val] = x.p[j.val] := by
  unfold Tile.setP
  split
  · rfl
  · exact Vector.getElem_set_ne i.isLt _ fun e => h (Fin.ext e.symm)

theorem getP_setP_true : (x.setP i true).getP i = true := by
  unfold Tile.getP Tile.setP
  split
  · rfl
  · exact Vector.getElem_set_self _

theorem guard_iff (gd : Guard) : x.guard gd = true ↔ x.getP gd.pg ≠ gd.pn := bne_iff_ne

end

/-! ## The issue and the end of an instruction (04_tile_core.md R88, R92) -/

section
variable {s : State} {t : TileIx} {gd : Guard}

theorem issue_of_issues (h : s.issues t gd) (body : State → State) : s.issue t gd body = body s := by
  obtain ⟨⟨-, hruns, -⟩, hguard⟩ := h
  rw [State.issue, if_pos hruns, if_pos hguard]

theorem issue_of_failed_guard (hruns : s.runs t = true) (h : (s.tile t).guard gd = false) (body : State → State) :
    s.issue t gd body = s.advance t 1 := by
  rw [State.issue, if_pos hruns, if_neg (Bool.eq_false_iff.1 h)]

theorem boundary_of_not_stepping {x : Tile} (h : x.stepping = false) : x.boundary = x := if_neg (Bool.eq_false_iff.1 h)

/-- Away from the last word, an instruction that leaves tile `x` and does not single-step ends with `x` retired. -/
theorem advance_setTile (hcanon : s.canon) {x : Tile} (hstep : x.stepping = false) (hpc : x.pc < 32767) (n : Nat) :
    (s.setTile t x).advance t n = s.setTile t (x.retired n) := by
  rw [State.advance, tile_setTile_same, if_pos hpc, State.updTile, tile_setTile_same, setTile_setTile s t _ _ hcanon]
  exact congrArg (s.setTile t) (boundary_of_not_stepping (x := x.retired n) hstep)

theorem advance_of_plain (h : s.plain t) (n : Nat) : s.advance t n = s.setTile t ((s.tile t).retired n) := by
  obtain ⟨-, -, hstep, hpc⟩ := h
  rw [State.advance, if_pos hpc, State.updTile]
  exact congrArg (s.setTile t) (boundary_of_not_stepping (x := (s.tile t).retired n) hstep)

theorem jump_setTile (hcanon : s.canon) {x : Tile} (hstep : x.stepping = false) (tgt : Nat) :
    (s.setTile t x).jump t tgt = s.setTile t (x.jumped tgt) := by
  rw [State.jump, State.updTile, tile_setTile_same, setTile_setTile s t _ _ hcanon]
  exact congrArg (s.setTile t) (boundary_of_not_stepping (x := x.jumped tgt) hstep)

theorem jump_of_plain (h : s.plain t) (tgt : Nat) : s.jump t tgt = s.setTile t ((s.tile t).jumped tgt) := by
  obtain ⟨-, -, hstep, -⟩ := h
  rw [State.jump, State.updTile]
  exact congrArg (s.setTile t) (boundary_of_not_stepping (x := (s.tile t).jumped tgt) hstep)

/-- An instruction that changes the tile as `f` says, and neither the PC nor the single step, ends with that tile retired. -/
theorem advance_updTile (h : s.plain t) {f : Tile → Tile} (hstep : ∀ x, (f x).stepping = x.stepping)
    (hpc : ∀ x, (f x).pc = x.pc) (n : Nat) : (s.updTile t f).advance t n = s.setTile t ((f (s.tile t)).retired n) := by
  obtain ⟨hcanon, -, hstill, hlow⟩ := h
  exact advance_setTile hcanon ((hstep _).trans hstill) (by rwa [hpc]) n

theorem aluOp_of_issues (h : s.issues t gd) (rd : GReg) (n : Nat) (v : Tile → Word) :
    s.aluOp t gd rd n v = s.setTile t (((s.tile t).setG rd (v (s.tile t))).retired n) := by
  rw [State.aluOp, issue_of_issues h]
  exact advance_updTile h.1 (fun _ => setG_stepping ..) (fun _ => setG_pc ..) n

theorem predOp_of_issues (h : s.issues t gd) (pd : Fin 8) (v : Tile → Bool) :
    s.predOp t gd pd v = s.setTile t (((s.tile t).setP pd (v (s.tile t))).retired 1) := by
  rw [State.predOp, issue_of_issues h]
  exact advance_updTile h.1 (fun _ => setP_stepping ..) (fun _ => setP_pc ..) 1

end

/-! ## A failed guard (04_tile_core.md R88) -/

/-- Settles O4: every guarded instruction is an issue of its tile under its guard. -/
theorem guardDecidesExecution : Obligations.GuardDecidesExecution := by
  unfold Obligations.GuardDecidesExecution
  refine ⟨fun i s t gd hguarded hcanon hplain hfails hrange => ?_, guard_iff, fun x => ⟨rfl, rfl⟩, fun t rd hw im => ⟨rfl, rfl⟩⟩
  have is_issue : ∃ body, exec i s = .next (s.issue t gd body) := by
    unfold guardOf at hguarded
    split at hguarded
    case h_43 | h_44 => 
      cases hguarded
      refine ⟨_, congrArg Host.Outcome.next (if_neg ?_)⟩
      dsimp only at hrange
      rw [hrange, Bool.and_false]
      decide
    case h_58 => cases hguarded
    all_goals
      cases hguarded
      exact ⟨_, rfl⟩
  obtain ⟨body, hexec⟩ := is_issue
  rw [hexec, issue_of_failed_guard hplain.2.1 hfails, advance_of_plain hplain]
  rfl

end Sys2Proof.Machine
end

section
/-!
PROOFS. The results of the register, predicate, counter and branch instructions of a tile, and what they leave unchanged
(04_tile_core.md R86, R91, R92, R107).
-/

namespace Sys2Proof.Machine

/-! ## Values (04_tile_core.md R91) -/

section
variable (u v : Word)

theorem divuW_eq : divuW u v = if v = 0 then BitVec.ofNat 64 (2 ^ 64 - 1) else BitVec.ofNat 64 (u.toNat / v.toNat) := by
  rw [divuW]
  split
  · rfl
  · rw [← BitVec.toNat_udiv, BitVec.ofNat_toNat, BitVec.setWidth_eq]

theorem remuW_eq : remuW u v = if v = 0 then u else BitVec.ofNat 64 (u.toNat % v.toNat) := by
  rw [remuW, ← BitVec.toNat_umod, BitVec.ofNat_toNat, BitVec.setWidth_eq]

theorem sminW_eq : sminW u v = if u.toInt < v.toInt then u else v := by
  simp only [sminW, BitVec.slt, decide_eq_true_eq]

theorem smaxW_eq : smaxW u v = if u.toInt < v.toInt then v else u := by
  simp only [smaxW, BitVec.slt, decide_eq_true_eq]

theorem uminW_eq : uminW u v = if u.toNat < v.toNat then u else v := by
  simp only [uminW, BitVec.ult, decide_eq_true_eq]

theorem umaxW_eq : umaxW u v = if u.toNat < v.toNat then v else u := by
  simp only [umaxW, BitVec.ult, decide_eq_true_eq]

/-- The number of leading zeros is the place of the highest 1 bit, counted from the top. -/
theorem clzW_eq {z : Nat} (hz : z ≤ 64) (hlt : u.toNat < 2 ^ (64 - z)) (hle : z = 64 ∨ 2 ^ (63 - z) ≤ u.toNat) :
    clzW u = BitVec.ofNat 64 z := by
  rw [clzW]
  congr 1
  split
  case isTrue h =>
    subst h
    rcases hle with hle | hle
    · exact hle.symm
    · exact absurd hle (Nat.not_le.2 (Nat.two_pow_pos _))
  case isFalse h =>
    have hne : u.toNat ≠ 0 := fun e => h (BitVec.eq_of_toNat_eq e)
    have hz63 : z ≤ 63 := by
      rcases Nat.lt_or_ge z 64 with h64 | h64
      · omega
      · rw [show z = 64 by omega] at hlt
        omega
    have hlog : u.toNat.log2 = 63 - z := by
      rw [Nat.log2_eq_iff hne]
      refine ⟨hle.resolve_left (by omega), ?_⟩
      rwa [show 63 - z + 1 = 64 - z by omega]
    omega

end

section
variable {s : State} {t : TileIx} {gd : Guard}

/-- An instruction that writes one register answers the state in which its tile alone has changed. -/
theorem next_aluOp (h : s.issues t gd) (rd : GReg) (n : Nat) {v : Tile → Word} {r : Word} (hv : v (s.tile t) = r) :
    Host.Outcome.next (s.aluOp t gd rd n v) = s.withTile t (((s.tile t).setG rd r).retired n) := by
  rw [aluOp_of_issues h, hv, State.withTile]

theorem next_predOp (h : s.issues t gd) (pd : Fin 8) {v : Tile → Bool} {b : Bool} (hv : v (s.tile t) = b) :
    Host.Outcome.next (s.predOp t gd pd v) = s.withTile t (((s.tile t).setP pd b).retired 1) := by
  rw [predOp_of_issues h, hv, State.withTile]

end

/-- Settles O2: each instruction is `aluOp` with its value, which the lemmas above give where the rule words it otherwise. -/
theorem aluRegisterResults : Obligations.AluRegisterResults := by
  unfold Obligations.AluRegisterResults
  intro s t gd rd a b i sh hw im hcanon x u v put
  refine ⟨fun h => ?_, fun hplain => ?_⟩
  · have alu {n : Nat} {f : Tile → Word} {r : Word} := next_aluOp h rd n (v := f) (r := r)
    refine ⟨alu rfl, alu rfl, alu rfl, alu rfl, alu rfl, alu rfl, alu rfl, alu rfl, alu rfl, alu rfl, alu (divuW_eq u v),
      alu (remuW_eq u v), alu (sminW_eq u v), alu (smaxW_eq u v), alu (uminW_eq u v), alu (umaxW_eq u v), alu rfl,
      fun z hz hlt hle => alu (clzW_eq u hz hlt hle), alu rfl, alu rfl, alu rfl, alu rfl, alu rfl, alu rfl, alu rfl⟩
  · have unguarded : s.issues t noGuard := ⟨hplain, rfl⟩
    exact ⟨next_aluOp unguarded rd 1 rfl, next_aluOp unguarded rd 1 rfl⟩

theorem not_slt_eq (u v : Word) : (!u.slt v) = decide (v.toInt ≤ u.toInt) := by
  simp only [BitVec.slt, ← decide_not, Int.not_lt]

theorem not_ult_eq (u v : Word) : (!u.ult v) = decide (v.toNat ≤ u.toNat) := by
  simp only [BitVec.ult, ← decide_not, Nat.not_lt]

/-- EVADD on the tile (04_tile_core.md R107). -/
def Tile.addEvent (x : Tile) (k : Fin 16) (v : Word) : Tile := { x with e := x.e.set k.val (x.e[k.val] + v.setWidth 32) }

section
variable {s : State} {t : TileIx} {gd : Guard}

theorem exec_evadd (h : s.issues t gd) (a : GReg) (ek : Fin 16) :
    exec (.evadd t gd a ek) s = s.withTile t (((s.tile t).addEvent ek ((s.tile t).getG a)).retired 1) := by
  refine congrArg Host.Outcome.next ((issue_of_issues h _).trans ?_)
  exact advance_updTile h.1 (f := fun x => x.addEvent ek (x.getG a)) (fun _ => rfl) (fun _ => rfl) 1

theorem exec_nop (h : s.issues t gd) : exec (.nop t gd) s = s.withTile t ((s.tile t).retired 1) :=
  congrArg Host.Outcome.next ((issue_of_issues h _).trans (advance_of_plain h.1 1))

theorem exec_br (h : s.issues t gd) (tgt : Fin 32768) : exec (.br t gd tgt) s = s.withTile t ((s.tile t).jumped tgt.val) :=
  congrArg Host.Outcome.next ((issue_of_issues h _).trans (jump_of_plain h.1 tgt.val))

theorem exec_call (h : s.issues t gd) (tgt : Fin 32768) : exec (.call t gd tgt) s =
    s.withTile t (((s.tile t).setG 31 (BitVec.ofNat 64 ((s.tile t).pc + 1))).jumped tgt.val) := by
  obtain ⟨hcanon, -, hstep, -⟩ := h.1
  refine congrArg Host.Outcome.next ((issue_of_issues h _).trans ?_)
  exact jump_setTile hcanon ((setG_stepping ..).trans hstep) tgt.val

theorem exec_jr (h : s.issues t gd) (a : GReg) (i : BitVec 12) : exec (.jr t gd a i) s =
    .next (if 32767 < ((s.tile t).getG a + i.signExtend 64).toNat then s.tileExc t 0x0307
      else s.jump t ((s.tile t).getG a + i.signExtend 64).toNat) :=
  congrArg Host.Outcome.next (issue_of_issues h _)

end

/-- Settles O3: the predicate forms are `predOp`, and the others by what each does once it has issued. -/
theorem predicateAndCounterResults : Obligations.PredicateAndCounterResults := by
  unfold Obligations.PredicateAndCounterResults
  intro s t gd rd a b pd pa pb cond fn i i11 ek tgt hcanon h x cmp go
  have cond_is_cmp (u v : Word) : condW cond u v = cmp u v := by
    unfold cmp
    clear cmp
    match cond with
    | 0 | 1 | 2 | 4 | 6 | 7 => rfl
    | 3 => exact not_slt_eq u v
    | 5 => exact not_ult_eq u v
  have pred {f : Tile → Bool} {b : Bool} := next_predOp h pd (v := f) (b := b)
  refine ⟨pred (cond_is_cmp ..), pred (cond_is_cmp ..), pred ?_, exec_evadd h a ek, next_aluOp h rd 1 rfl, exec_nop h,
    exec_br h tgt, exec_call h tgt, fun hgo => ?_, fun hgo => ?_⟩
  · match fn with
    | 0 | 1 | 2 | 3 => rfl
  · rw [exec_jr h, if_neg (Nat.not_lt.2 hgo), jump_of_plain h.1]
    rfl
  · rw [exec_jr h, if_pos hgo]

/-! ## What these instructions leave unchanged -/

/-- Only tile `t` has changed, and there the PC has moved on by one, the cycles have been counted, and the registers, predicates
and event counters named may differ. -/
structure TileFrame (s u : State) (t : TileIx) (G : GReg → Prop) (P : Fin 8 → Prop) (E : Fin 16 → Prop) : Prop where
  state : u = { s with tiles := u.tiles }
  others : ∀ k : Nat, k ≠ t.val → u.tile k = s.tile k
  g : ∀ r : Fin 32, ¬ G r → (u.tile t).g[r.val] = (s.tile t).g[r.val]
  p : ∀ q : Fin 8, ¬ P q → (u.tile t).p[q.val] = (s.tile t).p[q.val]
  e : ∀ k : Fin 16, ¬ E k → (u.tile t).e[k.val] = (s.tile t).e[k.val]
  rest : u.tile t = { s.tile t with g := (u.tile t).g, p := (u.tile t).p, e := (u.tile t).e, pc := (s.tile t).pc + 1,
                                    cycle := (u.tile t).cycle }

namespace TileFrame

variable {s : State} {t : TileIx} {gd : Guard} {G G' : GReg → Prop} {P P' : Fin 8 → Prop} {E E' : Fin 16 → Prop}

theorem mono {u : State} (h : TileFrame s u t G P E) (hG : ∀ r, G r → G' r) (hP : ∀ q, P q → P' q) (hE : ∀ k, E k → E' k) :
    TileFrame s u t G' P' E' :=
  ⟨h.state, h.others, fun r hr => h.g r fun k => hr (hG r k), fun q hq => h.p q fun k => hq (hP q k),
    fun k hk => h.e k fun j => hk (hE k j), h.rest⟩

/-- A tile that retires with other registers, predicates or counters. -/
theorem setTile_retired {y : Tile} (n : Nat)
    (hy : y = { s.tile t with g := y.g, p := y.p, e := y.e })
    (hg : ∀ r : Fin 32, ¬ G r → y.g[r.val] = (s.tile t).g[r.val]) (hp : ∀ q : Fin 8, ¬ P q → y.p[q.val] = (s.tile t).p[q.val])
    (he : ∀ k : Fin 16, ¬ E k → y.e[k.val] = (s.tile t).e[k.val]) : TileFrame s (s.setTile t (y.retired n)) t G P E := by
  refine ⟨rfl, fun k hk => tile_setTile_other _ _ _ _ hk, ?_, ?_, ?_, ?_⟩ <;> rw [tile_setTile_same]
  · exact hg
  · exact hp
  · exact he
  · rw [Tile.retired]
    rw [hy]

theorem advance (h : s.plain t) (n : Nat) : TileFrame s (s.advance t n) t G P E := by
  rw [advance_of_plain h]
  exact setTile_retired n rfl (fun _ _ => rfl) (fun _ _ => rfl) fun _ _ => rfl

/-- An instruction under a guard changes what its body changes. -/
theorem issue (h : s.plain t) {body : State → State} (hbody : s.issues t gd → TileFrame s (body s) t G P E) :
    TileFrame s (s.issue t gd body) t G P E := by
  cases hguard : (s.tile t).guard gd with
  | true =>
    have hi : s.issues t gd := ⟨h, hguard⟩
    rw [issue_of_issues hi]
    exact hbody hi
  | false =>
    rw [issue_of_failed_guard h.2.1 hguard]
    exact advance h 1

theorem aluOp (h : s.plain t) (rd : GReg) (n : Nat) (v : Tile → Word) :
    TileFrame s (s.aluOp t gd rd n v) t (· = rd) (fun _ => False) fun _ => False := by
  refine issue h fun hi => ?_
  rw [advance_updTile h (fun _ => setG_stepping ..) (fun _ => setG_pc ..)]
  exact setTile_retired n (by rw [setG_p, setG_e, ← setG_eq]) (fun r hr => setG_g_of_ne _ _ hr) (fun _ _ => by rw [setG_p])
    fun _ _ => by rw [setG_e]

theorem predOp (h : s.plain t) (pd : Fin 8) (v : Tile → Bool) :
    TileFrame s (s.predOp t gd pd v) t (fun _ => False) (· = pd) fun _ => False := by
  refine issue h fun hi => ?_
  rw [advance_updTile h (fun _ => setP_stepping ..) (fun _ => setP_pc ..)]
  exact setTile_retired 1 (by rw [setP_g, setP_e, ← setP_eq]) (fun _ _ => by rw [setP_g]) (fun q hq => setP_p_of_ne _ _ hq)
    fun _ _ => by rw [setP_e]

theorem evadd (h : s.plain t) (a : GReg) (ek : Fin 16) {u : State} (hu : exec (.evadd t gd a ek) s = .next u) :
    TileFrame s u t (fun _ => False) (fun _ => False) (· = ek) := by
  cases hu
  refine issue h fun hi => ?_
  change TileFrame s ((s.updTile t fun x => x.addEvent ek (x.getG a)).advance t 1) t _ _ _
  rw [advance_updTile h (f := fun x => x.addEvent ek (x.getG a)) (fun _ => rfl) (fun _ => rfl)]
  exact setTile_retired 1 rfl (fun _ _ => rfl) (fun _ _ => rfl) fun k hk =>
    Vector.getElem_set_ne ek.isLt _ fun e => hk (Fin.ext e.symm)

theorem nop (h : s.plain t) {u : State} (hu : exec (.nop t gd) s = .next u) : TileFrame s u t G P E := by
  cases hu
  exact issue h fun _ => advance h 1

end TileFrame

/-- Settles O10: each instruction is `aluOp`, `predOp`, EVADD or NOP, whose frames are known. -/
theorem tileInstructionFrame : Obligations.TileInstructionFrame := by
  unfold Obligations.TileInstructionFrame
  intro s u t gd rd a b pd pa pb cond fn i i11 sh ek c hcanon hplain hexec reg prd evt hc
  have frame : TileFrame s u t (fun r => r = rd ∧ reg) (fun q => q = pd ∧ prd) fun k => k = ek ∧ evt := by
    rcases hc with hc | hc | hc | rfl
    · have is_aluOp : ∃ n v, exec c s = .next (s.aluOp t gd rd n v) := by
        have hc := hc
        simp only [reg, List.mem_cons, List.not_mem_nil, or_false] at hc
        rcases hc with rfl | rfl | rfl | rfl | rfl | rfl | rfl | rfl | rfl | rfl | rfl | rfl | rfl | rfl | rfl | rfl | rfl | rfl |
          rfl | rfl | rfl | rfl | rfl | rfl | rfl | rfl <;> exact ⟨_, _, rfl⟩
      obtain ⟨n, v, hop⟩ := is_aluOp
      cases hexec.symm.trans hop
      exact (TileFrame.aluOp hplain rd n v).mono (fun r hr => ⟨hr, hc⟩) (fun _ => False.elim) fun _ => False.elim
    · have is_predOp : ∃ v, exec c s = .next (s.predOp t gd pd v) := by
        have hc := hc
        simp only [prd, List.mem_cons, List.not_mem_nil, or_false] at hc
        rcases hc with rfl | rfl | rfl <;> exact ⟨_, rfl⟩
      obtain ⟨v, hop⟩ := is_predOp
      cases hexec.symm.trans hop
      exact (TileFrame.predOp hplain pd v).mono (fun _ => False.elim) (fun q hq => ⟨hq, hc⟩) fun _ => False.elim
    · obtain rfl := List.mem_singleton.1 hc
      exact (TileFrame.evadd hplain a ek hexec).mono (fun _ => False.elim) (fun _ => False.elim) fun k hk => ⟨hk, hc⟩
    · exact TileFrame.nop hplain hexec
  obtain ⟨state, others, g, p, e, rest⟩ := frame
  exact ⟨state, others, fun r hr => g r fun h => hr h.1 h.2, fun q hq => p q fun h => hq h.1 h.2,
    fun k hk => e k fun h => hk h.1 h.2, rest⟩

end Sys2Proof.Machine
end

section
/-!
PROOFS. The scratchpad as the core reads and writes it, and loads and stores (04_tile_core.md R93, R94).
-/

namespace Sys2Proof.Machine

/-! ## The scratchpad (04_tile_core.md R93, R94) -/

theorem length_leBytes (n v : Nat) : (leBytes n v).length = n := by
  induction n generalizing v with
  | zero => rfl
  | succ n ih => rw [leBytes, List.length_cons, ih]

section
variable (x : Tile) (a : Nat) (b : Bytes)

theorem readSp_writeSp_same : (x.writeSp a b).readSp a b.length = b := smapRead_write 0 x.scratch a b

theorem readSp_writeSp_other {k : Nat} (h : k < a ∨ a + b.length ≤ k) : (x.writeSp a b).readSp k 1 = x.readSp k 1 := by
  simp only [Tile.readSp, smapRead, Tile.writeSp, List.range_one, List.map_cons, List.map_nil, Nat.add_zero,
    smapGet_write_other 0 0 b x.scratch a k h]

theorem readSp_storeSp_same : (x.storeSp a b).readSp a b.length = b := smapRead_write 0 x.scratch a b

theorem readSp_storeSp_other {k : Nat} (h : k < a ∨ a + b.length ≤ k) : (x.storeSp a b).readSp k 1 = x.readSp k 1 :=
  readSp_writeSp_other x a b h

end

/-- The address of a load or store wraps around 2^64. -/
theorem spAddr_eq (x : Tile) (rs1 : GReg) (i : BitVec 12) (n : Nat) :
    spAddr x rs1 i n = ((x.getG rs1).toNat + (i.signExtend 64 : Word).toNat * n) % 2 ^ 64 := by
  rw [spAddr, imm12, BitVec.toNat_add, BitVec.toNat_mul, BitVec.toNat_ofNat, Nat.add_mod_mod]
  exact Nat.ModEq.add_left _ ((Nat.mod_modEq n (2 ^ 64)).mul_left _)

/-- What is read of a word is one of the values it may have. -/
theorem seeWord_mem {s : State} {t w : Nat} (h : (s.tile t).wordInFlight w = true) : s.seeWord t w ∈ s.wordValues t w := by
  have some_value : 0 < (s.wordValues t w).length := Nat.succ_pos _
  rw [State.seeWord, if_pos h]
  dsimp only
  rw [List.getD_eq_getElem _ _ (Nat.mod_lt _ some_value)]
  exact List.getElem_mem _

theorem seeWord_of_still {s : State} {t w : Nat} (h : (s.tile t).wordInFlight w = false) :
    s.seeWord t w = (s.tile t).spWord w := if_neg (Bool.eq_false_iff.1 h)

/-! ## Loads and stores (04_tile_core.md R93) -/

section
variable {s : State} {t : TileIx} {gd : Guard} {rd rs1 : GReg} {i : BitVec 12} {n : Nat}

theorem load_of_bad_address (h : s.issues t gd) (ue : Bool)
    (ha : ¬ (spAddr (s.tile t) rs1 i n < spSize ∧ spAddr (s.tile t) rs1 i n % n = 0)) :
    s.load t gd rd rs1 i n ue = s.tileExc t 0x0306 := by
  rw [State.load, issue_of_issues h]
  exact if_pos (by simpa only [aligned, ← Bool.decide_and, Bool.not_eq_true', decide_eq_false_iff_not] using ha)

theorem store_of_bad_address (h : s.issues t gd) (ue : Bool)
    (ha : ¬ (spAddr (s.tile t) rs1 i n < spSize ∧ spAddr (s.tile t) rs1 i n % n = 0)) :
    s.store t gd rd rs1 i n ue = s.tileExc t 0x0306 := by
  rw [State.store, issue_of_issues h]
  exact if_pos (by simpa only [aligned, ← Bool.decide_and, Bool.not_eq_true', decide_eq_false_iff_not] using ha)

variable (h : s.issues t gd) (ha : spAddr (s.tile t) rs1 i n < spSize ∧ spAddr (s.tile t) rs1 i n % n = 0)
include h ha

theorem load_of_still (hstill : (s.tile t).wordInFlight (spAddr (s.tile t) rs1 i n / 8) = false) :
    s.load t gd rd rs1 i n false =
      s.setTile t (((s.tile t).setG rd (BitVec.ofNat 64 (leNat ((s.tile t).readSp (spAddr (s.tile t) rs1 i n) n)))).retired 1) := by
  rw [State.load, issue_of_issues h]
  simp only [ha.1, aligned, ha.2, hstill, decide_true, Bool.and_self, Bool.not_true, Bool.false_eq_true, if_false]
  exact advance_updTile h.1 (f := fun x => x.setG rd _) (fun _ => setG_stepping ..) (fun _ => setG_pc ..) 1

theorem load_of_flight (hflight : (s.tile t).wordInFlight (spAddr (s.tile t) rs1 i n / 8) = true) :
    s.load t gd rd rs1 i n false = s.tick.setTile t (((s.tile t).setG rd (BitVec.ofNat 64
      ((s.seeWord t (spAddr (s.tile t) rs1 i n / 8)).toNat / 256 ^ (spAddr (s.tile t) rs1 i n % 8) % 256 ^ n))).retired 1) := by
  rw [State.load, issue_of_issues h]
  simp only [ha.1, aligned, ha.2, hflight, decide_true, Bool.and_self, Bool.not_true, Bool.false_eq_true, if_false, if_true]
  obtain ⟨hcanon, -, hstep, hpc⟩ := h.1
  exact advance_setTile (s := s.tick) hcanon ((setG_stepping ..).trans hstep) ((setG_pc ..).symm ▸ hpc) 1

theorem store_of_address : s.store t gd rd rs1 i n false = s.setTile t
    (((s.tile t).storeSp (spAddr (s.tile t) rs1 i n) (leBytes n ((s.tile t).getG rd).toNat)).retired 1) := by
  rw [State.store, issue_of_issues h]
  simp only [ha.1, aligned, ha.2, decide_true, Bool.and_self, Bool.not_true, Bool.false_and, Bool.false_eq_true, if_false]
  exact advance_updTile h.1 (f := fun x => x.storeSp _ (leBytes n (x.getG rd).toNat)) (fun _ => rfl) (fun _ => rfl) 1

end

/-- Settles O9: each width is `load` and `store` with its number of bytes. -/
theorem scratchpadAccess : Obligations.ScratchpadAccess := by
  unfold Obligations.ScratchpadAccess
  intro s t gd rd rs1 i n ld st hcanon h hform x a
  have are_load_store : exec ld s = .next (s.load t gd rd rs1 i n false) ∧ exec st s = .next (s.store t gd rd rs1 i n false) := by
    simp only [List.mem_cons, Prod.mk.injEq, List.not_mem_nil, or_false] at hform
    rcases hform with ⟨rfl, rfl, rfl⟩ | ⟨rfl, rfl, rfl⟩ | ⟨rfl, rfl, rfl⟩ | ⟨rfl, rfl, rfl⟩ <;> exact ⟨rfl, rfl⟩
  obtain ⟨hld, hst⟩ := are_load_store
  have addr : spAddr (s.tile t) rs1 i n = a := spAddr_eq ..
  rw [hld, hst]
  clear hld hst hform
  clear_value a
  subst addr
  split
  case isFalse ha => exact ⟨congrArg _ (load_of_bad_address h false ha), congrArg _ (store_of_bad_address h false ha)⟩
  case isTrue ha =>
    refine ⟨fun hstill => congrArg _ (load_of_still h ha hstill),
      fun hflight => ⟨_, seeWord_mem hflight, congrArg _ (load_of_flight h ha hflight)⟩,
      _, congrArg _ (store_of_address h ha), ?_, rfl, rfl, rfl, fun k hk => ?_⟩
    · have same := readSp_storeSp_same x (spAddr x rs1 i n) (leBytes n (x.getG rd).toNat)
      rwa [length_leBytes] at same
    · exact readSp_storeSp_other x _ _ (by rwa [length_leBytes])

end Sys2Proof.Machine
end

section
/-!
PROOFS. Tickets, events, waits and their ends (04_tile_core.md R91, R92, R100, R107, R108).
-/

namespace Sys2Proof.Machine

/-! ## Conditions (04_tile_core.md R92, R100) -/

/-- A distance modulo 2^32. -/
theorem toNat_sub_32 (a b : BitVec 32) : (a - b).toNat = (a.toNat + 2 ^ 32 - b.toNat) % 2 ^ 32 := by
  have := b.isLt
  rw [BitVec.toNat_sub]
  congr 1
  omega

theorem ticketUnit_field (v : Word) : bitsOf v.toNat 63 32 = v.toNat / 2 ^ 32 := by
  have := v.isLt
  rw [bitsOf]
  omega

theorem ticketUnit_of_invalid {v : Word} (h : 2 ^ 32 * 3 ≤ v.toNat) : ticketUnit v = none := by
  have high : 3 ≤ v.toNat / 2 ^ 32 := by omega
  rw [ticketUnit, ticketUnit_field]
  split
  case h_4 => rfl
  all_goals omega

theorem ticketUnit_of_num {v : Word} {u : UnitKind} (h : v.toNat / 2 ^ 32 = u.num) : ticketUnit v = some u := by
  rw [ticketUnit, ticketUnit_field, h]
  cases u <;> rfl

theorem ticketDone_of_unit {x : Tile} {v : Word} {u : UnitKind} (h : ticketUnit v = some u) :
    x.ticketDone v = (v = 0 || ((x.unitDone u).toNat + 2 ^ 32 - v.toNat % 2 ^ 32) % 2 ^ 32 < 2 ^ 31 : Bool) := by
  have distance : x.seqDone u (v.setWidth 32) = decide (((x.unitDone u).toNat + 2 ^ 32 - v.toNat % 2 ^ 32) % 2 ^ 32 < 2 ^ 31) := by
    rw [Tile.seqDone, toNat_sub_32, BitVec.toNat_setWidth]
  simp only [Tile.ticketDone, h, distance]

theorem evAfter_setWidth (e : BitVec 32) (v : Word) :
    evAfter e (v.setWidth 32) = decide ((e.toNat + 2 ^ 32 - v.toNat % 2 ^ 32) % 2 ^ 32 < 2 ^ 31) := by
  rw [evAfter, toNat_sub_32, BitVec.toNat_setWidth]

theorem unitsIdle_iff (x : Tile) (m : BitVec 3) : x.unitsIdle m.toNat = true ↔
    (m.getLsbD 0 = true → x.cubeQ = []) ∧ (m.getLsbD 1 = true → x.vecQ = []) ∧ (m.getLsbD 2 = true → x.movQ = []) := by
  have bit_of (i : Nat) : bit m.toNat i = m.getLsbD i := by
    rw [bit, ← BitVec.testBit_toNat, Nat.testBit_eq_decide_div_mod_eq]
  simp only [Tile.unitsIdle, bit_of, Bool.and_eq_true, Bool.or_eq_true, Bool.not_eq_true', List.isEmpty_iff, and_assoc]
  cases m.getLsbD 0 <;> cases m.getLsbD 1 <;> cases m.getLsbD 2 <;> simp

/-! ## The instructions (04_tile_core.md R91) -/

/-- The tile in a wait. -/
def Tile.hold (x : Tile) (w : Wait) : Tile := { x with wait := some w }

section
variable {s : State} {t : TileIx} {gd : Guard}

/-- An instruction that goes on when its condition holds and waits when not. -/
theorem go_or_hold (h : s.plain t) (c : Bool) (w : Wait) : (if c then s.advance t 1 else s.updTile t fun x => x.hold w) =
    s.setTile t (if c then (s.tile t).retired 1 else (s.tile t).hold w) := by
  cases c
  · rfl
  · exact advance_of_plain h 1

variable (h : s.issues t gd)
include h

theorem waitt_of_invalid {rs1 : GReg} (hv : ticketUnit ((s.tile t).getG rs1) = none) :
    exec (.waitt t gd rs1) s = .next (s.tileExc t 0x030A) := by
  refine congrArg Host.Outcome.next ((issue_of_issues h _).trans ?_)
  simp only [hv, Option.isNone_none, if_true]

theorem testt_of_invalid {rs1 : GReg} (hv : ticketUnit ((s.tile t).getG rs1) = none) (pd : Fin 8) :
    exec (.testt t gd rs1 pd) s = .next (s.tileExc t 0x030A) := by
  refine congrArg Host.Outcome.next ((issue_of_issues h _).trans ?_)
  simp only [hv, Option.isNone_none, if_true]

theorem waitt_of_unit {rs1 : GReg} {u : UnitKind} (hv : ticketUnit ((s.tile t).getG rs1) = some u) :
    exec (.waitt t gd rs1) s = s.withTile t (if (s.tile t).ticketDone ((s.tile t).getG rs1) then (s.tile t).retired 1
      else (s.tile t).hold (.ticket ((s.tile t).getG rs1))) := by
  refine congrArg Host.Outcome.next ((issue_of_issues h _).trans (Eq.trans ?_ (go_or_hold h.1 _ _)))
  simp only [hv, Option.isNone_some, Bool.false_eq_true, if_false]
  rfl

theorem testt_of_unit {rs1 : GReg} {u : UnitKind} (hv : ticketUnit ((s.tile t).getG rs1) = some u) (pd : Fin 8) :
    exec (.testt t gd rs1 pd) s =
      s.withTile t (((s.tile t).setP pd ((s.tile t).ticketDone ((s.tile t).getG rs1))).retired 1) := by
  refine congrArg Host.Outcome.next ((issue_of_issues h _).trans ?_)
  simp only [hv, Option.isNone_some, Bool.false_eq_true, if_false]
  exact advance_updTile h.1 (f := fun x => x.setP pd (x.ticketDone _)) (fun _ => setP_stepping ..) (fun _ => setP_pc ..) 1

theorem exec_waite (rs1 : GReg) (ek : Fin 16) : exec (.waite t gd rs1 ek) s =
    s.withTile t (if evAfter (s.tile t).e[ek.val] (((s.tile t).getG rs1).setWidth 32) then (s.tile t).retired 1
      else (s.tile t).hold (.event ek (((s.tile t).getG rs1).setWidth 32))) :=
  congrArg Host.Outcome.next ((issue_of_issues h _).trans (go_or_hold h.1 _ _))

theorem exec_waitu (m : BitVec 3) : exec (.waitu t gd m) s =
    s.withTile t (if (s.tile t).unitsIdle m.toNat then (s.tile t).retired 1 else (s.tile t).hold (.units m)) :=
  congrArg Host.Outcome.next ((issue_of_issues h _).trans (go_or_hold h.1 _ _))

end

/-! ## The ends of a wait (04_tile_core.md R92, R108) -/

/-- The waits of WAITT, WAITE and WAITU. -/
def Wait.plain (w : Wait) : Prop := (∃ v, w = .ticket v) ∨ (∃ k v, w = .event k v) ∨ ∃ m, w = .units m

section
variable {s : State} {t : TileIx} {w : Wait}

theorem endWait_of_plain (hw : (s.tile t).wait = some w) (hplain : w.plain) :
    s.endWait t = (s.updTile t fun x => { x with wait := none }).advance t 1 := by
  rcases hplain with ⟨v, rfl⟩ | ⟨k, v, rfl⟩ | ⟨m, rfl⟩ <;> simp only [State.endWait, State.countWait, hw]

theorem waitResume_of_over (hhalted : (s.tile t).halted = false) (hactive : s.active t = true)
    (hover : (s.tile t).waitOver = true) : exec (.waitResume t) s = .next (s.endWait t) :=
  congrArg Host.Outcome.next (if_pos (by rw [hhalted, hactive, hover]; rfl))

theorem waitResume_of_not_over (h : (s.tile t).waitOver = false) : exec (.waitResume t) s = .next s :=
  congrArg Host.Outcome.next (if_neg (by rw [h, Bool.and_false, Bool.false_and]; decide))

theorem waitLimitExpiry_of_not_over (hw : (s.tile t).wait = some w) (htimed : w.timed = true)
    (hhalted : (s.tile t).halted = false) (hlimit : (s.tile t).waitLimit ≠ 0) (h : (s.tile t).waitOver = false) :
    exec (.waitLimitExpiry t) s = .next (s.tileExc t 0x0309) := by
  show execWaitLimitExpiry t s = _
  simp only [execWaitLimitExpiry, hw, htimed, hhalted, h, hlimit, ne_eq, not_false_eq_true, decide_true, Bool.not_false,
    Bool.and_self, if_true, Bool.false_eq_true, if_false]

end

/-- Settles O12: a ticket, an event and a unit wait each by its condition, and their ends by `endWait`. -/
theorem ticketsEventsAndWaits : Obligations.TicketsEventsAndWaits := by
  unfold Obligations.TicketsEventsAndWaits
  intro s t hcanon x hold
  refine ⟨?conditions, fun w hw hkind hhalted => ⟨?resume, ?still, ?limit⟩⟩
  case conditions =>
    intro gd rs1 pd ek m h v dist
    refine ⟨fun hv => ?_, fun c hc => ?_, ?_, ?_⟩
    · have hv := ticketUnit_of_invalid hv
      exact ⟨waitt_of_invalid h hv, testt_of_invalid h hv pd⟩
    · obtain ⟨u, hu, hc⟩ : ∃ u : UnitKind, v.toNat / 2 ^ 32 = u.num ∧ x.unitDone u = c := by
        simp only [List.mem_cons, Prod.mk.injEq, List.not_mem_nil, or_false] at hc
        rcases hc with ⟨hu, rfl⟩ | ⟨hu, rfl⟩ | ⟨hu, rfl⟩
        · exact ⟨.cube, hu, rfl⟩
        · exact ⟨.vector, hu, rfl⟩
        · exact ⟨.mover, hu, rfl⟩
      have hv := ticketUnit_of_num hu
      have hdone := ticketDone_of_unit (x := x) hv
      rw [hc] at hdone
      intro done
      exact ⟨(testt_of_unit h hv pd).trans (by rw [hdone]), (waitt_of_unit h hv).trans (by rw [hdone]; rfl)⟩
    · rw [exec_waite h, evAfter_setWidth]
      simp only [decide_eq_true_eq]
      rfl
    · rw [exec_waitu h]
      simp only [unitsIdle_iff]
      rfl
  case resume =>
    intro hactive hover hstep hpc
    rw [waitResume_of_over hhalted hactive hover, endWait_of_plain hw hkind]
    exact congrArg Host.Outcome.next (advance_setTile (t := t) (x := { x with wait := none }) hcanon hstep hpc 1)
  case still => exact waitResume_of_not_over
  case limit =>
    have htimed : w.timed = true := by
      rcases hkind with ⟨v, rfl⟩ | ⟨k, v, rfl⟩ | ⟨m, rfl⟩ <;> rfl
    exact fun hlimit hover => waitLimitExpiry_of_not_over hw htimed hhalted hlimit hover

end Sys2Proof.Machine
end

section
/-!
PROOFS. The issue of unit commands: the copy of the descriptor, the queue and the ticket (04_tile_core.md R99, R100).
-/

namespace Sys2Proof.Machine

/-! ## What a command that joins its queue leaves in the tile (04_tile_core.md R99, R100) -/

/-- The command that the issue of a descriptor puts into its unit's queue. -/
def Tile.newCmd (x : Tile) (u : UnitKind) (desc : List Word) : UCmd :=
  { seq := x.unitIssued u + 1, desc := desc, phase := .queued, rngBase := 0, rngKey := 0, raced := [], got := [],
    after := if u = .vector then some x.cubeIssued else none, mark := 0, out := none }

theorem getG_setG_same (x : Tile) {r : GReg} (v : Word) (h : r ≠ 0) : (x.setG r v).getG r = v := by
  rw [Tile.getG, if_neg h, setG_g_same x v h]

theorem getG_setG_of_ne (x : Tile) {r q : GReg} (v : Word) (h : q ≠ r) : (x.setG r v).getG q = x.getG q := by
  rw [Tile.getG, Tile.getG, setG_g_of_ne x v h]

theorem getG_of_g {x y : Tile} (h : y.g = x.g) (r : GReg) : y.getG r = x.getG r := by rw [Tile.getG, Tile.getG, h]

/-- The tile with the new command in its queue and counted, and no ticket written yet. -/
def Tile.joined (x : Tile) (u : UnitKind) (desc : List Word) : Tile :=
  match u with
  | .cube => { x with cubeQ := x.cubeQ ++ [x.newCmd .cube desc], cubeIssued := x.cubeIssued + 1 }
  | .vector => { x with vecQ := x.vecQ ++ [x.newCmd .vector desc], vecIssued := x.vecIssued + 1 }
  | .mover => { x with movQ := x.movQ ++ [x.newCmd .mover desc], movIssued := x.movIssued + 1 }

theorem enqueue_eq (x : Tile) (u : UnitKind) (rd : GReg) (desc : List Word) :
    x.enqueue u rd desc = (x.joined u desc).setG rd (ticket u (x.unitIssued u + 1)) := by
  cases u <;> rfl

section
variable (x : Tile) (u : UnitKind) (rd : GReg) (desc : List Word)

@[simp] theorem joined_g : (x.joined u desc).g = x.g := by cases u <;> rfl
@[simp] theorem joined_pc : (x.joined u desc).pc = x.pc := by cases u <;> rfl
@[simp] theorem joined_cycle : (x.joined u desc).cycle = x.cycle := by cases u <;> rfl
@[simp] theorem joined_stepping : (x.joined u desc).stepping = x.stepping := by cases u <;> rfl
@[simp] theorem joined_scratch : (x.joined u desc).scratch = x.scratch := by cases u <;> rfl
@[simp] theorem joined_unitDone (v : UnitKind) : (x.joined u desc).unitDone v = x.unitDone v := by cases u <;> cases v <;> rfl
@[simp] theorem joined_queue_same : (x.joined u desc).queue u = x.queue u ++ [x.newCmd u desc] := by cases u <;> rfl
@[simp] theorem joined_unitIssued_same : (x.joined u desc).unitIssued u = x.unitIssued u + 1 := by cases u <;> rfl

theorem joined_queue_other {v : UnitKind} (h : v ≠ u) : (x.joined u desc).queue v = x.queue v := by
  cases u <;> cases v <;> simp [Tile.joined, Tile.queue] at h ⊢

end

section
variable (x : Tile) (r : GReg) (v : Word)

@[simp] theorem setG_cycle : (x.setG r v).cycle = x.cycle := by rw [setG_eq]
@[simp] theorem setG_scratch : (x.setG r v).scratch = x.scratch := by rw [setG_eq]
@[simp] theorem setG_queue (u : UnitKind) : (x.setG r v).queue u = x.queue u := by rw [setG_eq]; cases u <;> rfl
@[simp] theorem setG_unitDone (u : UnitKind) : (x.setG r v).unitDone u = x.unitDone u := by rw [setG_eq]; cases u <;> rfl
@[simp] theorem setG_unitIssued (u : UnitKind) : (x.setG r v).unitIssued u = x.unitIssued u := by rw [setG_eq]; cases u <;> rfl

@[simp] theorem retired_queue (u : UnitKind) (n : Nat) : (x.retired n).queue u = x.queue u := by cases u <;> rfl
@[simp] theorem retired_unitDone (u : UnitKind) (n : Nat) : (x.retired n).unitDone u = x.unitDone u := by cases u <;> rfl
@[simp] theorem retired_unitIssued (u : UnitKind) (n : Nat) : (x.retired n).unitIssued u = x.unitIssued u := by cases u <;> rfl
@[simp] theorem retired_getG (q : GReg) (n : Nat) : (x.retired n).getG q = x.getG q := rfl

end

theorem depth_eq (u : UnitKind) : u.depth = if u = .mover then 16 else 8 := by cases u <;> rfl

theorem num_eq (u : UnitKind) : u.num = if u = .cube then 0 else if u = .vector then 1 else 2 := by cases u <;> rfl

/-! ## The issue (04_tile_core.md R99) -/

/-- The descriptor as the issue reads it. -/
def State.seeDesc (s : State) (t a : Nat) : List Word := (List.range 8).map fun k => s.seeWord t (a / 8 + k)

/-- With no write of it in flight a descriptor reads as what the scratchpad holds. -/
theorem seeDesc_of_still {s : State} {t a : Nat} (ha : a % 64 = 0)
    (hstill : ∀ k < 8, (s.tile t).wordInFlight (a / 8 + k) = false) : s.seeDesc t a = (s.tile t).readDesc a := by
  refine List.map_congr_left fun k hk => ?_
  rw [seeWord_of_still (hstill k (List.mem_range.1 hk)), Tile.spWord, show 8 * (a / 8 + k) = a + 8 * k by omega]

section
variable {s : State} {t : TileIx} {gd : Guard} {rd rs1 : GReg} {i : BitVec 12} {u : UnitKind} {a : Nat}
  (h : s.issues t gd) (ha : spAddr (s.tile t) rs1 i 64 = a)
include h ha

theorem issueUnit_of_bad_address (hbad : ¬ (a < spSize ∧ a % 64 = 0)) :
    s.issueUnit t gd rd rs1 i u false = s.tileExc t 0x0306 := by
  subst ha
  rw [State.issueUnit, issue_of_issues h]
  refine if_pos ?_
  simpa only [aligned, ← Bool.decide_and, Bool.not_eq_true', decide_eq_false_iff_not] using! hbad

theorem issueUnit_of_address (hsize : a < spSize) (haligned : a % 64 = 0) : s.issueUnit t gd rd rs1 i u false =
    match descCheck (s.tile t) u (s.seeDesc t a) with
    | some code => s.tick.tileExc t code
    | none =>
      if ((s.tile t).queue u).length < u.depth then (s.tick.updTile t fun x => x.enqueue u rd (s.seeDesc t a)).advance t 2
      else s.tick.updTile t fun x => { x with wait := some (.issue u rd (s.seeDesc t a)) } := by
  subst ha
  rw [State.issueUnit, issue_of_issues h]
  refine (if_neg ?_).trans (if_neg Bool.false_ne_true)
  simpa only [aligned, ← Bool.decide_and, Bool.not_eq_true', decide_eq_false_iff_not, not_not] using ⟨hsize, haligned⟩

theorem issueUnit_of_refused {code : Nat} (hsize : a < spSize) (haligned : a % 64 = 0)
    (hcheck : descCheck (s.tile t) u (s.seeDesc t a) = some code) :
    s.issueUnit t gd rd rs1 i u false = s.tick.tileExc t code := by
  rw [issueUnit_of_address h ha hsize haligned, hcheck]

theorem issueUnit_of_room (hsize : a < spSize) (haligned : a % 64 = 0)
    (hcheck : descCheck (s.tile t) u (s.seeDesc t a) = none) (hroom : ((s.tile t).queue u).length < u.depth) :
    s.issueUnit t gd rd rs1 i u false = s.tick.setTile t (((s.tile t).enqueue u rd (s.seeDesc t a)).retired 2) := by
  obtain ⟨hcanon, -, hstep, hpc⟩ := h.1
  rw [issueUnit_of_address h ha hsize haligned, hcheck]
  refine (if_pos hroom).trans (advance_setTile (s := s.tick) hcanon ?_ ?_ 2)
  · exact (congrArg Tile.stepping (enqueue_eq ..)).trans ((setG_stepping ..).trans ((joined_stepping ..).trans hstep))
  · rw [tick_tile]
    dsimp only
    rwa [enqueue_eq, setG_pc, joined_pc]

theorem issueUnit_of_full (hsize : a < spSize) (haligned : a % 64 = 0)
    (hcheck : descCheck (s.tile t) u (s.seeDesc t a) = none) (hfull : ((s.tile t).queue u).length = u.depth) :
    s.issueUnit t gd rd rs1 i u false = s.tick.setTile t ((s.tile t).hold (.issue u rd (s.seeDesc t a))) := by
  rw [issueUnit_of_address h ha hsize haligned, hcheck]
  exact if_neg (by omega)

end

/-- Settles O13: each form is `issueUnit` of its unit; a command that finds room joins its queue with its ticket. -/
theorem unitCommandIssue : Obligations.UnitCommandIssue := by
  unfold Obligations.UnitCommandIssue
  intro s t gd rd rs1 i u c hcanon h hform x a desc num
  have is_issue : exec c s = .next (s.issueUnit t gd rd rs1 i u false) := by
    simp only [List.mem_cons, Prod.mk.injEq, List.not_mem_nil, or_false] at hform
    rcases hform with ⟨rfl, rfl⟩ | ⟨rfl, rfl⟩ | ⟨rfl, rfl⟩ <;> rfl
  have ha : spAddr x rs1 i 64 = a := spAddr_eq ..
  rw [is_issue, ← depth_eq]
  refine ⟨fun hbad => congrArg _ (issueUnit_of_bad_address h ha hbad), fun hsize haligned => seeDesc_of_still haligned,
    fun hsize haligned => ⟨fun code hcheck => congrArg _ (issueUnit_of_refused h ha hsize haligned hcheck), fun hcheck hroom => ?_,
      fun hcheck hfull => congrArg _ (issueUnit_of_full h ha hsize haligned hcheck hfull)⟩⟩
  refine ⟨_, x.newCmd u desc, congrArg _ (issueUnit_of_room h ha hsize haligned hcheck hroom), ?_⟩
  simp only [enqueue_eq, retired_queue, setG_queue, joined_queue_same, retired_unitIssued, setG_unitIssued, joined_unitIssued_same,
    retired_unitDone, setG_unitDone, joined_unitDone, retired_getG]
  refine ⟨rfl, rfl, rfl, rfl, rfl, rfl, fun hrd => ?_, fun r hr => ?_, fun v hv => joined_queue_other x u desc hv, ?_, ?_, ?_⟩
  · rw [getG_setG_same _ _ hrd, ticket, num_eq]
  · rw [getG_setG_of_ne _ _ hr, getG_of_g (joined_g ..)]
  · exact (setG_scratch ..).trans (joined_scratch ..)
  · exact congrArg (· + 1) ((setG_pc ..).trans (joined_pc ..))
  · exact congrArg (· + 2) ((setG_cycle ..).trans (joined_cycle ..))

end Sys2Proof.Machine
end

section
/-!
PROOFS. The CSRs of a tile (04_tile_core.md R107, R115; 07_vector_engine.md R186).
-/

namespace Sys2Proof.Machine

/-! ## What a CSR reads (04_tile_core.md R115) -/

theorem ofBits_zero (f : Nat → Bool) : ofBits 0 f = 0 := rfl

theorem ofBits_succ (n : Nat) (f : Nat → Bool) : ofBits (n + 1) f = ofBits n f + if f n then 2 ^ n else 0 := by
  rw [ofBits, List.range_succ, List.foldl_append, List.foldl_cons, List.foldl_nil, ← ofBits]
  split <;> rfl

section
variable (x : Tile) (t : Nat) (cyc : Word)

theorem preds_eq : x.preds = 1 + (if x.p[1] then 2 else 0) + (if x.p[2] then 4 else 0) + (if x.p[3] then 8 else 0) +
    (if x.p[4] then 16 else 0) + (if x.p[5] then 32 else 0) + (if x.p[6] then 64 else 0) + (if x.p[7] then 128 else 0) := by
  simp only [Tile.preds, ofBits_succ, ofBits_zero]
  rfl

theorem unitFlags_zeroExtend : x.unitFlags.zeroExtend 64 = BitVec.ofNat 64 ((if x.mxSat then 1 else 0) + (if x.mxNan then 2 else 0) +
    (if x.vxSat then 4 else 0) + (if x.vxNan then 8 else 0)) := by
  simp only [Tile.unitFlags, ofBits_succ, ofBits_zero]
  split_ifs <;> rfl

theorem csr_evSrc (k : Fin 16) : x.csr t cyc (0x10 + k.val) = some ((x.evSrc[k.val]).zeroExtend 64) := by
  have : (0x10 + k.val) - 0x10 = k.val := Nat.add_sub_cancel_left ..
  simp (disch := omega) only [Tile.csr, if_neg, dif_pos, this]

/-- The CSR of stream `k` with the place `o` in its group. -/
theorem csr_rng (k : Fin 4) {num o : Nat} (ho : o < 4) (hnum : num = 0x100 + 16 * k.val + o) : x.csr t cyc num = match o with
    | 0 => some ((x.rng[k.val]).key.setWidth 64)
    | 1 => some (((x.rng[k.val]).key >>> 64).setWidth 64)
    | 2 => some ((x.rng[k.val]).ctr.setWidth 64)
    | _ => some (((x.rng[k.val]).ctr >>> 64).setWidth 64) := by
  have index : (num - 0x100) / 16 = k.val := by omega
  have low : num % 16 = o := by omega
  have range : 0x100 ≤ num ∧ num < 0x140 := by omega
  simp (disch := omega) only [Tile.csr, if_neg, dif_neg, dif_pos range, index, low]
  match o with
  | 0 | 1 | 2 | 3 => rfl

/-- The numbers that are no CSR (04_tile_core.md R115). -/
def NoCsr (num : Nat) : Prop :=
  (0xA < num ∧ num < 0x10) ∨ (0x1F < num ∧ num < 0x100) ∨ 0x13F < num ∨ (0xFF < num ∧ 3 < num % 16)

theorem csr_of_noCsr {num : Nat} (h : NoCsr num) : x.csr t cyc num = none := by
  unfold NoCsr at h
  have below : ¬ num ≤ 0xA := by omega
  have no_evSrc : ¬ (0x10 ≤ num ∧ num < 0x20) := by omega
  simp (disch := omega) only [Tile.csr, if_neg, dif_neg no_evSrc]
  split <;> rfl

/-! ## What a write of a CSR does (04_tile_core.md R107, R115) -/

theorem csrWrite_of_noCsr {num : Nat} (h : NoCsr num) (v : Word) : x.csrWrite num v = .inr 0x0307 := by
  unfold NoCsr at h
  have no_evSrc : ¬ (0x10 ≤ num ∧ num < 0x20) := by omega
  simp (disch := omega) only [Tile.csrWrite, if_neg, dif_neg no_evSrc]
  split <;> rfl

theorem csrWrite_of_readOnly {num : Nat} (h : num < 4 ∨ (6 < num ∧ num < 0xB)) (v : Word) : x.csrWrite num v = .inl x := by
  have below : num ≤ 0xA := by omega
  simp (disch := omega) only [Tile.csrWrite, if_neg, if_pos below]

theorem csrWrite_evSrc (k : Fin 16) (v : Word) : x.csrWrite (0x10 + k.val) v =
    if x.evSrcOk v.toNat then .inl { x with evSrc := x.evSrc.set k.val (v.setWidth 9) } else .inr 0x0305 := by
  have index : (0x10 + k.val) - 0x10 = k.val := Nat.add_sub_cancel_left ..
  have range : 0x10 ≤ 0x10 + k.val ∧ 0x10 + k.val < 0x20 := by omega
  simp (disch := omega) only [Tile.csrWrite, if_neg, dif_pos range, index]

theorem csrWrite_ctrLow (k : Fin 4) (v : Word) : x.csrWrite (0x102 + 16 * k.val) v =
    .inl { x with rng := x.rng.set k.val { x.rng[k.val] with ctr := setHalf (x.rng[k.val]).ctr false v } } := by
  have index : (0x102 + 16 * k.val - 0x100) / 16 = k.val := by omega
  have low : (0x102 + 16 * k.val) % 16 = 2 := by omega
  have range : 0x100 ≤ 0x102 + 16 * k.val ∧ 0x102 + 16 * k.val < 0x140 := by omega
  simp (disch := omega) only [Tile.csrWrite, if_neg, dif_neg, dif_pos range, index, low]

/-- PREDS as it is written: p0 keeps its value. -/
def Tile.withPreds (x : Tile) (v : Word) : Tile :=
  { x with p := Vector.ofFn fun i : Fin 8 => if i = 0 then x.p[0] else bit v.toNat i.val }

theorem csrWrite_preds (v : Word) : x.csrWrite 4 v = .inl (x.withPreds v) := rfl

theorem getP_withPreds (v : Word) (j : Fin 8) : (x.withPreds v).getP j = if j = 0 then true else v.getLsbD j.val := by
  rw [Tile.getP, ← bit_toNat]
  split
  · rfl
  case isFalse h => simp only [Tile.withPreds, Vector.getElem_ofFn, Fin.eta, if_neg h]

theorem csrWrite_unitFlags (v : Word) : x.csrWrite 5 v =
    .inl { x with mxSat := x.mxSat && !v.getLsbD 0, mxNan := x.mxNan && !v.getLsbD 1,
                  vxSat := x.vxSat && !v.getLsbD 2, vxNan := x.vxNan && !v.getLsbD 3 } := by
  simp only [← bit_toNat]
  rfl

/-- A write of a CSR reaches neither the PC nor the single step. -/
theorem csrWrite_keeps {num : Nat} {v : Word} {y : Tile} (h : x.csrWrite num v = .inl y) :
    y.stepping = x.stepping ∧ y.pc = x.pc := by
  unfold Tile.csrWrite at h
  split at h
  · cases h; exact ⟨rfl, rfl⟩
  split at h
  · cases h; exact ⟨rfl, rfl⟩
  split at h
  · cases h; exact ⟨rfl, rfl⟩
  split at h
  · cases h; exact ⟨rfl, rfl⟩
  split at h
  · split at h
    · cases h; exact ⟨rfl, rfl⟩
    · cases h
  split at h
  · dsimp only at h
    split at h
    case h_5 => cases h
    all_goals cases h; exact ⟨rfl, rfl⟩
  · cases h

end

/-! ## CSRR and CSRW -/

section
variable {s : State} {t : TileIx} {gd : Guard} (h : s.issues t gd) {num : BitVec 12}
include h

theorem csrr_of_value {rd : GReg} {v : Word} (hnum : num ≠ 3) (hv : (s.tile t).csr t (s.tile t).cycle num.toNat = some v) :
    exec (.csrr t gd rd num) s = s.withTile t (((s.tile t).setG rd v).retired 1) := by
  refine congrArg Host.Outcome.next ((issue_of_issues h _).trans ?_)
  simp only [if_neg hnum, hv]
  exact advance_updTile h.1 (f := fun x => x.setG rd v) (fun _ => setG_stepping ..) (fun _ => setG_pc ..) 1

theorem csrr_of_noCsr {rd : GReg} (hnum : NoCsr num.toNat) : exec (.csrr t gd rd num) s = .next (s.tileExc t 0x0307) := by
  have not_cycle : num ≠ 3 := by
    rintro rfl
    revert hnum
    unfold NoCsr
    decide
  refine congrArg Host.Outcome.next ((issue_of_issues h _).trans ?_)
  simp only [if_neg not_cycle, csr_of_noCsr _ _ _ hnum]

theorem csrw_of_tile {rs1 : GReg} {y : Tile} (hy : (s.tile t).csrWrite num.toNat ((s.tile t).getG rs1) = .inl y) :
    exec (.csrw t gd rs1 num) s = s.withTile t (y.retired 1) := by
  obtain ⟨hcanon, -, hstep, hpc⟩ := h.1
  obtain ⟨same_step, same_pc⟩ := csrWrite_keeps _ hy
  refine congrArg Host.Outcome.next ((issue_of_issues h _).trans ?_)
  simp only [hy]
  exact advance_setTile hcanon (same_step.trans hstep) (same_pc ▸ hpc) 1

theorem csrw_of_code {rs1 : GReg} {code : Nat} (hcode : (s.tile t).csrWrite num.toNat ((s.tile t).getG rs1) = .inr code) :
    exec (.csrw t gd rs1 num) s = .next (s.tileExc t code) := by
  refine congrArg Host.Outcome.next ((issue_of_issues h _).trans ?_)
  simp only [hcode]

end

/-- Settles O14: what each number reads and writes, carried by `csrr_of_value`, `csrw_of_tile` and the refusals. -/
theorem csrReadsAndWrites : Obligations.CsrReadsAndWrites := by
  unfold Obligations.CsrReadsAndWrites
  intro s t gd rd rs1 hcanon h x v got put
  have reads {k : BitVec 12} {n : Nat} (hk : k ≠ 3) (hn : x.csr t x.cycle k.toNat = some (BitVec.ofNat 64 n)) : got k n :=
    csrr_of_value h hk hn
  have writes {k : BitVec 12} {y : Tile} (hy : x.csrWrite k.toNat v = .inl y) : put k y := csrw_of_tile h hy
  have csr_number {k : Nat} (hk : k < 2 ^ 12) : (BitVec.ofNat 12 k).toNat = k := Nat.mod_eq_of_lt hk
  have not_cycle {k : Nat} (hk : k < 2 ^ 12) (h3 : k ≠ 3) : BitVec.ofNat 12 k ≠ 3 := fun e => h3 (by
    have := congrArg BitVec.toNat e
    rwa [csr_number hk] at this)
  have of_32 (y : BitVec 32) : y.zeroExtend 64 = BitVec.ofNat 64 y.toNat := (BitVec.ofNat_toNat ..).symm
  refine ⟨reads (by decide) rfl, reads (by decide) (congrArg (fun n => some (BitVec.ofNat 64 n)) (preds_eq x)),
    reads (by decide) (congrArg some (unitFlags_zeroExtend x)), reads (by decide) (congrArg some (of_32 _)),
    reads (by decide) (congrArg some (BitVec.ofNat_toNat ..).symm), reads (by decide) (congrArg some (of_32 _)),
    reads (by decide) (congrArg some (of_32 _)), reads (by decide) (congrArg some (of_32 _)), fun k => ?evSrc, fun k => ?rng,
    fun k hk => writes (csrWrite_of_readOnly x hk v), ⟨_, writes (csrWrite_preds x v), getP_withPreds x v, rfl⟩,
    writes (csrWrite_unitFlags x v), writes rfl, fun k => ?putEvSrc, fun k => ?putCtr, fun k hk => ⟨csrr_of_noCsr h hk,
    csrw_of_code h (csrWrite_of_noCsr x hk v)⟩⟩
  case evSrc =>
    refine reads (not_cycle (by omega) (by omega)) ?_
    rw [csr_number (by omega), csr_evSrc, BitVec.ofNat_toNat]
  case rng =>
    have high_half (y : BitVec 128) : (y >>> 64).setWidth 64 = BitVec.ofNat 64 (y.toNat / 2 ^ 64) := by
      rw [← BitVec.ofNat_toNat, BitVec.toNat_ushiftRight, Nat.shiftRight_eq_div_pow]
    have low_half (y : BitVec 128) : y.setWidth 64 = BitVec.ofNat 64 (y.toNat % 2 ^ 64) :=
      BitVec.eq_of_toNat_eq (by rw [BitVec.toNat_setWidth, BitVec.toNat_ofNat, Nat.mod_mod])
    refine ⟨?_, ?_, ?_, ?_⟩ <;> refine reads (not_cycle (by omega) (by omega)) ?_ <;> rw [csr_number (by omega)]
    · exact (csr_rng x t _ k (o := 0) (by decide) (by omega)).trans (congrArg some (low_half _))
    · exact (csr_rng x t _ k (o := 1) (by decide) (by omega)).trans (congrArg some (high_half _))
    · exact (csr_rng x t _ k (o := 2) (by decide) (by omega)).trans (congrArg some (low_half _))
    · exact (csr_rng x t _ k (o := 3) (by decide) (by omega)).trans (congrArg some (high_half _))
  case putEvSrc =>
    intro c
    have hc : c.toNat = 0x10 + k.val := csr_number (by omega)
    have hwrite := csrWrite_evSrc x k v
    rw [← hc] at hwrite
    split
    case isTrue hok => exact writes (by rw [hwrite, if_pos hok])
    case isFalse hok => exact csrw_of_code h (by rw [hwrite, if_neg hok])
  case putCtr =>
    refine writes ?_
    rw [csr_number (by omega)]
    exact csrWrite_ctrLow x k v

end Sys2Proof.Machine
end

section
/-!
PROOFS. What an exception and HALT leave of a tile (04_tile_core.md R92, R109, R110, R113).
-/

namespace Sys2Proof.Machine

section
variable {s : State} {t : TileIx} {gd : Guard}

/-- A tile in no wait of a SEND has no cycles of such a wait to count. -/
theorem countWait_of_no_send (h : ∀ ch reg n pd nb, (s.tile t).wait ≠ some (.sendWait ch reg n pd nb)) :
    s.countWait t = s := by
  unfold State.countWait
  split
  case h_1 ch reg n pd nb hwait => exact absurd hwait (h ch reg n pd nb)
  case h_2 => rfl

/-- A tile that runs no unit command and waits for no SEND halts with nothing else changed. -/
theorem haltTile_of_quiet (hrun : (s.tile t).anyRunning = false)
    (hwait : ∀ ch reg n pd nb, (s.tile t).wait ≠ some (.sendWait ch reg n pd nb)) (cause code : Nat) :
    s.haltTile t cause code = s.setTile t ((s.tile t).stop cause code) := by
  rw [State.haltTile, hrun, if_neg Bool.false_ne_true, countWait_of_no_send hwait]
  rfl

/-- What HALT waits for: the three queues empty. -/
theorem unitsIdle_all (x : Tile) : x.unitsIdle 7 = true ↔ x.cubeQ = [] ∧ x.vecQ = [] ∧ x.movQ = [] :=
  (unitsIdle_iff x 7).trans (by simp)

theorem trap_of_issues (h : s.issues t gd) (imm : BitVec 12) :
    exec (.trap t gd imm) s = .next ((s.setTile t { s.tile t with trapImm := imm }).tileExc t 0x0308) :=
  congrArg Host.Outcome.next (issue_of_issues h _)

theorem nop_at_last_word (hruns : s.runs t = true) (hguard : (s.tile t).guard gd = true) (hpc : (s.tile t).pc = 32767) :
    exec (.nop t gd) s =
      .next ((s.setTile t { s.tile t with cycle := (s.tile t).cycle + 1 }).tileExc t 0x0307) := by
  have past : ¬ (s.tile t).pc < 32767 := by omega
  show Host.Outcome.next (s.issue t gd fun s => s.advance t 1) = _
  rw [State.issue, if_pos hruns, if_pos hguard, State.advance, if_neg past]
  rfl

theorem halt_of_idle (h : s.issues t gd) (hidle : (s.tile t).unitsIdle 7 = true) :
    exec (.halt t gd) s = .next (s.haltDone t) :=
  congrArg Host.Outcome.next ((issue_of_issues h _).trans (if_pos hidle))

theorem halt_of_busy (h : s.issues t gd) (hbusy : ¬ (s.tile t).unitsIdle 7 = true) :
    exec (.halt t gd) s = s.withTile t ((s.tile t).hold .halt) :=
  congrArg Host.Outcome.next ((issue_of_issues h _).trans (if_neg hbusy))

/-- A tile is in the partition it was in, whatever it holds itself. -/
theorem partOf_setTile (s : State) (t k : Nat) (y : Tile) : (s.setTile t y).partOf k = s.partOf k := rfl

theorem haltDone_of_no_part (h : s.partOf t = none) : s.haltDone t = s.setTile t (s.tile t).haltNormal := by
  have none' : (s.updTile t Tile.haltNormal).partOf t = none := h
  rw [State.haltDone, none']
  rfl

end

/-- Settles O15: an exception is the tile's stop and one report; HALT ends by the tile's own stop, or waits. -/
theorem tileExceptionEntry : Obligations.TileExceptionEntry := by
  unfold Obligations.TileExceptionEntry
  intro s t gd _
  refine ⟨fun code hrun hwait => ?_, fun imm h => trap_of_issues h imm, nop_at_last_word, fun h => ⟨?_, ?_⟩⟩
  · rw [State.tileExc, haltTile_of_quiet hrun hwait]
    rfl
  · intro hc hv hm hpart
    rw [halt_of_idle h ((unitsIdle_all _).2 ⟨hc, hv, hm⟩), haltDone_of_no_part hpart]
    rfl
  · intro hbusy
    refine halt_of_busy h fun hidle => ?_
    obtain ⟨hc, hv, hm⟩ := (unitsIdle_all _).1 hidle
    rcases hbusy with h' | h' | h'
    · exact h' hc
    · exact h' hv
    · exact h' hm

end Sys2Proof.Machine
end

section
/-!
PROOFS. The channel instructions SEND, RECV, RAVAIL and RREL (04_tile_core.md R90 to R92, R95, R96, R98).
-/

namespace Sys2Proof.Machine

/-! ## Counters of a partition (02_fabric.md R51) -/

/-- A counter of a partition is a register. -/
theorem countPart_eq (s : State) (t : Nat) (f : Fld) (n : Nat) :
    s.countPart t f n = { s with regs := (s.countPart t f n).regs } := by
  unfold State.countPart
  split
  · split <;> rfl
  · rfl

@[simp] theorem countPart_tile (s : State) (t : Nat) (f : Fld) (n k : Nat) :
    (s.countPart t f n).tile k = s.tile k := by
  rw [countPart_eq]
  rfl

@[simp] theorem countPart_fab (s : State) (t : Nat) (f : Fld) (n : Nat) : (s.countPart t f n).fab = s.fab := by
  rw [countPart_eq]

/-! ## Registers and endpoints of a tile -/

section
variable (x : Tile) (i : Fin 8) (b : Bool) (n ch : Nat)

@[simp] theorem setP_eps : (x.setP i b).eps = x.eps := by rw [setP_eq]
@[simp] theorem setP_scratch : (x.setP i b).scratch = x.scratch := by rw [setP_eq]
@[simp] theorem setP_cycle : (x.setP i b).cycle = x.cycle := by rw [setP_eq]
@[simp] theorem setP_recvInfo : (x.setP i b).recvInfo = x.recvInfo := by rw [setP_eq]
@[simp] theorem setP_unitFlags : (x.setP i b).unitFlags = x.unitFlags := by rw [setP_eq]; rfl
@[simp] theorem setP_ep : (x.setP i b).ep ch = x.ep ch := by rw [Tile.ep, setP_eps, Tile.ep]
@[simp] theorem retired_ep : (x.retired n).ep ch = x.ep ch := rfl
@[simp] theorem retired_eps : (x.retired n).eps = x.eps := rfl
@[simp] theorem retired_recvInfo : (x.retired n).recvInfo = x.recvInfo := rfl
@[simp] theorem retired_unitFlags : (x.retired n).unitFlags = x.unitFlags := rfl
@[simp] theorem retired_getP : (x.retired n).getP i = x.getP i := rfl

end

/-- Received words reach the general registers only. -/
theorem setWords_eq (x : Tile) (reg : GReg) (n : Nat) (w : List Word) :
    x.setWords reg n w = { x with g := (x.setWords reg n w).g } := by
  refine List.foldlRecOn (motive := fun y : Tile => y = { x with g := y.g }) _ _ rfl fun y hy i _ => ?_
  split
  · rw [setG_eq, hy]
  · exact hy

@[simp] theorem setWords_eps (x : Tile) (reg : GReg) (n : Nat) (w : List Word) : (x.setWords reg n w).eps = x.eps := by
  rw [setWords_eq]
@[simp] theorem setWords_pc (x : Tile) (reg : GReg) (n : Nat) (w : List Word) : (x.setWords reg n w).pc = x.pc := by
  rw [setWords_eq]
@[simp] theorem setWords_stepping (x : Tile) (reg : GReg) (n : Nat) (w : List Word) :
    (x.setWords reg n w).stepping = x.stepping := by rw [setWords_eq]

/-- The registers of the range take the words, zero past their end; the others keep their values. -/
theorem setWords_g (x : Tile) (reg : GReg) (n : Nat) (w : List Word) {r : GReg} (hr : r ≠ 0) :
    (x.setWords reg n w).g[r.val] =
      if reg.val ≤ r.val ∧ r.val < reg.val + n then w.getD (r.val - reg.val) 0 else x.g[r.val] := by
  induction n with
  | zero =>
    rw [if_neg (by omega)]
    rfl
  | succ n ih =>
    have last : x.setWords reg (n + 1) w = if h : reg.val + n < 32
        then (x.setWords reg n w).setG ⟨reg.val + n, h⟩ (w.getD n 0) else x.setWords reg n w := by
      rw [Tile.setWords, List.range_succ, List.foldl_append]
      rfl
    rw [last]
    split
    next h =>
      by_cases e : r = ⟨reg.val + n, h⟩
      · subst e
        rw [setG_g_same _ _ hr, if_pos (by simp)]
        simp
      · have apart : r.val ≠ reg.val + n := fun k => e (Fin.ext k)
        rw [setG_g_of_ne _ _ e, ih]
        exact if_congr (by omega) rfl rfl
    next h =>
      rw [ih]
      exact if_congr (by omega) rfl rfl

/-! ## SEND (04_tile_core.md R92, R95, R98) -/

/-- The words that a channel instruction takes from its registers. -/
def Tile.words (x : Tile) (reg : GReg) (n : Nat) : List Word :=
  (List.range n).map fun i => if h : reg.val + i < 32 then x.getG ⟨reg.val + i, h⟩ else 0

/-- The packet of a SEND. -/
def Tile.packet (x : Tile) (t : Nat) (ch : Fin 64) (reg : GReg) (n : Nat) : NetMsg :=
  { kind := if (x.ep ch).kind = .hub then .request (x.ep ch).service else .data, srcTile := t, srcEp := ch.val,
    dstTile := (x.ep ch).peerTile, dstEp := (x.ep ch).peerEp, words := x.words reg n,
    flags := if (x.ep ch).kind = .hub && (x.ep ch).service = 0 then x.unitFlags else 0, code := 0 }

/-- The tile of a SEND that has taken its credit and the flags of a STEP_DONE. -/
def Tile.spent (x : Tile) (ch : Fin 64) : Tile :=
  let y := x.updEp ch fun e => { e with credits := e.credits - 1 }
  let y := if (x.ep ch).kind = .hub && (x.ep ch).service = 0 then
    { y with mxSat := false, mxNan := false, vxSat := false, vxNan := false } else y
  if (x.ep ch).kind = .hub && replies (x.ep ch).service then { y with replyFrom := some ch } else y

/-- The tile whose UNIT_FLAGS a STEP_DONE has taken along. -/
def Tile.flagsTaken (x : Tile) : Tile := { x with mxSat := false, mxNan := false, vxSat := false, vxNan := false }

@[simp] theorem flagsTaken_ep (x : Tile) (ch : Nat) : x.flagsTaken.ep ch = x.ep ch := rfl
@[simp] theorem flagsTaken_unitFlags (x : Tile) : x.flagsTaken.unitFlags = 0 := rfl

/-- The end of a channel instruction that went: its wait is over, and with NB p[pd] is 1. -/
def Tile.went (x : Tile) (pd : Fin 8) (nb : Bool) : Tile :=
  if nb then { x with wait := none }.setP pd true else { x with wait := none }

/-- What a channel instruction that went leaves of the tile. -/
theorem went_eq (x : Tile) (pd : Fin 8) (nb : Bool) : x.went pd nb = { x with wait := none, p := (x.went pd nb).p } := by
  unfold Tile.went
  split
  · rw [setP_eq]
  · rfl

@[simp] theorem went_g (x : Tile) (pd : Fin 8) (nb : Bool) : (x.went pd nb).g = x.g := by rw [went_eq]
@[simp] theorem went_pc (x : Tile) (pd : Fin 8) (nb : Bool) : (x.went pd nb).pc = x.pc := by rw [went_eq]
@[simp] theorem went_stepping (x : Tile) (pd : Fin 8) (nb : Bool) : (x.went pd nb).stepping = x.stepping := by rw [went_eq]
@[simp] theorem went_scratch (x : Tile) (pd : Fin 8) (nb : Bool) : (x.went pd nb).scratch = x.scratch := by rw [went_eq]
@[simp] theorem went_cycle (x : Tile) (pd : Fin 8) (nb : Bool) : (x.went pd nb).cycle = x.cycle := by rw [went_eq]
@[simp] theorem went_recvInfo (x : Tile) (pd : Fin 8) (nb : Bool) : (x.went pd nb).recvInfo = x.recvInfo := by rw [went_eq]
@[simp] theorem went_unitFlags (x : Tile) (pd : Fin 8) (nb : Bool) : (x.went pd nb).unitFlags = x.unitFlags := by
  rw [went_eq]; rfl
@[simp] theorem went_ep (x : Tile) (pd : Fin 8) (nb : Bool) (ch : Nat) : (x.went pd nb).ep ch = x.ep ch := by
  rw [went_eq]; rfl

theorem getP_went (x : Tile) (pd : Fin 8) : (x.went pd true).getP pd = true := getP_setP_true ..

/-- The tile of a RECV that has taken its packet: the words are in the registers, and RECV_INFO names the packet. -/
def Tile.received (x : Tile) (ch : Fin 64) (reg : GReg) (n : Nat) (q : Packet) (rest : List Packet) : Tile :=
  { (x.updEp ch fun e => { e with queue := rest }).setWords reg n q.words with
    recvInfo := Machine.recvInfo q.words.length q.srcEp (tileId q.srcTile) }

/-- The return of the credit of a RECV. -/
def Tile.creditFor (x : Tile) (t : Nat) (ch : Fin 64) : NetMsg :=
  { kind := .credit, srcTile := t, srcEp := ch.val, dstTile := (x.ep ch).peerTile, dstEp := (x.ep ch).peerEp, words := [],
    flags := 0, code := 1 }

section
variable (s : State) (t : TileIx) (ch : Fin 64) (reg : GReg) (n : Nat)

@[simp] theorem sendPacket_tile : (s.sendPacket t ch reg n).tile t = (s.tile t).spent ch :=
  (countPart_tile ..).trans (tile_setTile_same ..)

@[simp] theorem sendPacket_net : (s.sendPacket t ch reg n).fab.net = s.fab.net ++ [(s.tile t).packet t ch reg n] :=
  congrArg Fabric.net (countPart_fab ..)

end

section
variable {s : State} {t : TileIx} {gd : Guard} {reg : GReg} {ch : Fin 64} {n : Fin 16} {pd : Fin 8} {nb : Bool}

/-- Away from the last word, an instruction of a tile that does not single-step ends with the tile retired. -/
theorem advance_of_low {s : State} (hstep : (s.tile t).stepping = false) (hpc : (s.tile t).pc < 32767) (n : Nat) :
    s.advance t n = s.setTile t ((s.tile t).retired n) := by
  rw [State.advance, if_pos hpc, State.updTile]
  exact congrArg (s.setTile t) (boundary_of_not_stepping (x := (s.tile t).retired n) hstep)

/-- A channel instruction that went ends on the tile that its packet left. -/
theorem advance_went {u : State} {x : Tile} (hx : u.tile t = x) (hstep : x.stepping = false) (hpc : x.pc < 32767) (n : Nat) :
    let v := (u.updTile t fun x => x.went pd nb).advance t n
    v.tile t = (x.went pd nb).retired n ∧ v.fab = u.fab := by
  intro v
  have hw : (u.updTile t fun x => x.went pd nb).tile t = x.went pd nb := by rw [tile_updTile_same, hx]
  have hv : v = (u.updTile t fun x => x.went pd nb).setTile t ((x.went pd nb).retired n) := by
    rw [← hw]
    exact advance_of_low (by rw [hw, went_stepping, hstep]) (by rwa [hw, went_pc]) n
  rw [hv]
  exact ⟨tile_setTile_same .., rfl⟩

section
variable (h : s.issues t gd) (hrange : badRange reg n = false)
include h hrange

theorem send_of_issues : exec (.send t gd reg ch n pd nb) s = .next (s.doSend t ch reg n pd nb) := by
  refine congrArg Host.Outcome.next ((if_neg ?_).trans (issue_of_issues h _))
  rw [hrange, Bool.and_false]
  exact Bool.false_ne_true

theorem recv_of_issues : exec (.recv t gd reg ch n pd nb false) s = .next (s.doRecv t ch reg n pd nb) := by
  refine congrArg Host.Outcome.next ((if_neg ?_).trans ((issue_of_issues h _).trans (if_neg ?_)))
  · rw [hrange, Bool.and_false]
    exact Bool.false_ne_true
  · exact Bool.false_ne_true

/-- A SEND that is ready leaves its packet on the network and its tile with a credit less. -/
theorem send_of_ready (hready : (s.tile t).sendState ch = .ready) :
    ∃ u, exec (.send t gd reg ch n pd nb) s = .next u ∧
      u.tile t = (((s.tile t).spent ch).went pd nb).retired (chanCycles n) ∧
      u.fab.net = s.fab.net ++ [(s.tile t).packet t ch reg n] := by
  have hstep : ((s.tile t).spent ch).stepping = false := by
    obtain ⟨⟨-, -, hstep, -⟩, -⟩ := h
    unfold Tile.spent
    dsimp only
    split_ifs <;> exact hstep
  have hpc : ((s.tile t).spent ch).pc < 32767 := by
    obtain ⟨⟨-, -, -, hpc⟩, -⟩ := h
    unfold Tile.spent
    dsimp only
    split_ifs <;> exact hpc
  have hdone : s.doSend t ch reg n pd nb =
      ((s.sendPacket t ch reg n).updTile t fun x => x.went pd nb).advance t (chanCycles n) := by
    simp only [State.doSend, hready]
    rfl
  obtain ⟨htile, hfab⟩ := advance_went (pd := pd) (nb := nb) (sendPacket_tile s t ch reg n) hstep hpc (chanCycles n)
  refine ⟨_, send_of_issues h hrange, ?_, ?_⟩
  · rw [hdone, htile]
  · rw [hdone, hfab, sendPacket_net]

theorem send_of_noCredit (hstate : (s.tile t).sendState ch = .noCredit) :
    exec (.send t gd reg ch n pd true) s =
      s.withTile t (({ s.tile t with wait := none }.setP pd false).retired (chanCycles n)) ∧
    exec (.send t gd reg ch n pd false) s = s.withTile t ((s.tile t).hold (.sendWait ch reg n pd false)) := by
  constructor
  · rw [send_of_issues h hrange, State.doSend]
    simp only [hstate, if_true]
    exact congrArg Host.Outcome.next (advance_updTile h.1 (f := fun x => { x with wait := none }.setP pd false)
      (fun _ => setP_stepping ..) (fun _ => setP_pc ..) _)
  · rw [send_of_issues h hrange, State.doSend]
    simp only [hstate, Bool.false_eq_true, if_false]
    rfl

/-- A RECV on a MSG endpoint with a packet takes the oldest one and sends its credit back. -/
theorem recv_of_packet (hkind : ((s.tile t).ep ch).kind = .msg) {q : Packet} {rest : List Packet}
    (hqueue : ((s.tile t).ep ch).queue = q :: rest) :
    ∃ u, exec (.recv t gd reg ch n pd nb false) s = .next u ∧
      u.tile t = (((s.tile t).received ch reg n q rest).went pd nb).retired (chanCycles n) ∧
      u.fab.net = s.fab.net ++ [(s.tile t).creditFor t ch] := by
  obtain ⟨⟨-, -, hstep, hpc⟩, -⟩ := id h
  have hready : (s.tile t).recvReady ch = true := by simp only [Tile.recvReady, hkind, hqueue, List.isEmpty_cons, Bool.not_false]
  have htaken : s.takePacket t ch reg n = ((s.updTile t fun x => x.received ch reg n q rest).inject
      ((s.tile t).creditFor t ch)).countPart t Reg.PART_MSG_PKTS 1 := by
    simp only [State.takePacket, hkind, hqueue]
    rfl
  have hdone : s.doRecv t ch reg n pd nb =
      ((s.takePacket t ch reg n).updTile t fun x => x.went pd nb).advance t (chanCycles n) := by
    simp only [State.doRecv, hkind, hready]
    rfl
  have htile : (s.takePacket t ch reg n).tile t = (s.tile t).received ch reg n q rest := by
    rw [htaken, countPart_tile, inject_tile, tile_updTile_same]
  obtain ⟨hgone, hfab⟩ := advance_went (pd := pd) (nb := nb) htile
    ((setWords_stepping ..).trans hstep) (lt_of_eq_of_lt (setWords_pc ..) hpc) (chanCycles n)
  refine ⟨_, recv_of_issues h hrange, ?_, ?_⟩
  · rw [hdone, hgone]
  · rw [hdone, hfab, htaken, countPart_fab]
    rfl

theorem recv_of_empty (hkind : ((s.tile t).ep ch).kind = .msg) (hqueue : ((s.tile t).ep ch).queue = []) :
    exec (.recv t gd reg ch n pd true false) s = s.withTile t (((s.tile t).setP pd false).retired (chanCycles n)) ∧
    exec (.recv t gd reg ch n pd false false) s = s.withTile t ((s.tile t).hold (.recvWait ch reg n pd false)) := by
  have hready : (s.tile t).recvReady ch = false := by simp only [Tile.recvReady, hkind, hqueue, List.isEmpty_nil, Bool.not_true]
  constructor
  · rw [recv_of_issues h hrange, State.doRecv]
    simp only [hkind, hready]
    exact congrArg Host.Outcome.next (advance_updTile h.1 (f := fun x => x.setP pd false)
      (fun _ => setP_stepping ..) (fun _ => setP_pc ..) _)
  · rw [recv_of_issues h hrange, State.doRecv]
    simp only [hkind, hready]
    rfl

theorem channel_of_wrong_kind (hmsg : ((s.tile t).ep ch).kind ≠ .msg) (hhub : ((s.tile t).ep ch).kind ≠ .hub) :
    exec (.send t gd reg ch n pd nb) s = .next (s.tileExc t 0x0302) ∧
    exec (.recv t gd reg ch n pd nb false) s = .next (s.tileExc t 0x0302) := by
  have neither : (!((s.tile t).ep ch).kind = .msg || ((s.tile t).ep ch).kind = .hub) = true := by simp [hmsg, hhub]
  constructor
  · rw [send_of_issues h hrange]
    have hstate : (s.tile t).sendState ch = .wrongKind := if_pos (by simp [hmsg, hhub])
    simp only [State.doSend, hstate]
  · rw [recv_of_issues h hrange]
    exact congrArg Host.Outcome.next (if_pos (by simp [hmsg, hhub]))

end

/-! ## Stream rings (04_tile_core.md R96) -/

section
variable (h : s.issues t gd)
include h

theorem ravail_of_sin (hkind : ((s.tile t).ep ch).kind = .sin) : exec (.ravail t gd reg ch) s =
    s.withTile t (((s.tile t).setG reg (BitVec.ofNat 64 ((s.tile t).ep ch).ready)).retired 1) := by
  refine congrArg Host.Outcome.next ((issue_of_issues h _).trans ((if_neg (not_not.2 hkind)).trans ?_))
  exact advance_updTile h.1 (f := fun x => x.setG reg (BitVec.ofNat 64 (x.ep ch).ready))
    (fun _ => setG_stepping ..) (fun _ => setG_pc ..) 1

theorem rrel_of_sin (hkind : ((s.tile t).ep ch).kind = .sin) : exec (.rrel t gd reg ch) s =
    if ((s.tile t).getG reg).toNat % 64 = 0 ∧ ((s.tile t).getG reg).toNat ≤ ((s.tile t).ep ch).ready then
      s.withTile t (((s.tile t).updEp ch fun e => e.consume ((s.tile t).getG reg).toNat).retired 1)
    else .next (s.tileExc t 0x0306) := by
  have hexec : exec (.rrel t gd reg ch) s = .next (if !(aligned ((s.tile t).getG reg).toNat 64 &&
      ((s.tile t).getG reg).toNat ≤ ((s.tile t).ep ch).ready) then s.tileExc t 0x0306
      else (s.updTile t fun x => x.updEp ch fun e => e.consume ((s.tile t).getG reg).toNat).advance t 1) :=
    congrArg Host.Outcome.next ((issue_of_issues h _).trans (if_neg (not_not.2 hkind)))
  have hend := advance_updTile h.1 (f := fun x => x.updEp ch fun e => e.consume ((s.tile t).getG reg).toNat)
    (fun _ => rfl) (fun _ => rfl) 1
  rw [hexec]
  split_ifs with h₁ h₂ h₂
  · simp [aligned, h₂] at h₁
  · rfl
  · exact congrArg Host.Outcome.next hend
  · simp [aligned] at h₁
    exact absurd h₁ h₂

theorem ring_of_wrong_kind (hkind : ((s.tile t).ep ch).kind ≠ .sin) :
    exec (.ravail t gd reg ch) s = .next (s.tileExc t 0x0302) ∧ exec (.rrel t gd reg ch) s = .next (s.tileExc t 0x0302) :=
  ⟨congrArg Host.Outcome.next ((issue_of_issues h _).trans (if_pos hkind)),
    congrArg Host.Outcome.next ((issue_of_issues h _).trans (if_pos hkind))⟩

end

end

/-! ## What a packet takes and leaves of its tile -/

section
variable {x : Tile} {ch : Fin 64}

theorem sendState_of_msg (hkind : (x.ep ch).kind = .msg) (hcredit : 0 < (x.ep ch).credits) : x.sendState ch = .ready := by
  simp [Tile.sendState, hkind, Nat.pos_iff_ne_zero.1 hcredit]

theorem sendState_of_stepDone (hkind : (x.ep ch).kind = .hub) (hservice : (x.ep ch).service = 0)
    (hcredit : 0 < (x.ep ch).credits) (hidle : x.unitsIdle 7 = true) : x.sendState ch = .ready := by
  simp [Tile.sendState, hkind, hservice, hidle, Nat.pos_iff_ne_zero.1 hcredit, replies]

theorem sendState_of_no_credit (hkind : (x.ep ch).kind = .msg) (hcredit : (x.ep ch).credits = 0) :
    x.sendState ch = .noCredit := by
  simp [Tile.sendState, hkind, hcredit]

theorem spent_of_msg (hkind : (x.ep ch).kind = .msg) :
    x.spent ch = x.updEp ch fun e => { e with credits := e.credits - 1 } := by
  simp [Tile.spent, hkind]

theorem spent_of_stepDone (hkind : (x.ep ch).kind = .hub) (hservice : (x.ep ch).service = 0) :
    x.spent ch = (x.updEp ch fun e => { e with credits := e.credits - 1 }).flagsTaken := by
  simp [Tile.spent, Tile.flagsTaken, hkind, hservice, replies]

theorem packet_of_msg (hkind : (x.ep ch).kind = .msg) (t : Nat) (reg : GReg) (n : Nat) :
    x.packet t ch reg n =
    { kind := .data, srcTile := t, srcEp := ch.val, dstTile := (x.ep ch).peerTile,
      dstEp := (x.ep ch).peerEp, words := x.words reg n, flags := 0, code := 0 } := by
  simp [Tile.packet, hkind]

theorem packet_of_stepDone (hkind : (x.ep ch).kind = .hub) (hservice : (x.ep ch).service = 0) (t : Nat) (reg : GReg) (n : Nat) :
    x.packet t ch reg n =
    { kind := .request 0, srcTile := t, srcEp := ch.val, dstTile := (x.ep ch).peerTile,
      dstEp := (x.ep ch).peerEp, words := x.words reg n, flags := x.unitFlags, code := 0 } := by
  simp [Tile.packet, hkind, hservice]

theorem received_ep (x : Tile) (ch : Fin 64) (reg : GReg) (n : Nat) (q : Packet) (rest : List Packet) :
    (x.received ch reg n q rest).ep ch = { x.ep ch with queue := rest } := by
  show smapGet Endpoint.unbound ((x.updEp ch fun e => { e with queue := rest }).setWords reg n q.words).eps ch = _
  rw [setWords_eps]
  exact ep_updEp_same ..

theorem consume_head {e : Endpoint} (h : 0 < e.ringSize) (n : Nat) : (e.consume n).head = (e.head + n) % e.ringSize :=
  if_neg (Nat.pos_iff_ne_zero.1 h)

end

/-- Settles O11: each channel instruction on each kind of endpoint, by the lemma on that case. -/
theorem channelSendAndReceive : Obligations.ChannelSendAndReceive := by
  unfold Obligations.ChannelSendAndReceive
  intro s t gd reg ch n pd nb _ h hrange
  refine ⟨fun hkind hcredit => ?send, fun hkind hservice hcredit hidle => ?stepDone,
    fun hkind hcredit => send_of_noCredit h hrange (sendState_of_no_credit hkind hcredit),
    fun q rest hkind hqueue => ?recv, fun hkind hqueue => recv_of_empty h hrange hkind hqueue,
    fun hmsg hhub => channel_of_wrong_kind h hrange hmsg hhub, fun hkind => ⟨ravail_of_sin h hkind, ?release⟩,
    fun hkind => ring_of_wrong_kind h hkind⟩
  case send =>
    obtain ⟨u, hexec, htile, hnet⟩ :=
      send_of_ready (n := n) (pd := pd) (nb := nb) h hrange (sendState_of_msg hkind hcredit)
    rw [spent_of_msg hkind] at htile
    rw [packet_of_msg hkind] at hnet
    refine ⟨u, _, hexec, htile, hnet, ?_, ?_, ?_, ?_, ?_, ?_⟩
    · rw [retired_ep, went_ep]
      exact ep_updEp_same ..
    · exact went_g ..
    · rintro rfl
      exact getP_went ..
    · exact went_scratch ..
    · exact congrArg (· + 1) (went_pc ..)
    · exact congrArg (· + BitVec.ofNat 64 (chanCycles n)) (went_cycle ..)
  case stepDone =>
    obtain ⟨u, hexec, htile, hnet⟩ := send_of_ready (n := n) (pd := pd) (nb := nb) h hrange
      (sendState_of_stepDone hkind hservice hcredit hidle)
    rw [spent_of_stepDone hkind hservice] at htile
    rw [packet_of_stepDone hkind hservice] at hnet
    refine ⟨u, _, hexec, htile, hnet, ?_, ?_, ?_⟩
    · rw [retired_ep, went_ep, flagsTaken_ep]
      exact ep_updEp_same ..
    · rw [retired_unitFlags, went_unitFlags, flagsTaken_unitFlags]
    · exact congrArg (· + 1) (went_pc ..)
  case recv =>
    obtain ⟨u, hexec, htile, hnet⟩ := recv_of_packet (n := n) (pd := pd) (nb := nb) h hrange hkind hqueue
    refine ⟨u, _, hexec, htile, hnet, ?_, fun r hr => ?_, ?_, ?_, ?_⟩
    · rw [retired_ep, went_ep, received_ep]
    · have hg := setWords_g ((s.tile t).updEp ch fun e => { e with queue := rest }) reg n q.words hr
      have same : ((((s.tile t).received ch reg n q rest).went pd nb).retired (chanCycles n)).g =
          (((s.tile t).updEp ch fun e => { e with queue := rest }).setWords reg n q.words).g := went_g ..
      rw [same, hg]
      rfl
    · exact went_recvInfo ..
    · rintro rfl
      exact getP_went ..
    · exact congrArg (· + 1) ((went_pc ..).trans (setWords_pc ..))
  case release =>
    refine ⟨fun haligned hready => ⟨_, (rrel_of_sin h hkind).trans (if_pos ⟨haligned, hready⟩), rfl, rfl, ?_⟩,
      fun hbad => (rrel_of_sin h hkind).trans (if_neg hbad)⟩
    rw [retired_ep, ep_updEp_same]
    exact ⟨rfl, rfl, fun hsize => consume_head hsize _⟩

end Sys2Proof.Machine
end

section
/-!
PROOFS. The hub takes a packet off the network, and what an error report does to a context (04_tile_core.md R95, R111;
02_fabric.md R42, R48; 15_shared_objects_and_submission.md R371).
-/

namespace Sys2Proof.Machine

/-! ## A packet leaves the network (02_fabric.md R42, R48, R50) -/

/-- Beyond the die edges, a crossing touches no register. -/
theorem countEdges_regs (s : State) {eds : List Nat} (h : ∀ e ∈ eds, 8 ≤ e) : (s.countEdges eds).regs = s.regs := by
  refine foldl_keeps State.regs (fun u e he => ?_) s
  have past : ¬ e < 8 := Nat.not_lt.2 (h e he)
  show (State.carry u e _ _).regs = u.regs
  rw [State.carry]
  dsimp only
  rw [if_neg (by simp [past])]

theorem frame_of_crossing {s u : State} (h : CrossingOnly s u) : u.frame = s.frame := by rw [h]
theorem hub_of_crossing {s u : State} (h : CrossingOnly s u) : u.hub = s.hub := by rw [h]
theorem out_of_crossing {s u : State} (h : CrossingOnly s u) : u.out = s.out := by rw [h]
theorem link_of_crossing {s u : State} (h : CrossingOnly s u) : u.link = s.link := by rw [h]

/-- The packets of a kind whose way is whole. -/
def State.reaching (s : State) (ok : NetMsg → Bool) (m : NetMsg) : Bool := ok m && !s.pathDown m.edges

/-- The first packet of a kind has left the network, and its units have crossed. -/
def State.taken (s : State) (ok : NetMsg → Bool) (m : NetMsg) : State :=
  { s with fab := { s.fab with net := s.fab.net.eraseP (s.reaching ok) } }.countEdges m.edges

section
variable {s : State} {ok : NetMsg → Bool} {m : NetMsg}

theorem takeNet_of_find (h : s.fab.net.find? (s.reaching ok) = some m) : s.takeNet ok = some (m, s.taken ok m) := by
  have h' : s.fab.net.find? (fun m => ok m && !s.pathDown m.edges) = some m := h
  rw [State.takeNet, h']
  rfl

theorem takeNet_of_none (h : s.fab.net.find? (s.reaching ok) = none) : s.takeNet ok = none := by
  have h' : s.fab.net.find? (fun m => ok m && !s.pathDown m.edges) = none := h
  rw [State.takeNet, h']
  rfl

theorem ok_of_find (h : s.fab.net.find? (s.reaching ok) = some m) : ok m = true := by
  have := List.find?_some h
  simp only [State.reaching, Bool.and_eq_true] at this
  exact this.1

variable (s ok m)

theorem taken_crossing : CrossingOnly { s with fab := { s.fab with net := s.fab.net.eraseP (s.reaching ok) } } (s.taken ok m) :=
  (CrossingOnly.refl _).countEdges _

@[simp] theorem taken_net : (s.taken ok m).fab.net = s.fab.net.eraseP (s.reaching ok) := (taken_crossing s ok m).net
@[simp] theorem taken_tiles : (s.taken ok m).tiles = s.tiles := (taken_crossing s ok m).tiles
@[simp] theorem taken_parts : (s.taken ok m).parts = s.parts := (taken_crossing s ok m).parts
@[simp] theorem taken_mem : (s.taken ok m).mem = s.mem := (taken_crossing s ok m).mem
@[simp] theorem taken_frame : (s.taken ok m).frame = s.frame := (frame_of_crossing (taken_crossing s ok m)).trans rfl
@[simp] theorem taken_hub : (s.taken ok m).hub = s.hub := (hub_of_crossing (taken_crossing s ok m)).trans rfl
@[simp] theorem taken_out : (s.taken ok m).out = s.out := (out_of_crossing (taken_crossing s ok m)).trans rfl
@[simp] theorem taken_link : (s.taken ok m).link = s.link := (link_of_crossing (taken_crossing s ok m)).trans rfl
@[simp] theorem taken_tile (k : Nat) : (s.taken ok m).tile k = s.tile k := by rw [State.tile, taken_tiles, State.tile]
@[simp] theorem taken_part (p : Nat) : (s.taken ok m).part p = s.part p := by rw [State.part, taken_parts, State.part]

@[simp] theorem taken_partOf (k : Nat) : (s.taken ok m).partOf k = s.partOf k := by
  rw [State.partOf, taken_frame, State.partOf]

@[simp] theorem taken_partTiles (p : Nat) : (s.taken ok m).partTiles p = s.partTiles p := by
  rw [State.partTiles, State.rect, taken_frame, State.partTiles, State.rect]

variable {m}

/-- A packet for the hub crosses a bridge only. -/
theorem taken_regs (h : m.toHub = true) : (s.taken ok m).regs = s.regs := by
  refine (countEdges_regs _ fun e he => ?_).trans rfl
  rw [NetMsg.edges, if_pos h, List.mem_singleton] at he
  omega

end

/-! ## The stop of a context (04_tile_core.md R111; R371) -/

/-- A stop that the hub sends to a tile. -/
def stopFor (k : Nat) : NetMsg :=
  { kind := .stop, srcTile := 0, srcEp := 0, dstTile := k, dstEp := 0, words := [], flags := 0, code := 0 }

/-- The stops go to the end of the network, and to nothing else. -/
theorem foldl_stops (s : State) (l : List Nat) :
    l.foldl (fun s k => s.inject (stopFor k)) s = { s with fab := { s.fab with net := s.fab.net ++ l.map stopFor } } := by
  induction l generalizing s with
  | nil => simp
  | cons k l ih =>
    rw [List.foldl_cons, ih]
    simp [State.inject, List.append_assoc]

/-- Does a step of the partition still run? -/
def Part.live (x : Part) : Bool := match x.step with
  | some r => r.phase ≠ .ended
  | none => false

theorem live_iff (x : Part) : x.live = true ↔ ∃ r, x.step = some r ∧ r.phase ≠ .ended := by
  cases h : x.step <;> simp [Part.live, h]

theorem stopPass_step (s : State) (p code : Nat) : ∀ r, ((s.stopPass p code).part p).step = some r → r.phase = .ended := by
  unfold State.stopPass
  split
  · next r _ =>
    extract_lets run t
    intro r' hr
    rw [part_of_beside (beside_showGlint _), part_updPart_same] at hr
    cases hr
    rfl
  · next h =>
    intro r hr
    rw [h] at hr
    cases hr

/-- The stop of a partition's work ends its step. -/
theorem stopWork_step (s : State) (p code : Nat) (tile : Option Nat) :
    ∀ r, ((s.stopWork p code tile).part p).step = some r → r.phase = .ended := by
  intro r hr
  rw [State.stopWork, part_of_beside (beside_stopCtx ..), part_updPart_same] at hr
  exact stopPass_step s p code r hr

/-- A partition marked as failed keeps its step. -/
theorem failed_keeps_ended {s : State} {p : Nat} (h : ∀ r, (s.part p).step = some r → r.phase = .ended) :
    let u := s.updPart p fun x => { x with failed := true }
    (u.part p).failed = true ∧ ∀ r, (u.part p).step = some r → r.phase = .ended := by
  intro u
  rw [part_updPart_same]
  exact ⟨rfl, h⟩

/-- What a report has done before the stops go out: the work is stopped, and the tile is marked if it is the first. -/
def State.reportNoted (s : State) (p code t : Nat) : State :=
  let w := ((if (s.part p).live then s.errCurrent p code else s.pend p code).stopWork p code (some t)).updPart p
    fun x => { x with failed := true }
  if (s.part p).failed then w else w.updTile t fun y => { y with reported := true }

theorem stopReport_of_noted {s : State} {p code t : Nat}
    (h : (!(s.part p).loaded || ((s.part p).failed && !(s.part p).live)) = false) :
    s.stopReport p code (some t) =
      ((s.reportNoted p code t).partTiles p).foldl (fun s k => s.inject (stopFor k)) (s.reportNoted p code t) :=
  if_neg (Bool.eq_false_iff.1 h)

theorem stopReport_of_nothing {s : State} {p : Nat}
    (h : (!(s.part p).loaded || ((s.part p).failed && !(s.part p).live)) = true) (code : Nat) (tile : Option Nat) :
    s.stopReport p code tile = s := if_pos h

section
variable (s : State) (p code t : Nat)

theorem reportNoted_holding : (s.reportNoted p code t).holding = s.holding := by
  unfold State.reportNoted
  extract_lets w
  have hw : w.holding = s.holding := by
    refine ((holding_updPart (fun _ => by rfl) _ _).trans (holding_stopWork ..)).trans ?_
    split
    · exact holding_errCurrent ..
    · exact holding_pend ..
  split
  · exact hw
  · exact (holding_updTile ..).trans hw

theorem reportNoted_partTiles : (s.reportNoted p code t).partTiles p = s.partTiles p := by
  rw [State.partTiles, State.rect, frame_of_holding (reportNoted_holding ..), State.partTiles, State.rect]

theorem reportNoted_part : ((s.reportNoted p code t).part p).failed = true ∧
    ∀ r, ((s.reportNoted p code t).part p).step = some r → r.phase = .ended := by
  unfold State.reportNoted
  extract_lets w
  have hw : (w.part p).failed = true ∧ ∀ r, (w.part p).step = some r → r.phase = .ended :=
    failed_keeps_ended (stopWork_step _ p code (some t))
  split
  · exact hw
  · rw [updTile_part]
    exact hw

theorem reportNoted_reported (h : (s.part p).failed = false) : ((s.reportNoted p code t).tile t).reported = true := by
  rw [State.reportNoted, h, if_neg Bool.false_ne_true, tile_updTile_same]

end

/-- A report in force fails the partition, ends its step, and sends every tile a stop. -/
theorem stopReport_effect {s : State} {p : Nat} (hloaded : (s.part p).loaded = true)
    (h : (s.part p).failed = false ∨ (s.part p).live = true) (code t : Nat) :
    let u := s.stopReport p code (some t)
    (∃ net, u.fab.net = net ++ (s.partTiles p).map stopFor) ∧ (u.part p).failed = true ∧
      (∀ r, (u.part p).step = some r → r.phase = .ended) ∧ ((s.part p).failed = false → (u.tile t).reported = true) := by
  intro u
  have in_force : (!(s.part p).loaded || ((s.part p).failed && !(s.part p).live)) = false := by
    rw [hloaded]
    rcases h with h | h <;> simp [h]
  have hu : u = _ := (stopReport_of_noted (code := code) (t := t) in_force).trans (foldl_stops ..)
  rw [hu, reportNoted_partTiles]
  obtain ⟨hfailed, hended⟩ := reportNoted_part s p code t
  exact ⟨⟨_, rfl⟩, hfailed, hended, fun hfirst => reportNoted_reported s p code t hfirst⟩

/-! ## TILE_REPORT (04_tile_core.md R111) -/

/-- A report of a tile. -/
def NetMsg.reportOf (t : Nat) (m : NetMsg) : Bool := m.kind = .report && m.srcTile = t

theorem toHub_of_report {t : Nat} {m : NetMsg} (h : m.reportOf t = true) : m.toHub = true := by
  simp only [NetMsg.reportOf, Bool.and_eq_true, decide_eq_true_eq] at h
  rw [NetMsg.toHub, h.1]

section
variable {s : State} {t : TileIx} {p : Nat} {m : NetMsg}

theorem tileReport_of_none (h : s.fab.net.find? (s.reaching (NetMsg.reportOf t)) = none) :
    exec (.tileReport t) s = .next s := by
  have hnone : s.takeNet (fun m => m.kind = .report && m.srcTile = t.val) = none := takeNet_of_none h
  show execTileReport t s = _
  rw [execTileReport, hnone]

theorem tileReport_of_no_part (h : s.fab.net.find? (s.reaching (NetMsg.reportOf t)) = some m) (hp : s.partOf t = none) :
    exec (.tileReport t) s = .next (s.taken (NetMsg.reportOf t) m) := by
  have hsome : s.takeNet (fun m => m.kind = .report && m.srcTile = t.val) = some (m, s.taken (NetMsg.reportOf t) m) :=
    takeNet_of_find h
  show execTileReport t s = _
  rw [execTileReport, hsome]
  dsimp only
  rw [taken_partOf, hp]

theorem tileReport_of_part (h : s.fab.net.find? (s.reaching (NetMsg.reportOf t)) = some m) (hp : s.partOf t = some p) :
    exec (.tileReport t) s = .next ((s.taken (NetMsg.reportOf t) m).stopReport p m.code (some t)) := by
  have hsome : s.takeNet (fun m => m.kind = .report && m.srcTile = t.val) = some (m, s.taken (NetMsg.reportOf t) m) :=
    takeNet_of_find h
  show execTileReport t s = _
  rw [execTileReport, hsome]
  dsimp only
  rw [taken_partOf, hp]

end

/-- Settles O24: a report that is in force does what `stopReport_effect` says; any other only leaves the network. -/
theorem errorReportsStopTheContext : Obligations.ErrorReportsStopTheContext := by
  intro s t p m hp rep hfind
  have hfind : s.fab.net.find? (s.reaching (NetMsg.reportOf t)) = some m := hfind
  have hexec := tileReport_of_part hfind hp
  refine ⟨fun hloaded hfailed => ?_, fun hloaded => ?_⟩
  · obtain ⟨⟨net, hnet⟩, hnow, -, hreported⟩ := stopReport_effect (s := s.taken (NetMsg.reportOf t) m) (p := p)
      (by rwa [taken_part]) (.inl (by rwa [taken_part])) m.code t
    rw [taken_part] at hreported
    rw [taken_partTiles] at hnet
    exact ⟨_, net, hexec, hnow, hreported hfailed, hnet⟩
  · rw [stopReport_of_nothing (by rw [taken_part, hloaded]; rfl)] at hexec
    exact ⟨_, hexec, taken_net .., taken_tiles .., taken_regs _ _ (toHub_of_report (ok_of_find hfind)), taken_parts ..,
      taken_hub .., taken_mem .., taken_out ..⟩

end Sys2Proof.Machine
end

section
/-!
PROOFS. The services of the hub to a tile: STEP_INFO, STEP_DONE and TRACE (04_tile_core.md R95, R97, R98;
15_shared_objects_and_submission.md R355).
-/

namespace Sys2Proof.Machine

/-! ## A request leaves the network (04_tile_core.md R95) -/

/-- A request of a tile for a service. -/
def NetMsg.requestOf (t svc : Nat) (m : NetMsg) : Bool := m.kind = .request svc && m.srcTile = t

theorem toHub_of_request {t svc : Nat} {m : NetMsg} (h : m.requestOf t svc = true) : m.toHub = true := by
  simp only [NetMsg.requestOf, Bool.and_eq_true, decide_eq_true_eq] at h
  rw [NetMsg.toHub, h.1]

/-- The return of a request's credit. -/
def NetMsg.hubReturn (m : NetMsg) : NetMsg :=
  { kind := .credit, srcTile := 0, srcEp := 0, dstTile := m.srcTile, dstEp := m.srcEp, words := [], flags := 0, code := 0 }

/-- The request has left the network, and its credit is on its way back. -/
def State.requested (s : State) (t svc : Nat) (m : NetMsg) : State := (s.taken (NetMsg.requestOf t svc) m).inject m.hubReturn

section
variable {s : State} {t svc : Nat} {m : NetMsg}

theorem takeRequest_of_find (h : s.fab.net.find? (s.reaching (NetMsg.requestOf t svc)) = some m) :
    s.takeRequest t svc = some (m, s.requested t svc m) := by
  have hsome : s.takeNet (fun m => m.kind = .request svc && m.srcTile = t) = some (m, s.taken (NetMsg.requestOf t svc) m) :=
    takeNet_of_find h
  rw [State.takeRequest, hsome]
  rfl

/-- Whatever the hub takes is the request that has left the network. -/
theorem requested_of_takeRequest {v : State} (h : s.takeRequest t svc = some (m, v)) : v = s.requested t svc m := by
  cases hfind : s.fab.net.find? (s.reaching (NetMsg.requestOf t svc)) with
  | none =>
    have hnone : s.takeNet (fun m => m.kind = .request svc && m.srcTile = t) = none := takeNet_of_none hfind
    rw [State.takeRequest, hnone] at h
    cases h
  | some m' =>
    rw [takeRequest_of_find hfind] at h
    cases h
    rfl

variable (s t svc m)

@[simp] theorem requested_net : (s.requested t svc m).fab.net =
    s.fab.net.eraseP (s.reaching (NetMsg.requestOf t svc)) ++ [m.hubReturn] :=
  congrArg (· ++ [m.hubReturn]) (taken_net ..)

@[simp] theorem requested_tiles : (s.requested t svc m).tiles = s.tiles := taken_tiles ..
@[simp] theorem requested_parts : (s.requested t svc m).parts = s.parts := taken_parts ..
@[simp] theorem requested_hub : (s.requested t svc m).hub = s.hub := taken_hub ..
@[simp] theorem requested_tile (k : Nat) : (s.requested t svc m).tile k = s.tile k := taken_tile ..
@[simp] theorem requested_part (p : Nat) : (s.requested t svc m).part p = s.part p := taken_part ..
@[simp] theorem requested_partOf (k : Nat) : (s.requested t svc m).partOf k = s.partOf k := taken_partOf ..
@[simp] theorem requested_partTiles (p : Nat) : (s.requested t svc m).partTiles p = s.partTiles p := taken_partTiles ..

end

/-! ## What the services change -/

section
variable (s : State) (q : Nat) (f : HubCmd → HubCmd)

/-- A queue's oldest command is the hub's own. -/
theorem updHead_eq : s.updHead q f = { s with hub := (s.updHead q f).hub } := by
  unfold State.updHead
  split <;> rfl

@[simp] theorem updHead_fab : (s.updHead q f).fab = s.fab := by rw [updHead_eq]
@[simp] theorem updHead_parts : (s.updHead q f).parts = s.parts := by rw [updHead_eq]
@[simp] theorem updHead_mem : (s.updHead q f).mem = s.mem := by rw [updHead_eq]
@[simp] theorem updHead_frame : (s.updHead q f).frame = s.frame := by rw [updHead_eq]
@[simp] theorem updHead_tile (k : Nat) : (s.updHead q f).tile k = s.tile k := by rw [updHead_eq]; rfl
@[simp] theorem updHead_part (p : Nat) : (s.updHead q f).part p = s.part p := by rw [updHead_eq]; rfl
@[simp] theorem updHead_partTiles (p : Nat) : (s.updHead q f).partTiles p = s.partTiles p := by rw [updHead_eq]; rfl

theorem qCmds_updHead {s : State} {q : Nat} {c : HubCmd} {rest : List HubCmd} (h : s.qCmds q = c :: rest) :
    (s.updHead q f).qCmds q = f c :: rest := by
  rw [State.updHead, h]
  exact smapGet_set_same ([] : List HubCmd) s.hub.cmds q (f c :: rest)

end

/-- A step goes on while a coded tile of its partition has neither halted normally nor reported it. -/
theorem finishStep_of_not_done {s : State} {p k : Nat} {r : StepRun} (hstep : (s.part p).step = some r)
    (hk : k ∈ s.codedTiles p) (hend : (s.tile k).normalEnd = false) (hreport : (s.tile k).tileStep ≠ some r.n) :
    s.finishStep p = s := by
  have not_done : s.tilesDone p r.n = false := List.all_eq_false.2 ⟨k, hk, by simp [hend, hreport]⟩
  rw [State.finishStep, hstep]
  exact if_pos (by simp [not_done])

/-- A tile's report of its step: the flags it carries join those of the oldest command of the step's queue. -/
def NetMsg.flagged (m : NetMsg) (c : HubCmd) : HubCmd :=
  { c with sat := c.sat || bit m.flags.toNat 0 || bit m.flags.toNat 2, nan := c.nan || bit m.flags.toNat 1 || bit m.flags.toNat 3 }

/-- The tile and the flags of a STEP_DONE are recorded. -/
def State.reported (s : State) (t : Nat) (r : StepRun) (m : NetMsg) : State :=
  ((s.requested t 0 m).updTile t fun x => { x with tileStep := some r.n }).updHead r.queue m.flagged

theorem bit_toNat_getLsbD {w : Nat} (v : BitVec w) (i : Nat) : bit v.toNat i = v.getLsbD i := by
  rw [bit, ← BitVec.testBit_toNat, Nat.testBit_eq_decide_div_mod_eq]

theorem flagged_sat (m : NetMsg) (c : HubCmd) :
    (m.flagged c).sat = (c.sat || m.flags.getLsbD 0 || m.flags.getLsbD 2) := by
  simp only [NetMsg.flagged, bit_toNat_getLsbD]

theorem flagged_nan (m : NetMsg) (c : HubCmd) :
    (m.flagged c).nan = (c.nan || m.flags.getLsbD 1 || m.flags.getLsbD 3) := by
  simp only [NetMsg.flagged, bit_toNat_getLsbD]

/-! ## The services (04_tile_core.md R97, R98; R355) -/

section
variable {s : State} {t : TileIx} {p : Nat} {m : NetMsg} (hp : s.partOf t = some p)
include hp

theorem stepInfo_of_request (h : s.fab.net.find? (s.reaching (NetMsg.requestOf t 2)) = some m) :
    exec (.stepInfo t) s = .next ((s.requested t 2 m).reply t m.srcEp [BitVec.ofNat 64 (s.part p).stepNo,
      BitVec.ofNat 64 (s.part p).stepGen, BitVec.ofNat 64 (s.part p).stepNo]) := by
  show execStepInfo t s = _
  simp only [execStepInfo, takeRequest_of_find h, hp, requested_part]

variable {r : StepRun} (h : s.fab.net.find? (s.reaching (NetMsg.requestOf t 0)) = some m) (hstep : (s.part p).step = some r)
  (hfailed : (s.part p).failed = false)
include h hstep hfailed

theorem stepDone_of_fault
    (hbad : (r.phase ≠ .compute || m.words.isEmpty || (m.words.getD 0 0).toNat ≠ r.n || (s.tile t).tileStep = some r.n) = true) :
    exec (.stepDone t) s = .next ((s.requested t 0 m).protocolFault p t) := by
  show execStepDone t s = _
  simp only [execStepDone, takeRequest_of_find h, hp, requested_part, requested_tile, hstep, hfailed, if_pos hbad,
    Bool.false_eq_true, if_false]

theorem stepDone_of_good
    (hgood : (r.phase ≠ .compute || m.words.isEmpty || (m.words.getD 0 0).toNat ≠ r.n || (s.tile t).tileStep = some r.n) = false) :
    exec (.stepDone t) s = .next ((s.reported t r m).finishStep p) := by
  show execStepDone t s = _
  simp only [execStepDone, takeRequest_of_find h, hp, requested_part, requested_tile, hstep, hfailed, hgood,
    Bool.false_eq_true, if_false]
  rfl

end

section
variable (s : State) (t : Nat) (r : StepRun) (m : NetMsg)

theorem reported_tile : (s.reported t r m).tile t = { s.tile t with tileStep := some r.n } := by
  rw [State.reported, updHead_tile, tile_updTile_same, requested_tile]

theorem reported_tile_other {k : Nat} (h : k ≠ t) : (s.reported t r m).tile k = s.tile k := by
  rw [State.reported, updHead_tile, tile_updTile_other _ _ _ _ h, requested_tile]

theorem reported_parts : (s.reported t r m).parts = s.parts := by
  rw [State.reported, updHead_parts, updTile_parts, requested_parts]

theorem reported_part (p : Nat) : (s.reported t r m).part p = s.part p := by
  rw [State.part, reported_parts, State.part]

theorem reported_net : (s.reported t r m).fab.net =
    s.fab.net.eraseP (s.reaching (NetMsg.requestOf t 0)) ++ [m.hubReturn] := by
  rw [State.reported, updHead_fab, updTile_fab, requested_net]

theorem reported_qCmds {c : HubCmd} {rest : List HubCmd} (h : s.qCmds r.queue = c :: rest) :
    (s.reported t r m).qCmds r.queue = m.flagged c :: rest := by
  refine qCmds_updHead _ ?_
  rw [State.qCmds, updTile_hub, requested_hub]
  exact h

/-- Another coded tile of the partition stays one. -/
theorem reported_codedTiles {p k : Nat} (hk : k ∈ s.codedTiles p) (h : k ≠ t) : k ∈ (s.reported t r m).codedTiles p := by
  have tiles : (s.reported t r m).partTiles p = s.partTiles p :=
    (updHead_partTiles ..).trans (requested_partTiles s t 0 m p)
  obtain ⟨hin, hcoded⟩ := List.mem_filter.1 hk
  exact List.mem_filter.2 ⟨tiles ▸ hin, by rw [reported_tile_other _ _ _ _ h, hcoded]⟩

end

/-- A TRACE request of a context that keeps its trace ring joins it at its head (R355). -/
theorem traceReq_of_stored {s v a b c d : State} {t : TileIx} {p w5 w6 w7 j : Nat} {m : NetMsg} (hp : s.partOf t = some p)
    (htake : s.takeRequest t 1 = some (m, v)) (hloaded : (s.part p).loaded = true)
    (h5 : v.ctxWord (s.part p).ctx 5 = (a, w5)) (h6 : a.ctxWord (s.part p).ctx 6 = (b, w6))
    (h7 : b.ctxWord (s.part p).ctx 7 = (c, w7)) (hen : w5 % 2 = 1) (hj : j < 16) (hsize : w6 % 2 ^ 17 = 2 ^ (j + 1))
    (hpart : c.part p = s.part p) (hfree : ((s.part p).traceHead + 1) % 2 ^ (j + 1) ≠ w7 % 2 ^ 16 % 2 ^ (j + 1))
    (hwrite : c.hubWrite (w5 / 2 ^ 7 % 2 ^ 56 * 2 ^ 7 + 128 * (s.part p).traceHead)
      (leBytes 8 (tileId t + m.words.length * 2 ^ 11) ++ leBytes 8 (s.part p).stepNo ++
        fit 112 (m.words.flatMap fun w => leBytes 8 w.toNat)) = (d, none)) :
    exec (.traceReq t) s =
      .next (d.updPart p fun y => { y with traceHead := ((s.part p).traceHead + 1) % 2 ^ (j + 1) }) := by
  have hv : v.partOf t = some p ∧ v.part p = s.part p := by
    rw [requested_of_takeRequest htake, requested_partOf, requested_part]
    exact ⟨hp, rfl⟩
  have enabled : bit w5 0 = true := by simp [bit, hen]
  have legal : ((List.range 16).any fun i => decide (2 ^ (j + 1) = 2 ^ (i + 1))) = true :=
    List.any_eq_true.2 ⟨j, List.mem_range.2 hj, decide_eq_true rfl⟩
  show execTraceReq t s = _
  simp only [execTraceReq, htake, hp, hv, hloaded, h5, h6, h7, hpart, hsize, enabled, legal, hwrite, decide_eq_false hfree,
    Bool.not_true, Bool.or_self, Bool.false_eq_true, if_false]

/-- Settles O23, service by service; the step goes on by `finishStep_of_not_done`, as another coded tile is not done. -/
theorem hubServicesOfATile : Obligations.HubServicesOfATile := by
  intro s t p m hp req credit x
  refine ⟨fun hfind => ?info, fun r w ws k hfind hstep hfailed hphase hwords hw hfresh hk hkt hend hreport => ?done,
    fun r w ws hfind hstep hfailed hwords hw => ?fault,
    fun v a b c d w5 w6 w7 j htake hloaded h5 h6 h7 _ hen hj hsize hpart hfree hwrite =>
      traceReq_of_stored hp htake hloaded h5 h6 h7 hen hj hsize hpart hfree hwrite⟩
  case info =>
    have hfind : s.fab.net.find? (s.reaching (NetMsg.requestOf t 2)) = some m := hfind
    refine ⟨_, stepInfo_of_request hp hfind, ?_, requested_tiles .., requested_parts .., ?_⟩
    · rw [State.reply, State.inject]
      dsimp only
      rw [requested_net, List.append_assoc]
      rfl
    · exact taken_regs _ _ (toHub_of_request (ok_of_find hfind))
  case done =>
    have hfind : s.fab.net.find? (s.reaching (NetMsg.requestOf t 0)) = some m := hfind
    have hexec := stepDone_of_good hp hfind hstep hfailed (by simp [hphase, hwords, hw, hfresh])
    rw [finishStep_of_not_done (s := s.reported t r m) (k := k)
      ((congrArg Part.step (reported_part s t r m p)).trans hstep) (reported_codedTiles _ _ _ _ hk hkt)
      (by rw [reported_tile_other _ _ _ _ hkt, hend]) (by rwa [reported_tile_other _ _ _ _ hkt])] at hexec
    refine ⟨_, hexec, reported_net .., reported_tile .., fun j hj => reported_tile_other _ _ _ _ hj, reported_parts .., ?_⟩
    intro c rest hcmds
    exact ⟨_, reported_qCmds _ _ _ _ hcmds, flagged_sat .., flagged_nan ..⟩
  case fault =>
    have hfind : s.fab.net.find? (s.reaching (NetMsg.requestOf t 0)) = some m := hfind
    exact ⟨_, stepDone_of_fault hp hfind hstep hfailed (by simp [hwords, hw])⟩

end Sys2Proof.Machine
end

section
/-!
PROOFS. The start of a step, and the places and the end of its pass (04_tile_core.md R98; 09_parameter_update.md R216, R226;
15_shared_objects_and_submission.md R364).
-/

namespace Sys2Proof.Machine

/-! ## What the registers and the hub's commands leave as it was -/

/-- The tiles, the fabric, device memory, the frame and the partitions. -/
def State.grid (s : State) : List (Nat × Tile) × Fabric × Mem × FrameImage × List (Nat × Part) :=
  (s.tiles, s.fab, s.mem, s.frame, s.parts)

section
variable {s u : State} (h : u.grid = s.grid)
include h

theorem tiles_of_grid : u.tiles = s.tiles := congrArg Prod.fst h
theorem fab_of_grid : u.fab = s.fab := congrArg (·.2.1) h
theorem mem_of_grid : u.mem = s.mem := congrArg (·.2.2.1) h
theorem frame_of_grid : u.frame = s.frame := congrArg (·.2.2.2.1) h
theorem parts_of_grid : u.parts = s.parts := congrArg (·.2.2.2.2) h
theorem tile_of_grid (k : Nat) : u.tile k = s.tile k := by rw [State.tile, tiles_of_grid h, State.tile]
theorem part_of_grid (p : Nat) : u.part p = s.part p := by rw [State.part, parts_of_grid h, State.part]

theorem codedTiles_of_grid (p : Nat) : u.codedTiles p = s.codedTiles p := by
  have same_tile : ∀ k, u.tile k = s.tile k := tile_of_grid h
  simp only [State.codedTiles, State.partTiles, State.rect, frame_of_grid h, same_tile]

end

@[simp] theorem grid_setF (s : State) (f : Fld) (i j v : Nat) : (s.setF f i j v).grid = s.grid := rfl

@[simp] theorem grid_updHead (s : State) (q : Nat) (f : HubCmd → HubCmd) : (s.updHead q f).grid = s.grid := by
  unfold State.updHead
  split <;> rfl

@[simp] theorem grid_showActive (s : State) (i : Nat) : (s.showActive i).grid = s.grid := by
  unfold State.showActive
  split
  · exact grid_setF ..
  · rfl

@[simp] theorem grid_beginCmd (s : State) (q : Nat) : (s.beginCmd q).grid = s.grid := by
  unfold State.beginCmd
  extract_lets t
  have ht : t.grid = s.grid := (grid_setF ..).trans (grid_updHead ..)
  split
  · exact ht
  · exact (grid_showActive ..).trans ht

@[simp] theorem grid_showSlot (s : State) (p : Nat) : (s.showSlot p).grid = s.grid := by
  unfold State.showSlot
  split
  · rfl
  · simp only [grid_setF]

@[simp] theorem grid_showGlint (s : State) : s.showGlint.grid = s.grid :=
  foldl_keeps State.grid (fun _ _ _ => by simp only [grid_setF]) s

@[simp] theorem showGlint_hub (s : State) : s.showGlint.hub = s.hub :=
  foldl_keeps State.hub (fun _ _ _ => by simp only [setF_hub]) s

/-! ## The start of a step (04_tile_core.md R98; R364) -/

/-- The tiles that execute learn that a step begins. -/
def State.stepEvents (s : State) (p : Nat) : State :=
  (s.codedTiles p).foldl (fun s t => if (s.tile t).halted then s else s.updTile t fun y => y.bump 1 0 1) s

/-- An event of a tile leaves whether it has code, has halted normally and has reported its step. -/
theorem bump_program (s : State) (t src arg n k : Nat) :
    let y := (s.updTile t fun y => y.bump src arg n).tile k
    y.coded = (s.tile k).coded ∧ y.normalEnd = (s.tile k).normalEnd ∧ y.tileStep = (s.tile k).tileStep := by
  intro y
  rcases eq_or_ne k t with rfl | hk
  · have hy : y = (s.tile k).bump src arg n := tile_updTile_same ..
    rw [hy]
    exact ⟨rfl, rfl, rfl⟩
  · have hy : y = s.tile k := tile_updTile_other _ _ _ _ hk
    rw [hy]
    exact ⟨rfl, rfl, rfl⟩

/-- What the start of a step leaves of a state: memory, the fabric, the frame, the partitions, and of each tile whether it has code,
has halted normally and has reported. -/
def State.beyondEvents (s : State) : Mem × Fabric × FrameImage × List (Nat × Part) × (Nat → Bool × Bool × Option Nat) :=
  (s.mem, s.fab, s.frame, s.parts, fun k => ((s.tile k).coded, (s.tile k).normalEnd, (s.tile k).tileStep))

theorem beyondEvents_bump (s : State) (t : Nat) : (s.updTile t fun y => y.bump 1 0 1).beyondEvents = s.beyondEvents := by
  simp only [State.beyondEvents, bump_program]
  rfl

theorem beyondEvents_stepEvents (s : State) (p : Nat) : (s.stepEvents p).beyondEvents = s.beyondEvents :=
  foldl_keeps State.beyondEvents (fun u t _ => by
    split
    · rfl
    · exact beyondEvents_bump u t) s

section
variable {s u : State} (h : u.beyondEvents = s.beyondEvents)
include h

theorem program_of_beyondEvents (k : Nat) : (u.tile k).coded = (s.tile k).coded ∧
    (u.tile k).normalEnd = (s.tile k).normalEnd ∧ (u.tile k).tileStep = (s.tile k).tileStep := by
  have htile := congrFun (congrArg (·.2.2.2.2) h) k
  simp only [State.beyondEvents, Prod.mk.injEq] at htile
  exact htile

theorem codedTiles_of_beyondEvents (p : Nat) : u.codedTiles p = s.codedTiles p := by
  have hframe : u.frame = s.frame := congrArg (·.2.2.1) h
  rw [State.codedTiles, State.partTiles, State.rect, hframe]
  exact List.filter_congr fun k _ => (program_of_beyondEvents h k).1

end

/-- The run of a step that begins. -/
def Part.newRun (x : Part) (q : Nat) : StepRun :=
  { queue := q, n := (x.stepNo + 1) % 2 ^ 64, gen := x.gen, phase := .compute, uses := x.setOf x.gen, units := [], order := 0 }

/-- The partition of a step that begins. -/
def Part.begun (x : Part) (q : Nat) : Part :=
  { x with stepNo := (x.stepNo + 1) % 2 ^ 64, stepGen := x.gen, uses := x.setOf x.gen, step := some (x.newRun q) }

/-- A step has begun: its number, its generation and its set are recorded. -/
def State.stepBegun (s : State) (q p : Nat) : State :=
  ((s.beginCmd q).updHead q fun c => { c with gen := (s.part p).gen, info := ((s.part p).stepNo + 1) % 2 ^ 64 }).updPart p
    fun x => { x with
      stepNo := ((s.part p).stepNo + 1) % 2 ^ 64, stepGen := x.gen, uses := (s.part p).setOf (s.part p).gen,
      step := some { queue := q, n := ((s.part p).stepNo + 1) % 2 ^ 64, gen := x.gen, phase := .compute,
                     uses := (s.part p).setOf (s.part p).gen, units := [], order := 0 } }

section
variable (s : State) (q p : Nat)

theorem grid_before_step (f : HubCmd → HubCmd) : ((s.beginCmd q).updHead q f).grid = s.grid :=
  (grid_updHead ..).trans (grid_beginCmd ..)

theorem stepBegun_part : (s.stepBegun q p).part p = (s.part p).begun q := by
  rw [State.stepBegun, part_updPart_same, part_of_grid (grid_before_step ..)]
  rfl

theorem stepBegun_keeps : (s.stepBegun q p).mem = s.mem ∧ (s.stepBegun q p).fab = s.fab ∧
    (∀ k, (s.stepBegun q p).tile k = s.tile k) ∧ (s.stepBegun q p).codedTiles p = s.codedTiles p := by
  have h := grid_before_step s q fun c => { c with gen := (s.part p).gen, info := ((s.part p).stepNo + 1) % 2 ^ 64 }
  exact ⟨(mem_of_grid h :), (fab_of_grid h :), (tile_of_grid h :), (codedTiles_of_grid h p :)⟩

/-- The state of a step that has begun and is shown. -/
def State.stepStarted : State := ((s.stepBegun q p).stepEvents p).showSlot p

theorem stepStarted_part : (s.stepStarted q p).part p = (s.part p).begun q := by
  have hparts : ((s.stepBegun q p).stepEvents p).parts = (s.stepBegun q p).parts :=
    congrArg (·.2.2.2.1) (beyondEvents_stepEvents ..)
  rw [State.stepStarted, part_of_grid (grid_showSlot ..), State.part, hparts]
  exact stepBegun_part s q p

theorem stepStarted_mem : (s.stepStarted q p).mem = s.mem :=
  ((mem_of_grid (grid_showSlot ..)).trans (congrArg Prod.fst (beyondEvents_stepEvents ..))).trans (stepBegun_keeps s q p).1

theorem stepStarted_fab : (s.stepStarted q p).fab = s.fab :=
  ((fab_of_grid (grid_showSlot ..)).trans (congrArg (·.2.1) (beyondEvents_stepEvents ..))).trans (stepBegun_keeps s q p).2.1

theorem stepStarted_codedTiles : (s.stepStarted q p).codedTiles p = s.codedTiles p := by
  obtain ⟨-, -, -, hcoded⟩ := stepBegun_keeps s q p
  rw [State.stepStarted, codedTiles_of_grid (grid_showSlot ..), codedTiles_of_beyondEvents (beyondEvents_stepEvents ..), hcoded]

theorem stepStarted_tile (k : Nat) : ((s.stepStarted q p).tile k).normalEnd = (s.tile k).normalEnd ∧
    ((s.stepStarted q p).tile k).tileStep = (s.tile k).tileStep := by
  obtain ⟨-, -, htile, -⟩ := stepBegun_keeps s q p
  obtain ⟨-, hend, hreport⟩ := program_of_beyondEvents (beyondEvents_stepEvents (s.stepBegun q p) p) k
  rw [State.stepStarted, tile_of_grid (grid_showSlot ..), hend, hreport, htile]
  exact ⟨rfl, rfl⟩

end

section
variable {s v : State} {q : QueueIx} {c : HubCmd} {p k : Nat}

theorem tryStart_of_go {op : Nat} (hlook : s.lookStart q op = (v, .go c)) (f : HubCmd → State → State) :
    s.tryStart q op f = f c v := by
  rw [State.tryStart, hlook]

/-- A STEP that nothing holds back begins its step; the step goes on as it was while a coded tile is not done. -/
theorem stepCmd_of_go (hlook : s.lookStart q 0x02 = (v, .go c)) (hbound : v.boundPart (v.qCtx q) = some p)
    (hfree : ((v.part p).step.isSome || (v.part p).staging || v.snapReads p || v.movesRun p || v.movesWait p c.arrived ||
      !((v.partClusters p).all fun c => v.cluster c = 0)) = false) :
    exec (.stepCmd q) s = .next ((v.stepStarted q p).finishStep p) := by
  refine congrArg Host.Outcome.next ((tryStart_of_go hlook _).trans ?_)
  rw [hbound]
  dsimp only
  rw [if_neg (Bool.eq_false_iff.1 hfree)]
  rfl

end

/-! ## The pass (09_parameter_update.md R216, R226) -/

/-- A filter that one number below `n` passes finds that number. -/
theorem filter_range_eq_singleton {n p : Nat} (hp : p < n) {f : Nat → Bool} (h : ∀ k < n, f k = true ↔ k = p) :
    (List.range n).filter f = [p] := by
  have same : (List.range n).filter f = (List.range n).filter (· == p) :=
    List.filter_congr fun k hk => Bool.eq_iff_iff.2 ((h k (List.mem_range.1 hk)).trans beq_iff_eq.symm)
  rw [same, List.filter_beq, List.count_eq_one_of_mem List.nodup_range (List.mem_range.2 hp)]
  rfl

/-- The one pass that waits for a unit takes a place there. -/
theorem glintPassStart_of_one {s : State} {c : CtrlIx} {p : Nat}
    (hone : ((List.range 32).filter fun p => (s.part p).passUnits.contains (c.val, false) && !(s.part p).reading) = [p])
    (hplaced : ((List.range 32).filter fun k => (s.part k).passUnits.contains (c.val, true)).length < 4) :
    exec (.glintPassStart c) s = .next (s.updPart p fun x => { x with step := x.step.map fun r => { r with
      units := r.units.map fun y => if y.1 = c.val then (c.val, true) else y } }).showGlint := by
  show execGlintPassStart c s = _
  simp only [execGlintPassStart, hone, List.foldl_cons, List.foldl_nil, if_neg (Nat.not_le.2 hplaced)]

theorem qHead_endCmd {s : State} {q code : Nat} {d : HubCmd} (h : (s.endCmd q code).qHead q = some d) :
    d.stage = .ended ∧ d.code = code := by
  have hq : (s.endCmd q code).qHead q =
      ((s.updHead q fun c => { c with stage := .ended, code := code, load := none }).qCmds q).head? := rfl
  rw [hq] at h
  cases hcmds : s.qCmds q with
  | nil =>
    rw [State.updHead, hcmds] at h
    dsimp only at h
    rw [hcmds] at h
    cases h
  | cons c rest =>
    rw [qCmds_updHead _ hcmds] at h
    cases h
    exact ⟨rfl, rfl⟩

/-- A pass that has its place on every unit ends its step's pass, whatever it has made. -/
theorem glintPassComplete_of_placed {s : State} {p : PartIx} {r : StepRun} (hstep : (s.part p).step = some r)
    (hphase : r.phase = .pass) (hall : ∀ y ∈ r.units, y.2 = true) : ∃ v : State, exec (.glintPassComplete p) s =
      .next ((v.updPart p fun x => { x with step := some { r with phase := .ended, units := [] } }).endCmd r.queue 0).showGlint := by
  have placed : (r.units.any fun u => !u.2) = false := by
    rw [List.any_eq_false]
    intro y hy
    rw [hall y hy]
    decide
  have goes_on : ¬ (r.phase ≠ .pass || r.units.any fun u => !u.2) = true := by simp [hphase, placed]
  show ∃ v : State, execGlintPassComplete p s = _
  unfold execGlintPassComplete
  extract_lets k
  rw [hstep]
  dsimp only
  rw [if_neg goes_on]
  exact ⟨_, rfl⟩

/-- Settles O25: the step that starts is `stepStarted`, on which nothing is done yet; the two events of a pass are those of
`glintPassStart_of_one` and `glintPassComplete_of_placed`. -/
theorem stepStartsAndPasses : Obligations.StepStartsAndPasses := by
  refine ⟨fun s v q c p k hlook hbound => ?start,
    fun s c p r hstep hunit hreading hothers hplaced => ?place, fun s p r hstep hphase hall => ?complete⟩
  case start =>
    intro x n hstep hstaging hsnap hrun hwait hclusters hk hend hreport
    have active : ((v.partClusters p).all fun c => v.cluster c = 0) = true :=
      List.all_eq_true.2 fun cl hcl => decide_eq_true (hclusters cl hcl)
    have hexec := stepCmd_of_go hlook hbound (by
      simp only [show (v.part p).step = none from hstep, show (v.part p).staging = false from hstaging, hsnap, hrun, hwait, active,
        Option.isSome_none, Bool.or_self, Bool.not_true])
    obtain ⟨hend', hreport'⟩ := stepStarted_tile v q p k
    rw [finishStep_of_not_done (r := x.newRun q) (congrArg Part.step (stepStarted_part v q p))
      ((stepStarted_codedTiles v q p).symm ▸ hk) (hend'.trans hend) (hreport'.symm ▸ hreport)] at hexec
    refine ⟨_, hexec, ?_⟩
    rw [stepStarted_part]
    exact ⟨rfl, rfl, rfl, rfl, rfl, stepStarted_mem .., stepStarted_fab ..⟩
  case place =>
    have waits : (s.part p).passUnits.contains (c.val, false) = true := by
      rw [Part.passUnits, hstep]
      exact List.contains_iff_mem.2 hunit
    have hone := filter_range_eq_singleton (f := fun p => (s.part p).passUnits.contains (c.val, false) && !(s.part p).reading)
      p.isLt fun k hk => by
        rcases eq_or_ne k p.val with rfl | hkp
        · simp only [waits, hreading, Bool.not_false, Bool.and_self]
        · simp only [hothers k hk hkp, hkp, Bool.false_and, Bool.false_eq_true]
    refine ⟨_, glintPassStart_of_one hone hplaced, ?_, fun k hk => ?_, (tiles_of_grid (grid_showGlint _) :),
      (mem_of_grid (grid_showGlint _) :)⟩
    · rw [part_of_grid (grid_showGlint _), part_updPart_same]
      dsimp only
      rw [hstep]
      rfl
    · rw [part_of_grid (grid_showGlint _), part_updPart_other _ _ _ _ hk]
  case complete =>
    obtain ⟨v, hexec⟩ := glintPassComplete_of_placed hstep hphase hall
    refine ⟨_, hexec, ?_, fun d hd => ?_⟩
    · rw [part_of_grid (grid_showGlint _), part_of_beside (beside_endCmd ..), part_updPart_same]
    · rw [State.qHead, State.qCmds, showGlint_hub] at hd
      exact qHead_endCmd hd

end Sys2Proof.Machine
end

section
/-!
PROOFS. The hub's stop and the debug controls of a tile (04_tile_core.md R111, R114, R116, R117; 18_power_clocks_and_reset.md
R434).
-/

namespace Sys2Proof.Machine

/-! ## A cluster wakes (18_power_clocks_and_reset.md R434) -/

/-- A state without its registers. -/
def State.bare (s : State) : State := { s with regs := [] }

section
variable {s u : State} (h : u.bare = s.bare)
include h

theorem tiles_of_bare : u.tiles = s.tiles := (congrArg State.tiles h :)
theorem tile_of_bare (k : Nat) : u.tile k = s.tile k := by rw [State.tile, tiles_of_bare h, State.tile]
theorem pilot_of_bare : u.pilot = s.pilot := (congrArg State.pilot h :)

theorem windowOpen_of_bare (t : Nat) : u.windowOpen t = s.windowOpen t :=
  (congrArg (fun v : State => v.windowOpen t) h :)

end

@[simp] theorem bare_setF (s : State) (f : Fld) (i j v : Nat) : (s.setF f i j v).bare = s.bare := rfl
@[simp] theorem bare_set (s : State) (f : Fld) (v : Nat) : (s.set f v).bare = s.bare := rfl

@[simp] theorem bare_showCalib (s : State) : s.showCalib.bare = s.bare := by
  unfold State.showCalib
  extract_lets all stale t
  have ht : t.bare = s.bare := by
    unfold t
    split <;> rfl
  simp only [bare_set, ht]

@[simp] theorem bare_powerClusters (s : State) (l : List Nat) (v : Nat) : (s.powerClusters l v).bare = s.bare :=
  (bare_showCalib _).trans (foldl_keeps State.bare (fun _ _ _ => bare_setF ..) s)

@[simp] theorem bare_wakeTile (s : State) (t : Nat) : (s.wakeTile t).bare = s.bare := by
  unfold State.wakeTile
  dsimp only
  split
  · exact bare_powerClusters ..
  · rfl

theorem wakeTile_of_active {s : State} {t : Nat} (h : s.cluster (tileCluster t) = 0) : s.wakeTile t = s :=
  if_neg (by rw [h]; decide)

theorem canon_wakeTile {s : State} (h : s.canon) (t : Nat) : (s.wakeTile t).canon := (Keep.wakeTile (Keep.refl s)).canon h

/-! ## Controls of the tile window (04_tile_core.md R114, R117) -/

section
variable {s : State} {t : TileIx} (hup : s.hubUp = true) (hdebug : s.pilot.debugTile = true)
include hup hdebug

/-- With debug authorised a control acts on the tile of the woken cluster. -/
theorem tileCtrl_of_debug (f : State → State) : s.tileCtrl t f = f (s.wakeTile t) := by
  rw [State.tileCtrl, cxlIo_of_hubUp hup, if_pos hdebug]

theorem haltReq_of_running (hcoded : (s.tile t).coded = true) (hhalted : (s.tile t).halted = false) :
    exec (.haltReq t) s = (s.wakeTile t).withTile t
      { s.tile t with halted := true, stepping := false, cause := 3, faultPc := (s.tile t).pc } := by
  have same : (s.wakeTile t).tile t = s.tile t := tile_of_bare (bare_wakeTile ..) t
  have halts : (((s.wakeTile t).tile t).coded && !((s.wakeTile t).tile t).halted) = true := by rw [same, hcoded, hhalted]; rfl
  refine congrArg Host.Outcome.next ((tileCtrl_of_debug hup hdebug _).trans ((if_pos halts).trans ?_))
  rw [State.updTile, same]

theorem resume_of_debugHalted (hhalted : (s.tile t).debugHalted = true) :
    exec (.tileResume t) s = (s.wakeTile t).withTile t { s.tile t with halted := false, cause := 0 } := by
  have same : (s.wakeTile t).tile t = s.tile t := tile_of_bare (bare_wakeTile ..) t
  have resumes : ((s.wakeTile t).tile t).debugHalted = true := by rw [same, hhalted]
  refine congrArg Host.Outcome.next ((tileCtrl_of_debug hup hdebug _).trans ((if_pos resumes).trans ?_))
  rw [State.updTile, same]

/-- The tile that takes a single step. -/
def Tile.stepped (x : Tile) : Tile := { x with halted := false, stepping := true, cause := 0 }

/-- A single step of a tile in no wait runs the instruction at its PC. -/
theorem sstep_of_word (hhalted : (s.tile t).debugHalted = true) (hwait : (s.tile t).wait = none) :
    exec (.sstep t false) s = tileExec (tileDecode t (smapGet 0 (s.tile t).imem (s.tile t).pc))
      ((s.wakeTile t).setTile t (s.tile t).stepped) := by
  have same : (s.wakeTile t).tile t = s.tile t := tile_of_bare (bare_wakeTile ..) t
  have ordered : (s.tileCtrl t fun s => s) = s.wakeTile t := tileCtrl_of_debug hup hdebug _
  have steps : (s.hubUp && s.pilot.debugTile && (s.tile t).debugHalted) = true := by rw [hup, hdebug, hhalted]; rfl
  have no_wait : ¬ (s.tile t).wait.isSome = true := by rw [hwait]; decide
  show execSstep t false s = _
  rw [execSstep]
  dsimp only
  rw [ordered, if_pos steps, if_neg no_wait, if_neg Bool.false_ne_true, State.updTile, same]
  rfl

end

theorem tileDecode_nop_word (t : TileIx) : tileDecode t 0xC0000000 = .nop t ⟨0, false⟩ := rfl

/-- A NOP of a single-stepping tile halts it with CAUSE 4 one instruction on. -/
theorem nop_of_stepping {w : State} {t : TileIx} {x : Tile} (hcanon : w.canon) (hactive : w.active t = true)
    (hcoded : x.coded = true) (hwait : x.wait = none) (hpc : x.pc < 32767) :
    exec (.nop t ⟨0, false⟩) (w.setTile t x.stepped) = w.withTile t
      { x with halted := true, stepping := false, cause := 4, pc := x.pc + 1, cycle := x.cycle + 1, faultPc := x.pc + 1 } := by
  have runs : (w.setTile t x.stepped).runs t = true := by
    have active : (w.setTile t x.stepped).active t = true := hactive
    rw [State.runs, tile_setTile_same, active]
    simp [Tile.stepped, hcoded, hwait]
  have passes : (x.stepped).guard ⟨0, false⟩ = true := rfl
  have low : x.stepped.pc < 32767 := hpc
  show Host.Outcome.next (State.issue _ t _ fun s => s.advance t 1) = _
  rw [State.issue, if_pos runs, tile_setTile_same, if_pos passes, State.advance, tile_setTile_same, if_pos low, State.updTile,
    tile_setTile_same, setTile_setTile _ _ _ _ hcanon]
  rfl

/-! ## TILE_MEM_DATA (04_tile_core.md R116, R117) -/

/-- The address of an access, aligned, and where ADDR goes after it. -/
def Tile.accessAddr (x : Tile) : Nat := x.memAddr.toNat / 8 * 8

/-- ADDR has moved on behind an access of the scratchpad. -/
def Tile.accessed (x : Tile) (a : Nat) : Tile := { x with memAddr := BitVec.ofNat 21 ((a + 8) % 0x200000) }

section
variable {s : State} {t : TileIx} (hspace : (s.tile t).memSpace = 0)
include hspace

theorem memData_write (v : Word) : s.memData t true v = (s.setTile t
    (((s.tile t).storeSp (s.tile t).accessAddr (leBytes 8 v.toNat)).accessed (s.tile t).accessAddr), 0) := by
  have space : (s.tile t).memSpace.toNat = 0 := by rw [hspace]; rfl
  have low : (s.tile t).memAddr.toNat / 8 * 8 % spaceSize 0 = (s.tile t).accessAddr :=
    Nat.mod_eq_of_lt (lt_of_le_of_lt (Nat.div_mul_le_self _ 8) (s.tile t).memAddr.isLt)
  simp only [State.memData, space, low]
  rfl

theorem memData_read (v : Word) : s.memData t false v =
    ((s.setTile t ((s.tile t).accessed (s.tile t).accessAddr)).tick, s.seeWord t ((s.tile t).accessAddr / 8)) := by
  have space : (s.tile t).memSpace.toNat = 0 := by rw [hspace]; rfl
  have low : (s.tile t).memAddr.toNat / 8 * 8 % spaceSize 0 = (s.tile t).accessAddr :=
    Nat.mod_eq_of_lt (lt_of_le_of_lt (Nat.div_mul_le_self _ 8) (s.tile t).memAddr.isLt)
  simp only [State.memData, space, low]
  exact Prod.ext rfl ((BitVec.ofNat_toNat ..).trans (BitVec.setWidth_eq _))

end

section
variable {s : State} {t : TileIx} (hup : s.hubUp = true) (hdebug : s.pilot.debugTile = true)
include hup hdebug

theorem tileMemData_of_open (hopen : s.windowOpen t = true) (write : Bool) (v : Word) :
    exec (.tileMemData t write v) s =
      .next (((s.wakeTile t).memData t write v).1.giveRead write ((s.wakeTile t).memData t write v).2) := by
  have opens : (s.wakeTile t).windowOpen t = true := (windowOpen_of_bare (bare_wakeTile ..) t).trans hopen
  show Host.Outcome.next (s.cxlIo _) = _
  rw [cxlIo_of_hubUp hup]
  simp only [hdebug, opens, Bool.not_true, Bool.false_eq_true, if_false]

theorem tileMemData_of_closed (hclosed : s.windowOpen t = false) (write : Bool) (v : Word) :
    exec (.tileMemData t write v) s =
      .next (((s.wakeTile t).setTile t { s.tile t with dbgDenied := true }).giveRead write 0) := by
  have closes : (s.wakeTile t).windowOpen t = false := (windowOpen_of_bare (bare_wakeTile ..) t).trans hclosed
  have same : (s.wakeTile t).tile t = s.tile t := tile_of_bare (bare_wakeTile ..) t
  show Host.Outcome.next (s.cxlIo _) = _
  rw [cxlIo_of_hubUp hup]
  simp only [hdebug, closes, Bool.not_true, Bool.not_false, Bool.false_eq_true, if_true, if_false, State.updTile, same]

end

/-! ## The hub's stop (04_tile_core.md R111) -/

theorem countWait_fab (s : State) (t : Nat) : (s.countWait t).fab = s.fab := by
  unfold State.countWait
  split
  · exact countPart_fab ..
  · rfl

@[simp] theorem countWait_tile (s : State) (t k : Nat) : (s.countWait t).tile k = s.tile k := by
  unfold State.countWait
  split
  · exact countPart_tile ..
  · rfl

/-- The halt of a tile that runs no unit command changes no other tile, and nothing of the fabric. -/
theorem haltTile_of_still {s : State} {t : Nat} (hrun : (s.tile t).anyRunning = false) (cause code : Nat) :
    let u := s.haltTile t cause code
    u.fab = s.fab ∧ u.tile t = (s.tile t).stop cause code ∧ ∀ k, k ≠ t → u.tile k = s.tile k := by
  intro u
  have hu : u = (s.countWait t).updTile t fun x => x.stop cause code := by
    simp only [u, State.haltTile, hrun, Bool.false_eq_true, if_false]
  rw [hu]
  refine ⟨countWait_fab .., ?_, fun k hk => ?_⟩
  · rw [tile_updTile_same, countWait_tile]
  · rw [tile_updTile_other _ _ _ _ hk, countWait_tile]

/-- A stop on its way to a tile. -/
def NetMsg.stopTo (t : Nat) (m : NetMsg) : Bool := m.kind = .stop && m.dstTile = t

theorem tileStop_of_stop {s : State} {t : TileIx} {m : NetMsg}
    (h : s.fab.net.find? (s.reaching (NetMsg.stopTo t)) = some m) (hcoded : (s.tile t).coded = true)
    (hhalted : (s.tile t).halted = false) :
    exec (.tileStop t) s = .next ((s.taken (NetMsg.stopTo t) m).haltTile t 2 0) := by
  have hsome : s.takeNet (fun m => m.kind = .stop && m.dstTile = t.val) = some (m, s.taken (NetMsg.stopTo t) m) :=
    takeNet_of_find h
  show execTileStop t s = _
  simp only [execTileStop, hsome, taken_tile, hcoded, hhalted, Bool.not_false, Bool.true_or, Bool.and_self, if_true]

/-- Settles O16: each order by its lemma, on the state in which the tile's cluster has woken. -/
theorem tileStopAndDebugControl : Obligations.TileStopAndDebugControl := by
  unfold Obligations.TileStopAndDebugControl
  intro s t hcanon x w
  have same : w.tile t = x := tile_of_bare (bare_wakeTile ..) t
  refine ⟨wakeTile_of_active, fun hup hdebug => ⟨haltReq_of_running hup hdebug, fun hhalted hcause => ?halted,
    fun hopen hspace v => ?opened, fun hclosed v => ?closed⟩, fun m rest hnet hkind hdst hway hcoded hhalted hrun => ?stop⟩
  case halted =>
    have debugHalted : x.debugHalted = true := by
      rcases hcause with h | h <;> simp [Tile.debugHalted, hhalted, h]
    refine ⟨resume_of_debugHalted hup hdebug debugHalted, fun hactive hcoded hwait hpc hword => ?_⟩
    rw [sstep_of_word hup hdebug debugHalted hwait, hword, tileDecode_nop_word]
    exact nop_of_stepping (canon_wakeTile hcanon t) hactive hcoded hwait hpc
  case opened =>
    have hspace' : (w.tile t).memSpace = 0 := by rw [same, hspace]
    have move : ∀ a : Nat, (BitVec.ofNat 21 ((a + 8) % 0x200000)).toNat = (a + 8) % 0x200000 := fun a =>
      Nat.mod_eq_of_lt (Nat.mod_lt _ (by decide))
    refine ⟨⟨(x.storeSp x.accessAddr (leBytes 8 v.toNat)).accessed x.accessAddr, ?_, ?_, move _, rfl, rfl, rfl⟩,
      w.seeWord t (x.accessAddr / 8), ?_, fun hstill => ?_, fun hflight => ?_⟩
    · rw [tileMemData_of_open hup hdebug hopen, memData_write hspace', same]
      rfl
    · have stored := readSp_storeSp_same x x.accessAddr (leBytes 8 v.toNat)
      rwa [length_leBytes] at stored
    · rw [tileMemData_of_open hup hdebug hopen, memData_read hspace', same]
      rfl
    · have whole : 8 * (x.accessAddr / 8) = x.accessAddr := by
        unfold Tile.accessAddr
        omega
      rw [seeWord_of_still (by rwa [same]), same, Tile.spWord, whole]
      rfl
    · exact seeWord_mem (by rwa [same])
  case closed =>
    rw [tileMemData_of_closed hup hdebug hclosed, tileMemData_of_closed hup hdebug hclosed]
    exact ⟨rfl, rfl⟩
  case stop =>
    have first : s.reaching (NetMsg.stopTo t) m = true := by
      simp [State.reaching, NetMsg.stopTo, hkind, hdst, hway]
    have found : s.fab.net.find? (s.reaching (NetMsg.stopTo t)) = some m := by rw [hnet, List.find?_cons_of_pos first]
    obtain ⟨hfab, htile, hothers⟩ := haltTile_of_still (s := s.taken (NetMsg.stopTo t) m) (t := t)
      (by rwa [taken_tile]) 2 0
    refine ⟨_, tileStop_of_stop found hcoded hhalted, ?_, fun k hk => ?_, ?_⟩
    · rw [hfab, taken_net, hnet, List.eraseP_cons_of_pos first]
    · rw [hothers k hk, taken_tile]
    · rw [htile, taken_tile]
      rfl

end Sys2Proof.Machine
end

section
/-!
PROOFS. What the work of a tile's units leaves of the tile's core, and the start of unit commands (04_tile_core.md R94, R96, R99,
R100, R106; 05_matrix_array.md R141).
-/

namespace Sys2Proof.Machine

/-! ## What the units leave of a tile -/

/-- A command as its unit's queue shows it. -/
def UCmd.shown (c : UCmd) : BitVec 32 × List Word × CmdPhase := (c.seq, c.desc, c.phase)

/-- A tile without its queues, endpoints, random streams, scratchpad, accumulator store and latches. -/
def Tile.core (x : Tile) : Tile :=
  { x with cubeQ := [], vecQ := [], movQ := [], eps := [], rng := Tile.reset.rng, scratch := [], acc := [], latch := Tile.reset.latch }

/-- What the transfers of the units leave: the core, the commands as the queues show them, and the streams of the endpoints. -/
def Tile.shape (x : Tile) : Tile × (UnitKind → List (BitVec 32 × List Word × CmdPhase)) × (Nat → Nat) :=
  (x.core, fun u => (x.queue u).map UCmd.shown, fun ch => (x.ep ch).stream)

section
variable {x y : Tile} (h : y.shape = x.shape)
include h

theorem core_of_shape : y.core = x.core := congrArg Prod.fst h

theorem shown_of_shape (u : UnitKind) : (y.queue u).map UCmd.shown = (x.queue u).map UCmd.shown :=
  congrFun (congrArg (·.2.1) h) u

theorem stream_of_shape (ch : Nat) : (y.ep ch).stream = (x.ep ch).stream := congrFun (congrArg (·.2.2) h) ch

end

/-- Tiles with one core, one set of queues as shown and one set of streams have one shape. -/
theorem shape_congr {x y : Tile} (hcore : y.core = x.core)
    (hqueue : ∀ u, (y.queue u).map UCmd.shown = (x.queue u).map UCmd.shown) (hep : ∀ ch, (y.ep ch).stream = (x.ep ch).stream) :
    y.shape = x.shape := by
  rw [Tile.shape, Tile.shape, hcore, funext hqueue, funext hep]

/-- A change of an endpoint that keeps its stream. -/
theorem shape_updEp (x : Tile) (ch : Nat) {f : Endpoint → Endpoint} (hf : ∀ e, (f e).stream = e.stream) :
    (x.updEp ch f).shape = x.shape := by
  refine shape_congr rfl (fun u => by cases u <;> rfl) fun k => ?_
  rcases eq_or_ne k ch with rfl | hk
  · rw [ep_updEp_same, hf]
  · exact congrArg Endpoint.stream (smapGet_upd_other _ _ _ hk)

@[simp] theorem queue_setQueue (x : Tile) (u : UnitKind) (q : List UCmd) : (x.setQueue u q).queue u = q := by cases u <;> rfl

theorem queue_setQueue_other (x : Tile) {u v : UnitKind} (q : List UCmd) (h : v ≠ u) : (x.setQueue u q).queue v = x.queue v := by
  cases u <;> cases v <;> simp [Tile.setQueue, Tile.queue] at h ⊢

theorem core_setQueue (x : Tile) (u : UnitKind) (q : List UCmd) : (x.setQueue u q).core = x.core := by cases u <;> rfl

/-- A queue replaced by one that shows the same. -/
theorem shape_setQueue (x : Tile) (u : UnitKind) {q : List UCmd} (hq : q.map UCmd.shown = (x.queue u).map UCmd.shown) :
    (x.setQueue u q).shape = x.shape := by
  refine shape_congr (core_setQueue ..) (fun v => ?_) fun ch => by cases u <;> rfl
  rcases eq_or_ne v u with rfl | hv
  · rw [queue_setQueue, hq]
  · rw [queue_setQueue_other _ _ hv]

/-- Changes that the queue does not show. -/
theorem map_shown {f : UCmd → UCmd} (hf : ∀ c, (f c).shown = c.shown) (q : List UCmd) :
    (q.map f).map UCmd.shown = q.map UCmd.shown := by
  rw [List.map_map]
  exact List.map_congr_left fun c _ => hf c

/-! ## Rings (04_tile_core.md R96) -/

theorem shape_freeRings (x : Tile) (u : UnitKind) (c : UCmd) : (x.freeRings u c).shape = x.shape :=
  foldl_keeps Tile.shape (fun y ch _ => shape_updEp y ch fun _ => by rfl) x

theorem scratch_freeRings (x : Tile) (u : UnitKind) (c : UCmd) : (x.freeRings u c).scratch = x.scratch :=
  foldl_keeps Tile.scratch (fun _ _ _ => by rfl) x

/-- What a running command takes from one ring. -/
theorem shape_taken (x : Tile) (u : UnitKind) (c : UCmd) (ch n : Nat) (b : Bytes) :
    ((x.setQueue u ((x.queue u).map fun o => if o.seq = c.seq then { o with got := o.got ++ [(ch, b)] } else o)).updEp ch
      fun e => e.consume n).shape = x.shape :=
  (shape_updEp _ ch fun _ => by rfl).trans (shape_setQueue _ _ (map_shown (fun o => by split <;> rfl) _))

theorem shape_drainCmd (x : Tile) (u : UnitKind) (c : UCmd) : (x.drainCmd u c).shape = x.shape := by
  unfold Tile.drainCmd
  split
  · rfl
  · refine foldl_keeps Tile.shape (fun y ch _ => ?_) x
    extract_lets e n b mark
    split
    · rfl
    · exact shape_taken ..

theorem shape_drain (x : Tile) : x.drain.shape = x.shape :=
  foldl_keeps Tile.shape (fun _ _ _ => foldl_keeps Tile.shape (fun _ _ _ => shape_drainCmd ..) _) x

/-- The scratchpad and the accumulator store. -/
def Tile.stores (x : Tile) : List (Nat × BitVec 8) × List (Nat × BitVec 8) := (x.scratch, x.acc)

theorem stores_setQueue (x : Tile) (u : UnitKind) (q : List UCmd) : (x.setQueue u q).stores = x.stores := by cases u <;> rfl

theorem stores_drainCmd (x : Tile) (u : UnitKind) (c : UCmd) : (x.drainCmd u c).stores = x.stores := by
  unfold Tile.drainCmd
  split
  · rfl
  · refine foldl_keeps Tile.stores (fun y ch _ => ?_) x
    extract_lets e n b mark
    split
    · rfl
    · exact stores_setQueue ..

theorem stores_drain (x : Tile) : x.drain.stores = x.stores :=
  foldl_keeps Tile.stores (fun _ _ _ => foldl_keeps Tile.stores (fun _ _ _ => stores_drainCmd ..) _) x

/-! ## The start of a command (04_tile_core.md R99, R100) -/

/-- The tile and the command once the draws are reserved. -/
def Tile.reserved (x : Tile) (c : UCmd) (stream blocks : Nat) : Tile × UCmd :=
  if blocks = 0 then (x, c) else x.reserve stream blocks c

/-- The tile in which a command has been marked as running. -/
def Tile.marked (x : Tile) (u : UnitKind) (c : UCmd) (n stream blocks : Nat) : Tile :=
  let r := x.reserved c stream blocks
  r.1.setQueue u (updCmd (r.1.queue u) r.2.seq fun _ => { r.2 with phase := .running, mark := n })

theorem reserved_tile (x : Tile) (c : UCmd) (stream blocks : Nat) :
    (x.reserved c stream blocks).1 = { x with rng := (x.reserved c stream blocks).1.rng } := by
  unfold Tile.reserved Tile.reserve
  split
  · rfl
  · dsimp only
    split <;> rfl

theorem reserved_cmd (x : Tile) (c : UCmd) (stream blocks : Nat) :
    (x.reserved c stream blocks).2.seq = c.seq ∧ (x.reserved c stream blocks).2.desc = c.desc := by
  unfold Tile.reserved Tile.reserve
  split
  · exact ⟨rfl, rfl⟩
  · dsimp only
    split <;> exact ⟨rfl, rfl⟩

theorem startUnit_eq (s : State) (t : Nat) (u : UnitKind) (c : UCmd) (stream blocks : Nat) :
    s.startUnit t u c stream blocks =
      (s.setTile t ((s.tile t).marked u c s.fresh stream blocks).drain).tick.tick.tick.tick := rfl

/-- A change of the command with a number reaches no command of another number. -/
theorem updCmd_cons {c : UCmd} {rest : List UCmd} (h : ∀ e ∈ rest, e.seq ≠ c.seq) (d : UCmd) :
    updCmd (c :: rest) c.seq (fun _ => d) = d :: rest := by
  have others : rest.map (fun e => if e.seq = c.seq then d else e) = rest :=
    (List.map_congr_left fun e he => if_neg (h e he)).trans (List.map_id _)
  rw [updCmd, List.map_cons, if_pos rfl, others]

section
variable {x : Tile} {u : UnitKind} {c : UCmd} {rest : List UCmd} (n stream blocks : Nat)

theorem queue_reserved (v : UnitKind) : (x.reserved c stream blocks).1.queue v = x.queue v := by
  rw [reserved_tile]
  cases v <;> rfl

/-- The command at the front runs; the queue shows the others as they were. -/
theorem shown_marked (hq : x.queue u = c :: rest) (hrest : ∀ e ∈ rest, e.seq ≠ c.seq) :
    ((x.marked u c n stream blocks).queue u).map UCmd.shown = (c.seq, c.desc, .running) :: rest.map UCmd.shown := by
  obtain ⟨hseq, hdesc⟩ := reserved_cmd x c stream blocks
  rw [Tile.marked, queue_setQueue, queue_reserved, hq, hseq, updCmd_cons hrest, List.map_cons]
  exact congrArg (· :: rest.map UCmd.shown) (Prod.ext hseq (Prod.ext hdesc rfl))

theorem queue_marked_other {v : UnitKind} (h : v ≠ u) : (x.marked u c n stream blocks).queue v = x.queue v := by
  rw [Tile.marked, queue_setQueue_other _ _ h, queue_reserved]

theorem core_marked : (x.marked u c n stream blocks).core = x.core := by
  rw [Tile.marked, core_setQueue, reserved_tile]
  rfl

theorem stores_marked : (x.marked u c n stream blocks).stores = x.stores := by
  rw [Tile.marked, stores_setQueue, reserved_tile]
  rfl

end

/-! ## The start events (04_tile_core.md R100, R106; 05_matrix_array.md R141; 07_vector_engine.md R170) -/

section
variable {s : State} {t : TileIx} {c : UCmd} {rest : List UCmd} (hqueued : c.phase = .queued) (hactive : s.active t = true)

section
include hqueued hactive

theorem cubeStart_of_front (hq : (s.tile t).cubeQ = c :: rest) :
    ∃ stream blocks, exec (.cubeCommandStart t) s = .next (s.startUnit t .cube c stream blocks) := by
  show ∃ stream blocks, execCubeCommandStart t s = _
  unfold execCubeCommandStart
  dsimp only
  rw [hq, List.find?_cons_of_pos (by simp [hqueued])]
  dsimp only
  rw [List.takeWhile_cons_of_neg (by simp), hactive, List.all_nil, if_pos (by rfl)]
  exact ⟨_, _, rfl⟩

theorem vectorStart_of_front (hq : (s.tile t).vecQ = c :: rest) (hcube : (s.tile t).cubeQ = []) :
    ∃ stream blocks, exec (.vectorCommandStart t) s = .next (s.startUnit t .vector c stream blocks) := by
  show ∃ stream blocks, execVectorCommandStart t s = _
  unfold execVectorCommandStart
  dsimp only
  rw [hq, hcube, List.head?_cons]
  dsimp only
  rw [hactive, hqueued, List.any_nil, if_pos (by rfl)]
  exact ⟨_, _, rfl⟩

theorem moverStart_of_front (hq : (s.tile t).movQ = c :: rest) (hrest : ∀ e ∈ rest, e.phase = .queued) :
    exec (.moverCommandStart t) s = .next (s.startUnit t .mover c 0 0) := by
  have none_live : ((c :: rest).filter fun e => e.phase.live) = [] := by
    refine List.filter_eq_nil_iff.2 fun e he => ?_
    rcases List.mem_cons.1 he with rfl | he
    · rw [hqueued]
      decide
    · rw [hrest e he]
      decide
  refine congrArg Host.Outcome.next ?_
  rw [hq, List.find?_cons_of_pos (by simp [hqueued])]
  dsimp only
  rw [none_live, List.takeWhile_cons_of_neg (by simp), hactive]
  exact if_pos (by simp)

end

/-- A cube command whose accumulator range overlaps that of a running one stays queued. -/
theorem cubeStart_of_overlap {r : UCmd} (hqueued : c.phase = .queued) (hq : (s.tile t).cubeQ = [r, c]) (hrun : r.phase = .running)
    (hne : r.seq ≠ c.seq)
    (hoverlap : disjoint (accRange r.desc).1 (accRange r.desc).2 (accRange c.desc).1 (accRange c.desc).2 = false) :
    exec (.cubeCommandStart t) s = .next s := by
  refine congrArg Host.Outcome.next ?_
  rw [hq, List.find?_cons_of_neg (by simp [hrun]), List.find?_cons_of_pos (by simp [hqueued])]
  dsimp only
  rw [List.takeWhile_cons_of_pos (by simp [hne]), List.takeWhile_cons_of_neg (by simp)]
  exact if_neg (by simp [hoverlap])

/-- With four commands in progress the mover starts none. -/
theorem moverStart_of_full (h : 4 ≤ ((s.tile t).movQ.filter fun e => e.phase.live).length) :
    exec (.moverCommandStart t) s = .next s := by
  refine congrArg Host.Outcome.next ?_
  split
  · rfl
  · exact if_neg (by simp [Nat.not_lt.2 h])

end

/-- The tile once the command at the front of a queue has started. -/
theorem startUnit_of_front {s : State} {t : Nat} {u : UnitKind} {c : UCmd} {rest : List UCmd} (stream blocks : Nat)
    (hq : (s.tile t).queue u = c :: rest) (hrest : ∀ e ∈ rest, e.seq ≠ c.seq) :
    let x := s.tile t
    ∃ y, s.startUnit t u c stream blocks = (s.setTile t y).tick.tick.tick.tick ∧
      (y.queue u).map UCmd.shown = (c.seq, c.desc, .running) :: rest.map UCmd.shown ∧
      (∀ v, v ≠ u → (y.queue v).map UCmd.shown = (x.queue v).map UCmd.shown) ∧ y.core = x.core ∧ y.stores = x.stores := by
  intro x
  refine ⟨_, startUnit_eq .., ?_, fun v hv => ?_, ?_, ?_⟩
  · rw [shown_of_shape (shape_drain _), shown_marked _ _ _ hq hrest]
  · rw [shown_of_shape (shape_drain _), queue_marked_other _ _ _ hv]
  · rw [core_of_shape (shape_drain _), core_marked]
  · rw [stores_drain, stores_marked]

/-- Settles O17: each start event by its own lemma; what it starts changes only what `startUnit_of_front` says. -/
theorem unitCommandsStart : Obligations.UnitCommandsStart := by
  intro s t u i c rest _ hunit x
  simp only [List.mem_cons, Prod.mk.injEq, List.not_mem_nil, or_false] at hunit
  refine ⟨fun hq hqueued hactive hrest hcube => ?start, fun r hu hq hrun hqueued hne hoverlap => ?overlap, fun hu hfull => ?full⟩
  case start =>
    have starts : ∃ stream blocks, exec i s = .next (s.startUnit t u c stream blocks) := by
      rcases hunit with ⟨rfl, rfl⟩ | ⟨rfl, rfl⟩ | ⟨rfl, rfl⟩
      · exact cubeStart_of_front hqueued hactive hq
      · exact vectorStart_of_front hqueued hactive hq (hcube rfl)
      · exact ⟨_, _, moverStart_of_front hqueued hactive hq fun e he => (hrest e he).2⟩
    obtain ⟨stream, blocks, hexec⟩ := starts
    obtain ⟨y, hy, hfront, hothers, hcore, hstores⟩ := startUnit_of_front stream blocks hq fun e he => (hrest e he).1
    have still_queued : rest.map UCmd.shown = rest.map fun e => (e.seq, e.desc, CmdPhase.queued) :=
      List.map_congr_left fun e he => by rw [UCmd.shown, (hrest e he).2]
    refine ⟨y, hexec.trans (congrArg _ hy), ?_, hothers, (congrArg Tile.g hcore :), (congrArg Tile.p hcore :),
      (congrArg Tile.pc hcore :), (congrArg Prod.fst hstores :), (congrArg Prod.snd hstores :),
      (congrArg Tile.unitFlags hcore :), ?_, (congrArg Tile.e hcore :)⟩
    · rw [still_queued] at hfront
      exact hfront
    · have done := congrArg (fun z : Tile => z.unitDone u) hcore
      cases u <;> exact done
  case overlap =>
    rcases hunit with ⟨rfl, rfl⟩ | ⟨rfl, rfl⟩ | ⟨rfl, rfl⟩
    · exact cubeStart_of_overlap hqueued hq hrun hne hoverlap
    · cases hu
    · cases hu
  case full =>
    rcases hunit with ⟨rfl, rfl⟩ | ⟨rfl, rfl⟩ | ⟨rfl, rfl⟩
    · cases hu
    · cases hu
    · exact moverStart_of_full hfull

end Sys2Proof.Machine
end

section
/-!
PROOFS. The completion of unit commands (04_tile_core.md R96, R100, R102, R105, R107; 05_matrix_array.md R139, R144;
06_accumulation_and_numerics.md R164).
-/

namespace Sys2Proof.Machine

/-! ## What the results of a command leave of a tile -/

theorem shown_ite {p : Prop} [Decidable p] {c d : UCmd} (h : d.shown = c.shown) : (if p then c else d).shown = c.shown := by
  split
  · rfl
  · exact h

theorem shape_noteRace (x : Tile) (who : Option (UnitKind × BitVec 32)) (a n : Nat) : (x.noteRace who a n).shape = x.shape := by
  refine shape_congr rfl (fun u => ?_) fun _ => rfl
  cases u <;>
  · refine map_shown (fun c => ?_) _
    exact shown_ite rfl

theorem shape_writeSp (x : Tile) (a : Nat) (b : Bytes) : (x.writeSp a b).shape = x.shape :=
  shape_congr rfl (fun u => by cases u <;> rfl) fun _ => rfl

theorem shape_outBytes (x : Tile) (u : UnitKind) (c : UCmd) (a : Nat) (b : Bytes) : (x.outBytes u c a b).shape = x.shape :=
  (shape_writeSp ..).trans (shape_noteRace ..)

/-- A change of the accumulator store and the latches only. -/
theorem shape_of_acc_latch {x y : Tile} (h : y = { x with acc := y.acc, latch := y.latch }) : y.shape = x.shape := by
  rw [h]
  exact shape_congr rfl (fun u => by cases u <;> rfl) fun _ => rfl

theorem shape_accAfter (x : Tile) (c : UCmd) (sums : List (List CubeOut)) : (x.accAfter c sums).shape = x.shape := by
  refine shape_of_acc_latch ?_
  unfold Tile.accAfter
  dsimp only
  split_ifs <;> rfl

theorem shape_latchAfter (x : Tile) (c : UCmd) : (x.latchAfter c).shape = x.shape := by
  refine shape_of_acc_latch ?_
  unfold Tile.latchAfter
  dsimp only
  split <;> rfl

theorem shape_cubeFinish (x : Tile) (c : UCmd) : (cubeFinish x c).1.shape = x.shape := by
  unfold cubeFinish
  extract_lets d
  split
  · rfl
  · split
    next sums sat nan _ =>
    extract_lets y
    have hy : y.shape = x.shape := (shape_freeRings ..).trans ((shape_latchAfter ..).trans (shape_accAfter ..))
    split
    · split
      next rows strm st2 nn2 _ =>
      extract_lets z
      have hz : z.shape = x.shape := by
        unfold z
        split
        · exact hy
        · exact (foldl_keeps Tile.shape (fun _ _ _ => shape_outBytes ..) y).trans hy
      exact hz
    · exact hy

theorem shape_vecFinish (x : Tile) (c : UCmd) : (vecFinish x c).1.shape = x.shape := by
  unfold vecFinish
  extract_lets d
  split
  · rfl
  · split
    next b st nn _ =>
    have hy : (x.freeRings .vector c).shape = x.shape := shape_freeRings ..
    split
    · exact (shape_outBytes ..).trans hy
    · exact hy

/-- The command of a queue that shows one command is that command. -/
theorem singleton_of_shown {x y : Tile} (h : y.shape = x.shape) {u : UnitKind} {c : UCmd} (hq : x.queue u = [c]) :
    ∃ e, y.queue u = [e] ∧ e.seq = c.seq ∧ e.desc = c.desc := by
  have shown := shown_of_shape h u
  rw [hq, List.map_singleton] at shown
  obtain ⟨e, he, hshown⟩ := List.map_eq_singleton_iff.1 shown
  simp only [UCmd.shown, Prod.mk.injEq] at hshown
  exact ⟨e, he, hshown.1, hshown.2.1⟩

/-! ## A command that is done (04_tile_core.md R100, R107) -/

/-- The sticky flags of a unit that has some. -/
def Tile.flagsOf (x : Tile) (u : UnitKind) : Bool × Bool := if u = .cube then (x.mxSat, x.mxNan) else (x.vxSat, x.vxNan)

/-- The tile `y` after the one command of a unit of tile `x` has completed. -/
def Tile.EndsIn (x : Tile) (u : UnitKind) (y : Tile) : Prop :=
  y.queue u = [] ∧ y.unitDone u = x.unitDone u + 1 ∧ y.unitIssued u = x.unitIssued u ∧ y.g = x.g ∧ y.p = x.p ∧
    y.pc = x.pc ∧ y.halted = x.halted ∧
    ∀ k : Fin 16, y.e[k.val] = if (x.evSrc[k.val]).toNat = 4 + 8 * u.num then x.e[k.val] + 1 else x.e[k.val]

/-- The flags are set and the command leaves the queue. -/
def Tile.closed (x : Tile) (u : UnitKind) (seq : BitVec 32) (sat nan : Bool) : Tile :=
  ((x.setFlags u sat nan).setQueue u (setPhase ((x.setFlags u sat nan).queue u) seq .finished)).retire u

/-- One command of a unit more has completed. -/
def Tile.counted (x : Tile) (u : UnitKind) : Tile :=
  match u with
  | .cube => { x with cubeDone := x.cubeDone + 1 }
  | .vector => { x with vecDone := x.vecDone + 1 }
  | .mover => { x with movDone := x.movDone + 1 }

/-- A tile whose unit had one command, once it has completed. -/
def Tile.closedOne (x : Tile) (u : UnitKind) (sat nan : Bool) : Tile :=
  (((x.setFlags u sat nan).setQueue u []).counted u).bump 4 u.num 1

theorem closed_of_singleton {x : Tile} {u : UnitKind} {c : UCmd} {seq : BitVec 32} (hq : x.queue u = [c]) (hseq : c.seq = seq)
    (sat nan : Bool) : x.closed u seq sat nan = x.closedOne u sat nan := by
  have queue_kept : (x.setFlags u sat nan).queue u = [c] := by
    rw [← hq]
    cases u <;> rfl
  have finished : setPhase [c] seq .finished = [{ c with phase := .finished }] := by
    rw [setPhase, updCmd, List.map_singleton, if_pos hseq]
  rw [Tile.closed, queue_kept, finished]
  unfold Tile.retire
  dsimp only
  rw [queue_setQueue]
  cases u <;> rfl

section
variable (x : Tile) (u : UnitKind) (sat nan : Bool)

@[simp] theorem closedOne_scratch : (x.closedOne u sat nan).scratch = x.scratch := by cases u <;> rfl
@[simp] theorem closedOne_acc : (x.closedOne u sat nan).acc = x.acc := by cases u <;> rfl

theorem closedOne_flags (h : u ≠ .mover) :
    (x.closedOne u sat nan).flagsOf u = ((x.flagsOf u).1 || sat, (x.flagsOf u).2 || nan) := by
  cases u
  · rfl
  · rfl
  · exact absurd rfl h

@[simp] theorem closedOne_queue : (x.closedOne u sat nan).queue u = [] := by cases u <;> rfl
@[simp] theorem closedOne_unitDone : (x.closedOne u sat nan).unitDone u = x.unitDone u + 1 := by cases u <;> rfl
@[simp] theorem closedOne_unitIssued : (x.closedOne u sat nan).unitIssued u = x.unitIssued u := by cases u <;> rfl
@[simp] theorem closedOne_g : (x.closedOne u sat nan).g = x.g := by cases u <;> rfl
@[simp] theorem closedOne_p : (x.closedOne u sat nan).p = x.p := by cases u <;> rfl
@[simp] theorem closedOne_pc : (x.closedOne u sat nan).pc = x.pc := by cases u <;> rfl
@[simp] theorem closedOne_halted : (x.closedOne u sat nan).halted = x.halted := by cases u <;> rfl

theorem closedOne_e (k : Fin 16) : (x.closedOne u sat nan).e[k.val] =
    if (x.evSrc[k.val]).toNat = 4 + 8 * u.num then x.e[k.val] + 1 else x.e[k.val] := by
  rw [Tile.closedOne, bump_e]
  cases u <;> rfl

end

/-- Completion on a tile whose core is that of `x`. -/
theorem closedOne_ends {x y : Tile} (h : y.core = x.core) (u : UnitKind) (sat nan : Bool) :
    x.EndsIn u (y.closedOne u sat nan) := by
  have same_g : y.g = x.g := (congrArg Tile.g h :)
  have same_p : y.p = x.p := (congrArg Tile.p h :)
  have same_pc : y.pc = x.pc := (congrArg Tile.pc h :)
  have same_halted : y.halted = x.halted := (congrArg Tile.halted h :)
  have same_e : y.e = x.e := (congrArg Tile.e h :)
  have same_evSrc : y.evSrc = x.evSrc := (congrArg Tile.evSrc h :)
  have same_done : y.unitDone u = x.unitDone u := by
    have := congrArg (fun z : Tile => z.unitDone u) h
    cases u <;> exact this
  have same_issued : y.unitIssued u = x.unitIssued u := by
    have := congrArg (fun z : Tile => z.unitIssued u) h
    cases u <;> exact this
  refine ⟨closedOne_queue .., ?_, ?_, ?_, ?_, ?_, ?_, fun k => ?_⟩
  · rw [closedOne_unitDone, same_done]
  · rw [closedOne_unitIssued, same_issued]
  · rw [closedOne_g, same_g]
  · rw [closedOne_p, same_p]
  · rw [closedOne_pc, same_pc]
  · rw [closedOne_halted, same_halted]
  · rw [closedOne_e, same_e, same_evSrc]

section
variable {s : State} {t : Nat} {u : UnitKind} {c : UCmd} {sat nan : Bool}

theorem closeUnit_of_no_trap (h : trapCode u c.desc sat nan = none) :
    s.closeUnit t u c sat nan = s.updTile t fun x => x.closed u c.seq sat nan := by
  simp only [State.closeUnit, h]
  rfl

theorem closeUnit_of_trap {code : Nat} (h : trapCode u c.desc sat nan = some code) :
    s.closeUnit t u c sat nan = (s.updTile t fun x => x.closed u c.seq sat nan).tileExc t code := by
  simp only [State.closeUnit, h]
  rfl

theorem endUnit_of_no_stream (h : soutOf u c.desc = none) (strm : Bytes) (last : Bool) :
    s.endUnit t u c strm last sat nan = s.closeUnit t u c sat nan := by
  simp only [State.endUnit, h]

theorem endUnit_of_stream {ch p : Nat} (h : soutOf u c.desc = some ch) (hp : s.partOf t = some p) {strm : Bytes}
    (hstrm : strm ≠ []) (last : Bool) :
    s.endUnit t u c strm last sat nan = s.present t p ch u c (toFlits strm last) sat nan := by
  have not_empty : strm.isEmpty = false := List.isEmpty_eq_false_iff.2 hstrm
  simp only [State.endUnit, h, hp, not_empty, Bool.false_eq_true, if_false]

end

/-! ## The done events of the cube and vector units (05_matrix_array.md R144; 06_accumulation_and_numerics.md R164, R165) -/

section
variable {s : State} {t : TileIx} {c : UCmd}

theorem cubeDone_of_running (hq : (s.tile t).cubeQ = [c]) (hrun : c.phase = .running)
    (hready : (s.tile t).inputsReady .cube c = true) :
    exec (.cubeCommandDone t false) s = .next ((s.setTile t (cubeFinish (s.tile t) c).1).endUnit t .cube c
      (cubeFinish (s.tile t) c).2.1 (db c.desc 5 15) (cubeFinish (s.tile t) c).2.2.1 (cubeFinish (s.tile t) c).2.2.2) := by
  show execCubeCommandDone t false s = _
  simp only [execCubeCommandDone, hq, List.head?_cons, hrun, hready, reduceCtorEq, ne_eq, not_true_eq_false, decide_false,
    Bool.not_true, Bool.or_self, Bool.false_eq_true, if_false]

theorem vectorDone_of_running (hq : (s.tile t).vecQ = [c]) (hrun : c.phase = .running)
    (hready : (s.tile t).inputsReady .vector c = true) :
    exec (.vectorCommandDone t false) s = .next ((s.setTile t (vecFinish (s.tile t) c).1).endUnit t .vector c
      (vecFinish (s.tile t) c).2.1 (db c.desc 0 30) (vecFinish (s.tile t) c).2.2.1 (vecFinish (s.tile t) c).2.2.2) := by
  show execVectorCommandDone t false s = _
  simp only [execVectorCommandDone, hq, List.head?_cons, hrun, hready, reduceCtorEq, ne_eq, not_true_eq_false, decide_false,
    Bool.not_true, Bool.or_self, Bool.false_eq_true, if_false]

theorem cubeDone_of_sending (hq : (s.tile t).cubeQ = [c]) (hsend : c.phase = .sending) :
    exec (.cubeCommandDone t false) s = .next (s.closeSent t .cube c) := by
  show execCubeCommandDone t false s = _
  simp only [execCubeCommandDone, hq, List.head?_cons, hsend, if_true]

theorem vectorDone_of_sending (hq : (s.tile t).vecQ = [c]) (hsend : c.phase = .sending) :
    exec (.vectorCommandDone t false) s = .next (s.closeSent t .vector c) := by
  show execVectorCommandDone t false s = _
  simp only [execVectorCommandDone, hq, List.head?_cons, hsend, if_true]

end

/-- The results `y` of the one command of a unit, that need no stream and trap nothing, complete it. -/
theorem endUnit_completes {s : State} {t : Nat} {u : UnitKind} {c : UCmd} {y : Tile} (hy : y.shape = (s.tile t).shape)
    (hq : (s.tile t).queue u = [c]) (hout : soutOf u c.desc = none) {sat nan : Bool}
    (htrap : trapCode u c.desc sat nan = none) (strm : Bytes) (last : Bool) :
    ((s.setTile t y).endUnit t u c strm last sat nan).tile t = y.closedOne u sat nan := by
  obtain ⟨e, he, hseq, -⟩ := singleton_of_shown hy hq
  rw [endUnit_of_no_stream hout, closeUnit_of_no_trap htrap, tile_updTile_same, tile_setTile_same, closed_of_singleton he hseq]

/-- The results `y` of the one command of a unit, that need no stream, raise the trap of their flags. -/
theorem endUnit_traps {s : State} {t : Nat} {u : UnitKind} {c : UCmd} {y : Tile} (hy : y.shape = (s.tile t).shape)
    (hq : (s.tile t).queue u = [c]) (hout : soutOf u c.desc = none) {sat nan : Bool} {code : Nat}
    (htrap : trapCode u c.desc sat nan = some code) (strm : Bytes) (last : Bool) :
    ∃ v : State, (s.setTile t y).endUnit t u c strm last sat nan = v.tileExc t code ∧ v.tile t = y.closedOne u sat nan := by
  obtain ⟨e, he, hseq, -⟩ := singleton_of_shown hy hq
  refine ⟨_, (endUnit_of_no_stream hout strm last).trans (closeUnit_of_trap htrap), ?_⟩
  rw [tile_updTile_same, tile_setTile_same, closed_of_singleton he hseq]

/-! ## Streams (04_tile_core.md R96, R100; 05_matrix_array.md R139) -/

/-- A command that waits for its stream, and what it has left to report. -/
def UCmd.sent (e : UCmd) (o : UnitOut) : UCmd := { e with phase := .sending, out := some o }

section
variable {s : State} {t : Nat} {u : UnitKind} {c e : UCmd} {p ch id : Nat} (hid : ((s.tile t).ep ch).stream = id)
include hid

theorem present_tile (hq : (s.tile t).queue u = [e]) (hseq : e.seq = c.seq) (flits : List Flit) (sat nan : Bool) :
    (s.present t p ch u c flits sat nan).tile t = (s.tile t).setQueue u
      [e.sent ⟨(s.stream p id).taken + (s.stream p id).src.length + flits.length, sat, nan⟩] := by
  have one (o : UnitOut) : updCmd [e] c.seq (fun c => { c with phase := .sending, out := some o }) = [e.sent o] := by
    rw [updCmd, List.map_singleton, if_pos hseq]
    rfl
  rw [State.present, hid, tile_updTile_same]
  show Tile.setQueue (s.tile t) u (updCmd ((s.tile t).queue u) c.seq _) = _
  rw [hq, one]

theorem present_stream (flits : List Flit) (sat nan : Bool) : (s.present t p ch u c flits sat nan).stream p id =
    { s.stream p id with src := (s.stream p id).src ++ flits } := by
  rw [State.present, hid]
  exact stream_updStream_same s p id _

end

/-- The results `y` of the one command of a unit go to its stream, and the command waits there. -/
theorem endUnit_presents {s : State} {t : Nat} {u : UnitKind} {c : UCmd} {y : Tile} {ch p : Nat}
    (hy : y.shape = (s.tile t).shape) (hq : (s.tile t).queue u = [c]) (hout : soutOf u c.desc = some ch)
    (hp : s.partOf t = some p) {strm : Bytes} (hstrm : strm ≠ []) (last sat nan : Bool) :
    let v := (s.setTile t y).endUnit t u c strm last sat nan
    let id := ((s.tile t).ep ch).stream
    ∃ e, (v.tile t).queue u = [e] ∧ e.phase = .sending ∧ e.seq = c.seq ∧
      (v.stream p id).src = (s.stream p id).src ++ toFlits strm last ∧ (v.stream p id).taken = (s.stream p id).taken ∧
      e.out = some ⟨(v.stream p id).taken + (v.stream p id).src.length, sat, nan⟩ ∧
      (v.tile t).unitDone u = (s.tile t).unitDone u ∧ (v.tile t).flagsOf u = (s.tile t).flagsOf u := by
  intro v id
  obtain ⟨e, he, hseq, -⟩ := singleton_of_shown hy hq
  have same_tile : (s.setTile t y).tile t = y := tile_setTile_same ..
  have same_id : (((s.setTile t y).tile t).ep ch).stream = id := by
    rw [same_tile]
    exact stream_of_shape hy ch
  have hv : v = (s.setTile t y).present t p ch u c (toFlits strm last) sat nan :=
    endUnit_of_stream (s := s.setTile t y) hout ((partOf_setTile s t t y).trans hp) hstrm last
  have htile := present_tile (p := p) same_id (he.symm ▸ congrArg (fun z : Tile => z.queue u) same_tile) hseq (toFlits strm last) sat nan
  have hstream : v.stream p id = { s.stream p id with src := (s.stream p id).src ++ toFlits strm last } :=
    hv ▸ present_stream same_id (toFlits strm last) sat nan
  rw [← hv, same_tile] at htile
  have done : y.unitDone u = (s.tile t).unitDone u := by
    have := congrArg (fun z : Tile => z.unitDone u) (core_of_shape hy)
    cases u <;> exact this
  have flags : y.flagsOf u = (s.tile t).flagsOf u := by
    have := congrArg (fun z : Tile => z.flagsOf u) (core_of_shape hy)
    cases u <;> exact this
  rw [htile, hstream, queue_setQueue]
  refine ⟨_, rfl, rfl, hseq, rfl, rfl, ?_, ?_, ?_⟩
  · rw [List.length_append, ← Nat.add_assoc]
    rfl
  · rw [← done]
    cases u <;> rfl
  · rw [← flags]
    cases u <;> rfl

/-- A command whose output its stream has not all accepted stays as it is. -/
theorem closeSent_of_waiting {s : State} {t : Nat} {u : UnitKind} {e : UCmd} {o : UnitOut} {ch p : Nat}
    (ho : e.out = some o) (hout : soutOf u e.desc = some ch) (hp : s.partOf t = some p)
    (h : (s.stream p ((s.tile t).ep ch).stream).taken < o.upto) : s.closeSent t u e = s := by
  refine if_neg ?_
  simp only [State.accepted, ho, hout, hp, decide_eq_true_eq]
  omega

/-- A command whose output is all accepted completes with the flags it has left to report. -/
theorem closeSent_of_accepted {s : State} {t : Nat} {u : UnitKind} {e : UCmd} {o : UnitOut} {ch p : Nat}
    (ho : e.out = some o) (hout : soutOf u e.desc = some ch) (hp : s.partOf t = some p) (hq : (s.tile t).queue u = [e])
    (htrap : trapCode u e.desc o.sat o.nan = none) (h : o.upto ≤ (s.stream p ((s.tile t).ep ch).stream).taken) :
    (s.closeSent t u e).tile t = (s.tile t).closedOne u o.sat o.nan := by
  have all_taken : s.accepted t u e = true := by
    simpa only [State.accepted, ho, hout, hp, decide_eq_true_eq] using h
  rw [State.closeSent, if_pos all_taken, ho]
  show (s.closeUnit t u e o.sat o.nan).tile t = _
  rw [closeUnit_of_no_trap htrap, tile_updTile_same, closed_of_singleton hq rfl]

/-! ## The mover (04_tile_core.md R102, R105) -/

section
variable {s : State} {t : TileIx} {c : UCmd} {p : Nat} (hq : (s.tile t).movQ = [c]) (hrun : c.phase = .running)
  (hp : s.partOf t = some p)
include hq hrun hp

theorem moverDone_of_noop (hnoop : isNoop .mover c.desc = true) (line : Nat) (fault : NetFault) :
    exec (.moverCommandDone t 0 ⟨false, line, fault⟩) s = .next (s.closeUnit t .mover c false false) := by
  have live : [c].filter (fun c => c.phase.live) = [c] := List.filter_cons_of_pos (by rw [hrun]; rfl)
  show execMoverCommandDone t 0 ⟨false, line, fault⟩ s = _
  simp only [execMoverCommandDone, hq, live, hp, Fin.val_zero, List.getElem?_cons_zero, hrun, hnoop, reduceCtorEq, ne_eq,
    not_true_eq_false, if_true, if_false, Bool.false_eq_true]

theorem moverDone_of_copy (hnoop : isNoop .mover c.desc = false) (hkind : dw c.desc 0 2 0 = 2) (line : Nat) (fault : NetFault) :
    exec (.moverCommandDone t 0 ⟨false, line, fault⟩) s = .next (((s.mviOut t c (copyWrites (s.tile t) c)).updTile t fun x =>
      x.freeRings .mover c).closeUnit t .mover c false false) := by
  have live : [c].filter (fun c => c.phase.live) = [c] := List.filter_cons_of_pos (by rw [hrun]; rfl)
  have no_rings : sinNeeds .mover c.desc = [] := by simp [sinNeeds, hkind]
  have ready : (s.tile t).inputsReady .mover c = true := by rw [Tile.inputsReady, no_rings]; rfl
  have not_held : s.mviHeld p c.desc = false := by simp [State.mviHeld, mviMem, hkind]
  have writes : s.mviWrites t c = copyWrites (s.tile t) c := by
    simp only [State.mviWrites, hnoop, hkind, Bool.false_eq_true, if_false]
  show execMoverCommandDone t 0 ⟨false, line, fault⟩ s = _
  simp only [execMoverCommandDone, hq, live, hp, Fin.val_zero, List.getElem?_cons_zero, hrun, hnoop, ready, not_held, reduceCtorEq,
    ne_eq, not_true_eq_false, if_false, Bool.false_eq_true, List.take_zero, List.all_nil, Bool.not_true,
    Bool.or_self, State.mviRun, hkind, writes]

end

/-- Bytes that nothing has raced for are read as they stand. -/
theorem inBytes_of_unraced {c : UCmd} (h : c.raced = []) (x : Tile) (a n : Nat) : x.inBytes c a n = x.readSp a n := by
  refine List.map_congr_left fun i _ => ?_
  rw [Tile.inByte, h, List.isEmpty_nil, if_pos rfl]
  exact (BitVec.ofNat_toNat ..).trans (BitVec.setWidth_eq _)

theorem landed_of_unraced {c : UCmd} (h : c.raced = []) (x : Tile) (a : Nat) (b : Bytes) : x.landed c a b = b := by
  rw [Tile.landed, h, List.isEmpty_nil, if_pos rfl]

/-- A copy of one row that nothing has raced for writes the source's bytes. -/
theorem copyWrites_of_row {c : UCmd} (hrows : dw c.desc 3 39 24 = 1) (hraced : c.raced = []) (hlaps : copyLaps c.desc = false)
    (x : Tile) : copyWrites x c = [(dw c.desc 2 41 21, x.readSp (dw c.desc 2 20 0) (dw c.desc 3 23 0))] := by
  have row (addr stride bytes : Nat) : rowRanges addr stride bytes 1 = [(addr, bytes)] := by simp [rowRanges]
  rw [copyWrites, hlaps]
  show copyLap x c 0 = _
  rw [copyLap, mviRows, mviRows2, hrows, row, row, ← inBytes_of_unraced hraced]
  rfl

/-- What the one row of a copy leaves: the bytes of its source at its destination, and the rest of the scratchpad. -/
theorem copy_of_row {s : State} {t : TileIx} {c : UCmd} (hq : (s.tile t).movQ = [c]) (hrows : dw c.desc 3 39 24 = 1)
    (hraced : c.raced = []) (hlaps : copyLaps c.desc = false) :
    let x := s.tile t
    let d := c.desc
    let y := (((s.mviOut t c (copyWrites x c)).updTile t fun x => x.freeRings .mover c).closeUnit t .mover c false false).tile t
    x.EndsIn .mover y ∧ y.readSp (dw d 2 41 21) (dw d 3 23 0) = x.readSp (dw d 2 20 0) (dw d 3 23 0) ∧
      ∀ a, a < dw d 2 41 21 ∨ dw d 2 41 21 + dw d 3 23 0 ≤ a → y.readSp a 1 = x.readSp a 1 := by
  intro x d y
  let row := x.readSp (dw d 2 20 0) (dw d 3 23 0)
  let z := (x.outBytes .mover c (dw d 2 41 21) row).freeRings .mover c
  have hz : z.shape = x.shape := (shape_freeRings ..).trans (shape_outBytes ..)
  obtain ⟨e, he, hseq, -⟩ := singleton_of_shown hz (u := .mover) hq
  have hy : y = z.closedOne .mover false false := by
    rw [← closed_of_singleton he hseq]
    show (State.closeUnit _ t .mover c false false).tile t = _
    rw [closeUnit_of_no_trap rfl, tile_updTile_same, tile_updTile_same, State.mviOut, tile_updTile_same,
      copyWrites_of_row hrows hraced hlaps]
    rfl
  have hscratch : y.scratch = ((x.noteRace (some (.mover, c.seq)) (dw d 2 41 21) row.length).writeSp (dw d 2 41 21) row).scratch := by
    rw [hy, closedOne_scratch, scratch_freeRings, Tile.outBytes, landed_of_unraced hraced]
  have same (a n : Nat) : y.readSp a n =
      ((x.noteRace (some (.mover, c.seq)) (dw d 2 41 21) row.length).writeSp (dw d 2 41 21) row).readSp a n := by
    rw [Tile.readSp, hscratch, Tile.readSp]
  have length : row.length = dw d 3 23 0 := by simp [row, Tile.readSp, smapRead]
  refine ⟨hy ▸ closedOne_ends (core_of_shape hz) .mover false false, ?_, fun a ha => ?_⟩
  · have stored := readSp_writeSp_same (x.noteRace (some (.mover, c.seq)) (dw d 2 41 21) row.length) (dw d 2 41 21) row
    rw [← same, length] at stored
    exact stored
  · rw [same]
    exact readSp_writeSp_other _ _ _ (by rwa [length])

end Sys2Proof.Machine
end

section
/-!
PROOFS. The completion of unit commands, unit by unit (04_tile_core.md R100, R102, R105; 05_matrix_array.md R144;
06_accumulation_and_numerics.md R164).
-/

namespace Sys2Proof.Machine

theorem cubeFinish_of_noop {x : Tile} {c : UCmd} (h : isNoop .cube c.desc = true) : cubeFinish x c = (x, [], false, false) := if_pos h

theorem vecFinish_of_noop {x : Tile} {c : UCmd} (h : isNoop .vector c.desc = true) : vecFinish x c = (x, [], false, false) :=
  if_pos h

/-- The flags of a completed command join those of its unit. -/
theorem closedOne_flags_of_core {x y : Tile} (h : y.core = x.core) {u : UnitKind} (hu : u ≠ .mover) (sat nan : Bool) :
    (y.closedOne u sat nan).flagsOf u = ((x.flagsOf u).1 || sat, (x.flagsOf u).2 || nan) := by
  have flags : y.flagsOf u = x.flagsOf u := by
    have := congrArg (fun z : Tile => z.flagsOf u) h
    cases u <;> exact this
  rw [closedOne_flags _ _ _ _ hu, flags]

section
variable {s : State} {t : TileIx} {c : UCmd} (hrun : c.phase = .running)
include hrun

/-- A cube command that needs no stream and has no trap enabled completes. -/
theorem cubeDone_completes (hq : (s.tile t).cubeQ = [c]) (hready : (s.tile t).inputsReady .cube c = true)
    (hsat : db c.desc 0 27 = false) (hnan : db c.desc 0 28 = false) (hout : soutOf .cube c.desc = none) :
    ∃ v, exec (.cubeCommandDone t false) s = .next v ∧ v.tile t = (cubeFinish (s.tile t) c).1.closedOne .cube
      (cubeFinish (s.tile t) c).2.2.1 (cubeFinish (s.tile t) c).2.2.2 :=
  ⟨_, cubeDone_of_running hq hrun hready,
    endUnit_completes (s := s) (u := .cube) (shape_cubeFinish ..) hq hout (by simp [trapCode, hsat, hnan]) _ _⟩

/-- A vector command that needs no stream and has no trap enabled completes. -/
theorem vectorDone_completes (hq : (s.tile t).vecQ = [c]) (hready : (s.tile t).inputsReady .vector c = true)
    (hsat : db c.desc 0 28 = false) (hnan : db c.desc 0 29 = false) (hout : soutOf .vector c.desc = none) :
    ∃ v, exec (.vectorCommandDone t false) s = .next v ∧ v.tile t = (vecFinish (s.tile t) c).1.closedOne .vector
      (vecFinish (s.tile t) c).2.2.1 (vecFinish (s.tile t) c).2.2.2 :=
  ⟨_, vectorDone_of_running hq hrun hready,
    endUnit_completes (s := s) (u := .vector) (shape_vecFinish ..) hq hout (by simp [trapCode, hsat, hnan]) _ _⟩

/-- A NaN in a cube command with its trap enabled raises 0x0502. -/
theorem cubeDone_traps (hq : (s.tile t).cubeQ = [c]) (hready : (s.tile t).inputsReady .cube c = true)
    (hnan : (cubeFinish (s.tile t) c).2.2.2 = true) (htrap : db c.desc 0 28 = true) (hout : soutOf .cube c.desc = none) :
    ∃ v : State, exec (.cubeCommandDone t false) s = .next (v.tileExc t 0x0502) ∧ (v.tile t).mxNan = true := by
  obtain ⟨v, hv, htile⟩ := endUnit_traps (u := .cube) (code := 0x0502) (shape_cubeFinish (s.tile t) c) hq hout
    (by simp [trapCode, hnan, htrap]) (cubeFinish (s.tile t) c).2.1 (db c.desc 5 15)
    (sat := (cubeFinish (s.tile t) c).2.2.1) (nan := (cubeFinish (s.tile t) c).2.2.2)
  refine ⟨v, (cubeDone_of_running hq hrun hready).trans (congrArg _ hv), ?_⟩
  have flags := congrArg Prod.snd (closedOne_flags (cubeFinish (s.tile t) c).1 .cube (cubeFinish (s.tile t) c).2.2.1
    (cubeFinish (s.tile t) c).2.2.2 (by decide))
  rw [htile]
  refine flags.trans ?_
  rw [hnan]
  exact Bool.or_true _

/-- A NaN in a vector command with its trap enabled raises 0x0504. -/
theorem vectorDone_traps (hq : (s.tile t).vecQ = [c]) (hready : (s.tile t).inputsReady .vector c = true)
    (hnan : (vecFinish (s.tile t) c).2.2.2 = true) (htrap : db c.desc 0 29 = true) (hout : soutOf .vector c.desc = none) :
    ∃ v : State, exec (.vectorCommandDone t false) s = .next (v.tileExc t 0x0504) ∧ (v.tile t).vxNan = true := by
  obtain ⟨v, hv, htile⟩ := endUnit_traps (u := .vector) (code := 0x0504) (shape_vecFinish (s.tile t) c) hq hout
    (by simp [trapCode, hnan, htrap]) (vecFinish (s.tile t) c).2.1 (db c.desc 0 30)
    (sat := (vecFinish (s.tile t) c).2.2.1) (nan := (vecFinish (s.tile t) c).2.2.2)
  refine ⟨v, (vectorDone_of_running hq hrun hready).trans (congrArg _ hv), ?_⟩
  have flags := congrArg Prod.snd (closedOne_flags (vecFinish (s.tile t) c).1 .vector (vecFinish (s.tile t) c).2.2.1
    (vecFinish (s.tile t) c).2.2.2 (by decide))
  rw [htile]
  refine flags.trans ?_
  rw [hnan]
  exact Bool.or_true _

/-- A mover command that is a no-op completes. -/
theorem moverDone_completes (hq : (s.tile t).movQ = [c]) (hp : s.partOf t ≠ none) (hnoop : isNoop .mover c.desc = true)
    (line : Nat) (fault : NetFault) : ∃ v, exec (.moverCommandDone t 0 ⟨false, line, fault⟩) s = .next v ∧
      v.tile t = (s.tile t).closedOne .mover false false := by
  obtain ⟨p, hp⟩ := Option.ne_none_iff_exists'.1 hp
  refine ⟨_, moverDone_of_noop hq hrun hp hnoop line fault, ?_⟩
  rw [closeUnit_of_no_trap rfl, tile_updTile_same, closed_of_singleton (u := .mover) hq rfl]

end

/-- Settles O18, clause by clause: the results are those of the units' finishes, and what completes a command is `closedOne`. -/
theorem unitCommandsComplete : Obligations.UnitCommandsComplete := by
  intro s t c hrun x d ended fl
  refine ⟨fun hq hready hsat hnan hout => ?cube, fun hq hready hnan htrap hout => cubeDone_traps hrun hq hready hnan htrap hout,
    fun hq hready hsat hnan hout => ?vector, fun hq hready hnan htrap hout => vectorDone_traps hrun hq hready hnan htrap hout,
    fun u i fin last ch p hunit hq hready hout hp hbytes => ?stream,
    fun u i o ch p e hunit hsend ho hq hout hp htrap => ?sent, fun line fault hq hp hnoop => ?noop,
    fun line fault hq hp hkind hrows hraced hlaps => ?copy⟩
  case cube =>
    obtain ⟨v, hexec, htile⟩ := cubeDone_completes hrun hq hready hsat hnan hout
    have hcore := core_of_shape (shape_cubeFinish x c)
    have flags := closedOne_flags_of_core hcore (u := .cube) (by decide) (cubeFinish x c).2.2.1 (cubeFinish x c).2.2.2
    refine ⟨v, hexec, ?_⟩
    rw [htile]
    refine ⟨closedOne_ends hcore .., congrArg Prod.fst flags, congrArg Prod.snd flags, fun hnoop => ?_⟩
    rw [closedOne_scratch, closedOne_acc, cubeFinish_of_noop hnoop]
    exact ⟨rfl, rfl, Bool.or_false _⟩
  case vector =>
    obtain ⟨v, hexec, htile⟩ := vectorDone_completes hrun hq hready hsat hnan hout
    have hcore := core_of_shape (shape_vecFinish x c)
    have flags := closedOne_flags_of_core hcore (u := .vector) (by decide) (vecFinish x c).2.2.1 (vecFinish x c).2.2.2
    refine ⟨v, hexec, ?_⟩
    rw [htile]
    refine ⟨closedOne_ends hcore .., congrArg Prod.fst flags, congrArg Prod.snd flags, fun hnoop => ?_⟩
    rw [closedOne_scratch, vecFinish_of_noop hnoop]
  case stream =>
    simp only [List.mem_cons, Prod.mk.injEq, List.not_mem_nil, or_false] at hunit
    rcases hunit with ⟨rfl, rfl, rfl, rfl⟩ | ⟨rfl, rfl, rfl, rfl⟩
    · obtain ⟨e, he⟩ := endUnit_presents (shape_cubeFinish x c) hq hout hp hbytes (db d 5 15) (cubeFinish x c).2.2.1
        (cubeFinish x c).2.2.2
      exact ⟨_, e, cubeDone_of_running hq hrun hready, he⟩
    · obtain ⟨e, he⟩ := endUnit_presents (shape_vecFinish x c) hq hout hp hbytes (db d 0 30) (vecFinish x c).2.2.1
        (vecFinish x c).2.2.2
      exact ⟨_, e, vectorDone_of_running hq hrun hready, he⟩
  case sent =>
    have unit_not_mover : u ≠ .mover ∧ exec i s = .next (s.closeSent t u e) := by
      simp only [List.mem_cons, Prod.mk.injEq, List.not_mem_nil, or_false] at hunit
      rcases hunit with ⟨rfl, rfl⟩ | ⟨rfl, rfl⟩
      · exact ⟨by decide, cubeDone_of_sending hq hsend⟩
      · exact ⟨by decide, vectorDone_of_sending hq hsend⟩
    obtain ⟨hu, hexec⟩ := unit_not_mover
    refine ⟨fun hwait => ?_, fun htaken => ⟨_, hexec, ?_⟩⟩
    · rw [hexec, closeSent_of_waiting ho hout hp hwait]
    · rw [closeSent_of_accepted ho hout hp hq htrap htaken]
      exact ⟨closedOne_ends rfl .., closedOne_scratch .., closedOne_flags _ _ _ _ hu⟩
  case noop =>
    obtain ⟨v, hexec, htile⟩ := moverDone_completes hrun hq hp hnoop line fault
    refine ⟨v, hexec, ?_⟩
    rw [htile]
    exact ⟨closedOne_ends rfl .., closedOne_scratch ..⟩
  case copy =>
    by_cases hnoop : isNoop .mover d = true
    · obtain ⟨v, hexec, htile⟩ := moverDone_completes hrun hq hp hnoop line fault
      have same (a n : Nat) : (v.tile t).readSp a n = x.readSp a n := by
        rw [htile, Tile.readSp, closedOne_scratch, Tile.readSp]
      have no_bytes : dw d 3 23 0 = 0 := by simpa [isNoop, hrows] using hnoop
      refine ⟨v, hexec, htile ▸ closedOne_ends rfl .., ?_, fun a _ => same a 1⟩
      rw [same, no_bytes]
      rfl
    · obtain ⟨p, hp⟩ := Option.ne_none_iff_exists'.1 hp
      exact ⟨_, moverDone_of_copy hq hrun hp (Bool.eq_false_iff.2 hnoop) hkind line fault, copy_of_row hq hrows hraced hlaps⟩

end Sys2Proof.Machine
end

section
/-!
PROOFS. HALT of a tile of a partition, and what a tile's report does whatever the partition holds (04_tile_core.md R98, R111, R113;
15_shared_objects_and_submission.md R371).
-/

namespace Sys2Proof.Machine

/-! ## The end of a step's compute (04_tile_core.md R98; 09_parameter_update.md R216) -/

/-- What the end of a compute leaves: the tiles, the fabric, device memory, the frame and the link. -/
def State.ground (s : State) : List (Nat × Tile) × Fabric × Mem × FrameImage × Link := (s.tiles, s.fab, s.mem, s.frame, s.link)

theorem ground_updHead (s : State) (q : Nat) (f : HubCmd → HubCmd) : (s.updHead q f).ground = s.ground := by
  unfold State.updHead
  split <;> rfl

theorem ground_endCmd (s : State) (q code : Nat) : (s.endCmd q code).ground = s.ground := ground_updHead ..

theorem ground_showGlint (s : State) : s.showGlint.ground = s.ground := foldl_keeps State.ground (fun _ _ _ => by rfl) s

theorem ground_finishStep (s : State) (p : Nat) : (s.finishStep p).ground = s.ground := by
  unfold State.finishStep
  split
  · rfl
  · split
    · rfl
    · extract_lets units n hub t
      split
      · exact ground_endCmd ..
      · exact ground_showGlint _

/-- Once its tiles are done the compute of a step is over. -/
theorem finishStep_of_done {s : State} {p : Nat} {r : StepRun} (hstep : (s.part p).step = some r) (hphase : r.phase = .compute)
    (hdone : s.tilesDone p r.n = true) : ∃ y, ((s.finishStep p).part p).step = some y ∧ y.phase ≠ .compute := by
  have goes_on : ¬ (r.phase ≠ .compute || !s.tilesDone p r.n) = true := by simp [hphase, hdone]
  unfold State.finishStep
  rw [hstep]
  dsimp only
  rw [if_neg goes_on]
  split
  · rw [part_of_beside (beside_endCmd ..), part_updPart_same]
    exact ⟨_, rfl, StepPhase.noConfusion⟩
  · rw [part_of_beside (beside_showGlint _), part_updPart_same]
    exact ⟨_, rfl, StepPhase.noConfusion⟩

/-- Tiles that have all halted normally with no packet on its way and no collective are done. -/
theorem tilesDone_of_halted {s : State} {p n : Nat} (hnet : s.fab.net = [])
    (h : ∀ k ∈ s.codedTiles p, (s.tile k).normalEnd = true) : s.tilesDone p n = true := by
  refine List.all_eq_true.2 fun k hk => ?_
  simp [h k hk, hnet]

/-! ## HALT (04_tile_core.md R113) -/

section
variable {s : State} {t : TileIx}

/-- The state in which a tile has halted normally, before its partition looks at its step. -/
def State.haltedAt (s : State) (t : Nat) : State := s.updTile t Tile.haltNormal

theorem haltedAt_tile : (s.haltedAt t).tile t = (s.tile t).haltNormal := tile_updTile_same ..

theorem haltedAt_tile_other {k : Nat} (h : k ≠ t.val) : (s.haltedAt t).tile k = s.tile k := tile_updTile_other _ _ _ _ h

/-- The halt of a tile takes no code away. -/
theorem haltedAt_codedTiles (p : Nat) : (s.haltedAt t).codedTiles p = s.codedTiles p := by
  refine List.filter_congr fun k _ => ?_
  by_cases hk : k = t.val
  · subst hk
    rw [haltedAt_tile]
    rfl
  · rw [haltedAt_tile_other hk]

theorem haltDone_of_part {p : Nat} (hp : s.partOf t = some p) : s.haltDone t = (s.haltedAt t).finishStep p := by
  have hp' : (s.updTile t Tile.haltNormal).partOf t = some p := hp
  rw [State.haltDone]
  rw [hp']
  rfl

theorem ground_haltDone : (s.haltDone t).ground = (s.haltedAt t).ground := by
  cases hp : s.partOf t with
  | none =>
    rw [haltDone_of_no_part hp]
    rfl
  | some p => rw [haltDone_of_part hp, ground_finishStep]

/-- With no packet on its way the last tile to halt ends the compute of its step. -/
theorem haltDone_ends_step {p : Nat} {r : StepRun} (hp : s.partOf t = some p) (hstep : (s.part p).step = some r)
    (hphase : r.phase = .compute) (hnet : s.fab.net = [])
    (h : ∀ k ∈ s.codedTiles p, k ≠ t.val → (s.tile k).normalEnd = true) :
    ∃ y, ((s.haltDone t).part p).step = some y ∧ y.phase ≠ .compute := by
  rw [haltDone_of_part hp]
  refine finishStep_of_done (r := r) hstep hphase (tilesDone_of_halted hnet fun k hk => ?_)
  rw [haltedAt_codedTiles] at hk
  by_cases hkt : k = t.val
  · rw [hkt, haltedAt_tile]
    rfl
  · rw [haltedAt_tile_other hkt]
    exact h k hk hkt

/-- While another tile is not done the step goes on. -/
theorem haltDone_of_not_done {p k : Nat} {r : StepRun} (hp : s.partOf t = some p) (hstep : (s.part p).step = some r)
    (hk : k ∈ s.codedTiles p) (hkt : k ≠ t.val) (hend : (s.tile k).normalEnd = false) (hreport : (s.tile k).tileStep ≠ some r.n) :
    (s.haltDone t).parts = s.parts := by
  rw [haltDone_of_part hp, finishStep_of_not_done (s := s.haltedAt t) (r := r) (k := k) hstep ((haltedAt_codedTiles p).symm ▸ hk)
    (by rw [haltedAt_tile_other hkt, hend]) (by rwa [haltedAt_tile_other hkt])]
  rfl

/-- A HALT in its wait ends once the queues are empty. -/
theorem waitResume_of_halt (hactive : s.active t = true) (hhalted : (s.tile t).halted = false) (hwait : (s.tile t).wait = some .halt)
    (hidle : (s.tile t).unitsIdle 7 = true) : exec (.waitResume t) s = .next (s.haltDone t) := by
  have ended : (s.tile t).waitOver = true := by rw [Tile.waitOver, hwait]; exact hidle
  have no_send : s.countWait t = s := countWait_of_no_send fun ch reg n pd nb h => by
    rw [hwait] at h
    cases h
  have resumes : (!(s.tile t).halted && (s.tile t).waitOver && s.active t) = true := by rw [hhalted, ended, hactive]; rfl
  refine congrArg Host.Outcome.next ((if_pos resumes).trans ?_)
  unfold State.endWait
  rw [no_send]
  dsimp only
  rw [hwait]

end

/-! ## Reports (04_tile_core.md R111) -/

/-- A report of a tile that is on its way gives a next state, in or out of a partition. -/
theorem tileReport_of_find {s : State} {t : TileIx} {m : NetMsg}
    (h : s.fab.net.find? (s.reaching (NetMsg.reportOf t)) = some m) :
    ∃ u, exec (.tileReport t) s = .next u ∧
      ∀ p, s.partOf t = some p → u = (s.taken (NetMsg.reportOf t) m).stopReport p m.code (some t.val) := by
  cases hp : s.partOf t with
  | none => exact ⟨_, tileReport_of_no_part h hp, fun p hp' => by cases hp'⟩
  | some q =>
    refine ⟨_, tileReport_of_part h hp, fun p hp' => ?_⟩
    cases hp'
    rfl

end Sys2Proof.Machine
end

section
/-!
PROOFS. What a group received on a Ramom port leaves of the ports, and with it what a HALT, a report and a group answer
(10_links_and_collectives.md R237 to R247; 04_tile_core.md R98, R111, R113).
-/

namespace Sys2Proof.Machine

/-! ## Numbers of bytes -/

theorem leNat_lt (b : Bytes) : leNat b < 256 ^ b.length := by
  induction b with
  | nil => exact Nat.one_pos
  | cons x b ih =>
    have hx : x.toNat < 256 := x.isLt
    rw [leNat, List.length_cons, pow_succ]
    omega

theorem rd_lt (b : Bytes) (off n : Nat) : rd b off n < 256 ^ n :=
  (leNat_lt _).trans_le (Nat.pow_le_pow_right (by decide) (List.length_take_le ..))

/-- The top bit of a header is its bit 63. -/
theorem bit_63_iff (d : Bytes) : bit (rd d 0 8) 63 = true ↔ 2 ^ 63 ≤ rd d 0 8 := by
  have h : rd d 0 8 < 256 ^ 8 := rd_lt ..
  rw [bit, decide_eq_true_eq]
  omega

/-! ## Ports -/

section
variable {s : State} {p q : Nat}

@[simp] theorem port_updPort_same (s : State) (p : Nat) (f : PortSt → PortSt) : (s.updPort p f).port p = f (s.port p) :=
  smapGet_upd_same ..

theorem port_updPort_other (s : State) (f : PortSt → PortSt) (h : q ≠ p) : (s.updPort p f).port q = s.port q :=
  smapGet_upd_other _ _ _ h

@[simp] theorem port_updSession (s : State) (n : Nat) (f : Session → Session) (q : Nat) : (s.updSession n f).port q = s.port q := rfl

/-- A counter changes nothing but a register. -/
theorem portCount_frame_link (s : State) (f : Fld) (p n : Nat) :
    (s.portCount f p n).link = s.link ∧ (s.portCount f p n).out = s.out := by
  unfold State.portCount
  split <;> exact ⟨rfl, rfl⟩

@[simp] theorem link_portCount (s : State) (f : Fld) (p n : Nat) : (s.portCount f p n).link = s.link :=
  (portCount_frame_link s f p n).1

@[simp] theorem out_portCount (s : State) (f : Fld) (p n : Nat) : (s.portCount f p n).out = s.out := (portCount_frame_link s f p n).2

theorem port_of_link {s u : State} (h : u.link = s.link) (q : Nat) : u.port q = s.port q := by rw [State.port, h, State.port]

@[simp] theorem port_portCount (s : State) (f : Fld) (p n q : Nat) : (s.portCount f p n).port q = s.port q :=
  port_of_link (link_portCount ..) q

/-- A counter of a port is no field of its PORT_STAT. -/
theorem portPeer_portCount (s : State) {f : Fld} (hf : f.lo = 0) (p n q : Nat) :
    (s.portCount f p n).portPeer q = s.portPeer q := by
  have valid : f.lo ≠ Reg.PORT_STAT_PEER_VALID.lo := by rw [hf]; decide
  have entry : f.lo ≠ Reg.PORT_STAT_PEER.lo := by rw [hf]; decide
  have low : f.lo < 64 := by rw [hf]; decide
  unfold State.portCount
  split
  · rw [State.portPeer, State.addF, getF_setF_of_lo valid low (by decide), getF_setF_of_lo entry low (by decide), State.portPeer]
  · rfl

/-- The keys and the epochs of a port are those of its link and of the peer entry it names. -/
theorem recvKeys_congr {s u : State} (hlink : u.link = s.link) (hpeer : u.portPeer p = s.portPeer p) : u.recvKeys p = s.recvKeys p := by
  simp only [State.recvKeys, State.keyPeer, State.session, State.port, hlink, hpeer]

theorem epochsOf_congr {s u : State} (hlink : u.link = s.link) (hpeer : u.portPeer p = s.portPeer p) (hdr : Nat) :
    u.epochsOf p hdr = s.epochsOf p hdr := by
  simp only [State.epochsOf, recvKeys_congr hlink hpeer, port_of_link hlink]

/-! ## ACK, SEQ and epoch of a group (R237, R241) -/

variable {hdr : Nat}

/-- The groups that the ACK of a header frees have left the retry buffer; an ACK of groups never sent frees none. -/
def PortSt.Freed (x y : PortSt) (hdr : Nat) : Prop :=
  ∀ g rest, x.retry = g :: rest →
    let k := (hdr / 2 ^ 32 % 2 ^ 16 + 2 ^ 16 - g.seq % 2 ^ 16) % 2 ^ 16
    (k ≤ x.retry.length → y.retry = x.retry.drop k) ∧ (x.retry.length < k → y.retry = x.retry)

theorem freed_takeAck : (s.port p).Freed ((s.takeAck p hdr).port p) hdr := by
  intro g rest hretry
  have retry_eq := (congrArg PortSt.retry (port_updPort_same s p _) :
    ((s.takeAck p hdr).port p).retry = _)
  dsimp only at retry_eq
  rw [hretry] at retry_eq ⊢
  exact ⟨fun h => retry_eq.trans (if_pos h), fun h => retry_eq.trans (if_neg (Nat.not_le.2 h))⟩

@[simp] theorem expect_takeAck : ((s.takeAck p hdr).port p).expect = (s.port p).expect :=
  (congrArg PortSt.expect (port_updPort_same s p _) :)

@[simp] theorem rxEpoch_takeAck : ((s.takeAck p hdr).port p).rxEpoch = (s.port p).rxEpoch :=
  (congrArg PortSt.rxEpoch (port_updPort_same s p _) :)

@[simp] theorem rx_takeAck : ((s.takeAck p hdr).port p).rx = (s.port p).rx := (congrArg PortSt.rx (port_updPort_same s p _) :)

@[simp] theorem ctlRx_takeAck : ((s.takeAck p hdr).port p).ctlRx = (s.port p).ctlRx :=
  (congrArg PortSt.ctlRx (port_updPort_same s p _) :)

@[simp] theorem setupRx_takeAck : ((s.takeAck p hdr).port p).setupRx = (s.port p).setupRx :=
  (congrArg PortSt.setupRx (port_updPort_same s p _) :)

@[simp] theorem setupBuf_takeAck : ((s.takeAck p hdr).port p).setupBuf = (s.port p).setupBuf :=
  (congrArg PortSt.setupBuf (port_updPort_same s p _) :)

@[simp] theorem drain_takeAck : ((s.takeAck p hdr).port p).drain = (s.port p).drain :=
  (congrArg PortSt.drain (port_updPort_same s p _) :)

theorem port_takeAck_other (h : q ≠ p) : (s.takeAck p hdr).port q = s.port q := port_updPort_other _ _ h

variable {e : Nat}

/-- The port of a group that is accepted, before its ACK is taken. -/
theorem port_before_ack (s : State) (p e hdr : Nat) :
    ((s.updPort p fun x => { x with expect := hdr % 2 ^ 32 + 1, rxEpoch := e }).portCount Reg.PORT_RX_GROUPS p 1).port p =
      { s.port p with expect := hdr % 2 ^ 32 + 1, rxEpoch := e } := by
  rw [port_portCount, port_updPort_same]

theorem freed_acceptSeq : (s.port p).Freed ((s.acceptSeq p e hdr).port p) hdr := by
  have h : PortSt.Freed _ ((s.acceptSeq p e hdr).port p) hdr := freed_takeAck
  rw [port_before_ack] at h
  exact h

@[simp] theorem expect_acceptSeq : ((s.acceptSeq p e hdr).port p).expect = hdr % 2 ^ 32 + 1 :=
  expect_takeAck.trans (congrArg PortSt.expect (port_before_ack s p e hdr) :)

@[simp] theorem rxEpoch_acceptSeq : ((s.acceptSeq p e hdr).port p).rxEpoch = e :=
  rxEpoch_takeAck.trans (congrArg PortSt.rxEpoch (port_before_ack s p e hdr) :)

@[simp] theorem rx_acceptSeq : ((s.acceptSeq p e hdr).port p).rx = (s.port p).rx :=
  rx_takeAck.trans (congrArg PortSt.rx (port_before_ack s p e hdr) :)

@[simp] theorem ctlRx_acceptSeq : ((s.acceptSeq p e hdr).port p).ctlRx = (s.port p).ctlRx :=
  ctlRx_takeAck.trans (congrArg PortSt.ctlRx (port_before_ack s p e hdr) :)

@[simp] theorem drain_acceptSeq : ((s.acceptSeq p e hdr).port p).drain = (s.port p).drain :=
  drain_takeAck.trans (congrArg PortSt.drain (port_before_ack s p e hdr) :)

theorem port_acceptSeq_other (h : q ≠ p) : (s.acceptSeq p e hdr).port q = s.port q := by
  rw [State.acceptSeq, port_takeAck_other h, port_portCount, port_updPort_other _ _ h]

theorem portPeer_acceptSeq : (s.acceptSeq p e hdr).portPeer q = s.portPeer q := portPeer_portCount (s.updPort p _) rfl p 1 q

/-! ## The plaintext of a group (R243 to R245) -/

variable {map : Nat} {pt : Bytes}

theorem takePlain_of_ctl (hkind : bitsOf hdr 62 61 = 1) :
    s.takePlain p hdr map pt =
      if (s.port p).drain.isSome then s else s.updPort p fun x => { x with ctlRx := x.ctlRx ++ ctlsOf pt } := if_pos hkind

theorem port_takePlain_of_ctl (hkind : bitsOf hdr 62 61 = 1) :
    (s.takePlain p hdr map pt).port p =
      { s.port p with ctlRx := if (s.port p).drain = none then (s.port p).ctlRx ++ ctlsOf pt else (s.port p).ctlRx } := by
  rw [takePlain_of_ctl hkind]
  cases (s.port p).drain with
  | none => exact port_updPort_same ..
  | some n => rfl

theorem port_takePlain_of_ctl_other (hkind : bitsOf hdr 62 61 = 1) (h : q ≠ p) : (s.takePlain p hdr map pt).port q = s.port q := by
  rw [takePlain_of_ctl hkind]
  split
  · rfl
  · exact port_updPort_other _ _ h

/-- Flits in order enter the buffers of the port of a session. -/
theorem takePlain_of_flits (hkind : bitsOf hdr 62 61 ≠ 1) {n : Nat} (hpeer : s.portPeer p = some n)
    (hgood : (takeFlits (s.port p).rx map pt).2 = false) :
    s.takePlain p hdr map pt = s.updPort p fun x => ({ x with rx := (takeFlits (s.port p).rx map pt).1 } : PortSt).streams := by
  rw [State.takePlain, if_neg hkind]
  dsimp only
  rw [hpeer, hgood]
  rfl

/-- What flits that leave a buffer in parts keep of a port. -/
def PortSt.taken (x : PortSt) : List HeldGroup × Nat × Nat × List (List LFlit) := (x.retry, x.expect, x.rxEpoch, x.rx)

theorem taken_stream (x : PortSt) (vc : Nat) : (x.stream vc).taken = x.taken := by
  unfold PortSt.stream
  dsimp only
  split <;> rfl

theorem taken_streams (x : PortSt) : x.streams.taken = x.taken := foldl_keeps PortSt.taken (fun _ _ _ => taken_stream _ _) x

/-! ## A sealed group (R239 to R241) -/

variable {d : Bytes} {keys : List (Nat × Bytes)} {ini : Bool}

theorem takeSealed_of_opened (hkeys : s.recvKeys p = some (keys, ini)) (hopen : openGroup keys ini d e = some pt) :
    s.takeSealed p [e] d = (s.acceptSeq p e (rd d 0 8)).takePlain p (rd d 0 8) (rd d 8 8) pt := by
  rw [State.takeSealed, hkeys]
  simp only [List.findSome?_cons, hopen, Option.map_some]

/-- A group that no key opens only asks for its NAK, counts, and counts against the session. -/
theorem port_tagFailed (s : State) (p q : Nat) :
    (match s.portPeer p with
      | some n => ((s.failGroupRx p).portCount Reg.PORT_TAG_FAIL p 1).updSession n fun x => { x with tagFails := x.tagFails + 1 }
      | none => (s.failGroupRx p).portCount Reg.PORT_TAG_FAIL p 1).port q = (s.failGroupRx p).port q := by
  cases s.portPeer p <;> exact port_portCount ..

theorem portPeer_failGroupRx (s : State) (p q n : Nat) :
    ((s.failGroupRx p).portCount Reg.PORT_TAG_FAIL p n).portPeer q = s.portPeer q := portPeer_portCount (s.failGroupRx p) rfl p n q

theorem port_takeSealed_of_failed {es : List Nat} (hkeys : s.recvKeys p = some (keys, ini))
    (hopen : (es.findSome? fun e => (openGroup keys ini d e).map fun pt => (e, pt)) = none) :
    (s.takeSealed p es d).port q = (s.failGroupRx p).port q := by
  rw [State.takeSealed, hkeys]
  dsimp only
  rw [hopen]
  dsimp only
  rw [portPeer_failGroupRx]
  exact port_tagFailed s p q

theorem port_failGroupRx : (s.failGroupRx p).port p = { s.port p with nak := true } := port_updPort_same ..

theorem port_failGroupRx_other (h : q ≠ p) : (s.failGroupRx p).port q = s.port q := port_updPort_other _ _ h

/-- A sealed control group touches no other port, whether it opens or not. -/
theorem port_takeSealed_of_ctl_other {es : List Nat} (hkind : bitsOf (rd d 0 8) 62 61 = 1) (h : q ≠ p) :
    (s.takeSealed p es d).port q = s.port q := by
  cases hkeys : s.recvKeys p with
  | none =>
    rw [State.takeSealed, hkeys]
  | some k =>
    obtain ⟨keys, ini⟩ := k
    cases hopen : es.findSome? fun e => (openGroup keys ini d e).map fun pt => (e, pt) with
    | none => rw [port_takeSealed_of_failed hkeys hopen, port_failGroupRx_other h]
    | some found =>
      rw [State.takeSealed, hkeys]
      dsimp only
      rw [hopen]
      exact (port_takePlain_of_ctl_other hkind h).trans (port_acceptSeq_other h)

/-! ## A group with its CRC good (R241) -/

theorem takeGroup_of_reserved (hfits : s.epochsOf p (rd d 0 8) ≠ []) (h : 2 ^ 63 ≤ rd d 0 8 ∨ rd d 1060 4 ≠ 0) :
    s.takeGroup p d = s.failGroupRx p := by
  have reserved : (bit (rd d 0 8) 63 || decide (rd d 1060 4 ≠ 0)) = true := by
    rwa [Bool.or_eq_true, bit_63_iff, decide_eq_true_eq]
  rw [State.takeGroup]
  dsimp only
  rw [if_neg (mt List.isEmpty_iff.1 hfits), if_pos reserved]

/-- A group with its reserved bits clear is taken by its kind. -/
theorem takeGroup_of_clear (hfits : s.epochsOf p (rd d 0 8) ≠ []) (hhdr : rd d 0 8 < 2 ^ 63) (hclear : rd d 1060 4 = 0) :
    s.takeGroup p d =
      if bitsOf (rd d 0 8) 62 61 < 2 then s.takeSealed p (s.epochsOf p (rd d 0 8)) d
      else if bitsOf (rd d 0 8) 62 61 = 2 then
        (s.takeAck p (rd d 0 8)).updPort p fun x => { x with
          setupRx := x.setupRx ++ (setupsOf 1024 ((s.port p).setupBuf ++ slice d 16 1024)).1,
          setupBuf := (setupsOf 1024 ((s.port p).setupBuf ++ slice d 16 1024)).2 }
      else s.takeAck p (rd d 0 8) := by
  have in_order : ¬ (bit (rd d 0 8) 63 || decide (rd d 1060 4 ≠ 0)) = true := by
    rw [Bool.or_eq_true, bit_63_iff, decide_eq_true_eq]
    omega
  rw [State.takeGroup]
  dsimp only
  rw [if_neg (mt List.isEmpty_iff.1 hfits), if_neg in_order, setupBuf_takeAck]

/-- A group of a kind other than data touches no other port. -/
theorem port_takeGroup_other (hfits : s.epochsOf p (rd d 0 8) ≠ []) (hkind : bitsOf (rd d 0 8) 62 61 ≠ 0) (h : q ≠ p) :
    (s.takeGroup p d).port q = s.port q := by
  by_cases hres : 2 ^ 63 ≤ rd d 0 8 ∨ rd d 1060 4 ≠ 0
  · rw [takeGroup_of_reserved hfits hres, port_failGroupRx_other h]
  · push Not at hres
    rw [takeGroup_of_clear hfits hres.1 hres.2]
    split
    · exact port_takeSealed_of_ctl_other (by omega) h
    · split
      · rw [port_updPort_other _ _ h, port_takeAck_other h]
      · exact port_takeAck_other h

end

end Sys2Proof.Machine
end

section
/-!
PROOFS. What a HALT, a report of a tile and a received group answer (04_tile_core.md R98, R111, R113;
15_shared_objects_and_submission.md R371; 10_links_and_collectives.md R241, R243 to R245, R247).
-/

namespace Sys2Proof.Machine

/-- A tile that halts normally changes alone, beside its partition's step. -/
theorem haltDone_frame (s : State) (t : TileIx) :
    (s.haltDone t).tile t = (s.tile t).haltNormal ∧ (∀ k, k ≠ t.val → (s.haltDone t).tile k = s.tile k) ∧
      (s.haltDone t).fab = s.fab ∧ (s.haltDone t).mem = s.mem ∧ (s.haltDone t).frame = s.frame := by
  obtain ⟨tiles, fab, mem, frame, -⟩ : _ ∧ _ ∧ _ ∧ _ ∧ _ := by
    simpa only [State.ground, Prod.mk.injEq] using ground_haltDone (s := s) (t := t)
  have tile (k : Nat) : (s.haltDone t).tile k = (s.haltedAt t).tile k := by rw [State.tile, tiles, State.tile]
  exact ⟨(tile t).trans haltedAt_tile, fun k hk => (tile k).trans (haltedAt_tile_other hk), fab, mem, frame⟩

section
variable {s : State} {t : TileIx} {p : Nat} {m : NetMsg}

/-- A report to a partition that is loaded and in force, or whose step still runs, stops the partition. -/
theorem report_stops (hloaded : (s.part p).loaded = true)
    (h : (s.part p).failed = false ∨ ∃ r, (s.part p).step = some r ∧ r.phase ≠ .ended) :
    let u := (s.taken (NetMsg.reportOf t) m).stopReport p m.code (some t.val)
    ((u.part p).failed = true ∧ (∀ r, (u.part p).step = some r → r.phase = .ended) ∧
      ∀ k ∈ s.partTiles p, stopFor k ∈ u.fab.net) ∧
      ((s.part p).failed = false → (u.tile t).reported = true) := by
  intro u
  rw [← live_iff] at h
  obtain ⟨⟨net, hnet⟩, hfailed, hended, hreported⟩ :=
    stopReport_effect (s := s.taken (NetMsg.reportOf t) m) (p := p) (by rwa [taken_part]) (by rwa [taken_part]) m.code t
  rw [taken_partTiles] at hnet
  rw [taken_part] at hreported
  refine ⟨⟨hfailed, hended, fun k hk => ?_⟩, hreported⟩
  rw [hnet]
  exact List.mem_append_right _ (List.mem_map_of_mem hk)

/-- A report to a partition that has failed, with no step running, only leaves the network. -/
theorem report_lost (hfailed : (s.part p).failed = true) (hended : ∀ r, (s.part p).step = some r → r.phase = .ended) :
    (s.taken (NetMsg.reportOf t) m).stopReport p m.code (some t.val) = s.taken (NetMsg.reportOf t) m := by
  have not_live : (s.part p).live = false := by
    rw [Bool.eq_false_iff, ne_eq, live_iff]
    rintro ⟨r, hstep, hphase⟩
    exact hphase (hended r hstep)
  refine stopReport_of_nothing ?_ _ _
  rw [taken_part, hfailed, not_live]
  exact Bool.or_true _

end

/-! ## A received group (10_links_and_collectives.md R236, R241) -/

section
variable {s : State} {port : PortIx} {d : Bytes} {c : Nat}

/-- The state in which the codewords of a slot have been counted. -/
def State.counted (s : State) (p corrected : Nat) : State :=
  (s.portCount Reg.PORT_FEC_CORR p corrected).portCount Reg.PORT_FEC_UNCORR p 0

theorem link_counted (p : Nat) : (s.counted p c).link = s.link := by rw [State.counted, link_portCount, link_portCount]

@[simp] theorem out_counted (p : Nat) : (s.counted p c).out = s.out := by rw [State.counted, out_portCount, out_portCount]

@[simp] theorem port_counted (p q : Nat) : (s.counted p c).port q = s.port q := port_of_link (link_counted p) q

@[simp] theorem portPeer_counted (p q : Nat) : (s.counted p c).portPeer q = s.portPeer q :=
  (portPeer_portCount _ rfl p 0 q).trans (portPeer_portCount s rfl p c q)

@[simp] theorem recvKeys_counted (p : Nat) : (s.counted p c).recvKeys p = s.recvKeys p :=
  recvKeys_congr (link_counted p) (portPeer_counted p p)

@[simp] theorem epochsOf_counted (p hdr : Nat) : (s.counted p c).epochsOf p hdr = s.epochsOf p hdr :=
  epochsOf_congr (link_counted p) (portPeer_counted p p) hdr

/-- A slot in order, on a Ramom port in use, is taken as a group. -/
theorem groupReceive_of_good (hmode : s.portMode port.val = 1) (hup : 2 ≤ s.portState port.val) (huse : s.portState port.val ≤ 5)
    (hloop : s.getF Reg.PORT_CTRL_LOOPBACK port.val 0 ≠ 1) (hlen : d.length = 1064)
    (hcrc : crc32 (d.take 1056) = rd d 1056 4) :
    exec (.groupReceive port d c 0) s = .next ((s.counted port.val c).takeGroup port.val d) := by
  have in_use : ¬ (!s.ramom port.val || decide (s.portState port.val < 2) || decide (5 < s.portState port.val) ||
      decide (s.getF Reg.PORT_CTRL_LOOPBACK port.val 0 = 1)) = true := by
    simp [State.ramom, hmode, Nat.not_lt.2 hup, huse, hloop]
  have good : ¬ (decide (0 < 0) || decide (d.length ≠ 1064) || decide (crc32 (d.take 1056) ≠ rd d 1056 4)) = true := by
    simp [hlen, hcrc]
  exact congrArg Host.Outcome.next ((if_neg in_use).trans (if_neg good))

end

/-! What a group that fits an epoch, with its reserved bits clear, leaves of its port by its kind. -/

section
variable {s : State} {p : Nat} {d : Bytes} (hfits : s.epochsOf p (rd d 0 8) ≠ []) (hhdr : rd d 0 8 < 2 ^ 63)
  (hclear : rd d 1060 4 = 0)
include hfits hhdr hclear

theorem takeGroup_of_idle (hkind : bitsOf (rd d 0 8) 62 61 = 3) : s.takeGroup p d = s.takeAck p (rd d 0 8) := by
  rw [takeGroup_of_clear hfits hhdr hclear, hkind, if_neg (by decide), if_neg (by decide)]

/-- A set-up group leaves its whole messages at the port, and what is left over. -/
theorem port_takeGroup_of_setup (hkind : bitsOf (rd d 0 8) 62 61 = 2) :
    (s.takeGroup p d).port p =
      { (s.takeAck p (rd d 0 8)).port p with
        setupRx := (s.port p).setupRx ++ (setupsOf 1024 ((s.port p).setupBuf ++ slice d 16 1024)).1
        setupBuf := (setupsOf 1024 ((s.port p).setupBuf ++ slice d 16 1024)).2 } := by
  rw [takeGroup_of_clear hfits hhdr hclear, hkind, if_neg (by decide), if_pos rfl, port_updPort_same, setupRx_takeAck]

variable {e : Nat} {keys : List (Nat × Bytes)} {ini : Bool} (hkeys : s.recvKeys p = some (keys, ini))
  (hepoch : s.epochsOf p (rd d 0 8) = [e])
include hkeys hepoch

/-- A sealed group whose tag fails asks for a NAK. -/
theorem port_takeGroup_of_closed (hkind : bitsOf (rd d 0 8) 62 61 < 2) (hopen : openGroup keys ini d e = none) :
    (s.takeGroup p d).port p = { s.port p with nak := true } := by
  rw [takeGroup_of_clear hfits hhdr hclear, if_pos hkind, hepoch,
    port_takeSealed_of_failed hkeys (by rw [List.findSome?_cons, hopen]; rfl), port_failGroupRx]

variable {pt : Bytes} (hopen : openGroup keys ini d e = some pt)
include hopen

theorem takeGroup_of_opened (hkind : bitsOf (rd d 0 8) 62 61 < 2) :
    s.takeGroup p d = (s.acceptSeq p e (rd d 0 8)).takePlain p (rd d 0 8) (rd d 8 8) pt := by
  rw [takeGroup_of_clear hfits hhdr hclear, if_pos hkind, hepoch, takeSealed_of_opened hkeys hopen]

/-- A control group that opens is accepted, and its messages wait at the port unless its session drains. -/
theorem port_takeGroup_of_ctl (hkind : bitsOf (rd d 0 8) 62 61 = 1) :
    (s.takeGroup p d).port p =
      { (s.acceptSeq p e (rd d 0 8)).port p with
        ctlRx := if (s.port p).drain = none then (s.port p).ctlRx ++ ctlsOf pt else (s.port p).ctlRx } := by
  rw [takeGroup_of_opened hfits hhdr hclear hkeys hepoch hopen (by rw [hkind]; decide), port_takePlain_of_ctl hkind,
    drain_acceptSeq, ctlRx_acceptSeq]

/-- A data group that opens, with its flits in order, is accepted, and the flits enter their buffers. -/
theorem takeGroup_of_flits (hkind : bitsOf (rd d 0 8) 62 61 = 0) {n : Nat} (hpeer : s.portPeer p = some n)
    (hgood : (takeFlits (s.port p).rx (rd d 8 8) pt).2 = false) :
    s.takeGroup p d = (s.acceptSeq p e (rd d 0 8)).updPort p fun x =>
      ({ x with rx := (takeFlits (s.port p).rx (rd d 8 8) pt).1 } : PortSt).streams := by
  rw [takeGroup_of_opened hfits hhdr hclear hkeys hepoch hopen (by rw [hkind]; decide),
    takePlain_of_flits (by rw [hkind]; decide) (portPeer_acceptSeq.trans hpeer) (by rwa [rx_acceptSeq]), rx_acceptSeq]

end

/-! ## The obligation -/

/-- Settles O60: the halt of a tile by the frame of its step's end, a report by the stop of its partition, a group by its kind. -/
theorem haltsReportsAndGroupsComplete : Obligations.HaltsReportsAndGroupsComplete := by
  unfold Obligations.HaltsReportsAndGroupsComplete
  refine ⟨fun s t gd _ => ?_, fun s t => ?_, fun s port d c => ?_⟩
  · intro x idle halts
    have halted : halts (.next (s.haltDone t)) := by
      obtain ⟨htile, hother, hfab, hmem, hframe⟩ := haltDone_frame s t
      refine ⟨_, rfl, htile, hother, hfab, hmem, hframe, fun p step hp hstep hphase hnet _ => ⟨?_, ?_⟩⟩
      · exact haltDone_ends_step hp hstep hphase hnet
      · rintro ⟨k, hk, hkt, hend, hreport⟩
        exact haltDone_of_not_done hp hstep hk hkt hend hreport
    refine ⟨fun h hidle => ?_, fun h hbusy => ?_, fun hactive hhalted hwait hidle => ?_⟩
    · rw [halt_of_idle h ((unitsIdle_all _).2 hidle)]
      exact halted
    · exact halt_of_busy h (mt (unitsIdle_all _).1 hbusy)
    · rw [waitResume_of_halt hactive hhalted hwait ((unitsIdle_all _).2 hidle)]
      exact halted
  · refine ⟨tileReport_of_none, fun m hm => ?_⟩
    obtain ⟨u, hu, hpart⟩ := tileReport_of_find hm
    refine ⟨u, hu, fun p hp hloaded => ?_⟩
    rw [hpart p hp]
    refine ⟨fun h => (report_stops hloaded h).1, fun h => (report_stops hloaded (.inl h)).2 h, fun hfailed hended => ?_⟩
    rw [report_lost hfailed hended]
    exact ⟨taken_net .., taken_tiles .., taken_parts .., taken_hub .., taken_mem .., taken_out ..⟩
  · intro p x hdr kind hmode hup huse hloop hlen hcrc hfits freed
    have hfits' : (s.counted p c).epochsOf p hdr ≠ [] := by rwa [epochsOf_counted]
    have port_eq : (s.counted p c).port p = x := port_counted p p
    have freed_of {y z : PortSt} (h : ((s.counted p c).port p).Freed y hdr) (hretry : z.retry = y.retry) : freed z := by
      rw [port_eq] at h
      intro g rest hg
      rw [hretry]
      exact h g rest hg
    refine ⟨_, groupReceive_of_good hmode hup huse hloop hlen hcrc, fun q hq hkind => ?_, fun hres => ?_,
      fun hhdr hclear => ⟨?_, ?_, ?_⟩⟩
    · rw [port_takeGroup_other hfits' hkind hq, port_counted]
    · rw [takeGroup_of_reserved hfits' hres, port_failGroupRx, port_eq]
      exact ⟨rfl, out_counted p⟩
    · intro hkind
      rw [takeGroup_of_idle hfits' hhdr hclear hkind, expect_takeAck, rx_takeAck, ctlRx_takeAck, setupRx_takeAck, port_eq]
      exact ⟨freed_of freed_takeAck rfl, rfl, rfl, rfl, rfl⟩
    · intro hkind
      rw [port_takeGroup_of_setup hfits' hhdr hclear hkind, port_eq]
      exact ⟨freed_of freed_takeAck rfl, port_eq ▸ expect_takeAck (s := s.counted p c), rfl, rfl⟩
    · intro hkind keys ini e hkeys hepoch
      rw [← recvKeys_counted (c := c)] at hkeys
      rw [← epochsOf_counted (c := c)] at hepoch
      refine ⟨fun hopen => ?_, fun pt hopen => ⟨fun hctl => ?_, fun hdata n hpeer hgood => ?_⟩⟩
      · rw [port_takeGroup_of_closed hfits' hhdr hclear hkeys hepoch hkind hopen, port_eq]
      · rw [port_takeGroup_of_ctl hfits' hhdr hclear hkeys hepoch hopen hctl, port_eq]
        exact ⟨freed_of freed_acceptSeq rfl, expect_acceptSeq, rxEpoch_acceptSeq, rfl⟩
      · rw [← portPeer_counted (c := c) p] at hpeer
        rw [takeGroup_of_flits hfits' hhdr hclear hkeys hepoch hopen hdata hpeer (port_eq ▸ hgood), port_eq, port_updPort_same]
        obtain ⟨hretry, hexpect, hepoch', hrx⟩ : _ ∧ _ ∧ _ ∧ _ := by
          simpa only [PortSt.taken, Prod.mk.injEq] using taken_streams
            { ((s.counted p c).acceptSeq p e hdr).port p with rx := (takeFlits x.rx (rd d 8 8) pt).1 }
        refine ⟨freed_of freed_acceptSeq hretry, hexpect.trans expect_acceptSeq, hepoch'.trans rxEpoch_acceptSeq, hrx, fun q hq => ?_⟩
        rw [port_updPort_other _ _ hq, port_acceptSeq_other hq, port_counted]

end Sys2Proof.Machine
end

section
/-!
PROOFS. COPY and SWITCH (08_training_dataflow.md R202 to R205; 15_shared_objects_and_submission.md R365, R367).
-/

namespace Sys2Proof.Machine

/-! ## A refusal's code is never 0 (12_prism_memory_protection.md R286, R292 to R295, R304) -/

section
variable {s : State} {m space c a ln off keyId key e : Nat} {uses : List (Nat × Nat)} {b : Bytes}

theorem gate_error_ne_zero {wr : Bool} (h : s.gate m space uses wr a = .error e) : e ≠ 0 := by
  rintro rfl
  unfold State.gate at h
  extract_lets k entry r at? at h
  clear_value at?
  cases at? with
  | none => split_ifs at h <;> cases h
  | some g =>
    dsimp only at h
    split_ifs at h <;> cases h

theorem readLine_error_ne_zero (h : (s.readLine m c a ln key).2 = .error e) : e ≠ 0 := by
  rintro rfl
  unfold State.readLine at h
  extract_lets t l at h
  split_ifs at h with hpoison <;> simp only [Except.error.injEq, reduceCtorEq] at h
  exact hpoison h

theorem writeLine_ne_some_zero : (s.writeLine m c a ln keyId key b).2 ≠ some 0 := by
  unfold State.writeLine
  extract_lets
  split_ifs <;> simp

theorem writePart_ne_some_zero : (s.writePart m c a ln off keyId key b).2 ≠ some 0 := by
  unfold State.writePart
  extract_lets
  split
  · next h => simpa using readLine_error_ne_zero (congrArg Prod.snd h)
  · exact writeLine_ne_some_zero

theorem writeVia_ne_some_zero (via : Nat → List Nat) : (s.writeVia via m space uses a b).2 ≠ some 0 := by
  refine List.foldlRecOn (motive := fun x : State × Option Nat => x.2 ≠ some 0) _ _ (by simp) fun acc hacc q _ => ?_
  split
  · exact hacc
  · split
    · next h => simpa using gate_error_ne_zero h
    · dsimp only
      split_ifs
      · simp
      · exact writeLine_ne_some_zero
      · exact writePart_ne_some_zero

theorem writeMem_ne_some_zero : (s.writeMem m space uses a b).2 ≠ some 0 := writeVia_ne_some_zero _

end

/-! ## COPY (R365, R367) -/

section
variable {s v a b : State} {q : QueueIx} {c : HubCmd} {p : Nat} {x y : MemObj}

/-- Do two memory objects allow a COPY of its bytes: the source is readable, the destination writable, and both hold their range? -/
def HubCmd.copyFits (c : HubCmd) (x y : MemObj) : Bool :=
  x.read && y.write && c.o 1 + c.o 4 ≤ x.size && c.o 3 + c.o 4 ≤ y.size

theorem copyFits_iff : c.copyFits x y = true ↔
    x.read = true ∧ y.write = true ∧ c.o 1 + c.o 4 ≤ x.size ∧ c.o 3 + c.o 4 ≤ y.size := by
  simp only [HubCmd.copyFits, Bool.and_eq_true, decide_eq_true_eq, and_assoc]

/-- A COPY in form, of whole lines and within its context, copies if its objects allow it. -/
theorem copyCmd_of_objects (hlook : s.lookStart q 0x03 = (v, .go c)) (hbound : v.boundPart (v.qCtx q) = some p)
    (hsrc : v.memObj (c.o 0) = (a, .ok (some x))) (hdst : a.memObj (c.o 2) = (b, .ok (some y)))
    (hsmall : c.o 4 < 2 ^ 48) (hlines : c.o 4 % 64 = 0) (hfrom : c.o 1 % 64 = 0) (hto : c.o 3 % 64 = 0)
    (hx : x.ctx = c.ctx) (hy : y.ctx = c.ctx) :
    let r := (b.beginCmd q).copyLines p (x.base + c.o 1) (y.base + c.o 3) (c.o 4)
    exec (.copyCmd q) s = .next (if c.copyFits x y then r.1.endCmd q r.2 else b.endCmd q 0x0104) := by
  refine congrArg Host.Outcome.next ((tryStart_of_go hlook _).trans ?_)
  simp only [hbound, hsrc, hdst, Nat.mod_eq_of_lt hsmall, Nat.div_eq_of_lt hsmall, aligned, hlines, hfrom, hto, hx, hy,
    decide_true, Bool.true_and, HubCmd.copyFits]
  rfl

/-- A COPY of one line that reads well, to a place outside the source, writes what it read. -/
theorem copyLines_of_line {w : State} {src dst : Nat} {d : Bytes}
    (hread : s.readMem p 0 (s.part p).uses src 64 = (v, .ok d)) (hapart : dst < src ∨ src + 64 ≤ dst)
    (hwrite : v.writeMem p 0 (s.part p).uses dst d = (w, none)) : s.copyLines p src dst 64 = (w.tick, 0) := by
  have outside : (decide (src ≤ dst) && decide (dst < src + 64)) = false := by
    rw [← Bool.decide_and]
    exact decide_eq_false (by omega)
  have one : List.range (64 / 64) = [0] := rfl
  simp only [State.copyLines, one, List.foldl_cons, List.foldl_nil, Nat.mul_zero, Nat.add_zero, hread, outside, Bool.false_and,
    Bool.false_eq_true, if_false, hwrite, ne_eq, not_true_eq_false]

end

/-! ## Writing a set (R202; 11_memory_tiers_and_weights.md R265) -/

/-- A partition with a set in the slot of a generation. -/
def Part.withSet (g : Nat) (l : List (Nat × Nat)) (x : Part) : Part :=
  if g % 2 = 0 then { x with set0 := l } else { x with set1 := l }

/-- The set in the slot of a generation. -/
def Part.slotSet (g : Nat) (x : Part) : List (Nat × Nat) := if g % 2 = 0 then x.set0 else x.set1

theorem withSet_effect (g : Nat) (l : List (Nat × Nat)) (x : Part) :
    (x.withSet g l).slotSet g = l ∧ (x.withSet g l).gen = x.gen ∧ (x.withSet g l).switchPend = x.switchPend := by
  unfold Part.withSet Part.slotSet
  split <;> exact ⟨rfl, rfl, rfl⟩

theorem putSet_part {s t : State} {p g a : Nat} {l : List (Nat × Nat)} {b : Bytes} (h : s.putSet p g a l b = (t, 0)) :
    t.part p = (s.part p).withSet g l := by
  unfold State.putSet at h
  split at h
  · next u e hwrite =>
    obtain ⟨-, rfl⟩ := Prod.mk.inj h
    exact absurd (congrArg Prod.snd hwrite) writeMem_ne_some_zero
  · next u hwrite =>
    obtain ⟨rfl, -⟩ := Prod.mk.inj h
    rw [part_updPart_same, part_of_beside ((beside_of_fst hwrite).trans (beside_writeMem ..))]
    rfl

/-- A set that is written without a refusal stands in its slot. -/
theorem writeSet_part {s t : State} {p g : Nat} {l : List (Nat × Nat)} (h : s.writeSet p g l = (t, 0)) :
    t.part p = (s.part p).withSet g l := by
  unfold State.writeSet at h
  extract_lets j at h
  split at h
  · cases h
  · exact putSet_part h

/-! ## SWITCH (R203 to R205) -/

/-- A partition whose next set is written: with NOW its generation advances, without NOW its switch is pending. -/
def Part.switched (now : Bool) (g : Nat) (x : Part) : Part :=
  if now then { x with gen := g, uses := if x.step.isNone then x.setOf g else x.uses } else { x with switchPend := true }

theorem slotSet_switched (now : Bool) (g h : Nat) (x : Part) : (x.switched now g).slotSet h = x.slotSet h := by
  unfold Part.switched
  split <;> rfl

section
variable {s v a d : State} {q : QueueIx} {c : HubCmd} {p : Nat} {b : Bytes}

/-- The operand of a SWITCH in form: the address of its descriptor, and no reserved bit. -/
theorem switch_operand {w : Nat} (hsmall : w < 2 ^ 63) (hlow : w % 64 < 2) :
    w / 64 % 2 ^ 57 * 64 = w / 64 * 64 ∧ w / 2 ^ 63 = 0 ∧ bitsOf w 5 1 = 0 := by
  unfold bitsOf
  omega

theorem switchSet_of_go (hlook : s.lookStart q 0x10 = (v, .go c)) (hbound : v.boundPart (v.qCtx q) = some p)
    (hregion : ((v.part p).image.region 0xFFF).isSome = true) (hsmall : c.o 0 < 2 ^ 63) (hlow : c.o 0 % 64 < 2)
    (hsteward : v.inSteward (c.o 0 / 64 * 64) 2048 = true) (hread : v.hubRead (c.o 0 / 64 * 64) 2048 = (a, .ok b))
    (hset : (v.part p).image.setOk b = true) (hpend : (v.part p).switchPend = false)
    (hslot : a.slotHeld p (((v.part p).gen + 1) % 2 ^ 64) = false)
    (hcompute : ∀ r, (v.part p).step = some r → r.phase ≠ .compute)
    (hwrite : (a.beginCmd q).writeSet p (((v.part p).gen + 1) % 2 ^ 64) (setEntries b) = (d, 0)) :
    exec (.switchSet q) s =
      .next ((d.updPart p (Part.switched (bit (c.o 0) 0) (((v.part p).gen + 1) % 2 ^ 64))).endCmd q 0) := by
  obtain ⟨hsrc, hhigh, hreserved⟩ := switch_operand hsmall hlow
  have region_there : ((v.part p).image.region 0xFFF).isNone = false := by
    rw [← Option.not_isSome, hregion]
    rfl
  refine congrArg Host.Outcome.next ((tryStart_of_go hlook _).trans ?_)
  simp only [hbound, region_there, hsrc, hhigh, hreserved, hsteward, hread, hset, hpend, hslot, hwrite, ne_eq, not_true_eq_false,
    decide_false, Bool.not_true, Bool.or_self, Bool.or_false, Bool.false_eq_true, if_false]
  cases hstep : (v.part p).step with
  | none => cases bit (c.o 0) 0 <;> rfl
  | some r =>
    simp only [hcompute r hstep, decide_false, Bool.and_false, Bool.false_eq_true, if_false]
    cases bit (c.o 0) 0 <;> rfl

end

/-- Settles O30: a COPY copies or is refused by its objects (`copyCmd_of_objects`, `copyLines_of_line`); a SWITCH writes its set and
switches (`writeSet_part`, `switchSet_of_go`). -/
theorem copyAndSwitch : Obligations.CopyAndSwitch := by
  refine ⟨fun s v a b q c p x y hlook hbound hsrc hdst => ?copy, fun s v w p src dst d => copyLines_of_line,
    fun s v a d q c p b hlook hbound => ?switch⟩
  case copy =>
    intro n hsmall hlines hfrom hto hx hy r
    rw [copyCmd_of_objects hlook hbound hsrc hdst hsmall hlines hfrom hto hx hy]
    refine ⟨fun hr hw hsize hsize' => ?_, fun hbad => ?_⟩
    · rw [if_pos (copyFits_iff.2 ⟨hr, hw, hsize, hsize'⟩)]
    · rw [if_neg fun fits => ?_]
      obtain ⟨hr, hw, hsize, hsize'⟩ := copyFits_iff.1 fits
      rcases hbad with hbad | hbad | hbad | hbad
      · exact Bool.false_ne_true (hbad.symm.trans hr)
      · exact Bool.false_ne_true (hbad.symm.trans hw)
      · exact Nat.not_le.2 hbad hsize
      · exact Nat.not_le.2 hbad hsize'
  case switch =>
    intro x g src hregion hsmall hlow hsteward hread hset hpend hslot hcompute hwrite
    refine ⟨_, switchSet_of_go hlook hbound hregion hsmall hlow hsteward hread hset hpend hslot hcompute hwrite, ?_⟩
    have begun : (a.beginCmd q).part p = x :=
      (part_of_grid (grid_beginCmd ..) p).trans (part_of_beside ((beside_of_fst hread).trans (beside_hubRead ..)) p)
    obtain ⟨hstored, hgen, hkept⟩ := withSet_effect g (setEntries b) x
    rw [part_of_beside (beside_endCmd ..), part_updPart_same, writeSet_part hwrite, begun]
    refine ⟨?_, fun hnow => ?_, fun hlater => ?_, fun e => qHead_endCmd⟩
    · exact (slotSet_switched ..).trans hstored
    · have now : bit (c.o 0) 0 = true := by simpa [bit] using hnow
      rw [now]
      exact ⟨rfl, hkept.trans hpend⟩
    · have later : bit (c.o 0) 0 = false := by simp [bit, hlater]
      rw [later]
      exact ⟨hgen, rfl⟩

end Sys2Proof.Machine
end

section
/-!
PROOFS. SNAPSHOT, its read phase and its transfers (08_training_dataflow.md R207, R208, R210; 13_tenants_and_joint_training.md R321).
-/

namespace Sys2Proof.Machine

/-! ## The oldest command of a queue (15_shared_objects_and_submission.md R356, R363) -/

section
variable {s : State} {q : Nat} {c : HubCmd} {rest : List HubCmd}

@[simp] theorem showActive_hub (s : State) (i : Nat) : (s.showActive i).hub = s.hub := by
  unfold State.showActive
  split
  · exact setF_hub ..
  · rfl

/-- A command that starts is the oldest of its queue, and runs. -/
theorem qCmds_beginCmd (h : s.qCmds q = c :: rest) : (s.beginCmd q).qCmds q = { c with stage := .running } :: rest := by
  unfold State.beginCmd
  extract_lets t
  have started : t.qCmds q = { c with stage := .running } :: rest := qCmds_updHead _ h
  split
  · exact started
  · rw [State.qCmds, showActive_hub]
    exact started

theorem qCmds_endCmd (code : Nat) (h : s.qCmds q = c :: rest) :
    (s.endCmd q code).qCmds q = { c with stage := .ended, code := code, load := none } :: rest :=
  qCmds_updHead _ h

theorem endCmd_mem (s : State) (q code : Nat) : (s.endCmd q code).mem = s.mem := by
  rw [State.endCmd, setF_mem, updHead_mem]

theorem qHead_of_qCmds (h : s.qCmds q = c :: rest) : s.qHead q = some c := by
  rw [State.qHead, h, List.head?_cons]

end

/-! ## The start and the read phase (R207, R208) -/

section
variable {s a b : State} {q : QueueIx} {c : HubCmd} {p : Nat} {ts : List Tensor}

/-- A SNAPSHOT in order that nothing holds back captures its generation and begins its read phase. -/
theorem snapshotCmd_of_go {v : State} (hlook : s.lookStart q 0x11 = (v, .go c)) (hbound : v.boundPart (v.qCtx q) = some p)
    (hform : snapForm c = true) (htensors : v.snapTensors p (snapOp c) = (a, .ok ts)) (hok : a.snapOk p (snapOp c) ts = true)
    (hstep : (a.part p).step = none) (hstaging : (a.part p).staging = false) (hrun : a.movesRun p = false)
    (hwait : a.movesWait p c.arrived = false)
    (hregion : ∀ y ∈ a.ctxCmds (a.part p).ctx, y.op = 0x11 → y.stage ≠ .waiting → (snapOp y).exRegion ≠ (snapOp c).exRegion) :
    exec (.snapshotCmd q) s = .next ((a.beginCmd q).updHead q fun c => { c with gen := (a.part p).gen, phase := 1 }) := by
  have region_free : ((a.ctxCmds (a.part p).ctx).any fun y =>
      y.op = 0x11 && y.stage ≠ .waiting && (snapOp y).exRegion = (snapOp c).exRegion) = false :=
    List.any_eq_false.2 fun y hy => by
      simp only [Bool.and_eq_true, decide_eq_true_eq]
      rintro ⟨⟨hop, hstage⟩, hsame⟩
      exact hregion y hy hop hstage hsame
  refine congrArg Host.Outcome.next ((tryStart_of_go hlook _).trans ?_)
  simp only [hbound, hform, htensors, hok, hstep, hstaging, hrun, hwait, region_free, Bool.not_true, Bool.false_eq_true, if_false,
    Option.isSome_none, Bool.or_self]

section
variable {code : Nat} (hhead : s.qHead q = some c) (hbound : s.boundPart (s.qCtx q) = some p) (hop : c.op = 0x11)
  (hrun : c.stage = .running) (hphase : c.phase = 1) (htensors : s.snapTensors p (snapOp c) = (a, .ok ts))
  (hread : a.snapRead p c.gen (snapOp c) ts = (b, code))
include hhead hbound hop hrun hphase htensors hread

/-- A SNAPSHOT of its own partition, or one whose read is refused, ends with its read. -/
theorem snapshotReadDone_of_end (h : (snapOp c).dest = 0 ∨ code ≠ 0) :
    exec (.snapshotReadDone q) s = .next (b.endCmd q code) := by
  have ends : (decide (code ≠ 0) || decide ((snapOp c).dest = 0)) = true := by simpa [or_comm] using h
  show execSnapshotReadDone q s = _
  simp only [execSnapshotReadDone, hhead, hbound, hop, hrun, hphase, htensors, hread, ends, decide_true, Bool.and_self,
    Bool.not_true, Bool.false_eq_true, if_false, if_true]

/-- A SNAPSHOT to a partition, once it has read, goes on to its send phase. -/
theorem snapshotReadDone_of_send (hdest : (snapOp c).dest = 1) (hcode : code = 0) :
    exec (.snapshotReadDone q) s = .next (b.updHead q fun c => { c with phase := 3 }) := by
  show execSnapshotReadDone q s = _
  simp only [execSnapshotReadDone, hhead, hbound, hop, hrun, hphase, htensors, hread, hdest, hcode, decide_true, Bool.and_self,
    Bool.not_true, Bool.false_eq_true, if_false, if_true, ne_eq, not_true_eq_false, decide_false, one_ne_zero, Bool.or_self]

end

end

/-! ## Messages of a transfer (R210, R321) -/

section
variable {s v : State} {m : LinkMsg} {n : Nat}

/-- A message that waits on a port with a peer meets its event. -/
theorem onMsgIf_of_taken {port ty : Nat} {ok : LinkMsg → Bool} (f : Nat → LinkMsg → State → State)
    (hpeer : s.portPeer port = some n) (htake : s.takeMsg port ty = some (m, v)) (hok : ok m = true) :
    s.onMsgIf port ty ok f = f n m v := by
  simp only [State.onMsgIf, State.onMsg, hpeer, htake, hok, if_true]

theorem takeMsg_snaps {port ty : Nat} (h : s.takeMsg port ty = some (m, v)) : v.link.snaps = s.link.snaps := by
  unfold State.takeMsg at h
  split at h
  · cases h
  · split at h
    · cases h
    · split at h
      · cases h
      · obtain ⟨-, rfl⟩ := Prod.mk.inj (Option.some.inj h)
        rfl

/-- A list as long as a piece is one piece. -/
theorem chunks_of_length {α : Type} {k : Nat} {l : List α} (hk : 0 < k) (h : l.length = k) : chunks k l = [l] := by
  subst h
  have one : ceilDiv l.length l.length = 1 := by
    rw [ceilDiv, Nat.div_eq_of_lt_le] <;> omega
  simp only [chunks, one, List.range_one, List.map_cons, List.map_nil, Nat.mul_zero, List.drop_zero, List.take_length]

/-- The last message of a transfer, of one unit, is written as link ingress and answered with the code of its refusal. -/
theorem snapData_of_last {w : State} {port : PortIx} {code : Nat} (hpeer : s.portPeer port = some n)
    (htake : s.takeMsg port 0x22 = some (m, v)) (hlast : m.arg0 / 2 ^ 62 = 2) (hunit : m.payload.length = 4096)
    (hnew : ∀ x ∈ s.link.snaps, ¬ (x.peer = n ∧ x.tag = m.tag))
    (hwrite : v.ingressUnit (m.arg1 % 2048) (bitsOf m.arg1 51 12 * 4096 + m.arg0 % 2 ^ 52) m.payload = (w, code))
    (hsnaps : w.link.snaps = s.link.snaps) :
    exec (.snapData port) s = .next (w.sendMsg n 0x22 m.tag (code + 2 ^ 62) 0 []) := by
  have request : bit m.arg0 62 = false := by rw [bit, hlast]; rfl
  have last : bit m.arg0 63 = true := by
    simp only [bit, decide_eq_true_eq]
    omega
  have other : ∀ x ∈ s.link.snaps, (decide (x.peer = n) && decide (x.tag = m.tag)) = false := fun x hx => by
    rw [← Bool.decide_and]
    exact decide_eq_false (hnew x hx)
  have none_before : (v.link.snaps.find? fun x => x.peer = n && x.tag = m.tag) = none := by
    rw [takeMsg_snaps htake]
    exact List.find?_eq_none.2 fun x hx => Bool.eq_false_iff.1 (other x hx)
  have all_stay : (w.link.snaps.filter fun x => !(x.peer = n && x.tag = m.tag)) = w.link.snaps := by
    rw [hsnaps]
    exact List.filter_eq_self.2 fun x hx => by rw [other x hx, Bool.not_false]
  refine congrArg Host.Outcome.next ((onMsgIf_of_taken _ hpeer htake (by rw [request]; rfl)).trans ?_)
  simp only [none_before, chunks_of_length (by decide) hunit, List.zipIdx_singleton, List.foldl_cons, List.foldl_nil, Nat.mul_zero,
    Nat.add_zero, hwrite, Option.map_none, Option.getD_none, if_true, last, all_stay]

/-- A reply ends the SNAPSHOT that waits for its TAG. -/
theorem snapDataReply_of_waiting {port : PortIx} {q : Nat} (hpeer : s.portPeer port = some n)
    (htake : s.takeMsg port 0x22 = some (m, v)) (hreply : m.arg0 / 2 ^ 62 % 2 = 1) (hsnap : v.snapOf n m.tag = some q) :
    exec (.snapDataReply port) s = .next (v.endCmd q (m.arg0 % 2 ^ 16)) := by
  refine congrArg Host.Outcome.next ((onMsgIf_of_taken _ hpeer htake (decide_eq_true hreply)).trans ?_)
  simp only [hsnap]

end

/-- A SNAPSHOT that no answer reaches in time ends. -/
theorem snapDataTimeout_of_waiting {s : State} {q : QueueIx} {c : HubCmd} (hhead : s.qHead q = some c) (hop : c.op = 0x11)
    (hrun : c.stage = .running) (hphase : c.phase = 2) : exec (.snapDataTimeout q) s = .next (s.endCmd q 0x040D) := by
  show execSnapDataTimeout q s = _
  simp only [execSnapDataTimeout, hhead, hop, hrun, hphase, decide_true, Bool.and_self, if_true]

/-- Settles O31: a SNAPSHOT starts (`snapshotCmd_of_go`), has read (`snapshotReadDone_of_end`, `snapshotReadDone_of_send`), and its
transfer is written, answered or given up (`snapData_of_last`, `snapDataReply_of_waiting`, `snapDataTimeout_of_waiting`). -/
theorem snapshotAndTransfers : Obligations.SnapshotAndTransfers := by
  refine ⟨fun s v a q c p ts rest hlook hbound hform htensors hok hstep hstaging hrun hwait hregion hcmds => ?start,
    fun s a b q c p code ts hhead hbound hop hrun hphase htensors hread =>
      ⟨snapshotReadDone_of_end hhead hbound hop hrun hphase htensors hread,
        snapshotReadDone_of_send hhead hbound hop hrun hphase htensors hread⟩,
    fun s v w port n code m => snapData_of_last, fun s v port n q m hpeer htake hreply hsnap => ?reply,
    fun s q c rest hcmds hop hrun hphase => ?timeout⟩
  case start =>
    refine ⟨_, snapshotCmd_of_go hlook hbound hform htensors hok hstep hstaging hrun hwait hregion, ?_, ?_, ?_⟩
    · exact qCmds_updHead _ (qCmds_beginCmd hcmds)
    · exact mem_of_grid (grid_before_step ..)
    · exact parts_of_grid (grid_before_step ..)
  case reply =>
    have answered := snapDataReply_of_waiting hpeer htake hreply hsnap
    exact ⟨answered, _, answered, fun e => qHead_endCmd⟩
  case timeout =>
    exact ⟨_, snapDataTimeout_of_waiting (qHead_of_qCmds hcmds) hop hrun hphase, qCmds_endCmd _ hcmds, endCmd_mem ..⟩

end Sys2Proof.Machine
end

section
/-!
PROOFS. Fields of ports and peer entries, and what the operations of set-up leave of ports and sessions
(10_links_and_collectives.md R247 to R252, R261, R262).
-/

namespace Sys2Proof.Machine

/-! ## Fields of PORT_STAT and PEER_ENTRY (R261, R262) -/

/-- Do no copies of two fields meet: they begin at different bits, or at different places of blocks of 64 bytes? -/
def Fld.apart (f g : Fld) : Bool :=
  f.lo < 64 && g.lo < 64 && (f.lo ≠ g.lo ||
    (f.s1 % 64 = 0 && f.s2 = 0 && g.s1 % 64 = 0 && g.s2 = 0 && f.base % 64 ≠ g.base % 64))

theorem key_ne_of_apart {f g : Fld} (h : f.apart g = true) (i j a c : Nat) : g.key a c ≠ f.key i j := by
  simp only [Fld.apart, Bool.and_eq_true, Bool.or_eq_true, decide_eq_true_eq] at h
  obtain ⟨⟨hf, hg⟩, hlo | ⟨⟨⟨⟨hf1, hf2⟩, hg1⟩, hg2⟩, hbase⟩⟩ := h
  · exact key_ne_of_lo_ne hlo hf hg a c i j
  · intro e
    simp only [Fld.key, hf2, hg2] at e
    have place : g.base + g.s1 * a = f.base + f.s1 * i := by omega
    have hfi : f.s1 * i % 64 = 0 := by rw [Nat.mul_mod, hf1, Nat.zero_mul, Nat.zero_mod]
    have hga : g.s1 * a % 64 = 0 := by rw [Nat.mul_mod, hg1, Nat.zero_mul, Nat.zero_mod]
    omega

theorem getF_setF_of_apart {f g : Fld} (h : f.apart g = true) (s : State) (i j a c v : Nat) :
    (s.setF f i j v).getF g a c = s.getF g a c := getF_setF_other _ _ _ _ _ _ _ _ (key_ne_of_apart h i j a c)

/-- Different copies of a field have different keys. -/
theorem key_ne_of_copy {f : Fld} (hs : 0 < f.s1) {a i : Nat} (h : a ≠ i) (j : Nat) : f.key a j ≠ f.key i j := by
  intro e
  simp only [Fld.key] at e
  have same : f.s1 * a = f.s1 * i := by omega
  exact h (Nat.eq_of_mul_eq_mul_left hs same)

theorem getF_setF_of_copy {f : Fld} (hs : 0 < f.s1) {a i : Nat} (h : a ≠ i) (s : State) (j v : Nat) :
    (s.setF f i j v).getF f a j = s.getF f a j := getF_setF_other _ _ _ _ _ _ _ _ (key_ne_of_copy hs h j)

section
variable {s : State} {p q n m : Nat} {g : Fld} (v : Nat)

@[simp] theorem session_updPort (s : State) (p : Nat) (f : PortSt → PortSt) (n : Nat) : (s.updPort p f).session n = s.session n := rfl

@[simp] theorem session_updSession_same (s : State) (n : Nat) (f : Session → Session) :
    (s.updSession n f).session n = f (s.session n) := smapGet_upd_same ..

theorem session_updSession_other (s : State) (f : Session → Session) (h : m ≠ n) : (s.updSession n f).session m = s.session m :=
  smapGet_upd_other _ _ _ h

@[simp] theorem getF_updPort (s : State) (p : Nat) (f : PortSt → PortSt) (a c : Nat) : (s.updPort p f).getF g a c = s.getF g a c := rfl
@[simp] theorem getF_updSession (s : State) (n : Nat) (f : Session → Session) (a c : Nat) :
    (s.updSession n f).getF g a c = s.getF g a c := rfl

theorem session_of_link {s u : State} (h : u.link = s.link) (n : Nat) : u.session n = s.session n := by rw [State.session, h, State.session]

@[simp] theorem portState_setPortState_same (s : State) (p : Nat) : (s.setPortState p v).portState p = v % 8 := getF_setF_same ..

theorem portState_setPortState_other (h : q ≠ p) : (s.setPortState p v).portState q = s.portState q :=
  getF_setF_of_copy (by decide) h ..

theorem getF_setPortState (h : Reg.PORT_STAT_STATE.apart g = true) (p a c : Nat) :
    (s.setPortState p v).getF g a c = s.getF g a c := getF_setF_of_apart h ..

/-- A change of a peer entry's STATE shows in its own field and in the two counts of PEER_STAT. -/
theorem getF_setPeerState (h : g.lo ≠ 0 ∧ g.lo ≠ 9 ∧ g.lo < 64) (n a c : Nat) :
    (s.setPeerState n v).getF g a c = s.getF g a c := by
  obtain ⟨h0, h9, hlow⟩ := h
  simp only [State.setPeerState, State.set]
  rw [getF_setF_of_lo (Ne.symm h9) (by decide) hlow, getF_setF_of_lo (Ne.symm h0) (by decide) hlow,
    getF_setF_of_lo (Ne.symm h0) (by decide) hlow]

/-- The entries lie behind the counts of PEER_STAT, whose one copy none of them meets. -/
theorem peerState_after_counts (s : State) (a b m : Nat) :
    ((s.set Reg.PEER_STAT_OPEN a).set Reg.PEER_STAT_DRAINING b).peerState m = s.peerState m := by
  have opens : Reg.PEER_ENTRY_STATE.key m 0 ≠ Reg.PEER_STAT_OPEN.key 0 0 := (key_ne_of_base_lt (by decide) (by decide) m 0).symm
  rw [State.peerState, State.set, getF_setF_of_apart (by decide), State.set, getF_setF_other _ _ _ _ _ _ _ _ opens, State.peerState]

@[simp] theorem peerState_setPeerState_same (s : State) (n : Nat) : (s.setPeerState n v).peerState n = v % 4 :=
  (peerState_after_counts ..).trans (getF_setF_same ..)

theorem peerState_setPeerState_other (h : m ≠ n) : (s.setPeerState n v).peerState m = s.peerState m :=
  (peerState_after_counts ..).trans (getF_setF_of_copy (by decide) h ..)

theorem refusedCount_setPeerState (s : State) (n : Nat) :
    (s.setPeerState n v).get Reg.PEER_REFUSED_COUNT = s.get Reg.PEER_REFUSED_COUNT := by
  have entry : Reg.PEER_REFUSED_COUNT.key 0 0 ≠ Reg.PEER_ENTRY_STATE.key n 0 := key_ne_of_base_lt (by decide) (by decide) n 0
  simp only [State.setPeerState, State.set, State.get]
  rw [getF_setF_of_apart (by decide), getF_setF_other _ _ _ _ _ _ _ _ (by decide), getF_setF_other _ _ _ _ _ _ _ _ entry]

/-- The peer of a port is what PEER_VALID and PEER of PORT_STAT say. -/
theorem portPeer_setF {f : Fld} (hvalid : f.apart Reg.PORT_STAT_PEER_VALID = true) (hpeer : f.apart Reg.PORT_STAT_PEER = true)
    (s : State) (i j v q : Nat) : (s.setF f i j v).portPeer q = s.portPeer q := by
  rw [State.portPeer, getF_setF_of_apart hvalid, getF_setF_of_apart hpeer, State.portPeer]

/-- What the registers alone show. -/
theorem getF_of_regs {s u : State} (h : u.regs = s.regs) (f : Fld) (i j : Nat) : u.getF f i j = s.getF f i j := by
  rw [State.getF, h, State.getF]

theorem portState_of_regs {s u : State} (h : u.regs = s.regs) (q : Nat) : u.portState q = s.portState q := getF_of_regs h ..

theorem peerState_of_regs {s u : State} (h : u.regs = s.regs) (m : Nat) : u.peerState m = s.peerState m := getF_of_regs h ..

theorem portPeer_of_regs {s u : State} (h : u.regs = s.regs) (q : Nat) : u.portPeer q = s.portPeer q := by
  rw [State.portPeer, getF_of_regs h, getF_of_regs h, State.portPeer]

theorem portPeer_setPortState (s : State) (p q : Nat) : (s.setPortState p v).portPeer q = s.portPeer q :=
  portPeer_setF (by decide) (by decide) ..

theorem peerState_setPortState (s : State) (p m : Nat) : (s.setPortState p v).peerState m = s.peerState m :=
  getF_setPortState v (by decide) ..

@[simp] theorem portState_updPort (s : State) (p : Nat) (f : PortSt → PortSt) (q : Nat) : (s.updPort p f).portState q = s.portState q := rfl
@[simp] theorem portPeer_updPort (s : State) (p : Nat) (f : PortSt → PortSt) (q : Nat) : (s.updPort p f).portPeer q = s.portPeer q := rfl
@[simp] theorem peerState_updPort (s : State) (p : Nat) (f : PortSt → PortSt) (n : Nat) : (s.updPort p f).peerState n = s.peerState n := rfl
@[simp] theorem peerState_updSession (s : State) (n : Nat) (f : Session → Session) (m : Nat) :
    (s.updSession n f).peerState m = s.peerState m := rfl
@[simp] theorem session_setPeerState (s : State) (n m : Nat) : (s.setPeerState n v).session m = s.session m := rfl
@[simp] theorem port_tick (s : State) (p : Nat) : s.tick.port p = s.port p := rfl
@[simp] theorem session_setF (s : State) (f : Fld) (i j v m : Nat) : (s.setF f i j v).session m = s.session m := rfl
@[simp] theorem port_setPortState (s : State) (p q : Nat) : (s.setPortState p v).port q = s.port q := rfl
@[simp] theorem port_setPeerState (s : State) (n q : Nat) : (s.setPeerState n v).port q = s.port q := rfl
@[simp] theorem portState_tick (s : State) (p : Nat) : s.tick.portState p = s.portState p := rfl
@[simp] theorem entryOf_updPort (s : State) (p : Nat) (f : PortSt → PortSt) (k : Bytes) (n : Nat) :
    (s.updPort p f).entryOf k n = s.entryOf k n := rfl

end

end Sys2Proof.Machine
end

section
/-!
PROOFS. The set-up of a link: HELLO, SPDM, KX, REFUSE and their timeouts (10_links_and_collectives.md R247 to R252).
-/

namespace Sys2Proof.Machine

/-! ## Setup messages, and the entry that a set-up holds (R247, R249) -/

section
variable {s v : State} {p q m k : Nat} {b : Bytes} {g : Fld}

/-- A setup message that is taken leaves its port's list, and nothing else changes. -/
theorem takeSetup_eq (h : s.takeSetup p k = some (b, v)) : ∃ r, v = s.updPort p fun x => { x with setupRx := r } := by
  unfold State.takeSetup at h
  split at h
  · cases h
  · split at h
    · cases h
      exact ⟨_, rfl⟩
    · cases h

/-- What a setup message that has been taken leaves as it was. -/
theorem takeSetup_keeps (h : s.takeSetup p k = some (b, v)) :
    (∀ q, v.portState q = s.portState q) ∧ (∀ n, v.peerState n = s.peerState n) ∧ v.frame = s.frame ∧
      (∀ key n, v.entryOf key n = s.entryOf key n) ∧ v.get Reg.PEER_REFUSED_COUNT = s.get Reg.PEER_REFUSED_COUNT ∧
      (v.port p).setup = (s.port p).setup := by
  obtain ⟨r, rfl⟩ := takeSetup_eq h
  exact ⟨fun _ => rfl, fun _ => rfl, rfl, fun _ _ => rfl, rfl, by rw [port_updPort_same]⟩

@[simp] theorem port_queueSetup_same (s : State) (p k : Nat) (b : Bytes) :
    (s.queueSetup p k b).port p = { s.port p with
      setupTx := (s.port p).setupTx ++ [setupMsg k b]
      setup := { (s.port p).setup with transcript := (s.port p).setup.transcript ++ setupMsg k b } } := port_updPort_same ..

@[simp] theorem portState_queueSetup (s : State) (p k : Nat) (b : Bytes) (q : Nat) :
    (s.queueSetup p k b).portState q = s.portState q := rfl

/-- A set-up that ends gives its entry back; beside the entry's own fields and PEER_STAT no register changes. -/
theorem getF_freeSetup (h : g.lo ≠ 0 ∧ g.lo ≠ 9 ∧ g.lo < 64) (s : State) (p a c : Nat) :
    (s.freeSetup p).getF g a c = s.getF g a c := by
  unfold State.freeSetup
  split
  · rw [getF_updPort]
    split
    · rw [getF_updSession, getF_setPeerState 0 h]
    · rfl
  · rfl

@[simp] theorem port_freeSetup_same (s : State) (p : Nat) :
    (s.freeSetup p).port p = { s.port p with setup := { (s.port p).setup with entry := none } } := by
  unfold State.freeSetup
  split
  · rw [port_updPort_same]
    split
    · rw [port_updSession, port_setPeerState]
    · rfl
  · next h => rw [← h]

/-- An entry that is in no set-up is not given back. -/
theorem freeSetup_keeps_peer (h : s.peerState m ≠ 1) :
    (s.freeSetup p).peerState m = s.peerState m ∧ (s.freeSetup p).session m = s.session m := by
  unfold State.freeSetup
  split
  · next n _ =>
    rw [peerState_updPort, session_updPort]
    split
    · next hn =>
      have apart : m ≠ n := fun e => h (e ▸ hn)
      rw [peerState_updSession, peerState_setPeerState_other 0 apart, session_updSession_other _ _ apart, session_setPeerState]
      exact ⟨rfl, rfl⟩
    · exact ⟨rfl, rfl⟩
  · exact ⟨rfl, rfl⟩

theorem refusedCount_freeSetup (s : State) (p : Nat) : (s.freeSetup p).get Reg.PEER_REFUSED_COUNT = s.get Reg.PEER_REFUSED_COUNT := by
  unfold State.freeSetup
  split
  · rw [State.get, getF_updPort]
    split
    · rw [getF_updSession]
      exact refusedCount_setPeerState ..
    · rfl
  · rfl

end

/-! ## Refusals (R247, R248) -/

/-- A port has refused with a code: REFUSE is queued behind what it was about to send, and its entry is given back. -/
def SetupRefused (v u : State) (p code : Nat) : Prop :=
  u.portState p = 5 ∧ u.getF Reg.PORT_STAT_LAST_ERR p 0 = code ∧
    (u.port p).setupTx = (v.port p).setupTx ++ [setupMsg 0x04 (leBytes 2 code)] ∧ (u.port p).setup.entry = none

theorem setupRefused_refusePort (s : State) (p : Nat) {code : Nat} (hcode : code < 2 ^ 16) (count : Bool) :
    SetupRefused s (s.refusePort p code count) p code := by
  unfold State.refusePort
  extract_lets t
  have same_port : t.port p = s.port p := by
    unfold t
    split <;> rfl
  refine ⟨portState_setPortState_same .., ?_, ?_, ?_⟩
  · rw [getF_setPortState _ (by decide)]
    exact (getF_setF_same ..).trans (Nat.mod_eq_of_lt hcode)
  · have sent := congrArg PortSt.setupTx (port_queueSetup_same (t.freeSetup p) p 0x04 (leBytes 2 code))
    rwa [port_freeSetup_same, same_port] at sent
  · have entry := congrArg (·.setup.entry) (port_queueSetup_same (t.freeSetup p) p 0x04 (leBytes 2 code))
    rwa [port_freeSetup_same] at entry

/-- A refused admission is counted. -/
theorem refusedCount_refusePort (s : State) (p code : Nat) :
    (s.refusePort p code true).get Reg.PEER_REFUSED_COUNT =
      min (2 ^ Reg.PEER_REFUSED_COUNT.width - 1) (s.get Reg.PEER_REFUSED_COUNT + 1) := by
  have counted := refusedCount_freeSetup (s.addF Reg.PEER_REFUSED_COUNT 0 0 1) p
  have added : (s.addF Reg.PEER_REFUSED_COUNT 0 0 1).get Reg.PEER_REFUSED_COUNT =
      min (2 ^ Reg.PEER_REFUSED_COUNT.width - 1) (s.get Reg.PEER_REFUSED_COUNT + 1) :=
    (getF_setF_same ..).trans (Nat.mod_eq_of_lt (lt_of_le_of_lt (min_le_left ..) (by decide)))
  rw [State.get, State.refusePort, getF_setPortState _ (by decide), State.portErr, getF_setF_of_apart (by decide)]
  exact counted.trans added

/-! ## A fresh HELLO (R247, R251) -/

/-- A port has begun set-up with a fresh HELLO, for the given number of restarts. -/
def HelloSent (u : State) (p restarts : Nat) : Prop :=
  u.portState p = 3 ∧ (u.port p).setup.nonce.length = 32 ∧ (u.port p).setup.restarts = restarts ∧
    (u.port p).setupTx = [setupMsg 0x01 (unitKey ++ (u.port p).setup.nonce ++ leBytes 2 1)]

section
variable {s : State} {p q m : Nat} {g : Fld}

/-- A set-up that ends leaves no entry and nothing to send. -/
theorem port_endSetup (s : State) (p : Nat) :
    ((s.endSetup p).port p).setup.entry = none ∧ ((s.endSetup p).port p).setupTx = [] := by
  rw [State.endSetup, port_updPort_same]
  split <;> exact ⟨rfl, rfl⟩

theorem getF_endSetup (h : g.lo ≠ 0 ∧ g.lo ≠ 9 ∧ g.lo < 64) (s : State) (p a c : Nat) :
    (s.endSetup p).getF g a c = s.getF g a c := getF_freeSetup h s p a c

theorem helloSent_startSetup (s : State) (p n : Nat) : HelloSent (s.startSetup p n) p n := by
  have port_eq := port_queueSetup_same (((s.endSetup p).setPortState p 3).tick.updPort p fun x => { x with
    setup := { SetupSt.empty with nonce := ((s.endSetup p).setPortState p 3).freeBytes 32, restarts := n }, joining := false })
    p 0x01 (unitKey ++ ((s.endSetup p).setPortState p 3).freeBytes 32 ++ leBytes 2 1)
  rw [port_updPort_same] at port_eq
  have nothing : (((s.endSetup p).setPortState p 3).tick.port p).setupTx = [] := (port_endSetup s p).2
  have state : ((s.endSetup p).setPortState p 3).portState p = 3 := portState_setPortState_same ..
  refine ⟨state, ?_, ?_, ?_⟩ <;> rw [State.startSetup, State.sendHello, port_eq]
  · simp only [State.freeBytes, List.length_map, List.length_range]
  · dsimp only
    rw [nothing, List.nil_append]

/-- A set-up that starts changes no field of another place than STATE, its entry and PEER_STAT. -/
theorem getF_startSetup (h : g.lo ≠ 0 ∧ g.lo ≠ 9 ∧ g.lo < 64) (hstate : Reg.PORT_STAT_STATE.apart g = true) (s : State)
    (p n a c : Nat) : (s.startSetup p n).getF g a c = s.getF g a c :=
  (getF_setPortState 3 hstate p a c).trans (getF_endSetup h s p a c)

end

/-! ## HELLO (R247, R250, R251) -/

section
variable {s v : State} {p : Nat} {port : PortIx} {own key nonce b : Bytes}

/-- An identity whose session drains is refused and counted. -/
theorem takeHello_of_draining (h : s.entryOf key 3 ≠ none) :
    let u := s.takeHello p own key nonce
    SetupRefused s u p 0x0401 ∧ u.get Reg.PEER_REFUSED_COUNT =
      min (2 ^ Reg.PEER_REFUSED_COUNT.width - 1) (s.get Reg.PEER_REFUSED_COUNT + 1) := by
  intro u
  let heard := s.updPort p fun x => { x with setup := { x.setup with hello := some (key, nonce) } }
  have hu : u = heard.refusePort p 0x0401 true := if_pos (Option.isSome_iff_ne_none.2 h)
  obtain ⟨hstate, herr, hsent, hentry⟩ := setupRefused_refusePort heard p (code := 0x0401) (by decide) true
  rw [hu]
  refine ⟨⟨hstate, herr, hsent.trans ?_, hentry⟩, refusedCount_refusePort ..⟩
  rw [port_updPort_same]

/-- An identity without a session is kept, and the initiator opens the SPDM exchange with it. -/
theorem takeHello_of_new (hdrain : s.entryOf key 3 = none) (hopen : s.entryOf key 2 = none) :
    let u := s.takeHello p own key nonce
    (u.port p).setup.stage = 1 ∧ (u.port p).setup.hello = some (key, nonce) ∧ u.portState p = s.portState p ∧
      (isInitiator key = false → (u.port p).setupTx = (s.port p).setupTx) ∧
      (isInitiator key = true → ∃ m, (u.port p).setupTx = (s.port p).setupTx ++ [setupMsg 0x02 m]) := by
  intro u
  have not_draining : ¬ (s.entryOf key 3).isSome = true := by rw [hdrain]; exact Bool.false_ne_true
  unfold u State.takeHello
  simp only [entryOf_updPort, hopen, if_neg not_draining]
  cases isInitiator key with
  | false =>
    simp
  | true =>
    simp

theorem linkHello_of_none (htake : s.takeSetup port 0x01 = none) : exec (.linkHello port) s = .next s := by
  show execLinkHello port s = _
  rw [execLinkHello, htake]

section
variable (htake : s.takeSetup port 0x01 = some (b, v)) (hst : s.portState port = 3) (hhello : (v.port port).setup.hello = none)
include htake hst hhello

/-- A HELLO is the first of its set-up when none has been heard: one out of form is refused, any other is taken. -/
theorem linkHello_of_first :
    exec (.linkHello port) s = .next (if b.length ≠ 66 ∨ rd b 64 2 ≠ 1 then v.refusePort port 0x0409 false
      else v.takeHello port (setupMsg 0x01 (unitKey ++ (v.port port).setup.nonce ++ leBytes 2 1)) (slice b 0 32) (slice b 32 32)) := by
  obtain ⟨hstate, -⟩ := takeSetup_keeps htake
  show execLinkHello port s = _
  simp only [execLinkHello, htake, hstate, hst, hhello, decide_true, Option.isNone_none, Bool.and_self, Bool.or_true, Bool.true_or,
    Bool.not_true, Bool.false_eq_true, if_false, if_true, Bool.or_eq_true, decide_eq_true_eq]

theorem linkHello_of_bad_form (hform : b.length ≠ 66 ∨ rd b 64 2 ≠ 1) :
    ∃ u, exec (.linkHello port) s = .next u ∧ SetupRefused v u port 0x0409 := by
  rw [linkHello_of_first htake hst hhello, if_pos hform]
  exact ⟨_, rfl, setupRefused_refusePort v port (by decide) false⟩

section
variable (hlen : b.length = 66) (hformat : rd b 64 2 = 1)
include hlen hformat

theorem linkHello_of_form : exec (.linkHello port) s = .next (v.takeHello port
    (setupMsg 0x01 (unitKey ++ (v.port port).setup.nonce ++ leBytes 2 1)) (slice b 0 32) (slice b 32 32)) := by
  rw [linkHello_of_first htake hst hhello, if_neg fun hbad => hbad.elim (· hlen) (· hformat)]

theorem linkHello_of_draining (hdrain : s.entryOf (slice b 0 32) 3 ≠ none) :
    ∃ u, exec (.linkHello port) s = .next u ∧ SetupRefused v u port 0x0401 ∧ u.get Reg.PEER_REFUSED_COUNT =
      min (2 ^ Reg.PEER_REFUSED_COUNT.width - 1) (s.get Reg.PEER_REFUSED_COUNT + 1) := by
  obtain ⟨-, -, -, hentries, hcount, -⟩ := takeSetup_keeps htake
  rw [← hentries] at hdrain
  rw [← hcount]
  exact ⟨_, linkHello_of_form htake hst hhello hlen hformat, takeHello_of_draining hdrain⟩

theorem linkHello_of_new (hdrain : s.entryOf (slice b 0 32) 3 = none) (hopen : s.entryOf (slice b 0 32) 2 = none) :
    ∃ u, exec (.linkHello port) s = .next u ∧ (u.port port).setup.stage = 1 ∧
      (u.port port).setup.hello = some (slice b 0 32, slice b 32 32) ∧ u.portState port = 3 ∧
      (isInitiator (slice b 0 32) = false → (u.port port).setupTx = (v.port port).setupTx) ∧
      (isInitiator (slice b 0 32) = true → ∃ m, (u.port port).setupTx = (v.port port).setupTx ++ [setupMsg 0x02 m]) := by
  obtain ⟨hstate, -, -, hentries, -⟩ := takeSetup_keeps htake
  rw [← hentries] at hdrain hopen
  rw [← hst, ← hstate]
  exact ⟨_, linkHello_of_form htake hst hhello hlen hformat, takeHello_of_new hdrain hopen⟩

end

end

end

/-! ## The SPDM exchange and admission (R248, R249) -/

section
variable {s v : State} {p n : Nat} {port : PortIx} {key nonce b : Bytes}

/-- This end's turn sends its message, if it has one, and changes nothing else. -/
theorem sendSpdm_effect (s : State) (p : Nat) (b : Bytes) :
    (s.sendSpdm p b).regs = s.regs ∧ (s.sendSpdm p b).frame = s.frame ∧
      ((s.sendSpdm p b).port p).setup.stage = (s.port p).setup.stage ∧
      ((s.sendSpdm p b).port p).setupTx = (s.port p).setupTx ++ if b.isEmpty then [] else [setupMsg 0x02 b] := by
  unfold State.sendSpdm
  cases b.isEmpty with
  | true => simp
  | false =>
    simp only [Bool.false_eq_true, if_false, port_queueSetup_same]
    exact ⟨rfl, rfl, rfl, rfl⟩

/-- A peer that the policy does not admit is refused. -/
theorem admitPeer_of_refused (h : s.frame.admits key = false) : s.admitPeer p key = s.refusePort p 0x0409 true := by
  simp [State.admitPeer, h]

/-- An admitted peer reserves the lowest FREE entry, and KX is queued. -/
theorem admitPeer_of_free (hadmit : s.frame.admits key = true) (hn : n < 256) (hfree : s.peerState n = 0)
    (hlow : ∀ m < n, s.peerState m ≠ 0) :
    let u := s.admitPeer p key
    u.peerState n = 1 ∧ (u.port p).setup.stage = 2 ∧ (u.port p).setup.entry = some n ∧ (u.port p).setup.priv.length = 32 ∧
      (u.port p).setupTx = (s.port p).setupTx ++ [setupMsg 0x03 (ownKx (u.port p).setup)] := by
  intro u
  have lowest : ((List.range 256).find? fun n => s.peerState n = 0) = some n := by
    rw [List.find?_range_eq_some]
    refine ⟨decide_eq_true hfree, List.mem_range.2 hn, fun m hm => ?_⟩
    simpa using hlow m hm
  unfold u State.admitPeer
  simp only [hadmit, Bool.not_true, Bool.false_eq_true, if_false, lowest, port_updPort_same, peerState_updPort, peerState_updSession,
    peerState_setPeerState_same, port_updSession, port_setPeerState, port_tick]
  simp [State.freeBytes]

/-- A set-up whose transcript goes on with an SPDM message. -/
def State.heardSpdm (s : State) (p : Nat) (b : Bytes) : State :=
  s.updPort p fun x => { x with setup := { x.setup with transcript := x.setup.transcript ++ setupMsg 0x02 b } }

section
variable (htake : s.takeSetup port 0x02 = some (b, v)) (hhello : (s.port port).setup.hello = some (key, nonce))
include htake hhello

theorem linkSpdm_of_other (h : s.portState port ≠ 3 ∨ (s.port port).setup.stage ≠ 1) : exec (.linkSpdm port) s = .next v := by
  obtain ⟨hstate, -, -, -, -, hsetup⟩ := takeSetup_keeps htake
  show execLinkSpdm port s = _
  simp only [execLinkSpdm, htake, hhello, hstate, hsetup, Bool.or_eq_true, decide_eq_true_eq, if_pos h]

/-- What an SPDM message leads to once this end has taken its turn: a refusal, an admission, or the next message. -/
theorem linkSpdm_of_stage (hst : s.portState port = 3) (hstage : (s.port port).setup.stage = 1) :
    let r := (v.heardSpdm port b).spdmTurn port
    let t := (v.heardSpdm port b).sendSpdm port r.1
    exec (.linkSpdm port) s = .next (if setupSpdm b = false ∨ r.2 = 2 then t.refusePort port 0x0409 true
      else if r.2 = 1 then t.admitPeer port key else t) := by
  intro r t
  obtain ⟨hstate, -, -, -, -, hsetup⟩ := takeSetup_keeps htake
  show execLinkSpdm port s = _
  simp only [execLinkSpdm, htake, hhello, hstate, hst, hsetup, hstage, ne_eq, not_true_eq_false, decide_false, Bool.or_self,
    Bool.false_eq_true, if_false, Bool.or_eq_true, Bool.not_eq_true', decide_eq_true_eq]
  rfl

/-- The exchange is refused, admits its peer or goes on. -/
theorem linkSpdm_outcomes (hst : s.portState port = 3) (hstage : (s.port port).setup.stage = 1) :
    let r := (v.heardSpdm port b).spdmTurn port
    let sent := (v.port port).setupTx ++ (if r.1.isEmpty then [] else [setupMsg 0x02 r.1])
    ∃ u, exec (.linkSpdm port) s = .next u ∧
      (setupSpdm b = false ∨ r.2 = 2 ∨ (r.2 = 1 ∧ s.frame.admits key = false) → u.portState port = 5 ∧
        u.getF Reg.PORT_STAT_LAST_ERR port 0 = 0x0409 ∧ (u.port port).setupTx = sent ++ [setupMsg 0x04 (leBytes 2 0x0409)]) ∧
      (setupSpdm b = true → r.2 ≠ 1 → r.2 ≠ 2 →
        u.portState port = 3 ∧ (u.port port).setupTx = sent ∧ (u.port port).setup.stage = 1) ∧
      (∀ n < 256, setupSpdm b = true → r.2 = 1 → s.frame.admits key = true → s.peerState n = 0 → (∀ m < n, s.peerState m ≠ 0) →
        u.peerState n = 1 ∧ (u.port port).setup.stage = 2 ∧ (u.port port).setup.entry = some n ∧
          (u.port port).setup.priv.length = 32 ∧
          (u.port port).setupTx = sent ++ [setupMsg 0x03 (ownKx (u.port port).setup)]) := by
  intro r sent
  obtain ⟨hstate, hpeers, hframe, -, -, hsetup⟩ := takeSetup_keeps htake
  let t := (v.heardSpdm port b).sendSpdm port r.1
  obtain ⟨hregs, htframe, htstage, hsent⟩ := sendSpdm_effect (v.heardSpdm port b) port r.1
  have same_state (q : Nat) : t.portState q = s.portState q := by
    rw [← hstate, State.portState, State.getF, hregs]
    rfl
  have same_peer (n : Nat) : t.peerState n = s.peerState n := by
    rw [← hpeers, State.peerState, State.getF, hregs]
    rfl
  have same_frame : t.frame = s.frame := htframe.trans hframe
  have sends : (t.port port).setupTx = sent := by
    rw [hsent, State.heardSpdm, port_updPort_same]
  have in_stage : (t.port port).setup.stage = 1 := by
    rw [htstage, State.heardSpdm, port_updPort_same]
    exact (congrArg SetupSt.stage hsetup).trans hstage
  refine ⟨_, linkSpdm_of_stage htake hhello hst hstage, fun hrefused => ?_, fun hspdm hopen hgood => ?_,
    fun n hn hspdm hadmits hpolicy hfree hlow => ?_⟩
  · have ends_refused : (if setupSpdm b = false ∨ r.2 = 2 then t.refusePort port 0x0409 true
        else if r.2 = 1 then t.admitPeer port key else t) = t.refusePort port 0x0409 true := by
      rcases hrefused with h | h | ⟨h, hpolicy⟩
      · exact if_pos (.inl h)
      · exact if_pos (.inr h)
      · rw [if_pos h, admitPeer_of_refused (same_frame ▸ hpolicy), ite_self]
    obtain ⟨hrefused, herr, htx, -⟩ := setupRefused_refusePort t port (code := 0x0409) (by decide) true
    rw [sends] at htx
    rw [ends_refused]
    exact ⟨hrefused, herr, htx⟩
  · have not_refused : ¬ (setupSpdm b = false ∨ r.2 = 2) := by simp [hspdm, hgood]
    rw [if_neg not_refused, if_neg hopen]
    exact ⟨(same_state port).trans hst, sends, in_stage⟩
  · have not_refused : ¬ (setupSpdm b = false ∨ r.2 = 2) := by simp [hspdm, hadmits]
    rw [if_neg not_refused, if_pos hadmits, ← sends]
    exact admitPeer_of_free (same_frame ▸ hpolicy) hn ((same_peer n).trans hfree) fun m hm => by
      rw [same_peer]
      exact hlow m hm

end

end

/-! ## KX and REFUSE (R247) -/

section
variable {s v : State} {port : PortIx} {key nonce b : Bytes}

theorem linkKx_of_other (h : s.portState port ≠ 3 ∨ (s.port port).setup.stage ≠ 2) : exec (.linkKx port) s = .next s := by
  show execLinkKx port s = _
  simp only [execLinkKx, Bool.or_eq_true, decide_eq_true_eq, if_pos h]

section
variable (hst : s.portState port = 3) (hstage : (s.port port).setup.stage = 2)
  (htake : s.takeSetup port 0x03 = some (b, v)) (hhello : (s.port port).setup.hello = some (key, nonce))
include hst hstage htake hhello

/-- A KX that is too short or not signed by the identity that was heard is refused. -/
theorem linkKx_of_bad
    (h : (b.length = 96 && Config.ed25519Verify key (Config.sha512 (s.port port).setup.transcript) (b.drop 32)) = false) :
    exec (.linkKx port) s = .next (v.refusePort port 0x0409 false) := by
  have bad : (decide (b.length ≠ 96) ||
      !Config.ed25519Verify key (Config.sha512 (s.port port).setup.transcript) (b.drop 32)) = true := by
    rw [← Bool.not_eq_true', Bool.not_and] at h
    simpa using h
  show execLinkKx port s = _
  simp only [execLinkKx, hst, hstage, htake, hhello, bad, ne_eq, not_true_eq_false, decide_false, Bool.or_self,
    Bool.false_eq_true, if_false, if_true]

/-- A signed KX gives the keys, and the first NOP under them is queued. -/
theorem linkKx_of_good
    (h : (b.length = 96 && Config.ed25519Verify key (Config.sha512 (s.port port).setup.transcript) (b.drop 32)) = true) :
    ∃ ks, exec (.linkKx port) s = .next ((v.updPort port fun x => { x with setup := { x.setup with
      stage := 3, keys := some ks } }).queueCtl port 0x00 []) := by
  simp only [Bool.and_eq_true, decide_eq_true_eq] at h
  obtain ⟨hlen, hsigned⟩ := h
  refine ⟨?keys, ?_⟩
  rotate_left
  · show execLinkKx port s = _
    simp only [execLinkKx, hst, hstage, htake, hhello, hlen, hsigned, ne_eq, not_true_eq_false, decide_false, Bool.not_true,
      Bool.or_self, Bool.false_eq_true, if_false]
    rfl

end

theorem keyed_effect (htake : s.takeSetup port 0x03 = some (b, v)) (hst : s.portState port = 3) (ks : Bytes × Bytes × Bytes) :
    let u := (v.updPort port fun x => { x with setup := { x.setup with stage := 3, keys := some ks } }).queueCtl port 0x00 []
    (u.port port).setup.stage = 3 ∧ (u.port port).setup.keys.isSome = true ∧
      (u.port port).ctlTx = (v.port port).ctlTx ++ [ctlMsg 0x00 []] ∧ u.portState port = 3 := by
  obtain ⟨hstate, -⟩ := takeSetup_keeps htake
  simp [State.queueCtl, hstate, hst]

theorem linkRefuse_of_taken (htake : s.takeSetup port 0x04 = some (b, v)) :
    exec (.linkRefuse port) s = .next (if s.portState port = 3 then
      ((v.endSetup port).portErr port (rd b 0 2)).setPortState port 5 else v) := by
  obtain ⟨hstate, -⟩ := takeSetup_keeps htake
  show execLinkRefuse port s = _
  simp only [execLinkRefuse, htake, hstate]

/-- A REFUSE that is heard ends set-up with its code. -/
theorem refuse_effect (s : State) (p : Nat) (b : Bytes) :
    let u := ((s.endSetup p).portErr p (rd b 0 2)).setPortState p 5
    u.portState p = 5 ∧ u.getF Reg.PORT_STAT_LAST_ERR p 0 = rd b 0 2 ∧ (u.port p).setup.entry = none := by
  refine ⟨portState_setPortState_same .., ?_, (port_endSetup s p).1⟩
  rw [getF_setPortState _ (by decide)]
  exact (getF_setF_same ..).trans (Nat.mod_eq_of_lt (rd_lt b 0 2))

end

/-! ## Timeouts of set-up (R247, R248, R250) -/

section
variable {s : State} {port : PortIx}

theorem setupTimeout_of_running (hst : s.portState port = 3) (hjoins : s.joins port = false) :
    exec (.setupTimeout port) s = .next (if (s.port port).setup.restarts < 3 then
      s.startSetup port ((s.port port).setup.restarts + 1) else s.refusePort port 0x0409 false) := by
  show execSetupTimeout port s = _
  simp only [execSetupTimeout, hst, hjoins, ne_eq, not_true_eq_false, decide_false, Bool.or_self, Bool.false_eq_true, if_false]

theorem setupTimeout_of_other (h : s.portState port ≠ 3 ∨ s.joins port = true) : exec (.setupTimeout port) s = .next s := by
  show execSetupTimeout port s = _
  simp only [execSetupTimeout, Bool.or_eq_true, decide_eq_true_eq, if_pos h]

theorem joinTimeout_eq : exec (.joinTimeout port) s =
    .next (if s.portState port = 3 ∧ s.joins port = true then s.refusePort port 0x0409 false else s) := by
  show execJoinTimeout port s = _
  simp only [execJoinTimeout, Bool.and_eq_true, decide_eq_true_eq]

end

/-! ## The obligation -/

/-- Settles O51: each event of set-up by the lemma on its case; a refusal is `setupRefused_refusePort`, a fresh HELLO
`helloSent_startSetup`. -/
theorem setupOfALink : Obligations.SetupOfALink := by
  intro s port p st _ refused hello
  refine ⟨fun b v htake hst hhello => ⟨linkHello_of_bad_form htake hst hhello, linkHello_of_draining htake hst hhello,
      linkHello_of_new htake hst hhello⟩, linkHello_of_none,
    fun b v key nonce htake hhello => ⟨linkSpdm_of_other htake hhello, linkSpdm_outcomes htake hhello⟩,
    ⟨linkKx_of_other, ?kx⟩, fun b v htake => ?refuse, setupTimeout_of_other, fun hst hjoins => ?timeout, fun hst hjoins => ?join,
    fun h => ?still, fun hst => ⟨_, congrArg Host.Outcome.next (if_pos hst), helloSent_startSetup s p 0⟩,
    fun hst => congrArg Host.Outcome.next (if_neg hst)⟩
  case kx =>
    intro b v key nonce hst hstage htake hhello good
    cases hgood : good with
    | false =>
      exact ⟨_, linkKx_of_bad hst hstage htake hhello hgood, fun _ => setupRefused_refusePort v p (by decide) false, nofun⟩
    | true =>
      obtain ⟨ks, hks⟩ := linkKx_of_good hst hstage htake hhello hgood
      exact ⟨_, hks, nofun, fun _ => keyed_effect htake hst ks⟩
  case refuse =>
    rw [linkRefuse_of_taken htake]
    exact ⟨fun hst => congrArg _ (if_neg hst), fun hst => ⟨_, congrArg _ (if_pos hst), refuse_effect v p b⟩⟩
  case timeout =>
    rw [setupTimeout_of_running hst hjoins]
    exact ⟨_, rfl, fun hfew => by rw [if_pos hfew]; exact helloSent_startSetup .., fun hmany => by
      rw [if_neg (Nat.not_lt.2 hmany)]; exact setupRefused_refusePort s p (by decide) false⟩
  case join =>
    rw [joinTimeout_eq, if_pos ⟨hst, hjoins⟩]
    exact ⟨_, rfl, setupRefused_refusePort s p (by decide) false⟩
  case still =>
    rw [joinTimeout_eq, if_neg fun ⟨hst, hjoins⟩ => h.elim (· hst) fun hj => Bool.false_ne_true (hj.symm.trans hjoins)]

end Sys2Proof.Machine
end

section
/-!
PROOFS. Sessions with peers: how they open, rekey, take ports in and end (10_links_and_collectives.md R240 to R252).
-/

namespace Sys2Proof.Machine

/-! ## Control messages (R245) -/

section
variable {s v : State} {p n k : Nat} {b : Bytes}

/-- A control message that is taken leaves its port's list, and nothing else changes. -/
theorem takeCtl_eq (h : s.takeCtl p k = some (b, v)) : ∃ r, v = s.updPort p fun x => { x with ctlRx := r } := by
  unfold State.takeCtl at h
  split at h
  · cases h
  · split at h
    · cases h
      exact ⟨_, rfl⟩
    · cases h

/-- What a control message that has been taken leaves as it was. -/
theorem takeCtl_keeps (h : s.takeCtl p k = some (b, v)) :
    v.regs = s.regs ∧ (∀ m, v.session m = s.session m) ∧
      ∀ q, v.port q = { s.port q with ctlRx := (v.port q).ctlRx } := by
  obtain ⟨r, rfl⟩ := takeCtl_eq h
  refine ⟨rfl, fun _ => rfl, fun q => ?_⟩
  by_cases hq : q = p
  · rw [hq, port_updPort_same]
  · rw [port_updPort_other _ _ hq]

end

/-! ## Ports that join and leave a session (R246, R250, R252) -/

section
variable {s : State} {p q n m : Nat} {g : Fld}

/-- The epoch that is shown stands in fields of its own. -/
theorem getF_showEpoch (h : g.lo ≠ 32 ∧ g.lo < 64) (s : State) (n a c : Nat) : (s.showEpoch n).getF g a c = s.getF g a c := by
  obtain ⟨hlo, hlow⟩ := h
  have apart (t : State) {f : Fld} (hf : f.lo = 32) (i v : Nat) : (t.setF f i 0 v).getF g a c = t.getF g a c :=
    getF_setF_of_lo (by rw [hf]; exact Ne.symm hlo) (by rw [hf]; decide) hlow ..
  exact (foldl_keeps (fun t : State => t.getF g a c) (fun t _ _ => apart t rfl _ _) _).trans (apart s rfl _ _)

@[simp] theorem link_showEpoch (s : State) (n : Nat) : (s.showEpoch n).link = s.link :=
  foldl_keeps State.link (f := fun t p => t.setF Reg.PORT_STAT_EPOCH p 0 (topEpoch (s.session n).txKeys)) (fun _ _ _ => rfl) _

/-- A port that joins a session is OPEN and names its entry; its link and every entry's STATE stay. -/
theorem joinPort_effect (hn : n < 256) (s : State) (p : Nat) :
    (s.joinPort p n).portState p = 4 ∧ (s.joinPort p n).portPeer p = some n ∧ (s.joinPort p n).link = s.link ∧
      ∀ m, (s.joinPort p n).peerState m = s.peerState m := by
  have fits : n % 2 ^ Reg.PORT_STAT_PEER.width = n := Nat.mod_eq_of_lt hn
  refine ⟨?_, ?_, link_showEpoch .., fun m => ?_⟩
  · rw [State.portState, State.joinPort, getF_showEpoch (by decide), getF_setF_of_apart (by decide), getF_setF_of_apart (by decide),
      getF_setF_of_apart (by decide)]
    exact portState_setPortState_same ..
  · rw [State.portPeer, State.joinPort, getF_showEpoch (by decide), getF_showEpoch (by decide), getF_setF_of_apart (by decide),
      getF_setF_of_apart (by decide), getF_setF_same, getF_setF_of_apart (by decide), getF_setF_same, fits]
    rfl
  · rw [State.peerState, State.joinPort, getF_showEpoch (by decide), getF_setF_of_apart (by decide), getF_setF_of_apart (by decide),
      getF_setF_of_apart (by decide), getF_setPortState _ (by decide), State.peerState]

/-- A port that leaves its session names no peer and carries nothing; its STATE, the entries' and the sessions stay. -/
theorem dropPort_effect (s : State) (p : Nat) :
    (s.dropPort p).portPeer p = none ∧ (s.dropPort p).port p = { PortSt.empty with setup := (s.port p).setup } ∧
      (∀ q, (s.dropPort p).portState q = s.portState q) ∧ (∀ n, (s.dropPort p).peerState n = s.peerState n) ∧
      ∀ n, (s.dropPort p).session n = s.session n := by
  unfold State.dropPort
  extract_lets t
  have t_state (q : Nat) : t.portState q = s.portState q := by
    unfold t
    split
    · exact getF_setF_of_apart (by decide) ..
    · rfl
  have t_peer (n : Nat) : t.peerState n = s.peerState n := by
    unfold t
    split
    · exact getF_setF_of_apart (by decide) ..
    · rfl
  have t_link : t.link = s.link := by
    unfold t
    split <;> rfl
  refine ⟨?_, ?_, fun q => ?_, fun n => ?_, fun n => session_of_link t_link n⟩
  · rw [State.portPeer, getF_updPort, getF_setF_of_apart (by decide), getF_setF_of_apart (by decide), getF_setF_same]
    rfl
  · rw [port_updPort_same]
    exact congrArg (fun x : PortSt => { PortSt.empty with setup := x.setup }) (port_of_link t_link p)
  · rw [← t_state, State.portState, getF_updPort, getF_setF_of_apart (by decide), getF_setF_of_apart (by decide),
      getF_setF_of_apart (by decide), State.portState]
  · rw [← t_peer, State.peerState, getF_updPort, getF_setF_of_apart (by decide), getF_setF_of_apart (by decide),
      getF_setF_of_apart (by decide), State.peerState]

/-- Another port's set-up that starts touches neither a port's state and peer nor an entry that is in no set-up. -/
theorem startSetup_keeps (hq : p ≠ q) (hn : s.peerState n ≠ 1) (r : Nat) :
    (s.startSetup q r).portState p = s.portState p ∧ (s.startSetup q r).portPeer p = s.portPeer p ∧
      (s.startSetup q r).peerState n = s.peerState n ∧ (s.startSetup q r).session n = s.session n := by
  obtain ⟨hpeer, hsession⟩ := freeSetup_keeps_peer (p := q) hn
  refine ⟨?_, ?_, ?_, hsession⟩
  · exact (portState_setPortState_other 3 hq).trans (getF_endSetup (by decide) ..)
  · rw [State.portPeer, getF_startSetup (by decide) (by decide), getF_startSetup (by decide) (by decide), State.portPeer]
  · exact (getF_setPortState 3 (by decide) ..).trans hpeer

end

/-! ## The first NOP (R245, R247, R249) -/

/-- The session that opens under the keys of a set-up. -/
def openedSession (key : Bytes) (ks : Bytes × Bytes × Bytes) : Session :=
  { ident := key, sid := ks.2.2, initiator := isInitiator key, txKeys := [(0, if isInitiator key then ks.1 else ks.2.1)],
    rxKeys := [(0, if isInitiator key then ks.2.1 else ks.1)], rekey := false, rekeyNext := none, tagFails := 0 }

/-- Entry and port are OPEN, the port names the entry, and the session is the one given. -/
def SessionOn (u : State) (p n : Nat) (x : Session) : Prop :=
  u.portState p = 4 ∧ u.portPeer p = some n ∧ u.peerState n = 2 ∧ u.session n = x

section
variable {s v : State} {p n : Nat} {port : PortIx} {b key nonce : Bytes} {ks : Bytes × Bytes × Bytes}

/-- What another port's set-up leaves of an open session. -/
theorem SessionOn.startSetup {x : Session} (h : SessionOn s p n x) {q : Nat} (hq : q ≠ p) (r : Nat) :
    SessionOn (s.startSetup q r) p n x := by
  obtain ⟨hstate, hport, hpeer, hsession⟩ := h
  obtain ⟨kstate, kport, kpeer, ksession⟩ := startSetup_keeps (r := r) (Ne.symm hq) (by rw [hpeer]; decide : s.peerState n ≠ 1)
  exact ⟨kstate.trans hstate, kport.trans hport, kpeer.trans hpeer, ksession.trans hsession⟩

theorem sessionOn_openSession (hn : n < 256) (s : State) (p : Nat) (key : Bytes) (ks : Bytes × Bytes × Bytes) :
    SessionOn (s.openSession p n key ks) p n (openedSession key ks) := by
  unfold State.openSession
  extract_lets ini own their opened set joined link t
  obtain ⟨hstate, hport, hlink, hpeer⟩ := joinPort_effect hn set p
  have before : SessionOn t p n (openedSession key ks) := by
    refine ⟨hstate, hport, (hpeer n).trans ?_, (session_of_link hlink n).trans ?_⟩
    · exact (peerState_updPort ..).trans (peerState_setPeerState_same 2 opened n)
    · exact ((session_updPort ..).trans (session_setPeerState ..)).trans (session_updSession_same ..)
  refine List.foldlRecOn (motive := fun u => SessionOn u p n (openedSession key ks)) _ _ before fun u hu q hq => ?_
  have other : q ≠ p := by
    have := (List.mem_filter.1 hq).2
    simp only [Bool.and_eq_true, decide_eq_true_eq] at this
    exact this.1.1
  exact hu.startSetup other 0

/-- The first NOP under the keys of a set-up opens its session. -/
theorem controlNop_of_first (htake : s.takeCtl port 0x00 = some (b, v)) (hhello : (s.port port).setup.hello = some (key, nonce))
    (hentry : (s.port port).setup.entry = some n) (hkeys : (s.port port).setup.keys = some ks) (hst : s.portState port = 3)
    (hstage : (s.port port).setup.stage = 3) (hopen : s.entryOf key 2 = none) :
    exec (.controlNop port) s = .next (v.openSession port n key ks) := by
  obtain ⟨hregs, hsession, hports⟩ := takeCtl_keeps htake
  have hsetup : (v.port port).setup = (s.port port).setup := by rw [hports]
  have hstate : v.portState port = 3 := (getF_of_regs hregs ..).trans hst
  have hnone : v.entryOf key 2 = none := by
    obtain ⟨r, rfl⟩ := takeCtl_eq htake
    exact hopen
  show execControlNop port s = _
  simp only [execControlNop, htake, hsetup, hhello, hentry, hkeys, hstate, hstage, hnone, ne_eq, not_true_eq_false, decide_false,
    Bool.or_self, Bool.false_eq_true, if_false, Option.isSome_none]

theorem controlNop_of_none (htake : s.takeCtl port 0x00 = none) : exec (.controlNop port) s = .next s := by
  show execControlNop port s = _
  rw [execControlNop, htake]

end

/-! ## The end of a drain (R251) -/

section
variable {s : State} {n : Fin 256}

theorem mem_updSession (s : State) (n : Nat) (f : Session → Session) : (s.updSession n f).mem = s.mem := rfl

theorem mem_setPeerState (s : State) (n v : Nat) : (s.setPeerState n v).mem = s.mem := rfl

/-- Ports that keep nothing but their set-up change no memory. -/
theorem mem_foldl_clearPort (s : State) (l : List Nat) : (l.foldl State.clearPort s).mem = s.mem :=
  foldl_keeps State.mem (f := State.clearPort) (fun _ _ _ => rfl) s

/-- After the drain the entry is FREE, and no session is left of it. -/
theorem drainEnd_of_draining (h : s.peerState n = 3) :
    ∃ u, exec (.drainEnd n) s = .next u ∧ u.peerState n = 0 ∧ u.session n = Session.empty ∧ u.mem = s.mem := by
  refine ⟨_, congrArg Host.Outcome.next (if_neg (not_not_intro h)), ?_, ?_, ?_⟩
  · rw [State.peerState, getF_setF_of_apart (by decide), getF_updSession]
    exact peerState_setPeerState_same ..
  · rw [session_setF, session_updSession_same]
  · rw [setF_mem, mem_updSession, mem_setPeerState, mem_foldl_clearPort]

end

/-! ## The loss of a retraining port (R246) -/

section
variable {s : State} {p n : Nat}

/-- What goes to another port of the session changes neither registers nor sessions, nor any other port. -/
theorem moveTraffic_effect (s : State) (old : PortSt) (q : Nat) :
    (s.moveTraffic old q).regs = s.regs ∧ (∀ m, (s.moveTraffic old q).session m = s.session m) ∧
      ∀ r, r ≠ q → (s.moveTraffic old q).port r = s.port r :=
  ⟨rfl, fun _ => rfl, fun _ hr => port_updPort_other _ _ hr⟩

/-- The messages that a port has begun to send, by TYPE, TAG and ARG0. -/
def PortSt.begun (x : PortSt) : List (Nat × Nat × Nat) :=
  (List.range 4).filterMap fun vc => match x.tx.getD vc [] with
    | f :: _ => if f.first then none else some (f.ty, f.tag, f.arg)
    | [] => none

/-- A port whose every queue begins with the start of a message has begun none. -/
theorem begun_of_starts {x : PortSt} (h : ∀ l ∈ x.tx, ∀ f ∈ l.head?, f.first = true) : x.begun = [] := by
  refine List.filterMap_eq_nil_iff.2 fun vc _ => ?_
  rw [List.getD_eq_getElem?_getD]
  cases hl : x.tx[vc]? with
  | none => rfl
  | some l =>
    cases l with
    | nil => rfl
    | cons f rest => simp [h _ (List.mem_of_getElem? hl) f rfl]

/-- A port with nothing in transit leaves its session to another OPEN port of it. -/
theorem losePort_of_idle (hpeer : s.portPeer p = some n) (hretry : (s.port p).retry = [])
    (hstarts : ∀ l ∈ (s.port p).tx, ∀ f ∈ l.head?, f.first = true) (hlive : ∃ q ∈ s.peerPorts n, q ≠ p ∧ s.portState q = 4) :
    ∃ q, q ≠ p ∧ s.losePort p = ((s.dropPort p).setPortState p 1).tick.moveTraffic (s.port p) q := by
  unfold State.losePort
  split
  · next h =>
    rw [hpeer] at h
    cases h
  next m hm =>
  obtain rfl : n = m := Option.some.inj (hpeer.symm.trans hm)
  extract_lets old live begun t lost u w
  have nothing_lost : lost = [] := by
    have none_begun : begun = [] := begun_of_starts hstarts
    unfold lost old
    rw [hretry, none_begun]
    rfl
  have hw : w = t := by
    unfold w u
    rw [nothing_lost]
    rfl
  have chosen : w.free live.length < live.length := by
    obtain ⟨q, hq, hqp, hopen⟩ := hlive
    exact Nat.mod_lt _ (List.length_pos_of_mem (List.mem_filter.2 ⟨hq, by simp [hqp, hopen]⟩))
  have other : live[w.free live.length] ≠ p := by
    have live_there := (List.mem_filter.1 (List.getElem_mem chosen)).2
    simp only [Bool.and_eq_true, decide_eq_true_eq] at live_there
    exact live_there.1
  rw [List.getElem?_eq_getElem chosen]
  exact ⟨_, other, congrArg (fun a : State => a.tick.moveTraffic old _) hw⟩

/-- A lost port with nothing in transit is in training again with no peer, and its session stays as it is. -/
theorem linkLoss_of_idle {port : PortIx} (hst : s.portState port = 7) (hpeer : s.portPeer port = some n)
    (hretry : (s.port port).retry = []) (hstarts : ∀ l ∈ (s.port port).tx, ∀ f ∈ l.head?, f.first = true)
    (hlive : ∃ q ∈ s.peerPorts n, q ≠ port.val ∧ s.portState q = 4) :
    ∃ u, exec (.linkLoss port) s = .next u ∧ u.portState port = 1 ∧ u.portPeer port = none ∧
      (u.port port).tx = [[], [], [], []] ∧ u.peerState n = s.peerState n ∧ u.session n = s.session n := by
  obtain ⟨q, hq, hlost⟩ := losePort_of_idle hpeer hretry hstarts hlive
  obtain ⟨hnone, hport, -, hentries, hsessions⟩ := dropPort_effect s port.val
  obtain ⟨hregs, hmoved, hothers⟩ := moveTraffic_effect ((s.dropPort port).setPortState port 1).tick (s.port port) q
  have same_regs : (((s.dropPort port).setPortState port 1).tick.moveTraffic (s.port port) q).regs =
      ((s.dropPort port).setPortState port 1).regs := hregs
  refine ⟨_, (congrArg Host.Outcome.next (if_pos hst)).trans (congrArg _ hlost), ?_, ?_, ?_, ?_, ?_⟩
  · exact (portState_of_regs same_regs _).trans (portState_setPortState_same ..)
  · exact ((portPeer_of_regs same_regs _).trans (portPeer_setPortState ..)).trans hnone
  · rw [hothers _ (Ne.symm hq)]
    exact congrArg PortSt.tx hport
  · exact ((peerState_of_regs same_regs _).trans (peerState_setPortState ..)).trans (hentries n)
  · exact (hmoved n).trans (hsessions n)

end

/-! ## Rekeys (R240, R250) -/

section
variable {s v : State} {p q n e : Nat} {port : PortIx} {b k : Bytes} {old : List (Nat × Bytes)}

/-- A rekey that starts is the session's, and REKEY of the next epoch is queued; of the ports only that queue changes. -/
theorem startRekey_effect (h : (s.session n).rekey = false) (p : Nat) :
    let u := s.startRekey n p
    u.session n = { s.session n with rekey := true } ∧ u.regs = s.regs ∧
      (u.port p).ctlTx = (s.port p).ctlTx ++ [ctlMsg 0x01 (leBytes 4 (topEpoch (s.session n).txKeys + 1))] ∧
      ∀ q, u.port q = { s.port q with ctlTx := (u.port q).ctlTx } := by
  intro u
  have hu : u = (s.updSession n fun x => { x with rekey := true }).queueCtl p 0x01
      (leBytes 4 (topEpoch (s.session n).txKeys + 1)) := if_neg (by rw [h]; exact Bool.false_ne_true)
  rw [hu, State.queueCtl]
  refine ⟨(session_updPort ..).trans (session_updSession_same ..), rfl, ?_, fun q => ?_⟩
  · rw [port_updPort_same, port_updSession]
  · by_cases hq : q = p
    · rw [hq, port_updPort_same, port_updSession]
    · rw [port_updPort_other _ _ hq, port_updSession]

section
variable (hpeer : s.portPeer port = some n)
include hpeer

theorem rekeyStart_of_late (hseq : 2 ^ 31 ≤ (s.port port).seq) : exec (.rekeyStart port) s = .next (s.startRekey n port) := by
  show execRekeyStart port s = _
  rw [execRekeyStart, hpeer]
  exact congrArg _ (if_pos hseq)

theorem rekeyStart_of_other (h : (s.port port).seq < 2 ^ 31 ∨ (s.session n).rekey = true) : exec (.rekeyStart port) s = .next s := by
  by_cases hseq : 2 ^ 31 ≤ (s.port port).seq
  · rw [rekeyStart_of_late hpeer hseq]
    exact congrArg _ (if_pos (h.resolve_left (Nat.not_lt.2 hseq)))
  · show execRekeyStart port s = _
    rw [execRekeyStart, hpeer]
    exact congrArg _ (if_neg hseq)

section
variable (htake : s.takeCtl port 0x01 = some (b, v)) (hkeys : (s.session n).rxKeys = (e, k) :: old)
include htake hkeys

theorem linkRekey_eq : exec (.linkRekey port) s = .next (if rd b 8 4 ≠ e + 1 then v
    else (v.updSession n fun x => { x with rxKeys := (e + 1, nextKey k (e + 1)) :: (e, k) :: old.take 1, tagFails := 0 }).queueCtl
      port 0x02 (leBytes 4 (e + 1))) := by
  obtain ⟨-, hsessions, -⟩ := takeCtl_keeps htake
  show execLinkRekey port s = _
  simp only [execLinkRekey, hpeer, htake, hsessions, hkeys]

theorem linkRekey_of_next (hnext : rd b 8 4 = e + 1) : ∃ u, exec (.linkRekey port) s = .next u ∧
    u.session n = { s.session n with rxKeys := (e + 1, nextKey k (e + 1)) :: (e, k) :: old.take 1, tagFails := 0 } ∧
    (u.port port).ctlTx = (v.port port).ctlTx ++ [ctlMsg 0x02 (leBytes 4 (e + 1))] := by
  obtain ⟨-, hsessions, -⟩ := takeCtl_keeps htake
  refine ⟨_, (linkRekey_eq hpeer htake hkeys).trans (congrArg _ (if_neg (not_not_intro hnext))), ?_, ?_⟩
  · rw [State.queueCtl, session_updPort, session_updSession_same, hsessions]
  · rw [State.queueCtl, port_updPort_same, port_updSession]

end

end

/-- A port that sends from SEQ 0 under a new epoch; one that has joined carries groups once its own epoch has begun. -/
def PortSt.rekeyed (e : Nat) (x : PortSt) : PortSt :=
  { x with txEpoch := e, seq := 0, joining := x.joining && decide (e < x.joinEpoch) }

/-- A change of every port of a list without repetitions. -/
theorem port_foldl_updPort {f : PortSt → PortSt} {l : List Nat} (hl : l.Nodup) (hq : q ∈ l) (s : State) :
    (l.foldl (fun s q => s.updPort q f) s).port q = f (s.port q) := by
  induction l generalizing s with
  | nil => cases hq
  | cons a l ih =>
    obtain ⟨hal, hl⟩ := List.nodup_cons.1 hl
    rw [List.foldl_cons]
    rcases List.mem_cons.1 hq with rfl | hq
    · rw [foldl_keeps (fun t : State => t.port q) (fun t c hc => port_updPort_other t f fun h => hal (by rwa [h])),
        port_updPort_same]
    · rw [ih hl hq, port_updPort_other _ _ fun h => hal (by rwa [← h])]

theorem nodup_peerPorts (s : State) (n : Nat) : (s.peerPorts n).Nodup := List.nodup_range.filter _

/-- The session's sending direction goes over to the next epoch, on each of its ports. -/
def State.rekeyed (s : State) (n e : Nat) (keys : List (Nat × Bytes)) : State :=
  let t := s.updSession n fun x => { x with txKeys := keys, rekey := false }
  ((t.peerPorts n).foldl (fun s q => s.updPort q (PortSt.rekeyed e)) t).showEpoch n

theorem rekeyed_effect (s : State) (n e : Nat) (keys : List (Nat × Bytes)) :
    (s.rekeyed n e keys).session n = { s.session n with txKeys := keys, rekey := false } ∧
      ∀ q ∈ s.peerPorts n, (s.rekeyed n e keys).port q = (s.port q).rekeyed e := by
  unfold State.rekeyed
  extract_lets t
  refine ⟨?_, fun q hq => ?_⟩
  · rw [session_of_link (link_showEpoch ..), foldl_keeps (fun t : State => t.session n) (fun _ _ _ => session_updPort ..),
      session_updSession_same]
  · rw [port_of_link (link_showEpoch ..), port_foldl_updPort (nodup_peerPorts t n) hq, port_updSession]

section
variable (hpeer : s.portPeer port = some n) (htake : s.takeCtl port 0x02 = some (b, v)) (hkeys : (s.session n).txKeys = (e, k) :: old)
include hpeer htake hkeys

theorem linkRekeyAck_of_other (h : (s.session n).rekey = false ∨ rd b 8 4 ≠ e + 1) : exec (.linkRekeyAck port) s = .next v := by
  obtain ⟨-, hsessions, -⟩ := takeCtl_keeps htake
  have discarded : (!(s.session n).rekey || decide (rd b 8 4 ≠ e + 1)) = true := by simpa using h
  show execLinkRekeyAck port s = _
  simp only [execLinkRekeyAck, hpeer, htake, hsessions, hkeys, discarded, if_true]

/-- The state in which the acknowledged epoch has begun, and the rekey that a join waits for, if one does. -/
theorem linkRekeyAck_of_next (hrekey : (s.session n).rekey = true) (hnext : rd b 8 4 = e + 1) :
    let w := v.rekeyed n (e + 1) ((e + 1, nextKey k (e + 1)) :: (e, k) :: old.take 1)
    exec (.linkRekeyAck port) s = .next (match (w.session n).rekeyNext with
      | some c => (w.updSession n fun x => { x with rekeyNext := none }).startRekey n
          (if (w.peerPorts n).contains c then c else port.val)
      | none => w) := by
  intro w
  obtain ⟨-, hsessions, -⟩ := takeCtl_keeps htake
  show execLinkRekeyAck port s = _
  simp only [execLinkRekeyAck, hpeer, htake, hsessions, hkeys, hrekey, hnext, Bool.not_true, ne_eq, not_true_eq_false, decide_false,
    Bool.or_self, Bool.false_eq_true, if_false]
  rfl

/-- REKEY_ACK of the epoch that was asked for: the session sends under its next key, from SEQ 0 on each of its ports. -/
theorem linkRekeyAck_effect (hrekey : (s.session n).rekey = true) (hnext : rd b 8 4 = e + 1) :
    ∃ u, exec (.linkRekeyAck port) s = .next u ∧
      u.session n = { s.session n with txKeys := (e + 1, nextKey k (e + 1)) :: (e, k) :: old.take 1,
                                       rekey := (s.session n).rekeyNext.isSome, rekeyNext := none } ∧
      ∀ q ∈ s.peerPorts n, (u.port q).txEpoch = e + 1 ∧ (u.port q).seq = 0 ∧
        (u.port q).joining = ((s.port q).joining && decide (e + 1 < (s.port q).joinEpoch)) := by
  obtain ⟨hregs, hsessions, hports⟩ := takeCtl_keeps htake
  let w := v.rekeyed n (e + 1) ((e + 1, nextKey k (e + 1)) :: (e, k) :: old.take 1)
  obtain ⟨hsession, hport⟩ := rekeyed_effect v n (e + 1) ((e + 1, nextKey k (e + 1)) :: (e, k) :: old.take 1)
  have same_ports : v.peerPorts n = s.peerPorts n := congrArg (bitList 16) (getF_of_regs hregs ..)
  rw [hsessions] at hsession
  rw [same_ports] at hport
  have begun (q : Nat) (hq : q ∈ s.peerPorts n) : (w.port q).txEpoch = e + 1 ∧ (w.port q).seq = 0 ∧
      (w.port q).joining = ((s.port q).joining && decide (e + 1 < (s.port q).joinEpoch)) := by
    rw [hport q hq, hports q]
    exact ⟨rfl, rfl, rfl⟩
  refine ⟨_, linkRekeyAck_of_next hpeer htake hkeys hrekey hnext, ?_⟩
  cases hjoin : (s.session n).rekeyNext with
  | none =>
    have no_join : (w.session n).rekeyNext = none := by rw [hsession, hjoin]
    dsimp only
    rw [no_join]
    refine ⟨hsession.trans ?_, begun⟩
    rw [← hjoin]
    simp [hjoin]
  | some c =>
    have joins : (w.session n).rekeyNext = some c := by rw [hsession, hjoin]
    have idle : ((w.updSession n fun x => { x with rekeyNext := none }).session n).rekey = false := by
      rw [session_updSession_same, hsession]
    obtain ⟨hstarted, -, -, hkept⟩ := startRekey_effect idle (if (w.peerPorts n).contains c then c else port.val)
    dsimp only
    rw [joins]
    refine ⟨?_, fun q hq => ?_⟩
    · rw [hstarted, session_updSession_same, hsession]
      rfl
    · rw [hkept q, port_updSession]
      exact begun q hq

end

end

/-! ## Joins (R245, R250) -/

section
variable {s v : State} {n q c : Nat} {port : PortIx} {b : Bytes}

/-- A port that joins is OPEN in the session and carries nothing; a rekey starts, or waits for the one under way. -/
theorem join_effect (hn : n < 256) (s : State) (c q : Nat) :
    let u := s.join c n q
    u.portState q = 4 ∧ u.portPeer q = some n ∧ (u.port q).joining = true ∧ (u.session n).rekey = true ∧
      ((s.session n).rekey = true → (u.session n).rekeyNext = some c) := by
  intro u
  unfold u State.join
  extract_lets x none_yet t w
  obtain ⟨hstate, hport, hlink, -⟩ := joinPort_effect hn t q
  have joined : (w.port q).joining = true := by
    rw [port_of_link hlink]
    exact congrArg PortSt.joining (port_updPort_same ..)
  have same_session : w.session n = x := session_of_link hlink n
  cases hrekey : x.rekey with
  | true =>
    rw [if_pos rfl, session_updSession_same, same_session]
    exact ⟨hstate, hport, joined, hrekey, fun _ => rfl⟩
  | false =>
    rw [← same_session] at hrekey
    obtain ⟨hsession, hregs, -, hkept⟩ := startRekey_effect hrekey c
    rw [if_neg Bool.false_ne_true, portState_of_regs hregs, portPeer_of_regs hregs, hkept q, hsession]
    refine ⟨hstate, hport, joined, rfl, fun h => absurd h Bool.false_ne_true⟩

section
variable (hpeer : s.portPeer port = some n) (hheard : v.heard (s.session n).ident (slice b 48 16) = some q)
include hpeer hheard

theorem linkJoin_eq (htake : s.takeCtl port 0x03 = some (b, v)) :
    exec (.linkJoin port) s = .next (if slice b 8 32 = fit 32 (s.session n).sid then
      (v.queueCtl port 0x04 (v.joinBody n q)).join port n q else v) := by
  obtain ⟨-, hsessions, -⟩ := takeCtl_keeps htake
  show execLinkJoin port s = _
  simp only [execLinkJoin, hpeer, htake, hsessions, hheard]

theorem linkJoinAck_eq (htake : s.takeCtl port 0x04 = some (b, v)) :
    exec (.linkJoinAck port) s = .next (if slice b 8 32 = fit 32 (s.session n).sid then v.join port n q else v) := by
  obtain ⟨-, hsessions, -⟩ := takeCtl_keeps htake
  show execLinkJoinAck port s = _
  simp only [execLinkJoinAck, hpeer, htake, hsessions, hheard]

end

end

/-! ## Ends of a session (R240, R242, R251) -/

section
variable {s v : State} {n : Nat} {port : PortIx} {b : Bytes} (hpeer : s.portPeer port = some n)
include hpeer

theorem seqExhausted_eq : exec (.seqExhausted port) s = .next (if 2 ^ 32 - 1 ≤ (s.port port).seq then
    (s.setF Reg.PORT_STAT_LAST_ERR port 0 0x040B).depart n else s) := by
  show execSeqExhausted port s = _
  rw [execSeqExhausted, hpeer]
  rfl

theorem tagFailLimit_eq : exec (.tagFailLimit port) s = .next (if 16 ≤ (s.session n).tagFails then
    (s.setF Reg.PORT_STAT_LAST_ERR port 0 0x0404).depart n else s) := by
  show execTagFailLimit port s = _
  rw [execTagFailLimit, hpeer]
  rfl

theorem linkLeave_of_taken (htake : s.takeCtl port 0x05 = some (b, v)) : exec (.linkLeave port) s = .next (v.depart n) := by
  show execLinkLeave port s = _
  rw [execLinkLeave, hpeer, htake]

end

/-! ## The obligation -/

/-- Settles O52: a session opens (`sessionOn_openSession`), rekeys (`startRekey_effect`, `linkRekeyAck_effect`), takes a port in
(`join_effect`), goes on without one (`linkLoss_of_idle`) and ends. -/
theorem sessionsOpenRekeyAndEnd : Obligations.SessionsOpenRekeyAndEnd := by
  intro s port p _
  refine ⟨fun b v key nonce ks n hn htake hhello hentry hkeys hst hstage hopen => ?nop, controlNop_of_none,
    fun n => ⟨drainEnd_of_draining, fun h => congrArg Host.Outcome.next (if_pos h)⟩,
    fun hst => congrArg Host.Outcome.next (if_neg hst), fun n hn hpeer => ⟨fun hst => linkLoss_of_idle hst hpeer,
      rekeyStart_of_other hpeer, fun hseq hrekey => ?start, fun b v e k old htake hkeys =>
        ⟨fun h => (linkRekey_eq hpeer htake hkeys).trans (congrArg _ (if_pos h)), linkRekey_of_next hpeer htake hkeys⟩,
      fun b v e k old htake hkeys => ⟨linkRekeyAck_of_other hpeer htake hkeys, linkRekeyAck_effect hpeer htake hkeys⟩,
      fun b v q htake hheard => ?join, fun hseq => (seqExhausted_eq hpeer).trans (congrArg _ (if_pos hseq)),
      fun hseq => (seqExhausted_eq hpeer).trans (congrArg _ (if_neg (Nat.not_le.2 hseq))),
      fun htags => (tagFailLimit_eq hpeer).trans (congrArg _ (if_pos htags)),
      fun htags => (tagFailLimit_eq hpeer).trans (congrArg _ (if_neg (Nat.not_le.2 htags))),
      fun b v => linkLeave_of_taken hpeer⟩⟩
  case nop =>
    obtain ⟨hstate, hport, hentries, hsession⟩ := sessionOn_openSession hn v p key ks
    refine ⟨_, controlNop_of_first htake hhello hentry hkeys hst hstage hopen, hentries, hstate, hport, ?_⟩
    rw [hsession]
    exact ⟨rfl, rfl, rfl, rfl, rfl⟩
  case start =>
    obtain ⟨hsession, hregs, hqueued, -⟩ := startRekey_effect hrekey p
    exact ⟨_, rekeyStart_of_late hpeer hseq, hsession, hregs, hqueued⟩
  case join =>
    intro c
    by_cases hjoin : s.takeCtl p 0x03 = some (b, v)
    · have hc : c = .linkJoin port := if_pos hjoin
      obtain ⟨-, hsessions, -⟩ := takeCtl_keeps hjoin
      rw [hc, linkJoin_eq hpeer hheard hjoin]
      refine ⟨fun h => congrArg _ (if_neg h), fun h => ⟨_, congrArg _ (if_pos h), ?_⟩⟩
      rw [← hsessions]
      exact join_effect hn (v.queueCtl p 0x04 (v.joinBody n q)) p q
    · have hc : c = .linkJoinAck port := if_neg hjoin
      have hack := htake.resolve_left hjoin
      obtain ⟨-, hsessions, -⟩ := takeCtl_keeps hack
      rw [hc, linkJoinAck_eq hpeer hheard hack]
      refine ⟨fun h => congrArg _ (if_neg h), fun h => ⟨_, congrArg _ (if_pos h), ?_⟩⟩
      rw [← hsessions]
      exact join_effect hn v p q

end Sys2Proof.Machine
end

section
/-!
PROOFS. The training of ports, the groups of a Ramom link and the Ethernet rings (10_links_and_collectives.md R231 to R247).
-/

namespace Sys2Proof.Machine

/-! ## Training (R232, R242, R246) -/

section
variable {s : State} {p : Nat} {port : PortIx} {rev : Bool}

/-- What the lanes of a port that has trained show. -/
def State.trained (s : State) (p : Nat) (rev : Bool) : State :=
  (s.setF Reg.PORT_STAT_LOS p 0 0).setF Reg.PORT_STAT_LANE_REV p 0 (if rev then 1 else 0)

theorem trained_effect (s : State) (p : Nat) (rev : Bool) :
    (s.trained p rev).getF Reg.PORT_STAT_LOS p 0 = 0 ∧
      (s.trained p rev).getF Reg.PORT_STAT_LANE_REV p 0 = if rev then 1 else 0 := by
  refine ⟨(getF_setF_of_apart (by decide) ..).trans (getF_setF_same ..), (getF_setF_same ..).trans ?_⟩
  cases rev <;> rfl

theorem linkUp_of_off (h : s.portMode port = 0 ∨ s.getF Reg.PORT_CTRL_LOOPBACK port 0 = 1) :
    exec (.linkUp port rev) s = .next s := by
  have off : (decide (s.portMode port = 0) || decide (s.getF Reg.PORT_CTRL_LOOPBACK port 0 = 1)) = true := by simpa using h
  exact congrArg Host.Outcome.next (if_pos off)

/-- A port that has trained goes on with its session, begins set-up, or is up, by its STATE and MODE. -/
theorem linkUp_of_on (hmode : s.portMode port ≠ 0) (hloop : s.getF Reg.PORT_CTRL_LOOPBACK port 0 ≠ 1) :
    exec (.linkUp port rev) s = .next (
      if s.portState port = 7 then
        ((s.trained port rev).setPortState port 4).updPort port fun x => { x with again := x.retry.length, resent := (0, 0) }
      else if s.portState port ≠ 1 then s
      else if s.portMode port = 1 then (s.trained port rev).startSetup port 0
      else (s.trained port rev).setPortState port 2) := by
  show execLinkUp port rev s = _
  simp only [execLinkUp, hmode, hloop, decide_false, Bool.or_self, Bool.false_eq_true, if_false, State.ramom, decide_eq_true_eq]
  rfl

/-- What a port that has trained comes to. -/
theorem linkUp_effect (hmode : s.portMode port ≠ 0) (hloop : s.getF Reg.PORT_CTRL_LOOPBACK port 0 ≠ 1) :
    ∃ u, exec (.linkUp port rev) s = .next u ∧
      (s.portState port = 7 →
        u.portState port = 4 ∧ (u.port port).again = (s.port port).retry.length ∧ (u.port port).retry = (s.port port).retry) ∧
      (s.portState port = 1 → s.portMode port = 1 → HelloSent u port 0) ∧
      (s.portState port = 1 → s.portMode port ≠ 1 → u.portState port = 2 ∧ u.link = s.link) ∧
      (s.portState port = 1 ∨ s.portState port = 7 → u.getF Reg.PORT_STAT_LOS port 0 = 0 ∧
        u.getF Reg.PORT_STAT_LANE_REV port 0 = if rev then 1 else 0) ∧
      (s.portState port ≠ 1 → s.portState port ≠ 7 → u = s) := by
  obtain ⟨hlos, hrev⟩ := trained_effect s port rev
  rw [linkUp_of_on hmode hloop]
  refine ⟨_, rfl, ?_⟩
  by_cases hretrained : s.portState port = 7
  · rw [if_pos hretrained, hretrained]
    refine ⟨fun _ => ⟨?_, ?_, ?_⟩, nofun, nofun, fun _ => ?_, fun _ h => absurd rfl h⟩
    · exact (portState_updPort ..).trans (portState_setPortState_same ..)
    · rw [port_updPort_same]
      rfl
    · rw [port_updPort_same]
      rfl
    · rw [getF_updPort, getF_updPort, getF_setPortState _ (by decide), getF_setPortState _ (by decide)]
      exact ⟨hlos, hrev⟩
  · rw [if_neg hretrained]
    refine ⟨fun h => absurd h hretrained, ?_⟩
    by_cases htraining : s.portState port = 1
    · rw [if_neg (not_not_intro htraining)]
      by_cases hramom : s.portMode port = 1
      · rw [if_pos hramom]
        refine ⟨fun _ _ => helloSent_startSetup .., fun _ h => absurd hramom h, fun _ => ?_, fun h => absurd htraining h⟩
        rw [getF_startSetup (by decide) (by decide), getF_startSetup (by decide) (by decide)]
        exact ⟨hlos, hrev⟩
      · rw [if_neg hramom]
        refine ⟨fun _ h => absurd h hramom, fun _ _ => ⟨portState_setPortState_same .., rfl⟩, fun _ => ?_,
          fun h => absurd htraining h⟩
        rw [getF_setPortState _ (by decide), getF_setPortState _ (by decide)]
        exact ⟨hlos, hrev⟩
    · rw [if_pos htraining]
      exact ⟨fun h => absurd h htraining, fun h => absurd h htraining,
        fun h => (h.elim htraining hretrained).elim, fun _ _ => rfl⟩

/-- A port whose link has gone down: its session waits for it, or its set-up has ended. -/
def WentDown (s u : State) (p : Nat) : Prop :=
  u.portState p = (if s.portState p = 4 ∨ s.portState p = 7 then 7 else 1) ∧
    (s.portState p ≠ 4 → s.portState p ≠ 7 → (u.port p).setup.entry = none ∧ (u.port p).setupTx = [])

theorem wentDown_linkDown (s : State) (p : Nat) : WentDown s (s.linkDown p) p := by
  unfold State.linkDown
  by_cases hopen : s.portState p = 4
  · rw [if_pos hopen]
    exact ⟨(portState_setPortState_same ..).trans (if_pos (.inl hopen)).symm, fun h => absurd hopen h⟩
  · rw [if_neg hopen]
    by_cases hretraining : s.portState p = 7
    · rw [if_pos hretraining]
      exact ⟨hretraining.trans (if_pos (.inr hretraining)).symm, fun _ h => absurd hretraining h⟩
    · rw [if_neg hretraining]
      obtain ⟨hentry, hsetupTx⟩ := port_endSetup s p
      refine ⟨(portState_setPortState_same ..).trans (if_neg (not_or.2 ⟨hopen, hretraining⟩)).symm, fun _ _ => ?_⟩
      rw [port_setPortState, State.clearPort, port_updPort_same]
      exact ⟨hentry, hsetupTx⟩

theorem portRetrain_of_used (hup : s.hubUp = true) (hmode : s.portMode port ≠ 0) :
    exec (.portRetrain port) s = .next (s.linkDown port) :=
  congrArg Host.Outcome.next ((cxlIo_of_hubUp hup _).trans (if_neg hmode))

theorem lossOfSignal_eq : exec (.lossOfSignal port) s = .next (
    if s.portMode port = 0 ∨ s.portState port = 0 ∨ s.portState port = 6 then s
    else (s.linkDown port).setF Reg.PORT_STAT_LOS port 0 1) := by
  show execLossOfSignal port s = _
  simp only [execLossOfSignal, Bool.or_eq_true, decide_eq_true_eq, or_assoc]

/-- A loss of signal takes the link down and is shown. -/
theorem lossOfSignal_of_used (hmode : s.portMode port ≠ 0) (hoff : s.portState port ≠ 0) (hfailed : s.portState port ≠ 6) :
    ∃ u, exec (.lossOfSignal port) s = .next u ∧ WentDown s u port ∧ u.getF Reg.PORT_STAT_LOS port 0 = 1 := by
  obtain ⟨hstate, hsetup⟩ := wentDown_linkDown s port
  refine ⟨_, lossOfSignal_eq.trans (congrArg _ (if_neg ?_)), ⟨?_, hsetup⟩, getF_setF_same ..⟩
  · simp [hmode, hoff, hfailed]
  · exact (getF_setF_of_apart (by decide) ..).trans hstate

theorem trainTimeout_eq : exec (.trainTimeout port) s = .next (if s.portMode port = 1 ∧ s.portState port = 1 then
    (((s.setPortState port 6).setF Reg.PORT_STAT_LOS port 0 0).portErr port 0x0402).noteError 0x0402 0 0x1FFF 0 0 else s) := by
  show execTrainTimeout port s = _
  simp only [execTrainTimeout, State.ramom, Bool.and_eq_true, decide_eq_true_eq]

/-- A training that times out has FAILED, with its code in LAST_ERR and a notice. -/
theorem trainTimeout_of_training (hmode : s.portMode port = 1) (hst : s.portState port = 1) :
    ∃ v : State, v = { s with regs := v.regs } ∧ v.portState port = 6 ∧ v.getF Reg.PORT_STAT_LAST_ERR port 0 = 0x0402 ∧
      exec (.trainTimeout port) s = .next (v.noteError 0x0402 0 0x1FFF 0 0) := by
  refine ⟨_, rfl, ?_, getF_setF_same .., trainTimeout_eq.trans (congrArg _ (if_pos ⟨hmode, hst⟩))⟩
  rw [State.portState, State.portErr, getF_setF_of_apart (by decide), getF_setF_of_apart (by decide)]
  exact portState_setPortState_same ..

theorem resendRetrain_eq : exec (.resendRetrain port) s =
    .next (if s.portState port = 4 ∧ 8 ≤ (s.port port).resent.2 then s.setPortState port 7 else s) := by
  show execResendRetrain port s = _
  simp only [execResendRetrain, Bool.and_eq_true, decide_eq_true_eq]
  split
  · next h => rw [State.linkDown, if_pos h.1]
  · rfl

end

/-! ## The bytes of a group (R237, R239) -/

theorem length_fit (n : Nat) (b : Bytes) : (fit n b).length = n := by
  simp only [fit, zeros, List.length_take, List.length_append, List.length_replicate]
  omega

theorem length_groupBytes (hdr map : Nat) (flits : Bytes) (sealed : Option (Bytes × Bytes)) :
    (groupBytes hdr map flits sealed).length = 1064 := by
  simp only [groupBytes, List.length_append, length_leBytes, length_fit, zeros, List.length_replicate]

/-- The flits of a group in the clear stand behind its header. -/
theorem slice_groupBytes (hdr map : Nat) (b : Bytes) : slice (groupBytes hdr map (fit 1024 b) none) 16 1024 = fit 1024 b := by
  have whole : fit 1040 (fit 1024 b ++ zeros 16) = fit 1024 b ++ zeros 16 := by
    have full : (fit 1024 b ++ zeros 16).length = 1040 := by
      simp only [List.length_append, length_fit, zeros, List.length_replicate]
    rw [fit, full, Nat.sub_self, zeros.eq_def 0, List.replicate_zero, List.append_nil, List.take_of_length_le full.le]
  have head : (leBytes 8 hdr ++ leBytes 8 map).length = 16 := by simp only [List.length_append, length_leBytes]
  simp only [slice, groupBytes, whole, List.append_assoc _ _ (zeros 4)]
  rw [List.append_assoc, List.drop_left' head, List.append_assoc, List.take_left' (length_fit ..)]

theorem leNat_append (a b : Bytes) : leNat (a ++ b) = leNat a + 256 ^ a.length * leNat b := by
  induction a with
  | nil => simp [leNat]
  | cons x a ih =>
    rw [List.cons_append, leNat, ih, leNat, List.length_cons, pow_succ]
    ring

/-- The low half of a number of 8 bytes. -/
theorem rd_mod (d : Bytes) (off : Nat) : rd d off 8 % 2 ^ 32 = rd d off 4 := by
  have low : rd d off 4 < 256 ^ 4 := rd_lt d off 4
  have halves : rd d off 8 = leNat ((d.drop off).take 4) + 256 ^ ((d.drop off).take 4).length * leNat (((d.drop off).drop 4).take 4) := by
    rw [← leNat_append, ← List.take_add]
    rfl
  have here : rd d off 4 = leNat ((d.drop off).take 4) := rfl
  rw [← here] at halves
  by_cases hlen : 4 ≤ (d.drop off).length
  · rw [List.length_take, Nat.min_eq_left hlen] at halves
    omega
  · rw [List.drop_eq_nil_of_le (Nat.le_of_not_le hlen)] at halves
    simp only [List.take_nil, leNat, Nat.mul_zero, Nat.add_zero] at halves
    omega

/-! ## Sending (R238, R241, R243) -/

section
variable {s : State} {p : Nat} {kind : Nat}

/-- A group that is sent carries the NAK that was due; queues and retry buffer stay. -/
theorem sentGroup_effect (s : State) (p : Nat) (b : Bytes) (kind : Nat) :
    (s.sentGroup p b kind).out = s.out ++ [.group p b] ∧
      ∃ owe run, (s.sentGroup p b kind).port p = { s.port p with nak := false, owe := owe, run := run } :=
  ⟨rfl, _, _, port_updPort_same ..⟩

/-- A group in the clear is not held for retry. -/
theorem sendPlain_effect (s : State) (p kind : Nat) (b : Bytes) :
    let u := s.sendPlain p kind b
    (∃ g, g.length = 1064 ∧ u.out = s.out ++ [.group p g] ∧ slice g 16 1024 = fit 1024 b) ∧
      (u.port p).nak = false ∧ (u.port p).retry = (s.port p).retry ∧ (u.port p).setupTx = (s.port p).setupTx := by
  intro u
  obtain ⟨hout, owe, run, hport⟩ :=
    sentGroup_effect s p (groupBytes ((s.port p).hdr kind) 0 (fit 1024 b) none) kind
  refine ⟨⟨_, length_groupBytes .., hout, slice_groupBytes ..⟩, ?_⟩
  unfold u State.sendPlain
  rw [hport]
  exact ⟨rfl, rfl, rfl⟩

/-- A new sealed group takes the port's SEQ and is held for retry; the queues of the port stay. -/
theorem sendSealed_effect (hkey : (s.sendKey p).isSome = true) (kind map : Nat) (flits : Bytes) (msgs : List (Nat × Nat × Nat)) :
    ∃ g, (s.sendSealed p kind map flits msgs).out = s.out ++ [.group p g.bytes] ∧ g.bytes.length = 1064 ∧
      g.seq = (s.port p).seq ∧ g.kind = kind ∧
      ((s.sendSealed p kind map flits msgs).port p).seq = (s.port p).seq + 1 ∧
      ((s.sendSealed p kind map flits msgs).port p).retry = (s.port p).retry ++ [g] ∧
      ((s.sendSealed p kind map flits msgs).port p).ctlTx = (s.port p).ctlTx ∧
      ((s.sendSealed p kind map flits msgs).port p).tx = (s.port p).tx := by
  obtain ⟨⟨key, epoch, ini⟩, hsend⟩ := Option.isSome_iff_exists.1 hkey
  obtain ⟨b, hb⟩ : ∃ b, b = groupBytes ((s.port p).hdr kind) map flits (some (key, groupNonce (s.port p).seq epoch p ini)) :=
    ⟨_, rfl⟩
  have hlen : b.length = 1064 := hb ▸ length_groupBytes ..
  let g : HeldGroup := { epoch := epoch, seq := (s.port p).seq, bytes := b, kind := kind, msgs := msgs }
  have sends : s.sendSealed p kind map flits msgs = ((s.sentGroup p b kind).portCount Reg.PORT_TX_GROUPS p 1).updPort p fun y =>
      { y with seq := y.seq + 1, retry := y.retry ++ [g] } := by
    subst hb
    rw [State.sendSealed, hsend]
  obtain ⟨hout, owe, run, hport⟩ := sentGroup_effect s p b kind
  refine ⟨g, ?_, hlen, rfl, rfl, ?_⟩
  · rw [sends]
    exact (out_portCount ..).trans hout
  · rw [sends, port_updPort_same, port_portCount, hport]
    exact ⟨rfl, rfl, rfl, rfl⟩

/-- The keys of a port rest on its set-up, its drain and its epoch. -/
theorem sendKey_updPort {f : PortSt → PortSt} (hdrain : (f (s.port p)).drain = (s.port p).drain)
    (hjoining : (f (s.port p)).joining = (s.port p).joining) (hepoch : (f (s.port p)).txEpoch = (s.port p).txEpoch)
    (hsetup : (f (s.port p)).setup = (s.port p).setup) : (s.updPort p f).sendKey p = s.sendKey p := by
  simp only [State.sendKey, State.keyPeer, port_updPort_same, portPeer_updPort, session_updPort, hdrain, hjoining, hepoch, hsetup]

/-- What a port holds beside the flits it has to send and its credits for them: SEQ, the groups held for retry, the slots of KIND 0
in a row, and what its keys rest on. -/
def PortSt.unpicked (x : PortSt) : Nat × List HeldGroup × Nat × Option Nat × Bool × Nat × SetupSt :=
  (x.seq, x.retry, x.run, x.drain, x.joining, x.txEpoch, x.setup)

theorem unpicked_pick (x : PortSt) (picks : List (Fin 4)) : (x.pick picks).1.unpicked = x.unpicked := by
  refine foldl_keeps (fun acc : PortSt × List (Nat × LFlit) => acc.1.unpicked) (fun acc v _ => ?_) (x, [])
  dsimp only
  split
  · rfl
  · split <;> rfl

/-- A group of data goes out when flits are picked and can be filled up. -/
theorem sendData_effect (hkey : (s.sendKey p).isSome = true) (hrun : (s.port p).run < 63) {picks : List (Fin 4)}
    (hpick : ((s.port p).pick picks).2 ≠ [])
    (hfill : ((s.port p).pick picks).2.length = 16 ∨ ((s.port p).pick picks).1.padVc ≠ none) :
    ∃ g, (s.sendData p picks).out = s.out ++ [.group p g.bytes] ∧ g.bytes.length = 1064 ∧ g.seq = (s.port p).seq ∧ g.kind = 0 ∧
      ((s.sendData p picks).port p).seq = (s.port p).seq + 1 ∧ ((s.sendData p picks).port p).retry = (s.port p).retry ++ [g] ∧
      ((s.sendData p picks).port p).tx = ((s.port p).pick picks).1.tx := by
  obtain ⟨hseq, hretry, hruns, hdrain, hjoining, hepoch, hsetup⟩ : _ ∧ _ ∧ _ ∧ _ ∧ _ ∧ _ ∧ _ := by
    simpa only [PortSt.unpicked, Prod.mk.injEq] using unpicked_pick (s.port p) picks
  have sends : ¬ (((s.port p).pick picks).2.isEmpty ||
      (decide (((s.port p).pick picks).2.length < 16) && ((s.port p).pick picks).1.padVc.isNone) ||
      decide (63 ≤ ((s.port p).pick picks).1.run)) = true := by
    rw [hruns]
    rcases hfill with hfull | hpad
    · simp [hpick, hfull, hrun]
    · simp [hpick, hpad, hrun]
  have same_key : (s.updPort p fun _ => ((s.port p).pick picks).1).sendKey p = s.sendKey p :=
    sendKey_updPort hdrain hjoining hepoch hsetup
  rw [← same_key] at hkey
  have h := sendSealed_effect hkey 0 (mapOf ((s.port p).pick picks).2 (((s.port p).pick picks).1.padVc.getD 0))
    (fit 1024 (((s.port p).pick picks).2.flatMap fun f => f.2.data)) (((s.port p).pick picks).2.map fun f => (f.2.ty, f.2.tag, f.2.arg)).dedup
  rw [port_updPort_same, hseq, hretry] at h
  obtain ⟨g, hout, hlen, hgseq, hkind, hnext, hheld, -, htx⟩ := h
  have data : s.sendData p picks = _ := if_neg sends
  rw [data]
  exact ⟨g, hout, hlen, hgseq, hkind, hnext, hheld, htx⟩

end

/-! ## A port's slots (R238, R241) -/

section
variable {s : State} {p : Nat}

/-- The oldest group to be sent again goes out with the same bytes. -/
theorem sendAgain_effect (hagain : 0 < (s.port p).again) (hheld : (s.port p).again ≤ (s.port p).retry.length)
    (hrun : (s.port p).run < 63) :
    ∃ g, (s.port p).retry[(s.port p).retry.length - (s.port p).again]? = some g ∧
      (s.sendAgain p).out = s.out ++ [.group p g.bytes] ∧ ((s.sendAgain p).port p).again = (s.port p).again - 1 ∧
      ((s.sendAgain p).port p).retry = (s.port p).retry ∧ ((s.sendAgain p).port p).seq = (s.port p).seq := by
  have hlt : (s.port p).retry.length - (s.port p).again < (s.port p).retry.length := by omega
  obtain ⟨g, hg⟩ : ∃ g, (s.port p).retry[(s.port p).retry.length - (s.port p).again]? = some g :=
    ⟨_, List.getElem?_eq_getElem hlt⟩
  have allowed : ¬ (decide (g.kind = 0) && decide (63 ≤ (s.port p).run)) = true := by
    simp [hrun]
  refine ⟨g, hg, ?_⟩
  simp only [State.sendAgain, hg, if_neg allowed]
  refine ⟨(out_portCount ..).trans (out_portCount ..), ?_⟩
  rw [port_updPort_same, port_portCount, port_portCount]
  exact ⟨rfl, rfl, rfl⟩

theorem mayNew_iff {x : PortSt} : x.mayNew = true ↔
    x.again = 0 ∧ x.retry.length < 1024 ∧ x.seq < 2 ^ 32 - 1 ∧ ∀ g ∈ x.retry, g.epoch = x.txEpoch := by
  simp [PortSt.mayNew, and_assoc]

/-- A Ramom port that may carry groups. -/
def State.linkInUse (s : State) (p : Nat) : Prop :=
  s.portMode p = 1 ∧ 2 ≤ s.portState p ∧ s.portState p ≤ 5 ∧ s.getF Reg.PORT_CTRL_LOOPBACK p 0 ≠ 1

theorem linkInUse_iff : s.linkInUse p ↔ ¬ (!s.ramom p || decide (s.portState p < 2) || decide (5 < s.portState p) ||
    decide (s.getF Reg.PORT_CTRL_LOOPBACK p 0 = 1)) = true := by
  simp only [State.linkInUse, State.ramom, Bool.or_eq_true, Bool.not_eq_true', decide_eq_true_eq, decide_eq_false_iff_not, not_or, not_not,
    Nat.not_lt, and_assoc]

/-- What a slot of KIND 0 or 1 carries, where the port has a key. -/
def State.sealedSlot (s : State) (p : Nat) (kind : Fin 4) (picks : List (Fin 4)) : State :=
  if 0 < (s.port p).again then s.sendAgain p
  else if !(s.port p).mayNew then s
  else if kind.val = 0 then (if s.portState p = 4 then s.sendData p picks else s)
  else if (s.port p).ctlTx.isEmpty then s
  else (s.updPort p fun y => { y with ctlTx := y.ctlTx.drop 16 }).sendSealed p 1 0
    (fit 1024 (((s.port p).ctlTx.take 16).flatMap id)) []

/-- What a slot of KIND 2 carries. -/
def State.setupSlot (s : State) (p : Nat) : State :=
  if ((s.port p).setupTx.flatMap id).isEmpty then s
  else (s.updPort p fun y => { y with
    setupTx := if ((s.port p).setupTx.flatMap id).length ≤ 1024 then [] else [((s.port p).setupTx.flatMap id).drop 1024] }).sendPlain
      p 2 ((s.port p).setupTx.flatMap id)

/-- What a slot of a port in use carries. -/
def State.groupSlot (s : State) (p : Nat) (kind : Fin 4) (picks : List (Fin 4)) : State :=
  if kind.val < 2 then (if (s.sendKey p).isNone then s else s.sealedSlot p kind picks)
  else if s.ctlSlot p then s
  else if kind.val = 2 then s.setupSlot p
  else s.sendPlain p 3 []

theorem groupSend_of_inUse {port : PortIx} (h : s.linkInUse port) (kind : Fin 4) (picks : List (Fin 4)) :
    exec (.groupSend port kind picks) s = .next (s.groupSlot port kind picks) :=
  congrArg Host.Outcome.next (if_neg (linkInUse_iff.1 h))

theorem groupSend_of_unused {port : PortIx} (h : ¬ s.linkInUse port) (kind : Fin 4) (picks : List (Fin 4)) :
    exec (.groupSend port kind picks) s = .next s :=
  congrArg Host.Outcome.next (if_pos (not_not.1 (mt linkInUse_iff.2 h)))

theorem groupReceive_of_unused {port : PortIx} (h : ¬ s.linkInUse port) (d : List Byte) (c n : Nat) :
    exec (.groupReceive port d c n) s = .next s :=
  congrArg Host.Outcome.next (if_pos (not_not.1 (mt linkInUse_iff.2 h)))

theorem groupSlot_of_ctlSlot {kind : Fin 4} (hkind : 2 ≤ kind.val) (hctl : s.ctlSlot p = true) (picks : List (Fin 4)) :
    s.groupSlot p kind picks = s := by
  rw [State.groupSlot, if_neg (by omega), if_pos hctl]

theorem groupSlot_of_idle (hctl : s.ctlSlot p = false) (picks : List (Fin 4)) :
    s.groupSlot p 3 picks = s.sendPlain p 3 [] := by
  rw [State.groupSlot, if_neg (by decide), hctl, if_neg Bool.false_ne_true, if_neg (by decide)]

theorem groupSlot_of_setup (hctl : s.ctlSlot p = false) (picks : List (Fin 4)) : s.groupSlot p 2 picks = s.setupSlot p := by
  rw [State.groupSlot, if_neg (by decide), hctl, if_neg Bool.false_ne_true, if_pos (by decide)]

theorem groupSlot_of_sealed {kind : Fin 4} (hkind : kind.val < 2) (hkey : (s.sendKey p).isSome = true) (picks : List (Fin 4)) :
    s.groupSlot p kind picks = s.sealedSlot p kind picks := by
  have has_key : ¬ (s.sendKey p).isNone = true := by simpa [Option.isSome_iff_ne_none] using hkey
  rw [State.groupSlot, if_pos hkind, if_neg has_key]

/-- Idle groups and set-up bytes are not held for retry. -/
theorem idleSlot_effect (hctl : s.ctlSlot p = false) (picks : List (Fin 4)) :
    ∃ b, b.length = 1064 ∧ (s.groupSlot p 3 picks).out = s.out ++ [.group p b] ∧ ((s.groupSlot p 3 picks).port p).nak = false ∧
      ((s.groupSlot p 3 picks).port p).retry = (s.port p).retry := by
  rw [groupSlot_of_idle hctl]
  obtain ⟨⟨b, hlen, hout, -⟩, hnak, hretry, -⟩ := sendPlain_effect s p 3 []
  exact ⟨b, hlen, hout, hnak, hretry⟩

/-- A slot of KIND 2 carries the first bytes of set-up. -/
theorem setupSlot_effect (hctl : s.ctlSlot p = false) (hsetup : (s.port p).setupTx.flatMap id ≠ []) (picks : List (Fin 4)) :
    ∃ b, b.length = 1064 ∧ (s.groupSlot p 2 picks).out = s.out ++ [.group p b] ∧
      slice b 16 1024 = fit 1024 ((s.port p).setupTx.flatMap id) ∧
      (((s.port p).setupTx.flatMap id).length ≤ 1024 → ((s.groupSlot p 2 picks).port p).setupTx = []) := by
  rw [groupSlot_of_setup hctl, State.setupSlot, if_neg (by simpa using hsetup)]
  refine Exists.elim (sendPlain_effect (s.updPort p _) p 2 ((s.port p).setupTx.flatMap id)).1
    fun b ⟨hlen, hout, hslice⟩ => ⟨b, hlen, hout, hslice, fun hfits => ?_⟩
  rw [(sendPlain_effect (s.updPort p _) p 2 ((s.port p).setupTx.flatMap id)).2.2.2, port_updPort_same]
  exact if_pos hfits

/-- Groups to be sent again go before new ones. -/
theorem sealedSlot_of_again (hagain : 0 < (s.port p).again) (kind : Fin 4) (picks : List (Fin 4)) :
    s.sealedSlot p kind picks = s.sendAgain p := by
  rw [State.sealedSlot, if_pos hagain]

/-- A new group of data, or of control messages, takes the next SEQ and is held for retry. -/
theorem sealedSlot_of_new {kind : Fin 4} (hkind : kind.val < 2) (hkey : (s.sendKey p).isSome = true)
    (hnew : (s.port p).mayNew = true) {picks : List (Fin 4)} (hctl : kind = 1 → (s.port p).ctlTx ≠ [])
    (hdata : kind = 0 → s.portState p = 4 ∧ (s.port p).run < 63 ∧ ((s.port p).pick picks).2 ≠ [] ∧
      (((s.port p).pick picks).2.length = 16 ∨ ((s.port p).pick picks).1.padVc ≠ none)) :
    ∃ g, (s.sealedSlot p kind picks).out = s.out ++ [.group p g.bytes] ∧ g.bytes.length = 1064 ∧ g.seq = (s.port p).seq ∧
      g.kind = kind.val ∧ ((s.sealedSlot p kind picks).port p).seq = (s.port p).seq + 1 ∧
      ((s.sealedSlot p kind picks).port p).retry = (s.port p).retry ++ [g] ∧
      (kind = 1 → ((s.sealedSlot p kind picks).port p).ctlTx = (s.port p).ctlTx.drop 16) ∧
      (kind = 0 → ((s.sealedSlot p kind picks).port p).tx = ((s.port p).pick picks).1.tx) := by
  have hagain : ¬ 0 < (s.port p).again := by
    have := (mayNew_iff.1 hnew).1
    omega
  rw [State.sealedSlot, if_neg hagain, if_neg (by simp [hnew])]
  obtain rfl | rfl : kind = 0 ∨ kind = 1 := by omega
  · obtain ⟨hopen, hrun, hpick, hfill⟩ := hdata rfl
    rw [if_pos (by decide), if_pos hopen]
    obtain ⟨g, hout, hlen, hseq, hgkind, hnext, hretry, htx⟩ := sendData_effect hkey hrun hpick hfill
    exact ⟨g, hout, hlen, hseq, hgkind, hnext, hretry, nofun, fun _ => htx⟩
  · rw [if_neg (by decide), if_neg (by simpa using hctl rfl)]
    have same_key : (s.updPort p fun y => { y with ctlTx := y.ctlTx.drop 16 }).sendKey p = s.sendKey p :=
      sendKey_updPort rfl rfl rfl rfl
    rw [← same_key] at hkey
    have h := sendSealed_effect hkey 1 0 (fit 1024 (((s.port p).ctlTx.take 16).flatMap id)) []
    rw [port_updPort_same] at h
    obtain ⟨g, hout, hlen, hseq, hgkind, hnext, hretry, hleft, -⟩ := h
    exact ⟨g, hout, hlen, hseq, hgkind, hnext, hretry, fun _ => hleft, nofun⟩

end

/-! ## Groups that come (R236, R241) -/

section
variable {s : State} {port : PortIx} {d : List Byte}

/-- A group that a codeword not corrected touches, or whose CRC fails, makes the next one carry NAK. -/
theorem groupReceive_of_bad (h : s.linkInUse port) {n : Nat}
    (hbad : 0 < n ∨ d.length ≠ 1064 ∨ crc32 (d.take 1056) ≠ rd d 1056 4) (c : Nat) :
    ∃ u, exec (.groupReceive port d c n) s = .next u ∧ u.port port = { s.port port with nak := true } ∧ u.out = s.out := by
  have bad : (decide (0 < n) || decide (d.length ≠ 1064) || decide (crc32 (d.take 1056) ≠ rd d 1056 4)) = true := by
    simpa [or_assoc] using hbad
  refine ⟨_, congrArg Host.Outcome.next ((if_neg (linkInUse_iff.1 h)).trans (if_pos bad)), ?_, ?_⟩
  · rw [port_failGroupRx, port_portCount, port_portCount]
  · exact (out_portCount ..).trans (out_portCount ..)

/-- No key of the port fits a PHASE and SEQ that none of its epochs expects. -/
theorem epochsOf_eq_nil {p hdr : Nat}
    (h : ∀ e, ((∃ keys ini, s.recvKeys p = some (keys, ini) ∧ e ∈ keys.map Prod.fst) ∨
        (s.recvKeys p = none ∧ e = (s.port p).rxEpoch)) → e % 2 = (if bit hdr 60 then 1 else 0) →
      (e = (s.port p).rxEpoch → hdr % 2 ^ 32 ≠ (s.port p).expect) ∧ ((s.port p).rxEpoch < e → hdr % 2 ^ 32 ≠ 0)) :
    s.epochsOf p hdr = [] := by
  refine List.filter_eq_nil_iff.2 fun e he hfits => ?_
  simp only [Bool.and_eq_true, Bool.or_eq_true, decide_eq_true_eq] at hfits
  obtain ⟨hphase, hseq⟩ := hfits
  have held : (∃ keys ini, s.recvKeys p = some (keys, ini) ∧ e ∈ keys.map Prod.fst) ∨
      (s.recvKeys p = none ∧ e = (s.port p).rxEpoch) := by
    cases hkeys : s.recvKeys p with
    | none =>
      rw [hkeys] at he
      exact .inr ⟨rfl, List.mem_singleton.1 he⟩
    | some k =>
      rw [hkeys] at he
      exact .inl ⟨k.1, k.2, rfl, he⟩
  obtain ⟨hcurrent, hlater⟩ := h e held hphase
  exact hseq.elim (fun hc => hcurrent hc.1 hc.2) (fun hl => hlater hl.1 hl.2)

/-- A group that fits no key of the session changes no link state. -/
theorem groupReceive_of_unfit (h : s.linkInUse port) (hlen : d.length = 1064) (hcrc : crc32 (d.take 1056) = rd d 1056 4)
    (hfits : s.epochsOf port (rd d 0 8) = []) (c : Nat) :
    ∃ u, exec (.groupReceive port d c 0) s = .next u ∧ u.link = s.link := by
  obtain ⟨hmode, hlo, hhi, hloop⟩ := h
  refine ⟨_, groupReceive_of_good hmode hlo hhi hloop hlen hcrc, ?_⟩
  rw [State.takeGroup, epochsOf_counted, hfits]
  exact link_counted ..

end

/-! ## The Ethernet rings (R234, R235) -/

section
variable {s v w : State} {port : PortIx} {a : Nat} {d b : Bytes}

theorem ethTailWrite_eq (rx : Bool) (tail : BitVec 16) : exec (.ethTailWrite port rx tail) s = .next (if s.portMode port = 2 then
    s.setF (if rx then Reg.ETH_RX_IDX_TAIL else Reg.ETH_TX_IDX_TAIL) port 0 tail.toNat else s) := by
  cases rx <;> rfl

/-- An Ethernet port that may carry frames. -/
def State.ethInUse (s : State) (p : Nat) : Prop :=
  s.portMode p = 2 ∧ s.portState p = 2 ∧ s.getF Reg.PORT_CTRL_LOOPBACK p 0 ≠ 1

theorem ethInUse_bool {p : Nat} (h : s.ethInUse p) : ¬ (decide (s.portMode p ≠ 2) || decide (s.portState p ≠ 2) ||
    decide (s.getF Reg.PORT_CTRL_LOOPBACK p 0 = 1)) = true := by
  obtain ⟨hmode, hup, hloop⟩ := h
  simp [hmode, hup, hloop]

theorem ethFrameTransmit_of_none (h : s.ethInUse port) (hring : s.ringNext port false = none) :
    exec (.ethFrameTransmit port) s = .next s := by
  show execEthFrameTransmit port s = _
  simp only [execEthFrameTransmit, if_neg (ethInUse_bool h), hring]

/-- A descriptor out of order is refused. -/
theorem ethFrameTransmit_of_bad (h : s.ethInUse port) (hring : s.ringNext port false = some a) (hread : s.hubRead a 16 = (v, .ok d))
    (hdesc : v.descOk (rd d 0 8) (rd d 8 8) 60 9212 (rd d 8 8 % 2 ^ 16) = false) :
    exec (.ethFrameTransmit port) s = .next (v.ringDone port false a (rd d 8 8) true) := by
  show execEthFrameTransmit port s = _
  simp only [execEthFrameTransmit, if_neg (ethInUse_bool h), hring, hread, hdesc, Bool.not_false, if_true]

/-- The frame of a descriptor in order goes out with its FCS. -/
theorem ethFrameTransmit_of_good (h : s.ethInUse port) (hring : s.ringNext port false = some a) (hread : s.hubRead a 16 = (v, .ok d))
    (hdesc : v.descOk (rd d 0 8) (rd d 8 8) 60 9212 (rd d 8 8 % 2 ^ 16) = true)
    (hframe : v.hubRead (rd d 0 8) (rd d 8 8 % 2 ^ 16) = (w, .ok b)) :
    exec (.ethFrameTransmit port) s =
      .next ((w.emit (.frame port (b ++ leBytes 4 (crc32 b)))).ringDone port false a (rd d 8 8) false) := by
  show execEthFrameTransmit port s = _
  simp only [execEthFrameTransmit, if_neg (ethInUse_bool h), hring, hread, hdesc, hframe, Bool.not_true, Bool.false_eq_true, if_false]

theorem fillFrame_of_none {k : Nat} (hring : s.ringNext port true = none) :
    s.fillFrame port b (k + 1) = s.portCount Reg.PORT_RX_DROP port 1 := by
  rw [State.fillFrame, hring]

theorem fillFrame_of_good {k : Nat} (hring : s.ringNext port true = some a) (hread : s.hubRead a 16 = (v, .ok d))
    (hdesc : v.descOk (rd d 0 8) (rd d 8 8) 9212 65535 (rd d 8 8 % 2 ^ 16) = true)
    (hwrite : v.hubWrite (rd d 0 8) b = (w, none)) :
    s.fillFrame port b (k + 1) = w.ringDone port true a b.length false := by
  rw [State.fillFrame]
  simp only [hring, hread, hdesc, hwrite, Bool.not_true, Bool.false_eq_true, if_false]

/-- What a frame of 64 B or more comes to. -/
theorem ethFrameReceive_eq (h : s.ethInUse port) {f : List Byte} (hlen : 64 ≤ f.length) : exec (.ethFrameReceive port f) s = .next (
    if 9216 < f.length ∨ crc32 (f.take (f.length - 4)) ≠ rd f (f.length - 4) 4 then s.portCount Reg.PORT_RX_DROP port 1
    else s.fillFrame port (f.take (f.length - 4)) (65535 + 1)) := by
  show execEthFrameReceive port f s = _
  simp only [execEthFrameReceive, Bool.eq_false_iff.2 (ethInUse_bool h), Bool.false_or, Bool.or_eq_true, decide_eq_true_eq,
    if_neg (Nat.not_lt.2 hlen)]

theorem ethFrameReceive_of_drop (h : s.ethInUse port) {f : List Byte} (hlen : 64 ≤ f.length)
    (hdrop : 9216 < f.length ∨ crc32 (f.take (f.length - 4)) ≠ rd f (f.length - 4) 4 ∨ s.ringNext port true = none) :
    exec (.ethFrameReceive port f) s = .next (s.portCount Reg.PORT_RX_DROP port 1) := by
  rw [ethFrameReceive_eq h hlen]
  split
  · rfl
  · next hgood => rw [fillFrame_of_none ((or_assoc.2 hdrop).resolve_left hgood)]

/-- A frame in order goes into the posted buffer. -/
theorem ethFrameReceive_of_good (h : s.ethInUse port) {f : List Byte} (hlen : 64 ≤ f.length) (hmax : f.length ≤ 9216)
    (hcrc : crc32 (f.take (f.length - 4)) = rd f (f.length - 4) 4) (hring : s.ringNext port true = some a)
    (hread : s.hubRead a 16 = (v, .ok d)) (hdesc : v.descOk (rd d 0 8) (rd d 8 8) 9212 65535 (rd d 8 8 % 2 ^ 16) = true)
    (hwrite : v.hubWrite (rd d 0 8) (f.take (f.length - 4)) = (w, none)) :
    exec (.ethFrameReceive port f) s = .next (w.ringDone port true a (f.take (f.length - 4)).length false) := by
  rw [ethFrameReceive_eq h hlen, if_neg (not_or.2 ⟨hmax.not_gt, not_not_intro hcrc⟩), fillFrame_of_good hring hread hdesc hwrite]

end

/-- Settles O50: each step of a port is taken apart by the port's STATE, the slot's KIND and what the port has to send; a group that
comes by its CRC and the epochs that it fits; an Ethernet frame by its descriptor. -/
theorem portsTrainAndCarryGroups : Obligations.PortsTrainAndCarryGroups := by
  unfold Obligations.PortsTrainAndCarryGroups
  intro s port p x st hello down _ linkOn
  refine ⟨fun rev => ⟨fun h => linkUp_of_off h, fun hmode hloop => linkUp_effect hmode hloop⟩, rfl,
    fun hmode hst => trainTimeout_of_training hmode hst, fun h => ?_,
    fun hup hmode => ⟨_, portRetrain_of_used hup hmode, wentDown_linkDown s port⟩,
    fun hmode hoff hfailed => lossOfSignal_of_used hmode hoff hfailed, fun h => ?_, resendRetrain_eq,
    ⟨_, rfl, port_updPort_same .., fun q hq => port_updPort_other _ _ hq⟩,
    fun h k picks d c n => ⟨groupSend_of_unused h k picks, groupReceive_of_unused h d c n⟩,
    fun h kind picks => ⟨_, groupSend_of_inUse h kind picks, ?_, fun hkind hctl => groupSlot_of_ctlSlot hkind hctl picks, ?_,
      fun hkind hkey hagain hheld hrun => ?_, fun hkind hkey hagain hroom hseq hepoch hctl hdata => ?_⟩,
    fun h d c n => ?_, ethTailWrite_eq, fun hmode hup hloop => ?_⟩
  · refine trainTimeout_eq.trans (congrArg _ (if_neg fun hboth => ?_))
    exact h.elim (absurd hboth.1) (absurd hboth.2)
  · exact lossOfSignal_eq.trans (congrArg _ (if_pos h))
  · rintro rfl hctl
    exact idleSlot_effect hctl picks
  · rintro rfl hctl hsetup
    exact setupSlot_effect hctl hsetup picks
  · rw [groupSlot_of_sealed hkind hkey, sealedSlot_of_again hagain]
    exact sendAgain_effect hagain hheld hrun
  · rw [groupSlot_of_sealed hkind hkey]
    exact sealedSlot_of_new hkind hkey (mayNew_iff.2 ⟨hagain, hroom, hseq, hepoch⟩) hctl hdata
  · by_cases hbad : 0 < n ∨ d.length ≠ 1064 ∨ crc32 (d.take 1056) ≠ rd d 1056 4
    · obtain ⟨u, hexec, hport, hout⟩ := groupReceive_of_bad h hbad c
      refine ⟨u, hexec, fun _ => ⟨hport, hout⟩, fun hn hlen hcrc => absurd hbad ?_⟩
      simp only [hn, hlen, hcrc, Nat.lt_irrefl, ne_eq, not_true, or_self, not_false_eq_true]
    · obtain ⟨u, hexec⟩ : ∃ u, exec (.groupReceive port d c n) s = .next u := ⟨_, rfl⟩
      refine ⟨u, hexec, fun hb => absurd hb hbad, fun hn hlen hcrc hfits => ?_⟩
      subst hn
      simp only [← rd_mod] at hfits
      obtain ⟨u', hexec', hlink⟩ := groupReceive_of_unfit h hlen hcrc (epochsOf_eq_nil hfits) c
      cases hexec.symm.trans hexec'
      exact hlink
  · have h : s.ethInUse port := ⟨hmode, hup, hloop⟩
    refine ⟨fun hring => ethFrameTransmit_of_none h hring, fun a v w d b hring hread =>
      ⟨fun hdesc => ethFrameTransmit_of_bad h hring hread hdesc,
        fun hdesc hframe => ethFrameTransmit_of_good h hring hread hdesc hframe⟩,
      fun f hlen => ⟨fun hdrop => ethFrameReceive_of_drop h hlen hdrop,
        fun hmax hcrc a v w d hring hread hdesc hwrite => ethFrameReceive_of_good h hlen hmax hcrc hring hread hdesc hwrite⟩⟩

end Sys2Proof.Machine
end

section
/-!
PROOFS. Collective groups, their requests and the collective engine (10_links_and_collectives.md R253 to R259).
-/

namespace Sys2Proof.Machine

/-! ## What leaves the groups as they are -/

section
variable {s u v : State} {q : QueueIx} {tag ctx num : Nat}

@[simp] theorem link_endCmd (s : State) (q code : Nat) : (s.endCmd q code).link = s.link :=
  congrArg (·.2.2.2.2) (ground_endCmd s q code)

@[simp] theorem link_updHead (s : State) (q : Nat) (f : HubCmd → HubCmd) : (s.updHead q f).link = s.link :=
  congrArg (·.2.2.2.2) (ground_updHead s q f)

@[simp] theorem link_beginCmd (s : State) (q : Nat) : (s.beginCmd q).link = s.link := by
  unfold State.beginCmd
  extract_lets t
  have ht : t.link = s.link := link_updHead ..
  split
  · exact ht
  · unfold State.showActive
    split <;> exact ht

@[simp] theorem link_endGroupCmd (s : State) (g : Group) (code : Nat) : (s.endGroupCmd g code).link = s.link := by
  unfold State.endGroupCmd
  split
  · exact link_endCmd ..
  · rfl

/-- The groups and the collectives of the engine. -/
def State.collective (s : State) : List Group × List Coll := (s.link.groups, s.link.colls)

theorem collective_sendMsg (s : State) (peer ty tag arg0 arg1 : Nat) (payload : Bytes) :
    (s.sendMsg peer ty tag arg0 arg1 payload).collective = s.collective := by
  unfold State.sendMsg State.queueMsg
  extract_lets
  split
  · rfl
  · split <;> rfl

/-- What a group is apart from who has greeted it: its place, its tag, its members, its requests and whether it is broken. -/
def Group.shape (g : Group) : Nat × Nat × Nat × List (Option Nat) × Nat × Bool := (g.ctx, g.num, g.gtag, g.members, g.k, g.broken)

/-- The groups apart from who has greeted them. -/
def State.shapes (s : State) : List (Nat × Nat × Nat × List (Option Nat) × Nat × Bool) := s.link.groups.map Group.shape

theorem shapes_of_link (h : u.link = s.link) : u.shapes = s.shapes := by rw [State.shapes, h, State.shapes]

theorem shapes_updGroup {f : Group → Group} (h : ∀ g, (f g).shape = g.shape) (s : State) (tag : Nat) :
    (s.updGroup tag f).shapes = s.shapes := by
  simp only [State.shapes, State.updGroup, List.map_map]
  refine List.map_congr_left fun g _ => ?_
  simp only [Function.comp]
  split
  · exact h g
  · rfl

theorem shapes_readyGroup (s : State) (tag : Nat) : (s.readyGroup tag).shapes = s.shapes := by
  unfold State.readyGroup
  split
  · rfl
  · split
    · rfl
    · exact (shapes_of_link (link_endGroupCmd ..)).trans (shapes_updGroup (fun _ => by rfl) ..)

theorem shapes_greet (s : State) (g : Group) (n digest : Nat) : (s.greet g n digest).shapes = s.shapes := by
  unfold State.greet
  split
  · exact (shapes_readyGroup ..).trans (shapes_updGroup (fun _ => by rfl) ..)
  · exact shapes_of_link (link_endGroupCmd ..)

end

/-! ## COLL_GROUP (R253) -/

section
variable {s v w : State} {q : QueueIx} {c : HubCmd} {e : Nat} {b : Bytes}

/-- The group of a LIST, not greeted yet. -/
def groupOfList (ctx num tag : Nat) (l : List Nat) (digest : Bytes) : Group :=
  { ctx := ctx, num := num, gtag := tag, members := l.map fun e => if bit e 15 then none else some (e % 256), digest := digest,
    hellos := [], ready := false, broken := false, k := 0 }

/-- A group that is defined comes behind the others. -/
theorem shapes_defineGroup (s : State) (ctx num tag : Nat) (l : List Nat) :
    (s.defineGroup ctx num tag l).shapes = s.shapes ++ [(groupOfList ctx num tag l []).shape] := by
  unfold State.defineGroup
  extract_lets members digest g link defined told came early known
  have told_eq : told.shapes = defined.shapes := by
    refine foldl_keeps State.shapes (f := fun (s : State) (m : Nat × Nat) => s.sendMsg m.1 0x02 tag (rd digest 0 8) 0 [])
      (fun t m _ => ?_) defined
    rw [State.shapes, show (t.sendMsg m.1 0x02 tag (rd digest 0 8) 0 []).link.groups = t.link.groups from
      congrArg Prod.fst (collective_sendMsg ..), State.shapes]
  have greeted_eq : (came.foldl (fun s e => if (g.ranksOf e.peer).isEmpty then s else s.greet g e.peer e.digest) known).shapes =
      known.shapes := by
    refine foldl_keeps State.shapes (fun t e _ => ?_) known
    split
    · rfl
    · exact shapes_greet ..
  calc _ = known.shapes := (shapes_readyGroup ..).trans greeted_eq
    _ = defined.shapes := told_eq
    _ = s.shapes ++ [(groupOfList ctx num tag l []).shape] := List.map_append

theorem exists_group_defineGroup (s : State) (ctx num tag : Nat) (l : List Nat) :
    ∃ g ∈ (s.defineGroup ctx num tag l).link.groups, g.ctx = ctx ∧ g.num = num ∧ g.gtag = tag ∧ g.k = 0 ∧ g.broken = false ∧
      g.members = l.map fun e => if bit e 15 then none else some (e % 256) := by
  have hmem : (groupOfList ctx num tag l []).shape ∈ (s.defineGroup ctx num tag l).shapes := by
    rw [shapes_defineGroup]
    exact List.mem_append_right _ (List.mem_singleton.2 rfl)
  obtain ⟨g, hg, hshape⟩ := List.mem_map.1 hmem
  simp only [Group.shape, groupOfList, Prod.mk.injEq] at hshape
  obtain ⟨hctx, hnum, htag, hmembers, hk, hbroken⟩ := hshape
  exact ⟨g, hg, hctx, hnum, htag, hk, hbroken, hmembers⟩

/-- May a COLL_GROUP define its group, if its LIST can be read and is in order? -/
def State.mayDefine (s : State) (ctx : Nat) (c : HubCmd) : Prop :=
  s.groupOf ctx (c.o 0 % 16) = none ∧ c.o 0 < 2 ^ 14 ∧ 2 ≤ bitsOf (c.o 0) 12 4 ∧ bitsOf (c.o 0) 12 4 ≤ 256 ∧ c.o 2 < 2 ^ 63 ∧
    aligned (c.o 2) 64 = true

theorem mayDefine_iff {ctx : Nat} : s.mayDefine ctx c ↔ ¬ ((s.groupOf ctx (c.o 0 % 16)).isSome || decide (c.o 0 / 2 ^ 14 ≠ 0) ||
    decide (bitsOf (c.o 0) 12 4 < 2) || decide (256 < bitsOf (c.o 0) 12 4) || decide (c.o 2 / 2 ^ 63 ≠ 0) ||
    !aligned (c.o 2) 64) = true := by
  simp only [State.mayDefine, Bool.or_eq_true, Bool.not_eq_true', decide_eq_true_eq, not_or, Nat.not_lt, Option.not_isSome_iff_eq_none,
    ne_eq, Nat.div_eq_zero_iff, Bool.not_eq_false, and_assoc]
  norm_num

variable (hcmd : s.groupCmd q false = true) (hlook : s.lookStart q 0x14 = (v, .go c))
  (hbound : v.boundPart (v.qCtx q) ≠ none)
include hcmd hlook hbound

theorem collGroup_of_refused (h : ¬ v.mayDefine (v.qCtx q) c) : exec (.collGroup q) s = .next (v.endCmd q 0x0408) := by
  show execCollGroup q s = _
  simp only [execCollGroup, hcmd, tryStart_of_go hlook, Option.isNone_eq_false_iff.2 (Option.isSome_iff_ne_none.2 hbound),
    not_not.1 (mt mayDefine_iff.2 h), Bool.not_true, Bool.false_eq_true, if_false, if_true]

variable (hmay : v.mayDefine (v.qCtx q) c)
include hmay

theorem collGroup_of_unread (hread : v.hubRead (c.o 2) (2 * bitsOf (c.o 0) 12 4) = (w, .error e)) :
    exec (.collGroup q) s = .next (w.endCmd q e) := by
  show execCollGroup q s = _
  simp only [execCollGroup, hcmd, tryStart_of_go hlook, Option.isNone_eq_false_iff.2 (Option.isSome_iff_ne_none.2 hbound),
    mayDefine_iff.1 hmay, Bool.not_true, Bool.false_eq_true, if_false, hread]

theorem collGroup_of_read (hread : v.hubRead (c.o 2) (2 * bitsOf (c.o 0) 12 4) = (w, .ok b)) :
    exec (.collGroup q) s = .next (
      if w.listOk ((List.range (bitsOf (c.o 0) 12 4)).map fun i => rd b (2 * i) 2) = true then
        ((w.beginCmd q).updHead q fun d => { d with tag := c.o 0 % 16 }).defineGroup (v.qCtx q) (c.o 0 % 16) (c.o 1)
          ((List.range (bitsOf (c.o 0) 12 4)).map fun i => rd b (2 * i) 2)
      else w.endCmd q 0x0408) := by
  show execCollGroup q s = _
  simp only [execCollGroup, hcmd, tryStart_of_go hlook, Option.isNone_eq_false_iff.2 (Option.isSome_iff_ne_none.2 hbound),
    mayDefine_iff.1 hmay, Bool.not_true, Bool.false_eq_true, if_false, hread, Bool.not_eq_true', ← Bool.not_eq_true, ite_not]

end

/-! ## COLL_GROUP_FREE (R253, R258) -/

section
variable {s v : State} {q : QueueIx} {c : HubCmd} {g : Group}

theorem collective_deleteGroup (s : State) (g : Group) : (s.deleteGroup g).collective =
    (s.link.groups.filter (fun x => !(decide (x.ctx = g.ctx) && decide (x.num = g.num))), s.link.colls) :=
  foldl_keeps State.collective (fun _ _ _ => collective_sendMsg ..) _

theorem groupOf_deleteGroup (s : State) (g : Group) : (s.deleteGroup g).groupOf g.ctx g.num = none := by
  rw [State.groupOf, show (s.deleteGroup g).link.groups = _ from congrArg Prod.fst (collective_deleteGroup s g),
    List.find?_eq_none]
  intro x hx hplace
  rw [List.mem_filter, hplace] at hx
  exact absurd hx.2 (by decide)

theorem place_of_groupOf {ctx num : Nat} (h : s.groupOf ctx num = some g) : g.ctx = ctx ∧ g.num = num := by
  simpa using List.find?_some h

variable (hcmd : s.groupCmd q true = true) (hlook : s.lookStart q 0x14 = (v, .go c))
  (hbound : v.boundPart (v.qCtx q) ≠ none)
include hcmd hlook hbound

theorem collGroupFree_of_unknown (hgroup : v.groupOf (v.qCtx q) (c.o 0 % 16) = none) :
    exec (.collGroupFree q) s = .next (v.endCmd q 0x0408) := by
  show execCollGroupFree q s = _
  simp only [execCollGroupFree, hcmd, tryStart_of_go hlook, Option.isNone_eq_false_iff.2 (Option.isSome_iff_ne_none.2 hbound),
    hgroup, Bool.not_true, Bool.false_eq_true, if_false]

/-- A group that is in use is not freed, and one that is broken or idle is deleted. -/
theorem collGroupFree_of_known (hgroup : v.groupOf (v.qCtx q) (c.o 0 % 16) = some g) (hflags : c.o 0 / 16 = 2 ^ 9)
    (htag : c.o 1 = 0) (hlist : c.o 2 = 0) : exec (.collGroupFree q) s = .next (
      if g.broken = false ∧ ∃ x ∈ v.link.colls, x.gtag = g.gtag then v.endCmd q 0x040A
      else ((v.beginCmd q).deleteGroup g).endCmd q 0) := by
  show execCollGroupFree q s = _
  simp only [execCollGroupFree, hcmd, tryStart_of_go hlook, Option.isNone_eq_false_iff.2 (Option.isSome_iff_ne_none.2 hbound),
    hgroup, hflags, htag, hlist, Bool.not_true, Bool.false_eq_true, ne_eq, not_true, decide_false, Bool.or_self, if_false,
    Bool.and_eq_true, Bool.not_eq_true', List.any_eq_true, decide_eq_true_eq]

theorem collGroupFree_of_idle (hgroup : v.groupOf (v.qCtx q) (c.o 0 % 16) = some g) (hflags : c.o 0 / 16 = 2 ^ 9)
    (htag : c.o 1 = 0) (hlist : c.o 2 = 0) (hidle : g.broken = true ∨ ∀ x ∈ v.link.colls, x.gtag ≠ g.gtag) :
    ∃ u, exec (.collGroupFree q) s = .next u ∧ u.groupOf (v.qCtx q) (c.o 0 % 16) = none ∧ u.link.colls = v.link.colls := by
  obtain ⟨hctx, hnum⟩ := place_of_groupOf hgroup
  have unused : ¬ (g.broken = false ∧ ∃ x ∈ v.link.colls, x.gtag = g.gtag) := fun ⟨hwhole, x, hx, hxg⟩ =>
    hidle.elim (fun hb => Bool.false_ne_true (hwhole.symm.trans hb)) (fun hall => hall x hx hxg)
  refine ⟨_, (collGroupFree_of_known hcmd hlook hbound hgroup hflags htag hlist).trans (congrArg _ (if_neg unused)), ?_, ?_⟩
  · rw [← hctx, ← hnum, State.groupOf, link_endCmd]
    exact groupOf_deleteGroup ..
  · rw [link_endCmd, show ((v.beginCmd q).deleteGroup g).link.colls = _ from congrArg Prod.snd (collective_deleteGroup ..),
      link_beginCmd]

end

/-! ## GROUP_HELLO and PEER_NOTE (R253, R258) -/

section
variable {s v : State} {port : PortIx} {n tag : Nat} {m : LinkMsg} {g : Group}

theorem onMsg_of_taken {p ty : Nat} (hpeer : s.portPeer p = some n) (htake : s.takeMsg p ty = some (m, v))
    (f : Nat → LinkMsg → State → State) : s.onMsg p ty f = f n m v := by
  simp only [State.onMsg, hpeer, htake]

theorem gtag_of_groupTag (h : s.groupTag tag = some g) : g.gtag = tag := by
  simpa using List.find?_some h

/-- A group that is changed under its tag is found as it has become. -/
theorem groupTag_updGroup {f : Group → Group} (hf : ∀ x, (f x).gtag = x.gtag) (h : s.groupTag tag = some g) :
    (s.updGroup tag f).groupTag tag = some (f g) := by
  have same : ((fun x : Group => decide (x.gtag = tag)) ∘ fun x => if x.gtag = tag then f x else x) = fun x => decide (x.gtag = tag) := by
    funext x
    simp only [Function.comp]
    split
    · rw [hf]
    · rfl
  have hfind : s.link.groups.find? (fun x => decide (x.gtag = tag)) = some g := h
  simp only [State.groupTag, State.updGroup, List.find?_map, same, hfind, Option.map_some, if_pos (gtag_of_groupTag h)]

theorem groupTag_of_link {u : State} (h : u.link = s.link) (tag : Nat) : u.groupTag tag = s.groupTag tag := by
  rw [State.groupTag, h, State.groupTag]

theorem groupTag_readyGroup (h : s.groupTag tag = some g) :
    ∃ x, (s.readyGroup tag).groupTag tag = some x ∧ x.hellos = g.hellos ∧ x.members = g.members := by
  simp only [State.readyGroup, h]
  split
  · exact ⟨g, h, rfl, rfl⟩
  · rw [groupTag_of_link (link_endGroupCmd ..), groupTag_updGroup (fun _ => by rfl) h]
    exact ⟨_, rfl, rfl, rfl⟩

section
variable (hpeer : s.portPeer port = some n) (htake : s.takeMsg port 0x02 = some (m, v))
include hpeer htake

/-- A greeting for a group that is not there yet waits. -/
theorem groupHello_of_early (hgroup : v.groupTag m.tag = none) : exec (.groupHello port) s = .next { v with
    link := { v.link with early := v.link.early ++ [{ peer := n, gtag := m.tag, digest := m.arg0 }] } } := by
  refine congrArg Host.Outcome.next ((onMsg_of_taken hpeer htake _).trans ?_)
  rw [hgroup]

variable (hgroup : v.groupTag m.tag = some g)
include hgroup

theorem groupHello_of_stranger (hranks : g.ranksOf n = []) : exec (.groupHello port) s = .next v := by
  refine congrArg Host.Outcome.next ((onMsg_of_taken hpeer htake _).trans ?_)
  rw [hgroup]
  exact if_pos (List.isEmpty_iff.2 hranks)

theorem groupHello_of_member (hranks : g.ranksOf n ≠ []) : exec (.groupHello port) s = .next (v.greet g n m.arg0) := by
  refine congrArg Host.Outcome.next ((onMsg_of_taken hpeer htake _).trans ?_)
  rw [hgroup]
  exact if_neg (mt List.isEmpty_iff.1 hranks)

end

theorem greet_of_mismatch {digest : Nat} (h : digest ≠ rd g.digest 0 8) : s.greet g n digest = s.endGroupCmd g 0x0408 := if_neg h

/-- A member whose digest matches has greeted the group. -/
theorem groupTag_greet {digest : Nat} (hgroup : s.groupTag tag = some g) (h : digest = rd g.digest 0 8) :
    ∃ x, (s.greet g n digest).groupTag tag = some x ∧ x.hellos = g.hellos ++ g.ranksOf n ∧ x.members = g.members := by
  rw [State.greet, if_pos h, gtag_of_groupTag hgroup]
  exact groupTag_readyGroup (groupTag_updGroup (f := fun g => { g with hellos := g.hellos ++ g.ranksOf n }) (fun _ => rfl) hgroup)

section
variable (hpeer : s.portPeer port = some n) (htake : s.takeMsg port 0x03 = some (m, v)) (hgroup : v.groupTag m.tag = some g)
include hpeer htake hgroup

theorem peerNote_of_stranger (hrank : g.members[bitsOf m.arg0 23 16]? ≠ some (some n)) : exec (.peerNote port) s = .next v := by
  refine congrArg Host.Outcome.next ((onMsg_of_taken hpeer htake _).trans ?_)
  rw [hgroup]
  exact if_pos hrank

theorem peerNote_of_member (hrank : g.members[bitsOf m.arg0 23 16]? = some (some n)) : exec (.peerNote port) s =
    .next ((v.updGroup g.gtag fun g => { g with broken := true }).failGroup g.gtag 0x0405) := by
  refine congrArg Host.Outcome.next ((onMsg_of_taken hpeer htake _).trans ?_)
  rw [hgroup]
  exact if_neg (not_not_intro hrank)

end

/-- Without a collective of its own in the engine a group that fails is left as it is. -/
theorem failGroup_of_idle (h : ∀ x ∈ s.link.colls, x.gtag ≠ tag) (code : Nat) : s.failGroup tag code = s := by
  rw [State.failGroup, List.filter_eq_nil_iff.2 (by simpa using h), List.foldl_nil]

theorem groupTag_breakGroup (hgroup : s.groupTag tag = some g) (hidle : ∀ x ∈ s.link.colls, x.gtag ≠ g.gtag) (code : Nat) :
    ((s.updGroup g.gtag fun g => { g with broken := true }).failGroup g.gtag code).groupTag tag = some { g with broken := true } := by
  obtain rfl := gtag_of_groupTag hgroup
  rw [failGroup_of_idle (s := s.updGroup g.gtag fun g => { g with broken := true }) hidle]
  exact groupTag_updGroup (f := fun g => { g with broken := true }) (fun _ => rfl) hgroup

end

/-! ## COLL_DATA (R255, R257, R259) -/

section
variable {s v : State} {port : PortIx} {n : Nat} {m : LinkMsg} {g : Group} {x : Coll}

/-- Taking a message changes its port alone. -/
theorem takeMsg_eq {p ty : Nat} (h : s.takeMsg p ty = some (m, v)) : ∃ f, v = s.updPort p f := by
  unfold State.takeMsg at h
  split at h
  · cases h
  · split at h
    · cases h
    · split at h
      · cases h
      · cases h
        exact ⟨_, rfl⟩

theorem takeMsg_waiting {p ty : Nat} (h : s.takeMsg p ty = some (m, v)) : v.link.waiting = s.link.waiting := by
  obtain ⟨f, rfl⟩ := takeMsg_eq h
  rfl

/-- Data that wait for a request. -/
def State.putWaiting (s : State) (n : Nat) (m : LinkMsg) : State := { s with link := { s.link with waiting := s.link.waiting ++ [(n, m)] } }

/-- The bytes of the data that wait. -/
def State.waitingBytes (s : State) : Nat := (s.link.waiting.map fun w => w.2.payload.length).sum

theorem waitingBytes_putWaiting (s : State) (n : Nat) (m : LinkMsg) :
    (s.putWaiting n m).waitingBytes = s.waitingBytes + m.payload.length := by
  simp only [State.waitingBytes, State.putWaiting, List.map_append, List.sum_append, List.map_cons, List.map_nil, List.sum_cons,
    List.sum_nil, Nat.add_zero]

/-- The request that data of a group are for, if it is in the engine. -/
def State.requestOf (s : State) (g : Group) (m : LinkMsg) : Option Coll :=
  s.link.colls.find? fun c => decide (c.gtag = g.gtag) && decide (c.k % 2 ^ 32 = m.arg0 % 2 ^ 32)

/-- May a request that is not in the engine still come? -/
def Group.awaits (g : Group) (m : LinkMsg) : Prop := (m.arg0 % 2 ^ 32 + 2 ^ 32 - g.k % 2 ^ 32) % 2 ^ 32 < 2 ^ 31

variable (hpeer : s.portPeer port = some n) (htake : s.takeMsg port 0x01 = some (m, v)) (hgroup : v.groupTag m.tag = some g)
  (hwhole : g.broken = false) (hrank : g.members[bitsOf m.arg0 39 32]? = some (some n))
include hpeer htake hgroup hwhole hrank

/-- Data whose request is yet to come or to start wait while there is room, and stay in the port's buffer otherwise. -/
theorem collData_of_wait (hwait : (v.requestOf g m = none ∧ g.awaits m) ∨
      ∃ x, v.requestOf g m = some x ∧ (x.running = false ∨ x.loaded = false)) :
    exec (.collData port) s = .next (if v.waitingBytes + m.payload.length ≤ 67108864 then v.putWaiting n m else s) := by
  have longer : ¬ (v.putWaiting n m).link.waiting.length ≤ s.link.waiting.length := by
    simp only [State.putWaiting, takeMsg_waiting htake, List.length_append, List.length_singleton]
    omega
  have room : (decide ((v.putWaiting n m).waitingBytes ≤ 67108864) ||
      decide ((v.putWaiting n m).link.waiting.length ≤ s.link.waiting.length)) = true ↔
      v.waitingBytes + m.payload.length ≤ 67108864 := by
    rw [waitingBytes_putWaiting, decide_eq_false longer, Bool.or_false, decide_eq_true_eq]
  have taken : exec (.collData port) s = .next (if (decide ((v.putWaiting n m).waitingBytes ≤ 67108864) ||
      decide ((v.putWaiting n m).link.waiting.length ≤ s.link.waiting.length)) = true then v.putWaiting n m else s) := by
    have unstarted {x : Coll} (h : x.running = false ∨ x.loaded = false) : (x.running && x.loaded) = false :=
      Bool.and_eq_false_iff.2 h
    show execCollData port s = _
    obtain ⟨hnone, hawaits⟩ | ⟨x, hsome, hx⟩ := hwait
    · have hfind : v.link.colls.find? (fun c => decide (c.gtag = g.gtag) && decide (c.k % 2 ^ 32 = m.arg0 % 2 ^ 32)) = none := hnone
      have hlater : (m.arg0 % 2 ^ 32 + 2 ^ 32 - g.k % 2 ^ 32) % 2 ^ 32 < 2 ^ 31 := hawaits
      simp only [execCollData, onMsg_of_taken hpeer htake, hgroup, hrank, hwhole, ne_eq, not_true, decide_false, Bool.or_self,
        Bool.false_eq_true, if_false, hfind, if_pos hlater]
      rfl
    · have hfind : v.link.colls.find? (fun c => decide (c.gtag = g.gtag) && decide (c.k % 2 ^ 32 = m.arg0 % 2 ^ 32)) = some x := hsome
      simp only [execCollData, onMsg_of_taken hpeer htake, hgroup, hrank, hwhole, ne_eq, not_true, decide_false, Bool.or_self,
        Bool.false_eq_true, if_false, hfind, unstarted hx]
      rfl
  rw [taken]
  exact congrArg _ (if_congr room rfl rfl)

/-- Data of a request that is over are discarded. -/
theorem collData_of_over (hnone : v.requestOf g m = none) (hover : ¬ g.awaits m) : exec (.collData port) s = .next v := by
  have hfind : v.link.colls.find? (fun c => decide (c.gtag = g.gtag) && decide (c.k % 2 ^ 32 = m.arg0 % 2 ^ 32)) = none := hnone
  have hearlier : ¬ (m.arg0 % 2 ^ 32 + 2 ^ 32 - g.k % 2 ^ 32) % 2 ^ 32 < 2 ^ 31 := hover
  show execCollData port s = _
  simp only [execCollData, onMsg_of_taken hpeer htake, hgroup, hrank, hwhole, ne_eq, not_true, decide_false, Bool.or_self,
    Bool.false_eq_true, if_false, hfind, if_neg hearlier, takeMsg_waiting htake, le_refl, decide_true, Bool.or_true, if_true]

/-- Data of a request whose input is whole enter it. -/
theorem collData_of_running (hsome : v.requestOf g m = some x) (hrun : x.running = true) (hload : x.loaded = true)
    (hshorter : (v.takeColl x.tile m).link.waiting.length ≤ s.link.waiting.length) :
    exec (.collData port) s = .next (v.takeColl x.tile m) := by
  have hfind : v.link.colls.find? (fun c => decide (c.gtag = g.gtag) && decide (c.k % 2 ^ 32 = m.arg0 % 2 ^ 32)) = some x := hsome
  show execCollData port s = _
  simp only [execCollData, onMsg_of_taken hpeer htake, hgroup, hrank, hwhole, ne_eq, not_true, decide_false, Bool.or_self,
    Bool.false_eq_true, if_false, hfind, hrun, hload, Bool.and_self, if_true, hshorter, decide_true, Bool.or_true]

end

/-! ## Requests (R254, R257) -/

section
variable {c d : Coll} (h : c.words = d.words)
include h

theorem fmt_of_words : c.fmt = d.fmt := by rw [Coll.fmt, Coll.fmtCode, h, Coll.fmt, Coll.fmtCode]

theorem op_of_words : c.op = d.op := by rw [Coll.op, h, Coll.op]

theorem count_of_words : c.count = d.count := by rw [Coll.count, h, Coll.count]

theorem outFmt_of_words : c.outFmt = d.outFmt := by
  rw [Coll.outFmt, op_of_words h, fmt_of_words h, Coll.vote, h, Coll.outFmt, Coll.vote]

theorem outCount_of_words (n : Nat) : c.outCount n = d.outCount n := by
  rw [Coll.outCount, op_of_words h, count_of_words h, Coll.outCount]

end

section
variable {s v : State} {t : TileIx} {m : NetMsg} {p : Nat} {g : Group} {w : List Nat}

/-- A request as it enters the engine. -/
def State.newColl (s : State) (t ep p : Nat) (g : Group) (w : List Nat) : Coll :=
  let ins := s.crossStreams p (bitsOf (w.getD 0 0) 22 17) false
  let outs := s.crossStreams p (bitsOf (w.getD 0 0) 28 23) true
  { tile := t, ep := ep, part := p, gtag := g.gtag, k := g.k, words := w,
    src := ins.getD (s.free ins.length) (0, 0), dst := (outs.getD (s.free outs.length) (0, 0)).1, running := false,
    input := [], loaded := false, slice := [], got0 := [], got1 := [], els := [], raw := [], sat := false,
    nan := false, reduced := false }

/-- The request waits in the engine, and its group counts it. -/
def State.joinEngine (s : State) (c : Coll) (g : Group) : State :=
  let u := s.tick.updGroup g.gtag fun g => { g with k := g.k + 1 }
  { u with link := { u.link with colls := u.link.colls ++ [c] } }.showColl

/-- Prism's code for the input of a request, or 0. -/
def State.inputCode (s : State) (p : Nat) (w : List Nat) (c : Coll) : Nat :=
  if bit (w.getD 0 0) 15 then 0 else s.rangeCode p false (w.getD 2 0) (vBytes c.fmt c.count)

/-- Prism's code for its output, or 0. -/
def State.outputCode (s : State) (p : Nat) (w : List Nat) (n : Nat) (c : Coll) : Nat :=
  if bit (w.getD 0 0) 16 then 0 else s.rangeCode p true (w.getD 3 0) (vBytes c.outFmt (c.outCount n))

theorem inputCode_of_words {c d : Coll} (h : c.words = d.words) : s.inputCode p w c = s.inputCode p w d := by
  rw [State.inputCode, fmt_of_words h, count_of_words h, State.inputCode]

theorem outputCode_of_words {c d : Coll} (h : c.words = d.words) (n : Nat) : s.outputCode p w n c = s.outputCode p w n d := by
  rw [State.outputCode, outFmt_of_words h, outCount_of_words h, State.outputCode]

/-- Does a request take its input from, or give its output to, a crossing that no stream of its partition uses? -/
def State.noStream (s : State) (p : Nat) (w : List Nat) : Bool :=
  (bit (w.getD 0 0) 15 && (s.crossStreams p (bitsOf (w.getD 0 0) 22 17) false).isEmpty) ||
    (bit (w.getD 0 0) 16 && (s.crossStreams p (bitsOf (w.getD 0 0) 28 23) true).isEmpty)

/-- The words of a request. -/
def NetMsg.collWords (m : NetMsg) : List Nat := (List.range 4).map fun j => (m.words.getD j 0).toNat

variable (htake : s.takeRequest t 3 = some (m, v)) (hpart : s.partOf t = some p)
include htake hpart

theorem collectiveReq_of_unknown (hgroup : v.groupOf (v.part p).ctx (bitsOf (m.collWords.getD 0 0) 14 11) = none) :
    exec (.collectiveReq t) s = .next (v.refuseColl t m.srcEp 0x040A 0) := by
  show execCollectiveReq t s = _
  simp only [NetMsg.collWords] at hgroup
  simp only [execCollectiveReq, htake, hpart, hgroup]

variable (hgroup : v.groupOf (v.part p).ctx (bitsOf (m.collWords.getD 0 0) 14 11) = some g)
include hgroup

theorem collectiveReq_of_broken (hbroken : g.broken = true) :
    exec (.collectiveReq t) s = .next (v.refuseColl t m.srcEp 0x0405 g.k) := by
  show execCollectiveReq t s = _
  simp only [NetMsg.collWords] at hgroup
  simp only [execCollectiveReq, htake, hpart, hgroup, hbroken, if_true]

variable (hwhole : g.broken = false)
include hwhole

theorem collectiveReq_of_unready (h : g.ready = false ∨ collForm m.collWords g.members.length = false) :
    exec (.collectiveReq t) s = .next (v.refuseColl t m.srcEp 0x040A g.k) := by
  have unready : (!g.ready || !collForm m.collWords g.members.length) = true := by simpa using h
  show execCollectiveReq t s = _
  simp only [NetMsg.collWords] at hgroup unready
  simp only [execCollectiveReq, htake, hpart, hgroup, hwhole, unready, Bool.false_eq_true, if_false, if_true]

/-- A request in order of a ready group is refused for its memory or its streams, or joins the engine. -/
theorem collectiveReq_of_formed (hready : g.ready = true) (hform : collForm m.collWords g.members.length = true) {c : Coll}
    (hc : c.words = m.collWords) : exec (.collectiveReq t) s = .next (
      if v.inputCode p m.collWords c ≠ 0 then v.refuseColl t m.srcEp (v.inputCode p m.collWords c) g.k
      else if v.outputCode p m.collWords g.members.length c ≠ 0 then
        v.refuseColl t m.srcEp (v.outputCode p m.collWords g.members.length c) g.k
      else if v.noStream p m.collWords then v.refuseColl t m.srcEp 0x0302 g.k
      else v.joinEngine (v.newColl t m.srcEp p g m.collWords) g) := by
  have hnew : c.words = (v.newColl t m.srcEp p g m.collWords).words := hc
  rw [inputCode_of_words hnew, outputCode_of_words hnew]
  show execCollectiveReq t s = _
  simp only [NetMsg.collWords] at hgroup hform
  simp only [execCollectiveReq, htake, hpart, hgroup, hwhole, hready, hform, Bool.not_true, Bool.or_self, Bool.false_eq_true, if_false]
  rfl

end

section
variable {s v : State} {t : TileIx} {m : NetMsg} {p : Nat} {g : Group} {w : List Nat} {c : Coll}

theorem noStream_iff : v.noStream p w = true ↔
    (bit (w.getD 0 0) 15 = true ∧ v.crossStreams p (bitsOf (w.getD 0 0) 22 17) false = []) ∨
      (bit (w.getD 0 0) 16 = true ∧ v.crossStreams p (bitsOf (w.getD 0 0) 28 23) true = []) := by
  simp only [State.noStream, Bool.or_eq_true, Bool.and_eq_true, List.isEmpty_iff]

variable (htake : s.takeRequest t 3 = some (m, v)) (hpart : s.partOf t = some p)
  (hgroup : v.groupOf (v.part p).ctx (bitsOf (m.collWords.getD 0 0) 14 11) = some g) (hwhole : g.broken = false)
  (hready : g.ready = true) (hform : collForm m.collWords g.members.length = true) (hc : c.words = m.collWords)
include htake hpart hgroup hwhole hready hform hc

theorem collectiveReq_of_input (h : v.inputCode p m.collWords c ≠ 0) :
    exec (.collectiveReq t) s = .next (v.refuseColl t m.srcEp (v.inputCode p m.collWords c) g.k) := by
  rw [collectiveReq_of_formed htake hpart hgroup hwhole hready hform hc, if_pos h]

variable (hin : v.inputCode p m.collWords c = 0)
include hin

theorem collectiveReq_of_output (h : v.outputCode p m.collWords g.members.length c ≠ 0) :
    exec (.collectiveReq t) s = .next (v.refuseColl t m.srcEp (v.outputCode p m.collWords g.members.length c) g.k) := by
  rw [collectiveReq_of_formed htake hpart hgroup hwhole hready hform hc, if_neg (not_not_intro hin), if_pos h]

variable (hout : v.outputCode p m.collWords g.members.length c = 0)
include hout

theorem collectiveReq_of_noStream (h : v.noStream p m.collWords = true) :
    exec (.collectiveReq t) s = .next (v.refuseColl t m.srcEp 0x0302 g.k) := by
  rw [collectiveReq_of_formed htake hpart hgroup hwhole hready hform hc, if_neg (not_not_intro hin), if_neg (not_not_intro hout),
    if_pos h]

theorem collectiveReq_of_good (h : ¬ v.noStream p m.collWords = true) :
    exec (.collectiveReq t) s = .next (v.joinEngine (v.newColl t m.srcEp p g m.collWords) g) := by
  rw [collectiveReq_of_formed htake hpart hgroup hwhole hready hform hc, if_neg (not_not_intro hin), if_neg (not_not_intro hout),
    if_neg h]

end

/-! ## The engine (R256, R257) -/

section
variable {s v : State} {c : Coll} {e : Nat} {b : Bytes}

/-- A collective takes a free place of the engine. -/
def State.startColl (s : State) (c : Coll) : State := (s.updColl c.tile fun d => { d with running := true }).showColl

theorem collectiveStart_of_none (h : s.link.colls.find? (fun c => !c.running) = none) : exec .collectiveStart s = .next s := by
  show execCollectiveStart s = _
  simp only [execCollectiveStart, h]

theorem collectiveStart_of_full (h : 64 ≤ (s.link.colls.filter (·.running)).length) : exec .collectiveStart s = .next s := by
  show execCollectiveStart s = _
  simp only [execCollectiveStart, if_pos h]
  split <;> rfl

section
variable (hroom : (s.link.colls.filter (·.running)).length < 64) (hfind : s.link.colls.find? (fun c => !c.running) = some c)
include hroom hfind

theorem collectiveStart_of_stream (hstream : bit (c.words.getD 0 0) 15 = true) :
    exec .collectiveStart s = .next ((s.startColl c).feedColl c.tile) := by
  show execCollectiveStart s = _
  simp only [execCollectiveStart, hfind, if_neg (Nat.not_le.2 hroom), hstream, if_true]
  rfl

variable (hmem : bit (c.words.getD 0 0) 15 = false)
include hmem

theorem collectiveStart_of_unread (hread : (s.startColl c).readMem c.part 0 ((s.startColl c).part c.part).uses (c.words.getD 2 0)
    (vBytes c.fmt c.count) = (v, .error e)) : exec .collectiveStart s = .next (v.failColl c e) := by
  show execCollectiveStart s = _
  simp only [State.startColl] at hread
  simp only [execCollectiveStart, hfind, if_neg (Nat.not_le.2 hroom), hmem, Bool.false_eq_true, if_false, hread]

theorem collectiveStart_of_read (hread : (s.startColl c).readMem c.part 0 ((s.startColl c).part c.part).uses (c.words.getD 2 0)
    (vBytes c.fmt c.count) = (v, .ok b)) : exec .collectiveStart s = .next (v.loadColl c.tile b) := by
  show execCollectiveStart s = _
  simp only [State.startColl] at hread
  simp only [execCollectiveStart, hfind, if_neg (Nat.not_le.2 hroom), hmem, Bool.false_eq_true, if_false, hread]

end

/-! ## COLL_TIMEOUT (R253, R255) -/

theorem collTimeout_of_queue {q : QueueIx} {c : HubCmd} (h : s.qHead q = some c) : exec (.collTimeout (.inl q)) s =
    .next (if c.op = 0x14 ∧ c.stage = .running then s.endCmd q 0x0407 else s) := by
  show execCollTimeout (.inl q) s = _
  simp only [execCollTimeout, h, Bool.and_eq_true, decide_eq_true_eq]

/-- Has every member that a collective waits for made its request? -/
def State.allSeen (s : State) (c : Coll) (g : Group) : Prop :=
  ∀ m ∈ g.others, (c.op = 3 → m.2 = c.root ∧ g.rank ≠ c.root) → s.collSeen c m.2 = true

theorem allSeen_iff {g : Group} : s.allSeen c g ↔ ((g.others.filter fun m =>
    decide (c.op ≠ 3) || (decide (m.2 = c.root) && decide (g.rank ≠ c.root))).all fun m => s.collSeen c m.2) = true := by
  simp only [State.allSeen, List.all_eq_true, List.mem_filter, Bool.or_eq_true, Bool.and_eq_true, decide_eq_true_eq, and_imp,
    ne_eq, ← imp_iff_not_or]

section
variable {t : TileIx} {g : Group} (hcoll : s.collOf t = some c) (hgroup : s.groupTag c.gtag = some g)
include hcoll hgroup

theorem collTimeout_of_seen (h : s.allSeen c g) : exec (.collTimeout (.inr t)) s = .next s := by
  have hseen := allSeen_iff.1 h
  show execCollTimeout (.inr t) s = _
  simp only [execCollTimeout, hcoll, hgroup, hseen, if_true]

theorem collTimeout_of_unseen (h : ¬ s.allSeen c g) : exec (.collTimeout (.inr t)) s = .next (s.failColl c 0x0407) := by
  have hseen := mt allSeen_iff.2 h
  show execCollTimeout (.inr t) s = _
  simp only [execCollTimeout, hcoll, hgroup, Bool.eq_false_iff.2 hseen, Bool.false_eq_true, if_false]

end

end

/-- Settles O53: COLL_GROUP, FREE and the messages of a group by the group they find, a request by the checks in their order, the
engine by its places, its waiting requests and the members it has heard from. -/
theorem collectiveGroupsAndRequests : Obligations.CollectiveGroupsAndRequests := by
  unfold Obligations.CollectiveGroupsAndRequests
  refine ⟨fun s v q c hlook hbound => ⟨fun hcmd => ⟨fun h => ?_, fun hnew hflags hlo hhi haddr halign => ?_⟩, fun hcmd => ?_⟩,
    fun s v port n m hpeer => ⟨fun htake => ⟨fun hgroup => ?_, fun g hgroup => ?_⟩, fun htake g hgroup => ?_,
      fun htake g hgroup hwhole hrank => ⟨fun hnone => ?_, fun x _ hfind => ?_⟩⟩,
    fun s v t m p htake hpart => ⟨fun hgroup => ?_, fun g hgroup => ⟨fun hbroken => ?_, fun hwhole h => ?_,
      fun hwhole hready hform c hc => ?_⟩⟩,
    fun s => ⟨fun hall => ?_, collectiveStart_of_full, fun c hroom hfind => ?_, fun q c hhead => collTimeout_of_queue hhead,
      fun t c g hcoll hgroup => ⟨collTimeout_of_seen hcoll hgroup, collTimeout_of_unseen hcoll hgroup⟩⟩⟩
  · refine collGroup_of_refused hcmd hlook hbound fun hmay => ?_
    obtain ⟨hnew, -, hlo, hhi, -⟩ := hmay
    rcases h with hold | hsmall | hlarge
    · exact hold hnew
    · exact absurd hlo (Nat.not_le.2 hsmall)
    · exact absurd hhi (Nat.not_le.2 hlarge)
  · have hmay : v.mayDefine (v.qCtx q) c := ⟨hnew, hflags, hlo, hhi, haddr, halign⟩
    refine ⟨fun w e hread => collGroup_of_unread hcmd hlook hbound hmay hread, fun w b hread => ?_⟩
    have h := collGroup_of_read hcmd hlook hbound hmay hread
    exact ⟨fun hbad => h.trans (congrArg _ (if_neg (Bool.eq_false_iff.1 hbad))),
      fun hgood => ⟨_, h.trans (congrArg _ (if_pos hgood)), exists_group_defineGroup ..⟩⟩
  · refine ⟨fun hgroup => collGroupFree_of_unknown hcmd hlook hbound hgroup, fun g hgroup hflags htag hlist =>
      ⟨fun hwhole huse => ?_, fun hidle => collGroupFree_of_idle hcmd hlook hbound hgroup hflags htag hlist hidle⟩⟩
    exact (collGroupFree_of_known hcmd hlook hbound hgroup hflags htag hlist).trans (congrArg _ (if_pos ⟨hwhole, huse⟩))
  · exact groupHello_of_early hpeer htake hgroup
  · refine ⟨fun hranks => groupHello_of_stranger hpeer htake hgroup hranks, fun hranks hdigest => ?_, fun hranks hdigest => ?_⟩
    · exact (groupHello_of_member hpeer htake hgroup hranks).trans (congrArg _ (greet_of_mismatch hdigest))
    · obtain ⟨x, hx⟩ := groupTag_greet (n := n) hgroup hdigest
      exact ⟨_, x, groupHello_of_member hpeer htake hgroup hranks, hx⟩
  · exact ⟨fun hrank => peerNote_of_stranger hpeer htake hgroup hrank, fun hrank =>
      ⟨peerNote_of_member hpeer htake hgroup hrank, fun hidle =>
        ⟨_, peerNote_of_member hpeer htake hgroup hrank, groupTag_breakGroup hgroup hidle _⟩⟩⟩
  · have hreq : v.requestOf g m = none := List.find?_eq_none.2 fun x hx => by simpa using hnone x hx
    refine ⟨fun hawaits => ?_, fun hover _ => collData_of_over hpeer htake hgroup hwhole hrank hreq (Nat.not_lt.2 hover)⟩
    have h := collData_of_wait hpeer htake hgroup hwhole hrank (.inl ⟨hreq, hawaits⟩)
    exact ⟨fun hroom => h.trans (congrArg _ (if_pos hroom)), fun hfull => h.trans (congrArg _ (if_neg hfull))⟩
  · refine ⟨fun hidle => ?_, fun hrun hload hshorter =>
      collData_of_running hpeer htake hgroup hwhole hrank hfind hrun hload hshorter⟩
    have h := collData_of_wait hpeer htake hgroup hwhole hrank (.inr ⟨x, hfind, hidle⟩)
    exact ⟨fun hroom => h.trans (congrArg _ (if_pos hroom)), fun hfull => h.trans (congrArg _ (if_neg hfull))⟩
  · exact collectiveReq_of_unknown htake hpart hgroup
  · exact collectiveReq_of_broken htake hpart hgroup hbroken
  · exact collectiveReq_of_unready htake hpart hgroup hwhole h
  · refine ⟨fun hin => collectiveReq_of_input htake hpart hgroup hwhole hready hform hc hin,
      fun hin hout => collectiveReq_of_output htake hpart hgroup hwhole hready hform hc hin hout,
      fun hin hout h => collectiveReq_of_noStream htake hpart hgroup hwhole hready hform hc hin hout (noStream_iff.2 h),
      fun hin hout hins houts => ⟨_, _, collectiveReq_of_good htake hpart hgroup hwhole hready hform hc hin hout ?_,
        rfl, rfl, rfl, rfl, rfl, rfl, rfl, rfl, rfl⟩⟩
    exact fun hnone => (noStream_iff.1 hnone).elim (fun h => hins h.1 h.2) fun h => houts h.1 h.2
  · exact collectiveStart_of_none (List.find?_eq_none.2 fun c hc => by simp [hall c hc])
  · exact ⟨s.startColl c, rfl, rfl, rfl, fun hstream => collectiveStart_of_stream hroom hfind hstream, fun hmem =>
      ⟨fun x e hread => collectiveStart_of_unread hroom hfind hmem hread,
        fun x b hread => collectiveStart_of_read hroom hfind hmem hread⟩⟩

end Sys2Proof.Machine
end

section
/-!
PROOFS. MIGRATE: its start, its end on a path that is down, and its end once the copy is done (11_memory_tiers_and_weights.md R267 to
R270).
-/

namespace Sys2Proof.Machine

/-! ## The end of a command (15_shared_objects_and_submission.md R363) -/

@[simp] theorem grid_endCmd (s : State) (q code : Nat) : (s.endCmd q code).grid = s.grid := (grid_setF ..).trans (grid_updHead ..)

theorem endCmd_prism (s : State) (q code : Nat) : (s.endCmd q code).prism = s.prism := by
  rw [State.endCmd, setF_prism, updHead_eq]

/-! ## The start (R267, R268 steps 1 and 2) -/

/-- A MIGRATE has started: its region joins those that migrate. -/
def State.migrateBegun (s : State) (q p n : Nat) : State :=
  ((s.beginCmd q).updHead q fun c => { c with phase := 2 }).updPart p fun x => { x with migrating := x.migrating ++ [n] }

theorem migrateBegun_part (s : State) (q p n : Nat) :
    (s.migrateBegun q p n).part p = { s.part p with migrating := (s.part p).migrating ++ [n] } := by
  rw [State.migrateBegun, part_updPart_same, part_of_grid (grid_before_step ..)]

theorem migrateBegun_mem (s : State) (q p n : Nat) : (s.migrateBegun q p n).mem = s.mem := by
  rw [State.migrateBegun, updPart_mem, mem_of_grid (grid_before_step ..)]

theorem qCmds_migrateBegun {s : State} {q : Nat} {c : HubCmd} {rest : List HubCmd} (h : s.qCmds q = c :: rest) (p n : Nat) :
    (s.migrateBegun q p n).qCmds q = { c with stage := .running, phase := 2 } :: rest := qCmds_updHead _ (qCmds_beginCmd h)

section
variable {s v : State} {q : QueueIx} {c : HubCmd} {p : Nat} (hlook : s.lookStart q 0x12 = (v, .go c))
  (hbound : v.boundPart (v.qCtx q) = some p)
include hlook hbound

/-- A check that fails at the first look ends the command. -/
theorem migrateCmd_of_refused {e : Nat} (hphase : c.phase ≠ 1) (hcheck : v.migCheck p c = .error e) :
    exec (.migrateCmd q) s = .next (v.endCmd q e) := by
  refine congrArg Host.Outcome.next ((tryStart_of_go hlook _).trans ?_)
  simp only [hbound, if_neg hphase, hcheck, Except.map]

/-- One that is accepted, now or at an earlier look, starts once nothing holds it back. -/
theorem migrateCmd_of_accepted (haccept : c.phase = 1 ∨ (v.migCheck p c).isOk = true) (hheld : v.moveHeld p = false)
    (hfree : (migOp c).1 ∉ (v.part p).migrating) (hearlier : v.earlierLoad p c.arrived = false) :
    exec (.migrateCmd q) s = .next (v.migrateBegun q p (migOp c).1) := by
  have accepted : (if c.phase = 1 then .ok () else (v.migCheck p c).map fun _ => ()) = (.ok () : Except Nat Unit) := by
    split
    · rfl
    · next hphase =>
      have hok := haccept.resolve_left hphase
      cases hcheck : v.migCheck p c with
      | ok r => rfl
      | error e => rw [hcheck] at hok; cases hok
  have not_migrating : (v.part p).migrating.contains (migOp c).1 = false := by simpa using hfree
  refine congrArg Host.Outcome.next ((tryStart_of_go hlook _).trans ?_)
  simp only [hbound, accepted, hheld, not_migrating, hearlier, Bool.or_self, Bool.false_eq_true, if_false]
  rfl

end

/-! ## The end (R268 steps 3 to 5, R269, R270) -/

/-- A leaf that enters a tree changes the trees alone. -/
theorem enterLeaf_eq (s : State) (c sec : Nat) : s.enterLeaf c sec = { s with prism := (s.enterLeaf c sec).prism } := by
  unfold State.enterLeaf State.settle
  split <;> rfl

/-- So do the leaves of a region that change their trees. -/
theorem moveLeaves_eq (s : State) (p : Nat) (r : Region) : s.moveLeaves p r = { s with prism := (s.moveLeaves p r).prism } := by
  unfold State.moveLeaves
  refine List.foldlRecOn (motive := fun t : State => t = { s with prism := t.prism }) _ _ rfl fun t ht e _ => ?_
  rw [enterLeaf_eq, ht]

/-- The region `r` no longer migrates and is placed as `r'` says, its leaves with it. -/
def State.migrated (s : State) (p : Nat) (r r' : Region) : State :=
  ((s.settleRegion p r.region).updPart p fun x => { x with image := { x.image with plan := replacePlan x.image.plan r' } }).moveLeaves p r'

section
variable (s : State) (p : Nat) (r r' : Region)

theorem settleRegion_part : (s.settleRegion p r.region).part p =
    { s.part p with migrating := (s.part p).migrating.filter fun n => n ≠ r.region } := part_updPart_same ..

theorem migrated_mem : (s.migrated p r r').mem = s.mem := by rw [State.migrated, moveLeaves_eq]; rfl
theorem migrated_tiles : (s.migrated p r r').tiles = s.tiles := by rw [State.migrated, moveLeaves_eq]; rfl

theorem qCmds_migrated (q : Nat) : (s.migrated p r r').qCmds q = s.qCmds q := by rw [State.migrated, moveLeaves_eq]; rfl

theorem migrated_parts : (s.migrated p r r').parts = ((s.settleRegion p r.region).updPart p fun x =>
    { x with image := { x.image with plan := replacePlan x.image.plan r' } }).parts := by rw [State.migrated, moveLeaves_eq]

theorem migrated_part : (s.migrated p r r').part p = { s.part p with
    migrating := (s.part p).migrating.filter fun n => n ≠ r.region,
    image := { (s.part p).image with plan := replacePlan (s.part p).image.plan r' } } := by
  rw [State.part, migrated_parts]
  refine (part_updPart_same ..).trans ?_
  rw [settleRegion_part]

theorem migrated_part_other {k : Nat} (h : k ≠ p) : (s.migrated p r r').part k = s.part k := by
  rw [State.part, migrated_parts]
  exact (part_updPart_other _ _ _ _ h).trans (part_updPart_other _ _ _ _ h)

end

section
variable {s : State} {q : QueueIx} {c : HubCmd} {p : Nat} {r : Region} (hhead : s.qHead q = some c)
  (hbound : s.boundPart (s.qCtx q) = some p) (hop : c.op = 0x12) (hrun : c.stage = .running)
  (hregion : (s.part p).image.region (migOp c).1 = some r)
include hhead hbound hop hrun hregion

/-- A copy whose path is down leaves the region at its source. -/
theorem migrateComplete_of_down (hdown : (s.migrateNeeds p c).any s.edgeDown = true) (met : List (Word × LineFault)) :
    exec (.migrateComplete q met) s = .next ((s.settleRegion p r.region).endCmd q 0x0304) := by
  show execMigrateComplete q met s = _
  simp only [execMigrateComplete, hhead, hbound, hop, hrun, hregion, hdown, decide_true, Bool.and_self, Bool.not_true,
    Bool.false_eq_true, if_false, if_true]

/-- A copy that meets nothing ends with code 0. -/
theorem migrateComplete_of_clean (hup : (s.migrateNeeds p c).any s.edgeDown = false) : exec (.migrateComplete q []) s =
    .next ((s.migrated p r { r with tier := (migOp c).2.1, ctrlMask := (migOp c).2.2 }).endCmd q 0) := by
  show execMigrateComplete q [] s = _
  simp only [execMigrateComplete, hhead, hbound, hop, hrun, hregion, hup, decide_true, Bool.and_self, Bool.not_true,
    Bool.false_eq_true, if_false, List.filter_nil, List.map_nil, List.foldl_nil, List.find?_nil, Option.getD_none]
  rfl

end

/-- Settles O32: a MIGRATE is refused or starts (`migrateCmd_of_refused`, `migrateCmd_of_accepted`), and its copy ends on a path that
is down (`migrateComplete_of_down`) or with the region at its new place (`migrateComplete_of_clean`, `migrated_part`). -/
theorem regionMigration : Obligations.RegionMigration := by
  refine ⟨fun s v q c p hlook hbound => ⟨fun e hphase hcheck => migrateCmd_of_refused hlook hbound hphase hcheck,
      fun rest haccept hheld hfree hearlier hcmds => ?starts⟩,
    fun s q c rest p r hcmds hbound hop hrun hregion hdown met => ?down,
    fun s q c rest p r hcmds hbound hop hrun hregion hup => ?done⟩
  case starts =>
    refine ⟨_, migrateCmd_of_accepted hlook hbound haccept hheld hfree hearlier, ?_, ?_, qCmds_migrateBegun hcmds ..,
      migrateBegun_mem ..⟩
    · rw [migrateBegun_part]
    · rw [migrateBegun_part]
  case down =>
    refine ⟨_, migrateComplete_of_down (qHead_of_qCmds hcmds) hbound hop hrun hregion hdown met, endCmd_mem .., endCmd_prism .., ?_, ?_,
      qCmds_endCmd _ hcmds⟩
    · rw [part_of_grid (grid_endCmd ..), settleRegion_part]
    · rw [part_of_grid (grid_endCmd ..), settleRegion_part]
  case done =>
    intro x
    refine ⟨_, migrateComplete_of_clean (qHead_of_qCmds hcmds) hbound hop hrun hregion hup, ?_, ?_, ?_, ?_, fun k hk => ?_,
      qCmds_endCmd _ ((qCmds_migrated ..).trans hcmds)⟩
    · rw [endCmd_mem, migrated_mem]
    · rw [tiles_of_grid (grid_endCmd ..), migrated_tiles]
    · rw [part_of_grid (grid_endCmd ..), migrated_part]
      rfl
    · rw [part_of_grid (grid_endCmd ..), migrated_part]
    · rw [part_of_grid (grid_endCmd ..), migrated_part_other _ _ _ _ hk]

end Sys2Proof.Machine
end

section
/-!
PROOFS. Beacon: the start of a BEACON_LOAD, the answers of its holders and of this module as one, and a refetch that starts
(11_memory_tiers_and_weights.md R273 to R278, R280).
-/

namespace Sys2Proof.Machine

/-! ## BEACON_LOAD asks for the index (R275, R276 steps 1 and 2) -/

/-- A look that says go gives a command of the OP it looked for. -/
theorem op_of_lookStart {s v : State} {q op : Nat} {c : HubCmd} (h : s.lookStart q op = (v, .go c)) : c.op = op := by
  unfold State.lookStart at h
  split at h
  · cases h
  · next d _ =>
    split at h
    · cases h
    · next hgo =>
      simp only [ne_eq, Bool.or_eq_true, decide_eq_true_eq, not_or, not_not] at hgo
      obtain ⟨⟨⟨hop, -⟩, -⟩, -⟩ := hgo
      split at h
      next y w hwait =>
      cases w with
      | none => cases h
      | wait => cases h
      | fail e => cases h
      | go e =>
        have same : e = d := by
          split at hwait
          · cases hwait; rfl
          · split at hwait
            · cases hwait
            · split_ifs at hwait
              · cases hwait
              · cases hwait; rfl
              · cases hwait
        dsimp only at h
        split at h
        · cases h
          rw [same, hop]
        · cases h

/-- The load with which a BEACON_LOAD begins: nothing asked, nothing read. -/
def HubCmd.firstLoad (c : HubCmd) : BeaconLoad :=
  { holders := loadHolders c, pack := leBytes 8 (c.o 1) ++ leBytes 8 (c.o 2), digestRegion := bitsOf (c.o 0) 14 3, skip := [],
    buf := [], dataOff := 0, index := false, shards := [], reqs := [], next := 0, left := [] }

/-- A BEACON_LOAD has started, and shows in the registers. -/
def State.loadBegun (s : State) (q : Nat) (x : BeaconLoad) : State :=
  ((s.beginCmd q).updHead q fun c => { c with phase := 2, load := some x }).showLoads

/-- One that is accepted, now or at an earlier look, starts once nothing holds it back. -/
theorem beaconLoad_of_accepted {s v : State} {q : QueueIx} {c : HubCmd} {p : Nat} (hlook : s.lookStart q 0x13 = (v, .go c))
    (hbound : v.boundPart (v.qCtx q) = some p) (haccept : c.phase = 1 ∨ v.loadOk p c = true)
    (hheld : v.loadHeld p c.arrived = false) :
    exec (.beaconLoad q) s = .next ((v.loadBegun q c.firstLoad).askIndex (.cmd q) 0) := by
  have accepted : (decide (c.phase ≠ 1) && !v.loadOk p c) = false := by
    rcases haccept with h | h
    · simp [h]
    · simp [h]
  refine congrArg Host.Outcome.next ((tryStart_of_go hlook _).trans ?_)
  simp only [hbound, accepted, hheld, Bool.false_eq_true, if_false]
  rfl

section
variable {s : State} {q : Nat} {c : HubCmd} {rest : List HubCmd}

theorem qCmds_loadBegun (h : s.qCmds q = c :: rest) (x : BeaconLoad) :
    (s.loadBegun q x).qCmds q = { c with stage := .running, phase := 2, load := some x } :: rest := by
  rw [State.qCmds, State.loadBegun, State.showLoads, set_hub]
  exact qCmds_updHead _ (qCmds_beginCmd h)

theorem loadBegun_mem (s : State) (q : Nat) (x : BeaconLoad) : (s.loadBegun q x).mem = s.mem := by
  rw [State.loadBegun, State.showLoads, set_mem, mem_of_grid (grid_before_step ..)]

theorem loadBegun_link (s : State) (q : Nat) (x : BeaconLoad) : (s.loadBegun q x).link = s.link := by
  rw [State.loadBegun, State.showLoads, set_link, link_updHead, link_beginCmd]

/-- The load of a queue is that of the BEACON_LOAD it runs. -/
theorem loadAt_cmd (h : s.qCmds q = c :: rest) (hop : c.op = 0x13) (hrun : c.stage = .running) : s.loadAt (.cmd q) = c.load := by
  simp only [State.loadAt, qHead_of_qCmds h, hop, hrun, decide_true, Bool.and_self, if_true]

theorem qCmds_updLoad (h : s.qCmds q = c :: rest) (f : BeaconLoad → BeaconLoad) :
    (s.updLoad (.cmd q) f).qCmds q = { c with load := c.load.map f } :: rest := qCmds_updHead _ h

theorem updLoad_cmd_link (s : State) (q : Nat) (f : BeaconLoad → BeaconLoad) : (s.updLoad (.cmd q) f).link = s.link := link_updHead ..

theorem updLoad_cmd_mem (s : State) (q : Nat) (f : BeaconLoad → BeaconLoad) : (s.updLoad (.cmd q) f).mem = s.mem := updHead_mem ..

end

/-- The first holder of a load that has skipped none may be asked when it lies in the Steward region. -/
theorem nextHolder_of_local {x : BeaconLoad} {a : Nat} (h : x.holders[0]? = some (none, a)) (hskip : x.skip = []) (s : State) :
    s.nextHolder x 0 = some 0 := by
  cases hholders : x.holders with
  | nil =>
    rw [hholders] at h
    cases h
  | cons y rest =>
    rw [hholders, List.getElem?_cons_zero, Option.some_inj] at h
    simp [State.nextHolder, hholders, List.range_succ_eq_map, hskip, h]

/-- A request of a holder in the Steward region is noted, and no message goes out. -/
theorem sendReq_of_local {s : State} {l : LoadAt} {x : BeaconLoad} {shard : Option Nat} {off len h : Nat}
    (hlocal : (x.holders.getD h (none, 0)).1 = none) : s.sendReq l x shard off len h = s.newTag.1.updLoad l fun y =>
      { y with reqs := y.reqs ++ [{ num := s.link.nextTag, shard := shard, off := off, len := len, holder := h }] } := by
  simp only [State.sendReq, hlocal]
  rfl

/-- The first part of the index, one unit, is asked of the first holder. -/
theorem askIndex_of_local {s : State} {l : LoadAt} {x : BeaconLoad} {a : Nat} (hload : s.loadAt l = some x)
    (h : x.holders[0]? = some (none, a)) (hskip : x.skip = []) :
    s.askIndex l 0 = (s.updLoad l fun y => { y with buf := [], dataOff := 0, reqs := [] }).sendReq l x none 0 4096 0 := by
  simp only [State.askIndex, hload, nextHolder_of_local h hskip]

/-- A load that begins with a holder in the Steward region has one request outstanding: the first unit of its pack. -/
theorem loadAt_askIndex {s : State} {q : Nat} {c : HubCmd} {rest : List HubCmd} {x : BeaconLoad} {a : Nat}
    (hcmds : s.qCmds q = c :: rest) (hop : c.op = 0x13) (hrun : c.stage = .running) (hload : c.load = some x)
    (h : x.holders[0]? = some (none, a)) (hskip : x.skip = []) :
    (s.askIndex (.cmd q) 0).loadAt (.cmd q) = some { x with
        buf := [], dataOff := 0, reqs := [{ num := s.link.nextTag, shard := none, off := 0, len := 4096, holder := 0 }] } ∧
      (s.askIndex (.cmd q) 0).mem = s.mem := by
  have first : (x.holders.getD 0 (none, 0)).1 = none := by rw [List.getD, h, Option.getD_some]
  rw [askIndex_of_local ((loadAt_cmd hcmds hop hrun).trans hload) h hskip, sendReq_of_local first, updLoad_cmd_link]
  constructor
  · refine (loadAt_cmd (qCmds_updLoad (s := (State.newTag _).1) (qCmds_updLoad hcmds _) _) hop hrun).trans ?_
    rw [hload]
    rfl
  · exact (updLoad_cmd_mem ..).trans (updLoad_cmd_mem ..)

/-! ## The holders of a load (R274, R277) -/

section
variable {s v : State} {num a : Nat} {l : LoadAt} {x : BeaconLoad} {r : ShardReq} (hreq : s.loadOfReq num = some (l, x, r))
include hreq

theorem shardData_of_local {b : Bytes} (hlocal : x.holders.getD r.holder (none, 0) = (none, a))
    (hin : s.inSteward (a + r.off) r.len = true) (hread : s.hubRead (a + r.off) r.len = (v, .ok b)) :
    exec (.shardData none num) s = .next (v.answer num 0 b) := by
  show execShardData none num s = _
  simp only [execShardData, hreq, hlocal, hin, hread, Bool.not_true, Bool.false_eq_true, if_false]

/-- A range that the Steward region does not hold is refused. -/
theorem shardData_of_outside (hlocal : x.holders.getD r.holder (none, 0) = (none, a))
    (hout : s.inSteward (a + r.off) r.len = false) : exec (.shardData none num) s = .next (s.answer num 0x0207 []) := by
  show execShardData none num s = _
  simp only [execShardData, hreq, hlocal, hout, Bool.not_false, if_true]

/-- A holder that does not answer in time is skipped from then on. -/
theorem shardTimeout_of_outstanding : exec (.shardTimeout num) s =
    .next (((s.beaconCount Reg.BEACON_TIMEOUTS).updLoad l fun y => { y with skip := y.skip ++ [r.holder] }).failReq l r) := by
  show execShardTimeout num s = _
  simp only [execShardTimeout, hreq]

end

/-! ## This module as a holder (R273, R274) -/

section
variable {s v : State} {port : PortIx} {n : Nat} {m : LinkMsg} (hpeer : s.portPeer port = some n)
  (htake : s.takeMsg port 0x20 = some (m, v))
include hpeer htake

/-- A range inside a pack of the table is read and sent. -/
theorem shardReq_of_held {x w : State} {a len : Nat} {b : Bytes} (hen : v.get Reg.BEACON_PACK_TABLE_EN = 1)
    (hpack : v.packEntry (fit 16 m.payload) = (x, some (a, len))) (hrange : m.arg0 + m.arg1 ≤ len)
    (hin : x.inSteward (a + m.arg0) m.arg1 = true) (hlow : 0 < m.arg1) (hhigh : m.arg1 ≤ 4194304)
    (hread : x.hubRead (a + m.arg0) m.arg1 = (w, .ok b)) : exec (.shardReq port) s =
      .next ((w.sendMsg n 0x21 m.tag m.arg0 0 b).beaconCount Reg.BEACON_SHARDS_SERVED) := by
  have serves : (decide (len < m.arg0 + m.arg1) || !x.inSteward (a + m.arg0) m.arg1 || decide (m.arg1 = 0) ||
      decide (4194304 < m.arg1)) = false := by
    simp [hin, Nat.not_lt.2 hrange, Nat.pos_iff_ne_zero.1 hlow, Nat.not_lt.2 hhigh]
  refine congrArg Host.Outcome.next ((onMsg_of_taken hpeer htake _).trans ?_)
  simp only [hen, one_ne_zero, if_false, hpack, serves, Bool.false_eq_true, hread]

/-- Without a pack table there is nothing to send. -/
theorem shardReq_of_no_table (hen : v.get Reg.BEACON_PACK_TABLE_EN = 0) :
    exec (.shardReq port) s = .next (v.sendMsg n 0x21 m.tag m.arg0 0x0207 []) := by
  refine congrArg Host.Outcome.next ((onMsg_of_taken hpeer htake _).trans ?_)
  exact if_pos hen

end

/-! ## A refetch (R280) -/

/-- The oldest waiting refetch of a partition starts, with nothing that holds it back. -/
theorem shardRefetch_of_first {s : State} {p : PartIx} {r : Refetch} {rest : List Refetch} (hfirst : s.link.refetch = r :: rest)
    (hpart : r.part = p.val) (hwaits : r.started = false) (hheld : s.loadHeld p r.arrived = false)
    (hloaded : (s.part p).loaded = true) : exec (.shardRefetch p) s =
      .next ({ s with link := { s.link with refetch := { r with started := true } :: rest } }.goOn (.refetch p.val)) := by
  have oldest : firstIdx (fun r : Refetch => r.part = p.val && !r.started) (r :: rest) = some 0 := by
    simp [firstIdx, hpart, hwaits]
  show execShardRefetch p s = _
  simp only [execShardRefetch, hfirst, oldest, List.getElem?_cons_zero, hheld, hloaded, Bool.not_true, Bool.or_self,
    Bool.false_eq_true, if_false]
  rfl

/-- Settles O33: a BEACON_LOAD asks its first holder for the index (`beaconLoad_of_accepted`, `loadAt_askIndex`), its holders answer,
refuse or time out (`shardData_of_local`, `shardData_of_outside`, `shardTimeout_of_outstanding`), a peer's request is served or not
(`shardReq_of_held`, `shardReq_of_no_table`), and a refetch starts (`shardRefetch_of_first`). -/
theorem beaconLoadsAndHolders : Obligations.BeaconLoadsAndHolders := by
  refine ⟨fun s v q c p a rest hlook hbound haccept hheld hholder hcmds => ?load,
    fun s v num a l x r b hreq hlocal => ⟨shardData_of_local hreq hlocal, shardData_of_outside hreq hlocal,
      shardTimeout_of_outstanding hreq⟩,
    fun s v x w port n a len m b hpeer htake => ⟨shardReq_of_held hpeer htake, shardReq_of_no_table hpeer htake⟩,
    fun s p r rest => shardRefetch_of_first⟩
  case load =>
    have hop : c.op = 0x13 := op_of_lookStart hlook
    obtain ⟨hload, hmem⟩ := loadAt_askIndex (qCmds_loadBegun hcmds c.firstLoad) hop rfl rfl hholder rfl
    rw [loadBegun_link] at hload
    exact ⟨_, _, beaconLoad_of_accepted hlook hbound haccept hheld, hload, rfl, rfl, rfl, rfl, rfl, hmem.trans (loadBegun_mem ..)⟩

end Sys2Proof.Machine
end

section
/-!
PROOFS. What an access to memory through Prism, a poisoned line and a notice leave as it was, for any part of the state that does not
look at memory, the counter trees, the fabric, the hub or the registers these write (12_prism_memory_protection.md R286, R292 to R295;
15_shared_objects_and_submission.md R371, R379; 16_reliability_and_integrity.md R389).
-/

namespace Sys2Proof.Machine

/-! ## What stands aside of an access -/

/-- A view of the state that no access sees: it does not look at memory, the counter trees, the fabric, the hub, outputs or free
values, nor at the registers that accesses write, which are those at 0x200000 and above (slots, Prism, memory controllers, notice
ring) and the flits of the edges. -/
structure Aside {γ : Type} (π : State → γ) : Prop where
  store : ∀ (s : State) (fresh : Nat) (out : List Out) (fab : Fabric) (mem : Mem) (prism : Prism) (hub : Hub),
    π { s with fresh := fresh, out := out, fab := fab, mem := mem, prism := prism, hub := hub } = π s
  high : ∀ (s : State) (f : Fld) (i j v : Nat), 0x200000 ≤ f.base → π (s.setF f i j v) = π s
  flits : ∀ (s : State) (ed v : Nat), ed < 8 → π (s.setF Reg.FAB_EDGE_FLITS ed 0 v) = π s

theorem aside_link : Aside State.link := ⟨fun _ _ _ _ _ _ _ => rfl, fun _ _ _ _ _ _ => rfl, fun _ _ _ _ => rfl⟩

/-- A register between the flits of the edges and the slots stands aside. -/
theorem aside_get {g : Fld} (hlow : 0x24080 ≤ g.base) (hhigh : g.base < 0x200000) (hlo : g.lo < 64) : Aside (·.get g) where
  store _ _ _ _ _ _ _ := rfl
  high s f i j v hf := getF_setF_other s f g i j 0 0 v (key_ne_of_base_lt (Nat.lt_of_lt_of_le hhigh hf) hlo i j)
  flits s ed v hed := getF_setF_other s _ g ed 0 0 0 v (by simp only [Fld.key, Reg.FAB_EDGE_FLITS]; omega)

namespace Aside

section
variable {γ : Type} {π : State → γ} (h : Aside π) (s : State)
include h

theorem tick : π s.tick = π s := h.store s (s.fresh + 1) s.out s.fab s.mem s.prism s.hub

theorem emit (o : Out) : π (s.emit o) = π s := h.store s s.fresh (s.out ++ [o]) s.fab s.mem s.prism s.hub

theorem setLine (ln : Nat) (l : Line) (b : Bytes) : π (s.setLine ln l b) = π s :=
  h.store s s.fresh s.out s.fab (s.setLine ln l b).mem s.prism s.hub

theorem setMajor (sec v : Nat) : π (s.setMajor sec v) = π s := h.store s s.fresh s.out s.fab (s.setMajor sec v).mem s.prism s.hub

theorem withPrism (prism : Prism) : π { s with prism := prism } = π s := h.store s s.fresh s.out s.fab s.mem prism s.hub

theorem withHub (hub : Hub) : π { s with hub := hub } = π s := h.store s s.fresh s.out s.fab s.mem s.prism hub

section
variable {f : Fld} (hf : 0x200000 ≤ f.base)
include hf

theorem setF (i j v : Nat) : π (s.setF f i j v) = π s := h.high s f i j v hf
theorem set (v : Nat) : π (s.set f v) = π s := h.high s f 0 0 v hf
theorem addF (i j n : Nat) : π (s.addF f i j n) = π s := h.high s f i j _ hf

theorem prismCount (c n : Nat) : π (s.prismCount f c n) = π s := by
  unfold State.prismCount
  split
  · exact h.addF s hf ..
  · rfl

theorem eccCount (c n : Nat) : π (s.eccCount f c n) = π s := by
  unfold State.eccCount
  split
  · exact h.addF s hf ..
  · rfl

end

/-! ## Lines (12_prism_memory_protection.md R286, R292 to R295; 16_reliability_and_integrity.md R388, R389) -/

theorem noteRefusal (m code c a : Nat) : π (s.noteRefusal m code c a) = π s := by
  unfold State.noteRefusal
  extract_lets t
  have ht : π t = π s := by
    unfold t
    split_ifs
    · exact h.set s (by decide) 1
    · exact h.set s (by decide) 1
    · rfl
    · exact h.set s (by decide) 1
  simp (disch := decide) only [h.set, ht]

theorem settle (c sec : Nat) : π (s.settle c sec) = π s := by
  unfold State.settle
  split
  · exact h.withPrism ..
  · rfl

theorem noteLeaf (c sec : Nat) : π (s.noteLeaf c sec) = π s := by
  unfold State.noteLeaf
  split
  · exact h.withPrism ..
  · rfl

theorem eccLast (c sec line area cw sym : Nat) (ue : Bool) : π (s.eccLast c sec line area cw sym ue) = π s := by
  unfold State.eccLast
  split
  · simp (disch := decide) only [h.setF]
  · rfl

theorem countCe (c ln cw sym : Nat) : π (s.countCe c ln cw sym) = π s := by
  unfold State.countCe State.countCeIn
  extract_lets t th
  have ht : π t = π s := (h.eccLast ..).trans (h.eccCount s (by decide) ..)
  split
  · exact (h.setF t (by decide) ..).trans ht
  · exact ht

theorem readEcc (c ln : Nat) : π (s.readEcc c ln) = π s := by
  unfold State.readEcc
  extract_lets l
  split
  · rfl
  · exact h.countCe ..

theorem lookup (c sec : Nat) : π (s.lookup c sec) = π s := by
  unfold State.lookup
  split
  · extract_lets settled q hit t
    have ht : π t = π s := by
      refine (h.prismCount _ ?_ ..).trans (h.settle ..)
      split <;> decide
    split
    · exact ht
    · exact (h.tick _).trans ((h.withPrism ..).trans ht)
  · rfl

theorem readLine (m c a ln key : Nat) : π (s.readLine m c a ln key).1 = π s := by
  unfold State.readLine
  extract_lets t l
  have ht : π t = π s := (h.readEcc ..).trans (h.lookup ..)
  split_ifs
  · exact ht
  · exact ht
  · exact (h.noteRefusal ..).trans ((h.prismCount _ (by decide) ..).trans ht)
  · exact ht
  · exact ht

theorem wear (c lbn keyId : Nat) (exh : Bool) : π (s.wear c lbn keyId exh) = π s := by
  unfold State.wear
  extract_lets n hit
  clear_value hit
  cases hit
  case some j => split_ifs <;> simp (disch := decide) only [h.setF]
  case none => split_ifs <;> simp (disch := decide) only [h.setF]

theorem refreshCheck (c ln key : Nat) : π (s.refreshCheck c ln key) = π s := by
  unfold State.refreshCheck
  extract_lets t
  have ht : π t = π s := h.readEcc ..
  split
  · exact (h.set _ (by decide) _).trans ((h.prismCount _ (by decide) ..).trans ht)
  · exact ht

theorem refresh (c sec keyId key : Nat) : π (s.refresh c sec keyId key) = π s := by
  unfold State.refresh
  extract_lets t m lines u
  have ht : π t = π s := foldl_keeps π (fun _ _ _ => h.refreshCheck ..) s
  have hlines : π lines = π t := foldl_keeps π (fun _ _ _ => by dsimp only; split_ifs <;> exact h.setLine ..) t
  have hu : π u = π s := (h.prismCount _ (by decide) ..).trans ((h.setMajor ..).trans (hlines.trans ht))
  split
  · exact (h.wear ..).trans ((h.set u (by decide) 1).trans hu)
  · exact hu

theorem writeLine (m c a ln keyId key : Nat) (b : Bytes) : π (s.writeLine m c a ln keyId key b).1 = π s := by
  unfold State.writeLine
  extract_lets t l u n
  have ht : π t = π s := h.lookup ..
  have hu : π u = π s := by
    unfold u
    split
    · exact (h.refresh ..).trans ht
    · exact ht
  split_ifs
  · exact ht
  · exact (h.noteRefusal ..).trans ((h.wear ..).trans ((h.set t (by decide) 1).trans ht))
  · exact (h.noteLeaf ..).trans ((h.setLine ..).trans hu)

theorem writePart (m c a ln off keyId key : Nat) (b : Bytes) : π (s.writePart m c a ln off keyId key b).1 = π s := by
  unfold State.writePart
  extract_lets t
  have ht : π t = π s := h.prismCount s (by decide) ..
  have hread := (h.readLine t m c a ln key).trans ht
  split
  · next hx => rwa [hx] at hread
  · next hx =>
    rw [hx] at hread
    exact (h.writeLine ..).trans hread

theorem poison (c ln code : Nat) : π (s.poison c ln code) = π s := (h.eccCount _ (by decide) ..).trans (h.setLine ..)

/-! ## Ranges, and the hub's accesses (12_prism_memory_protection.md R304; 14_host_attach.md R338) -/

theorem noteGate (m code a : Nat) : π (s.noteGate m code a) = π s := by
  unfold State.noteGate
  split
  · exact h.noteRefusal ..
  · rfl

theorem touchKey (c k : Nat) : π (s.touchKey c k) = π s := by
  unfold State.touchKey
  extract_lets l l'
  split
  · rfl
  · exact (h.tick _).trans (h.withPrism ..)

theorem carry (ed n : Nat) (unit : Bytes) : π (s.carry ed n unit) = π s := by
  unfold State.carry
  extract_lets q fab t
  have ht : π t = π s := h.store s s.fresh s.out t.fab s.mem s.prism s.hub
  split
  · next hcount =>
    simp only [Bool.and_eq_true, decide_eq_true_eq] at hcount
    obtain ⟨⟨hed, -⟩, -⟩ := hcount
    exact (h.flits t ed _ hed).trans ht
  · exact ht

theorem countEdges (eds : List Nat) : π (s.countEdges eds) = π s := foldl_keeps π (fun _ _ _ => (h.tick _).trans (h.carry ..)) s

theorem readVia (via : Nat → List Nat) (m space : Nat) (uses : List (Nat × Nat)) (a n : Nat) :
    π (s.readVia via m space uses a n).1 = π s := by
  refine foldl_keeps (fun x : State × Except Nat Bytes => π x.1) (fun acc q _ => ?_) (s, .ok [])
  split
  · rfl
  · next t b =>
    split
    · exact h.noteGate ..
    · next g _ =>
      split
      · rfl
      · have hread := (h.readLine ((t.countEdges (via g.ctrl)).touchKey g.ctrl g.keyId) m g.ctrl q.1 (g.place / 64) g.key).trans
          ((h.touchKey ..).trans (h.countEdges ..))
        split
        · next hx => rwa [hx] at hread
        · next hx => rwa [hx] at hread

theorem writeVia (via : Nat → List Nat) (m space : Nat) (uses : List (Nat × Nat)) (a : Nat) (b : Bytes) :
    π (s.writeVia via m space uses a b).1 = π s := by
  refine foldl_keeps (fun x : State × Option Nat => π x.1) (fun acc q _ => ?_) (s, none)
  split
  · rfl
  · split
    · exact h.noteGate ..
    · dsimp only
      have hkey {t : State} {c k : Nat} := (h.touchKey (t.countEdges (via c)) c k).trans (h.countEdges ..)
      split_ifs
      · rfl
      · exact (h.writeLine ..).trans hkey
      · exact (h.writePart ..).trans hkey

theorem readMem (m space : Nat) (uses : List (Nat × Nat)) (a n : Nat) : π (s.readMem m space uses a n).1 = π s := h.readVia ..

theorem of_readMem {m space a n : Nat} {uses : List (Nat × Nat)} {u : State} {x : Except Nat Bytes}
    (hread : s.readMem m space uses a n = (u, x)) : π u = π s := by
  have kept := h.readMem s m space uses a n
  rwa [hread] at kept

theorem writeMem (m space : Nat) (uses : List (Nat × Nat)) (a : Nat) (b : Bytes) : π (s.writeMem m space uses a b).1 = π s :=
  h.writeVia ..

theorem snoop (write : Bool) (a n : Nat) : π (s.snoop write a n) = π s := by
  unfold State.snoop
  split
  · exact h.emit ..
  · rfl

theorem invalidate (a n : Nat) : π (s.invalidate a n) = π s := by
  unfold State.invalidate
  extract_lets l t
  have ht : π t = π s := by
    refine foldl_keeps π (fun u k _ => ?_) s
    split
    · exact h.tick u
    · exact (h.tick _).trans ((h.writeMem ..).trans (h.tick u))
  split
  · rfl
  · exact (h.withHub ..).trans ht

theorem hubWrite (a : Nat) (b : Bytes) : π (s.hubWrite a b).1 = π s := (h.writeMem ..).trans ((h.invalidate ..).trans (h.snoop ..))

/-! ## Notices (15_shared_objects_and_submission.md R379; 14_host_attach.md R344) -/

theorem raise (v : Nat) : π (s.raise v) = π s := by
  unfold State.raise
  split_ifs
  · rfl
  · exact h.withHub ..
  · exact h.emit ..

theorem notice (kind code ctx queue addr arg : Nat) : π (s.notice kind code ctx queue addr arg) = π s := by
  unfold State.notice
  extract_lets lg size head
  split
  · exact h.addF s (by decide) ..
  · have hwrite := h.hubWrite s (s.get Reg.LOG_RING_ADDR * 64 + 32 * head) (noticeBytes kind code ctx queue addr arg)
    split
    · next hx =>
      rw [hx] at hwrite
      exact (h.addF _ (by decide) ..).trans hwrite
    · next hx =>
      rw [hx] at hwrite
      exact (h.raise ..).trans ((h.set _ (by decide) _).trans hwrite)

/-- A view that does not look at partitions either does not see a code that waits for the next fence (R371). -/
theorem pend (hparts : ∀ (t : State) (q : Nat) (f : Part → Part), π (t.updPart q f) = π t) (p code : Nat) :
    π (s.pend p code) = π s := by
  unfold State.pend
  split_ifs
  · rfl
  · exact h.notice ..
  · unfold State.showSlot
    split
    · exact hparts ..
    · simp (disch := decide) only [h.setF]
      exact hparts ..

end

end Aside

end Sys2Proof.Machine
end

section
/-!
PROOFS. The hasher of Beacon: the start of a lap, a shard that agrees with its digest and one that does not, and the counters
(11_memory_tiers_and_weights.md R279, R280, R282).
-/

namespace Sys2Proof.Machine

/-! ## Laps (R279) -/

/-- A lap over the registered shards has begun, and shows. -/
def State.lapBegun (s : State) : State :=
  { s with link := { s.link with lap := some (s.link.shards.map fun g : RegShard => g.id) } }.set Reg.BEACON_STAT_HASHING 1

theorem hashLapStart_of_idle {s : State} (hen : s.get Reg.BEACON_CTRL_HASH_EN = 1) (hidle : s.link.lap = none)
    (hshards : s.link.shards ≠ []) : exec .hashLapStart s = .next s.lapBegun := by
  have some_shard : (s.link.shards.map (·.id)).isEmpty = false := by simpa using hshards
  show execHashLapStart s = _
  simp only [execHashLapStart, hen, hidle, one_ne_zero, decide_false, Option.isSome_none, Bool.or_self, Bool.false_eq_true, if_false,
    some_shard]
  rfl

/-- The oldest shard of a lap leaves it, and the others stay. -/
theorem dropShard_of_oldest {s : State} {id : Nat} {ids : List Nat} (hnew : id ∉ ids) (hmore : ids ≠ []) :
    s.dropShard (id :: ids) id = { s with link := { s.link with lap := some ids } } := by
  have left : (id :: ids).filter (fun i => i ≠ id) = ids := by
    rw [List.filter_cons_of_neg (by simp)]
    exact List.filter_eq_self.2 fun i hi => decide_eq_true fun h => hnew (h ▸ hi)
  obtain ⟨i, l, rfl⟩ := List.exists_cons_of_ne_nil hmore
  rw [State.dropShard, left]
  rfl

/-! ## Visits (R280) -/

section
variable {s v : State} {g : RegShard} {ids : List Nat} {t : Tensor} {r : Region}

theorem rehashShard_of_oldest (hlap : s.link.lap = some (g.id :: ids)) (hnew : g.id ∉ ids) (hmore : ids ≠ [])
    (hfind : s.link.shards.find? (fun h => h.id = g.id) = some g) (hfree : s.movesRun g.part = false)
    (htensor : (s.part g.part).image.tensor g.shard.tensor = some t) (hregion : (s.part g.part).image.region g.region = some r) :
    exec (.rehashShard ⟨0, []⟩) s = .next (State.rehash { s with link := { s.link with lap := some ids } } g
      ((s.part g.part).image.addrOf t + g.shard.off) (r.keyId * 2 ^ 52 + r.base + g.dig) []) := by
  show execRehashShard ⟨0, []⟩ s = _
  simp only [execRehashShard, hlap, Nat.zero_mod, List.getD_cons_zero, hfind, hfree, Bool.false_eq_true, if_false, htensor, hregion,
    dropShard_of_oldest hnew hmore]

/-- A visit that meets no event reads the shard and its digest. -/
theorem rehash_of_read {a b : State} {addr dig : Nat} {d x : Bytes}
    (hdata : s.readMem g.part 0 (s.part g.part).uses addr g.shard.len = (a, .ok d))
    (hdig : a.readMem g.part 0 (s.part g.part).uses dig 64 = (b, .ok x)) :
    s.rehash g addr dig [] = if Config.sha512 d = x then b else (b.beaconCount Reg.BEACON_DIGEST_FAIL).poisonShard g addr := by
  simp only [State.rehash, State.meetRange, List.filter_nil, List.foldl_nil, hdata, hdig]

end

/-! ## A shard that differs (R280) -/

/-- A view that does not see a Beacon counter written does not see it count. -/
theorem beaconCount_keeps {γ : Type} {π : State → γ} {f : Fld} (h : ∀ (t : State) (v : Nat), π (t.set f v) = π t) (s : State) :
    π (s.beaconCount f) = π s := by
  unfold State.beaconCount
  split
  · exact h ..
  · rfl

/-- A shard has failed its visit: it is counted and reported, and its context's next fence errors. -/
def State.shardFailed (s : State) (g : RegShard) : State :=
  ((s.beaconCount Reg.BEACON_POISONED).beaconErr (s.part g.part).ctx g.shard.idx 0x0205).pend g.part 0x0205

/-- The load that fetches one registered shard again from the holders it came from. -/
def RegShard.reload (g : RegShard) : BeaconLoad :=
  { holders := g.holders, pack := g.pack, digestRegion := 0xFFF, skip := [], buf := [], dataOff := 0, index := true,
    shards := [g.shard], reqs := [], next := 0, left := [0] }

/-- A refetch of a shard joins the end of those that wait. -/
def State.refetchLater (s : State) (g : RegShard) : State :=
  { s with hub := { s.hub with clock := s.hub.clock + 1 },
           link := { s.link with refetch := s.link.refetch ++
             [{ part := g.part, load := g.reload, started := false, arrived := s.hub.clock + 1 }] } }

/-- A shard that fails its visit has its lines poisoned, and with AUTO_REFETCH a refetch waits. -/
theorem poisonShard_eq (s : State) (g : RegShard) (a : Nat) : ∃ t : State, t.link = s.link ∧ s.poisonShard g a =
    if (t.shardFailed g).get Reg.BEACON_CTRL_AUTO_REFETCH = 0 then t.shardFailed g else (t.shardFailed g).refetchLater g := by
  unfold State.poisonShard
  extract_lets poisoned failed n x
  have link_kept : poisoned.link = s.link := by
    refine foldl_keeps State.link (fun t q _ => ?_) s
    split
    · split
      · exact aside_link.poison ..
      · rfl
    · rfl
  exact ⟨poisoned, link_kept, rfl⟩

section
variable (s : State) (g : RegShard)

theorem shardFailed_link : (s.shardFailed g).link = s.link := by
  rw [State.shardFailed, aside_link.pend _ fun _ _ _ => rfl]
  exact beaconCount_keeps (π := State.link) (fun _ _ => rfl) s

theorem get_pend {f : Fld} (hlow : 0x24080 ≤ f.base) (hhigh : f.base < 0x200000) (hlo : f.lo < 64) (p code : Nat) :
    (s.pend p code).get f = s.get f := (aside_get hlow hhigh hlo).pend _ (fun _ _ _ => rfl) ..

theorem shardFailed_err : (s.shardFailed g).get Reg.BEACON_STAT_LAST_ERR = 0x0205 := by
  rw [State.shardFailed, get_pend _ (by decide) (by decide) (by decide), State.beaconErr, get_set_other _ _ _ _ (by decide),
    get_set_other _ _ _ _ (by decide), get_set_same]
  decide

theorem shardFailed_shard (h : g.shard.idx < 2 ^ 32) : (s.shardFailed g).get Reg.BEACON_LAST_SHARD = g.shard.idx := by
  rw [State.shardFailed, get_pend _ (by decide) (by decide) (by decide), State.beaconErr, get_set_other _ _ _ _ (by decide),
    get_set_same]
  exact Nat.mod_eq_of_lt h

/-- What a shard that differs leaves in the registers and the link. -/
theorem poisonShard_effect (a : Nat) : let u := s.poisonShard g a
    u.get Reg.BEACON_STAT_LAST_ERR = 0x0205 ∧ (g.shard.idx < 2 ^ 32 → u.get Reg.BEACON_LAST_SHARD = g.shard.idx) ∧
      u.link.lap = s.link.lap ∧ u.link.shards = s.link.shards ∧
      (u.get Reg.BEACON_CTRL_AUTO_REFETCH = 0 → u.link.refetch = s.link.refetch) ∧
      (u.get Reg.BEACON_CTRL_AUTO_REFETCH = 1 → ∃ y, u.link.refetch = s.link.refetch ++ [y] ∧ y.part = g.part ∧
        y.started = false ∧ y.load.shards = [g.shard] ∧ y.load.holders = g.holders) := by
  obtain ⟨t, ht, hu⟩ := poisonShard_eq s g a
  have link_kept : (t.shardFailed g).link = s.link := (shardFailed_link ..).trans ht
  rw [hu, ← link_kept]
  by_cases hauto : (t.shardFailed g).get Reg.BEACON_CTRL_AUTO_REFETCH = 0
  · rw [if_pos hauto]
    exact ⟨shardFailed_err .., shardFailed_shard t g, rfl, rfl, fun _ => rfl, fun hone => absurd (hauto.symm.trans hone) zero_ne_one⟩
  · rw [if_neg hauto]
    exact ⟨shardFailed_err .., shardFailed_shard t g, rfl, rfl, fun hzero => absurd hzero hauto,
      fun _ => ⟨_, rfl, rfl, rfl, rfl, rfl⟩⟩

end

/-! ## The counters (R282) -/

theorem beaconCntClear_of_up {s : State} (hup : s.hubUp = true) :
    exec .beaconCntClear s = .next (s.cntClear Reg.BEACON_CTRL_CNT_CLEAR 0) := congrArg Host.Outcome.next (cxlIo_of_hubUp hup _)

/-- The counters of Beacon are those its CNT_CLEAR clears. -/
theorem beaconCounters_cleared : ∀ f ∈ [Reg.BEACON_SHARDS_IN, Reg.BEACON_SHARDS_SERVED, Reg.BEACON_DIGEST_FAIL, Reg.BEACON_TIMEOUTS,
    Reg.BEACON_POISONED], (f, 0, 0) ∈ clearedCopies Reg.BEACON_CTRL_CNT_CLEAR 0 := by decide

/-- Settles O34: a lap starts (`hashLapStart_of_idle`), a visit finds its shard as its digest says or not (`rehashShard_of_oldest`,
`rehash_of_read`, `poisonShard_effect`), and CNT_CLEAR zeroes the counters (`cntClear_zeroes`). -/
theorem beaconHasher : Obligations.BeaconHasher := by
  refine ⟨fun s hen hidle hshards => ⟨_, hashLapStart_of_idle hen hidle hshards, rfl, get_set_same .., rfl, rfl⟩,
    fun s v a b g ids t r d x hlap hnew hmore hfind hfree => ?visit, fun s hup => ?clear⟩
  case visit =>
    intro j htensor hregion hv hdata hdig
    subst hv
    have visits := (rehashShard_of_oldest hlap hnew hmore hfind hfree htensor hregion).trans (congrArg _ (rehash_of_read hdata hdig))
    refine ⟨fun heq => visits.trans (congrArg _ (if_pos heq)), fun hne => ?_⟩
    have link_kept : (b.beaconCount Reg.BEACON_DIGEST_FAIL).link = { s.link with lap := some ids } :=
      (beaconCount_keeps (fun _ _ => rfl) b).trans ((aside_link.of_readMem _ hdig).trans (aside_link.of_readMem _ hdata))
    obtain ⟨herr, hshard, hleft, hshards, hstay, hjoin⟩ :=
      poisonShard_effect (b.beaconCount Reg.BEACON_DIGEST_FAIL) g (j.addrOf t + g.shard.off)
    rw [link_kept] at hleft hshards hstay hjoin
    exact ⟨_, visits.trans (congrArg _ (if_neg hne)), herr, hshard, hleft, hshards, hstay, hjoin⟩
  case clear =>
    exact ⟨_, beaconCntClear_of_up hup, fun f hf => cntClear_zeroes s (beaconCounters_cleared f hf), cntClear_frame ..⟩

end Sys2Proof.Machine
end

section
/-!
PROOFS. Every command keeps the canonical form of the register file, the tiles, the partitions and device memory, and so does a
step (12_prism_memory_protection.md R287).
-/

namespace Sys2Proof.Machine

/-- What a command keeps: its meaning's own lemma, in the order of the arms of `exec`. -/
theorem Keep.exec {s0 s : State} {i : Instr} (h0 : Keep s0 s) : ResKeep s0 (exec i s) :=
  match i with
  | .thermalStretch .. => Keep.execThermalStretch h0 | .thermtrip .. => Keep.execThermtrip h0
  | .powerLimit .. => Keep.execPowerLimit h0 | .feedWarn .. => Keep.execFeedWarn h0 | .feedFail .. => Keep.execFeedFail h0
  | .feedReturn .. => Keep.execFeedReturn h0 | .feedRestoreTimer .. => Keep.execFeedRestoreTimer h0
  | .coldReset .. => Keep.execColdReset h0 | .bringUpComplete .. => Keep.execBringUpComplete h0
  | .moduleReset .. => Keep.execModuleReset h0 | .hubWarmReset .. => Keep.execHubWarmReset h0
  | .stewardReset .. => Keep.execStewardReset h0 | .powerStatus .. => Keep.execPowerStatus h0
  | .partReset .. => Keep.execPartReset h0 | .tileReset .. => Keep.execTileReset h0
  | .clusterIdleEntry .. => Keep.execClusterIdleEntry h0 | .clusterNapEntry .. => Keep.execClusterNapEntry h0
  | .clusterWakeComplete .. => Keep.execClusterWakeComplete h0 | .calibBinFill .. => Keep.execCalibBinFill h0
  | .frameLoad .. => Keep.execFrameLoad h0 | .jobLoad .. => Keep.execJobLoad h0
  | .jobLoadComplete .. => Keep.execJobLoadComplete h0 | .unload .. => Keep.execUnload h0
  | .eclipseComplete .. => Keep.execEclipseComplete h0 | .partCntClear .. => Keep.execPartCntClear h0
  | .streamFlitSend .. => Keep.execStreamFlitSend h0 | .creditReturn .. => Keep.execCreditReturn h0
  | .msgPacketArrive .. => Keep.execMsgPacketArrive h0 | .msgCreditReturn .. => Keep.execMsgCreditReturn h0
  | .edgeReplay .. => Keep.execEdgeReplay h0 | .edgeFail .. => Keep.execEdgeFail h0 | .edgeRekey .. => Keep.execEdgeRekey h0
  | .illegalInstruction .. => Keep.execIllegalInstruction h0 | .add .. => Keep.execAdd h0 | .sub .. => Keep.execSub h0
  | .and .. => Keep.execAnd h0 | .or .. => Keep.execOr h0 | .xor .. => Keep.execXor h0 | .sll .. => Keep.execSll h0
  | .srl .. => Keep.execSrl h0 | .sra .. => Keep.execSra h0 | .mul .. => Keep.execMul h0 | .mulhu .. => Keep.execMulhu h0
  | .divu .. => Keep.execDivu h0 | .remu .. => Keep.execRemu h0 | .smin .. => Keep.execSmin h0 | .smax .. => Keep.execSmax h0
  | .minu .. => Keep.execMinu h0 | .maxu .. => Keep.execMaxu h0 | .popc .. => Keep.execPopc h0 | .clz .. => Keep.execClz h0
  | .addi .. => Keep.execAddi h0 | .andi .. => Keep.execAndi h0 | .ori .. => Keep.execOri h0 | .xori .. => Keep.execXori h0
  | .slli .. => Keep.execSlli h0 | .srli .. => Keep.execSrli h0 | .srai .. => Keep.execSrai h0 | .movz .. => Keep.execMovz h0
  | .movk .. => Keep.execMovk h0 | .cmp .. => Keep.execCmp h0 | .cmpi .. => Keep.execCmpi h0 | .plog .. => Keep.execPlog h0
  | .ldb .. => Keep.execLdb h0 | .ldh .. => Keep.execLdh h0 | .ldw .. => Keep.execLdw h0 | .ldd .. => Keep.execLdd h0
  | .stb .. => Keep.execStb h0 | .sth .. => Keep.execSth h0 | .stw .. => Keep.execStw h0 | .std .. => Keep.execStd h0
  | .br .. => Keep.execBr h0 | .call .. => Keep.execCall h0 | .jr .. => Keep.execJr h0 | .send .. => Keep.execSend h0
  | .recv .. => Keep.execRecv h0 | .ravail .. => Keep.execRavail h0 | .rrel .. => Keep.execRrel h0
  | .mxi .. => Keep.execMxi h0 | .vxi .. => Keep.execVxi h0 | .mvi .. => Keep.execMvi h0 | .waitt .. => Keep.execWaitt h0
  | .testt .. => Keep.execTestt h0 | .waite .. => Keep.execWaite h0 | .evadd .. => Keep.execEvadd h0
  | .evrd .. => Keep.execEvrd h0 | .waitu .. => Keep.execWaitu h0 | .csrr .. => Keep.execCsrr h0
  | .csrw .. => Keep.execCsrw h0 | .nop .. => Keep.execNop h0 | .trap .. => Keep.execTrap h0 | .halt .. => Keep.execHalt h0
  | .waitResume .. => Keep.execWaitResume h0 | .waitLimitExpiry .. => Keep.execWaitLimitExpiry h0
  | .cubeCommandStart .. => Keep.execCubeCommandStart h0 | .cubeCommandDone .. => Keep.execCubeCommandDone h0
  | .vectorCommandStart .. => Keep.execVectorCommandStart h0 | .vectorCommandDone .. => Keep.execVectorCommandDone h0
  | .moverCommandStart .. => Keep.execMoverCommandStart h0 | .moverCommandDone .. => Keep.execMoverCommandDone h0
  | .tileReport .. => Keep.execTileReport h0 | .tileStop .. => Keep.execTileStop h0 | .haltReq .. => Keep.execHaltReq h0
  | .tileResume .. => Keep.execTileResume h0 | .sstep .. => Keep.execSstep h0 | .tileMemData .. => Keep.execTileMemData h0
  | .stepDone .. => Keep.execStepDone h0 | .traceReq .. => Keep.execTraceReq h0 | .stepInfo .. => Keep.execStepInfo h0
  | .collectiveReq .. => Keep.execCollectiveReq h0 | .collTimeout .. => Keep.execCollTimeout h0
  | .doorbell .. => Keep.execDoorbell h0 | .commandFetch .. => Keep.execCommandFetch h0
  | .nopCommand .. => Keep.execNopCommand h0 | .stepCmd .. => Keep.execStepCmd h0 | .copyCmd .. => Keep.execCopyCmd h0
  | .switchSet .. => Keep.execSwitchSet h0 | .snapshotCmd .. => Keep.execSnapshotCmd h0
  | .snapshotReadDone .. => Keep.execSnapshotReadDone h0 | .snapData .. => Keep.execSnapData h0
  | .snapDataReply .. => Keep.execSnapDataReply h0 | .snapDataTimeout .. => Keep.execSnapDataTimeout h0
  | .migrateCmd .. => Keep.execMigrateCmd h0 | .migrateComplete .. => Keep.execMigrateComplete h0
  | .beaconLoad .. => Keep.execBeaconLoad h0 | .collGroup .. => Keep.execCollGroup h0
  | .collGroupFree .. => Keep.execCollGroupFree h0 | .commandComplete .. => Keep.execCommandComplete h0
  | .contextEvict .. => Keep.execContextEvict h0 | .queueStop .. => Keep.execQueueStop h0
  | .queueResume .. => Keep.execQueueResume h0 | .queueCancel .. => Keep.execQueueCancel h0
  | .glintPassStart .. => Keep.execGlintPassStart h0 | .glintPassComplete .. => Keep.execGlintPassComplete h0
  | .glintCntClear .. => Keep.execGlintCntClear h0 | .linkUp .. => Keep.execLinkUp h0 | .losRetry .. => Keep.execLosRetry h0
  | .trainTimeout .. => Keep.execTrainTimeout h0 | .portRetrain .. => Keep.execPortRetrain h0
  | .portCntClear .. => Keep.execPortCntClear h0 | .ethTailWrite .. => Keep.execEthTailWrite h0
  | .ethFrameTransmit .. => Keep.execEthFrameTransmit h0 | .ethFrameReceive .. => Keep.execEthFrameReceive h0
  | .groupSend .. => Keep.execGroupSend h0 | .groupReceive .. => Keep.execGroupReceive h0
  | .retryTimeout .. => Keep.execRetryTimeout h0 | .resendRetrain .. => Keep.execResendRetrain h0
  | .tagFailLimit .. => Keep.execTagFailLimit h0 | .rekeyStart .. => Keep.execRekeyStart h0
  | .seqExhausted .. => Keep.execSeqExhausted h0 | .controlNop .. => Keep.execControlNop h0
  | .linkRekey .. => Keep.execLinkRekey h0 | .linkRekeyAck .. => Keep.execLinkRekeyAck h0
  | .linkJoin .. => Keep.execLinkJoin h0 | .linkJoinAck .. => Keep.execLinkJoinAck h0
  | .joinTimeout .. => Keep.execJoinTimeout h0 | .linkLeave .. => Keep.execLinkLeave h0 | .linkLoss .. => Keep.execLinkLoss h0
  | .drainEnd .. => Keep.execDrainEnd h0 | .linkHello .. => Keep.execLinkHello h0 | .linkSpdm .. => Keep.execLinkSpdm h0
  | .linkKx .. => Keep.execLinkKx h0 | .linkRefuse .. => Keep.execLinkRefuse h0 | .setupTimeout .. => Keep.execSetupTimeout h0
  | .refusedHelloRetry .. => Keep.execRefusedHelloRetry h0 | .collData .. => Keep.execCollData h0
  | .groupHello .. => Keep.execGroupHello h0 | .peerNote .. => Keep.execPeerNote h0 | .shardReq .. => Keep.execShardReq h0
  | .shardData .. => Keep.execShardData h0 | .shardTimeout .. => Keep.execShardTimeout h0
  | .rehashShard .. => Keep.execRehashShard h0 | .shardRefetch .. => Keep.execShardRefetch h0
  | .prismLineRead .. => Keep.execPrismLineRead h0 | .prismLineWrite .. => Keep.execPrismLineWrite h0
  | .prismPartialWrite .. => Keep.execPrismPartialWrite h0 | .getVersion .. => Keep.execGetVersion h0
  | .getCapabilities .. => Keep.execGetCapabilities h0 | .negotiateAlgorithms .. => Keep.execNegotiateAlgorithms h0
  | .getDigests .. => Keep.execGetDigests h0 | .getCertificate .. => Keep.execGetCertificate h0
  | .spdmChallenge .. => Keep.execSpdmChallenge h0 | .getMeasurements .. => Keep.execGetMeasurements h0
  | .vendorDefinedRequest .. => Keep.execVendorDefinedRequest h0 | .provOpen .. => Keep.execProvOpen h0
  | .provKey .. => Keep.execProvKey h0 | .provPolicy .. => Keep.execProvPolicy h0
  | .provSessionTimeout .. => Keep.execProvSessionTimeout h0 | .gateHeaderRead .. => Keep.execGateHeaderRead h0
  | .gateTimeout .. => Keep.execGateTimeout h0 | .gateCombineDone .. => Keep.execGateCombineDone h0
  | .gateReleaseDone .. => Keep.execGateReleaseDone h0 | .memrd .. => Keep.execMemrd h0 | .memwr .. => Keep.execMemwr h0
  | .memwrptl .. => Keep.execMemwrptl h0 | .ucieModuleFail .. => Keep.execUcieModuleFail h0
  | .stewardRestart .. => Keep.execStewardRestart h0 | .mboxGo .. => Keep.execMboxGo h0
  | .mctpControl .. => Keep.execMctpControl h0 | .glimmerScrub .. => Keep.execGlimmerScrub h0
  | .floodVerify .. => Keep.execFloodVerify h0 | .floodlightComplete .. => Keep.execFloodlightComplete h0
  | .captureStageComplete .. => Keep.execCaptureStageComplete h0 | .captureSendComplete .. => Keep.execCaptureSendComplete h0
  | .reserveTimeout .. => Keep.execReserveTimeout h0 | .mirrorWrite .. => Keep.execMirrorWrite h0
  | .reflReserve .. => Keep.execReflReserve h0 | .reflGrant .. => Keep.execReflGrant h0
  | .reflDecline .. => Keep.execReflDecline h0 | .reflPrepare .. => Keep.execReflPrepare h0
  | .reflPrepared .. => Keep.execReflPrepared h0 | .reflCommit .. => Keep.execReflCommit h0
  | .reflCommitted .. => Keep.execReflCommitted h0 | .reflFetch .. => Keep.execReflFetch h0
  | .reflRecord .. => Keep.execReflRecord h0 | .reflNone .. => Keep.execReflNone h0 | .reflDone .. => Keep.execReflDone h0
  | .reflRelease .. => Keep.execReflRelease h0 | .reflLost .. => Keep.execReflLost h0
  | .reflRestore .. => Keep.execReflRestore h0 | .restoreTimeout .. => Keep.execRestoreTimeout h0
  | .restoreComplete .. => Keep.execRestoreComplete h0 | .reflCtrlRelease .. => Keep.execReflCtrlRelease h0
  | .lcStatus .. => Keep.execLcStatus h0 | .lcNonce .. => Keep.execLcNonce h0 | .lcTransition .. => Keep.execLcTransition h0
  | .certStore .. => Keep.execCertStore h0 | .stageBegin .. => Keep.execStageBegin h0 | .stageData .. => Keep.execStageData h0
  | .stageFinish .. => Keep.execStageFinish h0 | .stageAbort .. => Keep.execStageAbort h0
  | .setSettings .. => Keep.execSetSettings h0 | .debugToken .. => Keep.execDebugToken h0
  | .debugRevoke .. => Keep.execDebugRevoke h0 | .wearStatus .. => Keep.execWearStatus h0
  | .jtagSample .. => Keep.execJtagSample h0 | .registerWrite .. => Keep.execRegisterWrite h0
  | .lossOfSignal .. => Keep.execLossOfSignal h0 | .debugAccessPortAccess .. => Keep.execDebugAccessPortAccess h0
  | .paramRoot .. => Keep.execParamRoot h0 | .replicaComparisonTimeout .. => Keep.execReplicaComparisonTimeout h0
  | .loadBinChange .. => Keep.execLoadBinChange h0 | .powerLoss => Keep.execPowerLoss h0 | .resetInN => Keep.execResetInN h0
  | .resetInNRelease => Keep.execResetInNRelease h0 | .refclkLoss => Keep.execRefclkLoss h0
  | .refclkReturn => Keep.execRefclkReturn h0 | .hubWatchdog => Keep.execHubWatchdog h0
  | .resetCtrlModule => Keep.execResetCtrlModule h0 | .resetCtrlHubWarm => Keep.execResetCtrlHubWarm h0
  | .calibPass => Keep.execCalibPass h0 | .calibPassComplete => Keep.execCalibPassComplete h0
  | .frameLoadComplete => Keep.execFrameLoadComplete h0 | .fabCntClear => Keep.execFabCntClear h0
  | .collectiveStart => Keep.execCollectiveStart h0 | .slotAssign => Keep.execSlotAssign h0
  | .queueCreate => Keep.execQueueCreate h0 | .queueDestroy => Keep.execQueueDestroy h0 | .fenceErr => Keep.execFenceErr h0
  | .ctxTableLock => Keep.execCtxTableLock h0 | .hashLapStart => Keep.execHashLapStart h0
  | .beaconCntClear => Keep.execBeaconCntClear h0 | .prismCntClear => Keep.execPrismCntClear h0
  | .keyAlloc => Keep.execKeyAlloc h0 | .keyRetire => Keep.execKeyRetire h0 | .keyRotate => Keep.execKeyRotate h0
  | .keyRead => Keep.execKeyRead h0 | .ownerRegister => Keep.execOwnerRegister h0
  | .ownerRegisterJoint => Keep.execOwnerRegisterJoint h0 | .ownerUnregister => Keep.execOwnerUnregister h0
  | .ownerRead => Keep.execOwnerRead h0 | .functionLevelReset => Keep.execFunctionLevelReset h0
  | .stewardCtrlReset => Keep.execStewardCtrlReset h0 | .mboxResponse => Keep.execMboxResponse h0
  | .scrubCntClear => Keep.execScrubCntClear h0 | .stageTimeout => Keep.execStageTimeout h0
  | .debugTokenExpiry => Keep.execDebugTokenExpiry h0 | .nonceExpiry => Keep.execNonceExpiry h0
  | .jtagBypass => Keep.execJtagBypass h0 | .jtagIdcode => Keep.execJtagIdcode h0 | .jtagExtest => Keep.execJtagExtest h0
  | .refclkArrival => Keep.execRefclkArrival h0

theorem step_of_empty {s : State} (h : s.pending = []) : step s = .next s.idle := by
  simp only [step, h]

theorem step_of_command {s : State} {c : Instr} {rest : List Instr} (h : s.pending = c :: rest) :
    step s = exec c { s with pending := rest } := by
  simp only [step, h]

/-- Settles O58: a command keeps the form by `Keep.exec` from the state with the queue's rest, which is canonical as the whole
state is, and an idle period by `Keep.idle`. -/
theorem everyStepKeepsTheForm : Obligations.EveryStepKeepsTheForm := by
  intro s t hcanon hstep
  cases hqueue : s.pending with
  | nil =>
    obtain rfl : s.idle = t := Host.Outcome.next.inj ((step_of_empty hqueue).symm.trans hstep)
    exact (Keep.idle (Keep.refl s)).canon hcanon
  | cons c rest =>
    have from_rest : State.canon { s with pending := rest } := hcanon
    exact ((Keep.exec (Keep.refl _)).next t ((step_of_command hqueue).symm.trans hstep)).canon from_rest

end Sys2Proof.Machine
end

section
/-!
PROOFS. Prism's checks of an access of a master to a line, and what a refused access leaves (12_prism_memory_protection.md R304,
R307).
-/

namespace Sys2Proof.Machine

/-! ## The checks (R304) -/

section
variable {s : State} {m space a code : Nat} {uses : List (Nat × Nat)} {wr : Bool}

/-- The codes of checks 1 to 4. -/
def checkCodes : List Nat := [0x0601, 0x0604, 0x0603, 0x0602, 0x0607]

/-- Checks 1 to 4 refuse an access of a master without RAW_READ with the code of the first that fails. -/
theorem gate_of_refused (ha : a < 2 ^ 64) (hraw : (s.rightsOf m).rawRead = false)
    (h : if 2 ^ 63 ≤ a then code = 0x0601
      else if (s.keyEntry (s.keyOf a)).state = .free ∨ (s.keyEntry (s.keyOf a)).state = .reserved then code = 0x0604
      else if wr = true ∧ bit (s.rightsOf m).write (s.keyOf a) = false then code = 0x0603
      else if wr = false ∧ bit (s.rightsOf m).read (s.keyOf a) = false then code = 0x0602
      else (s.rightsOf m).stewardOnly = true ∧ s.keyOf a = 0 ∧ s.stewardBytes ≤ a % 2 ^ 52 ∧ code = 0x0607) :
    s.gate m space uses wr a = .error code ∧ code ∈ checkCodes := by
  have top_bit : 2 ^ 63 ≤ a ↔ a / 2 ^ 63 % 2 = 1 := by omega
  simp only [top_bit] at h
  unfold State.gate
  extract_lets k e r at?
  clear_value at?
  split_ifs at h with h63 hkey hwrite hread
  · subst h
    exact ⟨if_pos h63, by decide⟩
  · subst h
    rw [if_neg h63, if_pos (by simpa using hkey)]
    exact ⟨rfl, by decide⟩
  · subst h
    rw [if_neg h63, if_neg (by simpa using hkey), if_pos (by simpa using hwrite)]
    exact ⟨rfl, by decide⟩
  · subst h
    rw [if_neg h63, if_neg (by simpa using hkey), if_neg (by simpa using hwrite), if_pos (by simpa [r, hraw] using hread)]
    exact ⟨rfl, by decide⟩
  · obtain ⟨hsteward, hzero, hregion, rfl⟩ := h
    have outside : (r.stewardOnly && decide (k = 0) && decide (s.stewardBytes ≤ a % 2 ^ 52)) = true := by
      simpa [r, k, hsteward, hzero] using hregion
    rw [if_neg h63, if_neg (by simpa using hkey), if_neg (by simpa using hwrite), if_neg (by simpa [r, hraw] using hread),
      if_pos outside]
    exact ⟨rfl, by decide⟩

theorem checkCodes_fit : ∀ code ∈ checkCodes, code < 2 ^ 16 := by decide

end

/-! ## Refused accesses (R304, R307) -/

section
variable (s : State) {m code c a : Nat}

theorem noteRefusal_frame (m code c a : Nat) : s.noteRefusal m code c a = { s with regs := (s.noteRefusal m code c a).regs } := by
  unfold State.noteRefusal
  split_ifs <;> rfl

theorem noteRefusal_lastErr (h : code < 2 ^ 16) (m c a : Nat) : (s.noteRefusal m code c a).get Reg.PRISM_STAT_LAST_ERR = code := by
  unfold State.noteRefusal
  extract_lets t
  simp (disch := decide) only [get_set_other, get_set_same]
  exact Nat.mod_eq_of_lt h

theorem noteRefusal_lastMaster (h : m < 2 ^ 6) (code c a : Nat) :
    (s.noteRefusal m code c a).get Reg.PRISM_STAT_LAST_MASTER = m := by
  unfold State.noteRefusal
  extract_lets t
  simp (disch := decide) only [get_set_other, get_set_same]
  exact Nat.mod_eq_of_lt h

/-- A refusal by checks 1 to 4 shows in PRISM_STAT. -/
theorem noteGate_of_check (h : code ∈ checkCodes) (m a : Nat) : s.noteGate m code a = s.noteRefusal m code 15 a := by
  simp only [checkCodes, List.mem_cons, List.not_mem_nil, or_false] at h
  rcases h with rfl | rfl | rfl | rfl | rfl <;> rfl

end

/-! ## One access -/

section
variable {s : State} {m space a e : Nat} {wr : Bool} {g : Gate}

theorem access_of_refused (h : s.gate m space (s.part m).uses wr a = .error e)
    (f : Gate → State → State × Except Nat Bytes) : s.access m space wr a .none f = (s.noteGate m e a, some (.error e)) := by
  simp [State.access, h]

/-- The state in which an access that meets no event goes on once it has passed the checks: its sector is on a slot, and its key
in the key cache. -/
def State.passed (s : State) (g : Gate) : State := (s.strike g.ctrl g.place .none).touchKey g.ctrl g.keyId

theorem access_of_passed (h : s.gate m space (s.part m).uses wr a = .ok g)
    (f : Gate → State → State × Except Nat Bytes) :
    s.access m space wr a .none f = ((f g (s.passed g)).1, some (f g (s.passed g)).2) := by
  simp [State.access, h, State.passed]

end

/-- The address of a whole line. -/
theorem lineAddr_eq {a : Nat} (h : a % 64 = 0) : a / 64 * 64 = a := Nat.div_mul_cancel (Nat.dvd_of_mod_eq_zero h)

theorem fit_of_length {n : Nat} {b : Bytes} (h : b.length = n) : fit n b = b := by
  simp [fit, zeros, h, List.take_of_length_le]

section
variable {s : State} {m : Fin 36} {space : Fin 33} {addr : Word} {data : List Byte} (haligned : addr.toNat % 64 = 0)
include haligned

theorem prismLineWrite_of_aligned (fault : LineFault) : exec (.prismLineWrite m space addr data fault) s =
    .next (writerGets (s.writeAccess m space addr.toNat (fit 64 data) fault)) := by
  show execPrismLineWrite m space addr data fault s = _
  rw [execPrismLineWrite, lineAddr_eq haligned]

theorem prismLineRead_of_aligned (hraw : s.rawReads m addr.toNat = false) (fault : LineFault) :
    exec (.prismLineRead m space addr fault) s = .next (readerGets (s.readAccess m space addr.toNat fault)) := by
  show execPrismLineRead m space addr fault s = _
  simp only [execPrismLineRead, lineAddr_eq haligned, hraw, Bool.false_eq_true, if_false]

end

/-- Settles O35: the checks refuse the access (`gate_of_refused`), and a refusal by them writes registers alone. -/
theorem prismChecksAnAccess : Obligations.PrismChecksAnAccess := by
  intro s m space addr data code wr haligned hraw a k st hchecks
  obtain ⟨refused, is_check⟩ := gate_of_refused (space := space) (uses := (s.part m).uses) addr.isLt hraw hchecks
  have noted := noteGate_of_check s is_check m a
  have answers : exec (if wr then .prismLineWrite m space addr data .none else .prismLineRead m space addr .none) s =
      .next ((s.noteRefusal m code 15 a).emit (.refused code)) := by
    cases wr with
    | true =>
      refine (prismLineWrite_of_aligned haligned .none).trans ?_
      rw [State.writeAccess, access_of_refused refused, noted]
      rfl
    | false =>
      have not_raw : s.rawReads m a = false := by simp [State.rawReads, hraw]
      refine (prismLineRead_of_aligned haligned not_raw .none).trans ?_
      rw [State.readAccess, access_of_refused refused, noted]
      rfl
  refine ⟨_, answers, ?_, ?_, ?_, ?_, noteRefusal_lastErr s (checkCodes_fit code is_check) ..,
    noteRefusal_lastMaster s (by omega) ..⟩
  all_goals rw [noteRefusal_frame]; rfl

end Sys2Proof.Machine
end

section
/-!
PROOFS. What a read and a write of a line through Prism give and leave, and a write of part of a line
(12_prism_memory_protection.md R284 to R287, R292, R293).
-/

namespace Sys2Proof.Machine

/-! ## What memory holds, through what decides it -/

section
variable {s t : State}

theorem keyOf_of_beside (h : t.beside = s.beside) : t.keyOf = s.keyOf := by
  simp only [State.beside, Prod.mk.injEq] at h
  obtain ⟨-, -, -, hprofile, -⟩ := h
  funext a
  rw [State.keyOf, State.profileK, hprofile]
  rfl

theorem carveShare_of_beside (h : t.beside = s.beside) : t.carveShare = s.carveShare := by
  simp only [State.beside, Prod.mk.injEq] at h
  obtain ⟨-, hframe, -, -, -⟩ := h
  funext p c
  rw [State.carveShare, hframe]
  rfl

theorem regionCtrl_of_beside (h : t.beside = s.beside) : t.regionCtrl = s.regionCtrl := by
  funext p r d
  rw [State.regionCtrl, State.regionCtrls, carveShare_of_beside h]
  rfl

theorem resolve_of_beside (h : t.beside = s.beside) : t.resolve = s.resolve := by
  funext p uses a
  rw [State.resolve, keyOf_of_beside h, regionCtrl_of_beside h, part_of_beside h]
  rfl

theorem placeCtrl_of_beside (h : t.beside = s.beside) (place : Nat) : t.placeCtrl place = s.placeCtrl place := by
  rw [State.placeCtrl, resolve_of_beside h]
  rfl

theorem residue_of_beside (h : t.beside = s.beside) (hstale : t.mem.stale = s.mem.stale) (sec : Nat) :
    t.residue sec = s.residue sec := by
  rw [State.residue, placeCtrl_of_beside h, hstale]
  rfl

end

/-- What a read through Prism leaves as it was: memory, the outputs, and what stands beside memory. -/
def State.stored (s : State) : Mem × List Out × List (Nat × Tile) × FrameImage × List (Nat × Part) × Nat × Nat :=
  (s.mem, s.out, s.beside)

section
variable {s t : State}

theorem stored_iff : t.stored = s.stored ↔ t.mem = s.mem ∧ t.out = s.out ∧ t.beside = s.beside := by
  simp only [State.stored, Prod.mk.injEq]

theorem tiles_of_stored (h : t.stored = s.stored) : t.tiles = s.tiles := by
  obtain ⟨-, -, hbeside⟩ := stored_iff.1 h
  simp only [State.beside, Prod.mk.injEq] at hbeside
  exact hbeside.1

theorem residue_of_stored (h : t.stored = s.stored) (sec : Nat) : t.residue sec = s.residue sec := by
  obtain ⟨hmem, -, hbeside⟩ := stored_iff.1 h
  exact residue_of_beside hbeside (by rw [hmem]) sec

theorem line_of_stored (h : t.stored = s.stored) (ln : Nat) : t.line ln = s.line ln := by
  rw [State.line, residue_of_stored h, (stored_iff.1 h).1]
  rfl

theorem lineData_of_stored (h : t.stored = s.stored) (ln : Nat) : t.lineData ln = s.lineData ln := by
  rw [State.lineData, residue_of_stored h, (stored_iff.1 h).1]
  rfl

theorem major_of_stored (h : t.stored = s.stored) (sec : Nat) : t.major sec = s.major sec := by
  rw [State.major, residue_of_stored h, (stored_iff.1 h).1]
  rfl

end

/-! ## What a read leaves (R286, R289; 16_reliability_and_integrity.md R388) -/

section
variable (s : State)

theorem stored_tick : s.tick.stored = s.stored := rfl

theorem stored_settle (c sec : Nat) : (s.settle c sec).stored = s.stored := by
  unfold State.settle
  split <;> rfl

theorem stored_noteLeaf (c sec : Nat) : (s.noteLeaf c sec).stored = s.stored := by
  unfold State.noteLeaf
  split <;> rfl

theorem stored_setF {f : Fld} (hf : f.beside = true) (i j v : Nat) : (s.setF f i j v).stored = s.stored :=
  stored_iff.2 ⟨rfl, rfl, beside_setF hf ..⟩

theorem stored_prismCount {f : Fld} (hf : f.beside = true) (c n : Nat) : (s.prismCount f c n).stored = s.stored := by
  unfold State.prismCount
  split
  · exact stored_setF s hf ..
  · rfl

theorem stored_touchKey (c k : Nat) : (s.touchKey c k).stored = s.stored := by
  unfold State.touchKey
  extract_lets l l'
  split <;> rfl

theorem stored_passed (g : Gate) : (s.passed g).stored = s.stored := (stored_touchKey ..).trans (stored_settle ..)

theorem stored_noteRefusal (m code c a : Nat) : (s.noteRefusal m code c a).stored = s.stored :=
  stored_iff.2 ⟨by rw [noteRefusal_frame], by rw [noteRefusal_frame], beside_noteRefusal ..⟩

theorem stored_eccLast (c sec line area cw sym : Nat) (ue : Bool) : (s.eccLast c sec line area cw sym ue).stored = s.stored := by
  unfold State.eccLast
  split
  · simp (disch := decide) only [stored_setF]
  · rfl

theorem stored_countCe (c ln cw sym : Nat) : (s.countCe c ln cw sym).stored = s.stored := by
  unfold State.countCe State.countCeIn
  extract_lets t th
  have counted : t.stored = s.stored := by
    refine (stored_eccLast ..).trans ?_
    unfold State.eccCount
    split
    · exact stored_setF s (by decide) ..
    · rfl
  split
  · exact (stored_setF t (by decide) ..).trans counted
  · exact counted

theorem stored_readEcc (c ln : Nat) : (s.readEcc c ln).stored = s.stored := by
  unfold State.readEcc
  extract_lets l
  split
  · rfl
  · exact stored_countCe ..

theorem stored_lookup (c sec : Nat) : (s.lookup c sec).stored = s.stored := by
  unfold State.lookup
  split
  · extract_lets settled q hit t
    have counted : t.stored = s.stored := by
      unfold t
      split <;> exact (stored_prismCount settled (by decide) ..).trans (stored_settle ..)
    split <;> exact counted
  · rfl

theorem stored_readLine (m c a ln key : Nat) : (s.readLine m c a ln key).1.stored = s.stored := by
  unfold State.readLine
  extract_lets t l
  have looked_up : t.stored = s.stored := (stored_readEcc ..).trans (stored_lookup ..)
  have refused : ((t.prismCount Reg.PRISM_n_TAG_FAIL_COUNT c 1).noteRefusal m 0x0202 c a).stored = s.stored :=
    (stored_noteRefusal ..).trans ((stored_prismCount t (by decide) ..).trans looked_up)
  split_ifs
  · exact looked_up
  · exact looked_up
  · exact refused
  · exact looked_up
  · exact looked_up

end

/-! ## What a read gives (R286, R287) -/

section
variable {s : State} {m c a ln key : Nat}

/-- A line never written reads as zeros. -/
theorem readLine_of_fresh (hline : s.line ln = Line.fresh) (hmajor : s.major (ln / 64) = 0) :
    (s.readLine m c a ln key).2 = .ok (zeros 64) := by
  unfold State.readLine
  extract_lets t l
  have looked_up : t.stored = s.stored := (stored_readEcc ..).trans (stored_lookup ..)
  have fresh : l = Line.fresh := (line_of_stored looked_up ln).trans hline
  rw [if_neg (by rw [fresh]; decide), if_pos (by rw [major_of_stored looked_up, hmajor, fresh]; rfl)]

/-- A line that was written under the key in force and is intact reads as its bytes. -/
theorem readLine_of_intact (hpoison : (s.line ln).poison = 0) (hminor : (s.line ln).minor ≠ 0) (hbad : (s.line ln).bad = false)
    (hkey : (s.line ln).key = key) : (s.readLine m c a ln key).2 = .ok (s.lineData ln) := by
  unfold State.readLine
  extract_lets t l
  have looked_up : t.stored = s.stored := (stored_readEcc ..).trans (stored_lookup ..)
  have same : l = s.line ln := line_of_stored looked_up ln
  clear_value l
  subst same
  have same_tag_key : ¬ ((s.line ln).bad || decide ((s.line ln).key / 2 ^ 512 ≠ key / 2 ^ 512)) = true := by
    rw [hbad, hkey, Bool.false_or]
    exact fun h => of_decide_eq_true h rfl
  rw [if_neg (not_not.2 hpoison), if_neg (by simp [hminor]), if_neg same_tag_key, if_pos hkey, lineData_of_stored looked_up]

end

/-! ## What a write leaves (R292) -/

/-- A line as a write under a key leaves it. -/
def Line.written (l : Line) (key : Nat) : Line :=
  { live := true, minor := l.minor + 1, key := key, poison := 0, bad := false, ce := 0, tag := none }

section
variable (s : State) {k ln : Nat} (l : Line) (b : Bytes)

theorem line_setLine_same (ln : Nat) : (s.setLine ln l b).line ln = { l with live := true } := by
  simp only [State.line, State.setLine, smapGet_set_same, if_true]

theorem lineData_setLine_same (ln : Nat) {b : Bytes} (h : b.length = 64) : (s.setLine ln l b).lineData ln = b := by
  simp only [State.lineData, State.setLine, smapGet_set_same, if_true, ← h, smapRead_write]

theorem residue_setLine (ln sec : Nat) : (s.setLine ln l b).residue sec = s.residue sec :=
  residue_of_beside (beside_setLine ..) rfl sec

theorem line_setLine_other (h : k ≠ ln) : (s.setLine ln l b).line k = s.line k := by
  simp only [State.line, residue_setLine]
  simp only [State.setLine, smapGet_set_other _ _ _ _ _ _ h]

theorem lineData_setLine_other (h : k ≠ ln) {b : Bytes} (hlen : b.length = 64) :
    (s.setLine ln l b).lineData k = s.lineData k := by
  have bytes_kept : smapRead 0 (smapWrite 0 s.mem.bytes (64 * ln) b) (64 * k) 64 = smapRead 0 s.mem.bytes (64 * k) 64 := by
    refine List.map_congr_left fun i hi => smapGet_write_other _ _ _ _ _ _ ?_
    have := List.mem_range.1 hi
    omega
  simp only [State.lineData, residue_setLine]
  simp only [State.setLine, smapGet_set_other _ _ _ _ _ _ h, bytes_kept]

end

section
variable {s : State} {m c a ln keyId key : Nat} {b : Bytes}

/-- A write finds room where the line is not lost and its minor counter is below its end. -/
theorem writeLine_of_room (hpoison : (s.line ln).poison ≠ 0x0203) (hminor : (s.line ln).minor ≠ 127) :
    s.writeLine m c a ln keyId key b =
      ((((s.lookup c (ln / 64)).setLine ln ((s.line ln).written key) (fit 64 b)).noteLeaf c (ln / 64)), none) := by
  unfold State.writeLine
  extract_lets t l u n
  have same : l = s.line ln := line_of_stored (stored_lookup ..) ln
  have no_refresh : u = t := if_neg (by rwa [same])
  have counted : n = (s.line ln).minor := (if_neg (by rwa [same])).trans (congrArg Line.minor same)
  rw [if_neg (by rwa [same]), if_neg (by simp [same, hminor]), no_refresh, counted]
  rfl

/-- What a write that finds room leaves. -/
theorem writeLine_effect (hpoison : (s.line ln).poison ≠ 0x0203) (hminor : (s.line ln).minor ≠ 127) (hlen : b.length = 64) :
    let u := (s.writeLine m c a ln keyId key b).1
    u.out = s.out ∧ u.tiles = s.tiles ∧ u.lineData ln = b ∧ u.line ln = (s.line ln).written key ∧
      ∀ k, k ≠ ln → u.lineData k = s.lineData k ∧ u.line k = s.line k := by
  rw [writeLine_of_room hpoison hminor, fit_of_length hlen]
  intro u
  have looked_up := stored_lookup s c (ln / 64)
  have leaf : u.stored = ((s.lookup c (ln / 64)).setLine ln ((s.line ln).written key) b).stored := stored_noteLeaf ..
  have tiles_kept : u.tiles = s.tiles := (tiles_of_stored leaf).trans ((setLine_tiles ..).trans (tiles_of_stored looked_up))
  refine ⟨(stored_iff.1 leaf).2.1.trans (stored_iff.1 looked_up).2.1, tiles_kept,
    (lineData_of_stored leaf ln).trans (lineData_setLine_same _ _ ln hlen), (line_of_stored leaf ln).trans (line_setLine_same ..),
    fun k hk => ⟨?_, ?_⟩⟩
  · rw [lineData_of_stored leaf, lineData_setLine_other _ _ hk hlen, lineData_of_stored looked_up]
  · rw [line_of_stored leaf, line_setLine_other _ _ _ hk, line_of_stored looked_up]

theorem writeOutcome_of_room (hpoison : (s.line ln).poison ≠ 0x0203) (hminor : (s.line ln).minor ≠ 127) :
    writeOutcome (s.writeLine m c a ln keyId key b) = ((s.writeLine m c a ln keyId key b).1, .ok []) := by
  rw [writeLine_of_room hpoison hminor]
  rfl

end

/-! ## Bytes of a line (R293) -/

theorem ofBits_lt (n : Nat) (f : Nat → Bool) : ofBits n f < 2 ^ n := by
  induction n with
  | zero => exact Nat.one_pos
  | succ n ih =>
    rw [ofBits_succ, Nat.pow_succ]
    split <;> omega

theorem bit_eq_testBit (x i : Nat) : bit x i = x.testBit i := by
  rw [bit, Nat.testBit_eq_decide_div_mod_eq]

theorem bit_ofBits {n i : Nat} (h : i < n) (f : Nat → Bool) : bit (ofBits n f) i = f i := by
  induction n with
  | zero => exact absurd h (Nat.not_lt_zero i)
  | succ n ih =>
    rw [ofBits_succ, bit_eq_testBit, Nat.add_comm]
    rcases Nat.lt_succ_iff_lt_or_eq.1 h with hlow | rfl
    · rw [← ih hlow, bit_eq_testBit]
      split
      · exact Nat.testBit_two_pow_add_gt hlow _
      · rw [Nat.zero_add]
    · have high_clear := Nat.testBit_lt_two_pow (ofBits_lt i f)
      split
      · next hf => rw [Nat.testBit_two_pow_add_eq, high_clear, hf, Bool.not_false]
      · next hf => rw [Nat.zero_add, high_clear, Bool.eq_false_of_not_eq_true hf]

/-- The bytes that a mask names, taken into a line, replace those of the line. -/
theorem merged_bytes {off : Nat} {old data : Bytes} (hold : old.length = 64) (h : off + data.length ≤ 64) :
    ((List.range 64).map fun i => if bit (maskOf off data.length) i then (zeros off ++ data).getD i 0 else old.getD i 0) =
      old.take off ++ data ++ old.drop (off + data.length) := by
  refine List.ext_getElem (by simp; omega) fun i hi _ => ?_
  have below : i < 64 := by simpa using hi
  have in_old : i < old.length := hold ▸ below
  have cut : min off old.length = off := by omega
  simp only [List.getElem_map, List.getElem_range, maskOf, bit_ofBits below, List.getElem_append, List.length_append,
    List.length_take, cut, List.getElem_take, List.getElem_drop]
  rcases Nat.lt_or_ge i off with hlow | hlow
  · simp [in_old, hlow, Nat.not_le.2 hlow, Nat.lt_add_right]
  rcases Nat.lt_or_ge i (off + data.length) with hmid | hhigh
  · simp [hlow, hmid, zeros, Nat.not_lt.2 hlow]
  · simp [Nat.not_lt.2 hhigh, in_old, Nat.add_sub_cancel' hhigh]

/-! ## The accesses -/

section
variable {s : State} {m : Fin 36} {space : Fin 33} {addr : Word} {data : List Byte} {g : Gate}

/-- A partial write of a master that may issue one writes the line it has read with its bytes replaced. -/
theorem prismPartialWrite_of_room {v : State} {old : Bytes} (hmaster : m.val = 32 ∨ m.val = 34 ∨ m.val = 35)
    (hfits : addr.toNat % 64 + data.length ≤ 64) (hgate : s.gate m space (s.part m).uses true addr.toNat = .ok g)
    (hread : ((s.passed g).prismCount Reg.PRISM_n_PARTIAL_COUNT g.ctrl 1).readLine m g.ctrl addr.toNat (g.place / 64) g.key =
      (v, .ok old))
    (hold : old.length = 64) (hpoison : (v.line (g.place / 64)).poison ≠ 0x0203)
    (hminor : (v.line (g.place / 64)).minor ≠ 127) :
    exec (.prismPartialWrite m space addr data .none) s =
      .next (v.writeLine m g.ctrl addr.toNat (g.place / 64) g.keyId g.key
        (old.take (addr.toNat % 64) ++ data ++ old.drop (addr.toNat % 64 + data.length))).1 := by
  have issues : (decide (m.val = 32) || decide (m.val = 34) || decide (m.val = 35)) = true := by
    simpa [or_assoc] using hmaster
  have whole : data.take (64 - addr.toNat % 64) = data := List.take_of_length_le (by omega)
  show execPrismPartialWrite m space addr data .none s = _
  rw [execPrismPartialWrite, if_pos issues, whole, State.partAccess, State.mergeAccess, access_of_passed hgate, hread]
  dsimp only
  rw [merged_bytes hold hfits, writeOutcome_of_room hpoison hminor]
  rfl

section
variable (haligned : addr.toNat % 64 = 0)
include haligned

theorem prismLineWrite_of_room (hgate : s.gate m space (s.part m).uses true addr.toNat = .ok g) (hlen : data.length = 64)
    (hpoison : (s.line (g.place / 64)).poison ≠ 0x0203) (hminor : (s.line (g.place / 64)).minor ≠ 127) :
    exec (.prismLineWrite m space addr data .none) s =
      .next ((s.passed g).writeLine m g.ctrl addr.toNat (g.place / 64) g.keyId g.key data).1 := by
  have same := line_of_stored (stored_passed s g) (g.place / 64)
  rw [prismLineWrite_of_aligned haligned, State.writeAccess, access_of_passed hgate, fit_of_length hlen]
  rw [writeOutcome_of_room (by rwa [same]) (by rwa [same])]
  rfl

/-- An accepted read emits what the line reads as. -/
theorem prismLineRead_of_ok (hgate : s.gate m space (s.part m).uses false addr.toNat = .ok g)
    (hraw : s.rawReads m addr.toNat = false)
    (hread : ((s.passed g).readLine m g.ctrl addr.toNat (g.place / 64) g.key).2 = .ok data) :
    ∃ v, exec (.prismLineRead m space addr .none) s = .next v ∧ v.out = s.out ++ [.line data] ∧ v.mem = s.mem := by
  have read_keeps := stored_iff.1 ((stored_readLine (s.passed g) m g.ctrl addr.toNat (g.place / 64) g.key).trans (stored_passed s g))
  obtain ⟨hmem, hout, -⟩ := read_keeps
  have answers : exec (.prismLineRead m space addr .none) s =
      .next (((s.passed g).readLine m g.ctrl addr.toNat (g.place / 64) g.key).1.emit (.line data)) := by
    rw [prismLineRead_of_aligned haligned hraw, State.readAccess, access_of_passed hgate, hread]
    rfl
  exact ⟨_, answers, congrArg (· ++ [Out.line data]) hout, hmem⟩

end

end

/-- Settles O36: a write leaves its line as `writeLine_effect` says, a read gives a line never written as `readLine_of_fresh` and a
written one as `readLine_of_intact` says, and a partial write is the write of the merged line. -/
theorem lineWritesAndReads : Obligations.LineWritesAndReads := by
  refine ⟨fun s m space addr data g haligned hlen => ?whole, fun s m space addr g haligned hgate hraw hline hmajor => ?fresh,
    fun s v m space addr data old g hmaster hfits => ?part⟩
  case whole =>
    intro a ln hgate hpoison hminor
    have passed := stored_passed s g
    have same := line_of_stored passed ln
    obtain ⟨hout, htiles, hdata, hline, hother⟩ := writeLine_effect (m := m) (c := g.ctrl) (a := a)
      (keyId := g.keyId) (key := g.key) (same ▸ hpoison) (same ▸ hminor) hlen
    refine ⟨_, prismLineWrite_of_room haligned hgate hlen hpoison hminor, hout.trans (stored_iff.1 passed).2.1,
      htiles.trans (tiles_of_stored passed), hdata, fun k hk => ?_, fun hread hraw => ?_⟩
    · obtain ⟨hkdata, hkline⟩ := hother k hk
      exact ⟨hkdata.trans (lineData_of_stored passed k), hkline.trans (line_of_stored passed k)⟩
    · have again := stored_passed ((s.passed g).writeLine m g.ctrl a ln g.keyId g.key data).1 g
      have kept := (line_of_stored again ln).trans hline
      refine prismLineRead_of_ok haligned hread hraw ((readLine_of_intact ?_ ?_ ?_ ?_).trans ?_)
      · exact congrArg Line.poison kept
      · exact (congrArg Line.minor kept).trans_ne (Nat.succ_ne_zero _)
      · exact congrArg Line.bad kept
      · exact congrArg Line.key kept
      · exact congrArg _ ((lineData_of_stored again ln).trans hdata)
  case fresh =>
    have passed := stored_passed s g
    refine prismLineRead_of_ok haligned hgate hraw (readLine_of_fresh ((line_of_stored passed _).trans hline) ?_)
    rw [major_of_stored passed, Nat.div_div_eq_div_mul]
    exact hmajor
  case part =>
    intro a off ln hgate hread hold hpoison hminor
    have read_keeps : v.stored = s.stored := by
      have kept := stored_readLine ((s.passed g).prismCount Reg.PRISM_n_PARTIAL_COUNT g.ctrl 1) m g.ctrl a ln g.key
      rw [State.passed, hread] at kept
      exact kept.trans ((stored_prismCount _ (by decide) ..).trans (stored_passed s g))
    obtain ⟨hout, -, hdata, -, hother⟩ := writeLine_effect (m := m) (c := g.ctrl) (a := a)
      (keyId := g.keyId) (key := g.key) (b := old.take off ++ data ++ old.drop (off + data.length)) hpoison hminor
      (by simp [hold]; omega)
    exact ⟨_, prismPartialWrite_of_room hmaster hfits hgate hread hold hpoison hminor, hout.trans (stored_iff.1 read_keeps).2.1,
      hdata, fun k hk => (hother k hk).1⟩

end Sys2Proof.Machine
end

section
/-!
PROOFS. The key table: KEY_CMD, the key caches and the Floodlight passes that a ROTATE starts (12_prism_memory_protection.md R295,
R299, R301; 16_reliability_and_integrity.md R401, R402).
-/

namespace Sys2Proof.Machine

/-! ## Runs over a list -/

/-- What one element of a list brings about and every element keeps holds after the run over the list. -/
theorem foldl_reaches {α β : Type} {P : α → Prop} {f : α → β → α} {l : List β} {b : β} (hb : b ∈ l)
    (reach : ∀ a, P (f a b)) (keep : ∀ a c, P a → P (f a c)) (a : α) : P (l.foldl f a) := by
  induction l generalizing a with
  | nil => exact absurd hb List.not_mem_nil
  | cons c l ih =>
    rcases List.mem_cons.1 hb with rfl | hl
    · exact List.foldlRecOn (motive := P) l f (reach a) fun t ht c _ => keep t c ht
    · exact ih hl _

/-! ## Keys and key caches (R299, R301) -/

/-- The entries of the key table, and the key caches. -/
def Prism.keying (p : Prism) : List (Nat × KeyEntry) × List (Nat × List Nat) := (p.keys, p.keyCache)

section
variable {s t : State}

theorem keyEntry_of_keying (h : t.prism.keying = s.prism.keying) (k : Nat) : t.keyEntry k = s.keyEntry k := by
  simp only [Prism.keying, Prod.mk.injEq] at h
  rw [State.keyEntry, h.1, State.keyEntry]

theorem keyCache_of_keying (h : t.prism.keying = s.prism.keying) (c : Nat) :
    smapGet [] t.prism.keyCache c = smapGet [] s.prism.keyCache c := by
  simp only [Prism.keying, Prod.mk.injEq] at h
  rw [h.2]

end

section
variable (s : State) (k : Nat) (f : KeyEntry → KeyEntry)

theorem keyEntry_updKey_same : (s.updKey k f).keyEntry k = f (s.keyEntry k) := smapGet_upd_same ..

theorem keyEntry_updKey_other {j : Nat} (h : j ≠ k) : (s.updKey k f).keyEntry j = s.keyEntry j := smapGet_upd_other _ _ _ h

theorem flushKeys_keys (ks : List Nat) : (s.flushKeys ks).prism.keys = s.prism.keys :=
  foldl_keeps (fun t : State => t.prism.keys) (fun _ _ _ => by rfl) s

theorem flushKeys_regs (ks : List Nat) : (s.flushKeys ks).regs = s.regs := foldl_keeps State.regs (fun _ _ _ => by rfl) s

theorem flushKeys_mem (ks : List Nat) : (s.flushKeys ks).mem = s.mem := foldl_keeps State.mem (fun _ _ _ => by rfl) s

/-- No key cache holds a key that has been flushed. -/
theorem not_mem_flushKeys {c : Nat} (hc : c < 12) : k ∉ smapGet [] (s.flushKeys [k]).prism.keyCache c := by
  refine foldl_reaches (P := fun t : State => k ∉ smapGet [] t.prism.keyCache c) (List.mem_range.2 hc) (fun t => ?_)
    (fun t d ht => ?_) s
  · dsimp only
    rw [smapGet_upd_same]
    simp
  · dsimp only
    rcases eq_or_ne c d with rfl | hd
    · rw [smapGet_upd_same]
      exact fun hmem => ht (List.mem_filter.1 hmem).1
    · rwa [smapGet_upd_other _ _ _ hd]

theorem keying_syncRights : s.syncRights.prism.keying = s.prism.keying := rfl

theorem syncRights_mem : s.syncRights.mem = s.mem := rfl

theorem updKey_mem : (s.updKey k f).mem = s.mem := rfl

theorem keyEnd_prism (code : Nat) : (s.keyEnd code).prism = s.prism := rfl

theorem keyEnd_mem (code : Nat) : (s.keyEnd code).mem = s.mem := rfl

/-- The key table and the key caches where an entry has been changed and its key flushed. -/
theorem erased_effect {u : State} (h : u.prism.keying = ((s.updKey k f).flushKeys [k]).prism.keying) :
    u.keyEntry k = f (s.keyEntry k) ∧ (∀ j, j ≠ k → u.keyEntry j = s.keyEntry j) ∧
      ∀ c < 12, k ∉ smapGet [] u.prism.keyCache c := by
  have entry (j : Nat) : u.keyEntry j = (s.updKey k f).keyEntry j := by
    rw [keyEntry_of_keying h, State.keyEntry, flushKeys_keys, State.keyEntry]
  refine ⟨(entry k).trans (keyEntry_updKey_same ..), fun j hj => (entry j).trans (keyEntry_updKey_other _ _ _ hj), fun c hc => ?_⟩
  rw [keyCache_of_keying h]
  exact not_mem_flushKeys _ k hc

end

/-! ## Sectors that are initialised under a key (R301; log 27) -/

section
variable (s : State)

theorem keying_zeroLeaf (p : Prism) (c index : Nat) : (p.zeroLeaf c index).keying = p.keying := by
  unfold Prism.zeroLeaf Prism.enterLeaf Prism.fixPath
  refine (foldl_keeps Prism.keying (fun q i _ => ?_) _).trans rfl
  dsimp only
  split <;> rfl

theorem keying_clearLeaf (c sec : Nat) : (s.clearLeaf c sec).prism.keying = s.prism.keying := by
  unfold State.clearLeaf
  split
  · exact keying_zeroLeaf ..
  · rfl

theorem keying_initSector (sec : Nat) : (s.initSector sec).prism.keying = s.prism.keying := by
  unfold State.initSector
  extract_lets fresh t
  have lines_keep : t.prism = s.prism := foldl_keeps State.prism (fun _ _ _ => setLine_prism ..) s
  rw [keying_clearLeaf, setMajor_prism, lines_keep]

theorem setWearList_prism (c : Nat) (l : List (Nat × Nat × Nat)) : (s.setWearList c l).prism = s.prism :=
  foldl_keeps State.prism (fun _ _ _ => by rfl) s

theorem keying_wearInit (k : Nat) : (s.wearInit k).prism.keying = s.prism.keying := by
  refine foldl_keeps (fun t : State => t.prism.keying) (fun t c _ => ?_) s
  refine (congrArg Prism.keying (setWearList_prism ..)).trans ?_
  refine foldl_keeps (fun t : State => t.prism.keying) (fun u e _ => ?_) t
  refine foldl_keeps (fun t : State => t.prism.keying) (fun v space _ => ?_) u
  dsimp only
  split
  · rfl
  · exact keying_initSector ..

theorem wearCtrls_of_regs {s t : State} (h : t.regs = s.regs) (k : Nat) : t.wearCtrls k = s.wearCtrls k := by
  simp only [State.wearCtrls, State.wearList, getF_of_regs h]

theorem wearInit_of_none {k : Nat} (h : s.wearCtrls k = []) : s.wearInit k = s := by
  rw [State.wearInit, h]
  rfl

theorem lt_of_mem_wearCtrls {k c : Nat} (h : c ∈ s.wearCtrls k) : c < 12 := List.mem_range.1 (List.mem_filter.1 h).1

end

/-! ## Floodlight passes begin (16_reliability_and_integrity.md R401, R402) -/

section
variable (s : State)

/-- FLOOD_STAT shows a pass that runs, and INIT where something waits for one. -/
theorem showFlood_of_init {c what : Nat} (hpass : (c, what) ∈ s.mem.floods) (hinit : what ≠ 34) :
    (s.showFlood c).getF Reg.FLOOD_STAT_BUSY c 0 = 1 ∧ (s.showFlood c).getF Reg.FLOOD_STAT_MODE c 0 = 1 := by
  have listed : what ∈ (s.mem.floods.filter fun x => x.1 = c).map (·.2) :=
    List.mem_map.2 ⟨_, List.mem_filter.2 ⟨hpass, decide_eq_true rfl⟩, rfl⟩
  unfold State.showFlood
  extract_lets l
  have some_pass : ¬ l.isEmpty = true := by
    rw [List.isEmpty_iff]
    exact List.ne_nil_of_mem listed
  have some_init : (l.any fun w => w ≠ 34) = true := List.any_eq_true.2 ⟨what, listed, decide_eq_true hinit⟩
  rw [if_neg some_pass, if_pos some_init]
  simp (disch := decide) only [tick_getF, getF_setF_of_lo, getF_setF_same]
  decide

theorem getF_showFlood_other {f : Fld} (hf : f ∈ [Reg.FLOOD_STAT_BUSY, Reg.FLOOD_STAT_MODE]) {c d : Nat} (h : c ≠ d) :
    (s.showFlood d).getF f c 0 = s.getF f c 0 := by
  obtain ⟨hstride, hlow⟩ : 0 < f.s1 ∧ f.lo < 64 := by revert f; decide
  have other {g : Fld} (hg : g ∈ [Reg.FLOOD_STAT_BUSY, Reg.FLOOD_STAT_MODE, Reg.FLOOD_STAT_REMAIN_MIB, Reg.MC_STAT_GLIMMER_ACTIVE])
      (t : State) (v : Nat) : (t.setF g d 0 v).getF f c 0 = t.getF f c 0 := by
    have same_or_apart : g = f ∨ g.lo ≠ f.lo ∧ g.lo < 64 := by revert f g; decide
    rcases same_or_apart with rfl | ⟨hlo, hg⟩
    · exact getF_setF_of_copy hstride h ..
    · exact getF_setF_of_lo hlo hg hlow ..
  unfold State.showFlood
  extract_lets l
  split <;> simp (disch := decide) only [tick_getF, other]

/-- Where INIT passes begin on controllers, FLOOD_STAT shows them. -/
theorem startFlood_of_init {what : Nat} (hinit : what ≠ 34) {l : List Nat} {c : Nat} (hc : c ∈ l) :
    (s.startFlood what l).getF Reg.FLOOD_STAT_BUSY c 0 = 1 ∧ (s.startFlood what l).getF Reg.FLOOD_STAT_MODE c 0 = 1 := by
  have listed : (c, what) ∈ (s.startFlood what l).mem.floods := by
    rw [startFlood_floods]
    exact List.mem_append_right _ (List.mem_map_of_mem hc)
  refine foldl_reaches (P := fun t : State => (c, what) ∈ t.mem.floods →
    t.getF Reg.FLOOD_STAT_BUSY c 0 = 1 ∧ t.getF Reg.FLOOD_STAT_MODE c 0 = 1) hc (fun t ht => ?_) (fun t d ht hpass => ?_) _ listed
  · exact showFlood_of_init t (showFlood_mem t c ▸ ht) hinit
  · rw [showFlood_mem] at hpass
    rcases eq_or_ne c d with rfl | hd
    · exact showFlood_of_init t hpass hinit
    · rw [getF_showFlood_other t (by decide) hd, getF_showFlood_other t (by decide) hd]
      exact ht hpass

/-- FLOOD_STAT and MC_STAT lie above the registers of the hub and of Prism. -/
theorem get_startFlood {f : Fld} (hf : f.base < Reg.MC_STAT_GLIMMER_ACTIVE.base) (hlo : f.lo < 64) (what : Nat) (l : List Nat) :
    (s.startFlood what l).get f = s.get f := by
  refine (foldl_keeps (fun t : State => t.get f) (fun t c _ => ?_) _).trans rfl
  have below {g : Fld} (hg : Reg.MC_STAT_GLIMMER_ACTIVE.base ≤ g.base) (t : State) (v : Nat) : (t.setF g c 0 v).get f = t.get f :=
    getF_setF_other _ _ _ _ _ _ _ _ (key_ne_of_base_lt (Nat.lt_of_lt_of_le hf hg) hlo c 0)
  unfold State.showFlood
  extract_lets l
  split <;> simp (disch := decide) only [tick_get, below]

theorem startFlood_prism (what : Nat) (l : List Nat) : (s.startFlood what l).prism = s.prism := by
  refine (foldl_keeps State.prism (fun t c _ => ?_) _).trans rfl
  unfold State.showFlood
  extract_lets l
  split <;> rfl

end

/-! ## KEY_CMD (R301) -/

section
variable {s : State} (hup : s.hubUp = true) (hidle : s.get Reg.KEY_STAT_BUSY = 0)
include hup hidle

theorem keyCmd_of_idle (f : State → State) : s.keyCmd f = f s := by
  rw [State.keyCmd, cxlIo_of_hubUp hup, State.keyIdle, if_neg (by rw [hidle]; decide)]

theorem keyAlloc_of_lowest {i : Nat} (hpos : 0 < i) (hlt : i < 2048) (hfree : (s.keyEntry i).state = .free)
    (hlowest : ∀ j, 0 < j → j < i → (s.keyEntry j).state ≠ .free) :
    exec .keyAlloc s = .next (((s.updKey i fun e => { e with state := .reserved, owner := s.get Reg.KEY_CMD_OWNER, material := 0 }).set
      Reg.KEY_STAT_RESULT_KEY i).keyEnd 0) := by
  have found : ((List.range 2048).find? fun k => k ≠ 0 && (s.keyEntry k).state = .free) = some i := by
    rw [List.find?_range_eq_some]
    refine ⟨by simp [hfree, Nat.ne_of_gt hpos], List.mem_range.2 hlt, fun j hj => ?_⟩
    rcases Nat.eq_zero_or_pos j with rfl | hj'
    · rfl
    · simp [hlowest j hj' hj]
  show execKeyAlloc s = _
  rw [execKeyAlloc, keyCmd_of_idle hup hidle, found]

section
variable {k : Nat} (hkey : s.get Reg.KEY_CMD_KEY = k)
include hkey

theorem keyErase_of_refused {e : Nat} (h : s.keyGuard k = some e) {c : Instr} (hc : c = .keyRetire ∨ c = .keyRotate) :
    exec c s = .next (s.keyRefuse e) := by
  rcases hc with rfl | rfl
  · show execKeyRetire s = _
    rw [execKeyRetire, keyCmd_of_idle hup hidle, hkey, h]
  · show execKeyRotate s = _
    rw [execKeyRotate, keyCmd_of_idle hup hidle, hkey, h]

theorem keyRetire_of_unused (h : s.keyGuard k = none) : exec .keyRetire s =
    .next (((s.updKey k fun e => { KeyEntry.free with gen := e.gen }).flushKeys [k]).syncRights.keyEnd 0) := by
  show execKeyRetire s = _
  rw [execKeyRetire, keyCmd_of_idle hup hidle, hkey, h]

/-- ROTATE erases the key and initialises the sectors that wear lists name under it. -/
theorem keyRotate_of_unused (h : s.keyGuard k = none) : exec .keyRotate s = .next (
    let t := (((s.updKey k fun e => { e with state := .reserved, material := 0 }).flushKeys [k]).wearInit k).syncRights
    if s.wearCtrls k = [] then t.keyEnd 0 else (t.set Reg.KEY_STAT_BUSY 1).startFlood 33 (s.wearCtrls k)) := by
  show execKeyRotate s = _
  rw [execKeyRotate, keyCmd_of_idle hup hidle, hkey, h]
  simp only [List.isEmpty_iff]

theorem keyRead_of_entry (h : k < 2048) : exec .keyRead s =
    .next (((((s.set Reg.KEY_INFO_STATE (s.keyEntry k).state.num).set Reg.KEY_INFO_OWNER (s.keyEntry k).owner).set Reg.KEY_INFO_USERS
      (s.keyEntry k).users).set Reg.KEY_INFO_GEN (s.keyEntry k).gen).keyEnd 0) := by
  show execKeyRead s = _
  rw [execKeyRead, keyCmd_of_idle hup hidle, hkey, if_neg (Nat.not_le.2 h)]

end

end

section
variable (s : State)

theorem keyEnd_code {code : Nat} (h : code < 2 ^ 16) : (s.keyEnd code).get Reg.KEY_STAT_CODE = code := by
  rw [State.keyEnd, get_set_same]
  exact Nat.mod_eq_of_lt h

theorem keyEnd_done (code : Nat) : (s.keyEnd code).get Reg.KEY_STAT_DONE = 1 := by
  simp (disch := decide) only [State.keyEnd, get_set_other, get_set_same]
  decide

theorem keyRefuse_code {code : Nat} (h : code < 2 ^ 16) : (s.keyRefuse code).get Reg.KEY_STAT_CODE = code := by
  rw [State.keyRefuse, get_set_other _ _ _ _ (by decide), keyEnd_code s h]

theorem keyGuard_of_unused {k : Nat} (hpos : 0 < k) (hlt : k < 2048) (h : (s.keyEntry k).users = 0) : s.keyGuard k = none := by
  rw [State.keyGuard, if_neg (Nat.not_le.2 hlt), if_neg (Nat.ne_of_gt hpos), if_neg (not_not.2 h)]

theorem keyGuard_of_used {k : Nat} (hpos : 0 < k) (hlt : k < 2048) (h : (s.keyEntry k).users ≠ 0) : s.keyGuard k = some 0x0608 := by
  rw [State.keyGuard, if_neg (Nat.not_le.2 hlt), if_neg (Nat.ne_of_gt hpos), if_pos h]

end

section
variable {s : State} (hup : s.hubUp = true) (hidle : s.get Reg.KEY_STAT_BUSY = 0) {k : Nat} (hkey : s.get Reg.KEY_CMD_KEY = k)
  (hguard : s.keyGuard k = none)
include hup hidle hkey hguard

theorem keyRetire_effect : ∃ u, exec .keyRetire s = .next u ∧
    u.prism.keying = ((s.updKey k fun e => { KeyEntry.free with gen := e.gen }).flushKeys [k]).prism.keying ∧
    u.get Reg.KEY_STAT_CODE = 0 :=
  ⟨_, keyRetire_of_unused hup hidle hkey hguard, by rw [keyEnd_prism, keying_syncRights], keyEnd_code _ (by decide)⟩

theorem keyRotate_effect : ∃ u, exec .keyRotate s = .next u ∧
    u.prism.keying = ((s.updKey k fun e => { e with state := .reserved, material := 0 }).flushKeys [k]).prism.keying ∧
    (s.wearCtrls k = [] → u.mem = s.mem ∧ u.get Reg.KEY_STAT_DONE = 1 ∧ u.get Reg.KEY_STAT_CODE = 0) ∧
    (s.wearCtrls k ≠ [] → u.get Reg.KEY_STAT_BUSY = 1 ∧
      ∀ c ∈ s.wearCtrls k, u.getF Reg.FLOOD_STAT_BUSY c 0 = 1 ∧ u.getF Reg.FLOOD_STAT_MODE c 0 = 1) := by
  refine ⟨_, keyRotate_of_unused hup hidle hkey hguard, ?_⟩
  extract_lets t
  have erased : t.prism.keying = ((s.updKey k fun e => { e with state := .reserved, material := 0 }).flushKeys [k]).prism.keying :=
    (keying_syncRights _).trans (keying_wearInit ..)
  by_cases hwear : s.wearCtrls k = []
  · have flushed_regs : ((s.updKey k fun e => { e with state := .reserved, material := 0 }).flushKeys [k]).regs = s.regs :=
      flushKeys_regs ..
    have no_init := wearInit_of_none _ ((wearCtrls_of_regs flushed_regs k).trans hwear)
    have mem_kept : t.mem = s.mem := by
      unfold t
      rw [no_init, syncRights_mem, flushKeys_mem, updKey_mem]
    rw [if_pos hwear, keyEnd_prism, keyEnd_mem]
    exact ⟨erased, fun _ => ⟨mem_kept, keyEnd_done .., keyEnd_code _ (by decide)⟩, fun hsome => absurd hwear hsome⟩
  · rw [if_neg hwear]
    refine ⟨(congrArg Prism.keying ((startFlood_prism ..).trans (set_prism ..))).trans erased, fun hnone => absurd hnone hwear,
      fun _ => ⟨?_, fun c hc => startFlood_of_init _ (by decide) hc⟩⟩
    rw [get_startFlood _ (by decide) (by decide), get_set_same]
    rfl

end

/-- Settles O41: ALLOC finds the lowest FREE entry (`keyAlloc_of_lowest`), RETIRE and ROTATE erase an entry (`erased_effect`), and a
refused command (`keyErase_of_refused`) and READ leave the table. -/
theorem keyTable : Obligations.KeyTable := by
  intro s hup hidle k e
  refine ⟨fun i hpos hlt hfree hlowest => ?alloc, fun hpos hlt hunused => ⟨?retire, ?rotate⟩,
    fun c hc => ⟨fun hzero => ?systemKey, fun hpos hlt hused => ?usedKey⟩, fun hlt => ?read⟩
  case alloc =>
    refine ⟨_, keyAlloc_of_lowest hup hidle hpos hlt hfree hlowest, keyEntry_updKey_same ..,
      fun j hj => keyEntry_updKey_other _ _ _ hj, ?_, keyEnd_done .., keyEnd_code _ (by decide)⟩
    simp (disch := decide) only [State.keyEnd, get_set_other, get_set_same]
    exact Nat.mod_eq_of_lt hlt
  case retire =>
    obtain ⟨u, hu, herased, hcode⟩ := keyRetire_effect hup hidle rfl (keyGuard_of_unused s hpos hlt hunused)
    obtain ⟨hentry, hothers, hcaches⟩ := erased_effect s k _ herased
    exact ⟨u, hu, hentry, hothers, hcaches, hcode⟩
  case rotate =>
    obtain ⟨u, hu, herased, hclean, hworn⟩ := keyRotate_effect hup hidle rfl (keyGuard_of_unused s hpos hlt hunused)
    obtain ⟨hentry, hothers, hcaches⟩ := erased_effect s k _ herased
    exact ⟨u, hu, hentry, hothers, hcaches, hclean, hworn⟩
  case systemKey =>
    exact ⟨_, keyErase_of_refused hup hidle hzero rfl hc, rfl, keyRefuse_code s (by decide)⟩
  case usedKey =>
    exact ⟨_, keyErase_of_refused hup hidle rfl (keyGuard_of_used s hpos hlt hused) hc, rfl, keyRefuse_code s (by decide)⟩
  case read =>
    refine ⟨_, keyRead_of_entry hup hidle rfl hlt, rfl, ?_, fun howner => ?_, keyEnd_code _ (by decide)⟩
    · simp (disch := decide) only [State.keyEnd, get_set_other, get_set_same]
      cases e.state <;> rfl
    · simp (disch := decide) only [State.keyEnd, get_set_other, get_set_same]
      exact Nat.mod_eq_of_lt (Nat.lt_trans howner (by decide))

end Sys2Proof.Machine
end

section
/-!
PROOFS. The Steward's CXL.mem requests and the debug access port (12_prism_memory_protection.md R305; 14_host_attach.md R337, R340;
19_lifecycle_firmware_debug.md R465).
-/

namespace Sys2Proof.Machine

/-! ## CXL.mem (14_host_attach.md R337, R340) -/

section
variable {s v : State} {hpa : Word} {mask : BitVec 64} {data b : List Byte} {fault : LineFault} {a e : Nat}

/-- The window begins at a line, so the line of an address in it lies in it. -/
theorem hdm_of_window (hlo : 2 ^ 38 ≤ hpa.toNat) (hhi : hpa.toNat / 64 * 64 < 2 ^ 38 + s.stewardBytes) :
    s.hdm (hpa.toNat / 64 * 64) = some (hpa.toNat / 64 * 64 - 2 ^ 38) := by
  have line_in : 2 ^ 38 ≤ hpa.toNat / 64 * 64 := by omega
  rw [State.hdm, if_pos (by simpa using ⟨line_in, hhi⟩)]

theorem hdm_of_outside {n : Nat} (h : n < 2 ^ 38 ∨ 2 ^ 38 + s.stewardBytes ≤ n) : s.hdm n = none := by
  refine if_neg fun hin => ?_
  simp only [Bool.and_eq_true, decide_eq_true_eq] at hin
  omega

section
variable (h : s.hdm (hpa.toNat / 64 * 64) = none)
include h

theorem memrd_of_outside (fault : LineFault) : exec (.memrd hpa fault) s = .next s := by
  show execMemrd hpa fault s = _
  rw [execMemrd, h]
  cases s.memServed <;> rfl

theorem memwr_of_outside (data : List Byte) (fault : LineFault) : exec (.memwr hpa data fault) s = .next s := by
  show execMemwr hpa data fault s = _
  rw [execMemwr, h]
  cases s.memServed <;> rfl

theorem memwrptl_of_outside (mask : BitVec 64) (data : List Byte) (fault : LineFault) :
    exec (.memwrptl hpa mask data fault) s = .next s := by
  show execMemwrptl hpa mask data fault s = _
  rw [execMemwrptl, h]
  cases s.memServed <;> rfl

end

section
variable (hserved : s.memServed = true) (hhdm : s.hdm (hpa.toNat / 64 * 64) = some a)
include hserved hhdm

theorem memrd_of_ok (h : s.readAccess 34 0 a fault = (v, some (.ok b))) :
    exec (.memrd hpa fault) s = .next ((v.emit (.memData false b)).cacheLine (a / 64)) := by
  show execMemrd hpa fault s = _
  rw [execMemrd, hserved, hhdm]
  simp only [h]
  rfl

theorem memrd_of_error (h : s.readAccess 34 0 a fault = (v, some (.error e))) :
    exec (.memrd hpa fault) s = .next ((v.set Reg.STEWARD_STAT_LAST_ERR e).emit (.memData true (zeros 64))) := by
  show execMemrd hpa fault s = _
  rw [execMemrd, hserved, hhdm]
  simp only [h]
  rfl

theorem memwr_of_window (data : List Byte) (fault : LineFault) :
    exec (.memwr hpa data fault) s = .next (stewardGets (s.writeAccess 34 0 a (fit 64 data) fault) true) := by
  show execMemwr hpa data fault s = _
  rw [execMemwr, hserved, hhdm]

theorem memwrptl_of_window (mask : BitVec 64) (data : List Byte) (fault : LineFault) :
    exec (.memwrptl hpa mask data fault) s = .next (stewardGets (s.mergeAccess 34 0 a mask.toNat (fit 64 data) fault) true) := by
  show execMemwrptl hpa mask data fault s = _
  rw [execMemwrptl, hserved, hhdm]

end

end

/-! ## The debug access port (R305; 19_lifecycle_firmware_debug.md R465) -/

section
variable {s : State} {space : Fin 33} {addr : Word} (haligned : addr.toNat % 64 = 0)
include haligned

theorem debugRead_of_plain (hraw : s.rawReads 35 addr.toNat = false) (data : DebugData) :
    exec (.debugAccessPortAccess false space addr data) s = .next (readerGets (s.readAccess 35 space addr.toNat data.fault)) := by
  show execDebugAccessPortAccess false space addr data s = _
  simp only [execDebugAccessPortAccess, hraw, lineAddr_eq haligned, Bool.false_eq_true, if_false]

theorem debugRead_of_raw (hraw : s.rawReads 35 addr.toNat = true) (data : DebugData) :
    exec (.debugAccessPortAccess false space addr data) s = .next (s.rawAccess 35 space addr.toNat data.fault) := by
  show execDebugAccessPortAccess false space addr data s = _
  simp only [execDebugAccessPortAccess, hraw, lineAddr_eq haligned, Bool.false_eq_true, if_false, if_true]

theorem debugWrite_of_line {data : DebugData} (hlen : data.bytes.length = 64) : exec (.debugAccessPortAccess true space addr data) s =
    .next (writerGets (s.writeAccess 35 space addr.toNat data.bytes data.fault)) := by
  have whole_line : (decide (data.bytes.length = 64) && decide (addr.toNat % 64 = 0)) = true := by simp [hlen, haligned]
  show execDebugAccessPortAccess true space addr data s = _
  rw [execDebugAccessPortAccess, if_pos rfl, if_pos whole_line]

end

section
variable {s : State} {m space a : Nat} {g : Gate} {fault : LineFault} (hgate : s.gate m space [] false a = .ok g)
include hgate

/-- A raw read that meets an uncorrectable error gives none of the line. -/
theorem rawAccess_of_ue (hfault : eccFault fault = true) : s.rawAccess m space a fault =
    (s.strike g.ctrl g.place (if rawFault fault then fault else .none)).emit (.refused 0x0201) := by
  rw [State.rawAccess, hgate]
  exact if_pos hfault

/-- A raw read of a line without a correctable error gives what is stored. -/
theorem rawAccess_of_stored (hfault : eccFault fault = false) :
    let w := s.strike g.ctrl g.place (if rawFault fault then fault else .none)
    (w.line (g.place / 64)).ce = 0 →
      s.rawAccess m space a fault = w.tick.emit (.raw (w.storedLine (g.place / 64)).1 (w.storedLine (g.place / 64)).2) := by
  intro w hce
  rw [State.rawAccess, hgate]
  dsimp only
  rw [if_neg (by rw [hfault]; exact Bool.false_ne_true), if_pos hce]

end

/-- Settles O37, request by request. -/
theorem stewardMemoryRequests : Obligations.StewardMemoryRequests := by
  intro s hpa mask data fault hlen a rd wr mg
  have whole := fit_of_length hlen
  refine ⟨fun hserved hlo hhi => ?window, fun houtside => ?outside, fun space addr haligned => ⟨?plainRead, ?rawRead, ?write⟩⟩
  case window =>
    have hhdm := hdm_of_window hlo hhi
    have writes := (memwr_of_window hserved hhdm data fault).trans (by rw [whole])
    have merges := (memwrptl_of_window hserved hhdm mask data fault).trans (by rw [whole])
    have completes {r r' : State × Option (Except Nat Bytes)} (h : r = r') :
        (Host.Outcome.next (stewardGets r true) : Res) = .next (stewardGets r' true) := by rw [h]
    exact ⟨fun v b h => memrd_of_ok hserved hhdm h, fun v e h => memrd_of_error hserved hhdm h,
      fun v b h => writes.trans (completes h), fun v e h => writes.trans (completes h),
      fun v b h => merges.trans (completes h), fun v e h => merges.trans (completes h)⟩
  case outside =>
    have hhdm := hdm_of_outside houtside
    exact ⟨memrd_of_outside hhdm .., memwr_of_outside hhdm .., memwrptl_of_outside hhdm ..⟩
  case plainRead =>
    intro v b hraw h
    rw [debugRead_of_plain haligned hraw, h]
    rfl
  case rawRead =>
    intro g hraw hgate w
    have reads := debugRead_of_raw (space := space) haligned hraw ⟨[], fault⟩
    exact ⟨fun hue => reads.trans (congrArg _ (rawAccess_of_ue hgate hue)),
      fun hclear hce => reads.trans (congrArg _ (rawAccess_of_stored hgate hclear hce))⟩
  case write =>
    intro v b h
    rw [debugWrite_of_line haligned hlen, h]
    rfl

end Sys2Proof.Machine
end

section
/-!
PROOFS. The owner table: OWNER_CMD and what it reports (13_tenants_and_joint_training.md R309, R310).
-/

namespace Sys2Proof.Machine

/-! ## Entries (R309) -/

section
variable (s : State) (i : Nat) (f : Owner → Owner)

theorem owner_updOwner_same : (s.updOwner i f).owner i = f (s.owner i) := smapGet_upd_same ..

theorem owner_updOwner_other {j : Nat} (h : j ≠ i) : (s.updOwner i f).owner j = s.owner j := smapGet_upd_other _ _ _ h

end

theorem owner_of_owners {s t : State} (h : t.ten.owners = s.ten.owners) (j : Nat) : t.owner j = s.owner j := by
  rw [State.owner, h, State.owner]

/-- The lowest index above 0 with a property is the one that a search from 1 finds. -/
theorem find_lowest_index {P : Nat → Prop} [DecidablePred P] {n i : Nat} (hpos : 0 < i) (hlt : i < n) (hi : P i)
    (hlowest : ∀ j, 0 < j → j < i → ¬ P j) : ((List.range n).find? fun j => j ≠ 0 && P j) = some i := by
  rw [List.find?_range_eq_some]
  refine ⟨by simp [hi, Nat.ne_of_gt hpos], List.mem_range.2 hlt, fun j hj => ?_⟩
  rcases Nat.eq_zero_or_pos j with rfl | hj'
  · rfl
  · simp [hlowest j hj' hj]

/-! ## What OWNER_STAT reports (R310) -/

/-- OWNER_STAT reports that a command has ended with CODE and REASON. -/
def OwnerEnded (u : State) (code reason : Nat) : Prop :=
  u.get Reg.OWNER_STAT_DONE = 1 ∧ u.get Reg.OWNER_STAT_CODE = code ∧ u.get Reg.OWNER_STAT_REASON = reason

theorem ownerEnded_ownerEnd (s : State) {code reason : Nat} (hcode : code < 2 ^ 16) (hreason : reason < 2 ^ 4) :
    OwnerEnded (s.ownerEnd code reason) code reason := by
  unfold OwnerEnded State.ownerEnd
  simp (disch := decide) only [get_set_other, get_set_same]
  exact ⟨by decide, Nat.mod_eq_of_lt hcode, Nat.mod_eq_of_lt hreason⟩

theorem get_ownerEnd (s : State) {f : Fld} (hf : f ∈ [Reg.OWNER_STAT_RESULT, Reg.OWNER_INFO_KIND, Reg.OWNER_INFO_INGRESS])
    (code reason : Nat) : (s.ownerEnd code reason).get f = s.get f := by
  have apart {g : Fld} (hg : g ∈ [Reg.OWNER_STAT_DONE, Reg.OWNER_STAT_CODE, Reg.OWNER_STAT_REASON]) : f.key 0 0 ≠ g.key 0 0 := by
    revert f g
    decide
  unfold State.ownerEnd
  rw [get_set_other _ _ _ _ (apart (by decide)), get_set_other _ _ _ _ (apart (by decide)),
    get_set_other _ _ _ _ (apart (by decide))]

theorem ten_ownerEnd (s : State) (code reason : Nat) : (s.ownerEnd code reason).ten = s.ten := rfl

/-- A refusal of OWNER_CMD changes no entry, and reports CODE 0x060D with its REASON. -/
theorem ownerRefuse_effect (s : State) {reason : Nat} (h : reason < 2 ^ 4) :
    (s.ownerRefuse reason).ten = s.ten ∧ OwnerEnded (s.ownerRefuse reason) 0x060D reason :=
  ⟨rfl, ownerEnded_ownerEnd s (by decide) h⟩

/-! ## REGISTER and REGISTER_JOINT (R310) -/

section
variable {s : State} {i kind : Nat} {data : Bytes} (hpos : 0 < i) (hlt : i < 2048) (hfree : (s.owner i).kind = 0)
  (hlowest : ∀ j, 0 < j → j < i → (s.owner j).kind ≠ 0)
include hpos hlt hfree hlowest

theorem ownerTake_of_new (hnew : ∀ e ∈ s.ten.owners, ¬ (e.2.kind = kind ∧ e.2.data = data)) : s.ownerTake kind data =
    ((s.updOwner i fun _ => { kind := kind, data := data, ingress := false }).set Reg.OWNER_STAT_RESULT i).ownerEnd 0 0 := by
  unfold State.ownerTake
  rw [find_lowest_index (P := fun j => (s.owner j).kind = 0) hpos hlt hfree hlowest]
  refine if_neg ?_
  simpa using hnew

theorem ownerTake_of_registered (hold : ∃ e ∈ s.ten.owners, e.2.kind = kind ∧ e.2.data = data) :
    s.ownerTake kind data = s.ownerRefuse 2 := by
  unfold State.ownerTake
  rw [find_lowest_index (P := fun j => (s.owner j).kind = 0) hpos hlt hfree hlowest]
  refine if_pos ?_
  simpa using hold

end

/-- Both registrations take the lowest FREE entry, each with its KIND and its bytes of OWNER_DATA. -/
theorem exec_ownerRegister {s : State} (hup : s.hubUp = true) {c : Instr} {kind : Nat} {data : Bytes}
    (h : (c, kind, data) ∈ [(Instr.ownerRegister, 1, s.ownerData.take 32), (.ownerRegisterJoint, 2, s.ownerData)]) :
    exec c s = .next (s.ownerTake kind data) := by
  simp only [List.mem_cons, Prod.mk.injEq, List.not_mem_nil, or_false] at h
  rcases h with ⟨rfl, rfl, rfl⟩ | ⟨rfl, rfl, rfl⟩
  · show execOwnerRegister s = _
    rw [execOwnerRegister, cxlIo_of_hubUp hup]
  · show execOwnerRegisterJoint s = _
    rw [execOwnerRegisterJoint, cxlIo_of_hubUp hup]

/-! ## UNREGISTER (R310) -/

section
variable {s : State} (hup : s.hubUp = true)
include hup

theorem exec_ownerUnregister : exec .ownerUnregister s = .next (
    if s.get Reg.OWNER_CMD_INDEX = 0 || (s.owner (s.get Reg.OWNER_CMD_INDEX)).kind = 0 then s.ownerRefuse 4
    else if s.ownerKeys (s.get Reg.OWNER_CMD_INDEX) ≠ 0 || s.ownerContexts (s.get Reg.OWNER_CMD_INDEX) ≠ 0 then s.ownerRefuse 3
    else (s.updOwner (s.get Reg.OWNER_CMD_INDEX) fun _ => Owner.free).ownerEnd 0 0) := by
  show execOwnerUnregister s = _
  rw [execOwnerUnregister, cxlIo_of_hubUp hup]

variable {i : Nat} (hindex : s.get Reg.OWNER_CMD_INDEX = i)
include hindex

theorem ownerUnregister_of_unregistered (h : i = 0 ∨ (s.owner i).kind = 0) :
    exec .ownerUnregister s = .next (s.ownerRefuse 4) := by
  rw [exec_ownerUnregister hup, hindex, if_pos (by simpa using h)]

section
variable (hpos : 0 < i) (hkind : (s.owner i).kind ≠ 0)
include hpos hkind

theorem ownerUnregister_of_used (h : s.ownerKeys i ≠ 0 ∨ s.ownerContexts i ≠ 0) :
    exec .ownerUnregister s = .next (s.ownerRefuse 3) := by
  rw [exec_ownerUnregister hup, hindex, if_neg (by simp [hkind, Nat.ne_of_gt hpos]), if_pos (by simpa using h)]

theorem ownerUnregister_of_unused (hkeys : s.ownerKeys i = 0) (hcontexts : s.ownerContexts i = 0) :
    exec .ownerUnregister s = .next ((s.updOwner i fun _ => Owner.free).ownerEnd 0 0) := by
  rw [exec_ownerUnregister hup, hindex, if_neg (by simp [hkind, Nat.ne_of_gt hpos]), if_neg (by simp [hkeys, hcontexts])]

end

end

/-! ## READ (R309, R310) -/

/-- OWNER_INFO shows an entry. -/
def State.showOwner (s : State) (i : Nat) : State :=
  let t := (s.set Reg.OWNER_INFO_KIND (s.owner i).kind).set Reg.OWNER_INFO_INGRESS (if (s.owner i).ingress then 1 else 0)
  (t.set Reg.OWNER_INFO_KEYS (s.ownerKeys i)).set Reg.OWNER_INFO_CONTEXTS (s.ownerContexts i)

/-- OWNER_DATA shows the key or the hash of an entry. -/
def State.showOwnerData (s : State) (data : Bytes) : State :=
  (List.range 8).foldl (fun t w => t.setF Reg.OWNER_DATA_VALUE w 0 (rd data (8 * w) 8)) s

theorem ownerRead_of_up {s : State} (hup : s.hubUp = true) : exec .ownerRead s = .next (
    ((s.showOwner (s.get Reg.OWNER_CMD_INDEX)).showOwnerData (s.owner (s.get Reg.OWNER_CMD_INDEX)).data).ownerEnd 0 0) := by
  show execOwnerRead s = _
  rw [execOwnerRead, cxlIo_of_hubUp hup]
  rfl

section
variable (s : State) (data : Bytes) (i : Nat)

theorem ten_showOwner : (s.showOwner i).ten = s.ten := rfl

theorem ten_showOwnerData : (s.showOwnerData data).ten = s.ten := foldl_keeps State.ten (fun _ _ _ => setF_ten ..) s

theorem get_showOwnerData {f : Fld} (hf : f.base < Reg.OWNER_DATA_VALUE.base) (hlo : f.lo < 64) :
    (s.showOwnerData data).get f = s.get f :=
  foldl_keeps (fun t : State => t.get f) (fun _ w _ => getF_setF_other _ _ _ _ _ _ _ _ (key_ne_of_base_lt hf hlo w 0)) s

theorem showOwner_kind (h : (s.owner i).kind < 4) : (s.showOwner i).get Reg.OWNER_INFO_KIND = (s.owner i).kind := by
  simp (disch := decide) only [State.showOwner, get_set_other, get_set_same]
  exact Nat.mod_eq_of_lt h

theorem showOwner_ingress : (s.showOwner i).get Reg.OWNER_INFO_INGRESS = if (s.owner i).ingress then 1 else 0 := by
  simp (disch := decide) only [State.showOwner, get_set_other, get_set_same]
  split <;> rfl

end

/-- Settles O40: a registration takes the lowest FREE entry unless its key stands in the table (`exec_ownerRegister`), UNREGISTER frees
an entry that no key and no context uses, and READ writes registers alone. -/
theorem ownerTable : Obligations.OwnerTable := by
  intro s hup ok
  refine ⟨fun i k c d hc hpos hlt hfree hlowest => ⟨fun hnew => ?new, fun hold => ?registered⟩,
    fun hpos hkind hkeys hcontexts => ?unused, fun hpos hkind hused => ?used, fun hno => ?unregistered, fun hkind => ?read⟩
  case new =>
    refine ⟨_, (exec_ownerRegister hup hc).trans (congrArg _ (ownerTake_of_new hpos hlt hfree hlowest hnew)),
      owner_updOwner_same .., fun j hj => owner_updOwner_other _ _ _ hj, ?_, ownerEnded_ownerEnd _ (by decide) (by decide)⟩
    rw [get_ownerEnd _ (by decide), get_set_same]
    exact Nat.mod_eq_of_lt hlt
  case registered =>
    exact ⟨_, (exec_ownerRegister hup hc).trans (congrArg _ (ownerTake_of_registered hpos hlt hfree hlowest hold)),
      ownerRefuse_effect s (by decide)⟩
  case unused =>
    exact ⟨_, ownerUnregister_of_unused hup rfl hpos hkind hkeys hcontexts, owner_updOwner_same ..,
      fun j hj => owner_updOwner_other _ _ _ hj, ownerEnded_ownerEnd _ (by decide) (by decide)⟩
  case used => exact ⟨_, ownerUnregister_of_used hup rfl hpos hkind hused, ownerRefuse_effect s (by decide)⟩
  case unregistered => exact ⟨_, ownerUnregister_of_unregistered hup rfl hno, ownerRefuse_effect s (by decide)⟩
  case read =>
    refine ⟨_, ownerRead_of_up hup, by rw [ten_ownerEnd, ten_showOwnerData, ten_showOwner], ?_, ?_,
      ownerEnded_ownerEnd _ (by decide) (by decide)⟩
    · rw [get_ownerEnd _ (by decide), get_showOwnerData _ _ (by decide) (by decide), showOwner_kind _ _ hkind]
    · rw [get_ownerEnd _ (by decide), get_showOwnerData _ _ (by decide) (by decide), showOwner_ingress]

end Sys2Proof.Machine
end

section
/-!
PROOFS. Attestation over SPDM, and the provisioning of keys and policies (13_tenants_and_joint_training.md R317 to R320;
19_lifecycle_firmware_debug.md R452).
-/

namespace Sys2Proof.Machine

/-! ## Connections (R318) -/

section
variable (s : State) (k : Nat) (f : SpdmConn → SpdmConn)

theorem conn_updConn_same : (s.updConn k f).conn k = f (s.conn k) := smapGet_upd_same ..

theorem conn_updConn_other {j : Nat} (h : j ≠ k) : (s.updConn k f).conn j = s.conn j := smapGet_upd_other _ _ _ h

variable (req : Option Bytes) (rsp : Bytes)

@[simp] theorem respond_ten : (s.respond req rsp).ten = s.ten := by
  unfold State.respond
  repeat' split
  all_goals rfl

@[simp] theorem respond_prism : (s.respond req rsp).prism = s.prism := by
  unfold State.respond
  repeat' split
  all_goals rfl

@[simp] theorem respond_conn : (s.respond req rsp).conn k = s.conn k := by
  rw [State.conn, respond_ten, State.conn]

/-- A response and a change of a connection do not meet. -/
theorem updConn_respond : (s.respond req rsp).updConn k f = (s.updConn k f).respond req rsp := by
  cases req with
  | some _ => rfl
  | none =>
    have same : (s.updConn k f).pilot = s.pilot := rfl
    cases h : s.pilot.mbox.reqs with
    | nil => simp only [State.respond, same, h]
    | cons x rest =>
      simp only [State.respond, same, h]
      rfl

end

/-! ## A request that is met (R318; 19_lifecycle_firmware_debug.md R452) -/

section
variable {s : State} {req : Option Bytes} {b : Bytes} {code : Nat} (f : Bytes → State → State) (hreq : s.request req = some b)
  (htype : rd b 0 1 = 5) (hcode : rd b 2 1 = code)
include hreq htype hcode

theorem spdm_of_nack (h : s.meetSpdm req.isSome = .nack) : s.spdm req code f = s.emit .nack := by
  simp [State.spdm, hreq, htype, hcode, h]

theorem spdm_of_silent (h : s.meetSpdm req.isSome = .silent) : s.spdm req code f = s := by
  simp [State.spdm, hreq, htype, hcode, h]

theorem spdm_of_no_identity (h : s.meetSpdm req.isSome = .serve) (hid : s.pilot.flash.identity = false) :
    s.spdm req code f = s.respond req (5 :: Config.spdmError (b.drop 1)) := by
  simp [State.spdm, hreq, htype, hcode, h, hid]

theorem spdm_of_identity (h : s.meetSpdm req.isSome = .serve) (hid : s.pilot.flash.identity = true) :
    s.spdm req code f = f (b.drop 1) s := by
  simp [State.spdm, hreq, htype, hcode, h, hid]

end

/-! ## Answers (R317, R318) -/

/-- The messages of a connection that an answer to a request covers: GET_VERSION begins a new one. -/
def State.transcriptFor (s : State) (k code : Nat) : Bytes := if code = 0x84 then [] else (s.conn k).transcript

/-- A state in which a request has been answered from the connection's messages, the chain, the measurements and 32 fresh bytes;
request and answer have joined the transcript, and a signed MEASUREMENTS answer is remembered. -/
def SpdmAnswered (s : State) (req : Option Bytes) (code : Nat) (m : Bytes) (t : State) : Prop :=
  ∃ n r, ∃ v : State, n.length = 32 ∧
    r = Config.spdmAnswer (s.transcriptFor (connOf req) code) s.pilot.flash.certs s.measurements n m ∧
    v = { s with fresh := v.fresh, ten := { s.ten with conns := v.ten.conns } } ∧
    (v.conn (connOf req)).transcript = s.transcriptFor (connOf req) code ++ m ++ r ∧
    (code = 0xE0 → bit (rd m 2 1) 0 = true → rd r 1 1 = 0x60 → (v.conn (connOf req)).measured = true) ∧
    (∀ j, j ≠ connOf req → v.conn j = s.conn j) ∧ t = v.respond req (5 :: r)

section
variable (s : State) (req : Option Bytes) (m : Bytes)

/-- The answer to a request in its connection as it stands. -/
def State.spdmReply : Bytes :=
  Config.spdmAnswer (s.conn (connOf req)).transcript s.pilot.flash.certs s.measurements (s.freeBytes 32) m

/-- A request and its answer have joined the transcript of their connection. -/
def State.joined : State :=
  s.tick.updConn (connOf req) fun x => { x with transcript := x.transcript ++ m ++ s.spdmReply req m }

theorem answerSpdm_eq : s.answerSpdm req m = ((s.joined req m).respond req (5 :: s.spdmReply req m), s.spdmReply req m) := rfl

theorem conn_joined_same : (s.joined req m).conn (connOf req) =
    { s.conn (connOf req) with transcript := (s.conn (connOf req)).transcript ++ m ++ s.spdmReply req m } :=
  conn_updConn_same ..

theorem conn_joined_other {j : Nat} (h : j ≠ connOf req) : (s.joined req m).conn j = s.conn j := conn_updConn_other s.tick _ _ h

theorem length_freeBytes (n : Nat) : (s.freeBytes n).length = n := by simp [State.freeBytes]

theorem spdmAnswered_answerSpdm {code : Nat} (hversion : code ≠ 0x84) (hmeasure : code ≠ 0xE0) :
    SpdmAnswered s req code m (s.answerSpdm req m).1 := by
  have transcript : s.transcriptFor (connOf req) code = (s.conn (connOf req)).transcript := if_neg hversion
  refine ⟨s.freeBytes 32, s.spdmReply req m, s.joined req m, length_freeBytes .., ?_, rfl, ?_, fun h => absurd h hmeasure,
    fun j hj => conn_joined_other _ _ _ hj, rfl⟩
  · rw [transcript, State.spdmReply]
  · rw [transcript, conn_joined_same]

/-- The connection of a request begins anew. -/
def State.renewed : State := s.updConn (connOf req) fun _ => SpdmConn.empty

theorem conn_renewed_same : (s.renewed req).conn (connOf req) = SpdmConn.empty := conn_updConn_same ..

/-- GET_VERSION empties its connection first. -/
theorem spdmAnswered_getVersion : SpdmAnswered s req 0x84 m ((s.renewed req).answerSpdm req m).1 := by
  refine ⟨s.freeBytes 32, (s.renewed req).spdmReply req m, (s.renewed req).joined req m, length_freeBytes .., ?_, rfl, ?_,
    fun h => absurd h (by decide), fun j hj => (conn_joined_other _ _ _ hj).trans (conn_updConn_other _ _ _ hj), rfl⟩
  · rw [State.spdmReply, conn_renewed_same]
    rfl
  · rw [conn_joined_same, conn_renewed_same]
    rfl

/-- GET_MEASUREMENTS remembers in its connection that it has signed. -/
theorem spdmAnswered_getMeasurements : SpdmAnswered s req 0xE0 m
    (if bit (rd m 2 1) 0 && rd (s.answerSpdm req m).2 1 1 = 0x60 then
      (s.answerSpdm req m).1.updConn (connOf req) fun x => { x with measured := true }
    else (s.answerSpdm req m).1) := by
  split
  · refine ⟨s.freeBytes 32, s.spdmReply req m, (s.joined req m).updConn (connOf req) fun x => { x with measured := true },
      length_freeBytes .., rfl, rfl, ?_, fun _ _ _ => ?_, fun j hj => ?_, updConn_respond ..⟩
    · rw [conn_updConn_same, conn_joined_same]
      rfl
    · rw [conn_updConn_same]
    · rw [conn_updConn_other _ _ _ hj, conn_joined_other _ _ _ hj]
  · next hplain =>
    refine ⟨s.freeBytes 32, s.spdmReply req m, s.joined req m, length_freeBytes .., rfl, rfl, ?_,
      fun _ hsigned hcode => absurd (by simpa using ⟨hsigned, hcode⟩) hplain, fun j hj => conn_joined_other _ _ _ hj, rfl⟩
    rw [conn_joined_same]
    rfl

end

/-! ## The commands (R318, R319) -/

/-- The commands of SPDM with their request codes. -/
def spdmCommands (req : Option Bytes) : List (Instr × Nat) :=
  [(Instr.getVersion req, 0x84), (.getCapabilities req, 0xE1), (.negotiateAlgorithms req, 0xE3), (.getDigests req, 0x81),
    (.getCertificate req, 0x82), (.spdmChallenge req, 0x83), (.getMeasurements req, 0xE0), (.vendorDefinedRequest req, 0xFE)]

/-- Every command of SPDM is met as its code says, and one that is not vendor-defined answers. -/
theorem exec_spdmCommand (s : State) {req : Option Bytes} {c : Instr} {code : Nat} (h : (c, code) ∈ spdmCommands req) :
    ∃ f, exec c s = .next (s.spdm req code f) ∧ (code ≠ 0xFE → ∀ m, SpdmAnswered s req code m (f m s)) := by
  simp only [spdmCommands, List.mem_cons, Prod.mk.injEq, List.not_mem_nil, or_false] at h
  rcases h with ⟨rfl, rfl⟩ | ⟨rfl, rfl⟩ | ⟨rfl, rfl⟩ | ⟨rfl, rfl⟩ | ⟨rfl, rfl⟩ | ⟨rfl, rfl⟩ | ⟨rfl, rfl⟩ | ⟨rfl, rfl⟩
  · exact ⟨_, rfl, fun _ m => spdmAnswered_getVersion s req m⟩
  iterate 5 exact ⟨_, rfl, fun _ m => spdmAnswered_answerSpdm s req m (by decide) (by decide)⟩
  · exact ⟨_, rfl, fun _ m => spdmAnswered_getMeasurements s req m⟩
  · exact ⟨_, rfl, fun hvendor => absurd rfl hvendor⟩

theorem vendorDefined_of_code {req : Option Bytes} {c : Instr} (h : (c, 0xFE) ∈ spdmCommands req) :
    c = .vendorDefinedRequest req := by
  simpa [spdmCommands] using h

section
variable {s : State} {req : Option Bytes} {b : Bytes} (hreq : s.request req = some b) (htype : rd b 0 1 = 5)
  (hcode : rd b 2 1 = 0xFE) (hserve : s.meetSpdm req.isSome = .serve) (hid : s.pilot.flash.identity = true)
include hreq htype hcode hserve hid

theorem vendorDefinedRequest_of_vendor (hvendor : slice (b.drop 1) 4 5 = slice (s.vendorDefined 0 0 []) 4 5)
    (hroom : connOf req = 0 ∨ (s.conn (connOf req)).inbox = []) : exec (.vendorDefinedRequest req) s =
      .next (s.updConn (connOf req) fun x => { x with inbox := x.inbox ++ [b.drop 1] }) := by
  have room : ¬ (connOf req = 1 && !(s.conn (connOf req)).inbox.isEmpty) = true := by
    rcases hroom with h | h <;> simp [h]
  refine congrArg _ ((spdm_of_identity _ hreq htype hcode hserve hid).trans ?_)
  rw [if_neg (not_not.2 hvendor), if_neg room]

theorem vendorDefinedRequest_of_other (hvendor : slice (b.drop 1) 4 5 ≠ slice (s.vendorDefined 0 0 []) 4 5) :
    exec (.vendorDefinedRequest req) s = .next (s.respond req (5 :: Config.spdmError (b.drop 1))) := by
  refine congrArg _ ((spdm_of_identity _ hreq htype hcode hserve hid).trans ?_)
  rw [if_pos hvendor]

end

/-! ## Answers to provisioning (R319, R320) -/

/-- A provisioning request of a connection has been answered, and nothing else of it, of the owners and of Prism has changed. -/
def ProvAnswered (s : State) (c : Nat) (u : State) : Prop :=
  (u.conn c).prov = (s.conn c).prov ∧ (u.conn c).inbox = (s.conn c).inbox.drop 1 ∧ u.prism = s.prism ∧ u.ten.owners = s.ten.owners

section
variable (s : State) (c : Nat) (m : Bytes)

theorem provAnswered_provRsp (b : Bytes) : ProvAnswered s c (s.provRsp c m b) := by
  unfold ProvAnswered State.provRsp
  extract_lets r
  rw [respond_conn, conn_updConn_same, respond_prism, respond_ten]
  exact ⟨rfl, rfl, rfl, rfl⟩

theorem provAnswered_provAck (seq : Bytes) (code : Nat) (gen : Option Nat) : ProvAnswered s c (s.provAck c m seq code gen) :=
  provAnswered_provRsp s.tick.tick c m _

end

/-- The oldest provisioning request of a connection is served when its payload has a length of the message. -/
theorem onProv_of_head {s : State} {c : Nat} {m : Bytes} (h : (s.conn c).inbox.head? = some m) {len : Nat → Bool}
    (hlen : len (vendorPayload m).length = true) (f : Bytes → Bytes → State) : s.onProv c len f = f m (vendorPayload m) := by
  simp [State.onProv, h, hlen]

/-! ## PROV_OPEN (R319, R320) -/

section
variable {s : State} {c : Nat} {m b : Bytes}

theorem provOpen_of_refused (h : s.ownerOfKey (b.take 32) = none ∨ (s.conn c).measured = false) :
    ProvAnswered s c (s.provOpen c m b) := by
  have refused : s.provOpen c m b = s.tick.provAck c m (s.freeBytes 4) 0x060C none := by
    unfold State.provOpen
    extract_lets x t
    split
    · rfl
    · next owner howner =>
      have unmeasured : (s.conn c).measured = false := h.resolve_left (by simp [howner])
      exact if_pos (by simp [x, unmeasured])
  rw [refused]
  exact provAnswered_provAck s.tick ..

/-- A signed PROV_OPEN under a registered key opens a session of that owner. -/
theorem provOpen_of_signed {o : Nat} (howner : s.ownerOfKey (b.take 32) = some o) (hmeasured : (s.conn c).measured = true)
    (hsigned : Config.ed25519Verify (b.take 32) (Config.sha512 ((s.conn c).transcript ++ m.take (11 + 96))) (slice b 96 64) = true) :
    ∃ (p : ProvSession) (u : Bytes), p.owner = o ∧ p.seq = 0 ∧
      s.provOpen c m b = (s.tick.updConn c fun x => { x with prov := some p }).provRsp c m u := by
  unfold State.provOpen
  extract_lets x t priv pub t' z
  rw [howner]
  refine ⟨_, _, ?_, ?_, if_neg (by simp [x, t, hmeasured, hsigned])⟩ <;> rfl

/-! ## PROV_KEY and PROV_POLICY (R319, R320) -/

theorem provKey_of_no_session (h : (s.conn c).prov = none) : ProvAnswered s c (s.provKey c m b) := by
  unfold State.provKey
  extract_lets n k ok
  have refused : ok = none := by
    unfold ok
    rw [h]
  rw [refused]
  exact provAnswered_provAck ..

theorem provPolicy_of_no_session (h : (s.conn c).prov = none) : ProvAnswered s c (s.provPolicy c m b) := by
  unfold State.provPolicy
  extract_lets n ok
  have refused : ok = none := by
    unfold ok
    rw [h]
  rw [refused]
  exact provAnswered_provAck ..

theorem prov_provSeq {p : ProvSession} (h : (s.conn c).prov = some p) (n : Nat) :
    ((s.provSeq c n).conn c).prov = some { p with seq := n } := by
  rw [State.provSeq, conn_updConn_same, h]
  rfl

/-- A SEQ that is accepted and the rights that follow leave the owners as they were. -/
theorem owner_accepted (s : State) (c n j : Nat) : (s.provSeq c n).syncRights.owner j = s.owner j := rfl

variable {p : ProvSession} (hprov : (s.conn c).prov = some p) (hseq : p.seqOk (rd b 0 4) = true)
include hprov hseq

/-- A PROV_KEY in order, for a RESERVED key of the owner, that unwraps to two different halves installs them. -/
theorem provKey_of_good {k : Nat} {w : Bytes} (hk : rd b 4 2 = k) (hlen : b.length = 120) (hzero : rd b 6 2 = 0) (hlt : k < 2048)
    (hstate : (s.keyEntry k).state = .reserved) (howner : (s.keyEntry k).owner = p.owner)
    (hopen : Config.gcmOpen p.keyIn (provNonce (b.take 4)) (b.take 8) (b.drop 8) = some w) (hw : w.length = 96)
    (hhalves : w.take 32 ≠ slice w 32 32) : ∃ gen, s.provKey c m b =
      ((s.updKey k fun e => { e with state := .valid, gen := (e.gen + 1) % 2 ^ 32, material := leNat w }).provSeq
        c (rd b 0 4)).syncRights.provAck c m (b.take 4) 0 gen := by
  subst hk
  unfold State.provKey
  extract_lets n k ok
  have unwrapped : ok = some w := by
    simp only [ok, hprov]
    rw [if_pos (by simp [k, n, hlen, hseq, hzero, hlt, hstate, howner]), hopen]
    simp [Option.filter, hw, hhalves]
  rw [unwrapped]
  exact ⟨_, rfl⟩

/-- A PROV_POLICY in order whose seal opens sets INGRESS of the owner. -/
theorem provPolicy_of_good (hpolicy : rd b 4 4 ≤ 1)
    (hopen : (Config.gcmOpen p.keyIn (provNonce (b.take 4)) (b.take 8) (b.drop 8)).isSome = true) : s.provPolicy c m b =
      ((s.updOwner p.owner fun x => { x with ingress := rd b 4 4 = 1 }).provSeq c (rd b 0 4)).syncRights.provAck
        c m (b.take 4) 0 none := by
  unfold State.provPolicy
  extract_lets n ok
  have opened : ok = some p.owner := by
    simp only [ok, hprov]
    exact if_pos (by simp [n, hseq, hpolicy, hopen])
  rw [opened]

end

/-- Settles O49: a request is met by `exec_spdmCommand` and the lemmas on `spdm`, a provisioning message is answered by `provAck` or
`provRsp` after what it changes. -/
theorem spdmAndProvisioning : Obligations.SpdmAndProvisioning := by
  refine ⟨fun s req b code c hreq htype hcode hc => ?request, fun s c => ⟨?timeout, fun m hm => ?message⟩⟩
  case request =>
    intro k m
    obtain ⟨f, hexec, hanswer⟩ := exec_spdmCommand s hc
    have met {t : State} (h : s.spdm req code f = t) : exec c s = .next t := hexec.trans (congrArg _ h)
    refine ⟨fun h => met (spdm_of_nack f hreq htype hcode h), fun h => met (spdm_of_silent f hreq htype hcode h), fun h =>
      ⟨fun hid => met (spdm_of_no_identity f hreq htype hcode h hid), fun hid hvendor => ?answer, fun hid hvendor => ?vendor⟩⟩
    case answer =>
      obtain ⟨n, r, v, hn, hr, hframe, hjoined, hmeasured, hothers, ht⟩ := hanswer hvendor m
      exact ⟨n, r, v, hn, hr, hframe, hjoined, hmeasured, hothers,
        met ((spdm_of_identity f hreq htype hcode h hid).trans ht)⟩
    case vendor =>
      subst hvendor
      obtain rfl := vendorDefined_of_code hc
      exact ⟨fun hours hroom => ⟨_, vendorDefinedRequest_of_vendor hreq htype hcode h hid hours hroom,
        congrArg SpdmConn.inbox (conn_updConn_same ..), fun j hj => conn_updConn_other _ _ _ hj, rfl⟩,
        vendorDefinedRequest_of_other hreq htype hcode h hid⟩
  case timeout => exact ⟨_, rfl, congrArg SpdmConn.prov (conn_updConn_same ..), fun j hj => conn_updConn_other _ _ _ hj⟩
  case message =>
    intro x b n k
    refine ⟨fun hlen => ?opens, fun hlen => ?keys, fun hlen => ?policies⟩
    case opens =>
      have served : exec (.provOpen c) s = .next (s.provOpen c m b) :=
        congrArg _ (onProv_of_head hm (decide_eq_true hlen) _)
      refine ⟨fun o howner hmeasured hsigned => ?_, fun hrefused => ?_⟩
      · obtain ⟨p, r, hp, hseq, hopen⟩ := provOpen_of_signed howner hmeasured hsigned
        obtain ⟨hprov, hinbox, hprism, -⟩ := provAnswered_provRsp (s.tick.updConn c fun x => { x with prov := some p }) c m r
        rw [conn_updConn_same] at hprov hinbox
        exact ⟨_, p, served.trans (congrArg _ hopen), hprov, hp, hseq, hinbox, hprism⟩
      · obtain ⟨hprov, hinbox, hprism, -⟩ := provOpen_of_refused (m := m) hrefused
        exact ⟨_, served, hprov, hinbox, hprism⟩
    case keys =>
      have served : exec (.provKey c) s = .next (s.provKey c m b) := congrArg _ (onProv_of_head hm (by simp [b, hlen]) _)
      refine ⟨fun p w hp hseq hzero hlt hstate howner hopen hw hhalves => ?_, fun hnone => ?_⟩
      · obtain ⟨gen, hkey⟩ := provKey_of_good (m := m) hp hseq rfl hlen hzero hlt hstate howner hopen hw hhalves
        obtain ⟨hprov, hinbox, hprism, -⟩ := provAnswered_provAck ((s.updKey k fun e =>
          { e with state := .valid, gen := (e.gen + 1) % 2 ^ 32, material := leNat w }).provSeq c n).syncRights c m (b.take 4) 0 gen
        have entry (j : Nat) := keyEntry_of_keying ((congrArg Prism.keying hprism).trans (keying_syncRights _)) j
        exact ⟨_, served.trans (congrArg _ hkey), (entry k).trans (keyEntry_updKey_same s k _),
          fun j hj => (entry j).trans (keyEntry_updKey_other s k _ hj), hprov.trans (prov_provSeq hp n),
          hinbox.trans (congrArg (·.inbox.drop 1) (conn_updConn_same ..))⟩
      · obtain ⟨-, hinbox, hprism, -⟩ := provKey_of_no_session (m := m) (b := b) hnone
        exact ⟨_, served, hprism, hinbox⟩
    case policies =>
      have served : exec (.provPolicy c) s = .next (s.provPolicy c m b) :=
        congrArg _ (onProv_of_head hm (decide_eq_true hlen) _)
      refine ⟨fun p hp hseq hpolicy hopen => ?_, fun hnone => ?_⟩
      · obtain ⟨hprov, -, -, howners⟩ := provAnswered_provAck ((s.updOwner p.owner fun x =>
          { x with ingress := rd b 4 4 = 1 }).provSeq c n).syncRights c m (b.take 4) 0 none
        have entry (j : Nat) := (owner_of_owners howners j).trans (owner_accepted ..)
        exact ⟨_, served.trans (congrArg _ (provPolicy_of_good hp hseq hpolicy hopen)),
          (entry p.owner).trans (owner_updOwner_same s p.owner _),
          fun j hj => (entry j).trans (owner_updOwner_other s p.owner _ hj), hprov.trans (prov_provSeq hp n)⟩
      · obtain ⟨-, -, hprism, howners⟩ := provPolicy_of_no_session (m := m) (b := b) hnone
        exact ⟨_, served, howners, hprism⟩

end Sys2Proof.Machine
end

section
/-!
PROOFS. Penumbra gates: what a gate works on, its headers, its timeout, its combining and its release
(13_tenants_and_joint_training.md R324 to R329; 06_accumulation_and_numerics.md R148).
-/

namespace Sys2Proof.Machine

/-! ## The step a gate works on (R326) -/

section
variable (s : State) (g : Nat)

@[simp] theorem gateRun_setGateRun (r : Option GateRun) : (s.setGateRun g r).gateRun g = r := by
  have others : (s.ten.gates.filter fun e => e.1 ≠ g).find? (fun e => e.1 = g) = none := by
    rw [List.find?_eq_none]
    intro e he
    simpa using (List.mem_filter.1 he).2
  cases r with
  | none => exact congrArg (Option.map _) others
  | some r =>
    simp only [State.setGateRun, State.gateRun, List.find?_append, others]
    simp

@[simp] theorem setF_gateRun (f : Fld) (i j v : Nat) : (s.setF f i j v).gateRun g = s.gateRun g := rfl

@[simp] theorem getF_setGateRun (k : Nat) (r : Option GateRun) (f : Fld) (i j : Nat) :
    (s.setGateRun k r).getF f i j = s.getF f i j := rfl

@[simp] theorem mem_setGateRun (k : Nat) (r : Option GateRun) : (s.setGateRun k r).mem = s.mem := rfl

/-- L stands in a word of its own beside GATE_g_STAT. -/
theorem getF_setF_step_of_stat {f : Fld} (hbase : f.base = 0x803000) (hstride : f.s1 = 0x20 ∧ f.s2 = 0) (hlo : f.lo < 64) (v : Nat) :
    (s.setF f g 0 v).getF Reg.GATE_g_STEP_L g 0 = s.getF Reg.GATE_g_STEP_L g 0 := by
  refine getF_setF_other _ _ _ _ _ _ _ _ ?_
  simp only [Fld.key, hbase, hstride, Reg.GATE_g_STEP_L]
  omega

/-- A gate that leaves its step is ARMED, with L the step and no header. -/
theorem endGateStep_effect {run : GateRun} (hrun : s.gateRun g = some run) (hstep : run.step < 2 ^ 64) :
    (s.endGateStep g).gateState g = 1 ∧ (s.endGateStep g).getF Reg.GATE_g_STEP_L g 0 = run.step ∧
      (s.endGateStep g).gateRun g = none ∧ (s.endGateStep g).getF Reg.GATE_g_STAT_HAVE g 0 = 0 ∧ (s.endGateStep g).mem = s.mem := by
  simp (disch := decide) only [State.endGateStep, hrun, State.gateState, getF_setF_same, getF_setF_of_lo, getF_setF_step_of_stat,
    getF_setGateRun, setF_gateRun, gateRun_setGateRun, setF_mem, mem_setGateRun, and_true, true_and]
  exact ⟨rfl, Nat.mod_eq_of_lt hstep, rfl⟩

end

/-! ## A header (R324, R326, R328) -/

theorem bit_setBit_mod {x i n : Nat} (h : i < n) : bit (setBit x i % 2 ^ n) i = true := by
  rw [bit_eq_testBit, Nat.testBit_mod_two_pow, setBit]
  split
  · next hx =>
    rw [bit_eq_testBit] at hx
    simp [h, hx]
  · next hx =>
    rw [bit_eq_testBit, Bool.not_eq_true] at hx
    simp [h, Nat.add_comm x, Nat.testBit_two_pow_add_eq, hx]

/-- What a gate works on when a header reaches it: its step, or the header's when it has none. -/
def State.runFor (v : State) (g : Nat) (b : Bytes) : GateRun :=
  (v.gateRun g).getD { step := rd b 0 8, heads := [], combined := none }

/-- Is a header in form, readable as its gate's COMBINE asks, inside its region and like those counted? -/
def headerFits (e : GateEntry) (r : Region) (run : GateRun) (b : Bytes) : Bool :=
  headClean b && combineFmt e.combine (rd b 12 1) && 4096 + payloadBytes (rd b 12 1) (rd b 8 4) ≤ r.size &&
    run.heads.all fun h => h.2 = (rd b 8 4, rd b 12 1)

/-- The headers counted with one more. -/
def headsWith (run : GateRun) (i : Nat) (b : Bytes) : List (Nat × Nat × Nat) := run.heads ++ [(i, rd b 8 4, rd b 12 1)]

/-- A gate has counted an entry's header; it combines next when every participant has one. -/
def State.countHeader (v : State) (g i : Nat) (b : Bytes) (participants : List (Nat × OwnerEntry)) : State :=
  let run := v.runFor g b
  let t := (v.setGateRun g (some run)).setGateRun g (some { run with heads := headsWith run i b })
  (t.setF Reg.GATE_g_STAT_HAVE g 0 (setBit (t.getF Reg.GATE_g_STAT_HAVE g 0) i)).setF Reg.GATE_g_STAT_STATE g 0
    (if participants.all fun o => (headsWith run i b).any fun h => h.1 = o.1 then 3 else 2)

theorem countHeader_effect (v : State) (g : Nat) (i : Fin 16) (b : Bytes) (participants : List (Nat × OwnerEntry)) :
    (v.countHeader g i b participants).gateRun g = some { v.runFor g b with heads := headsWith (v.runFor g b) i b } ∧
      bit ((v.countHeader g i b participants).getF Reg.GATE_g_STAT_HAVE g 0) i = true ∧
      (v.countHeader g i b participants).mem = v.mem ∧ (v.countHeader g i b participants).gateState g =
        if ∀ o ∈ participants, ∃ h ∈ headsWith (v.runFor g b) i b, h.1 = o.1 then 3 else 2 := by
  simp (disch := decide) only [State.countHeader, setF_gateRun, gateRun_setGateRun, getF_setF_of_lo, getF_setF_same, setF_mem,
    mem_setGateRun, State.gateState, true_and]
  refine ⟨bit_setBit_mod i.isLt, ?_⟩
  simp only [List.all_eq_true, List.any_eq_true, decide_eq_true_eq]
  split <;> rfl

section
variable {s : State} {g : Fin 16} {gp : Nat} {m : Manifest} {e : GateEntry} (hpart : s.gatePart g = some gp)
  (hmanifest : s.gateManifest g = some m) (hentry : m.entryOf g = some e)
include hpart hmanifest hentry

section
variable {i : Fin 16} {o : OwnerEntry} {r : Region} {a : Nat} (howner : m.owners[i.val]? = some o)
  (hregion : s.regionAt o.part (0xF00 + g) = some (r, a))
include howner hregion

theorem gateHeaderRead_of_deaf (h : (s.gateState g ≠ 1 ∧ s.gateState g ≠ 2) ∨ bit e.ownerMask i = false) :
    exec (.gateHeaderRead g i) s = .next s := by
  show execGateHeaderRead g i s = _
  simp only [execGateHeaderRead, hpart, hmanifest, hentry, howner, hregion]
  exact congrArg _ (if_pos (by simpa using h))

variable (hstate : s.gateState g = 1 ∨ s.gateState g = 2) (hbit : bit e.ownerMask i = true)
include hstate hbit

theorem gateHeaderRead_of_unreadable {v : State} {c : Nat} (hread : s.gateRead gp o.part a 64 = (v, .error c)) :
    exec (.gateHeaderRead g i) s = .next (v.abandonGate m g 0x060B (some i.val)) := by
  show execGateHeaderRead g i s = _
  simp only [execGateHeaderRead, hpart, hmanifest, hentry, howner, hregion, hread]
  exact congrArg _ (if_neg (by rcases hstate with h | h <;> simp [h, hbit]))

/-- What a header read does, by its STEP, its form and the headers before it. -/
theorem gateHeaderRead_of_read {v : State} {b : Bytes} (hread : s.gateRead gp o.part a 64 = (v, .ok b)) :
    exec (.gateHeaderRead g i) s = .next (
      if rd b 0 8 = 0 then v
      else if rd b 0 8 ≤ v.getF Reg.GATE_g_STEP_L g 0 || (v.runFor g b).step < rd b 0 8 then v.addF Reg.GATE_g_STAT_IGNORED g 0 1
      else if rd b 0 8 ≠ (v.runFor g b).step || (v.runFor g b).heads.any fun h => h.1 = i.val then v
      else if headerFits e r (v.runFor g b) b then v.countHeader g i b (m.participants e)
      else (v.setGateRun g (some (v.runFor g b))).abandonGate m g 0x060B (some i.val)) := by
  show execGateHeaderRead g i s = _
  simp only [execGateHeaderRead, hpart, hmanifest, hentry, howner, hregion, hread]
  exact congrArg _ (if_neg (by rcases hstate with h | h <;> simp [h, hbit]))

end

/-! ## The timeout (R326, R328, R329) -/

omit hpart in
/-- A gate whose timeout runs out abandons its step, naming the one participant that is missing, if it is one. -/
theorem gateTimeout_of_collecting {run : GateRun} (hrun : s.gateRun g = some run) (hstate : s.gateState g = 2)
    {missing : List (Nat × OwnerEntry)}
    (hmissing : ((m.participants e).filter fun o => run.heads.all fun h => h.1 ≠ o.1) = missing) :
    (∀ o, missing = [o] → exec (.gateTimeout g) s = .next (s.abandonGate m g 0x060A (some o.1))) ∧
    (missing.length ≠ 1 → exec (.gateTimeout g) s = .next (s.abandonGate m g 0x060A none)) := by
  refine ⟨fun o ho => ?_, fun hlen => ?_⟩
  all_goals
    show execGateTimeout g s = _
    simp only [execGateTimeout, hmanifest, hrun, hstate, hentry, Option.map_some, hmissing]
  · rw [ho]
    rfl
  · match missing, hlen with
    | [], _ => rfl
    | _ :: _ :: _, _ => rfl

/-! ## Combining (R327) -/

section
variable {run : GateRun} {i count fmt : Nat} {l : List (Nat × Nat × Nat)} (hrun : s.gateRun g = some run)
  (hheads : run.heads = (i, count, fmt) :: l) (hstate : s.gateState g = 3)
include hrun hheads hstate

theorem gateCombineDone_of_unreadable {v : State} {j : Nat}
    (hread : s.payloads gp g (m.participants e) (payloadBytes fmt count) = (v, .error j)) :
    exec (.gateCombineDone g) s = .next (v.abandonGate m g 0x060B (some j)) := by
  show execGateCombineDone g s = _
  simp only [execGateCombineDone, hpart, hmanifest, hrun, hentry, hheads, List.head?_cons, hread]
  exact congrArg _ (if_neg (not_not.2 hstate))

/-- The elements of a release: those of the payloads, combined. -/
def combinedElems (e : GateEntry) (fresh count fmt : Nat) (bs : List Bytes) : List (Nat × Bool × Bool) :=
  (List.range count).map fun k => combineElem e.combine fmt (Config.freeElem fresh k)
    ((bs.map (unpackBits (fmtD fmt).bits count)).map fun l => l.getD k 0)

/-- What a release writes: the elements packed, FMT, SAT and NAN. -/
def releaseOf (fmt : Nat) (els : List (Nat × Bool × Bool)) : Bytes × Nat × Bool × Bool :=
  (packBits (fmtD fmt).bits (els.map (·.1)), fmt, els.any (fun x => x.2.1), els.any fun x => x.2.2)

theorem gateCombineDone_of_read {v : State} {bs : List Bytes}
    (hread : s.payloads gp g (m.participants e) (payloadBytes fmt count) = (v, .ok bs)) :
    exec (.gateCombineDone g) s = .next ((v.tick.setGateRun g
      (some { run with combined := some (releaseOf fmt (combinedElems e v.fresh count fmt bs)) })).setF
        Reg.GATE_g_STAT_STATE g 0 4) := by
  show execGateCombineDone g s = _
  simp only [execGateCombineDone, hpart, hmanifest, hrun, hentry, hheads, List.head?_cons, hread]
  exact congrArg _ (if_neg (not_not.2 hstate))

end

/-! ## The release (R326 to R328) -/

section
variable {run : GateRun} {i count f fmt : Nat} {l : List (Nat × Nat × Nat)} {b : Bytes} {sat nan : Bool}
  (hrun : s.gateRun g = some run) (hheads : run.heads = (i, count, f) :: l) (hcombined : run.combined = some (b, fmt, sat, nan))
  (hstate : s.gateState g = 4)
include hrun hheads hcombined hstate

theorem gateReleaseDone_of_payload_refused {v : State} {j : Nat}
    (hwrite : s.releaseAll gp g 4096 (m.participants e) b = (v, some j)) :
    exec (.gateReleaseDone g) s = .next (v.abandonGate m g 0x060B (some j)) := by
  show execGateReleaseDone g s = _
  simp only [execGateReleaseDone, hpart, hmanifest, hrun, hentry, hcombined, hheads, List.head?_cons, hwrite]
  exact congrArg _ (if_neg (not_not.2 hstate))

theorem gateReleaseDone_of_written {v w : State} (hpayload : s.releaseAll gp g 4096 (m.participants e) b = (v, none))
    (hheader : v.releaseAll gp g 0 (m.participants e) (releaseHead run.step count fmt sat nan) = (w, none)) :
    exec (.gateReleaseDone g) s = .next (w.endGateStep g) := by
  show execGateReleaseDone g s = _
  simp only [execGateReleaseDone, hpart, hmanifest, hrun, hentry, hcombined, hheads, List.head?_cons, hpayload, hheader]
  exact congrArg _ (if_neg (not_not.2 hstate))

end

end

theorem gateTimeout_of_idle {s : State} {g : Fin 16} (h : s.gateState g ≠ 2) : exec (.gateTimeout g) s = .next s := by
  show execGateTimeout g s = _
  unfold execGateTimeout
  extract_lets k
  split
  · rw [if_pos h]
  · rfl

theorem length_combinedElems (e : GateEntry) (fresh count fmt : Nat) (bs : List Bytes) :
    (combinedElems e fresh count fmt bs).length = count := by simp [combinedElems]

theorem combinedElems_at (e : GateEntry) (fresh fmt : Nat) (bs : List Bytes) {k count : Nat} (h : k < count) :
    (combinedElems e fresh count fmt bs)[k]? = some (combineElem e.combine fmt (Config.freeElem fresh k)
      (bs.map fun b => (unpackBits (fmtD fmt).bits count b).getD k 0)) := by
  simp [combinedElems, h, Function.comp_def]

end Sys2Proof.Machine
end

section
/-!
PROOFS. Captures: stage, send, and the comparison of replicas (17_reflection_and_recovery.md R411, R412, R421).
-/

namespace Sys2Proof.Machine

/-! ## Captures that go on, and captures that end -/

/-- The capture of a partition has ended, or one that meets a condition goes on. -/
def CaptureThen (P : Capture → Prop) (u : State) (p : Nat) : Prop :=
  (u.part p).capture = none ∨ ∃ d, (u.part p).capture = some d ∧ P d

/-- A capture that commits what another one holds. -/
def Commits (c d : Capture) : Prop := d.phase = 3 ∧ d.sectors = c.sectors ∧ d.step = c.step ∧ d.root = c.root

theorem CaptureThen.mono {P Q : Capture → Prop} {u : State} {p : Nat} (h : CaptureThen P u p) (hPQ : ∀ d, P d → Q d) :
    CaptureThen Q u p := h.imp id fun ⟨d, hd, hP⟩ => ⟨d, hd, hPQ d hP⟩

section
variable (s : State) (p : Nat)

theorem capture_pend (code : Nat) : ((s.pend p code).part p).capture = (s.part p).capture := by
  unfold State.pend
  split_ifs
  · rfl
  · rw [part_of_beside (beside_noteError ..)]
  · rw [part_of_beside (beside_showSlot ..), part_updPart_same]

theorem capture_endCapture : ((s.endCapture p).part p).capture = none := by
  unfold State.endCapture
  split
  · assumption
  · rw [setF_part, part_updPart_same]

theorem capture_failCapture (code : Nat) : ((s.failCapture p code).part p).capture = none := by
  rw [State.failCapture, capture_pend]
  exact capture_endCapture ..

theorem beside_sendReflection (peer op handle code arg1 : Nat) (last : Bool) (b : Bytes) :
    (s.sendReflection peer op handle code arg1 last b).beside = s.beside := beside_sendMsg ..

theorem capture_setHold (i : Nat) (h : HoldStage) : ((s.setHold p i h).part p).capture =
    (s.part p).capture.map fun c => { c with holders := setAt c.holders i h } := by
  rw [State.setHold, part_updPart_same]

variable {s p} in
theorem captureThen_checkCapture {P : Capture → Prop} (h : ∃ d, (s.part p).capture = some d ∧ P d) :
    CaptureThen P (s.checkCapture p) p := by
  unfold State.checkCapture
  split
  · exact .inr h
  · split
    · exact .inl (capture_endCapture ..)
    · exact .inr h

end

/-! ## PREPARE and the judgement (R411 step 5, R421) -/

section
variable {s : State} {p : Nat} {c : Capture} (hc : (s.part p).capture = some c)
include hc

/-- PREPARE to every holder: the capture commits what it holds, or has ended. -/
theorem captureThen_prepare : CaptureThen (Commits c) (s.prepare p) p := by
  unfold State.prepare
  rw [hc]
  refine captureThen_checkCapture (List.foldlRecOn (motive := fun t : State => ∃ d, (t.part p).capture = some d ∧ Commits c d)
    _ _ ⟨{ c with phase := 3 }, ?_, rfl, rfl, rfl, rfl⟩ fun t ⟨d, hd, hcommits⟩ i _ => ?_)
  · rw [part_updPart_same, hc]
    rfl
  · split
    · refine ⟨{ d with holders := setAt d.holders i .preparing }, ?_, hcommits⟩
      rw [capture_setHold]
      refine congrArg _ ((congrArg Part.capture (part_of_beside ?_ p)).trans hd)
      exact foldl_keeps State.beside (fun _ _ _ => beside_sendReflection ..) t
    · exact ⟨d, hd, hcommits⟩

theorem captureThen_judgeRoots (members agree : Nat) : CaptureThen (Commits c) (s.judgeRoots p members agree) p := by
  unfold State.judgeRoots
  extract_lets t
  split
  · exact captureThen_prepare (s := t) hc
  · exact .inl (capture_failCapture ..)

end

theorem capture_judgeRoots_of_few (s : State) (p : Nat) {members agree : Nat} (h : 2 * agree ≤ members) :
    ((s.judgeRoots p members agree).part p).capture = none := by
  rw [State.judgeRoots, if_neg (Nat.not_lt.2 h)]
  exact capture_failCapture ..

/-! ## Stage (R411 step 1, R412) -/

/-- A capture that has staged: the RNG states of the coded tiles and the stored form of the staged sectors stand in it. -/
def State.stagedCapture (s : State) (p : Nat) (c : Capture) (plain : List Bytes) : Capture :=
  { c with
    phase := 1, rng := (s.codedTiles p).flatMap fun t => (s.tile t).rngRecord,
    stored := (c.sectors.drop c.params).map fun x => s.storedSector (capSector p x), plain := plain }

section
variable {s : State} {p : PartIx} {c : Capture} (hc : (s.part p).capture = some c)
include hc

theorem captureStageComplete_of_later (h : c.phase ≠ 0) : exec (.captureStageComplete p) s = .next s := by
  show execCaptureStageComplete p s = _
  simp only [execCaptureStageComplete, hc]
  exact congrArg _ (if_pos h)

/-- The capture that has staged goes on to send, or has failed because a staged sector failed its check. -/
theorem captureStageComplete_effect (h : c.phase = 0) : ∃ u, exec (.captureStageComplete p) s = .next u ∧
    ((∃ plain, (u.part p).capture = some (s.stagedCapture p c plain)) ∨
      c.sectors.drop c.params ≠ [] ∧ (u.part p).capture = none) := by
  refine ⟨_, rfl, ?_⟩
  simp only [hc, h]
  rw [if_neg (not_not.2 rfl)]
  rcases hstaged : (c.sectors.drop c.params).foldl (State.stageSector p.val) (s, [], 0) with ⟨t, plain, code⟩
  dsimp only
  split
  · exact .inl ⟨plain, congrArg Part.capture (part_updPart_same ..)⟩
  · next hcode =>
    refine .inr ⟨fun hnone => hcode ?_, capture_failCapture ..⟩
    rw [hnone] at hstaged
    exact (congrArg (·.2.2) hstaged).symm

/-! ## Send (R411 steps 2 to 4, R412, R421) -/

theorem captureSendComplete_of_other (h : c.phase ≠ 1) : exec (.captureSendComplete p) s = .next s := by
  show execCaptureSendComplete p s = _
  simp only [execCaptureSendComplete, hc]
  exact congrArg _ (if_pos (by simp [h]))

theorem captureSendComplete_of_lost (h : c.phase = 1) (hlost : ∀ h ∈ c.holders, h = .lost) :
    exec (.captureSendComplete p) s = .next (s.endCapture p) := by
  show execCaptureSendComplete p s = _
  simp only [execCaptureSendComplete, hc]
  refine congrArg _ ((if_neg ?_).trans (if_pos ?_))
  · simp only [h, ne_eq, not_true, decide_false, Bool.false_or, List.any_eq_true, not_exists, not_and]
    intro x hx
    rw [hlost x hx]
    decide
  · simpa using hlost

/-- A capture that has sent: it compares its root or commits what it sent. -/
def Sent (c d : Capture) : Prop := (d.phase = 2 ∨ d.phase = 3) ∧ d.sectors = c.sectors ∧ d.step = c.step

omit hc in
theorem Sent.goesOn {d : Capture} {w : State} (hd : Sent c d) (hw : CaptureThen (Commits d) w p) : CaptureThen (Sent c) w p :=
  hw.mono fun x hx => by
    obtain ⟨hphase, hsectors, hstep, -⟩ := hx
    obtain ⟨-, hsectors', hstep'⟩ := hd
    exact ⟨.inr hphase, hsectors.trans hsectors', hstep.trans hstep'⟩

theorem captureSendComplete_effect (h : c.phase = 1) (hseek : ∀ h ∈ c.holders, ∀ l, h ≠ .seeking l)
    (hlive : ∃ h ∈ c.holders, h ≠ .lost) : ∃ u, exec (.captureSendComplete p) s = .next u ∧ CaptureThen (Sent c) u p := by
  refine ⟨_, rfl, ?_⟩
  split
  · next hnone => exact absurd (hnone.symm.trans hc) (by simp)
  next c' hc' =>
  obtain rfl : c = c' := Option.some.inj (hc.symm.trans hc')
  rw [if_neg ?settled, if_neg ?held]
  case held => simpa using hlive
  case settled =>
    simp only [h, ne_eq, not_true, decide_false, Bool.false_or, List.any_eq_true, not_exists, not_and]
    intro x hx
    cases x with
    | seeking l => exact absurd rfl (hseek _ hx l)
    | _ => decide
  extract_lets sectors shards
  split
  next t plain code _ =>
  split
  · exact .inl (capture_failCapture ..)
  · extract_lets data u digests rooted recorded v
    have hv : (v.part p).capture = some recorded := congrArg Part.capture (part_updPart_same ..)
    have sent : Sent c recorded := ⟨.inl rfl, rfl, rfl⟩
    split
    · exact sent.goesOn (captureThen_prepare hv)
    · split
      · exact sent.goesOn (captureThen_prepare (s := v.setF Reg.REFL_COUNT_AGREE p 0 0) hv)
      · next grp _ =>
        extract_lets w
        have hw : (w.part p).capture = some _ := congrArg Part.capture (part_updPart_same ..)
        split
        · exact sent.goesOn (captureThen_judgeRoots hw ..)
        · exact .inr ⟨_, hw, sent⟩

/-! ## The comparison (R421; log 29) -/

/-- A capture whose root one more member has answered. -/
def Capture.answeredBy (c : Capture) (rank : Nat) (root : Bytes) : Capture :=
  { c with agree := c.agree + (if root = c.root then 1 else 0), answered := c.answered ++ [rank] }

theorem paramRoot_of_member {g : Group} {rank : Fin 256} (root : List Byte) (hgroup : s.groupZero p = some g) (hphase : c.phase = 2)
    (hnew : rank.val ∉ c.answered) (hrank : rank.val < g.members.length) : exec (.paramRoot p rank root) s = .next (
      let t := s.updPart p fun x => { x with capture := some (c.answeredBy rank.val root) }
      if c.answered.length + 1 = g.members.length then t.judgeRoots p g.members.length (c.answeredBy rank.val root).agree else t) := by
  show execParamRoot p rank root s = _
  simp only [execParamRoot, hc, hgroup]
  refine congrArg _ ((if_neg ?_).trans ?_)
  · simp [hphase, hnew, hrank]
  · have answered : (c.answered ++ [rank.val]).length = c.answered.length + 1 := List.length_append
    rw [← answered]
    rfl

theorem replicaComparisonTimeout_of_capture : exec (.replicaComparisonTimeout p) s =
    .next (if c.phase = 2 then (s.setF Reg.REFL_COUNT_AGREE p 0 0).prepare p else s) := by
  show execReplicaComparisonTimeout p s = _
  simp only [execReplicaComparisonTimeout, hc]

end

/-! ## The obligation -/

/-- Settles O54: what a header does by `gateHeaderRead_of_read`, a timeout, a combining and a release by the lemma on each outcome; a
capture goes on or ends by `captureStageComplete_effect`, `captureSendComplete_effect` and the judgement of its roots. -/
theorem gatesAndCaptures : Obligations.GatesAndCaptures := by
  refine ⟨fun s g gp m e hpart hmanifest hentry => ⟨fun i o r a howner hregion =>
      ⟨gateHeaderRead_of_deaf hpart hmanifest hentry howner hregion, fun hstate hbit => ⟨fun v c hread =>
        gateHeaderRead_of_unreadable hpart hmanifest hentry howner hregion hstate hbit hread, fun v b hread => ?header⟩⟩,
    gateTimeout_of_idle, fun run hrun hstate => gateTimeout_of_collecting hmanifest hentry hrun hstate rfl,
    fun run i count fmt l hrun hheads hstate => ⟨fun v j hread =>
      gateCombineDone_of_unreadable hpart hmanifest hentry hrun hheads hstate hread, fun v bs hread => ?combine⟩,
    fun run i count f l b fmt sat nan hrun hstep hheads hcombined hstate => ⟨fun v j hwrite =>
      gateReleaseDone_of_payload_refused hpart hmanifest hentry hrun hheads hcombined hstate hwrite,
      fun v w hpayload hheader hkept => ?release⟩⟩, fun fmt w xs => if_pos rfl, fun s p c hc => ?capture⟩
  case header =>
    intro n count fmt run good
    have read := gateHeaderRead_of_read hpart hmanifest hentry howner hregion hstate hbit hread
    have good_iff : headerFits e r run b = true ↔ good := by
      simp only [headerFits, Bool.and_eq_true, List.all_eq_true, decide_eq_true_eq, and_assoc]
      rfl
    have other_step {x y : Nat} (h : n ≤ x ∨ y < n) : (n ≤ x || y < n) = true := by simpa using h
    refine ⟨fun hnone => read.trans (congrArg _ (if_pos hnone)), fun hsome hother =>
      read.trans (congrArg _ ((if_neg hsome).trans (if_pos (other_step hother)))), fun hsome hlater hstep hfirst => ?_⟩
    have counted := read.trans (congrArg _ ((if_neg hsome).trans ((if_neg ?_).trans (if_neg ?_))))
    · refine ⟨fun hbad => counted.trans (congrArg _ (if_neg (mt good_iff.1 hbad))), fun hgood =>
        ⟨_, counted.trans (congrArg _ (if_pos (good_iff.2 hgood))), countHeader_effect v g i b (m.participants e)⟩⟩
    · simpa using ⟨hlater, hstep.le⟩
    · simpa using ⟨hstep, fun a b hmem => hfirst (i, a, b) hmem rfl⟩
  case combine =>
    refine ⟨_, combinedElems e v.fresh count fmt bs,
      gateCombineDone_of_read hpart hmanifest hentry hrun hheads hstate hread, ?_, length_combinedElems ..,
      fun k hk => ⟨_, combinedElems_at e v.fresh fmt bs hk⟩, ?_⟩
    · rw [State.gateState, getF_setF_same]
      rfl
    · rw [setF_gateRun, gateRun_setGateRun]
      rfl
  case release =>
    exact ⟨_, gateReleaseDone_of_written hpart hmanifest hentry hrun hheads hcombined hstate hpayload hheader,
      endGateStep_effect w g hkept hstep⟩
  case capture =>
    refine ⟨captureStageComplete_of_later hc, fun hphase => ?stage, captureSendComplete_of_other hc,
      captureSendComplete_effect hc, captureSendComplete_of_lost hc, fun g rank root hgroup hphase hnew hrank => ?root,
      fun hphase => ?timeout, fun hphase => ?noTimeout⟩
    case stage =>
      obtain ⟨u, hu, ⟨plain, hstaged⟩ | hfailed⟩ := captureStageComplete_effect hc hphase
      · exact ⟨u, hu, .inl ⟨_, hstaged, rfl, rfl, rfl, rfl, rfl⟩⟩
      · exact ⟨u, hu, .inr hfailed⟩
    case root =>
      intro agree
      have joined : ((s.updPart p fun x => { x with capture := some (c.answeredBy rank.val root) }).part p).capture =
          some (c.answeredBy rank.val root) := congrArg Part.capture (part_updPart_same ..)
      refine ⟨_, paramRoot_of_member hc root hgroup hphase hnew hrank, fun hmore => ?_, fun hlast hfew => ?_,
        fun hlast _ d hd => ?_⟩
      · rw [if_neg hmore]
        exact joined
      · rw [if_pos hlast]
        exact capture_judgeRoots_of_few _ _ hfew
      · rw [if_pos hlast] at hd
        rcases captureThen_judgeRoots joined g.members.length agree with hnone | ⟨x, hx, hcommits⟩
        · exact absurd (hnone.symm.trans hd) (by simp)
        · obtain rfl : x = d := Option.some.inj (hx.symm.trans hd)
          obtain ⟨hcommit, -, -, hroot⟩ := hcommits
          exact ⟨hcommit, hroot⟩
    case timeout => exact (replicaComparisonTimeout_of_capture hc).trans (congrArg _ (if_pos hphase))
    case noTimeout => exact (replicaComparisonTimeout_of_capture hc).trans (congrArg _ (if_neg hphase))

end Sys2Proof.Machine
end
